-- ==== Sys2Proof/Word.lean ====
section
/-! DEFINITION. The word types: a byte of a store, a 32-bit register word, and the two wide registers of a
vector engine. -/

namespace Sys2Proof

/-- One byte of a store. -/
abbrev Byte := BitVec 8

/-- One register word (R39) or one FP32, I32 or scalar value. -/
abbrev Word := BitVec 32

/-- One vector register: 2,048 bits, element `j` of 32 bits at bits `32 j` (R150). -/
abbrev VReg := BitVec 2048

/-- One mask register: 256 bits (R153). -/
abbrev MReg := BitVec 256

/-- The bytes of a bit vector of `8 n` bits, lowest first. -/
def bvBytes (n : Nat) (x : BitVec (8 * n)) : List Byte := (List.range n).map fun i => x.extractLsb' (8 * i) 8

end Sys2Proof
end

