-- ==== Sys2Proof/Syntax.lean ====
section
/-! DEFINITION. The commands of the package: one constructor for each row of the opcode table, with the row's operands.
Operands that name what the outside world did (an error a store met, a frame received, a sensor's reading) stand in the
command, because the machine reads them and does not choose them. -/

namespace Sys2Proof

/-- R39: who makes a register access. A region control core and a die manager are named by their number; a host channel
by whether it may write (R437). -/
inductive Requester where
  | regionCore (region : BitVec 4)
  | dieManager (die : BitVec 2)
  | packageManager
  | host (writable : Bool)
  | testPort
  deriving DecidableEq, Repr

/-- R213, R216, R220: what the error code of a store said of a read: no error, a corrected one, or an uncorrectable one. -/
inductive Ecc where
  | ok
  | corrected
  | uncorrectable
  deriving DecidableEq, Repr

/-- R213, R219: what the code of a store said of the words read of a line: the 64-byte line of a block, or of a row. -/
structure ReadEcc where
  ecc : Ecc
  line : BitVec 17
  deriving DecidableEq, Repr

/-- R213, R339: what the code of a larder said of the read of an observation line: that of slot `slot` of entry `entry` of the plan. -/
structure ObsRead where
  ecc : Ecc
  entry : BitVec 16
  slot : BitVec 3
  deriving DecidableEq, Repr

/-- R54, R57: the tag of a group arm, and the member and the word of a check whose read is uncorrectable, if there is one. -/
structure GroupArm where
  tag : BitVec 6
  err : Option (BitVec 5 × BitVec 10)
  deriving DecidableEq, Repr

/-- R65: the requester of a reply, by its page, and the number of its request. -/
structure ReplyTo where
  pg : BitVec 20
  tag : BitVec 4
  deriving DecidableEq, Repr

/-- R43, R249: the address of a register read, and whether the word it reads is uncorrectable. -/
structure ReadAt where
  addr : BitVec 32
  uerr : Bool
  deriving DecidableEq, Repr

/-- R43, R438: the channel of a REG message, and those of its reads whose word is uncorrectable, by their place in the message. -/
structure RegMsg where
  handle : BitVec 32
  uerrs : List (BitVec 16)
  deriving DecidableEq, Repr

/-- R187: the operand fields of the M slot. -/
structure MSlot where
  arr : Bool
  set : Bool
  isOpen : Bool
  isClose : Bool
  seg : BitVec 16
  deriving DecidableEq, Repr

/-- R191: the operand fields of the V slot; `opx` and `vb`, `vc` belong to the register form, `imm` to the immediate
form. -/
structure VSlot where
  vd : BitVec 5
  va : BitVec 5
  cqa : Bool
  mreg : BitVec 3
  inv : Bool
  zm : Bool
  view : BitVec 3
  rel : Bool
  attr : BitVec 2
  imf : Bool
  imk : BitVec 2
  vb : BitVec 5
  vc : BitVec 5
  opx : BitVec 22
  imm : BitVec 32
  deriving DecidableEq, Repr

/-- R195: the operand fields of the D slot. -/
structure DSlot where
  reg : BitVec 5
  sb : BitVec 4
  off : BitVec 13
  mreg : BitVec 3
  inv : Bool
  view : BitVec 3
  inc : BitVec 13
  pinc : Bool
  tag : BitVec 4
  deriving DecidableEq, Repr

/-- R198: the operand fields of the C slot. -/
structure CSlot where
  sd : BitVec 4
  sa : BitVec 4
  sb : BitVec 4
  cx : BitVec 12
  imm : BitVec 32
  deriving DecidableEq, Repr

/-- R394: the fields of a beat marker that a receiver uses. -/
structure Marker where
  prio : BitVec 8
  hops : BitVec 7
  port : BitVec 6
  source : BitVec 18
  beat : BitVec 64
  period : BitVec 8
  vote : BitVec 2
  complete : Bool
  dirty : Bool
  decision : BitVec 2
  decDirty : Bool
  maxHops : BitVec 7
  step : BitVec 32
  apply : BitVec 64
  sendOffset : BitVec 32
  self : BitVec 18
  deriving DecidableEq, Repr

/-- R391: a shuttle as a port receives or sends it. -/
structure Shuttle where
  kind : BitVec 4
  cls : Bool
  units : BitVec 6
  hops : BitVec 7
  dst : BitVec 18
  src : BitVec 18
  flow : BitVec 24
  shuttle : BitVec 16
  total : BitVec 16
  step : BitVec 32
  start : BitVec 32
  payload : List Byte
  crc : BitVec 32
  deriving DecidableEq, Repr

/-- R414, R423: where a segment came from: MAC address, IP address (an IPv4 address in the low 32 bits) and UDP port. -/
structure Endpoint where
  mac : BitVec 48
  ip : BitVec 128
  udp : BitVec 16
  deriving DecidableEq, Repr

/-- R420: a segment of the host transport as it was received. -/
structure Segment where
  magic : BitVec 32
  ver : BitVec 4
  isFirst : Bool
  isLast : Bool
  len : BitVec 14
  session : BitVec 32
  seq : BitVec 32
  ack : BitVec 32
  sack : BitVec 32
  channel : BitVec 32
  window : BitVec 16
  reserved : BitVec 24
  payload : List Byte
  crc : BitVec 32
  deriving DecidableEq, Repr

/-- R412 to R416: what the port finds of a received frame: its length, its FCS, an 802.1Q tag, a PAUSE or priority flow-control
frame, an EAPOL frame, its SecTAG with packet number and ICV, a protocol the port serves, sound IP and UDP headers, and room in
the receive buffer. -/
structure EthFrame where
  len : BitVec 16
  fcsOk : Bool
  tagged : Bool
  pause : Bool
  eapol : Bool
  isSecured : Bool
  pn : BitVec 64
  icvOk : Bool
  served : Bool
  headerOk : Bool
  room : Bool
  deriving DecidableEq, Repr

/-- R415: what an MKA frame under the provisioned CKN tells: whether its ICV holds under the CAK, whether the peer is live, and the
association number and packet number of a distributed SAK. -/
structure MkaFrame where
  icvOk : Bool
  live : Bool
  sak : Option (BitVec 2)
  deriving DecidableEq, Repr

/-- R417: the fields of an announce message that the best master clock algorithm compares, in its order, and the UTC offset. -/
structure Announce where
  domain : BitVec 8
  priority1 : BitVec 8
  clockClass : BitVec 8
  accuracy : BitVec 8
  variance : BitVec 16
  priority2 : BitVec 8
  gm : BitVec 64
  stepsRemoved : BitVec 16
  utcOffset : BitVec 16
  deriving DecidableEq, Repr

/-- R554: the test-port instructions: IDCODE, BYPASS, the boundary-scan instructions that only observe pins (SAMPLE, PRELOAD), and those
that drive them. -/
inductive TestInstr where
  | idcode
  | bypass
  | sample
  | drivePins
  deriving DecidableEq, Repr

/-- The commands (spec/opcode_table.json), one constructor per row in the table's order. -/
inductive Instr where
  /-- REGISTER_WRITE, R41: A write to a register field that has no behaviour of its own takes effect according to its access code (RW, SH, LK, W1C). -/
  | registerWrite (r : Requester) (session addr value : BitVec 32)
  /-- PAGE_CTL_EN, R68: A write of 1 to PAGE_CTL.EN moves an OFF block to IDLE; a write of 0 while RUN starts a quiesce that ends in OFF. -/
  | pageCtlEn (r : Requester) (pg : BitVec 20) (en : Bool)
  /-- PAGE_CTL_QREQ_SET, R63: A 0-to-1 change of PAGE_CTL.QREQ makes the block and its contained blocks enter QUIESCING, at once or at the next beat boundary. -/
  | pageCtlQreqSet (r : Requester) (pg : BitVec 20)
  /-- PAGE_CTL_QREQ_CLEAR, R68: A write of 0 to PAGE_CTL.QREQ releases a QUIESCED block and the blocks reached through containment to IDLE or OFF. -/
  | pageCtlQreqClear (r : Requester) (pg : BitVec 20)
  /-- PAGE_CTL_RREQ, R69: A write of 1 to PAGE_CTL.RREQ quiesces the block if needed, resets its registers and shadow set, ends in OFF and raises 0x0108. -/
  | pageCtlRreq (r : Requester) (pg : BitVec 20)
  /-- PAGE_ARM_ARM, R51: A write of PAGE_ARM.ARM freezes the shadow set and runs the consistency check, leaving STATUS ARMED or REJECTED. -/
  | pageArmArm (r : Requester) (pg : BitVec 20) (tag : BitVec 6) (err : Option (BitVec 10))
  /-- PAGE_ARM_DISCARD, R53: A write of PAGE_ARM.DISCARD cancels an ARMED page in time, reloading the shadow set, or is refused with ARMED. -/
  | pageArmDiscard (r : Requester) (pg : BitVec 20) (tag : BitVec 6)
  /-- SHADOW_COMMIT, R51: At the commit beat boundary an ARMED page reruns its dependency check and applies its shadow set in the first cycle, raising 0x0101. -/
  | shadowCommit (pg : BitVec 20)
  /-- CG_CTL_ARM, R57: A group arm checks membership and every member's shadow set and leaves the group armed or rejected. -/
  | cgCtlArm (r : Requester) (g : BitVec 3) (a : GroupArm)
  /-- CG_CTL_DISCARD, R58: A group discard accepted at least 20 µs before the boundary discards every member with REASON SOFTWARE. -/
  | cgCtlDiscard (r : Requester) (g : BitVec 3)
  /-- GROUP_COMMIT, R57: At the first boundary at least 20 µs after the group arm, all members rerun dependency checks and commit together, raising 0x0103. -/
  | groupCommit (g : BitVec 3)
  /-- QUIESCE_DRAIN_COMPLETE, R63: When OUTSTANDING reaches 0 in QUIESCING the block becomes QUIESCED and raises 0x0106. -/
  | quiesceDrainComplete (pg : BitVec 20)
  /-- QUIESCE_TIMEOUT, R64: When PAGE_TIMEOUT.LIMIT expires in QUIESCING, open requests complete with TIMEOUT, own requests are abandoned and the block becomes QUIESCED with 0x0107. -/
  | quiesceTimeout (pg : BitVec 20)
  /-- REQUEST_TIMEOUT, R66: A requester whose target gives no completion within its PAGE_TIMEOUT.LIMIT completes the request itself with TIMEOUT. -/
  | requestTimeout (pg : BitVec 20) (tag : BitVec 4)
  /-- REPLY_ARRIVAL, R65: A reply reaching a QUIESCED or FAULT block, or arriving after a requester's timeout, is discarded and counted in DROPS. -/
  | replyArrival (reply : ReplyTo)
  /-- UNCORRECTABLE_ERROR, R70: An uncorrectable error the block cannot contain puts it into FAULT and raises 0x010A. -/
  | uncorrectableError (pg : BitVec 20) (src : BitVec 8)
  /-- PAGE_EVT_CLEAR, R72: A W1C write to a PAGE_EVT bit clears the pending event and re-arms its record. -/
  | pageEvtClear (r : Requester) (pg : BitVec 20) (w : BitVec 32)
  /-- PAGE_CERR_CLR, R46: Writing 1 to PAGE_CERR.CLR clears the corrected-error count and source. -/
  | pageCerrClr (r : Requester) (pg : BitVec 20)
  /-- PAGE_UERR_CLR, R46: Writing 1 to PAGE_UERR.CLR clears the uncorrectable-error count and source. -/
  | pageUerrClr (r : Requester) (pg : BitVec 20)
  /-- EVT_LOST, R74: When space returns in a full event queue, the EVENT_Q page emits one record 0x010B giving the number lost. -/
  | evtLost (q : BitVec 6)
  /-- SELVEDGE_BLOCK_RECEIVE, R22: A selvedge receiver holds a whole 4 KiB block, checks its CRC and forwards, writes or requests a resend. -/
  | selvedgeBlockReceive (edge : BitVec 2) (back : Bool) (dst : BitVec 2) (dest : BitVec 48) (block : List Byte) (crc : BitVec 32)
  /-- FAULT_MAP_CLEAR, R21: An authenticated fault-map clear removes recorded retirements from MRAM. -/
  | faultMapClear (auth : Bool) (faults : List (BitVec 3 × BitVec 12))
  /-- MNOP, R187: M-slot no-operation. -/
  | mnop (u : BitVec 12) (last : Bool)
  /-- MPASS, R188: Places a pass taking its parameters from segment descriptor SEG_ID into the pass queue of array ARR. -/
  | mpass (u : BitVec 12) (f : MSlot) (ecc : Ecc) (last : Bool)
  /-- MFENCE, R188: Waits until array ARR has no pass queued or in flight and both sets A and B are FREE. -/
  | mfence (u : BitVec 12) (f : MSlot) (last : Bool)
  /-- PASS_ENTRY, R126: A queued pass's front enters the gang at the cycle given by the previous front, the weight load and set availability. -/
  | passEntry (u : BitVec 12) (arr : Bool) (ecc : Ecc)
  /-- TILE_DRAIN, R116: A DRAINING set writes its next 32-row tile into the cloth queue when a slot is free, making it WHOLE and freeing the set after the last tile. -/
  | tileDrain (u : BitVec 12) (arr set eccBad : Bool)
  /-- TILE_CHECK_START, R171: A pop in progress takes the oldest WHOLE tile into CHECKING once one exists and the previous check has released. -/
  | tileCheckStart (u : BitVec 12)
  /-- TILE_CHECK_DONE, R176: After 40 cycles the column, residue and row checks of a tile finish and the tile becomes READY or a mismatch is handled. -/
  | tileCheckDone (u : BitVec 12) (upset : List (BitVec 11 × BitVec 32)) (storeErr : Bool)
  /-- RECOMPUTE_START, R139: After the pass in flight finishes, the gang leader reruns the failing tile's rows through the segment into set X. -/
  | recomputeStart (u : BitVec 12)
  /-- RECOMPUTE_DONE, R139: The recomputed tile with RECOMP = 1 replaces the head of the cloth queue and a fresh check starts. -/
  | recomputeDone (u : BitVec 12) (held : BitVec 32)
  /-- MATRIX_TEST_RUN, R142: Writing MATRIX.TEST.RUN starts the built-in array test of both arrays. -/
  | matrixTestRun (r : Requester) (u : BitVec 12)
  /-- ARRAY_TEST_DONE, R146: After 180,000 cycles the array test sets TEST_STAT and raises 0x0214 on failure. -/
  | arrayTestDone (u : BitVec 12) (fail0 fail1 : Bool)
  /-- MATRIX_CNT_CLR, R146: Writing MATRIX.CNT_CLR clears the mismatch, cycle and flag counters. -/
  | matrixCntClr (r : Requester) (u : BitVec 12)
  /-- VNOP, R192: V-slot no-operation. -/
  | vnop (u : BitVec 12) (last : Bool)
  /-- ADD, R155: FA-class FP32 addition on 64 elements. -/
  | vAdd (u : BitVec 12) (f : VSlot) (last : Bool)
  /-- SUB, R155: FA-class FP32 subtraction. -/
  | vSub (u : BitVec 12) (f : VSlot) (last : Bool)
  /-- MUL, R155: FA-class FP32 multiplication. -/
  | vMul (u : BitVec 12) (f : VSlot) (last : Bool)
  /-- FMA, R155: FA-class fused multiply-add a·b + c. -/
  | vFma (u : BitVec 12) (f : VSlot) (last : Bool)
  /-- FMS, R155: FA-class fused multiply-subtract a·b − c. -/
  | vFms (u : BitVec 12) (f : VSlot) (last : Bool)
  /-- FNMA, R155: FA-class negated multiply-add −a·b + c. -/
  | vFnma (u : BitVec 12) (f : VSlot) (last : Bool)
  /-- ABS, R157: FX-class absolute value. -/
  | vAbs (u : BitVec 12) (f : VSlot) (last : Bool)
  /-- NEG, R157: FX-class negation. -/
  | vNeg (u : BitVec 12) (f : VSlot) (last : Bool)
  /-- MIN, R157: FX-class element minimum. -/
  | vMinE (u : BitVec 12) (f : VSlot) (last : Bool)
  /-- MAX, R157: FX-class element maximum. -/
  | vMaxE (u : BitVec 12) (f : VSlot) (last : Bool)
  /-- MAXA, R157: FX-class larger-magnitude selection. -/
  | vMaxaE (u : BitVec 12) (f : VSlot) (last : Bool)
  /-- CLASS, R156: Writes a mask bit per element that belongs to the classes selected by a CTL immediate. -/
  | vClass (u : BitVec 12) (f : VSlot) (last : Bool)
  /-- SEL, R191: Writes a where the select mask bit is 1 and b otherwise, bits unchanged. -/
  | vSel (u : BitVec 12) (f : VSlot) (last : Bool)
  /-- VMOV, R192: Copies source A unchanged. -/
  | vMov (u : BitVec 12) (f : VSlot) (last : Bool)
  /-- CMP_EQ, R157: Compares for equality and writes a mask. -/
  | cmpEq (u : BitVec 12) (f : VSlot) (last : Bool)
  /-- CMP_NE, R157: Compares for inequality and writes a mask. -/
  | cmpNe (u : BitVec 12) (f : VSlot) (last : Bool)
  /-- CMP_LT, R157: Compares for less-than and writes a mask. -/
  | cmpLt (u : BitVec 12) (f : VSlot) (last : Bool)
  /-- CMP_LE, R157: Compares for less-or-equal and writes a mask. -/
  | cmpLe (u : BitVec 12) (f : VSlot) (last : Bool)
  /-- CMP_GT, R157: Compares for greater-than and writes a mask. -/
  | cmpGt (u : BitVec 12) (f : VSlot) (last : Bool)
  /-- CMP_GE, R157: Compares for greater-or-equal and writes a mask. -/
  | cmpGe (u : BitVec 12) (f : VSlot) (last : Bool)
  /-- DIV, R157: DQ-class division. -/
  | vDiv (u : BitVec 12) (f : VSlot) (last : Bool)
  /-- RCP, R157: DQ-class reciprocal. -/
  | vRcp (u : BitVec 12) (f : VSlot) (last : Bool)
  /-- SQRT, R157: DQ-class square root. -/
  | vSqrt (u : BitVec 12) (f : VSlot) (last : Bool)
  /-- RSQRT, R157: DQ-class reciprocal square root. -/
  | vRsqrt (u : BitVec 12) (f : VSlot) (last : Bool)
  /-- EXP2, R158: TA-class base-2 exponential. -/
  | vExp2 (u : BitVec 12) (f : VSlot) (last : Bool)
  /-- LOG2, R158: TA-class base-2 logarithm. -/
  | vLog2 (u : BitVec 12) (f : VSlot) (last : Bool)
  /-- EXP, R158: TB-class exponential. -/
  | vExp (u : BitVec 12) (f : VSlot) (last : Bool)
  /-- LOG, R158: TB-class natural logarithm. -/
  | vLog (u : BitVec 12) (f : VSlot) (last : Bool)
  /-- TANH, R158: TB-class hyperbolic tangent. -/
  | vTanh (u : BitVec 12) (f : VSlot) (last : Bool)
  /-- SIGMOID, R158: TB-class logistic function. -/
  | vSigmoid (u : BitVec 12) (f : VSlot) (last : Bool)
  /-- ERF, R158: TC-class error function. -/
  | vErf (u : BitVec 12) (f : VSlot) (last : Bool)
  /-- SIN, R158: TC-class sine. -/
  | vSin (u : BitVec 12) (f : VSlot) (last : Bool)
  /-- COS, R158: TC-class cosine. -/
  | vCos (u : BitVec 12) (f : VSlot) (last : Bool)
  /-- CVT_F16F32, R192: Converts FP32 A to the F16 half that VIEW names. -/
  | cvtF16f32 (u : BitVec 12) (f : VSlot) (last : Bool)
  /-- CVT_F32F16, R192: Converts the F16 half of A that VIEW names to FP32. -/
  | cvtF32f16 (u : BitVec 12) (f : VSlot) (last : Bool)
  /-- CVT_I32F32, R157: Converts FP32 to I32 with RNE and saturation. -/
  | cvtI32f32 (u : BitVec 12) (f : VSlot) (last : Bool)
  /-- CVT_F32I32, R192: Converts I32 to FP32 with RNE. -/
  | cvtF32i32 (u : BitVec 12) (f : VSlot) (last : Bool)
  /-- CVT_TOB, R164: Converts 64 float elements into two block-scaled blocks and adds the reports to CSTAT_n. -/
  | cvtTob (u : BitVec 12) (f : VSlot) (last : Bool)
  /-- CVT_FROMB, R166: Decodes codes and scale words of one part into 64 F32 elements or one F16 half. -/
  | cvtFromb (u : BitVec 12) (f : VSlot) (last : Bool)
  /-- IADD, R155: I32 addition modulo 2^32. -/
  | iadd (u : BitVec 12) (f : VSlot) (last : Bool)
  /-- ISUB, R155: I32 subtraction modulo 2^32. -/
  | isub (u : BitVec 12) (f : VSlot) (last : Bool)
  /-- IMUL, R155: I32 multiplication, low 32 bits. -/
  | imul (u : BitVec 12) (f : VSlot) (last : Bool)
  /-- IMIN, R155: I32 signed minimum. -/
  | imin (u : BitVec 12) (f : VSlot) (last : Bool)
  /-- IMAX, R155: I32 signed maximum. -/
  | imax (u : BitVec 12) (f : VSlot) (last : Bool)
  /-- ICMP_EQ, R192: Signed I32 equality compare into a mask. -/
  | icmpEq (u : BitVec 12) (f : VSlot) (last : Bool)
  /-- ICMP_NE, R192: Signed I32 inequality compare into a mask. -/
  | icmpNe (u : BitVec 12) (f : VSlot) (last : Bool)
  /-- ICMP_LT, R192: Signed I32 less-than compare into a mask. -/
  | icmpLt (u : BitVec 12) (f : VSlot) (last : Bool)
  /-- ICMP_LE, R192: Signed I32 less-or-equal compare into a mask. -/
  | icmpLe (u : BitVec 12) (f : VSlot) (last : Bool)
  /-- ICMP_GT, R192: Signed I32 greater-than compare into a mask. -/
  | icmpGt (u : BitVec 12) (f : VSlot) (last : Bool)
  /-- ICMP_GE, R192: Signed I32 greater-or-equal compare into a mask. -/
  | icmpGe (u : BitVec 12) (f : VSlot) (last : Bool)
  /-- AND, R155: Bitwise AND over 2,048 bits. -/
  | vAnd (u : BitVec 12) (f : VSlot) (last : Bool)
  /-- OR, R155: Bitwise OR over 2,048 bits. -/
  | vOr (u : BitVec 12) (f : VSlot) (last : Bool)
  /-- XOR, R155: Bitwise XOR over 2,048 bits. -/
  | vXor (u : BitVec 12) (f : VSlot) (last : Bool)
  /-- NOT, R155: Bitwise NOT over 2,048 bits. -/
  | vNot (u : BitVec 12) (f : VSlot) (last : Bool)
  /-- SHL, R192: Per-element logical left shift. -/
  | vShl (u : BitVec 12) (f : VSlot) (last : Bool)
  /-- SHR, R192: Per-element logical right shift. -/
  | vShr (u : BitVec 12) (f : VSlot) (last : Bool)
  /-- SAR, R192: Per-element arithmetic right shift. -/
  | vSar (u : BitVec 12) (f : VSlot) (last : Bool)
  /-- VBCAST, R156: Copies element j to every element. -/
  | vbcast (u : BitVec 12) (f : VSlot) (last : Bool)
  /-- VROT, R156: Rotates elements by the immediate count. -/
  | vrot (u : BitVec 12) (f : VSlot) (last : Bool)
  /-- VZIP, R156: Interleaves the low halves of two sources. -/
  | vzip (u : BitVec 12) (f : VSlot) (last : Bool)
  /-- VUNZIP, R156: Separates even and odd elements into low and high halves. -/
  | vunzip (u : BitVec 12) (f : VSlot) (last : Bool)
  /-- VPERM, R156: Gathers elements by the index register. -/
  | vperm (u : BitVec 12) (f : VSlot) (last : Bool)
  /-- VSUM, R159: Adds the lanes of each segment in a fixed tree and broadcasts the sum. -/
  | vsum (u : BitVec 12) (f : VSlot) (last : Bool)
  /-- VMAX, R161: Reduces each segment with MAX. -/
  | vMaxR (u : BitVec 12) (f : VSlot) (last : Bool)
  /-- VMIN, R161: Reduces each segment with MIN. -/
  | vMinR (u : BitVec 12) (f : VSlot) (last : Bool)
  /-- VAMAX, R161: Reduces each segment with MAXA. -/
  | vAmaxR (u : BitVec 12) (f : VSlot) (last : Bool)
  /-- MAND, R155: Mask AND. -/
  | mand (u : BitVec 12) (f : VSlot) (last : Bool)
  /-- MOR, R155: Mask OR. -/
  | mor (u : BitVec 12) (f : VSlot) (last : Bool)
  /-- MXOR, R155: Mask XOR. -/
  | mxor (u : BitVec 12) (f : VSlot) (last : Bool)
  /-- MANDN, R155: Mask AND-NOT. -/
  | mandn (u : BitVec 12) (f : VSlot) (last : Bool)
  /-- MNOT, R155: Mask NOT. -/
  | mnot (u : BitVec 12) (f : VSlot) (last : Bool)
  /-- MSET, R156: Sets mask bits 0 to n − 1 and clears the rest. -/
  | mset (u : BitVec 12) (f : VSlot) (last : Bool)
  /-- MCOUNT, R156: Counts selected set mask bits and writes the count to all I32 elements. -/
  | mcount (u : BitVec 12) (f : VSlot) (last : Bool)
  /-- MSIGN, R156: Sets each mask bit to the sign bit of its element. -/
  | msign (u : BitVec 12) (f : VSlot) (last : Bool)
  /-- VFLAGS, R182: Copies VECTOR.STICKY into every I32 element of the destination. -/
  | vflags (u : BitVec 12) (f : VSlot) (last : Bool)
  /-- VSTAT, R167: Copies CSTAT_n into elements 0–3 and optionally clears it. -/
  | vstat (u : BitVec 12) (f : VSlot) (last : Bool)
  /-- VPOP, R171: Requests the next tile of the cloth queue, waiting behind at most one pop in progress. -/
  | vpop (u : BitVec 12) (f : VSlot) (last : Bool)
  /-- POP_TIMEOUT, R174: A pop waiting POP_LIMIT cycles without a WHOLE tile raises 0x0303 and stops issue. -/
  | popTimeout (u : BitVec 12)
  /-- VECTOR_CNT_CLR, R181: Writing VECTOR.CNT_CLR clears the vector cycle, tile and flag counters. -/
  | vectorCntClr (r : Requester) (u : BitVec 12)
  /-- VECTOR_CSTAT_CLR, R181: Writing VECTOR.CSTAT_CLR clears every CSTAT_n. -/
  | vectorCstatClr (r : Requester) (u : BitVec 12)
  /-- DNOP, R195: D-slot no-operation. -/
  | dnop (u : BitVec 12) (last : Bool)
  /-- DLD, R196: Loads 256 bytes from the local store into a vector register. -/
  | dld (u : BitVec 12) (f : DSlot) (ecc : Ecc) (line : BitVec 2) (last : Bool)
  /-- DST, R196: Stores a vector register, leaving inactive elements' bytes unchanged. -/
  | dst (u : BitVec 12) (f : DSlot) (ecc : Ecc) (word : BitVec 6) (last : Bool)
  /-- DLDM, R196: Loads 32 bytes into a mask register. -/
  | dldm (u : BitVec 12) (f : DSlot) (ecc : Ecc) (last : Bool)
  /-- DSTM, R196: Stores a mask register's 32 bytes. -/
  | dstm (u : BitVec 12) (f : DSlot) (last : Bool)
  /-- DKICK, R196: Passes the descriptor block at the effective address to the cluster movement engine under a tag. -/
  | dkick (u : BitVec 12) (f : DSlot) (last : Bool)
  /-- DWAIT, R196: Holds the bundle until every kick with its tag has completed. -/
  | dwait (u : BitVec 12) (f : DSlot) (last : Bool)
  /-- CNOP, R198: C-slot no-operation. -/
  | cnop (u : BitVec 12) (last : Bool)
  /-- SLI, R198: Loads an immediate into a scalar register. -/
  | sli (u : BitVec 12) (f : CSlot) (last : Bool)
  /-- SADD, R198: Scalar addition modulo 2^32. -/
  | sadd (u : BitVec 12) (f : CSlot) (last : Bool)
  /-- SSUB, R198: Scalar subtraction modulo 2^32. -/
  | ssub (u : BitVec 12) (f : CSlot) (last : Bool)
  /-- SADDI, R198: Scalar add-immediate. -/
  | saddi (u : BitVec 12) (f : CSlot) (last : Bool)
  /-- SSHLI, R198: Scalar left shift by immediate. -/
  | sshli (u : BitVec 12) (f : CSlot) (last : Bool)
  /-- SSHRI, R198: Scalar logical right shift by immediate. -/
  | sshri (u : BitVec 12) (f : CSlot) (last : Bool)
  /-- SANDI, R198: Scalar AND with immediate. -/
  | sandi (u : BitVec 12) (f : CSlot) (last : Bool)
  /-- SLIDX, R198: Loads the iteration index of an open loop level. -/
  | slidx (u : BitVec 12) (f : CSlot) (last : Bool)
  /-- LOOP, R200: Opens a loop of IMM + 1 iterations over the following body. -/
  | seqLoop (u : BitVec 12) (f : CSlot) (last : Bool)
  /-- WBEAT, R201: Holds the bundle until the named window of a plan beat begins. -/
  | wbeat (u : BitVec 12) (f : CSlot) (last : Bool)
  /-- BAR, R202: Arrives at a cluster barrier, which releases all participants 4 cycles after the last arrival. -/
  | seqBar (u : BitVec 12) (f : CSlot) (last : Bool)
  /-- BARRIER_TIMEOUT, R202: A barrier open BAR_LIMIT cycles after its first arrival fails, stopping waiters with 0x0406. -/
  | barrierTimeout (c : BitVec 12) (n : BitVec 3)
  /-- SRCTX, R203: Sets the unit's SR context to a tensor id and element index. -/
  | srctx (u : BitVec 12) (f : CSlot) (last : Bool)
  /-- SEVT, R198: Raises event 0x0404 with DETAIL = IMM. -/
  | sevt (u : BitVec 12) (f : CSlot) (last : Bool)
  /-- END, R204: Stops issue after its bundle and puts the sequencer in ENDED. -/
  | seqEnd (u : BitVec 12) (last : Bool)
  /-- ILLEGAL_BUNDLE, R205: A bundle breaking an image rule stops issue with STATE.STOP 4 and raises 0x0408. -/
  | illegalBundle (u : BitVec 12) (ecc : Ecc)
  /-- SEQ_START, R204: Writing SEQ.START arms a program start, or is refused with LOCKED in a running state. -/
  | seqStart (r : Requester) (u : BitVec 12)
  /-- PROGRAM_START, R204: At the first compute window after START the program begins at SEQ.ENTRY with no open loops. -/
  | programStart (u : BitVec 12)
  /-- SEQ_CNT_CLR, R206: Writing SEQ.CNT_CLR clears the issue and stall counters. -/
  | seqCntClr (r : Requester) (u : BitVec 12)
  /-- FILL_GO, R208: Writing ISTORE.FILL_GO starts a fill of instruction-store slots from the larder, or fails it at once. -/
  | fillGo (r : Requester) (u : BitVec 12)
  /-- ISTORE_FILL_COMPLETE, R208: A fill ends, checking its CRC and raising 0x0409 or 0x040A. -/
  | istoreFillComplete (u : BitVec 12) (ecc : Ecc) (line : BitVec 10)
  /-- SCRUB_LINE, R217: In slack windows a store reads one line per 16 cycles and rewrites lines that held a corrected word. -/
  | scrubLine (larder : Bool) (inst : BitVec 12) (line : BitVec 18) (ecc : Ecc)
  /-- PATROL_READ, R223: HBM patrol reads blocks of the used partitions in slack windows. -/
  | patrolRead (stack : BitVec 3) (block : BitVec 27) (passEnd : Bool)
  /-- HBM_CRC_RETRY, R220: A block whose CRC failed is read again and passes or is declared failed. -/
  | hbmCrcRetry (stack : BitVec 3) (block : BitVec 27) (data : List Byte)
  /-- KICK_GO, R232: Writing KICK.GO kicks the block at KICK_ADDR under a core tag, or is refused when the buffer is full. -/
  | kickGo (r : Requester) (rm : Bool) (inst : BitVec 12) (tag : BitVec 4)
  /-- CMOVE_PASS_TO_RMOVE, R227: CMOVE passes a block it cannot serve to its region's RMOVE once RMOVE has room. -/
  | cmovePassToRmove (c : BitVec 12)
  /-- MOVE_BLOCK_START, R228: An engine takes its next block in acceptance order and checks it before running any descriptor. -/
  | moveBlockStart (rm : Bool) (inst : BitVec 12) (e : ReadEcc)
  /-- MOVE_BLOCK_COMPLETE, R229: A block completes when its last write lands or a fault ends it, completing its tag. -/
  | moveBlockComplete (rm : Bool) (inst : BitVec 12)
  /-- NOP, R226: Descriptor operation that does nothing. -/
  | descNop (rm : Bool) (inst : BitVec 12)
  /-- COPY, R226: Descriptor copying ROWS + 1 rows of whole 64-byte units. -/
  | descCopy (rm : Bool) (inst : BitVec 12) (e : ReadEcc) (row : BitVec 16)
  /-- ZERO, R226: Descriptor writing zero bytes in the destination rows. -/
  | descZero (rm : Bool) (inst : BitVec 12)
  /-- COMPRESS, R234: Descriptor cutting source rows into 64 KiB blocks and writing one cellar record per block. -/
  | descCompress (rm : Bool) (inst : BitVec 12) (e : ReadEcc) (row : BitVec 16)
  /-- DECOMPRESS, R236: Descriptor checking and decoding cellar records into destination rows. -/
  | descDecompress (rm : Bool) (inst : BitVec 12) (e : ReadEcc) (row : BitVec 16)
  /-- TO_BLOCK, R241: Descriptor converting float rows into block-scaled codes and scale words. -/
  | descToBlock (rm : Bool) (inst : BitVec 12) (e : ReadEcc) (row : BitVec 16)
  /-- FROM_BLOCK, R241: Descriptor decoding block-scaled codes and scales into float rows. -/
  | descFromBlock (rm : Bool) (inst : BitVec 12) (e : ReadEcc) (row : BitVec 16)
  /-- EXCH_ENC, R372: Descriptor selecting and coding one shard's gradient blocks into a contribution and writing the new remainder. -/
  | descExchEnc (inst : BitVec 12) (e : ReadEcc) (row : BitVec 16)
  /-- EXCH_DEC, R375: Descriptor summing on-time contributions and carries of a shard in fixed order and writing the result. -/
  | descExchDec (inst : BitVec 12) (e : ReadEcc) (row : BitVec 16)
  /-- COMPRESS_CNT_CLR, R242: Writing COMPRESS.CNT_CLR clears the record counters and every CSTAT_n. -/
  | compressCntClr (r : Requester) (inst : BitVec 12)
  /-- BEAT_BOUNDARY, R244: At each beat boundary BEAT_NUM increments and the per-beat package actions run. -/
  | beatBoundary
  /-- EXCHANGE_WINDOW_START, R245: At T_X the exchange window opens for scheduled link slots and WBEAT of window 1. -/
  | exchangeWindowStart
  /-- SLACK_WINDOW_START, R256: At T_S the slack window opens for unscheduled users in priority order. -/
  | slackWindowStart (credit : BitVec 32)
  /-- BEAT_MARKER, R258: A received beat marker updates claims, upstream, phase, votes and decisions. -/
  | beatMarker (port : BitVec 5) (crcOk : Bool) (m : Marker) (phase rate : BitVec 32)
  /-- MARKER_TIMEOUT, R260: No accepted marker for MARKER_TIMEOUT beats moves LOCKED to HOLDOVER with 0x0602. -/
  | markerTimeout
  /-- HOLD_LIMIT_EXPIRY, R260: HOLD_LIMIT beats of holdover move the package to LOST with 0x0603 and vote FAIL. -/
  | holdLimitExpiry
  /-- SOURCE_TIMEOUT, R266: A source claim not refreshed for SOURCE_TIMEOUT beats is dropped and election reruns with 0x0604. -/
  | sourceTimeout
  /-- DELAY_REMEASURE, R261: Every 1,000 beats each port's one-way delay is remeasured, flagging live route entries that break R399. -/
  | delayRemeasure (port : BitVec 5) (delay : BitVec 24)
  /-- VOTE_TIMEOUT, R272: A downstream aggregate still incomplete VOTE_LIMIT beats after the planned end counts as FAIL. -/
  | voteTimeout (port : BitVec 5)
  /-- STEP_START, R270: A step begins at START_BEAT or the apply beat of the previous decision. -/
  | stepStart
  /-- STEP_VOTE, R271: A package sets its step vote when the step's work is finished or on a failure. -/
  | stepVote (finished : Bool)
  /-- STEP_COMMIT, R274: At the apply boundary of a COMMIT decision the step's double-buffered updates become live and 0x060A is raised. -/
  | stepCommit
  /-- STEP_REPLAY, R343: At the apply boundary of a REPLAY decision the attempt is discarded, corrections applied or discarded, and the step reruns. -/
  | stepReplay
  /-- STEP_RECOVER, R274: At the apply boundary of a RECOVER decision the packages enter the restore procedure. -/
  | stepRecover
  /-- FORCE_WAIT_EXCEEDED, R279: An unnamed contribution not arrived FORCE_WAIT beats after its deadline raises 0x060C and votes FAIL. -/
  | forceWaitExceeded (red : BitVec 24)
  /-- DRAFT_CMD_LOAD, R291: Writing DRAFT.CMD.LOAD drops any held draft and starts checking a new one, or is refused with LOCKED. -/
  | draftCmdLoad (r : Requester)
  /-- DRAFT_CMD_ABORT, R290: Writing DRAFT.CMD.ABORT drops a READY or REJECTED draft and returns to EMPTY. -/
  | draftCmdAbort (r : Requester)
  /-- PLACEMENT_DONE, R302: Draft checking and placement end in READY with 0x0701 or REJECTED with 0x0702. -/
  | placementDone
  /-- PLACE_TIMEOUT, R293: A job-load placement unfinished after LIMIT.PLACE_MS rejects the draft with TIME. -/
  | placeTimeout
  /-- REPLAN_START, R321: A re-plan cause starts or restarts a re-placement with all pending causes. -/
  | replanStart (cause : BitVec 3)
  /-- REPLAN_DONE, R320: A re-placement finishes, or fails NO_FIT with 0x070D and the package stays FAIL. -/
  | replanDone
  /-- REPLAN_TIMEOUT, R293: A re-plan unfinished LIMIT.REPLAN_MS after its cause raises 0x070D and votes FAIL. -/
  | replanTimeout
  /-- PLAN_COMMIT, R319: A new plan takes effect at its re-plan point, updating PLAN_RB and raising 0x0704. -/
  | planCommit (lastMs : BitVec 16)
  /-- WAY_SWAP_START, R311: At phase T_S − t_swap the region core kicks the swap blocks of time-sliced ways. -/
  | waySwapStart (r : BitVec 12) (swap : BitVec 15) (lines : List (BitVec 18))
  /-- NUMERIC_EVALUATION, R339: After harvest blocks land the keeper evaluates triggers, stages corrections and sets the vote and DIRTY. -/
  | numericEvaluation (obs : ObsRead)
  /-- WATCH_CNT_CLR, R358: Writing WATCH.CNT_CLR clears the WATCH counters except WARM. -/
  | watchCntClr (r : Requester)
  /-- CONTRIBUTION_LAND, R371: When a contribution's last shuttle lands the owner records the beat and checks CRC, attempt, sender and duplicates. -/
  | contributionLand (r : BitVec 12) (line : BitVec 18)
  /-- DEADLINE_PASS, R374: At the boundary beginning plan beat DEADLINE + 1 each expected contribution is classed on time or late. -/
  | deadlinePass (red : BitVec 24)
  /-- EXCH_CNT_CLR, R382: Writing EXCH_CFG.CNT_CLR clears the exchange counters. -/
  | exchCntClr (r : Requester)
  /-- LINK_SIGNAL_DETECT, R389: Signal on all four lanes moves a DOWN port to TRAIN. -/
  | linkSignalDetect (port : BitVec 5)
  /-- TRAIN_COMPLETE, R389: FEC lock and a passing identity check move the port to UP with 0x0A01, or a failed check to FAILED with 0x0A05. -/
  | trainComplete (port : BitVec 5) (farAddr : BitVec 18) (farPort : BitVec 6)
  /-- TRAIN_TIMEOUT, R389: TRAIN_LIMIT_MS expiry returns the port to DOWN, or to FAILED after ATTEMPTS timeouts. -/
  | trainTimeout (port : BitVec 5)
  /-- LANE_DEGRADED, R390: A failed lane moves an UP port to DEGRADED, or a DEGRADED port to FAILED with 0x0A04. -/
  | laneDegraded (port : BitVec 5) (lane : BitVec 2)
  /-- UNCORR_CW_LIMIT, R390: More than 10 uncorrectable codewords in 1 s send the port back to TRAIN. -/
  | uncorrCwLimit (port : BitVec 5) (corrected codewords : BitVec 32)
  /-- LINK_DOWN, R389: Loss of signal on every lane moves the port to DOWN with 0x0A02, emptying its remaining slots. -/
  | linkDown (port : BitVec 5)
  /-- LINK_PHY_RETRY, R389: Writing LINK_PHY.RETRY moves a FAILED port to DOWN. -/
  | linkPhyRetry (r : Requester) (port : BitVec 5)
  /-- SHUTTLE_FETCH, R402: Once the source movement block completes the port fetches a SEND shuttle into its output buffer. -/
  | shuttleFetch (entry : BitVec 32) (area : BitVec 48)
  /-- SLOT_SEND, R402: At the start of a link slot the port sends the whole shuttle of the entry or leaves the slot empty. -/
  | slotSend (entry : BitVec 32)
  /-- LATE_SEND, R253: A shuttle that missed its slot is sent as kind LATE in a slack window within LATE_SHARE. -/
  | lateSend (port : BitVec 5) (credit : BitVec 32)
  /-- SCHED, R403: A received scheduled shuttle is checked and forwarded, landed or discarded by its route entry. -/
  | schedShuttle (port : BitVec 5) (sh : Shuttle) (area : BitVec 48)
  /-- LATE, R392: A received plan shuttle sent in a slack window is forwarded by slack routing or landed. -/
  | lateShuttle (port : BitVec 5) (sh : Shuttle) (area : BitVec 48) (credit : BitVec 32)
  /-- RESEND_REQ, R406: A received resend request makes the sender resend the shuttle as LATE or answer RESEND_NAK. -/
  | resendReqRecv (port : BitVec 5) (sh : Shuttle) (credit : BitVec 32)
  /-- RESEND_NAK, R406: A received RESEND_NAK stops requests for the shuttle until the next slack window. -/
  | resendNakRecv (port : BitVec 5) (sh : Shuttle) (credit : BitVec 32)
  /-- SLACK_TTL_EXPIRY, R408: A slack shuttle waiting SLACK_TTL beats in one buffer is discarded with 0x0A0E. -/
  | slackTtlExpiry (port : BitVec 5)
  /-- LINK_ROUTE_CMD_LOAD, R398: Writing LINK_ROUTE.CMD.LOAD reads and checks a route table into the inactive bank, ending READY or REJECTED. -/
  | linkRouteCmdLoad (r : Requester)
  /-- ROUTE_APPLIED, R401: A READY route table becomes live on every port at the APPLY_BEAT boundary and 0x0A0D is raised. -/
  | routeApplied
  /-- LINK_ERR_CNT_CLR, R409: Writing LINK_ERR.CNT_CLR clears the link error counters. -/
  | linkErrCntClr (r : Requester) (port : BitVec 5)
  /-- ETHERNET_FRAME_RECEIVE, R413: A received frame is checked for FCS, MACsec, IP/UDP and size and discarded on failure. -/
  | ethernetFrameReceive (port : BitVec 3) (f : EthFrame)
  /-- MKA_FRAME, R415: A received EAPOL-MKA frame advances key agreement and SAK installation. -/
  | mkaFrame (port : BitVec 3) (f : MkaFrame)
  /-- MKA_PEER_LOST, R416: Losing the MKA peer for its life time removes the secure association and raises 0x0B04. -/
  | mkaPeerLost (port : BitVec 3)
  /-- ARP_REQUEST, R414: The port answers ARP for its IPv4 address. -/
  | arpRequest (port : BitVec 3) (ip : BitVec 32)
  /-- NEIGHBOR_SOLICITATION, R414: The port answers Neighbor Solicitation and runs duplicate address detection. -/
  | neighborSolicitation (port : BitVec 3) (ip : BitVec 128) (advert : Bool)
  /-- ECHO_REQUEST, R414: The port answers ICMP and ICMPv6 echo requests within rate and size limits. -/
  | echoRequest (port : BitVec 3) (v6 : Bool) (payload : List Byte)
  /-- PTP_ANNOUNCE, R417: A received announce feeds the best master clock algorithm and active-port selection. -/
  | ptpAnnounce (port : BitVec 3) (a : Announce)
  /-- PTP_EXCHANGE, R418: A sync and delay exchange updates the offset and steps or slews wall time. -/
  | ptpExchange (port : BitVec 3) (offset : BitVec 64)
  /-- PTP_TIMEOUT, R447: Missing sync or announce for 3 intervals moves to another control port or to HOLDOVER with 0x0B0B. -/
  | ptpTimeout (port : BitVec 3)
  /-- OPEN, R423: A received OPEN grants a session with ACCEPT, repeats it, replaces one, or is refused. -/
  | hostOpen (port : BitVec 3) (peer : Endpoint) (g : Segment)
  /-- DATA, R425: A received DATA segment is held in sequence and delivered, completing channel messages. -/
  | hostData (port : BitVec 3) (peer : Endpoint) (g : Segment)
  /-- ACK, R426: A received acknowledgement releases segments and may trigger a SACK retransmission. -/
  | hostAck (port : BitVec 3) (peer : Endpoint) (g : Segment)
  /-- CLOSE, R424: A received CLOSE is answered with CLOSE and ends the session. -/
  | hostClose (port : BitVec 3) (peer : Endpoint) (g : Segment)
  /-- ACK_TIMER, R426: An acknowledgement is sent 20 µs after acceptance, or every 100 ms when idle. -/
  | ackTimer (session : BitVec 32)
  /-- RTO_EXPIRY, R427: An expired retransmission timeout resends the oldest unacknowledged segment or fails the session. -/
  | rtoExpiry (session : BitVec 32)
  /-- SESSION_DEAD, R424: No valid segment for DEAD_MS fails the session, destroys its channels and raises 0x0B06. -/
  | sessionDead (session : BitVec 32)
  /-- CREATE, R431: A CREATE session-control message opens a channel or is refused. -/
  | chanCreate (session : BitVec 32)
  /-- DESTROY, R435: A DESTROY message destroys a channel, discarding its unsent and unacted messages. -/
  | chanDestroy (session : BitVec 32)
  /-- REG_MESSAGE, R438: A REG message's requests are issued in order and a reply with completion codes is sent. -/
  | regMessage (m : RegMsg)
  /-- HOST_IN_DATA, R442: A HOST_IN data message writes input data or a STORE transfer and reports status on END or refusal. -/
  | hostInData (handle : BitVec 32) (err : Bool)
  /-- HOST_OUT_REQUEST, R443: A HOST_OUT STORE request is answered with data messages. -/
  | hostOutRequest (handle : BitVec 32)
  /-- HOST_OUT_SEND, R443: After a COMMIT applies, each OUTPUT tensor's data is sent at slack priority 4, dropping the oldest held output if needed. -/
  | hostOutSend (handle : BitVec 32)
  /-- RESET_FRAME, R446: A reset frame on a control port is verified in hardware, answered and issues the named reset, or is rejected. -/
  | resetFrame (port : BitVec 3) (peer : Endpoint) (g : Segment)
  /-- HOST_MAC_CNT_CLR, R448: Writing HOST_MAC.CNT_CLR clears the MAC counters. -/
  | hostMacCntClr (r : Requester) (port : BitVec 3)
  /-- HOST_SEC_CNT_CLR, R448: Writing HOST_SEC.CNT_CLR clears the MACsec counters. -/
  | hostSecCntClr (r : Requester) (port : BitVec 3)
  /-- HOST_XPORT_CNT_CLR, R448: Writing HOST_XPORT.CNT_CLR clears the transport counters. -/
  | hostXportCntClr (r : Requester) (port : BitVec 3)
  /-- LEASE_FRAME, R458: A lease frame is checked, updates the held windows if accepted, and is answered with a LEASE_ACK. -/
  | leaseFrame (handle : BitVec 32)
  /-- MINUTE_BOUNDARY, R520: At each wall-time minute boundary the energy record is closed and lease windows advance. -/
  | minuteBoundary
  /-- LEASE_HOLDOVER_LIMIT, R462: After 600 s of wall-time holdover every held window is discarded and 0x0C03 raised. -/
  | leaseHoldoverLimit
  /-- TOTALS_SAVE, R520: Once a second the running-minute totals are saved to MRAM. -/
  | totalsSave
  /-- RAMP_STEP_DONE, R453: A ramp step ends when telemetry settles or 8 µs pass, and the next step or clock switch follows. -/
  | rampStepDone (r : BitVec 4)
  /-- DROOP_TRIP, R454: Supply below the trip level stretches the region clock to half within 2 cycles and holds any ramp. -/
  | droopTrip (r : BitVec 4)
  /-- DROOP_CLEAR, R454: After 64 cycles clear of the trip level the stretch ends. -/
  | droopClear (r : BitVec 4) (cycles : BitVec 32)
  /-- AVS_SAMPLE, R467: Each millisecond rail voltages and currents are read and summed into the package reading. -/
  | avsSample (rails : List (BitVec 2 × BitVec 3 × BitVec 16 × BitVec 16))
  /-- MEAS_LOOP, R467: Every 10 ms MEAS_CAP is cut or raised and the model is compared with measurement. -/
  | measLoop
  /-- RECALIBRATION, R469: At a quiet beat the model factors are recalibrated, raising 0x0C08 or failing the model source. -/
  | recalibration
  /-- LEND, R473: A package with spare slack adds L to LENT_W, lowering its budget at once. -/
  | powerLend
  /-- OFFER_SEND, R473: Exactly 1 s after lending the package sends OFFER to its broker. -/
  | offerSend
  /-- BORROW, R471: A package needing budget sends NEED to its broker. -/
  | powerBorrow
  /-- NEED, R474: A broker serves a received NEED with GRANT or REFUSE. -/
  | needRecv (port : BitVec 5) (sh : Shuttle) (credit : BitVec 32)
  /-- OFFER, R474: A broker adds a received OFFER to its pool or drops it. -/
  | offerRecv (port : BitVec 5) (sh : Shuttle) (credit : BitVec 32)
  /-- GRANT, R475: A borrower applies a valid GRANT to BORROWED_W and raises 0x0C05, else discards it. -/
  | grantRecv (port : BitVec 5) (sh : Shuttle) (credit : BitVec 32)
  /-- REFUSE, R474: A borrower receiving REFUSE may send NEED again 1 s later. -/
  | refuseRecv (port : BitVec 5) (sh : Shuttle) (credit : BitVec 32)
  /-- JUNCTION_SENSOR_READ, R478: Every 100 µs junction sensors are read, filtered and acted on by throttle or forced shelf. -/
  | junctionSensorRead (r : BitVec 4) (t : List (Option (BitVec 16)))
  /-- HBM_TEMP_READ, R478: Every 1 ms stack temperatures are read and throttle or shelf the owning die. -/
  | hbmTempRead (die : BitVec 2) (t : List (Option (BitVec 16)))
  /-- REG_ALERT, R479: REG_ALERT_N asserted for 200 ns forces the die to OP0 with issue held within 2 µs. -/
  | regAlert (die : BitVec 2)
  /-- REG_ALERT_RELEASE, R479: After REG_ALERT_N has been high 10 ms and regulators report clear, the die may leave the shelf. -/
  | regAlertRelease (die : BitVec 2)
  /-- SHELF_RELEASE, R481: The keeper releases a forced shelf at a beat boundary after every cause has been clear for 1 s. -/
  | shelfRelease (die : BitVec 2)
  /-- REFCLK_LOSS, R482: Loss of the reference clock switches to the internal oscillator, forces the die's shelf state and makes the beat LOST. -/
  | refclkLoss (die : BitVec 2)
  /-- DIE_MANAGER_HUNG, R483: A missed safety-controller heartbeat for 5 ms fails the die's rails into model-only limiting. -/
  | dieManagerHung (die : BitVec 2)
  /-- DRAIN_SEND, R490: In slack windows at priority 3 the member sends save-point parts and the manifest to its partner. -/
  | drainSend (use : BitVec 2)
  /-- DRAIN_PIECE, R492: A received DRAIN piece is written into the attic at its part offset. -/
  | drainPiece (port : BitVec 5) (sh : Shuttle) (credit : BitVec 32)
  /-- REFILL_PIECE, R492: A received REFILL piece is written to the spare's own home for its part. -/
  | refillPiece (port : BitVec 5) (sh : Shuttle) (credit : BitVec 32)
  /-- ATTIC_REFILL_PIECE, R492: A received ATTIC_REFILL piece is written into the spare's attic. -/
  | atticRefillPiece (port : BitVec 5) (sh : Shuttle) (credit : BitVec 32)
  /-- PART_ANSWER, R493: At the end of the slack window of a part's last piece the receiver sends PART_ACK or PART_NAK. -/
  | partAnswer (use : BitVec 2) (part : BitVec 24)
  /-- PART_ACK, R493: A received PART_ACK completes the part at the sender. -/
  | partAck (port : BitVec 5) (sh : Shuttle) (credit : BitVec 32)
  /-- PART_NAK, R493: A received PART_NAK makes the sender resend from the named piece. -/
  | partNak (port : BitVec 5) (sh : Shuttle) (credit : BitVec 32)
  /-- MANIFEST_ACK, R495: A received MANIFEST_ACK acknowledges the member's copy and releases its vote hold. -/
  | manifestAck (port : BitVec 5) (sh : Shuttle) (credit : BitVec 32)
  /-- MANIFEST_BAD, R494: A received MANIFEST_BAD marks the member's copy at its partner bad. -/
  | manifestBad (port : BitVec 5) (sh : Shuttle) (credit : BitVec 32)
  /-- PART_RETRY, R493: A part unanswered for RETRY_BEATS beats is resent, and after 3 resends abandoned with 0x0D04. -/
  | partRetry (use : BitVec 2) (part : BitVec 24)
  /-- DRAIN_HOLD_EXPIRY, R495: DRAIN_HOLD beats after the planned end the member abandons the transfer, raises 0x0D04 and votes. -/
  | drainHoldExpiry (finished : Bool)
  /-- EXTERNAL_DRAIN_SEND, R496: Every DRAIN steps the member sends its save point on DRAIN channels at priority 4. -/
  | externalDrainSend (handle : BitVec 32)
  /-- DRAIN_ACK, R497: A host ACK acknowledges a part or manifest, advancing DRAIN.LAST_STEP on the manifest. -/
  | drainAck (handle : BitVec 32)
  /-- DRAIN_DATA, R501: Host DATA answering a FETCH supplies save-point bytes for an external restore. -/
  | drainData (handle : BitVec 32)
  /-- DRAIN_LEDGER, R497: A host LEDGER message supplies the LEDGER_DIGEST checked before accepting a forced ledger. -/
  | drainLedger (handle : BitVec 32)
  /-- RESTORE_START, R500: A committed RESTORE declaration starts spare assignment and refill from attic or external drain. -/
  | restoreStart
  /-- RESTORE_ACCEPT, R503: When all parts and the manifest are held, the package checks digests and makes the restore READY or FAILED. -/
  | restoreAccept
  /-- RESTORE_RESUME, R500: At RESUME_BEAT the step after the restored save point runs from plan beat 0. -/
  | restoreResume
  /-- FW_STAGE, R511: Writing FW.STAGE checks an image and copies it into the inactive slot as pending. -/
  | fwStage (r : Requester)
  /-- FW_CONFIRM, R511: Writing FW.CONFIRM fuses SVN and revocations and confirms the running pending image. -/
  | fwConfirm (r : Requester)
  /-- LEASE_KEY, R516: A key block of kind LEASE_KEY installs a new lease key after its checks. -/
  | leaseKey (r : Requester)
  /-- RESET_KEY, R516: A key block of kind RESET_KEY installs a new reset key. -/
  | resetKey (r : Requester)
  /-- CAK, R516: A key block of kind CAK installs a new MKA CAK and CKN. -/
  | cakKey (r : Requester)
  /-- FALLBACK, R516: A key block of kind FALLBACK sets FALLBACK_W. -/
  | fallbackKey (r : Requester)
  /-- LOCK, R516: A key block of kind LOCK fuses PROV_LOCK and optionally JTAG_LOCK. -/
  | lockKey (r : Requester)
  /-- ATTEST_REQUEST, R519: Writing ATTEST.REQUEST starts signing a quote or refuses it with 0x0E07. -/
  | attestRequest (r : Requester)
  /-- QUOTE_SIGNED, R519: Within 50 ms the quote is signed, sent as RECORD type 3 and 0x0E06 raised. -/
  | quoteSigned
  /-- SIG_BUDGET_LOW, R514: With 65,536 or fewer indices left, 0x0E08 is raised once every 24 h. -/
  | sigBudgetLow
  /-- ENERGY_REC_FETCH, R524: Writing ENERGY_REC.FETCH queues again every retained record from FETCH_SEQ onward. -/
  | energyRecFetch (r : Requester) (session : BitVec 32)
  /-- POWER_ON, R528: PWR_GOOD low resets the package domain. -/
  | powerOn
  /-- RESET_N, R532: RESET_N low for 1 µs gives a full package reset. -/
  | resetN
  /-- RESET_N_RELEASE, R536: Release of RESET_N with power and clock starts staged bring-up with boot checks. -/
  | resetNRelease
  /-- BRINGUP_SL1, R537: With the keeper running and ST_CRC correct the control ports enable and SL1 is entered. -/
  | bringupSl1 (ms : BitVec 16) (f0 f1 f2 : BitVec 6)
  /-- BRINGUP_SL2, R537: When one region per die passes self-test, front ports enable and SL2 is entered. -/
  | bringupSl2 (ms : BitVec 16)
  /-- BRINGUP_SL3, R538: When stacks, regions and links meet R538, SL3 is entered and FAIL_RUN cleared. -/
  | bringupSl3 (ms : BitVec 16)
  /-- SELF_TEST_DONE, R538: A region's or unit's self-test ends, retiring failures and enabling passing blocks with 0x0F04. -/
  | selfTestDone (level : BitVec 2) (inst : BitVec 12) (failed : List (BitVec 2 × BitVec 12))
  /-- HBM_TRAIN_DONE, R538: A stack training attempt ends, marking the stack ready or retrying, or retiring it with 0x0F08. -/
  | hbmTrainDone (stack : BitVec 3) (ok : Bool)
  /-- WATCHDOG, R540: No package-manager heartbeat for 50 ms triggers takeover by die 1, or a package reset. -/
  | watchdog
  /-- THERMTRIP, R528: THERMTRIP_N asserted holds a package reset until power is removed. -/
  | thermtrip
  /-- LOCKSTEP, R528: A safety-controller pair mismatch forces the die's shelf state and resets that die. -/
  | lockstep (die : BitVec 2)
  /-- RST_SRC_REQ, R543: A confirmed REQ write issues the named domain reset 100 µs later. -/
  | rstSrcReq (r : Requester) (w : BitVec 32)
  /-- DOMAIN_RESET, R541: A domain reset quiesces, clears and re-tests the domain, raising 0x0F03. -/
  | domainReset (dom : BitVec 4) (inst : BitVec 12)
  /-- BRINGUP_STOP_AT, R539: A write of STOP_AT stops bring-up at SL1 or SL2, or resumes it with a higher value. -/
  | bringupStopAt (r : Requester) (v : BitVec 2)
  /-- BRINGUP_RESUME, R539: Writing BRINGUP.RESUME clears HALTED and FAIL_RUN and continues bring-up. -/
  | bringupResume (r : Requester)
  /-- HOST_LINK_UP, R412: Auto-negotiation and link training of a 400GBASE host port complete, HOST_MAC.STATE becomes UP and event 0x0B01 is raised. -/
  | hostLinkUp (port : BitVec 3)
  /-- HOST_LINK_DOWN, R412: A host port loses signal or link, HOST_MAC.STATE falls to DOWN, sessions and MACsec on it lapse, and event 0x0B02 is raised. -/
  | hostLinkDown (port : BitVec 3)
  /-- SLACK_SHUTTLE_FORWARD, R407: A slack shuttle of kind TRADE, DRAIN, CTRL or RESEND_REQ/NAK whose DST is another package is checked and forwarded by dimension-order routing against a credit, or discarded. -/
  | slackShuttleForward (port : BitVec 5) (sh : Shuttle) (credit : BitVec 32)
  /-- POWER_GOOD_RISE, R531: PWR_GOOD rises, ending the power-on reset source so that the internal reset runs out 1,024 REFCLK cycles later and bring-up can begin if RESET_N is already high. -/
  | powerGoodRise
  /-- REFCLK_RETURN, R531: The reference clock returns, so a held package reset runs and a die that lost its clock can leave the internal oscillator and later its forced shelf state. -/
  | refclkReturn
  /-- DUPLICATE_ADDRESS_DETECTION_END, R414: The duplicate address detection wait for an IPv6 address expires with no conflict, and the address is taken into use in HOST_XPORT.ADDR_STATE. -/
  | duplicateAddressDetectionEnd (port : BitVec 3) (link : Bool)
  /-- LATCHED_READ, R249: A read of a .LO word such as BEAT_NUM.LO, TAI_SEC.LO or an ENERGY_REC .LO field latches the matching .HI word and other latched fields for a consistent later read. -/
  | latchedRead (r : Requester) (x : ReadAt)
  /-- TEST_PORT_INSTRUCTION, R554: An IEEE 1149.1 or 1149.6 instruction such as IDCODE, BYPASS or a boundary-scan operation is shifted in through TCK, TMS, TDI and TRST_N and executed. -/
  | testPortInstruction (t : TestInstr)
  deriving DecidableEq, Repr

end Sys2Proof
end

