-- ==== Sys2Proof/Machine/Map.lean ====
section
/-! DEFINITION. The sparse map every table of the state is held in, the store of bytes, and the bit, byte and
counting helpers that the meanings use. -/

namespace Sys2Proof.Machine

/-- A sparse table: pairs of a key and a value, keys rising. What an absent key means is the user's default. -/
abbrev SMap (β : Type) := List (Nat × β)

/-- The value listed under `q`, if any. -/
def SMap.find {β : Type} : SMap β → Nat → Option β
  | [], _ => none
  | (k, v) :: m, q => if q = k then some v else SMap.find m q

/-- The table with `x` listed under `q`, at its place in rising order. -/
def SMap.put {β : Type} : SMap β → Nat → β → SMap β
  | [], q, x => [(q, x)]
  | (k, v) :: m, q, x =>
    if q < k then (q, x) :: (k, v) :: m
    else if q = k then (q, x) :: m
    else (k, v) :: SMap.put m q x

/-- The table with nothing listed under `q`. -/
def SMap.del {β : Type} (m : SMap β) (q : Nat) : SMap β := m.filter (fun e => decide (e.1 ≠ q))

/-- The value under `q`, or the default of an absent key. -/
def SMap.at {β : Type} (m : SMap β) (q : Nat) (dflt : β) : β := (SMap.find m q).getD dflt

/-- `put` in the canonical form in which no entry equals the default: writing the default removes the entry. -/
def SMap.putD {β : Type} [DecidableEq β] (m : SMap β) (q : Nat) (x dflt : β) : SMap β :=
  if x = dflt then SMap.del m q else SMap.put m q x

/-- The table without the keys from `lo` up to, and not including, `hi`. -/
def SMap.cut {β : Type} (m : SMap β) (lo hi : Nat) : SMap β :=
  m.filter (fun e => decide (e.1 < lo ∨ hi ≤ e.1))

/-- The byte store: what an unlisted address reads as is 0 (R530 for the SRAM; assumption 3 for the HBM). -/
abbrev Mem := SMap Byte

/-- What an unlisted address of the store reads as. -/
def Mem.unlisted : Byte := 0

/-- One byte of the store. -/
def Mem.read (m : Mem) (a : Nat) : Byte := SMap.at m a Mem.unlisted

/-- One byte written, canonical form kept. -/
def Mem.write (m : Mem) (a : Nat) (b : Byte) : Mem := SMap.putD m a b Mem.unlisted

/-- The bytes at `a`, `a + 1`, … , `n` of them. -/
def Mem.bytes (m : Mem) (a : Nat) : Nat → List Byte
  | 0 => []
  | n + 1 => Mem.read m a :: Mem.bytes m (a + 1) n

/-- Consecutive bytes written from `a` upward. -/
def Mem.writeAll (m : Mem) (a : Nat) : List Byte → Mem
  | [] => m
  | b :: bs => Mem.writeAll (Mem.write m a b) (a + 1) bs

/-- The canonical form: addresses strictly rising and no entry equal to what an unlisted address reads as. -/
def Mem.wf : Mem → Bool
  | [] => true
  | [(_, b)] => decide (b ≠ Mem.unlisted)
  | (a, b) :: (a', b') :: m => decide (a < a') && decide (b ≠ Mem.unlisted) && Mem.wf ((a', b') :: m)

/-- What a command does to the store, in the order in which it does it. -/
inductive MemOp where
  | write (a : Nat) (bs : List Byte)
  | clear (lo hi : Nat)
  deriving DecidableEq, Repr

/-- One store operation. -/
def Mem.apply1 (m : Mem) : MemOp → Mem
  | .write a bs => Mem.writeAll m a bs
  | .clear lo hi => SMap.cut m lo hi

/-- A command's store operations, first to last. -/
def Mem.apply (m : Mem) : List MemOp → Mem
  | [] => m
  | o :: os => Mem.apply (Mem.apply1 m o) os

/-- Bytes to a number, byte 0 least significant. -/
def leNat : List Byte → Nat
  | [] => 0
  | b :: bs => b.toNat + 256 * leNat bs

/-- The `n` bytes of a number, byte 0 least significant. -/
def natLe : Nat → Nat → List Byte
  | 0, _ => []
  | n + 1, v => BitVec.ofNat 8 v :: natLe n (v / 256)

/-- The little-endian number of the `n` bytes at `a`. -/
def Mem.nat (m : Mem) (a n : Nat) : Nat := leNat (Mem.bytes m a n)

/-- Bits `[lo + w − 1 : lo]` of a number. -/
def bits (v lo w : Nat) : Nat := (v / 2 ^ lo) % 2 ^ w

/-- Bit `i` of a number. -/
def bit (v i : Nat) : Bool := v.testBit i

/-- A flag as a field value. -/
def ofB (b : Bool) : Nat := if b then 1 else 0

/-- A counter that saturates at `2 ^ w − 1`. -/
def sat (w v : Nat) : Nat := if v < 2 ^ w then v else 2 ^ w - 1

/-- A set bit. -/
def setBit (v i : Nat) : Nat := v ||| 2 ^ i

/-- A cleared bit. -/
def clrBit (v i : Nat) : Nat := if v.testBit i then v - 2 ^ i else v

/-- How many bits of the low `n` are 1. -/
def popCount (v : Nat) : Nat → Nat
  | 0 => 0
  | n + 1 => popCount v n + ofB (v.testBit n)

/-- The lowest index below `n` at which `p` holds. -/
def firstIdx (p : Nat → Bool) (n : Nat) : Option Nat := (List.range n).find? p

/-- A `w`-bit two's complement number read as an integer. -/
def sInt (w v : Nat) : Int := if v < 2 ^ (w - 1) then (v : Int) else (v : Int) - 2 ^ w

/-- An integer as `w` two's complement bits. -/
def wrapI (w : Nat) (v : Int) : Nat := (v % 2 ^ w).toNat

end Sys2Proof.Machine
end

