-- ==== Sys2Proof/Machine/Sha3.lean ====
section
/-! DEFINITION. SHAKE256 and KMAC256 with outputs of 256 bits (R284, R446, R457, R513), which the spec names and does not restate: FIPS 202 and
SP 800-185 (assumption 11). -/

namespace Sys2Proof.Machine

/-- A 64-bit lane rotated left. -/
def rotl64 (v n : Nat) : Nat := if n = 0 then v else v % 2 ^ (64 - n) * 2 ^ n + v / 2 ^ (64 - n)

/-- The rotation of the lane at x + 5 y. -/
def keccakRho : List Nat := [0, 1, 62, 28, 27, 36, 44, 6, 55, 20, 3, 10, 43, 25, 39, 41, 45, 15, 21, 8, 18, 2, 61, 56, 14]

/-- The round constants. -/
def keccakRc : List Nat :=
  [0x0000000000000001, 0x0000000000008082, 0x800000000000808A, 0x8000000080008000, 0x000000000000808B, 0x0000000080000001,
   0x8000000080008081, 0x8000000000008009, 0x000000000000008A, 0x0000000000000088, 0x0000000080008009, 0x000000008000000A] ++
  [0x000000008000808B, 0x800000000000008B, 0x8000000000008089, 0x8000000000008003, 0x8000000000008002, 0x8000000000000080,
   0x000000000000800A, 0x800000008000000A, 0x8000000080008081, 0x8000000000008080, 0x0000000080000001, 0x8000000080008008]

/-- One round: theta, rho and pi, chi, iota; lane (x, y) stands at x + 5 y. -/
def keccakRound (a : List Nat) (rc : Nat) : List Nat :=
  let c := (List.range 5).map fun x => (List.range 5).foldl (fun v y => v ^^^ a.getD (x + 5 * y) 0) 0
  let t := (List.range 5).map fun x => c.getD ((x + 4) % 5) 0 ^^^ rotl64 (c.getD ((x + 1) % 5) 0) 1
  let e := (List.range 25).map fun i => rotl64 (a.getD i 0 ^^^ t.getD (i % 5) 0) (keccakRho.getD i 0)
  let b := (List.range 25).map fun i => let x := i % 5; let y := i / 5; e.getD ((x + 3 * y) % 5 + 5 * x) 0
  let f := (List.range 25).map fun i =>
    let y := i / 5
    b.getD i 0 ^^^ ((2 ^ 64 - 1 - b.getD ((i + 1) % 5 + 5 * y) 0) &&& b.getD ((i + 2) % 5 + 5 * y) 0)
  f.set 0 (f.getD 0 0 ^^^ rc)

/-- KECCAK-f[1600]. -/
def keccakF (a : List Nat) : List Nat := keccakRc.foldl keccakRound a

/-- The sponge at a rate of 136 bytes: blocks taken in. -/
def absorb : Nat → List Nat → List Byte → List Nat
  | 0, a, _ => a
  | n + 1, a, bs =>
    let blk := bs.take 136
    absorb n (keccakF ((List.range 25).map fun i => a.getD i 0 ^^^ leNat ((blk.drop (8 * i)).take 8))) (bs.drop 136)

/-- The sponge with its padding, which begins with the given suffix bits, and 32 bytes of output. -/
def sponge256 (suffix : Nat) (m : List Byte) : List Byte :=
  let n := m.length / 136 + 1
  let p := m ++ [BitVec.ofNat 8 suffix] ++ List.replicate (136 * n - m.length - 1) 0
  let p := p.set (136 * n - 1) (p.getD (136 * n - 1) 0 ||| 0x80)
  ((absorb n (List.replicate 25 0) p).take 4).flatMap (natLe 8)

/-- R284, R513: SHAKE256 with a 256-bit output. -/
def shake256 (m : List Byte) : List Byte := sponge256 0x1F m

/-- A number in as few bytes as it takes, most significant first. -/
def beBytes (v : Nat) : List Byte := (natLe (v.log2 / 8 + 1) v).reverse
def leftEncode (v : Nat) : List Byte := let b := beBytes v; BitVec.ofNat 8 b.length :: b
def rightEncode (v : Nat) : List Byte := let b := beBytes v; b ++ [BitVec.ofNat 8 b.length]
def encodeString (s : List Byte) : List Byte := leftEncode (8 * s.length) ++ s

/-- Filled up with zeros to a multiple of 136 bytes, behind the encoding of that number. -/
def bytepad136 (s : List Byte) : List Byte :=
  let z := leftEncode 136 ++ s
  z ++ List.replicate ((136 - z.length % 136) % 136) 0

/-- The bytes of a customization string of plain characters. -/
def strBytes (s : String) : List Byte := s.toList.map fun c => BitVec.ofNat 8 c.toNat

/-- R446, R457: KMAC256 of a message under a key with a customization string, 256 bits of output. -/
def kmac256 (key m : List Byte) (custom : String) : List Byte :=
  sponge256 0x04 (bytepad136 (encodeString (strBytes "KMAC") ++ encodeString (strBytes custom)) ++ bytepad136 (encodeString key) ++ m ++ rightEncode 256)

end Sys2Proof.Machine
end

