-- ==== Sys2Proof/Config.lean ====
section
/-! DEFINITION. What the spec leaves open. Every opaque constant here has no body: nothing can be proved of its value, so a
statement about a result that rests on one holds whatever the part does. -/

namespace Sys2Proof.Config

/-- R100 (DQ), R102: the fast-path bits of DIV, RCP, SQRT and RSQRT (operation 0 to 3) on two operand words; used only
while they lie within the bound of R100. Assumption 10. -/
opaque fastQuotient (op : Nat) (a b : Word) : Word

/-- R158, R102: the fast-path bits of a transcendental function, by its number and its operand, where R158 fixes no exact
result. Assumption 10. -/
opaque transcendental (op : Nat) (a : Word) : Word

/-- R96, R102: the fast-path sum of a pass with an FP32 operand; used only within the bound of R96. Assumption 10. -/
opaque fastPassSum (products : List (Int × Int)) : Word

/-- What the spec leaves undefined and the machine goes on with: the free values, by a counter the step advances. R216: the
vector and mask register that an uncorrectable load leaves, the bytes of a larder line that has lost its
contents, and the session ids and initial sequence numbers that the package picks (R423).
Assumption 2. -/
opaque freeVReg (n : Nat) : VReg
opaque freeMReg (n : Nat) : MReg
opaque freeByte (n : Nat) : Byte
opaque freeWord (n : Nat) : Word

/-- R152: what a bit operation in an F16 view sees of an F32 immediate, which R152 does not say. Assumption 101. -/
opaque halfOfWord (w : Word) : BitVec 16

/-- R156: VPERM in a view other than F32 and I32, by view, source and index register, which R156 gives no meaning. Assumption 100. -/
opaque permuted (view : Nat) (a index : VReg) : VReg

/-- R465: a plan's dynamic energy in a plan beat at OP15, in nJ: its activity counts weighted with the fused energy of each class, which no
register shows; and the fused static power of the package at an operating point and a junction temperature in °C, in mW. A plan is known
by its NUMERIC_HASH and TIMING_ID. Assumption 13. -/
opaque dynamicEnergy (hash : List Byte) (timing beat : Nat) : Nat
opaque staticPower (op temp : Nat) : Nat

/-- R512, R513: the XMSS signature, 2,820 bytes, that the package gives a message at a tree index: it rests on the secret seeds, which nothing can read.
Assumption 11. -/
opaque xmssBits (index : Nat) (message : List Byte) : BitVec (8 * 2820)
def xmssSign (index : Nat) (message : List Byte) : List Byte := bvBytes 2820 (xmssBits index message)

/-- R231, R310: the worst-case cycles of the movement block that a relocated image kicks at a local-store address: the block is no part of the
draft. Assumption 12. -/
opaque kickCycles (slots : List Nat) (address : Nat) : Nat

/-- R554: Fyirok's manufacturer code in IDCODE, which the spec does not state. Assumption 2. -/
opaque manufacturer : BitVec 11

end Sys2Proof.Config
end

