-- ==== Sys2Proof/Machine/Fields.lean ====
section
/-! DEFINITION. Every register field of every control page, with its place, its access code and its value at reset,
as the register tables of the spec give them. A field is the one name under which its value is kept. -/

namespace Sys2Proof.Machine

/-- R41: the access codes. -/
inductive Access where
  | ro | rw | sh | lk | w1c | wo
  deriving DecidableEq, Repr

/-- One field of a register table: class and page (R40), byte offset, lowest bit and width, access code, value at
reset, whether the value lives in fuses or MRAM and so survives every reset (R530, R534), and, for a row written for an index,
how many copies the row stands for and how many bytes lie between them. -/
structure Field where
  cls : Nat
  page : Nat
  off : Nat
  lo : Nat
  width : Nat
  acc : Access
  reset : Nat
  keep : Bool
  n : Nat
  stride : Nat
  deriving DecidableEq, Repr

/-- The page number (address bits [31:12], R37) of a page of an instance. -/
def pageNum (cls inst page : Nat) : Nat := cls * 65536 + inst * 16 + page

/-- The page number the field's own page has at an instance. -/
def Field.pg (f : Field) (inst : Nat) : Nat := pageNum f.cls inst f.page

/-- The key a field's copy `i` on page number `pg` is kept under: its lowest bit's bit address. -/
def Field.key (f : Field) (pg i : Nat) : Nat := (pg * 4096 + f.off + f.stride * i) * 32 + f.lo

/-! The common header (R46): its fields stand at the same offsets of every page, so class and page are not used. -/

/-- R46: header field PAGE_ID.TYPE. -/
def Hdr.ID_TYPE : Field := ⟨0, 0, 0x000, 0, 12, .ro, 0, false, 1, 4⟩
/-- R46: header field PAGE_CTL.EN. -/
def Hdr.CTL_EN : Field := ⟨0, 0, 0x010, 0, 1, .rw, 0, false, 1, 4⟩
/-- R46: header field PAGE_CTL.QREQ. -/
def Hdr.CTL_QREQ : Field := ⟨0, 0, 0x010, 1, 1, .rw, 0, false, 1, 4⟩
/-- R46: header field PAGE_CTL.RREQ. -/
def Hdr.CTL_RREQ : Field := ⟨0, 0, 0x010, 2, 1, .wo, 0, false, 1, 4⟩
/-- R46: header field PAGE_CTL.SHADOW_VIEW. -/
def Hdr.CTL_SHADOW_VIEW : Field := ⟨0, 0, 0x010, 3, 1, .rw, 0, false, 1, 4⟩
/-- R46: header field PAGE_STATE. -/
def Hdr.STATE : Field := ⟨0, 0, 0x014, 0, 4, .ro, 0, false, 1, 4⟩
/-- R46: header field PAGE_DROPS. -/
def Hdr.DROPS : Field := ⟨0, 0, 0x014, 8, 8, .ro, 0, false, 1, 4⟩
/-- R46: header field PAGE_OUTSTANDING. -/
def Hdr.OUTSTANDING : Field := ⟨0, 0, 0x014, 16, 16, .ro, 0, false, 1, 4⟩
/-- R46: header field PAGE_EVT.COMMON. -/
def Hdr.EVT_COMMON : Field := ⟨0, 0, 0x018, 0, 8, .w1c, 0, false, 1, 4⟩
/-- R46: header field PAGE_EVT.BLOCK. -/
def Hdr.EVT_BLOCK : Field := ⟨0, 0, 0x018, 8, 16, .w1c, 0, false, 1, 4⟩
/-- R46: header field PAGE_EVT.OVERFLOW. -/
def Hdr.EVT_OVERFLOW : Field := ⟨0, 0, 0x018, 31, 1, .w1c, 0, false, 1, 4⟩
/-- R46: header field PAGE_MASK.COMMON. -/
def Hdr.MASK_COMMON : Field := ⟨0, 0, 0x01C, 0, 8, .rw, 0, false, 1, 4⟩
/-- R46: header field PAGE_MASK.BLOCK. -/
def Hdr.MASK_BLOCK : Field := ⟨0, 0, 0x01C, 8, 16, .rw, 0, false, 1, 4⟩
/-- R46: header field PAGE_CERR.COUNT. -/
def Hdr.CERR_COUNT : Field := ⟨0, 0, 0x020, 0, 16, .ro, 0, false, 1, 4⟩
/-- R46: header field PAGE_CERR.SRC. -/
def Hdr.CERR_SRC : Field := ⟨0, 0, 0x020, 16, 8, .ro, 0, false, 1, 4⟩
/-- R46: header field PAGE_CERR.CLR. -/
def Hdr.CERR_CLR : Field := ⟨0, 0, 0x020, 31, 1, .wo, 0, false, 1, 4⟩
/-- R46: header field PAGE_UERR.COUNT. -/
def Hdr.UERR_COUNT : Field := ⟨0, 0, 0x024, 0, 16, .ro, 0, false, 1, 4⟩
/-- R46: header field PAGE_UERR.SRC. -/
def Hdr.UERR_SRC : Field := ⟨0, 0, 0x024, 16, 8, .ro, 0, false, 1, 4⟩
/-- R46: header field PAGE_UERR.CLR. -/
def Hdr.UERR_CLR : Field := ⟨0, 0, 0x024, 31, 1, .wo, 0, false, 1, 4⟩
/-- R46: header field PAGE_ARM.ARM. -/
def Hdr.ARM_ARM : Field := ⟨0, 0, 0x030, 0, 1, .wo, 0, false, 1, 4⟩
/-- R46: header field PAGE_ARM.DISCARD. -/
def Hdr.ARM_DISCARD : Field := ⟨0, 0, 0x030, 1, 1, .wo, 0, false, 1, 4⟩
/-- R46: header field PAGE_ARM.TAG. -/
def Hdr.ARM_TAG : Field := ⟨0, 0, 0x030, 8, 6, .wo, 0, false, 1, 4⟩
/-- R46: header field PAGE_STAT.STATUS. -/
def Hdr.STAT_STATUS : Field := ⟨0, 0, 0x034, 0, 3, .ro, 0, false, 1, 4⟩
/-- R46: header field PAGE_STAT.REASON. -/
def Hdr.STAT_REASON : Field := ⟨0, 0, 0x034, 8, 8, .ro, 0, false, 1, 4⟩
/-- R46: header field PAGE_STAT.TAG. -/
def Hdr.STAT_TAG : Field := ⟨0, 0, 0x034, 16, 6, .ro, 0, false, 1, 4⟩
/-- R46: header field PAGE_STAT.WORD. -/
def Hdr.STAT_WORD : Field := ⟨0, 0, 0x034, 22, 10, .ro, 0, false, 1, 4⟩
/-- R46: header field PAGE_LOCK.REFUSED. -/
def Hdr.LOCK_REFUSED : Field := ⟨0, 0, 0x038, 1, 1, .w1c, 0, false, 1, 4⟩
/-- R46: header field PAGE_LOCK.WORD. -/
def Hdr.LOCK_WORD : Field := ⟨0, 0, 0x038, 12, 10, .ro, 0, false, 1, 4⟩
/-- R46: header field PAGE_TIMEOUT.LIMIT. -/
def Hdr.TIMEOUT_LIMIT : Field := ⟨0, 0, 0x040, 0, 20, .rw, 1000, false, 1, 4⟩

/-- R46: the stored header fields (the identity words, PAGE_CAP and PAGE_LOCK.LOCKED are computed, R557, R59). -/
def Hdr.all : List Field :=
  [Hdr.CTL_EN, Hdr.CTL_QREQ, Hdr.CTL_RREQ, Hdr.CTL_SHADOW_VIEW, Hdr.STATE,
   Hdr.DROPS, Hdr.OUTSTANDING, Hdr.EVT_COMMON, Hdr.EVT_BLOCK, Hdr.EVT_OVERFLOW,
   Hdr.MASK_COMMON, Hdr.MASK_BLOCK, Hdr.CERR_COUNT, Hdr.CERR_SRC, Hdr.CERR_CLR,
   Hdr.UERR_COUNT, Hdr.UERR_SRC, Hdr.UERR_CLR, Hdr.ARM_ARM, Hdr.ARM_DISCARD,
   Hdr.ARM_TAG, Hdr.STAT_STATUS, Hdr.STAT_REASON, Hdr.STAT_TAG, Hdr.STAT_WORD,
   Hdr.LOCK_REFUSED, Hdr.LOCK_WORD, Hdr.TIMEOUT_LIMIT]

/-- R27: ST_ID.TABLE_VER, RO. -/
def Reg.SIZE_TABLE_ST_ID_TABLE_VER : Field := ⟨0, 1, 0x080, 0, 8, .ro, 1, true, 1, 0⟩
/-- R27: ST_ID.ROW, RO. -/
def Reg.SIZE_TABLE_ST_ID_ROW : Field := ⟨0, 1, 0x080, 8, 8, .ro, 3, true, 1, 0⟩
/-- R27: ST_ID.PART, RO. -/
def Reg.SIZE_TABLE_ST_ID_PART : Field := ⟨0, 1, 0x080, 16, 16, .ro, 29200, true, 1, 0⟩
/-- R27: ST_HIER.UNITS_BUILT, RO. -/
def Reg.SIZE_TABLE_ST_HIER_UNITS_BUILT : Field := ⟨0, 1, 0x084, 0, 8, .ro, 17, true, 1, 0⟩
/-- R27: ST_HIER.UNITS_EN, RO. -/
def Reg.SIZE_TABLE_ST_HIER_UNITS_EN : Field := ⟨0, 1, 0x084, 8, 8, .ro, 16, true, 1, 0⟩
/-- R27: ST_HIER.CLUSTERS, RO. -/
def Reg.SIZE_TABLE_ST_HIER_CLUSTERS : Field := ⟨0, 1, 0x084, 16, 8, .ro, 8, true, 1, 0⟩
/-- R27: ST_HIER.REGIONS, RO. -/
def Reg.SIZE_TABLE_ST_HIER_REGIONS : Field := ⟨0, 1, 0x084, 24, 4, .ro, 4, true, 1, 0⟩
/-- R27: ST_HIER.DIES, RO. -/
def Reg.SIZE_TABLE_ST_HIER_DIES : Field := ⟨0, 1, 0x084, 28, 4, .ro, 4, true, 1, 0⟩
/-- R27: ST_ARRAY.ARRAY_DIM, RO. -/
def Reg.SIZE_TABLE_ST_ARRAY_ARRAY_DIM : Field := ⟨0, 1, 0x088, 0, 8, .ro, 32, true, 1, 0⟩
/-- R27: ST_ARRAY.ARRAYS_PER_UNIT, RO. -/
def Reg.SIZE_TABLE_ST_ARRAY_ARRAYS_PER_UNIT : Field := ⟨0, 1, 0x088, 8, 4, .ro, 2, true, 1, 0⟩
/-- R27: ST_ARRAY.GRID_ROWS, RO. -/
def Reg.SIZE_TABLE_ST_ARRAY_GRID_ROWS : Field := ⟨0, 1, 0x088, 12, 4, .ro, 4, true, 1, 0⟩
/-- R27: ST_ARRAY.GRID_COLS, RO. -/
def Reg.SIZE_TABLE_ST_ARRAY_GRID_COLS : Field := ⟨0, 1, 0x088, 16, 4, .ro, 8, true, 1, 0⟩
/-- R27: ST_ARRAY.CQ_DEPTH, RO. -/
def Reg.SIZE_TABLE_ST_ARRAY_CQ_DEPTH : Field := ⟨0, 1, 0x088, 20, 4, .ro, 8, true, 1, 0⟩
/-- R27: ST_VECTOR.LANES, RO. -/
def Reg.SIZE_TABLE_ST_VECTOR_LANES : Field := ⟨0, 1, 0x08C, 0, 8, .ro, 64, true, 1, 0⟩
/-- R27: ST_VECTOR.VREGS, RO. -/
def Reg.SIZE_TABLE_ST_VECTOR_VREGS : Field := ⟨0, 1, 0x08C, 8, 8, .ro, 32, true, 1, 0⟩
/-- R27: ST_VECTOR.SREGS, RO. -/
def Reg.SIZE_TABLE_ST_VECTOR_SREGS : Field := ⟨0, 1, 0x08C, 16, 8, .ro, 16, true, 1, 0⟩
/-- R27: ST_VECTOR.MREGS, RO. -/
def Reg.SIZE_TABLE_ST_VECTOR_MREGS : Field := ⟨0, 1, 0x08C, 24, 4, .ro, 8, true, 1, 0⟩
/-- R27: ST_LOCAL.BANKS, RO. -/
def Reg.SIZE_TABLE_ST_LOCAL_BANKS : Field := ⟨0, 1, 0x090, 0, 4, .ro, 4, true, 1, 0⟩
/-- R27: ST_LOCAL.BANK_KIB, RO. -/
def Reg.SIZE_TABLE_ST_LOCAL_BANK_KIB : Field := ⟨0, 1, 0x090, 4, 12, .ro, 128, true, 1, 0⟩
/-- R27: ST_LOCAL.ISTORE_KIB, RO. -/
def Reg.SIZE_TABLE_ST_LOCAL_ISTORE_KIB : Field := ⟨0, 1, 0x090, 16, 12, .ro, 64, true, 1, 0⟩
/-- R27: ST_LARDER.KIB, RO. -/
def Reg.SIZE_TABLE_ST_LARDER_KIB : Field := ⟨0, 1, 0x094, 0, 16, .ro, 16384, true, 1, 0⟩
/-- R27: ST_HBM.STACKS_PER_DIE, RO. -/
def Reg.SIZE_TABLE_ST_HBM_STACKS_PER_DIE : Field := ⟨0, 1, 0x098, 0, 4, .ro, 2, true, 1, 0⟩
/-- R27: ST_HBM.STACK_GIB, RO. -/
def Reg.SIZE_TABLE_ST_HBM_STACK_GIB : Field := ⟨0, 1, 0x098, 8, 8, .ro, 48, true, 1, 0⟩
/-- R27: ST_HBM.PIN_MBPS, RO. -/
def Reg.SIZE_TABLE_ST_HBM_PIN_MBPS : Field := ⟨0, 1, 0x098, 16, 16, .ro, 9600, true, 1, 0⟩
/-- R27: ST_HBM_WIDTH.BITS, RO. -/
def Reg.SIZE_TABLE_ST_HBM_WIDTH_BITS : Field := ⟨0, 1, 0x09C, 0, 16, .ro, 1024, true, 1, 0⟩
/-- R27: ST_LINK.PORTS_PER_DIE, RO. -/
def Reg.SIZE_TABLE_ST_LINK_PORTS_PER_DIE : Field := ⟨0, 1, 0x0A0, 0, 8, .ro, 8, true, 1, 0⟩
/-- R27: ST_LINK.LANES, RO. -/
def Reg.SIZE_TABLE_ST_LINK_LANES : Field := ⟨0, 1, 0x0A0, 8, 4, .ro, 4, true, 1, 0⟩
/-- R27: ST_LINK.HOST_PER_DIE, RO. -/
def Reg.SIZE_TABLE_ST_LINK_HOST_PER_DIE : Field := ⟨0, 1, 0x0A0, 12, 4, .ro, 2, true, 1, 0⟩
/-- R27: ST_LINK.PAYLOAD_GBPS, RO. -/
def Reg.SIZE_TABLE_ST_LINK_PAYLOAD_GBPS : Field := ⟨0, 1, 0x0A0, 16, 16, .ro, 800, true, 1, 0⟩
/-- R27: ST_HOST.PORT_GBPS, RO. -/
def Reg.SIZE_TABLE_ST_HOST_PORT_GBPS : Field := ⟨0, 1, 0x0A4, 0, 16, .ro, 400, true, 1, 0⟩
/-- R27: ST_CLOCK.OP_COUNT, RO. -/
def Reg.SIZE_TABLE_ST_CLOCK_OP_COUNT : Field := ⟨0, 1, 0x0A8, 0, 8, .ro, 16, true, 1, 0⟩
/-- R27: ST_CLOCK.OP_BEST, RO. -/
def Reg.SIZE_TABLE_ST_CLOCK_OP_BEST : Field := ⟨0, 1, 0x0A8, 8, 8, .ro, 7, true, 1, 0⟩
/-- R27: ST_CLOCK.FMAX_MHZ, RO. -/
def Reg.SIZE_TABLE_ST_CLOCK_FMAX_MHZ : Field := ⟨0, 1, 0x0A8, 16, 16, .ro, 1100, true, 1, 0⟩
/-- R27: ST_BEAT.MIN, RO. -/
def Reg.SIZE_TABLE_ST_BEAT_MIN : Field := ⟨0, 1, 0x0AC, 0, 8, .ro, 5, true, 1, 0⟩
/-- R27: ST_BEAT.MAX, RO. -/
def Reg.SIZE_TABLE_ST_BEAT_MAX : Field := ⟨0, 1, 0x0AC, 8, 8, .ro, 200, true, 1, 0⟩
/-- R27: ST_BEAT.DEFAULT, RO. -/
def Reg.SIZE_TABLE_ST_BEAT_DEFAULT : Field := ⟨0, 1, 0x0AC, 16, 8, .ro, 25, true, 1, 0⟩
/-- R27: ST_BEAT.SLACK_MIN_PCT, RO. -/
def Reg.SIZE_TABLE_ST_BEAT_SLACK_MIN_PCT : Field := ⟨0, 1, 0x0AC, 24, 8, .ro, 5, true, 1, 0⟩
/-- R27: ST_POWER.PKG_MAX_W, RO. -/
def Reg.SIZE_TABLE_ST_POWER_PKG_MAX_W : Field := ⟨0, 1, 0x0B0, 0, 16, .ro, 1400, true, 1, 0⟩
/-- R27: ST_POWER.LEASE_MIN_W, RO. -/
def Reg.SIZE_TABLE_ST_POWER_LEASE_MIN_W : Field := ⟨0, 1, 0x0B0, 16, 16, .ro, 300, true, 1, 0⟩
/-- R27: ST_SHELF.MAX_W, RO. -/
def Reg.SIZE_TABLE_ST_SHELF_MAX_W : Field := ⟨0, 1, 0x0B4, 0, 16, .ro, 110, true, 1, 0⟩
/-- R27: ST_SYSTEM.ADDR_BITS, RO. -/
def Reg.SIZE_TABLE_ST_SYSTEM_ADDR_BITS : Field := ⟨0, 1, 0x0B8, 0, 8, .ro, 18, true, 1, 0⟩
/-- R27: ST_SYSTEM.MAX_ACTIVE, RO. -/
def Reg.SIZE_TABLE_ST_SYSTEM_MAX_ACTIVE : Field := ⟨0, 1, 0x0B8, 8, 24, .ro, 131072, true, 1, 0⟩
/-- R27: ST_MRAM.KIB, RO. -/
def Reg.SIZE_TABLE_ST_MRAM_KIB : Field := ⟨0, 1, 0x0BC, 0, 16, .ro, 4096, true, 1, 0⟩
/-- R27: ST_MAC.FP16_PER_ARRAY, RO. -/
def Reg.SIZE_TABLE_ST_MAC_FP16_PER_ARRAY : Field := ⟨0, 1, 0x0C0, 0, 16, .ro, 1024, true, 1, 0⟩
/-- R27: ST_CRC.VALUE, RO. -/
def Reg.SIZE_TABLE_ST_CRC_VALUE : Field := ⟨0, 1, 0x0C4, 0, 32, .ro, 2024201344, true, 1, 0⟩
/-- R55: CG_CTL.GROUP, WO. -/
def Reg.COMMIT_CG_CTL_GROUP : Field := ⟨0, 3, 0x080, 0, 3, .wo, 0, false, 1, 0⟩
/-- R55: CG_CTL.ARM, WO. -/
def Reg.COMMIT_CG_CTL_ARM : Field := ⟨0, 3, 0x080, 8, 1, .wo, 0, false, 1, 0⟩
/-- R55: CG_CTL.DISCARD, WO. -/
def Reg.COMMIT_CG_CTL_DISCARD : Field := ⟨0, 3, 0x080, 9, 1, .wo, 0, false, 1, 0⟩
/-- R55: CG_CTL.TAG, WO. -/
def Reg.COMMIT_CG_CTL_TAG : Field := ⟨0, 3, 0x080, 16, 6, .wo, 0, false, 1, 0⟩
/-- R55: CG_STAT_g.STATUS, RO. -/
def Reg.COMMIT_CG_STAT_STATUS : Field := ⟨0, 3, 0x0A0, 0, 3, .ro, 0, false, 8, 4⟩
/-- R55: CG_STAT_g.REASON, RO. -/
def Reg.COMMIT_CG_STAT_REASON : Field := ⟨0, 3, 0x0A0, 8, 8, .ro, 0, false, 8, 4⟩
/-- R55: CG_STAT_g.TAG, RO. -/
def Reg.COMMIT_CG_STAT_TAG : Field := ⟨0, 3, 0x0A0, 16, 6, .ro, 0, false, 8, 4⟩
/-- R55: CG_STAT_g.MEMBER, RO. -/
def Reg.COMMIT_CG_STAT_MEMBER : Field := ⟨0, 3, 0x0A0, 22, 5, .ro, 0, false, 8, 4⟩
/-- R55: CG_SIZE_g.COUNT, RW. -/
def Reg.COMMIT_CG_SIZE_COUNT : Field := ⟨0, 3, 0x0C0, 0, 6, .rw, 0, false, 8, 4⟩
/-- R55: CG_MEM_g_m.PAGE, RW. -/
def Reg.COMMIT_CG_MEM_PAGE : Field := ⟨0, 3, 0x400, 0, 20, .rw, 0, false, 256, 4⟩
/-- R122: SHAPE_n.ROWS, SH. -/
def Reg.GANG_SHAPE_ROWS : Field := ⟨2, 1, 0x080, 0, 2, .sh, 0, false, 8, 8⟩
/-- R122: SHAPE_n.COLS, SH. -/
def Reg.GANG_SHAPE_COLS : Field := ⟨2, 1, 0x080, 2, 3, .sh, 0, false, 8, 8⟩
/-- R122: SHAPE_n.EN, SH. -/
def Reg.GANG_SHAPE_EN : Field := ⟨2, 1, 0x080, 7, 1, .sh, 0, false, 8, 8⟩
/-- R122: ORIGIN_n.ROW, SH. -/
def Reg.GANG_ORIGIN_ROW : Field := ⟨2, 1, 0x084, 0, 2, .sh, 0, false, 8, 8⟩
/-- R122: ORIGIN_n.COL, SH. -/
def Reg.GANG_ORIGIN_COL : Field := ⟨2, 1, 0x084, 2, 3, .sh, 0, false, 8, 8⟩
/-- R122: LIVE, RO. -/
def Reg.GANG_LIVE : Field := ⟨2, 1, 0x0C0, 0, 32, .ro, 0, false, 1, 0⟩
/-- R122: EMPTY, RO. -/
def Reg.GANG_EMPTY : Field := ⟨2, 1, 0x0C4, 0, 32, .ro, 0, false, 1, 0⟩
/-- R122: SUSPECT, RO. -/
def Reg.GANG_SUSPECT : Field := ⟨2, 1, 0x0C8, 0, 17, .ro, 0, false, 1, 0⟩
/-- R146: RETIRE_WINDOW, SH. -/
def Reg.MATRIX_RETIRE_WINDOW : Field := ⟨1, 1, 0x080, 0, 20, .sh, 4000, false, 1, 0⟩
/-- R146: STATE.SET0, RO. -/
def Reg.MATRIX_STATE_SET0 : Field := ⟨1, 1, 0x084, 0, 2, .ro, 0, false, 1, 0⟩
/-- R146: STATE.SET1, RO. -/
def Reg.MATRIX_STATE_SET1 : Field := ⟨1, 1, 0x084, 2, 2, .ro, 0, false, 1, 0⟩
/-- R146: STATE.GANGED0, RO. -/
def Reg.MATRIX_STATE_GANGED0 : Field := ⟨1, 1, 0x084, 4, 1, .ro, 0, false, 1, 0⟩
/-- R146: STATE.GANGED1, RO. -/
def Reg.MATRIX_STATE_GANGED1 : Field := ⟨1, 1, 0x084, 5, 1, .ro, 0, false, 1, 0⟩
/-- R146: STATE.CQ_FILL, RO. -/
def Reg.MATRIX_STATE_CQ_FILL : Field := ⟨1, 1, 0x084, 8, 4, .ro, 0, false, 1, 0⟩
/-- R146: STATE.RECOMPUTING, RO. -/
def Reg.MATRIX_STATE_RECOMPUTING : Field := ⟨1, 1, 0x084, 12, 1, .ro, 0, false, 1, 0⟩
/-- R146: STATE.STOPPED, RO. -/
def Reg.MATRIX_STATE_STOPPED : Field := ⟨1, 1, 0x084, 13, 1, .ro, 0, false, 1, 0⟩
/-- R146: MISMATCH.TOTAL, RO. -/
def Reg.MATRIX_MISMATCH_TOTAL : Field := ⟨1, 1, 0x088, 0, 16, .ro, 0, false, 1, 0⟩
/-- R146: LAST_MM, RO. -/
def Reg.MATRIX_LAST_MM : Field := ⟨1, 1, 0x08C, 0, 32, .ro, 0, false, 1, 0⟩
/-- R146: LAST_MM_BEAT, RO. -/
def Reg.MATRIX_LAST_MM_BEAT : Field := ⟨1, 1, 0x090, 0, 32, .ro, 0, false, 1, 0⟩
/-- R146: BUSY, RO. -/
def Reg.MATRIX_BUSY : Field := ⟨1, 1, 0x094, 0, 32, .ro, 0, false, 1, 0⟩
/-- R146: FRONT_STALL, RO. -/
def Reg.MATRIX_FRONT_STALL : Field := ⟨1, 1, 0x098, 0, 32, .ro, 0, false, 1, 0⟩
/-- R146: DRAIN_STALL, RO. -/
def Reg.MATRIX_DRAIN_STALL : Field := ⟨1, 1, 0x09C, 0, 32, .ro, 0, false, 1, 0⟩
/-- R146: CQ_STALL, RO. -/
def Reg.MATRIX_CQ_STALL : Field := ⟨1, 1, 0x0A0, 0, 32, .ro, 0, false, 1, 0⟩
/-- R146: RECOMP_CYCLES, RO. -/
def Reg.MATRIX_RECOMP_CYCLES : Field := ⟨1, 1, 0x0A4, 0, 32, .ro, 0, false, 1, 0⟩
/-- R146: FLAG_CNT_f, RO. -/
def Reg.MATRIX_FLAG_CNT : Field := ⟨1, 1, 0x0C0, 0, 16, .ro, 0, false, 13, 4⟩
/-- R146: CNT_CLR, WO. -/
def Reg.MATRIX_CNT_CLR : Field := ⟨1, 1, 0x0F4, 0, 1, .wo, 0, false, 1, 0⟩
/-- R146: TEST.RUN, LK. -/
def Reg.MATRIX_TEST_RUN : Field := ⟨1, 1, 0x0F8, 0, 1, .lk, 0, false, 1, 0⟩
/-- R146: TEST_STAT.RESULT, RO. -/
def Reg.MATRIX_TEST_STAT_RESULT : Field := ⟨1, 1, 0x0FC, 0, 2, .ro, 0, false, 1, 0⟩
/-- R146: TEST_STAT.FAILED, RO. -/
def Reg.MATRIX_TEST_STAT_FAILED : Field := ⟨1, 1, 0x0FC, 2, 2, .ro, 0, false, 1, 0⟩
/-- R181: POP_LIMIT, SH. -/
def Reg.VECTOR_POP_LIMIT : Field := ⟨1, 2, 0x080, 0, 24, .sh, 2200000, false, 1, 0⟩
/-- R181: STATE.CUR_ENTRY, RO. -/
def Reg.VECTOR_STATE_CUR_ENTRY : Field := ⟨1, 2, 0x084, 0, 3, .ro, 0, false, 1, 0⟩
/-- R181: STATE.CUR_VALID, RO. -/
def Reg.VECTOR_STATE_CUR_VALID : Field := ⟨1, 2, 0x084, 3, 1, .ro, 0, false, 1, 0⟩
/-- R181: STATE.RDY_ENTRY, RO. -/
def Reg.VECTOR_STATE_RDY_ENTRY : Field := ⟨1, 2, 0x084, 4, 3, .ro, 0, false, 1, 0⟩
/-- R181: STATE.RDY_VALID, RO. -/
def Reg.VECTOR_STATE_RDY_VALID : Field := ⟨1, 2, 0x084, 7, 1, .ro, 0, false, 1, 0⟩
/-- R181: STATE.POPS, RO. -/
def Reg.VECTOR_STATE_POPS : Field := ⟨1, 2, 0x084, 8, 2, .ro, 0, false, 1, 0⟩
/-- R181: STATE.CHECKING, RO. -/
def Reg.VECTOR_STATE_CHECKING : Field := ⟨1, 2, 0x084, 10, 1, .ro, 0, false, 1, 0⟩
/-- R181: STATE.STOPPED, RO. -/
def Reg.VECTOR_STATE_STOPPED : Field := ⟨1, 2, 0x084, 11, 1, .ro, 0, false, 1, 0⟩
/-- R181: STICKY, W1C. -/
def Reg.VECTOR_STICKY : Field := ⟨1, 2, 0x088, 0, 16, .w1c, 0, false, 1, 0⟩
/-- R181: BUSY, RO. -/
def Reg.VECTOR_BUSY : Field := ⟨1, 2, 0x08C, 0, 32, .ro, 0, false, 1, 0⟩
/-- R181: POP_WAIT, RO. -/
def Reg.VECTOR_POP_WAIT : Field := ⟨1, 2, 0x090, 0, 32, .ro, 0, false, 1, 0⟩
/-- R181: CQ_READ_STALL, RO. -/
def Reg.VECTOR_CQ_READ_STALL : Field := ⟨1, 2, 0x094, 0, 32, .ro, 0, false, 1, 0⟩
/-- R181: CHECK_BUSY, RO. -/
def Reg.VECTOR_CHECK_BUSY : Field := ⟨1, 2, 0x098, 0, 32, .ro, 0, false, 1, 0⟩
/-- R181: TILES_CHECKED, RO. -/
def Reg.VECTOR_TILES_CHECKED : Field := ⟨1, 2, 0x09C, 0, 32, .ro, 0, false, 1, 0⟩
/-- R181: CSTAT_n.SAT, RO. -/
def Reg.VECTOR_CSTAT_SAT : Field := ⟨1, 2, 0x0C0, 0, 16, .ro, 0, false, 8, 8⟩
/-- R181: CSTAT_n.CRUSH, RO. -/
def Reg.VECTOR_CSTAT_CRUSH : Field := ⟨1, 2, 0x0C0, 16, 16, .ro, 0, false, 8, 8⟩
/-- R181: CSTAT_n.ALL_ZERO, RO. -/
def Reg.VECTOR_CSTAT_ALL_ZERO : Field := ⟨1, 2, 0x0C4, 0, 16, .ro, 0, false, 8, 8⟩
/-- R181: CSTAT_n.ALL_SAT, RO. -/
def Reg.VECTOR_CSTAT_ALL_SAT : Field := ⟨1, 2, 0x0C4, 16, 16, .ro, 0, false, 8, 8⟩
/-- R181: FLAG_CNT_f, RO. -/
def Reg.VECTOR_FLAG_CNT : Field := ⟨1, 2, 0x100, 0, 16, .ro, 0, false, 13, 4⟩
/-- R181: CNT_CLR, WO. -/
def Reg.VECTOR_CNT_CLR : Field := ⟨1, 2, 0x140, 0, 1, .wo, 0, false, 1, 0⟩
/-- R181: CSTAT_CLR, WO. -/
def Reg.VECTOR_CSTAT_CLR : Field := ⟨1, 2, 0x140, 1, 1, .wo, 0, false, 1, 0⟩
/-- R206: PROG.ENTRY, SH. -/
def Reg.SEQ_PROG_ENTRY : Field := ⟨1, 0, 0x080, 0, 11, .sh, 0, false, 1, 0⟩
/-- R206: PROG.SEG_BASE, SH. -/
def Reg.SEQ_PROG_SEG_BASE : Field := ⟨1, 0, 0x080, 16, 11, .sh, 0, false, 1, 0⟩
/-- R206: IMG.LO, SH. -/
def Reg.SEQ_IMG_LO : Field := ⟨1, 0, 0x084, 0, 11, .sh, 0, false, 1, 0⟩
/-- R206: IMG.HI, SH. -/
def Reg.SEQ_IMG_HI : Field := ⟨1, 0, 0x084, 16, 11, .sh, 0, false, 1, 0⟩
/-- R206: BAR_LIMIT, SH. -/
def Reg.SEQ_BAR_LIMIT : Field := ⟨1, 0, 0x088, 0, 24, .sh, 2200000, false, 1, 0⟩
/-- R206: START, WO. -/
def Reg.SEQ_START : Field := ⟨1, 0, 0x08C, 0, 1, .wo, 0, false, 1, 0⟩
/-- R206: STATE.PC, RO. -/
def Reg.SEQ_STATE_PC : Field := ⟨1, 0, 0x090, 0, 11, .ro, 0, false, 1, 0⟩
/-- R206: STATE.SEQ, RO. -/
def Reg.SEQ_STATE_SEQ : Field := ⟨1, 0, 0x090, 12, 3, .ro, 0, false, 1, 0⟩
/-- R206: STATE.LOOPS, RO. -/
def Reg.SEQ_STATE_LOOPS : Field := ⟨1, 0, 0x090, 16, 3, .ro, 0, false, 1, 0⟩
/-- R206: STATE.STOP, RO. -/
def Reg.SEQ_STATE_STOP : Field := ⟨1, 0, 0x090, 20, 4, .ro, 0, false, 1, 0⟩
/-- R206: ISSUED, RO. -/
def Reg.SEQ_ISSUED : Field := ⟨1, 0, 0x094, 0, 32, .ro, 0, false, 1, 0⟩
/-- R206: STALL_DEP, RO. -/
def Reg.SEQ_STALL_DEP : Field := ⟨1, 0, 0x098, 0, 32, .ro, 0, false, 1, 0⟩
/-- R206: STALL_CQ, RO. -/
def Reg.SEQ_STALL_CQ : Field := ⟨1, 0, 0x09C, 0, 32, .ro, 0, false, 1, 0⟩
/-- R206: STALL_VBUSY, RO. -/
def Reg.SEQ_STALL_VBUSY : Field := ⟨1, 0, 0x0A0, 0, 32, .ro, 0, false, 1, 0⟩
/-- R206: STALL_M, RO. -/
def Reg.SEQ_STALL_M : Field := ⟨1, 0, 0x0A4, 0, 32, .ro, 0, false, 1, 0⟩
/-- R206: STALL_D, RO. -/
def Reg.SEQ_STALL_D : Field := ⟨1, 0, 0x0A8, 0, 32, .ro, 0, false, 1, 0⟩
/-- R206: WAIT_SYNC, RO. -/
def Reg.SEQ_WAIT_SYNC : Field := ⟨1, 0, 0x0AC, 0, 32, .ro, 0, false, 1, 0⟩
/-- R206: LATE_CYCLES, RO. -/
def Reg.SEQ_LATE_CYCLES : Field := ⟨1, 0, 0x0B0, 0, 32, .ro, 0, false, 1, 0⟩
/-- R206: CNT_CLR, WO. -/
def Reg.SEQ_CNT_CLR : Field := ⟨1, 0, 0x0B4, 0, 1, .wo, 0, false, 1, 0⟩
/-- R208: FILL_SRC, RW. -/
def Reg.ISTORE_FILL_SRC : Field := ⟨1, 4, 0x080, 0, 18, .rw, 0, false, 1, 0⟩
/-- R208: FILL_DST, RW. -/
def Reg.ISTORE_FILL_DST : Field := ⟨1, 4, 0x084, 0, 11, .rw, 0, false, 1, 0⟩
/-- R208: FILL_SLOTS, RW. -/
def Reg.ISTORE_FILL_SLOTS : Field := ⟨1, 4, 0x084, 16, 12, .rw, 0, false, 1, 0⟩
/-- R208: FILL_CRC, RW. -/
def Reg.ISTORE_FILL_CRC : Field := ⟨1, 4, 0x088, 0, 32, .rw, 0, false, 1, 0⟩
/-- R208: FILL_GO, WO. -/
def Reg.ISTORE_FILL_GO : Field := ⟨1, 4, 0x08C, 0, 1, .wo, 0, false, 1, 0⟩
/-- R208: FILL_STAT.STATE, RO. -/
def Reg.ISTORE_FILL_STAT_STATE : Field := ⟨1, 4, 0x090, 0, 2, .ro, 0, false, 1, 0⟩
/-- R208: FILL_STAT.REASON, RO. -/
def Reg.ISTORE_FILL_STAT_REASON : Field := ⟨1, 4, 0x090, 4, 4, .ro, 0, false, 1, 0⟩
/-- R223: STATE, RO. -/
def Reg.HBM_CTL_STATE : Field := ⟨5, 0, 0x080, 0, 2, .ro, 0, false, 1, 0⟩
/-- R223: PATROL_EN, RW. -/
def Reg.HBM_CTL_PATROL_EN : Field := ⟨5, 0, 0x084, 0, 1, .rw, 1, false, 1, 0⟩
/-- R223: PATROL_PASSES, RO. -/
def Reg.HBM_CTL_PATROL_PASSES : Field := ⟨5, 0, 0x088, 0, 32, .ro, 0, false, 1, 0⟩
/-- R223: BASE_p, SH. -/
def Reg.HBM_PART_BASE : Field := ⟨5, 1, 0x080, 0, 12, .sh, 0, false, 5, 8⟩
/-- R223: SIZE_p, SH. -/
def Reg.HBM_PART_SIZE : Field := ⟨5, 1, 0x084, 0, 12, .sh, 0, false, 5, 8⟩
/-- R223: USABLE, RO. -/
def Reg.HBM_PART_USABLE : Field := ⟨5, 1, 0x0A8, 0, 12, .ro, 3048, false, 1, 0⟩
/-- R223: CRC_RETRY, RO. -/
def Reg.HBM_ERR_CRC_RETRY : Field := ⟨5, 2, 0x080, 0, 16, .ro, 0, false, 1, 0⟩
/-- R223: CRC_FAIL, RO. -/
def Reg.HBM_ERR_CRC_FAIL : Field := ⟨5, 2, 0x080, 16, 16, .ro, 0, false, 1, 0⟩
/-- R223: LAST_FAIL, RO. -/
def Reg.HBM_ERR_LAST_FAIL : Field := ⟨5, 2, 0x084, 0, 27, .ro, 0, false, 1, 0⟩
/-- R223: BAD_COUNT, RO. -/
def Reg.HBM_ERR_BAD_COUNT : Field := ⟨5, 2, 0x088, 0, 7, .ro, 0, true, 1, 0⟩
/-- R223: BAD_i.BLOCK, RO. -/
def Reg.HBM_ERR_BAD_BLOCK : Field := ⟨5, 2, 0x100, 0, 27, .ro, 0, true, 64, 4⟩
/-- R223: BAD_i.VALID, RO. -/
def Reg.HBM_ERR_BAD_VALID : Field := ⟨5, 2, 0x100, 31, 1, .ro, 0, true, 64, 4⟩
/-- R232: KICK_ADDR, RW. -/
def Reg.CMOVE_KICK_ADDR : Field := ⟨2, 2, 0x080, 0, 18, .rw, 0, false, 1, 0⟩
/-- R232: KICK_ADDR, RW. -/
def Reg.RMOVE_KICK_ADDR : Field := ⟨3, 4, 0x080, 0, 18, .rw, 0, false, 1, 0⟩
/-- R232: KICK.TAG, WO. -/
def Reg.CMOVE_KICK_TAG : Field := ⟨2, 2, 0x084, 0, 4, .wo, 0, false, 1, 0⟩
/-- R232: KICK.TAG, WO. -/
def Reg.RMOVE_KICK_TAG : Field := ⟨3, 4, 0x084, 0, 4, .wo, 0, false, 1, 0⟩
/-- R232: KICK.GO, WO. -/
def Reg.CMOVE_KICK_GO : Field := ⟨2, 2, 0x084, 4, 1, .wo, 0, false, 1, 0⟩
/-- R232: KICK.GO, WO. -/
def Reg.RMOVE_KICK_GO : Field := ⟨3, 4, 0x084, 4, 1, .wo, 0, false, 1, 0⟩
/-- R232: QUEUED, RO. -/
def Reg.CMOVE_QUEUED : Field := ⟨2, 2, 0x088, 0, 6, .ro, 0, false, 1, 0⟩
/-- R232: QUEUED, RO. -/
def Reg.RMOVE_QUEUED : Field := ⟨3, 4, 0x088, 0, 6, .ro, 0, false, 1, 0⟩
/-- R232: OPEN_TAGS, RO. -/
def Reg.CMOVE_OPEN_TAGS : Field := ⟨2, 2, 0x08C, 0, 16, .ro, 0, false, 1, 0⟩
/-- R232: OPEN_TAGS, RO. -/
def Reg.RMOVE_OPEN_TAGS : Field := ⟨3, 4, 0x08C, 0, 16, .ro, 0, false, 1, 0⟩
/-- R232: BLOCKS_DONE, RO. -/
def Reg.CMOVE_BLOCKS_DONE : Field := ⟨2, 2, 0x090, 0, 32, .ro, 0, false, 1, 0⟩
/-- R232: BLOCKS_DONE, RO. -/
def Reg.RMOVE_BLOCKS_DONE : Field := ⟨3, 4, 0x090, 0, 32, .ro, 0, false, 1, 0⟩
/-- R232: LINES, RO. -/
def Reg.CMOVE_LINES : Field := ⟨2, 2, 0x094, 0, 32, .ro, 0, false, 1, 0⟩
/-- R232: LINES, RO. -/
def Reg.RMOVE_LINES : Field := ⟨3, 4, 0x094, 0, 32, .ro, 0, false, 1, 0⟩
/-- R232: LAST_FAIL.CODE, RO. -/
def Reg.CMOVE_LAST_FAIL_CODE : Field := ⟨2, 2, 0x098, 0, 4, .ro, 0, false, 1, 0⟩
/-- R232: LAST_FAIL.CODE, RO. -/
def Reg.RMOVE_LAST_FAIL_CODE : Field := ⟨3, 4, 0x098, 0, 4, .ro, 0, false, 1, 0⟩
/-- R232: LAST_FAIL.DESC, RO. -/
def Reg.CMOVE_LAST_FAIL_DESC : Field := ⟨2, 2, 0x098, 4, 4, .ro, 0, false, 1, 0⟩
/-- R232: LAST_FAIL.DESC, RO. -/
def Reg.RMOVE_LAST_FAIL_DESC : Field := ⟨3, 4, 0x098, 4, 4, .ro, 0, false, 1, 0⟩
/-- R232: LAST_FAIL.COMPL, RO. -/
def Reg.CMOVE_LAST_FAIL_COMPL : Field := ⟨2, 2, 0x098, 8, 4, .ro, 0, false, 1, 0⟩
/-- R232: LAST_FAIL.COMPL, RO. -/
def Reg.RMOVE_LAST_FAIL_COMPL : Field := ⟨3, 4, 0x098, 8, 4, .ro, 0, false, 1, 0⟩
/-- R232: LAST_FAIL.TAG, RO. -/
def Reg.CMOVE_LAST_FAIL_TAG : Field := ⟨2, 2, 0x098, 12, 4, .ro, 0, false, 1, 0⟩
/-- R232: LAST_FAIL.TAG, RO. -/
def Reg.RMOVE_LAST_FAIL_TAG : Field := ⟨3, 4, 0x098, 12, 4, .ro, 0, false, 1, 0⟩
/-- R232: LAST_FAIL.KICKER, RO. -/
def Reg.CMOVE_LAST_FAIL_KICKER : Field := ⟨2, 2, 0x098, 16, 12, .ro, 0, false, 1, 0⟩
/-- R232: LAST_FAIL.KICKER, RO. -/
def Reg.RMOVE_LAST_FAIL_KICKER : Field := ⟨3, 4, 0x098, 16, 12, .ro, 0, false, 1, 0⟩
/-- R242: SCRUB_EN, RW. -/
def Reg.LSTORE_SCRUB_EN : Field := ⟨1, 3, 0x080, 0, 1, .rw, 1, false, 1, 0⟩
/-- R242: SCRUB_EN, RW. -/
def Reg.LARDER_SCRUB_EN : Field := ⟨3, 1, 0x080, 0, 1, .rw, 1, false, 1, 0⟩
/-- R242: SCRUB_PASSES, RO. -/
def Reg.LSTORE_SCRUB_PASSES : Field := ⟨1, 3, 0x084, 0, 32, .ro, 0, false, 1, 0⟩
/-- R242: SCRUB_PASSES, RO. -/
def Reg.LARDER_SCRUB_PASSES : Field := ⟨3, 1, 0x084, 0, 32, .ro, 0, false, 1, 0⟩
/-- R242: LAST_UERR, RO. -/
def Reg.LSTORE_LAST_UERR : Field := ⟨1, 3, 0x088, 0, 18, .ro, 0, false, 1, 0⟩
/-- R242: LAST_UERR, RO. -/
def Reg.LARDER_LAST_UERR : Field := ⟨3, 1, 0x088, 0, 18, .ro, 0, false, 1, 0⟩
/-- R242: SPARES_USED, RO. -/
def Reg.LARDER_SPARES_USED : Field := ⟨3, 1, 0x08C, 0, 7, .ro, 0, true, 1, 0⟩
/-- R242: REMAP_i.LINE, RO. -/
def Reg.LARDER_REMAP_LINE : Field := ⟨3, 1, 0x0C0, 0, 18, .ro, 0, true, 64, 4⟩
/-- R242: REMAP_i.VALID, RO. -/
def Reg.LARDER_REMAP_VALID : Field := ⟨3, 1, 0x0C0, 31, 1, .ro, 0, true, 64, 4⟩
/-- R242: RECORDS, RO. -/
def Reg.COMPRESS_RECORDS : Field := ⟨3, 3, 0x080, 0, 32, .ro, 0, false, 1, 0⟩
/-- R242: FALLBACK, RO. -/
def Reg.COMPRESS_FALLBACK : Field := ⟨3, 3, 0x084, 0, 16, .ro, 0, false, 1, 0⟩
/-- R242: STORED, RO. -/
def Reg.COMPRESS_STORED : Field := ⟨3, 3, 0x084, 16, 16, .ro, 0, false, 1, 0⟩
/-- R242: RECORD_FAIL, RO. -/
def Reg.COMPRESS_RECORD_FAIL : Field := ⟨3, 3, 0x088, 0, 16, .ro, 0, false, 1, 0⟩
/-- R242: CSTAT_n.SAT, RO. -/
def Reg.COMPRESS_CSTAT_SAT : Field := ⟨3, 3, 0x0C0, 0, 16, .ro, 0, false, 8, 8⟩
/-- R242: CSTAT_n.CRUSH, RO. -/
def Reg.COMPRESS_CSTAT_CRUSH : Field := ⟨3, 3, 0x0C0, 16, 16, .ro, 0, false, 8, 8⟩
/-- R242: CSTAT_n.ALL_ZERO, RO. -/
def Reg.COMPRESS_CSTAT_ALL_ZERO : Field := ⟨3, 3, 0x0C4, 0, 16, .ro, 0, false, 8, 8⟩
/-- R242: CSTAT_n.ALL_SAT, RO. -/
def Reg.COMPRESS_CSTAT_ALL_SAT : Field := ⟨3, 3, 0x0C4, 16, 16, .ro, 0, false, 8, 8⟩
/-- R242: CNT_CLR, WO. -/
def Reg.COMPRESS_CNT_CLR : Field := ⟨3, 3, 0x100, 0, 1, .wo, 0, false, 1, 0⟩
/-- R249: PERIOD, SH. -/
def Reg.BEAT_CFG_PERIOD : Field := ⟨8, 0, 0x080, 0, 8, .sh, 25, false, 1, 0⟩
/-- R249: T_X, SH. -/
def Reg.BEAT_CFG_T_X : Field := ⟨8, 0, 0x084, 0, 15, .sh, 0, false, 1, 0⟩
/-- R249: T_S, SH. -/
def Reg.BEAT_CFG_T_S : Field := ⟨8, 0, 0x088, 0, 15, .sh, 2375, false, 1, 0⟩
/-- R249: APPLY_BEAT.LO, SH. -/
def Reg.BEAT_CFG_APPLY_BEAT_LO : Field := ⟨8, 0, 0x08C, 0, 32, .sh, 0, false, 1, 0⟩
/-- R249: APPLY_BEAT.HI, SH. -/
def Reg.BEAT_CFG_APPLY_BEAT_HI : Field := ⟨8, 0, 0x090, 0, 32, .sh, 0, false, 1, 0⟩
/-- R249: LATE_LIMIT, SH. -/
def Reg.BEAT_CFG_LATE_LIMIT : Field := ⟨8, 0, 0x094, 0, 16, .sh, 400, false, 1, 0⟩
/-- R249: VOTE_LIMIT, SH. -/
def Reg.BEAT_CFG_VOTE_LIMIT : Field := ⟨8, 0, 0x094, 16, 16, .sh, 64, false, 1, 0⟩
/-- R249: LATE_SHARE, SH. -/
def Reg.BEAT_CFG_LATE_SHARE : Field := ⟨8, 0, 0x098, 0, 8, .sh, 50, false, 1, 0⟩
/-- R249: FIT_MARGIN, SH. -/
def Reg.BEAT_CFG_FIT_MARGIN : Field := ⟨8, 0, 0x098, 8, 8, .sh, 3, false, 1, 0⟩
/-- R249: BEAT_NUM.LO, RO. -/
def Reg.BEAT_CFG_BEAT_NUM_LO : Field := ⟨8, 0, 0x0A0, 0, 32, .ro, 0, false, 1, 0⟩
/-- R249: BEAT_NUM.HI, RO. -/
def Reg.BEAT_CFG_BEAT_NUM_HI : Field := ⟨8, 0, 0x0A4, 0, 32, .ro, 0, false, 1, 0⟩
/-- R249: STATUS.WINDOW, RO. -/
def Reg.BEAT_CFG_STATUS_WINDOW : Field := ⟨8, 0, 0x0A8, 0, 2, .ro, 0, false, 1, 0⟩
/-- R249: STATUS.PENDING, RO. -/
def Reg.BEAT_CFG_STATUS_PENDING : Field := ⟨8, 0, 0x0A8, 2, 1, .ro, 0, false, 1, 0⟩
/-- R249: PHASE, RO. -/
def Reg.BEAT_CFG_PHASE : Field := ⟨8, 0, 0x0AC, 0, 15, .ro, 0, false, 1, 0⟩
/-- R249: LATE_BEATS, RO. -/
def Reg.BEAT_CFG_LATE_BEATS : Field := ⟨8, 0, 0x0B0, 0, 16, .ro, 0, false, 1, 0⟩
/-- R249: MAX_LATE, RO. -/
def Reg.BEAT_CFG_MAX_LATE : Field := ⟨8, 0, 0x0B0, 16, 16, .ro, 0, false, 1, 0⟩
/-- R268: CANDIDATE, SH. -/
def Reg.BEAT_LOCK_CANDIDATE : Field := ⟨8, 1, 0x080, 0, 1, .sh, 0, false, 1, 0⟩
/-- R268: PRIORITY, SH. -/
def Reg.BEAT_LOCK_PRIORITY : Field := ⟨8, 1, 0x080, 8, 8, .sh, 255, false, 1, 0⟩
/-- R268: STATE, RO. -/
def Reg.BEAT_LOCK_STATE : Field := ⟨8, 1, 0x084, 0, 3, .ro, 0, false, 1, 0⟩
/-- R268: UPSTREAM, RO. -/
def Reg.BEAT_LOCK_UPSTREAM : Field := ⟨8, 1, 0x084, 4, 6, .ro, 63, false, 1, 0⟩
/-- R268: HOPS, RO. -/
def Reg.BEAT_LOCK_HOPS : Field := ⟨8, 1, 0x084, 16, 7, .ro, 0, false, 1, 0⟩
/-- R268: SOURCE, RO. -/
def Reg.BEAT_LOCK_SOURCE : Field := ⟨8, 1, 0x088, 0, 18, .ro, 262143, false, 1, 0⟩
/-- R268: SOURCE_PRIO, RO. -/
def Reg.BEAT_LOCK_SOURCE_PRIO : Field := ⟨8, 1, 0x088, 24, 8, .ro, 255, false, 1, 0⟩
/-- R268: PHASE_ERR, RO. -/
def Reg.BEAT_LOCK_PHASE_ERR : Field := ⟨8, 1, 0x08C, 0, 16, .ro, 0, false, 1, 0⟩
/-- R268: MARKER_TIMEOUT, SH. -/
def Reg.BEAT_LOCK_MARKER_TIMEOUT : Field := ⟨8, 1, 0x090, 0, 16, .sh, 4, false, 1, 0⟩
/-- R268: HOLD_LIMIT, SH. -/
def Reg.BEAT_LOCK_HOLD_LIMIT : Field := ⟨8, 1, 0x090, 16, 16, .sh, 64, false, 1, 0⟩
/-- R268: SOURCE_TIMEOUT, SH. -/
def Reg.BEAT_LOCK_SOURCE_TIMEOUT : Field := ⟨8, 1, 0x094, 0, 8, .sh, 3, false, 1, 0⟩
/-- R268: LOCK_COUNT, SH. -/
def Reg.BEAT_LOCK_LOCK_COUNT : Field := ⟨8, 1, 0x094, 8, 8, .sh, 16, false, 1, 0⟩
/-- R268: RATE_PPB, RO. -/
def Reg.BEAT_LOCK_RATE_PPB : Field := ⟨8, 1, 0x098, 0, 32, .ro, 0, false, 1, 0⟩
/-- R268: LOCK_LOSSES, RO. -/
def Reg.BEAT_LOCK_LOCK_LOSSES : Field := ⟨8, 1, 0x09C, 0, 16, .ro, 0, false, 1, 0⟩
/-- R268: SOURCE_CHANGES, RO. -/
def Reg.BEAT_LOCK_SOURCE_CHANGES : Field := ⟨8, 1, 0x09C, 16, 16, .ro, 0, false, 1, 0⟩
/-- R268: DELAY_p.VALUE, RO. -/
def Reg.BEAT_LOCK_DELAY_VALUE : Field := ⟨8, 1, 0x0C0, 0, 24, .ro, 0, false, 32, 4⟩
/-- R268: DELAY_p.VALID, RO. -/
def Reg.BEAT_LOCK_DELAY_VALID : Field := ⟨8, 1, 0x0C0, 31, 1, .ro, 0, false, 32, 4⟩
/-- R286: STEP.LO, RO. -/
def Reg.STEP_REC_STEP_LO : Field := ⟨8, 2, 0x080, 0, 32, .ro, 0, false, 1, 0⟩
/-- R286: STEP.HI, RO. -/
def Reg.STEP_REC_STEP_HI : Field := ⟨8, 2, 0x084, 0, 32, .ro, 0, false, 1, 0⟩
/-- R286: STATE.PHASE, RO. -/
def Reg.STEP_REC_STATE_PHASE : Field := ⟨8, 2, 0x088, 0, 2, .ro, 0, false, 1, 0⟩
/-- R286: STATE.VOTE, RO. -/
def Reg.STEP_REC_STATE_VOTE : Field := ⟨8, 2, 0x088, 2, 2, .ro, 0, false, 1, 0⟩
/-- R286: STATE.AGG, RO. -/
def Reg.STEP_REC_STATE_AGG : Field := ⟨8, 2, 0x088, 4, 2, .ro, 0, false, 1, 0⟩
/-- R286: STATE.DECISION, RO. -/
def Reg.STEP_REC_STATE_DECISION : Field := ⟨8, 2, 0x088, 6, 2, .ro, 0, false, 1, 0⟩
/-- R286: START.LO, RO. -/
def Reg.STEP_REC_START_LO : Field := ⟨8, 2, 0x08C, 0, 32, .ro, 0, false, 1, 0⟩
/-- R286: START.HI, RO. -/
def Reg.STEP_REC_START_HI : Field := ⟨8, 2, 0x090, 0, 32, .ro, 0, false, 1, 0⟩
/-- R286: LEDGER.COUNT, RO. -/
def Reg.STEP_REC_LEDGER_COUNT : Field := ⟨8, 2, 0x094, 0, 16, .ro, 0, false, 1, 0⟩
/-- R286: LEDGER.TRUNCATED, RO. -/
def Reg.STEP_REC_LEDGER_TRUNCATED : Field := ⟨8, 2, 0x094, 16, 1, .ro, 0, false, 1, 0⟩
/-- R286: ATTEMPT, RO. -/
def Reg.STEP_REC_ATTEMPT : Field := ⟨8, 2, 0x098, 0, 16, .ro, 0, false, 1, 0⟩
/-- R286: LEDGER_MODE, SH. -/
def Reg.STEP_REC_LEDGER_MODE : Field := ⟨8, 2, 0x09C, 0, 1, .sh, 0, false, 1, 0⟩
/-- R286: FORCE_WAIT, SH. -/
def Reg.STEP_REC_FORCE_WAIT : Field := ⟨8, 2, 0x0A0, 0, 32, .sh, 4000, false, 1, 0⟩
/-- R286: FORCE_BLOCK, SH. -/
def Reg.STEP_REC_FORCE_BLOCK : Field := ⟨8, 2, 0x0A4, 0, 32, .sh, 0, false, 1, 0⟩
/-- R286: FORCE_COUNT, SH. -/
def Reg.STEP_REC_FORCE_COUNT : Field := ⟨8, 2, 0x0A8, 0, 16, .sh, 0, false, 1, 0⟩
/-- R290: SRC.SPACE, RW. -/
def Reg.DRAFT_SRC_SPACE : Field := ⟨9, 0, 0x080, 0, 4, .rw, 0, false, 1, 0⟩
/-- R290: SRC.ADDR, RW. -/
def Reg.DRAFT_SRC_ADDR : Field := ⟨9, 0, 0x084, 0, 32, .rw, 0, false, 1, 0⟩
/-- R290: LEN, RW. -/
def Reg.DRAFT_LEN : Field := ⟨9, 0, 0x088, 0, 32, .rw, 0, false, 1, 0⟩
/-- R290: SELF_ADDR, RW. -/
def Reg.DRAFT_SELF_ADDR : Field := ⟨9, 0, 0x08C, 0, 18, .rw, 262143, false, 1, 0⟩
/-- R290: CMD.LOAD, WO. -/
def Reg.DRAFT_CMD_LOAD : Field := ⟨9, 0, 0x090, 0, 1, .wo, 0, false, 1, 0⟩
/-- R290: CMD.ABORT, WO. -/
def Reg.DRAFT_CMD_ABORT : Field := ⟨9, 0, 0x090, 1, 1, .wo, 0, false, 1, 0⟩
/-- R290: STATUS.STATE, RO. -/
def Reg.DRAFT_STATUS_STATE : Field := ⟨9, 0, 0x094, 0, 3, .ro, 0, false, 1, 0⟩
/-- R290: STATUS.REASON, RO. -/
def Reg.DRAFT_STATUS_REASON : Field := ⟨9, 0, 0x094, 8, 8, .ro, 0, false, 1, 0⟩
/-- R290: STATUS.KCODE, RO. -/
def Reg.DRAFT_STATUS_KCODE : Field := ⟨9, 0, 0x094, 16, 8, .ro, 0, false, 1, 0⟩
/-- R290: INDEX, RO. -/
def Reg.DRAFT_INDEX : Field := ⟨9, 0, 0x098, 0, 32, .ro, 0, false, 1, 0⟩
/-- R290: LIMIT.PLACE_MS, RW. -/
def Reg.DRAFT_LIMIT_PLACE_MS : Field := ⟨9, 0, 0x09C, 0, 16, .rw, 10000, false, 1, 0⟩
/-- R290: LIMIT.REPLAN_MS, RW. -/
def Reg.DRAFT_LIMIT_REPLAN_MS : Field := ⟨9, 0, 0x09C, 16, 16, .rw, 200, false, 1, 0⟩
/-- R290: START_BEAT.LO, SH. -/
def Reg.DRAFT_START_BEAT_LO : Field := ⟨9, 0, 0x0A0, 0, 32, .sh, 0, false, 1, 0⟩
/-- R290: START_BEAT.HI, SH. -/
def Reg.DRAFT_START_BEAT_HI : Field := ⟨9, 0, 0x0A4, 0, 32, .sh, 0, false, 1, 0⟩
/-- R290: RUN, SH. -/
def Reg.DRAFT_RUN : Field := ⟨9, 0, 0x0A8, 0, 1, .sh, 0, false, 1, 0⟩
/-- R323: NUMERIC_HASH, RO. -/
def Reg.PLAN_RB_NUMERIC_HASH : Field := ⟨9, 1, 0x080, 0, 32, .ro, 0, false, 8, 4⟩
/-- R323: TIMING_ID, RO. -/
def Reg.PLAN_RB_TIMING_ID : Field := ⟨9, 1, 0x0A0, 0, 32, .ro, 0, false, 1, 0⟩
/-- R323: N_BEATS, RO. -/
def Reg.PLAN_RB_N_BEATS : Field := ⟨9, 1, 0x0A4, 0, 16, .ro, 0, false, 1, 0⟩
/-- R323: SLICED, RO. -/
def Reg.PLAN_RB_SLICED : Field := ⟨9, 1, 0x0A4, 16, 16, .ro, 0, false, 1, 0⟩
/-- R323: USE.UNITS, RO. -/
def Reg.PLAN_RB_USE_UNITS : Field := ⟨9, 1, 0x0A8, 0, 12, .ro, 0, false, 1, 0⟩
/-- R323: USE.CLUSTERS, RO. -/
def Reg.PLAN_RB_USE_CLUSTERS : Field := ⟨9, 1, 0x0A8, 12, 8, .ro, 0, false, 1, 0⟩
/-- R323: USE.REGIONS, RO. -/
def Reg.PLAN_RB_USE_REGIONS : Field := ⟨9, 1, 0x0A8, 20, 5, .ro, 0, false, 1, 0⟩
/-- R323: USE.DIES, RO. -/
def Reg.PLAN_RB_USE_DIES : Field := ⟨9, 1, 0x0A8, 25, 3, .ro, 0, false, 1, 0⟩
/-- R323: USE.STACKS_LO, RO. -/
def Reg.PLAN_RB_USE_STACKS_LO : Field := ⟨9, 1, 0x0A8, 28, 4, .ro, 0, false, 1, 0⟩
/-- R323: FIT_OP, RO. -/
def Reg.PLAN_RB_FIT_OP : Field := ⟨9, 1, 0x0AC, 0, 4, .ro, 0, false, 1, 0⟩
/-- R323: PLAN_OP, RO. -/
def Reg.PLAN_RB_PLAN_OP : Field := ⟨9, 1, 0x0AC, 4, 4, .ro, 0, false, 1, 0⟩
/-- R323: CAUSE, RO. -/
def Reg.PLAN_RB_CAUSE : Field := ⟨9, 1, 0x0AC, 8, 8, .ro, 0, false, 1, 0⟩
/-- R323: REPLANS, RO. -/
def Reg.PLAN_RB_REPLANS : Field := ⟨9, 1, 0x0AC, 16, 16, .ro, 0, false, 1, 0⟩
/-- R323: TABLE.ADDR, RO. -/
def Reg.PLAN_RB_TABLE_ADDR : Field := ⟨9, 1, 0x0B0, 0, 30, .ro, 0, false, 1, 0⟩
/-- R323: TABLE.COUNT, RO. -/
def Reg.PLAN_RB_TABLE_COUNT : Field := ⟨9, 1, 0x0B4, 0, 32, .ro, 0, false, 1, 0⟩
/-- R323: LAST_MS, RO. -/
def Reg.PLAN_RB_LAST_MS : Field := ⟨9, 1, 0x0B8, 0, 16, .ro, 0, false, 1, 0⟩
/-- R326: ROLE, RO. -/
def Reg.SPARES_ROLE : Field := ⟨9, 2, 0x080, 0, 2, .ro, 0, false, 1, 0⟩
/-- R326: OWN_FEED, RO. -/
def Reg.SPARES_OWN_FEED : Field := ⟨9, 2, 0x080, 2, 6, .ro, 0, false, 1, 0⟩
/-- R326: FEED_SHARED, RO. -/
def Reg.SPARES_FEED_SHARED : Field := ⟨9, 2, 0x080, 8, 1, .ro, 0, false, 1, 0⟩
/-- R326: PARTNER, RO. -/
def Reg.SPARES_PARTNER : Field := ⟨9, 2, 0x084, 0, 18, .ro, 262143, false, 1, 0⟩
/-- R326: HOLDS, RO. -/
def Reg.SPARES_HOLDS : Field := ⟨9, 2, 0x088, 0, 18, .ro, 262143, false, 1, 0⟩
/-- R326: RING_K, RO. -/
def Reg.SPARES_RING_K : Field := ⟨9, 2, 0x08C, 0, 16, .ro, 0, false, 1, 0⟩
/-- R326: DRAIN, RO. -/
def Reg.SPARES_DRAIN : Field := ⟨9, 2, 0x08C, 16, 16, .ro, 0, false, 1, 0⟩
/-- R326: SPARES_LEFT, RO. -/
def Reg.SPARES_SPARES_LEFT : Field := ⟨9, 2, 0x090, 0, 18, .ro, 0, false, 1, 0⟩
/-- R356: TABLE.SPACE, RW. -/
def Reg.SCALE_POL_TABLE_SPACE : Field := ⟨10, 0, 0x080, 0, 4, .rw, 0, false, 1, 0⟩
/-- R356: TABLE.ADDR, RW. -/
def Reg.SCALE_POL_TABLE_ADDR : Field := ⟨10, 0, 0x084, 0, 32, .rw, 0, false, 1, 0⟩
/-- R356: TABLE.LEN, RW. -/
def Reg.SCALE_POL_TABLE_LEN : Field := ⟨10, 0, 0x088, 0, 21, .rw, 0, false, 1, 0⟩
/-- R356: NR_LIMIT, SH. -/
def Reg.SCALE_POL_NR_LIMIT : Field := ⟨10, 0, 0x08C, 0, 4, .sh, 3, false, 1, 0⟩
/-- R356: NAN_ACT, SH. -/
def Reg.SCALE_POL_NAN_ACT : Field := ⟨10, 0, 0x08C, 4, 1, .sh, 0, false, 1, 0⟩
/-- R356: DIRTY_LIMIT, SH. -/
def Reg.SCALE_POL_DIRTY_LIMIT : Field := ⟨10, 0, 0x08C, 8, 4, .sh, 3, false, 1, 0⟩
/-- R356: STATUS.STATE, RO. -/
def Reg.SCALE_POL_STATUS_STATE : Field := ⟨10, 0, 0x090, 0, 2, .ro, 0, false, 1, 0⟩
/-- R356: STATUS.REASON, RO. -/
def Reg.SCALE_POL_STATUS_REASON : Field := ⟨10, 0, 0x090, 8, 8, .ro, 0, false, 1, 0⟩
/-- R356: STATUS.INDEX, RO. -/
def Reg.SCALE_POL_STATUS_INDEX : Field := ⟨10, 0, 0x094, 0, 32, .ro, 0, false, 1, 0⟩
/-- R356: POLICY_DIGEST, RO. -/
def Reg.SCALE_POL_POLICY_DIGEST : Field := ⟨10, 0, 0x0A0, 0, 32, .ro, 0, false, 8, 4⟩
/-- R357: JOB_SEED.LO, RO. -/
def Reg.SR_SEED_JOB_SEED_LO : Field := ⟨10, 1, 0x080, 0, 32, .ro, 0, false, 1, 0⟩
/-- R357: JOB_SEED.HI, RO. -/
def Reg.SR_SEED_JOB_SEED_HI : Field := ⟨10, 1, 0x084, 0, 32, .ro, 0, false, 1, 0⟩
/-- R357: TEST.STEP_LO, RW. -/
def Reg.SR_SEED_TEST_STEP_LO : Field := ⟨10, 1, 0x088, 0, 32, .rw, 0, false, 1, 0⟩
/-- R357: TEST.STEP_HI, RW. -/
def Reg.SR_SEED_TEST_STEP_HI : Field := ⟨10, 1, 0x08C, 0, 32, .rw, 0, false, 1, 0⟩
/-- R357: TEST.TENSOR, RW. -/
def Reg.SR_SEED_TEST_TENSOR : Field := ⟨10, 1, 0x090, 0, 24, .rw, 0, false, 1, 0⟩
/-- R357: TEST.INDEX, RW. -/
def Reg.SR_SEED_TEST_INDEX : Field := ⟨10, 1, 0x094, 0, 32, .rw, 0, false, 1, 0⟩
/-- R357: TEST.WORD, RO. -/
def Reg.SR_SEED_TEST_WORD : Field := ⟨10, 1, 0x098, 0, 32, .ro, 0, false, 1, 0⟩
/-- R358: STATE.ROUND, RO. -/
def Reg.WATCH_STATE_ROUND : Field := ⟨10, 2, 0x080, 0, 5, .ro, 0, false, 1, 0⟩
/-- R358: STATE.CAUSES, RO. -/
def Reg.WATCH_STATE_CAUSES : Field := ⟨10, 2, 0x080, 5, 5, .ro, 0, false, 1, 0⟩
/-- R358: STATE.DIRTY_RUN, RO. -/
def Reg.WATCH_STATE_DIRTY_RUN : Field := ⟨10, 2, 0x080, 10, 4, .ro, 0, false, 1, 0⟩
/-- R358: REPLAYS, RO. -/
def Reg.WATCH_REPLAYS : Field := ⟨10, 2, 0x084, 0, 16, .ro, 0, false, 1, 0⟩
/-- R358: DISCARDS, RO. -/
def Reg.WATCH_DISCARDS : Field := ⟨10, 2, 0x084, 16, 16, .ro, 0, false, 1, 0⟩
/-- R358: LEVEL_UPS, RO. -/
def Reg.WATCH_LEVEL_UPS : Field := ⟨10, 2, 0x088, 0, 16, .ro, 0, false, 1, 0⟩
/-- R358: LEVEL_DOWNS, RO. -/
def Reg.WATCH_LEVEL_DOWNS : Field := ⟨10, 2, 0x088, 16, 16, .ro, 0, false, 1, 0⟩
/-- R358: SKIPS, RO. -/
def Reg.WATCH_SKIPS : Field := ⟨10, 2, 0x08C, 0, 16, .ro, 0, false, 1, 0⟩
/-- R358: WARM, RO. -/
def Reg.WATCH_WARM : Field := ⟨10, 2, 0x08C, 16, 16, .ro, 0, false, 1, 0⟩
/-- R358: LAST_TENSOR, RO. -/
def Reg.WATCH_LAST_TENSOR : Field := ⟨10, 2, 0x090, 0, 24, .ro, 0, false, 1, 0⟩
/-- R358: CNT_CLR, WO. -/
def Reg.WATCH_CNT_CLR : Field := ⟨10, 2, 0x094, 0, 1, .wo, 0, false, 1, 0⟩
/-- R382: CARRY_MIB, SH. -/
def Reg.EXCH_CFG_CARRY_MIB : Field := ⟨11, 0, 0x080, 0, 6, .sh, 16, false, 1, 0⟩
/-- R382: CARRY_USED_KIB, RO. -/
def Reg.EXCH_CFG_CARRY_USED_KIB : Field := ⟨11, 0, 0x084, 0, 24, .ro, 0, false, 1, 0⟩
/-- R382: ON_TIME, RO. -/
def Reg.EXCH_CFG_ON_TIME : Field := ⟨11, 0, 0x088, 0, 32, .ro, 0, false, 1, 0⟩
/-- R382: LATE, RO. -/
def Reg.EXCH_CFG_LATE : Field := ⟨11, 0, 0x08C, 0, 32, .ro, 0, false, 1, 0⟩
/-- R382: CRC_FAIL, RO. -/
def Reg.EXCH_CFG_CRC_FAIL : Field := ⟨11, 0, 0x090, 0, 16, .ro, 0, false, 1, 0⟩
/-- R382: STALE, RO. -/
def Reg.EXCH_CFG_STALE : Field := ⟨11, 0, 0x090, 16, 16, .ro, 0, false, 1, 0⟩
/-- R382: DUPLICATE, RO. -/
def Reg.EXCH_CFG_DUPLICATE : Field := ⟨11, 0, 0x094, 0, 16, .ro, 0, false, 1, 0⟩
/-- R382: AFTER_DECISION, RO. -/
def Reg.EXCH_CFG_AFTER_DECISION : Field := ⟨11, 0, 0x094, 16, 16, .ro, 0, false, 1, 0⟩
/-- R382: BLOCKS_ENCODED, RO. -/
def Reg.EXCH_CFG_BLOCKS_ENCODED : Field := ⟨11, 0, 0x098, 0, 32, .ro, 0, false, 1, 0⟩
/-- R382: WIRE_BYTES, RO. -/
def Reg.EXCH_CFG_WIRE_BYTES : Field := ⟨11, 0, 0x09C, 0, 32, .ro, 0, false, 1, 0⟩
/-- R382: CNT_CLR, WO. -/
def Reg.EXCH_CFG_CNT_CLR : Field := ⟨11, 0, 0x0A0, 0, 1, .wo, 0, false, 1, 0⟩
/-- R383: CUR.ADDR, RO. -/
def Reg.LEDGER_CUR_ADDR : Field := ⟨11, 1, 0x080, 0, 30, .ro, 0, false, 1, 0⟩
/-- R383: LAST.ADDR, RO. -/
def Reg.LEDGER_LAST_ADDR : Field := ⟨11, 1, 0x084, 0, 30, .ro, 0, false, 1, 0⟩
/-- R383: DROPPED, RO. -/
def Reg.LEDGER_DROPPED : Field := ⟨11, 1, 0x088, 0, 16, .ro, 0, false, 1, 0⟩
/-- R383: DEFERRED, RO. -/
def Reg.LEDGER_DEFERRED : Field := ⟨11, 1, 0x088, 16, 16, .ro, 0, false, 1, 0⟩
/-- R383: APPLIED, RO. -/
def Reg.LEDGER_APPLIED : Field := ⟨11, 1, 0x08C, 0, 16, .ro, 0, false, 1, 0⟩
/-- R383: DISCARDED, RO. -/
def Reg.LEDGER_DISCARDED : Field := ⟨11, 1, 0x08C, 16, 16, .ro, 0, false, 1, 0⟩
/-- R409: STATE, RO. -/
def Reg.LINK_PHY_STATE : Field := ⟨6, 0, 0x080, 0, 3, .ro, 0, false, 1, 0⟩
/-- R409: LANES_OK, RO. -/
def Reg.LINK_PHY_LANES_OK : Field := ⟨6, 0, 0x080, 4, 4, .ro, 0, false, 1, 0⟩
/-- R409: ACTIVE, RO. -/
def Reg.LINK_PHY_ACTIVE : Field := ⟨6, 0, 0x080, 8, 4, .ro, 0, false, 1, 0⟩
/-- R409: REASON, RO. -/
def Reg.LINK_PHY_REASON : Field := ⟨6, 0, 0x080, 12, 4, .ro, 0, false, 1, 0⟩
/-- R409: TRAIN_LIMIT_MS, RW. -/
def Reg.LINK_PHY_TRAIN_LIMIT_MS : Field := ⟨6, 0, 0x084, 0, 16, .rw, 500, false, 1, 0⟩
/-- R409: ATTEMPTS, RW. -/
def Reg.LINK_PHY_ATTEMPTS : Field := ⟨6, 0, 0x084, 16, 4, .rw, 3, false, 1, 0⟩
/-- R409: RETRY, WO. -/
def Reg.LINK_PHY_RETRY : Field := ⟨6, 0, 0x088, 0, 1, .wo, 0, false, 1, 0⟩
/-- R409: FAR_ADDR, RO. -/
def Reg.LINK_PHY_FAR_ADDR : Field := ⟨6, 0, 0x08C, 0, 18, .ro, 262143, false, 1, 0⟩
/-- R409: FAR_PORT, RO. -/
def Reg.LINK_PHY_FAR_PORT : Field := ⟨6, 0, 0x08C, 18, 6, .ro, 63, false, 1, 0⟩
/-- R409: CORR_SYMBOLS, RO. -/
def Reg.LINK_PHY_CORR_SYMBOLS : Field := ⟨6, 0, 0x090, 0, 32, .ro, 0, false, 1, 0⟩
/-- R409: UNCORR_CW, RO. -/
def Reg.LINK_PHY_UNCORR_CW : Field := ⟨6, 0, 0x094, 0, 32, .ro, 0, false, 1, 0⟩
/-- R409: RETRAINS, RO. -/
def Reg.LINK_PHY_RETRAINS : Field := ⟨6, 0, 0x098, 0, 16, .ro, 0, false, 1, 0⟩
/-- R409: CARRIES, RO. -/
def Reg.LINK_SLOT_CARRIES : Field := ⟨6, 1, 0x080, 0, 2, .ro, 0, false, 1, 0⟩
/-- R409: SCHED, RO. -/
def Reg.LINK_SLOT_SCHED : Field := ⟨6, 1, 0x080, 2, 1, .ro, 0, false, 1, 0⟩
/-- R409: SENT, RO. -/
def Reg.LINK_SLOT_SENT : Field := ⟨6, 1, 0x084, 0, 32, .ro, 0, false, 1, 0⟩
/-- R409: EMPTY, RO. -/
def Reg.LINK_SLOT_EMPTY : Field := ⟨6, 1, 0x088, 0, 32, .ro, 0, false, 1, 0⟩
/-- R409: LATE_SENT, RO. -/
def Reg.LINK_SLOT_LATE_SENT : Field := ⟨6, 1, 0x08C, 0, 32, .ro, 0, false, 1, 0⟩
/-- R409: TABLE.SPACE, RW. -/
def Reg.LINK_ROUTE_TABLE_SPACE : Field := ⟨6, 2, 0x080, 0, 4, .rw, 0, false, 1, 0⟩
/-- R409: TABLE.ADDR, RW. -/
def Reg.LINK_ROUTE_TABLE_ADDR : Field := ⟨6, 2, 0x084, 0, 32, .rw, 0, false, 1, 0⟩
/-- R409: TABLE.LEN, RW. -/
def Reg.LINK_ROUTE_TABLE_LEN : Field := ⟨6, 2, 0x088, 0, 32, .rw, 0, false, 1, 0⟩
/-- R409: CMD.LOAD, WO. -/
def Reg.LINK_ROUTE_CMD_LOAD : Field := ⟨6, 2, 0x08C, 0, 1, .wo, 0, false, 1, 0⟩
/-- R409: STATUS.STATE, RO. -/
def Reg.LINK_ROUTE_STATUS_STATE : Field := ⟨6, 2, 0x090, 0, 2, .ro, 0, false, 1, 0⟩
/-- R409: STATUS.REASON, RO. -/
def Reg.LINK_ROUTE_STATUS_REASON : Field := ⟨6, 2, 0x090, 8, 8, .ro, 0, false, 1, 0⟩
/-- R409: STATUS.INDEX, RO. -/
def Reg.LINK_ROUTE_STATUS_INDEX : Field := ⟨6, 2, 0x094, 0, 32, .ro, 0, false, 1, 0⟩
/-- R409: APPLY_BEAT.LO, SH. -/
def Reg.LINK_ROUTE_APPLY_BEAT_LO : Field := ⟨6, 2, 0x098, 0, 32, .sh, 0, false, 1, 0⟩
/-- R409: APPLY_BEAT.HI, SH. -/
def Reg.LINK_ROUTE_APPLY_BEAT_HI : Field := ⟨6, 2, 0x09C, 0, 32, .sh, 0, false, 1, 0⟩
/-- R409: TOPO, RO. -/
def Reg.LINK_ROUTE_TOPO : Field := ⟨6, 2, 0x0A0, 0, 32, .ro, 16843009, false, 1, 0⟩
/-- R409: SLACK_TTL, SH. -/
def Reg.LINK_ROUTE_SLACK_TTL : Field := ⟨6, 2, 0x0A4, 0, 8, .sh, 4, false, 1, 0⟩
/-- R409: LIVE, RO. -/
def Reg.LINK_ROUTE_LIVE : Field := ⟨6, 2, 0x0A8, 0, 1, .ro, 0, false, 1, 0⟩
/-- R409: THROUGH, RO. -/
def Reg.LINK_ROUTE_THROUGH : Field := ⟨6, 2, 0x0C0, 0, 32, .ro, 0, false, 1, 0⟩
/-- R409: LANDED, RO. -/
def Reg.LINK_ROUTE_LANDED : Field := ⟨6, 2, 0x0C4, 0, 32, .ro, 0, false, 1, 0⟩
/-- R409: SLACK_FWD, RO. -/
def Reg.LINK_ROUTE_SLACK_FWD : Field := ⟨6, 2, 0x0C8, 0, 32, .ro, 0, false, 1, 0⟩
/-- R409: SHUTTLE_CRC, RO. -/
def Reg.LINK_ERR_SHUTTLE_CRC : Field := ⟨6, 3, 0x080, 0, 16, .ro, 0, false, 1, 0⟩
/-- R409: STALE, RO. -/
def Reg.LINK_ERR_STALE : Field := ⟨6, 3, 0x080, 16, 16, .ro, 0, false, 1, 0⟩
/-- R409: RESEND_REQ, RO. -/
def Reg.LINK_ERR_RESEND_REQ : Field := ⟨6, 3, 0x084, 0, 16, .ro, 0, false, 1, 0⟩
/-- R409: RESEND_FAIL, RO. -/
def Reg.LINK_ERR_RESEND_FAIL : Field := ⟨6, 3, 0x084, 16, 16, .ro, 0, false, 1, 0⟩
/-- R409: SLACK_DISCARD, RO. -/
def Reg.LINK_ERR_SLACK_DISCARD : Field := ⟨6, 3, 0x088, 0, 16, .ro, 0, false, 1, 0⟩
/-- R409: CNT_CLR, WO. -/
def Reg.LINK_ERR_CNT_CLR : Field := ⟨6, 3, 0x08C, 0, 1, .wo, 0, false, 1, 0⟩
/-- R448: STATE, RO. -/
def Reg.HOST_MAC_STATE : Field := ⟨7, 0, 0x080, 0, 2, .ro, 0, false, 1, 0⟩
/-- R448: MEDIA, LK. -/
def Reg.HOST_MAC_MEDIA : Field := ⟨7, 0, 0x080, 2, 1, .lk, 0, false, 1, 0⟩
/-- R448: AN, LK. -/
def Reg.HOST_MAC_AN : Field := ⟨7, 0, 0x080, 3, 1, .lk, 1, false, 1, 0⟩
/-- R448: MAC_LO, RO. -/
def Reg.HOST_MAC_MAC_LO : Field := ⟨7, 0, 0x084, 0, 32, .ro, 0, true, 1, 0⟩
/-- R448: MAC_HI, RO. -/
def Reg.HOST_MAC_MAC_HI : Field := ⟨7, 0, 0x088, 0, 16, .ro, 0, true, 1, 0⟩
/-- R448: RX_FRAMES, RO. -/
def Reg.HOST_MAC_RX_FRAMES : Field := ⟨7, 0, 0x08C, 0, 32, .ro, 0, false, 1, 0⟩
/-- R448: TX_FRAMES, RO. -/
def Reg.HOST_MAC_TX_FRAMES : Field := ⟨7, 0, 0x090, 0, 32, .ro, 0, false, 1, 0⟩
/-- R448: FCS_ERR, RO. -/
def Reg.HOST_MAC_FCS_ERR : Field := ⟨7, 0, 0x094, 0, 16, .ro, 0, false, 1, 0⟩
/-- R448: OVERSIZE, RO. -/
def Reg.HOST_MAC_OVERSIZE : Field := ⟨7, 0, 0x094, 16, 16, .ro, 0, false, 1, 0⟩
/-- R448: RX_DROP, RO. -/
def Reg.HOST_MAC_RX_DROP : Field := ⟨7, 0, 0x098, 0, 16, .ro, 0, false, 1, 0⟩
/-- R448: OTHER, RO. -/
def Reg.HOST_MAC_OTHER : Field := ⟨7, 0, 0x098, 16, 16, .ro, 0, false, 1, 0⟩
/-- R448: PAUSE_RX, RO. -/
def Reg.HOST_MAC_PAUSE_RX : Field := ⟨7, 0, 0x09C, 0, 16, .ro, 0, false, 1, 0⟩
/-- R448: CNT_CLR, WO. -/
def Reg.HOST_MAC_CNT_CLR : Field := ⟨7, 0, 0x0A0, 0, 1, .wo, 0, false, 1, 0⟩
/-- R448: REQUIRE, SH. -/
def Reg.HOST_SEC_REQUIRE : Field := ⟨7, 1, 0x080, 0, 1, .sh, 1, false, 1, 0⟩
/-- R448: MKA_STATE, RO. -/
def Reg.HOST_SEC_MKA_STATE : Field := ⟨7, 1, 0x080, 1, 3, .ro, 0, false, 1, 0⟩
/-- R448: REPLAY_WINDOW, SH. -/
def Reg.HOST_SEC_REPLAY_WINDOW : Field := ⟨7, 1, 0x084, 0, 16, .sh, 64, false, 1, 0⟩
/-- R448: TX_PN.LO, RO. -/
def Reg.HOST_SEC_TX_PN_LO : Field := ⟨7, 1, 0x088, 0, 32, .ro, 0, false, 1, 0⟩
/-- R448: TX_PN.HI, RO. -/
def Reg.HOST_SEC_TX_PN_HI : Field := ⟨7, 1, 0x08C, 0, 32, .ro, 0, false, 1, 0⟩
/-- R448: TX_AN, RO. -/
def Reg.HOST_SEC_TX_AN : Field := ⟨7, 1, 0x090, 0, 2, .ro, 0, false, 1, 0⟩
/-- R448: RX_AN, RO. -/
def Reg.HOST_SEC_RX_AN : Field := ⟨7, 1, 0x090, 2, 2, .ro, 0, false, 1, 0⟩
/-- R448: ICV_FAIL, RO. -/
def Reg.HOST_SEC_ICV_FAIL : Field := ⟨7, 1, 0x094, 0, 16, .ro, 0, false, 1, 0⟩
/-- R448: REPLAY_DROP, RO. -/
def Reg.HOST_SEC_REPLAY_DROP : Field := ⟨7, 1, 0x094, 16, 16, .ro, 0, false, 1, 0⟩
/-- R448: UNPROTECTED_DROP, RO. -/
def Reg.HOST_SEC_UNPROTECTED_DROP : Field := ⟨7, 1, 0x098, 0, 16, .ro, 0, false, 1, 0⟩
/-- R448: SAK_CHANGES, RO. -/
def Reg.HOST_SEC_SAK_CHANGES : Field := ⟨7, 1, 0x098, 16, 16, .ro, 0, false, 1, 0⟩
/-- R448: CNT_CLR, WO. -/
def Reg.HOST_SEC_CNT_CLR : Field := ⟨7, 1, 0x09C, 0, 1, .wo, 0, false, 1, 0⟩
/-- R448: IPV6, SH. -/
def Reg.HOST_XPORT_IPV6 : Field := ⟨7, 2, 0x080, 0, 32, .sh, 0, false, 4, 4⟩
/-- R448: IPV4, SH. -/
def Reg.HOST_XPORT_IPV4 : Field := ⟨7, 2, 0x090, 0, 32, .sh, 0, false, 1, 0⟩
/-- R448: UDP_PORT, SH. -/
def Reg.HOST_XPORT_UDP_PORT : Field := ⟨7, 2, 0x094, 0, 16, .sh, 47210, false, 1, 0⟩
/-- R448: RTO_MIN_US, SH. -/
def Reg.HOST_XPORT_RTO_MIN_US : Field := ⟨7, 2, 0x098, 0, 16, .sh, 200, false, 1, 0⟩
/-- R448: RETRY_LIMIT, SH. -/
def Reg.HOST_XPORT_RETRY_LIMIT : Field := ⟨7, 2, 0x098, 16, 4, .sh, 8, false, 1, 0⟩
/-- R448: DEAD_MS, SH. -/
def Reg.HOST_XPORT_DEAD_MS : Field := ⟨7, 2, 0x09C, 0, 16, .sh, 1000, false, 1, 0⟩
/-- R448: SESSIONS, RO. -/
def Reg.HOST_XPORT_SESSIONS : Field := ⟨7, 2, 0x0A0, 0, 7, .ro, 0, false, 1, 0⟩
/-- R448: ADDR_STATE, RO. -/
def Reg.HOST_XPORT_ADDR_STATE : Field := ⟨7, 2, 0x0A0, 8, 4, .ro, 0, false, 1, 0⟩
/-- R448: SEGS_RX, RO. -/
def Reg.HOST_XPORT_SEGS_RX : Field := ⟨7, 2, 0x0A4, 0, 32, .ro, 0, false, 1, 0⟩
/-- R448: SEGS_TX, RO. -/
def Reg.HOST_XPORT_SEGS_TX : Field := ⟨7, 2, 0x0A8, 0, 32, .ro, 0, false, 1, 0⟩
/-- R448: RETRANSMITS, RO. -/
def Reg.HOST_XPORT_RETRANSMITS : Field := ⟨7, 2, 0x0AC, 0, 16, .ro, 0, false, 1, 0⟩
/-- R448: DUP, RO. -/
def Reg.HOST_XPORT_DUP : Field := ⟨7, 2, 0x0AC, 16, 16, .ro, 0, false, 1, 0⟩
/-- R448: CRC_FAIL, RO. -/
def Reg.HOST_XPORT_CRC_FAIL : Field := ⟨7, 2, 0x0B0, 0, 16, .ro, 0, false, 1, 0⟩
/-- R448: SESS_FAILED, RO. -/
def Reg.HOST_XPORT_SESS_FAILED : Field := ⟨7, 2, 0x0B0, 16, 16, .ro, 0, false, 1, 0⟩
/-- R448: RESET_REJECTED, RO. -/
def Reg.HOST_XPORT_RESET_REJECTED : Field := ⟨7, 2, 0x0B4, 0, 16, .ro, 0, false, 1, 0⟩
/-- R448: CNT_CLR, WO. -/
def Reg.HOST_XPORT_CNT_CLR : Field := ⟨7, 2, 0x0B8, 0, 1, .wo, 0, false, 1, 0⟩
/-- R448: CHANNELS_OPEN, RO. -/
def Reg.HOST_XPORT_CHANNELS_OPEN : Field := ⟨7, 2, 0x0C0, 0, 13, .ro, 0, false, 1, 0⟩
/-- R448: RESET_CTR.LO, RO. -/
def Reg.HOST_XPORT_RESET_CTR_LO : Field := ⟨7, 2, 0x0C4, 0, 32, .ro, 0, true, 1, 0⟩
/-- R448: RESET_CTR.HI, RO. -/
def Reg.HOST_XPORT_RESET_CTR_HI : Field := ⟨7, 2, 0x0C8, 0, 32, .ro, 0, true, 1, 0⟩
/-- R448: RESET_KEY, RO. -/
def Reg.HOST_XPORT_RESET_KEY : Field := ⟨7, 2, 0x0CC, 0, 1, .ro, 0, true, 1, 0⟩
/-- R448: DOMAIN, SH. -/
def Reg.HOST_PTP_DOMAIN : Field := ⟨7, 3, 0x080, 0, 8, .sh, 0, false, 1, 0⟩
/-- R448: TRANSPORT, SH. -/
def Reg.HOST_PTP_TRANSPORT : Field := ⟨7, 3, 0x080, 8, 2, .sh, 0, false, 1, 0⟩
/-- R448: PORT_STATE, RO. -/
def Reg.HOST_PTP_PORT_STATE : Field := ⟨7, 3, 0x084, 0, 3, .ro, 0, false, 1, 0⟩
/-- R448: ACTIVE, RO. -/
def Reg.HOST_PTP_ACTIVE : Field := ⟨7, 3, 0x084, 3, 1, .ro, 0, false, 1, 0⟩
/-- R448: WALL_STATE, RO. -/
def Reg.HOST_PTP_WALL_STATE : Field := ⟨7, 3, 0x084, 4, 2, .ro, 0, false, 1, 0⟩
/-- R448: OFFSET_NS, RO. -/
def Reg.HOST_PTP_OFFSET_NS : Field := ⟨7, 3, 0x088, 0, 32, .ro, 0, false, 1, 0⟩
/-- R448: TAI_SEC.LO, RO. -/
def Reg.HOST_PTP_TAI_SEC_LO : Field := ⟨7, 3, 0x08C, 0, 32, .ro, 0, false, 1, 0⟩
/-- R448: TAI_SEC.HI, RO. -/
def Reg.HOST_PTP_TAI_SEC_HI : Field := ⟨7, 3, 0x090, 0, 16, .ro, 0, false, 1, 0⟩
/-- R448: UTC_OFFSET, RO. -/
def Reg.HOST_PTP_UTC_OFFSET : Field := ⟨7, 3, 0x090, 16, 16, .ro, 0, false, 1, 0⟩
/-- R448: TAI_NS, RO. -/
def Reg.HOST_PTP_TAI_NS : Field := ⟨7, 3, 0x094, 0, 30, .ro, 0, false, 1, 0⟩
/-- R448: GM_ID, RO. -/
def Reg.HOST_PTP_GM_ID : Field := ⟨7, 3, 0x098, 0, 32, .ro, 0, false, 2, 4⟩
/-- R448: STEPS, RO. -/
def Reg.HOST_PTP_STEPS : Field := ⟨7, 3, 0x0A0, 0, 16, .ro, 0, false, 1, 0⟩
/-- R484: AVG_W, RO. -/
def Reg.LEASE_AVG_W : Field := ⟨12, 0, 0x080, 0, 16, .ro, 0, false, 1, 0⟩
/-- R484: PEAK_W, RO. -/
def Reg.LEASE_PEAK_W : Field := ⟨12, 0, 0x080, 16, 16, .ro, 0, false, 1, 0⟩
/-- R484: B_EFF, RO. -/
def Reg.LEASE_B_EFF : Field := ⟨12, 0, 0x084, 0, 16, .ro, 300, true, 1, 0⟩
/-- R484: P_EFF, RO. -/
def Reg.LEASE_P_EFF : Field := ⟨12, 0, 0x084, 16, 16, .ro, 300, true, 1, 0⟩
/-- R484: END_MIN, RO. -/
def Reg.LEASE_END_MIN : Field := ⟨12, 0, 0x088, 0, 32, .ro, 0, false, 1, 0⟩
/-- R484: FALLBACK_W, RO. -/
def Reg.LEASE_FALLBACK_W : Field := ⟨12, 0, 0x08C, 0, 16, .ro, 300, true, 1, 0⟩
/-- R484: FALLBACK_CAP_W, RO. -/
def Reg.LEASE_FALLBACK_CAP_W : Field := ⟨12, 0, 0x08C, 16, 16, .ro, 0, true, 1, 0⟩
/-- R484: LEASE_OP, RO. -/
def Reg.LEASE_LEASE_OP : Field := ⟨12, 0, 0x090, 0, 4, .ro, 0, false, 1, 0⟩
/-- R484: USER_CAP_OP, SH. -/
def Reg.LEASE_USER_CAP_OP : Field := ⟨12, 0, 0x090, 4, 4, .sh, 15, false, 1, 0⟩
/-- R484: STATE, RO. -/
def Reg.LEASE_STATE : Field := ⟨12, 0, 0x090, 8, 2, .ro, 0, false, 1, 0⟩
/-- R484: POOL, RO. -/
def Reg.LEASE_POOL : Field := ⟨12, 0, 0x090, 16, 16, .ro, 0, false, 1, 0⟩
/-- R484: SEQ.LO, RO. -/
def Reg.LEASE_SEQ_LO : Field := ⟨12, 0, 0x094, 0, 32, .ro, 0, true, 1, 0⟩
/-- R484: SEQ.HI, RO. -/
def Reg.LEASE_SEQ_HI : Field := ⟨12, 0, 0x098, 0, 32, .ro, 0, true, 1, 0⟩
/-- R484: BROKER, RO. -/
def Reg.LEASE_BROKER : Field := ⟨12, 0, 0x09C, 0, 18, .ro, 262143, false, 1, 0⟩
/-- R484: LAST_CODE, RO. -/
def Reg.LEASE_LAST_CODE : Field := ⟨12, 0, 0x0A0, 0, 8, .ro, 0, false, 1, 0⟩
/-- R484: WINDOWS, RO. -/
def Reg.LEASE_WINDOWS : Field := ⟨12, 0, 0x0A0, 8, 3, .ro, 0, false, 1, 0⟩
/-- R484: LENT_W, RO. -/
def Reg.TRADE_LENT_W : Field := ⟨12, 1, 0x080, 0, 16, .ro, 0, false, 1, 0⟩
/-- R484: BORROWED_W, RO. -/
def Reg.TRADE_BORROWED_W : Field := ⟨12, 1, 0x080, 16, 16, .ro, 0, false, 1, 0⟩
/-- R484: KEEP_W, SH. -/
def Reg.TRADE_KEEP_W : Field := ⟨12, 1, 0x084, 0, 10, .sh, 20, false, 1, 0⟩
/-- R484: LEND_EN, SH. -/
def Reg.TRADE_LEND_EN : Field := ⟨12, 1, 0x084, 10, 1, .sh, 1, false, 1, 0⟩
/-- R484: BORROW_EN, SH. -/
def Reg.TRADE_BORROW_EN : Field := ⟨12, 1, 0x084, 11, 1, .sh, 1, false, 1, 0⟩
/-- R484: POOL_LEFT_W, RO. -/
def Reg.TRADE_POOL_LEFT_W : Field := ⟨12, 1, 0x088, 0, 16, .ro, 0, false, 1, 0⟩
/-- R484: REFUSED, RO. -/
def Reg.TRADE_REFUSED : Field := ⟨12, 1, 0x088, 16, 16, .ro, 0, false, 1, 0⟩
/-- R484: SUSPECT, RO. -/
def Reg.MODEL_SUSPECT : Field := ⟨12, 2, 0x080, 0, 1, .ro, 0, false, 1, 0⟩
/-- R484: FAILED, RO. -/
def Reg.MODEL_FAILED : Field := ⟨12, 2, 0x080, 1, 1, .ro, 0, false, 1, 0⟩
/-- R484: K_DYN, RO. -/
def Reg.MODEL_K_DYN : Field := ⟨12, 2, 0x084, 0, 16, .ro, 16384, false, 1, 0⟩
/-- R484: K_ST, RO. -/
def Reg.MODEL_K_ST : Field := ⟨12, 2, 0x084, 16, 16, .ro, 16384, false, 1, 0⟩
/-- R484: Q10_W, RO. -/
def Reg.MODEL_Q10_W : Field := ⟨12, 2, 0x088, 0, 16, .ro, 0, false, 1, 0⟩
/-- R484: CALIBRATIONS, RO. -/
def Reg.MODEL_CALIBRATIONS : Field := ⟨12, 2, 0x08C, 0, 32, .ro, 0, false, 1, 0⟩
/-- R484: PMEAN_o, RO. -/
def Reg.MODEL_PMEAN : Field := ⟨12, 2, 0x0C0, 0, 16, .ro, 0, false, 16, 4⟩
/-- R484: M10_W, RO. -/
def Reg.MEASURE_M10_W : Field := ⟨12, 3, 0x080, 0, 16, .ro, 0, false, 1, 0⟩
/-- R484: M1S_W, RO. -/
def Reg.MEASURE_M1S_W : Field := ⟨12, 3, 0x080, 16, 16, .ro, 0, false, 1, 0⟩
/-- R484: MEAS_CAP, RO. -/
def Reg.MEASURE_MEAS_CAP : Field := ⟨12, 3, 0x084, 0, 4, .ro, 15, false, 1, 0⟩
/-- R484: FAILED, RO. -/
def Reg.MEASURE_FAILED : Field := ⟨12, 3, 0x084, 4, 1, .ro, 0, false, 1, 0⟩
/-- R484: CAP_CUTS, RO. -/
def Reg.MEASURE_CAP_CUTS : Field := ⟨12, 3, 0x088, 0, 32, .ro, 0, false, 1, 0⟩
/-- R484: SUBST, RO. -/
def Reg.INPUT_COND_SUBST : Field := ⟨12, 4, 0x080, 0, 8, .ro, 0, false, 1, 0⟩
/-- R484: SUBST_COUNT, RO. -/
def Reg.INPUT_COND_SUBST_COUNT : Field := ⟨12, 4, 0x084, 0, 32, .ro, 0, false, 1, 0⟩
/-- R484: OP, RO. -/
def Reg.RCLOCK_OP : Field := ⟨3, 2, 0x080, 0, 4, .ro, 0, false, 1, 0⟩
/-- R484: TARGET, RO. -/
def Reg.RCLOCK_TARGET : Field := ⟨3, 2, 0x080, 4, 4, .ro, 0, false, 1, 0⟩
/-- R484: THERM_CAP, RO. -/
def Reg.RCLOCK_THERM_CAP : Field := ⟨3, 2, 0x080, 8, 4, .ro, 15, false, 1, 0⟩
/-- R484: DROOP_CAP, RO. -/
def Reg.RCLOCK_DROOP_CAP : Field := ⟨3, 2, 0x080, 12, 4, .ro, 15, false, 1, 0⟩
/-- R484: DENSITY, RO. -/
def Reg.RCLOCK_DENSITY : Field := ⟨3, 2, 0x080, 16, 4, .ro, 15, false, 1, 0⟩
/-- R484: RAMPING, RO. -/
def Reg.RCLOCK_RAMPING : Field := ⟨3, 2, 0x080, 20, 1, .ro, 0, false, 1, 0⟩
/-- R484: SHELF, RO. -/
def Reg.RCLOCK_SHELF : Field := ⟨3, 2, 0x080, 21, 1, .ro, 0, false, 1, 0⟩
/-- R484: THRESH_MV, SH. -/
def Reg.RCLOCK_THRESH_MV : Field := ⟨3, 2, 0x084, 0, 8, .sh, 40, false, 1, 0⟩
/-- R484: LIMIT, SH. -/
def Reg.RCLOCK_LIMIT : Field := ⟨3, 2, 0x084, 8, 8, .sh, 8, false, 1, 0⟩
/-- R484: RECOVER, SH. -/
def Reg.RCLOCK_RECOVER : Field := ⟨3, 2, 0x084, 16, 16, .sh, 4000, false, 1, 0⟩
/-- R484: DROOP_EVENTS, RO. -/
def Reg.RCLOCK_DROOP_EVENTS : Field := ⟨3, 2, 0x088, 0, 32, .ro, 0, false, 1, 0⟩
/-- R484: STRETCH_CYCLES, RO. -/
def Reg.RCLOCK_STRETCH_CYCLES : Field := ⟨3, 2, 0x08C, 0, 32, .ro, 0, false, 1, 0⟩
/-- R484: RAIL_OK, RO. -/
def Reg.AVS_RAIL_OK : Field := ⟨4, 3, 0x080, 0, 7, .ro, 0, false, 1, 0⟩
/-- R484: RAIL_FAILED, RO. -/
def Reg.AVS_RAIL_FAILED : Field := ⟨4, 3, 0x080, 8, 7, .ro, 0, false, 1, 0⟩
/-- R484: REG_ALERT, RO. -/
def Reg.AVS_REG_ALERT : Field := ⟨4, 3, 0x080, 16, 1, .ro, 0, false, 1, 0⟩
/-- R484: I_r, RO. -/
def Reg.AVS_I : Field := ⟨4, 3, 0x0C0, 0, 16, .ro, 0, false, 7, 4⟩
/-- R484: V_r, RO. -/
def Reg.AVS_V : Field := ⟨4, 3, 0x0C0, 16, 16, .ro, 0, false, 7, 4⟩
/-- R484: ICC_LIMIT_r, RO. -/
def Reg.AVS_ICC_LIMIT : Field := ⟨4, 3, 0x0E0, 0, 16, .ro, 1100, true, 7, 4⟩
/-- R484: TJ_MAX, RO. -/
def Reg.THERMAL_TJ_MAX : Field := ⟨4, 4, 0x080, 0, 8, .ro, 0, false, 1, 0⟩
/-- R484: HBM0, RO. -/
def Reg.THERMAL_HBM0 : Field := ⟨4, 4, 0x080, 8, 8, .ro, 0, false, 1, 0⟩
/-- R484: HBM1, RO. -/
def Reg.THERMAL_HBM1 : Field := ⟨4, 4, 0x080, 16, 8, .ro, 0, false, 1, 0⟩
/-- R484: SENSOR_FAILED, RO. -/
def Reg.THERMAL_SENSOR_FAILED : Field := ⟨4, 4, 0x084, 0, 16, .ro, 0, false, 1, 0⟩
/-- R484: SHELF_FORCED, RO. -/
def Reg.THERMAL_SHELF_FORCED : Field := ⟨4, 4, 0x088, 0, 1, .ro, 0, false, 1, 0⟩
/-- R484: CAUSE, RO. -/
def Reg.THERMAL_CAUSE : Field := ⟨4, 4, 0x088, 1, 3, .ro, 0, false, 1, 0⟩
/-- R504: ATTIC_STATE, RO. -/
def Reg.PARTNER_ATTIC_STATE : Field := ⟨13, 0, 0x080, 0, 2, .ro, 0, false, 1, 0⟩
/-- R504: OWN_COPY, RO. -/
def Reg.PARTNER_OWN_COPY : Field := ⟨13, 0, 0x080, 2, 2, .ro, 0, false, 1, 0⟩
/-- R504: ATTIC_STEP.LO, RO. -/
def Reg.PARTNER_ATTIC_STEP_LO : Field := ⟨13, 0, 0x084, 0, 32, .ro, 0, false, 1, 0⟩
/-- R504: ATTIC_STEP.HI, RO. -/
def Reg.PARTNER_ATTIC_STEP_HI : Field := ⟨13, 0, 0x088, 0, 32, .ro, 0, false, 1, 0⟩
/-- R504: DRAIN_HOLD, SH. -/
def Reg.PARTNER_DRAIN_HOLD : Field := ⟨13, 0, 0x08C, 0, 16, .sh, 32, false, 1, 0⟩
/-- R504: RETRY_BEATS, SH. -/
def Reg.PARTNER_RETRY_BEATS : Field := ⟨13, 0, 0x08C, 16, 8, .sh, 4, false, 1, 0⟩
/-- R504: RESENDS, RO. -/
def Reg.PARTNER_RESENDS : Field := ⟨13, 0, 0x090, 0, 16, .ro, 0, false, 1, 0⟩
/-- R504: ABANDONED, RO. -/
def Reg.PARTNER_ABANDONED : Field := ⟨13, 0, 0x090, 16, 16, .ro, 0, false, 1, 0⟩
/-- R504: STATE, RO. -/
def Reg.DRAIN_STATE : Field := ⟨13, 1, 0x080, 0, 2, .ro, 0, false, 1, 0⟩
/-- R504: LAST_STEP.LO, RO. -/
def Reg.DRAIN_LAST_STEP_LO : Field := ⟨13, 1, 0x084, 0, 32, .ro, 0, false, 1, 0⟩
/-- R504: LAST_STEP.HI, RO. -/
def Reg.DRAIN_LAST_STEP_HI : Field := ⟨13, 1, 0x088, 0, 32, .ro, 0, false, 1, 0⟩
/-- R504: PARTS_SENT, RO. -/
def Reg.DRAIN_PARTS_SENT : Field := ⟨13, 1, 0x08C, 0, 32, .ro, 0, false, 1, 0⟩
/-- R504: EPOCH, SH. -/
def Reg.RESTORE_EPOCH : Field := ⟨13, 2, 0x080, 0, 32, .sh, 0, false, 1, 0⟩
/-- R504: SOURCE, SH. -/
def Reg.RESTORE_SOURCE : Field := ⟨13, 2, 0x084, 0, 1, .sh, 0, false, 1, 0⟩
/-- R504: LIST.ADDR, SH. -/
def Reg.RESTORE_LIST_ADDR : Field := ⟨13, 2, 0x088, 0, 32, .sh, 0, false, 1, 0⟩
/-- R504: LIST.COUNT, SH. -/
def Reg.RESTORE_LIST_COUNT : Field := ⟨13, 2, 0x08C, 0, 18, .sh, 0, false, 1, 0⟩
/-- R504: RESUME_BEAT.LO, SH. -/
def Reg.RESTORE_RESUME_BEAT_LO : Field := ⟨13, 2, 0x090, 0, 32, .sh, 0, false, 1, 0⟩
/-- R504: RESUME_BEAT.HI, SH. -/
def Reg.RESTORE_RESUME_BEAT_HI : Field := ⟨13, 2, 0x094, 0, 32, .sh, 0, false, 1, 0⟩
/-- R504: STATE, RO. -/
def Reg.RESTORE_STATE : Field := ⟨13, 2, 0x098, 0, 3, .ro, 0, false, 1, 0⟩
/-- R504: PARTS_DONE, RO. -/
def Reg.RESTORE_PARTS_DONE : Field := ⟨13, 2, 0x09C, 0, 32, .ro, 0, false, 1, 0⟩
/-- R504: MANIFEST_DIGEST, SH. -/
def Reg.RESTORE_MANIFEST_DIGEST : Field := ⟨13, 2, 0x0C0, 0, 32, .sh, 0, false, 8, 4⟩
/-- R525: SLOT_USED, RO. -/
def Reg.FUSE_KEYS_SLOT_USED : Field := ⟨14, 0, 0x080, 0, 4, .ro, 1, true, 1, 0⟩
/-- R525: SLOT_REVOKED, RO. -/
def Reg.FUSE_KEYS_SLOT_REVOKED : Field := ⟨14, 0, 0x080, 4, 4, .ro, 0, true, 1, 0⟩
/-- R525: SVN, RO. -/
def Reg.FUSE_KEYS_SVN : Field := ⟨14, 0, 0x080, 8, 6, .ro, 0, true, 1, 0⟩
/-- R525: PROV_LOCK, RO. -/
def Reg.FUSE_KEYS_PROV_LOCK : Field := ⟨14, 0, 0x080, 14, 1, .ro, 0, true, 1, 0⟩
/-- R525: JTAG_LOCK, RO. -/
def Reg.FUSE_KEYS_JTAG_LOCK : Field := ⟨14, 0, 0x080, 15, 1, .ro, 0, true, 1, 0⟩
/-- R525: FW.ACTIVE, RO. -/
def Reg.FUSE_KEYS_FW_ACTIVE : Field := ⟨14, 0, 0x084, 0, 1, .ro, 0, true, 1, 0⟩
/-- R525: FW.CONFIRMED, RO. -/
def Reg.FUSE_KEYS_FW_CONFIRMED : Field := ⟨14, 0, 0x084, 1, 1, .ro, 0, true, 1, 0⟩
/-- R525: FW.PENDING, RO. -/
def Reg.FUSE_KEYS_FW_PENDING : Field := ⟨14, 0, 0x084, 2, 1, .ro, 0, true, 1, 0⟩
/-- R525: FW.KEY_SLOT, RO. -/
def Reg.FUSE_KEYS_FW_KEY_SLOT : Field := ⟨14, 0, 0x084, 3, 2, .ro, 0, true, 1, 0⟩
/-- R525: FW.SVN, RO. -/
def Reg.FUSE_KEYS_FW_SVN : Field := ⟨14, 0, 0x084, 5, 6, .ro, 0, true, 1, 0⟩
/-- R525: FW.STAGE, WO. -/
def Reg.FUSE_KEYS_FW_STAGE : Field := ⟨14, 0, 0x088, 0, 1, .wo, 0, false, 1, 0⟩
/-- R525: FW.CONFIRM, WO. -/
def Reg.FUSE_KEYS_FW_CONFIRM : Field := ⟨14, 0, 0x088, 1, 1, .wo, 0, false, 1, 0⟩
/-- R525: KEY.GO, WO. -/
def Reg.FUSE_KEYS_KEY_GO : Field := ⟨14, 0, 0x088, 2, 1, .wo, 0, false, 1, 0⟩
/-- R525: STAGE.SPACE, RW. -/
def Reg.FUSE_KEYS_STAGE_SPACE : Field := ⟨14, 0, 0x08C, 0, 4, .rw, 0, false, 1, 0⟩
/-- R525: STAGE.ADDR, RW. -/
def Reg.FUSE_KEYS_STAGE_ADDR : Field := ⟨14, 0, 0x090, 0, 32, .rw, 0, false, 1, 0⟩
/-- R525: STAGE.LEN, RW. -/
def Reg.FUSE_KEYS_STAGE_LEN : Field := ⟨14, 0, 0x094, 0, 32, .rw, 0, false, 1, 0⟩
/-- R525: STAGE.CODE, RO. -/
def Reg.FUSE_KEYS_STAGE_CODE : Field := ⟨14, 0, 0x098, 0, 8, .ro, 0, false, 1, 0⟩
/-- R525: BOOT.CODE_A, RO. -/
def Reg.FUSE_KEYS_BOOT_CODE_A : Field := ⟨14, 0, 0x098, 8, 8, .ro, 0, true, 1, 0⟩
/-- R525: BOOT.CODE_B, RO. -/
def Reg.FUSE_KEYS_BOOT_CODE_B : Field := ⟨14, 0, 0x098, 16, 8, .ro, 0, true, 1, 0⟩
/-- R525: KEY.CODE, RO. -/
def Reg.FUSE_KEYS_KEY_CODE : Field := ⟨14, 0, 0x098, 24, 8, .ro, 0, false, 1, 0⟩
/-- R525: ROOT_k, RO. -/
def Reg.FUSE_KEYS_ROOT : Field := ⟨14, 0, 0x0A0, 0, 32, .ro, 0, true, 32, 4⟩
/-- R525: KEY.BLOCK, WO. -/
def Reg.FUSE_KEYS_KEY_BLOCK : Field := ⟨14, 0, 0x140, 0, 32, .wo, 0, false, 24, 4⟩
/-- R525: DEVICE_ID, RO. -/
def Reg.IDENT_DEVICE_ID : Field := ⟨14, 1, 0x080, 0, 32, .ro, 0, true, 2, 4⟩
/-- R525: MAC_BASE, RO. -/
def Reg.IDENT_MAC_BASE : Field := ⟨14, 1, 0x088, 0, 32, .ro, 0, true, 2, 4⟩
/-- R525: NEXT_INDEX, RO. -/
def Reg.IDENT_NEXT_INDEX : Field := ⟨14, 1, 0x090, 0, 21, .ro, 0, true, 1, 0⟩
/-- R525: REMAINING, RO. -/
def Reg.IDENT_REMAINING : Field := ⟨14, 1, 0x094, 0, 21, .ro, 1048576, true, 1, 0⟩
/-- R525: PK, RO. -/
def Reg.IDENT_PK : Field := ⟨14, 1, 0x0A0, 0, 32, .ro, 0, true, 17, 4⟩
/-- R525: NONCE, RW. -/
def Reg.ATTEST_NONCE : Field := ⟨14, 2, 0x080, 0, 32, .rw, 0, false, 8, 4⟩
/-- R525: REQUEST, WO. -/
def Reg.ATTEST_REQUEST : Field := ⟨14, 2, 0x0A0, 0, 1, .wo, 0, false, 1, 0⟩
/-- R525: STATE, RO. -/
def Reg.ATTEST_STATE : Field := ⟨14, 2, 0x0A4, 0, 2, .ro, 0, false, 1, 0⟩
/-- R525: REASON, RO. -/
def Reg.ATTEST_REASON : Field := ⟨14, 2, 0x0A4, 8, 8, .ro, 0, false, 1, 0⟩
/-- R525: RATE, SH. -/
def Reg.ATTEST_RATE : Field := ⟨14, 2, 0x0A8, 0, 6, .sh, 4, false, 1, 0⟩
/-- R525: QUOTES, RO. -/
def Reg.ATTEST_QUOTES : Field := ⟨14, 2, 0x0AC, 0, 32, .ro, 0, false, 1, 0⟩
/-- R525: SEQ.LO, RO. -/
def Reg.ENERGY_REC_SEQ_LO : Field := ⟨14, 3, 0x080, 0, 32, .ro, 0, true, 1, 0⟩
/-- R525: SEQ.HI, RO. -/
def Reg.ENERGY_REC_SEQ_HI : Field := ⟨14, 3, 0x084, 0, 32, .ro, 0, true, 1, 0⟩
/-- R525: MINUTE, RO. -/
def Reg.ENERGY_REC_MINUTE : Field := ⟨14, 3, 0x088, 0, 32, .ro, 0, true, 1, 0⟩
/-- R525: UNDELIVERED, RO. -/
def Reg.ENERGY_REC_UNDELIVERED : Field := ⟨14, 3, 0x08C, 0, 32, .ro, 0, false, 1, 0⟩
/-- R525: HEAD, RO. -/
def Reg.ENERGY_REC_HEAD : Field := ⟨14, 3, 0x090, 0, 32, .ro, 0, true, 8, 4⟩
/-- R525: OLDEST.LO, RO. -/
def Reg.ENERGY_REC_OLDEST_LO : Field := ⟨14, 3, 0x0B0, 0, 32, .ro, 0, true, 1, 0⟩
/-- R525: OLDEST.HI, RO. -/
def Reg.ENERGY_REC_OLDEST_HI : Field := ⟨14, 3, 0x0B4, 0, 32, .ro, 0, true, 1, 0⟩
/-- R525: FETCH_SEQ.LO, RW. -/
def Reg.ENERGY_REC_FETCH_SEQ_LO : Field := ⟨14, 3, 0x0B8, 0, 32, .rw, 0, false, 1, 0⟩
/-- R525: FETCH_SEQ.HI, RW. -/
def Reg.ENERGY_REC_FETCH_SEQ_HI : Field := ⟨14, 3, 0x0BC, 0, 32, .rw, 0, false, 1, 0⟩
/-- R525: FETCH, WO. -/
def Reg.ENERGY_REC_FETCH : Field := ⟨14, 3, 0x0C0, 0, 1, .wo, 0, false, 1, 0⟩
/-- R525: SIGNED.LO, RO. -/
def Reg.ENERGY_REC_SIGNED_LO : Field := ⟨14, 3, 0x0C4, 0, 32, .ro, 0, true, 1, 0⟩
/-- R525: SIGNED.HI, RO. -/
def Reg.ENERGY_REC_SIGNED_HI : Field := ⟨14, 3, 0x0C8, 0, 32, .ro, 0, true, 1, 0⟩
/-- R543: LAST.SOURCE, RO. -/
def Reg.RST_SRC_LAST_SOURCE : Field := ⟨15, 0, 0x080, 0, 4, .ro, 0, true, 1, 0⟩
/-- R543: LAST.DOMAIN, RO. -/
def Reg.RST_SRC_LAST_DOMAIN : Field := ⟨15, 0, 0x080, 4, 4, .ro, 0, true, 1, 0⟩
/-- R543: LAST.INST, RO. -/
def Reg.RST_SRC_LAST_INST : Field := ⟨15, 0, 0x080, 8, 12, .ro, 0, true, 1, 0⟩
/-- R543: REQ.DOMAIN, WO. -/
def Reg.RST_SRC_REQ_DOMAIN : Field := ⟨15, 0, 0x084, 0, 4, .wo, 0, false, 1, 0⟩
/-- R543: REQ.INST, WO. -/
def Reg.RST_SRC_REQ_INST : Field := ⟨15, 0, 0x084, 4, 12, .wo, 0, false, 1, 0⟩
/-- R543: REQ.CONFIRM, WO. -/
def Reg.RST_SRC_REQ_CONFIRM : Field := ⟨15, 0, 0x084, 16, 16, .wo, 0, false, 1, 0⟩
/-- R543: TAKEOVERS, RO. -/
def Reg.RST_SRC_TAKEOVERS : Field := ⟨15, 0, 0x088, 0, 16, .ro, 0, true, 1, 0⟩
/-- R543: MANAGER, RO. -/
def Reg.RST_SRC_MANAGER : Field := ⟨15, 0, 0x088, 16, 1, .ro, 0, false, 1, 0⟩
/-- R543: COUNT_c, RO. -/
def Reg.RST_SRC_COUNT : Field := ⟨15, 0, 0x0C0, 0, 16, .ro, 0, true, 8, 4⟩
/-- R543: LEVEL, RO. -/
def Reg.BRINGUP_LEVEL : Field := ⟨15, 1, 0x080, 0, 2, .ro, 0, false, 1, 0⟩
/-- R543: STOP_AT, RW. -/
def Reg.BRINGUP_STOP_AT : Field := ⟨15, 1, 0x080, 2, 2, .rw, 3, true, 1, 0⟩
/-- R543: FAIL_RUN, RO. -/
def Reg.BRINGUP_FAIL_RUN : Field := ⟨15, 1, 0x080, 4, 4, .ro, 0, true, 1, 0⟩
/-- R543: HALTED, RO. -/
def Reg.BRINGUP_HALTED : Field := ⟨15, 1, 0x080, 8, 1, .ro, 0, false, 1, 0⟩
/-- R543: RESUME, WO. -/
def Reg.BRINGUP_RESUME : Field := ⟨15, 1, 0x080, 9, 1, .wo, 0, false, 1, 0⟩
/-- R543: STANDBY_OK, RO. -/
def Reg.BRINGUP_STANDBY_OK : Field := ⟨15, 1, 0x080, 10, 1, .ro, 0, false, 1, 0⟩
/-- R543: T_SL1_MS, RO. -/
def Reg.BRINGUP_T_SL1_MS : Field := ⟨15, 1, 0x084, 0, 16, .ro, 0, false, 1, 0⟩
/-- R543: T_SL2_MS, RO. -/
def Reg.BRINGUP_T_SL2_MS : Field := ⟨15, 1, 0x084, 16, 16, .ro, 0, false, 1, 0⟩
/-- R543: T_SL3_MS, RO. -/
def Reg.BRINGUP_T_SL3_MS : Field := ⟨15, 1, 0x088, 0, 16, .ro, 0, false, 1, 0⟩
/-- R543: STACK_READY, RO. -/
def Reg.BRINGUP_STACK_READY : Field := ⟨15, 1, 0x08C, 0, 8, .ro, 0, false, 1, 0⟩
/-- R543: STACK_FAILED, RO. -/
def Reg.BRINGUP_STACK_FAILED : Field := ⟨15, 1, 0x08C, 8, 8, .ro, 0, false, 1, 0⟩
/-- R543: REGION_DONE, RO. -/
def Reg.BRINGUP_REGION_DONE : Field := ⟨15, 1, 0x08C, 16, 16, .ro, 0, false, 1, 0⟩
/-- R543: SL2_REGION, RO. -/
def Reg.BRINGUP_SL2_REGION : Field := ⟨15, 1, 0x090, 0, 8, .ro, 0, false, 1, 0⟩

/-- The register fields, part 1. -/
def Reg.part1 : List Field :=
  [Reg.SIZE_TABLE_ST_ID_TABLE_VER, Reg.SIZE_TABLE_ST_ID_ROW, Reg.SIZE_TABLE_ST_ID_PART, Reg.SIZE_TABLE_ST_HIER_UNITS_BUILT, Reg.SIZE_TABLE_ST_HIER_UNITS_EN,
   Reg.SIZE_TABLE_ST_HIER_CLUSTERS, Reg.SIZE_TABLE_ST_HIER_REGIONS, Reg.SIZE_TABLE_ST_HIER_DIES, Reg.SIZE_TABLE_ST_ARRAY_ARRAY_DIM, Reg.SIZE_TABLE_ST_ARRAY_ARRAYS_PER_UNIT,
   Reg.SIZE_TABLE_ST_ARRAY_GRID_ROWS, Reg.SIZE_TABLE_ST_ARRAY_GRID_COLS, Reg.SIZE_TABLE_ST_ARRAY_CQ_DEPTH, Reg.SIZE_TABLE_ST_VECTOR_LANES, Reg.SIZE_TABLE_ST_VECTOR_VREGS,
   Reg.SIZE_TABLE_ST_VECTOR_SREGS, Reg.SIZE_TABLE_ST_VECTOR_MREGS, Reg.SIZE_TABLE_ST_LOCAL_BANKS, Reg.SIZE_TABLE_ST_LOCAL_BANK_KIB, Reg.SIZE_TABLE_ST_LOCAL_ISTORE_KIB,
   Reg.SIZE_TABLE_ST_LARDER_KIB, Reg.SIZE_TABLE_ST_HBM_STACKS_PER_DIE, Reg.SIZE_TABLE_ST_HBM_STACK_GIB, Reg.SIZE_TABLE_ST_HBM_PIN_MBPS, Reg.SIZE_TABLE_ST_HBM_WIDTH_BITS,
   Reg.SIZE_TABLE_ST_LINK_PORTS_PER_DIE, Reg.SIZE_TABLE_ST_LINK_LANES, Reg.SIZE_TABLE_ST_LINK_HOST_PER_DIE, Reg.SIZE_TABLE_ST_LINK_PAYLOAD_GBPS, Reg.SIZE_TABLE_ST_HOST_PORT_GBPS,
   Reg.SIZE_TABLE_ST_CLOCK_OP_COUNT, Reg.SIZE_TABLE_ST_CLOCK_OP_BEST, Reg.SIZE_TABLE_ST_CLOCK_FMAX_MHZ, Reg.SIZE_TABLE_ST_BEAT_MIN, Reg.SIZE_TABLE_ST_BEAT_MAX,
   Reg.SIZE_TABLE_ST_BEAT_DEFAULT, Reg.SIZE_TABLE_ST_BEAT_SLACK_MIN_PCT, Reg.SIZE_TABLE_ST_POWER_PKG_MAX_W, Reg.SIZE_TABLE_ST_POWER_LEASE_MIN_W, Reg.SIZE_TABLE_ST_SHELF_MAX_W,
   Reg.SIZE_TABLE_ST_SYSTEM_ADDR_BITS, Reg.SIZE_TABLE_ST_SYSTEM_MAX_ACTIVE, Reg.SIZE_TABLE_ST_MRAM_KIB, Reg.SIZE_TABLE_ST_MAC_FP16_PER_ARRAY, Reg.SIZE_TABLE_ST_CRC_VALUE,
   Reg.COMMIT_CG_CTL_GROUP, Reg.COMMIT_CG_CTL_ARM, Reg.COMMIT_CG_CTL_DISCARD, Reg.COMMIT_CG_CTL_TAG, Reg.COMMIT_CG_STAT_STATUS,
   Reg.COMMIT_CG_STAT_REASON, Reg.COMMIT_CG_STAT_TAG, Reg.COMMIT_CG_STAT_MEMBER, Reg.COMMIT_CG_SIZE_COUNT, Reg.COMMIT_CG_MEM_PAGE,
   Reg.GANG_SHAPE_ROWS, Reg.GANG_SHAPE_COLS, Reg.GANG_SHAPE_EN, Reg.GANG_ORIGIN_ROW, Reg.GANG_ORIGIN_COL]

/-- The register fields, part 2. -/
def Reg.part2 : List Field :=
  [Reg.GANG_LIVE, Reg.GANG_EMPTY, Reg.GANG_SUSPECT, Reg.MATRIX_RETIRE_WINDOW, Reg.MATRIX_STATE_SET0,
   Reg.MATRIX_STATE_SET1, Reg.MATRIX_STATE_GANGED0, Reg.MATRIX_STATE_GANGED1, Reg.MATRIX_STATE_CQ_FILL, Reg.MATRIX_STATE_RECOMPUTING,
   Reg.MATRIX_STATE_STOPPED, Reg.MATRIX_MISMATCH_TOTAL, Reg.MATRIX_LAST_MM, Reg.MATRIX_LAST_MM_BEAT, Reg.MATRIX_BUSY,
   Reg.MATRIX_FRONT_STALL, Reg.MATRIX_DRAIN_STALL, Reg.MATRIX_CQ_STALL, Reg.MATRIX_RECOMP_CYCLES, Reg.MATRIX_FLAG_CNT,
   Reg.MATRIX_CNT_CLR, Reg.MATRIX_TEST_RUN, Reg.MATRIX_TEST_STAT_RESULT, Reg.MATRIX_TEST_STAT_FAILED, Reg.VECTOR_POP_LIMIT,
   Reg.VECTOR_STATE_CUR_ENTRY, Reg.VECTOR_STATE_CUR_VALID, Reg.VECTOR_STATE_RDY_ENTRY, Reg.VECTOR_STATE_RDY_VALID, Reg.VECTOR_STATE_POPS,
   Reg.VECTOR_STATE_CHECKING, Reg.VECTOR_STATE_STOPPED, Reg.VECTOR_STICKY, Reg.VECTOR_BUSY, Reg.VECTOR_POP_WAIT,
   Reg.VECTOR_CQ_READ_STALL, Reg.VECTOR_CHECK_BUSY, Reg.VECTOR_TILES_CHECKED, Reg.VECTOR_CSTAT_SAT, Reg.VECTOR_CSTAT_CRUSH,
   Reg.VECTOR_CSTAT_ALL_ZERO, Reg.VECTOR_CSTAT_ALL_SAT, Reg.VECTOR_FLAG_CNT, Reg.VECTOR_CNT_CLR, Reg.VECTOR_CSTAT_CLR,
   Reg.SEQ_PROG_ENTRY, Reg.SEQ_PROG_SEG_BASE, Reg.SEQ_IMG_LO, Reg.SEQ_IMG_HI, Reg.SEQ_BAR_LIMIT,
   Reg.SEQ_START, Reg.SEQ_STATE_PC, Reg.SEQ_STATE_SEQ, Reg.SEQ_STATE_LOOPS, Reg.SEQ_STATE_STOP,
   Reg.SEQ_ISSUED, Reg.SEQ_STALL_DEP, Reg.SEQ_STALL_CQ, Reg.SEQ_STALL_VBUSY, Reg.SEQ_STALL_M]

/-- The register fields, part 3. -/
def Reg.part3 : List Field :=
  [Reg.SEQ_STALL_D, Reg.SEQ_WAIT_SYNC, Reg.SEQ_LATE_CYCLES, Reg.SEQ_CNT_CLR, Reg.ISTORE_FILL_SRC,
   Reg.ISTORE_FILL_DST, Reg.ISTORE_FILL_SLOTS, Reg.ISTORE_FILL_CRC, Reg.ISTORE_FILL_GO, Reg.ISTORE_FILL_STAT_STATE,
   Reg.ISTORE_FILL_STAT_REASON, Reg.HBM_CTL_STATE, Reg.HBM_CTL_PATROL_EN, Reg.HBM_CTL_PATROL_PASSES, Reg.HBM_PART_BASE,
   Reg.HBM_PART_SIZE, Reg.HBM_PART_USABLE, Reg.HBM_ERR_CRC_RETRY, Reg.HBM_ERR_CRC_FAIL, Reg.HBM_ERR_LAST_FAIL,
   Reg.HBM_ERR_BAD_COUNT, Reg.HBM_ERR_BAD_BLOCK, Reg.HBM_ERR_BAD_VALID, Reg.CMOVE_KICK_ADDR, Reg.RMOVE_KICK_ADDR,
   Reg.CMOVE_KICK_TAG, Reg.RMOVE_KICK_TAG, Reg.CMOVE_KICK_GO, Reg.RMOVE_KICK_GO, Reg.CMOVE_QUEUED,
   Reg.RMOVE_QUEUED, Reg.CMOVE_OPEN_TAGS, Reg.RMOVE_OPEN_TAGS, Reg.CMOVE_BLOCKS_DONE, Reg.RMOVE_BLOCKS_DONE,
   Reg.CMOVE_LINES, Reg.RMOVE_LINES, Reg.CMOVE_LAST_FAIL_CODE, Reg.RMOVE_LAST_FAIL_CODE, Reg.CMOVE_LAST_FAIL_DESC,
   Reg.RMOVE_LAST_FAIL_DESC, Reg.CMOVE_LAST_FAIL_COMPL, Reg.RMOVE_LAST_FAIL_COMPL, Reg.CMOVE_LAST_FAIL_TAG, Reg.RMOVE_LAST_FAIL_TAG,
   Reg.CMOVE_LAST_FAIL_KICKER, Reg.RMOVE_LAST_FAIL_KICKER, Reg.LSTORE_SCRUB_EN, Reg.LARDER_SCRUB_EN, Reg.LSTORE_SCRUB_PASSES,
   Reg.LARDER_SCRUB_PASSES, Reg.LSTORE_LAST_UERR, Reg.LARDER_LAST_UERR, Reg.LARDER_SPARES_USED, Reg.LARDER_REMAP_LINE,
   Reg.LARDER_REMAP_VALID, Reg.COMPRESS_RECORDS, Reg.COMPRESS_FALLBACK, Reg.COMPRESS_STORED, Reg.COMPRESS_RECORD_FAIL]

/-- The register fields, part 4. -/
def Reg.part4 : List Field :=
  [Reg.COMPRESS_CSTAT_SAT, Reg.COMPRESS_CSTAT_CRUSH, Reg.COMPRESS_CSTAT_ALL_ZERO, Reg.COMPRESS_CSTAT_ALL_SAT, Reg.COMPRESS_CNT_CLR,
   Reg.BEAT_CFG_PERIOD, Reg.BEAT_CFG_T_X, Reg.BEAT_CFG_T_S, Reg.BEAT_CFG_APPLY_BEAT_LO, Reg.BEAT_CFG_APPLY_BEAT_HI,
   Reg.BEAT_CFG_LATE_LIMIT, Reg.BEAT_CFG_VOTE_LIMIT, Reg.BEAT_CFG_LATE_SHARE, Reg.BEAT_CFG_FIT_MARGIN, Reg.BEAT_CFG_BEAT_NUM_LO,
   Reg.BEAT_CFG_BEAT_NUM_HI, Reg.BEAT_CFG_STATUS_WINDOW, Reg.BEAT_CFG_STATUS_PENDING, Reg.BEAT_CFG_PHASE, Reg.BEAT_CFG_LATE_BEATS,
   Reg.BEAT_CFG_MAX_LATE, Reg.BEAT_LOCK_CANDIDATE, Reg.BEAT_LOCK_PRIORITY, Reg.BEAT_LOCK_STATE, Reg.BEAT_LOCK_UPSTREAM,
   Reg.BEAT_LOCK_HOPS, Reg.BEAT_LOCK_SOURCE, Reg.BEAT_LOCK_SOURCE_PRIO, Reg.BEAT_LOCK_PHASE_ERR, Reg.BEAT_LOCK_MARKER_TIMEOUT,
   Reg.BEAT_LOCK_HOLD_LIMIT, Reg.BEAT_LOCK_SOURCE_TIMEOUT, Reg.BEAT_LOCK_LOCK_COUNT, Reg.BEAT_LOCK_RATE_PPB, Reg.BEAT_LOCK_LOCK_LOSSES,
   Reg.BEAT_LOCK_SOURCE_CHANGES, Reg.BEAT_LOCK_DELAY_VALUE, Reg.BEAT_LOCK_DELAY_VALID, Reg.STEP_REC_STEP_LO, Reg.STEP_REC_STEP_HI,
   Reg.STEP_REC_STATE_PHASE, Reg.STEP_REC_STATE_VOTE, Reg.STEP_REC_STATE_AGG, Reg.STEP_REC_STATE_DECISION, Reg.STEP_REC_START_LO,
   Reg.STEP_REC_START_HI, Reg.STEP_REC_LEDGER_COUNT, Reg.STEP_REC_LEDGER_TRUNCATED, Reg.STEP_REC_ATTEMPT, Reg.STEP_REC_LEDGER_MODE,
   Reg.STEP_REC_FORCE_WAIT, Reg.STEP_REC_FORCE_BLOCK, Reg.STEP_REC_FORCE_COUNT, Reg.DRAFT_SRC_SPACE, Reg.DRAFT_SRC_ADDR,
   Reg.DRAFT_LEN, Reg.DRAFT_SELF_ADDR, Reg.DRAFT_CMD_LOAD, Reg.DRAFT_CMD_ABORT, Reg.DRAFT_STATUS_STATE]

/-- The register fields, part 5. -/
def Reg.part5 : List Field :=
  [Reg.DRAFT_STATUS_REASON, Reg.DRAFT_STATUS_KCODE, Reg.DRAFT_INDEX, Reg.DRAFT_LIMIT_PLACE_MS, Reg.DRAFT_LIMIT_REPLAN_MS,
   Reg.DRAFT_START_BEAT_LO, Reg.DRAFT_START_BEAT_HI, Reg.DRAFT_RUN, Reg.PLAN_RB_NUMERIC_HASH, Reg.PLAN_RB_TIMING_ID,
   Reg.PLAN_RB_N_BEATS, Reg.PLAN_RB_SLICED, Reg.PLAN_RB_USE_UNITS, Reg.PLAN_RB_USE_CLUSTERS, Reg.PLAN_RB_USE_REGIONS,
   Reg.PLAN_RB_USE_DIES, Reg.PLAN_RB_USE_STACKS_LO, Reg.PLAN_RB_FIT_OP, Reg.PLAN_RB_PLAN_OP, Reg.PLAN_RB_CAUSE,
   Reg.PLAN_RB_REPLANS, Reg.PLAN_RB_TABLE_ADDR, Reg.PLAN_RB_TABLE_COUNT, Reg.PLAN_RB_LAST_MS, Reg.SPARES_ROLE,
   Reg.SPARES_OWN_FEED, Reg.SPARES_FEED_SHARED, Reg.SPARES_PARTNER, Reg.SPARES_HOLDS, Reg.SPARES_RING_K,
   Reg.SPARES_DRAIN, Reg.SPARES_SPARES_LEFT, Reg.SCALE_POL_TABLE_SPACE, Reg.SCALE_POL_TABLE_ADDR, Reg.SCALE_POL_TABLE_LEN,
   Reg.SCALE_POL_NR_LIMIT, Reg.SCALE_POL_NAN_ACT, Reg.SCALE_POL_DIRTY_LIMIT, Reg.SCALE_POL_STATUS_STATE, Reg.SCALE_POL_STATUS_REASON,
   Reg.SCALE_POL_STATUS_INDEX, Reg.SCALE_POL_POLICY_DIGEST, Reg.SR_SEED_JOB_SEED_LO, Reg.SR_SEED_JOB_SEED_HI, Reg.SR_SEED_TEST_STEP_LO,
   Reg.SR_SEED_TEST_STEP_HI, Reg.SR_SEED_TEST_TENSOR, Reg.SR_SEED_TEST_INDEX, Reg.SR_SEED_TEST_WORD, Reg.WATCH_STATE_ROUND,
   Reg.WATCH_STATE_CAUSES, Reg.WATCH_STATE_DIRTY_RUN, Reg.WATCH_REPLAYS, Reg.WATCH_DISCARDS, Reg.WATCH_LEVEL_UPS,
   Reg.WATCH_LEVEL_DOWNS, Reg.WATCH_SKIPS, Reg.WATCH_WARM, Reg.WATCH_LAST_TENSOR, Reg.WATCH_CNT_CLR]

/-- The register fields, part 6. -/
def Reg.part6 : List Field :=
  [Reg.EXCH_CFG_CARRY_MIB, Reg.EXCH_CFG_CARRY_USED_KIB, Reg.EXCH_CFG_ON_TIME, Reg.EXCH_CFG_LATE, Reg.EXCH_CFG_CRC_FAIL,
   Reg.EXCH_CFG_STALE, Reg.EXCH_CFG_DUPLICATE, Reg.EXCH_CFG_AFTER_DECISION, Reg.EXCH_CFG_BLOCKS_ENCODED, Reg.EXCH_CFG_WIRE_BYTES,
   Reg.EXCH_CFG_CNT_CLR, Reg.LEDGER_CUR_ADDR, Reg.LEDGER_LAST_ADDR, Reg.LEDGER_DROPPED, Reg.LEDGER_DEFERRED,
   Reg.LEDGER_APPLIED, Reg.LEDGER_DISCARDED, Reg.LINK_PHY_STATE, Reg.LINK_PHY_LANES_OK, Reg.LINK_PHY_ACTIVE,
   Reg.LINK_PHY_REASON, Reg.LINK_PHY_TRAIN_LIMIT_MS, Reg.LINK_PHY_ATTEMPTS, Reg.LINK_PHY_RETRY, Reg.LINK_PHY_FAR_ADDR,
   Reg.LINK_PHY_FAR_PORT, Reg.LINK_PHY_CORR_SYMBOLS, Reg.LINK_PHY_UNCORR_CW, Reg.LINK_PHY_RETRAINS, Reg.LINK_SLOT_CARRIES,
   Reg.LINK_SLOT_SCHED, Reg.LINK_SLOT_SENT, Reg.LINK_SLOT_EMPTY, Reg.LINK_SLOT_LATE_SENT, Reg.LINK_ROUTE_TABLE_SPACE,
   Reg.LINK_ROUTE_TABLE_ADDR, Reg.LINK_ROUTE_TABLE_LEN, Reg.LINK_ROUTE_CMD_LOAD, Reg.LINK_ROUTE_STATUS_STATE, Reg.LINK_ROUTE_STATUS_REASON,
   Reg.LINK_ROUTE_STATUS_INDEX, Reg.LINK_ROUTE_APPLY_BEAT_LO, Reg.LINK_ROUTE_APPLY_BEAT_HI, Reg.LINK_ROUTE_TOPO, Reg.LINK_ROUTE_SLACK_TTL,
   Reg.LINK_ROUTE_LIVE, Reg.LINK_ROUTE_THROUGH, Reg.LINK_ROUTE_LANDED, Reg.LINK_ROUTE_SLACK_FWD, Reg.LINK_ERR_SHUTTLE_CRC,
   Reg.LINK_ERR_STALE, Reg.LINK_ERR_RESEND_REQ, Reg.LINK_ERR_RESEND_FAIL, Reg.LINK_ERR_SLACK_DISCARD, Reg.LINK_ERR_CNT_CLR,
   Reg.HOST_MAC_STATE, Reg.HOST_MAC_MEDIA, Reg.HOST_MAC_AN, Reg.HOST_MAC_MAC_LO, Reg.HOST_MAC_MAC_HI]

/-- The register fields, part 7. -/
def Reg.part7 : List Field :=
  [Reg.HOST_MAC_RX_FRAMES, Reg.HOST_MAC_TX_FRAMES, Reg.HOST_MAC_FCS_ERR, Reg.HOST_MAC_OVERSIZE, Reg.HOST_MAC_RX_DROP,
   Reg.HOST_MAC_OTHER, Reg.HOST_MAC_PAUSE_RX, Reg.HOST_MAC_CNT_CLR, Reg.HOST_SEC_REQUIRE, Reg.HOST_SEC_MKA_STATE,
   Reg.HOST_SEC_REPLAY_WINDOW, Reg.HOST_SEC_TX_PN_LO, Reg.HOST_SEC_TX_PN_HI, Reg.HOST_SEC_TX_AN, Reg.HOST_SEC_RX_AN,
   Reg.HOST_SEC_ICV_FAIL, Reg.HOST_SEC_REPLAY_DROP, Reg.HOST_SEC_UNPROTECTED_DROP, Reg.HOST_SEC_SAK_CHANGES, Reg.HOST_SEC_CNT_CLR,
   Reg.HOST_XPORT_IPV6, Reg.HOST_XPORT_IPV4, Reg.HOST_XPORT_UDP_PORT, Reg.HOST_XPORT_RTO_MIN_US, Reg.HOST_XPORT_RETRY_LIMIT,
   Reg.HOST_XPORT_DEAD_MS, Reg.HOST_XPORT_SESSIONS, Reg.HOST_XPORT_ADDR_STATE, Reg.HOST_XPORT_SEGS_RX, Reg.HOST_XPORT_SEGS_TX,
   Reg.HOST_XPORT_RETRANSMITS, Reg.HOST_XPORT_DUP, Reg.HOST_XPORT_CRC_FAIL, Reg.HOST_XPORT_SESS_FAILED, Reg.HOST_XPORT_RESET_REJECTED,
   Reg.HOST_XPORT_CNT_CLR, Reg.HOST_XPORT_CHANNELS_OPEN, Reg.HOST_XPORT_RESET_CTR_LO, Reg.HOST_XPORT_RESET_CTR_HI, Reg.HOST_XPORT_RESET_KEY,
   Reg.HOST_PTP_DOMAIN, Reg.HOST_PTP_TRANSPORT, Reg.HOST_PTP_PORT_STATE, Reg.HOST_PTP_ACTIVE, Reg.HOST_PTP_WALL_STATE,
   Reg.HOST_PTP_OFFSET_NS, Reg.HOST_PTP_TAI_SEC_LO, Reg.HOST_PTP_TAI_SEC_HI, Reg.HOST_PTP_UTC_OFFSET, Reg.HOST_PTP_TAI_NS,
   Reg.HOST_PTP_GM_ID, Reg.HOST_PTP_STEPS, Reg.LEASE_AVG_W, Reg.LEASE_PEAK_W, Reg.LEASE_B_EFF,
   Reg.LEASE_P_EFF, Reg.LEASE_END_MIN, Reg.LEASE_FALLBACK_W, Reg.LEASE_FALLBACK_CAP_W, Reg.LEASE_LEASE_OP]

/-- The register fields, part 8. -/
def Reg.part8 : List Field :=
  [Reg.LEASE_USER_CAP_OP, Reg.LEASE_STATE, Reg.LEASE_POOL, Reg.LEASE_SEQ_LO, Reg.LEASE_SEQ_HI,
   Reg.LEASE_BROKER, Reg.LEASE_LAST_CODE, Reg.LEASE_WINDOWS, Reg.TRADE_LENT_W, Reg.TRADE_BORROWED_W,
   Reg.TRADE_KEEP_W, Reg.TRADE_LEND_EN, Reg.TRADE_BORROW_EN, Reg.TRADE_POOL_LEFT_W, Reg.TRADE_REFUSED,
   Reg.MODEL_SUSPECT, Reg.MODEL_FAILED, Reg.MODEL_K_DYN, Reg.MODEL_K_ST, Reg.MODEL_Q10_W,
   Reg.MODEL_CALIBRATIONS, Reg.MODEL_PMEAN, Reg.MEASURE_M10_W, Reg.MEASURE_M1S_W, Reg.MEASURE_MEAS_CAP,
   Reg.MEASURE_FAILED, Reg.MEASURE_CAP_CUTS, Reg.INPUT_COND_SUBST, Reg.INPUT_COND_SUBST_COUNT, Reg.RCLOCK_OP,
   Reg.RCLOCK_TARGET, Reg.RCLOCK_THERM_CAP, Reg.RCLOCK_DROOP_CAP, Reg.RCLOCK_DENSITY, Reg.RCLOCK_RAMPING,
   Reg.RCLOCK_SHELF, Reg.RCLOCK_THRESH_MV, Reg.RCLOCK_LIMIT, Reg.RCLOCK_RECOVER, Reg.RCLOCK_DROOP_EVENTS,
   Reg.RCLOCK_STRETCH_CYCLES, Reg.AVS_RAIL_OK, Reg.AVS_RAIL_FAILED, Reg.AVS_REG_ALERT, Reg.AVS_I,
   Reg.AVS_V, Reg.AVS_ICC_LIMIT, Reg.THERMAL_TJ_MAX, Reg.THERMAL_HBM0, Reg.THERMAL_HBM1,
   Reg.THERMAL_SENSOR_FAILED, Reg.THERMAL_SHELF_FORCED, Reg.THERMAL_CAUSE, Reg.PARTNER_ATTIC_STATE, Reg.PARTNER_OWN_COPY,
   Reg.PARTNER_ATTIC_STEP_LO, Reg.PARTNER_ATTIC_STEP_HI, Reg.PARTNER_DRAIN_HOLD, Reg.PARTNER_RETRY_BEATS, Reg.PARTNER_RESENDS]

/-- The register fields, part 9. -/
def Reg.part9 : List Field :=
  [Reg.PARTNER_ABANDONED, Reg.DRAIN_STATE, Reg.DRAIN_LAST_STEP_LO, Reg.DRAIN_LAST_STEP_HI, Reg.DRAIN_PARTS_SENT,
   Reg.RESTORE_EPOCH, Reg.RESTORE_SOURCE, Reg.RESTORE_LIST_ADDR, Reg.RESTORE_LIST_COUNT, Reg.RESTORE_RESUME_BEAT_LO,
   Reg.RESTORE_RESUME_BEAT_HI, Reg.RESTORE_STATE, Reg.RESTORE_PARTS_DONE, Reg.RESTORE_MANIFEST_DIGEST, Reg.FUSE_KEYS_SLOT_USED,
   Reg.FUSE_KEYS_SLOT_REVOKED, Reg.FUSE_KEYS_SVN, Reg.FUSE_KEYS_PROV_LOCK, Reg.FUSE_KEYS_JTAG_LOCK, Reg.FUSE_KEYS_FW_ACTIVE,
   Reg.FUSE_KEYS_FW_CONFIRMED, Reg.FUSE_KEYS_FW_PENDING, Reg.FUSE_KEYS_FW_KEY_SLOT, Reg.FUSE_KEYS_FW_SVN, Reg.FUSE_KEYS_FW_STAGE,
   Reg.FUSE_KEYS_FW_CONFIRM, Reg.FUSE_KEYS_KEY_GO, Reg.FUSE_KEYS_STAGE_SPACE, Reg.FUSE_KEYS_STAGE_ADDR, Reg.FUSE_KEYS_STAGE_LEN,
   Reg.FUSE_KEYS_STAGE_CODE, Reg.FUSE_KEYS_BOOT_CODE_A, Reg.FUSE_KEYS_BOOT_CODE_B, Reg.FUSE_KEYS_KEY_CODE, Reg.FUSE_KEYS_ROOT,
   Reg.FUSE_KEYS_KEY_BLOCK, Reg.IDENT_DEVICE_ID, Reg.IDENT_MAC_BASE, Reg.IDENT_NEXT_INDEX, Reg.IDENT_REMAINING,
   Reg.IDENT_PK, Reg.ATTEST_NONCE, Reg.ATTEST_REQUEST, Reg.ATTEST_STATE, Reg.ATTEST_REASON,
   Reg.ATTEST_RATE, Reg.ATTEST_QUOTES, Reg.ENERGY_REC_SEQ_LO, Reg.ENERGY_REC_SEQ_HI, Reg.ENERGY_REC_MINUTE,
   Reg.ENERGY_REC_UNDELIVERED, Reg.ENERGY_REC_HEAD, Reg.ENERGY_REC_OLDEST_LO, Reg.ENERGY_REC_OLDEST_HI, Reg.ENERGY_REC_FETCH_SEQ_LO,
   Reg.ENERGY_REC_FETCH_SEQ_HI, Reg.ENERGY_REC_FETCH, Reg.ENERGY_REC_SIGNED_LO, Reg.ENERGY_REC_SIGNED_HI, Reg.RST_SRC_LAST_SOURCE]

/-- The register fields, part 10. -/
def Reg.part10 : List Field :=
  [Reg.RST_SRC_LAST_DOMAIN, Reg.RST_SRC_LAST_INST, Reg.RST_SRC_REQ_DOMAIN, Reg.RST_SRC_REQ_INST, Reg.RST_SRC_REQ_CONFIRM,
   Reg.RST_SRC_TAKEOVERS, Reg.RST_SRC_MANAGER, Reg.RST_SRC_COUNT, Reg.BRINGUP_LEVEL, Reg.BRINGUP_STOP_AT,
   Reg.BRINGUP_FAIL_RUN, Reg.BRINGUP_HALTED, Reg.BRINGUP_RESUME, Reg.BRINGUP_STANDBY_OK, Reg.BRINGUP_T_SL1_MS,
   Reg.BRINGUP_T_SL2_MS, Reg.BRINGUP_T_SL3_MS, Reg.BRINGUP_STACK_READY, Reg.BRINGUP_STACK_FAILED, Reg.BRINGUP_REGION_DONE,
   Reg.BRINGUP_SL2_REGION]

/-- Every register field beyond the headers. -/
def Reg.all : List Field :=
  Reg.part1 ++ Reg.part2 ++ Reg.part3 ++ Reg.part4 ++ Reg.part5 ++ Reg.part6 ++ Reg.part7 ++ Reg.part8 ++ Reg.part9 ++ Reg.part10

/-- R557: the (class, page) pairs whose register table holds an SH field. -/
def Reg.shadowPages : List (Nat × Nat) :=
  [(1, 0), (1, 1), (1, 2), (2, 1), (3, 2), (5, 1), (6, 2), (7, 1), (7, 2), (7, 3), (8, 0), (8, 1), (8, 2), (9, 0), (10, 0), (11, 0), (12, 0), (12, 1), (13, 0), (13, 2), (14, 2)]

/-- R557: the (class, page) pairs whose register table holds an LK field. -/
def Reg.lockPages : List (Nat × Nat) :=
  [(1, 1), (7, 0)]

/-- R40: how many pages each class defines, class 0 first. -/
def Reg.pagesOf : List Nat := [5, 5, 3, 5, 5, 3, 4, 4, 3, 3, 3, 2, 5, 3, 4, 2]

end Sys2Proof.Machine
end

