-- ==== Sys2Proof/Machine/State.lean ====
section
/-! DEFINITION. The state of the package: plain data only. Registers stand in one sparse table under their own
fields; the structures below hold what the spec gives the machine without a register address. -/

namespace Sys2Proof.Machine

/-- Why the machine stops with a fault. -/
inductive Fault where
  /-- No command faults: R43 and the event codes report every failure as an effect on the state. Kept so that the
  interface has a fault type; safe, because nothing raises it. -/
  | none
  deriving DecidableEq, Repr

/-- Why the machine refuses a command. -/
inductive Refusal where
  /-- The dispatcher, for a command whose meaning is not written; safe, because no next state is claimed. -/
  | notModelled (mnemonic : String)
  deriving DecidableEq, Repr

/-- R71: one event record. -/
structure EventRec where
  code : Nat
  sev : Nat
  source : Nat
  beat : Nat
  detail : Nat
  deriving DecidableEq, Repr

/-- R73, R74: the event queue of a control core, oldest record first, with the records lost since the last 0x010B. -/
structure EvQueue where
  recs : List EventRec := []
  lost : Nat := 0
  deriving DecidableEq, Repr

/-- What a page holds beside its registers: the times and counts that its arm, its quiesce and its requests need. -/
structure PageInfo where
  /-- R51: when the pending arm was accepted. -/
  armedAt : Nat := 0
  /-- R57: the armed group that holds the page. -/
  group : Option Nat := none
  /-- R63, R64: when the block entered QUIESCING, and the limit captured then, in µs. -/
  quiesceAt : Nat := 0
  limit : Nat := 0
  /-- R63 step 1: a QREQ that waits for the next beat boundary. -/
  waitBoundary : Bool := false
  /-- R69: the quiesce was started by RREQ and ends in a reset. -/
  resetAfter : Bool := false
  /-- R541: the block is the top of a domain that quiesces for its reset. -/
  domAfter : Bool := false
  /-- R62: requests accepted and not completed, and requests issued and not answered. -/
  reqIn : Nat := 0
  reqOut : Nat := 0
  /-- R66: the requests the block has issued and that are not answered, as (tag, time of issue). -/
  issued : List (Nat × Nat) := []
  deriving DecidableEq, Repr

/-! ## Units (R113 to R208) -/

/-- R185: one register write of a bundle, applied when all its slots have read their sources. -/
inductive RegWr where
  | v (r : Nat) (x : VReg)
  | m (r : Nat) (x : MReg)
  | s (r : Nat) (x : Word)
  deriving DecidableEq, Repr

/-- R184: a slot operation offered for issue, as its opcode and fields, with what the stores say of the words it reads. -/
inductive SlotCmd where
  | m (opc : Nat) (f : MSlot) (ecc : Ecc)
  | v (opc : Nat) (f : VSlot)
  | d (opc : Nat) (f : DSlot) (ecc : Ecc) (at_ : Nat)
  | c (opc : Nat) (f : CSlot)
  deriving DecidableEq, Repr

/-- R200: an open loop: first and last slot of the body, iterations left after this one, iteration index. -/
structure LoopSt where
  first : Nat
  last : Nat
  left : Nat
  idx : Nat
  deriving DecidableEq, Repr

/-- R188: a pass waiting in the queue of an array. -/
structure PassReq where
  seg : Nat
  set : Nat
  isOpen : Bool
  isClose : Bool
  srTensor : Nat
  srIndex : Nat
  deriving DecidableEq, Repr

/-- R115, R188: a segment's hold on an accumulator set, kept at the gang leader: 0 FREE, 1 OPEN, 2 DRAINING; the
segment, its descriptor word, the pass counter, and the SR context at the issue of its OPEN pass (R350). -/
structure SegSet where
  st : Nat := 0
  seg : Nat := 0
  desc : Nat := 0
  j : Nat := 0
  closing : Bool := false
  srTensor : Nat := 0
  srIndex : Nat := 0
  deriving DecidableEq, Repr

/-- R114, R133: the contents of an accumulator set: words by row × 64 + column, columns 0–31 the data, 32 RC, 33
MAG, 34 D, 35 X; tile flags and largest pair-mode exponent of the moving operand by tile, that of the stationary
operand for the set; the drain in progress. -/
structure AccSet where
  draining : Bool := false
  nextTile : Nat := 0
  rows : Nat := 0
  cells : SMap Word := []
  flags : SMap Nat := []
  inv : SMap Nat := []
  ea : SMap Int := []
  eb : Option Int := none
  chain : Nat := 0
  leader : Nat := 0
  lArr : Nat := 0
  set : Nat := 0
  seg : Nat := 0
  desc : Nat := 0
  jLast : Nat := 0
  gcol : Nat := 0
  srTensor : Nat := 0
  srIndex : Nat := 0
  cpPass : Bool := false
  closed : Bool := false
  deriving DecidableEq, Repr

/-- R134, R169: a cloth-queue entry: state, header, the words of C (0–1023), RC (1024–), MAG (1056–), D (1088–), X
(1120–) and CC (1152–1184), and what a recompute needs. `verified` marks the CHECKING tile whose check has passed
(R171). `seq` is its place in the queue order (R170). -/
structure CqEntry where
  st : Nat := 0
  verified : Bool := false
  seq : Nat := 0
  flags : Nat := 0
  fmtA : Nat := 0
  fmtB : Nat := 0
  mode : Nat := 0
  sr : Bool := false
  arr : Nat := 0
  tile : Nat := 0
  recomp : Bool := false
  invOp : Nat := 0
  rows : Nat := 0
  seg : Nat := 0
  eab : Int := 0
  chain : Nat := 0
  set : Nat := 0
  words : SMap Word := []
  leader : Nat := 0
  lArr : Nat := 0
  desc : Nat := 0
  jLast : Nat := 0
  gcol : Nat := 0
  srTensor : Nat := 0
  srIndex : Nat := 0
  eccBad : Bool := false
  closed : Bool := false
  deriving DecidableEq, Repr

/-- One unit beside its registers. -/
structure UnitSt where
  vregs : SMap VReg := []
  mregs : SMap MReg := []
  sregs : SMap Word := []
  /-- R185: the slot operations of the bundle at the program counter that have been offered, without the last. -/
  bundle : List SlotCmd := []
  /-- R199: the cycle the sequencer has reached, counted at the time `cycAt`; when each vector register (0–31) and mask register (32–39) that has
  a write pending can be used; when the V slot is free again. -/
  cyc : Nat := 0
  cycAt : Nat := 0
  ready : SMap Nat := []
  vFree : Nat := 0
  /-- R146: up to which cycle MATRIX.BUSY has counted. -/
  busyTo : Nat := 0
  /-- R200: open loops, innermost first. -/
  loops : List LoopSt := []
  /-- R203: the SR context. -/
  srTensor : Nat := 0
  srIndex : Nat := 0
  /-- R204: when the start in force was accepted. -/
  startAt : Nat := 0
  /-- R204: END has been met in the bundle in progress. -/
  ending : Bool := false
  /-- R139: issue is held by a mismatch; how many cycles (R146). -/
  held : Bool := false
  heldCycles : Nat := 0
  /-- R144: a mismatch that waits for its recompute, and the recompute in progress. -/
  mmWait : Bool := false
  recomputing : Bool := false
  /-- R141: the beat of the latest mismatch at this unit. -/
  lastMm : Option Nat := none
  /-- R142: a second mismatch of a taller gang marks the entry whose gang column is tested. -/
  failLeader : Nat := 0
  /-- R202: the barrier at which the unit waits, and whether it has been released. -/
  barWait : Option Nat := none
  barDone : Bool := false
  /-- R188: pass queues of the two arrays, and the last pass entered: its front cycle and its streaming cycles (R126). -/
  passQ0 : List PassReq := []
  passQ1 : List PassReq := []
  inFlight0 : Option (Nat × Nat) := none
  inFlight1 : Option (Nat × Nat) := none
  /-- R115: segment holds, by array × 4 + set. -/
  segs : SMap SegSet := []
  /-- R114: accumulator sets, by array × 4 + set (0 A, 1 B, 2 X). -/
  accs : SMap AccSet := []
  /-- R169: the cloth queue, by entry number. -/
  cq : SMap CqEntry := []
  cqSeq : Nat := 0
  /-- R171: pops in progress or waiting, and the cycles the pop in progress has waited. -/
  pops : Nat := 0
  popWaited : Nat := 0
  /-- R208: the fill in progress (larder line, first slot, slots, expected CRC) and the slots marked unfit. -/
  fill : Option (Nat × Nat × Nat × Nat) := none
  unfit : List Nat := []
  /-- R252: the system beat of the latest window waited on or issued through. -/
  winBeat : Nat := 0
  deriving DecidableEq, Repr

/-- R202: a barrier that has been reached. -/
structure BarSt where
  mask : Nat
  arrived : List Nat
  since : Nat
  limit : Nat
  deriving DecidableEq, Repr

/-- One cluster: its barriers (R202), the grid positions its standby has taken (R17), retired units, and the gang columns under the array test of
R142: the unit that owns the bottom array, the units still to be tested, and whether one has failed. -/
structure ClusterSt where
  bars : SMap BarSt := []
  standbyFor : Option Nat := none
  retired : List Nat := []
  suspects : List (Nat × List Nat × Bool) := []
  /-- R144: mismatches that wait for the gang's recompute, oldest first. -/
  mmQueue : List Nat := []
  deriving DecidableEq, Repr

/-- R227, R232: a descriptor block an engine holds: where it lies in the store, the kicking unit (none for a core kick), the
tag, the engine it was kicked at, when it was accepted and when CMOVE passed it on. `gone` says that its CMOVE awaits it no more, `coreGone`
that the kicking core does not (R64, R66). -/
structure MBlock where
  addr : Nat
  kicker : Option Nat
  tag : Nat
  home : Nat
  atRegion : Bool
  heldAt : Nat := 0
  sentAt : Nat := 0
  gone : Bool := false
  coreGone : Bool := false
  /-- R311, R335: the block is scheduled by the plan although a control core kicks it. -/
  planned : Bool := false
  deriving DecidableEq, Repr

/-- R228, R229: the block an engine runs: its descriptors as 512-bit words, how many have run, a fault found, as code,
descriptor index and completion code, and when the next descriptor's requests were issued. -/
structure MRun where
  block : MBlock
  descs : List Nat
  next : Nat
  fault : Option (Nat × Nat × Nat)
  issuedAt : Nat := 0
  deriving DecidableEq, Repr

/-- R228: a movement engine: blocks held in acceptance order, and the block that runs. -/
structure Engine where
  queue : List MBlock := []
  run : Option MRun := none
  deriving DecidableEq, Repr

/-! ## The beat and steps (R244 to R287) -/

/-- R258, R260, R394: the last valid marker of a link port, when it came, and whether its beat number, period or phase differed by more than 1 µs. -/
structure Mark where
  m : Marker
  heardAt : Nat
  differs : Bool := false
  deriving DecidableEq, Repr

/-- The beat lock beside its registers. -/
structure BeatSt where
  marks : SMap Mark := []
  /-- R267: the last accepted phase samples, newest first, in 0.5 ns units. -/
  samples : List Int := []
  /-- R260: consecutive samples within the lock range. -/
  run : Nat := 0
  /-- When the last marker was accepted, when the adopted claim was last refreshed, when holdover began. -/
  lastOk : Nat := 0
  lastClaim : Nat := 0
  holdAt : Nat := 0
  /-- R260: the package is the elected source. -/
  source : Bool := false
  /-- R260: the address of the former claim that is no longer adopted. -/
  former : Option Nat := none
  /-- R248: PERIOD, T_X and T_S that wait for APPLY_BEAT. -/
  pend : Option (Nat × Nat × Nat × Nat) := none
  /-- R287: the first late shuttle of the step has left. -/
  lateSent : Bool := false
  deriving DecidableEq, Repr

/-- R282: a ledger entry; `shardArrival` is ARRIVAL, none for 0x7FFF_FFFF. -/
structure LedgerEntry where
  red : Nat
  shard : Nat
  kind : Nat
  origin : Nat
  first : Nat
  count : Nat
  arrival : Option Int
  deriving DecidableEq, Repr

/-- R371: a contribution of the attempt that has landed: reduction, sender's group coordinate, landing beat; `bad` says that its
records failed decode. -/
structure Landed where
  red : Nat
  g : Nat
  beat : Nat
  bad : Bool := false
  deriving DecidableEq, Repr

/-- R378: a carried contribution, header included; `live` once its step has committed. -/
structure Carry where
  red : Nat
  shard : Nat
  origin : Nat
  g : Nat
  sender : Nat
  arrival : Option Int
  bytes : List Byte
  live : Bool
  deriving DecidableEq, Repr

/-- The running step beside its registers. -/
structure StepSt where
  /-- R270: the beat in which the next step begins. -/
  next : Option Nat := none
  /-- R273: the decision that travels, with the system DIRTY and its apply beat. -/
  dec : Option (Nat × Bool × Nat) := none
  /-- R342: the package's own attempt is dirty. -/
  dirty : Bool := false
  /-- R272: downstream ports whose aggregate is counted as FAIL. -/
  silent : List Nat := []
  /-- R339: a NAN or E8_INV flag was set in the attempt. -/
  nan : Bool := false
  /-- R335: the instances whose observation lines have been harvested, as (stage, instance). -/
  harvested : List (Nat × Nat) := []
  /-- R339: numeric evaluation of the attempt is done. -/
  evaluated : Bool := false
  /-- R283: the ledger of the attempt, in canonical order, and the ledger that a forced step is given. -/
  ledger : List LedgerEntry := []
  forced : List LedgerEntry := []
  /-- R371, R374: contributions landed; reductions whose deadline has been classed, whose shard is decoded; the first late
  contribution and the first applied carry have been reported. -/
  landed : List Landed := []
  classed : List Nat := []
  decoded : List Nat := []
  lateSeen : Bool := false
  carrySeen : Bool := false
  /-- R364: the second buffers of the remainders: bytes and the live address they take at a COMMIT. -/
  second : List (Nat × List Byte) := []
  /-- R378: the carry lists. -/
  carries : List Carry := []
  /-- The step record of the last decided attempt, and of the last committed step. -/
  lastRecord : List Byte := []
  deriving DecidableEq, Repr

/-! ## Drafts, plans and numeric state (R288 to R358) -/

/-- R325: one instance of a plan: what its plan-table entry holds, with BEAT_STEP. -/
structure PlanEntry where
  stage : Nat
  inst : Nat
  rows : Nat
  cols : Nat
  alt : Bool
  way : Nat
  ways : Nat
  leader : Nat
  start : Nat
  span : Nat
  slot : Nat
  ls : Nat
  step : Nat
  /-- What the table does not show: the units that the gang covers, where the larder holds the relocated image, its bundles, its slots and its CRC, and
  at which slot of the image each beat segment begins (R297, R311, R313). -/
  units : List Nat := []
  image : Nat := 0
  bundles : Nat := 0
  slots : Nat := 0
  crc : Nat := 0
  starts : List Nat := []
  /-- R335: where the larder takes the instance's eight observation lines. -/
  lines : Nat := 0
  deriving DecidableEq, Repr

/-- R254, R304, R313: a landing area of a plan: the flow bound to it, whether that carries contributions, and where it lies in the store. -/
structure LandArea where
  flow : Nat
  contrib : Bool
  addr : Nat
  bytes : Nat
  deriving DecidableEq, Repr

/-- R303: a plan: its entries; base and size in granules of the five partitions of each stack; NUMERIC_HASH, TIMING_ID, FIT_OP,
PLAN_OP and the time-sliced units; the positions that are time-sliced, as (stage, W); the gang shape of each cluster, as (cluster, ROWS,
COLS); the landing areas; the staged images, as (store address, bytes); the swap slots, as (unit, store address, bytes of each); the fault map
it was placed under. -/
structure Plan where
  entries : List PlanEntry
  parts : List (Nat × List (Nat × Nat))
  hash : List Byte
  timing : Nat
  fitOp : Nat
  planOp : Nat
  slicedUnits : Nat
  sliced : List (Nat × Nat)
  gangs : List (Nat × Nat × Nat) := []
  lands : List LandArea := []
  staging : List (Nat × List Byte) := []
  swapSlots : List (Nat × Nat × Nat) := []
  faults : List (Nat × Nat) := []
  deriving DecidableEq, Repr

/-- R338: the scale state of a managed tensor; E_RUN is none while it is undefined. -/
structure ScaleSt where
  tensor : Nat
  eRun : Option Int := none
  quiet : Nat := 0
  calm : Nat := 0
  level : Nat := 0
  warmLeft : Nat := 0
  warm : Bool := false
  deriving DecidableEq, Repr

/-- R334, R339: what an attempt observed of a managed tensor: SAT, CRUSH, ALL_ZERO and ALL_SAT totals, and the largest magnitude
as an FP32 word. -/
structure TensorObs where
  tensor : Nat
  sat : Nat
  crush : Nat
  zero : Nat
  allSat : Nat
  maxWord : Nat
  deriving DecidableEq, Repr

/-- R339: what a correction stages for a tensor: the new E_RUN (none: unchanged), whether QUIET returns to 0, the new LEVEL. -/
structure Correction where
  tensor : Nat
  eRun : Option Int
  quiet : Bool
  level : Nat
  deriving DecidableEq, Repr

/-- Placement and numerics beside their registers. -/
structure PlanSt where
  /-- R291, R328: the draft and the policy table as they were read at CMD.LOAD, and when that was. -/
  draft : List Byte := []
  policy : List Byte := []
  loadAt : Nat := 0
  /-- R18: a plan has committed since the last package reset. -/
  planned : Bool := false
  /-- The plan in force, and a plan that waits for its re-plan point. -/
  live : Option Plan := none
  ready : Option Plan := none
  /-- R319, R321: the pending causes, as codes of PLAN_RB.CAUSE, whether placement runs on them, and when the first came. -/
  causes : List Nat := []
  replanning : Bool := false
  causeAt : Nat := 0
  /-- R318: members replaced by spares, as (member index, address), and spares that failed. -/
  replaced : List (Nat × Nat) := []
  lostSpares : List Nat := []
  /-- R337 to R341: the scale states by tensor; the observations of the attempt; the corrections it staged; the layers SKIP keeps. -/
  scales : SMap ScaleSt := []
  obs : List TensorObs := []
  /-- R341: the ROUND of the step's first NAN trigger. -/
  nanRound : Option Nat := none
  staged : List Correction := []
  skips : List Nat := []
  /-- R274, R347: the WEIGHT and STATE tensors whose second buffer is the live one. -/
  flipped : List Nat := []
  deriving DecidableEq, Repr

/-! ## Links (R385 to R409) -/

/-- R402, R403: a shuttle that waits for the slot of a route-table entry; `port` is where it came in. -/
structure SlotSh where
  entry : Nat
  port : Nat
  sh : Shuttle
  deriving DecidableEq, Repr

/-- R408: a slack shuttle in a buffer, and the beat it came in. -/
structure SlackSh where
  sh : Shuttle
  since : Nat
  deriving DecidableEq, Repr

/-- R406: the requests made for one shuttle: how many a resend may have answered, and the beat of the latest; the latest was
answered by a NAK. -/
structure Asked where
  flow : Nat
  shuttle : Nat
  count : Nat
  beat : Nat
  nak : Bool
  deriving DecidableEq, Repr

/-- One link port beside its registers. -/
structure PortSt where
  /-- R389: when the training attempt began, and consecutive timeouts. -/
  trainAt : Nat := 0
  timeouts : Nat := 0
  /-- R402: the output buffer: SEND shuttles fetched whole. -/
  out : List SlotSh := []
  /-- R403: THROUGH shuttles received, waiting for their slots. -/
  through : List SlotSh := []
  /-- R253: shuttles that missed their slots, in the order in which they became whole. -/
  late : List Shuttle := []
  /-- R408: slack shuttles received and not yet forwarded. -/
  slack : List SlackSh := []
  /-- R257: the beat, and the bytes of late traffic sent in its slack window. -/
  lateBeat : Nat := 0
  lateBytes : Nat := 0
  deriving DecidableEq, Repr

/-- Route tables and the transfers of the attempt. -/
structure RouteSt where
  live : List Byte := []
  ready : List Byte := []
  /-- R401: APPLY_BEAT of a READY table has been committed. -/
  pend : Bool := false
  /-- R403: shuttles landed, as (FLOW, SHUTTLE, TOTAL); R406: SEND shuttles that have been sent; requests made. -/
  landed : List (Nat × Nat × Nat) := []
  sent : List Shuttle := []
  asked : List Asked := []
  /-- Slack shuttles of the package's own that wait for a port. -/
  own : List SlackSh := []
  deriving DecidableEq, Repr

/-! ## Host ports, sessions and channels (R411 to R450) -/

/-- R425: a segment the package has sent and that is not acknowledged: type, flags, channel, payload, when it was last sent, how often
it was retransmitted, whether SACK shows it held, and the time of its fast retransmission. -/
structure SentSeg where
  seq : Nat
  ty : Nat
  isFirst : Bool
  isLast : Bool
  chan : Nat
  payload : List Byte
  sentAt : Nat
  tries : Nat := 0
  held : Bool := false
  fastAt : Option Nat := none
  deriving DecidableEq, Repr

/-- R425: a segment held until its turn. -/
structure HeldSeg where
  seq : Nat
  ty : Nat
  isFirst : Bool
  isLast : Bool
  chan : Nat
  payload : List Byte
  deriving DecidableEq, Repr

/-- R422 to R427: a session. Times in units of 100 ns. -/
structure Sess where
  id : Nat
  port : Nat
  peer : Endpoint
  nonce : List Byte
  next : Nat
  una : List SentSeg := []
  queue : List HeldSeg := []
  rcv : Nat
  held : List HeldSeg := []
  pend : Nat := 0
  ackDue : Option Nat := none
  lastRx : Nat
  lastTx : Nat
  window : Nat
  rto : Nat
  srtt : Option Nat := none
  rttvar : Nat := 0
  peerClosed : Bool := false
  closed : Bool := false
  closeAt : Nat := 0
  /-- R431: session-control messages that have arrived whole and are not yet acted on, and the one being assembled. -/
  ctl : List (List Byte) := []
  ctlPart : Option (List Byte) := none
  deriving DecidableEq, Repr

/-- R429, R436, R439, R440: a channel: messages that have arrived whole and are not yet acted on, the message being assembled, the
count of messages formed, the count of segments queued; unsent event records, each with its beat, and records lost; unsent objects with
their TYPE, how far the first has been sent, objects that wait for room, and objects dropped. -/
structure Chan where
  handle : Nat
  sess : Nat
  port : Nat
  param : Nat
  inbox : List (List Byte) := []
  part : Option (List Byte) := none
  sent : Nat := 0
  segs : Nat := 0
  recs : List (Nat × EventRec) := []
  lost : Nat := 0
  objs : List (Nat × List Byte) := []
  objOff : Nat := 0
  waiting : List (Nat × List Byte) := []
  /-- R524: energy records sent, by SEQ, with the count of segments at which each ended. -/
  ended : List (Nat × Nat) := []
  dropped : Nat := 0
  deriving DecidableEq, Repr

/-- R442: the buffer of an INPUT tensor for a step: the byte ranges written, and END. -/
structure InBuf where
  tensor : Nat
  step : Nat
  ranges : List (Nat × Nat)
  ended : Bool
  deriving DecidableEq, Repr

/-- R443: a committed output that is held: its tensor, its step, the bytes sent of it, and the count of segments of its channel at
which its last message ended. -/
structure OutBuf where
  tensor : Nat
  step : Nat
  off : Nat := 0
  upTo : Option Nat := none
  deriving DecidableEq, Repr

/-- One host port beside its registers. -/
structure HPort where
  /-- R415: the highest packet number received under the SAK in use. -/
  rxPn : Nat := 0
  /-- R416: the MKA peer has been lost and MKA has not secured the port since: it carries only EAPOL frames. -/
  lost : Bool := false
  /-- R414: addresses whose duplicate address detection runs: 0 link-local, 1 IPv6; and when echo requests were answered. -/
  dad : List Nat := []
  echoes : List Nat := []
  /-- R417: the best announce heard. R447: the UTC offsets of the last announces. -/
  master : Option Announce := none
  utc : List Nat := []
  /-- R423: when an unknown session was last answered, by source. -/
  unknown : List (Endpoint × Nat) := []
  deriving DecidableEq, Repr

/-- The host side of the package. -/
structure HostSt where
  ports : SMap HPort := []
  sessions : List Sess := []
  chans : List Chan := []
  /-- R429: the generation of the latest channel of an index. -/
  gens : SMap Nat := []
  /-- R434: when a stale handle was last answered. -/
  stales : SMap Nat := []
  inputs : List InBuf := []
  outputs : List OutBuf := []
  /-- R418: wall time at power-on, in ns; the offsets of the last exchanges; exchanges in a row beyond 1 ms; the time of the last exchange. -/
  wallBase : Int := 0
  offsets : List Int := []
  beyond : Nat := 0
  lastSync : Nat := 0
  /-- R462: when HOLDOVER began. -/
  holdAt : Nat := 0
  deriving DecidableEq, Repr

/-! ## Power, leases and temperature (R451 to R483) -/

/-- R457, R459: a held lease window; minutes and W. -/
structure LeaseWin where
  start : Nat
  dur : Nat
  avg : Nat
  peak : Nat
  lend : Nat
  borrow : Nat
  deriving DecidableEq, Repr

/-- R480, R482: a rail: its last three readings of mV and of 0.1 A, newest first, when one was last good, samples in a row above the
current limit, and whether it has failed. -/
structure RailSt where
  v : List Int := []
  i : List Int := []
  okAt : Nat := 0
  above : Nat := 0
  failed : Bool := false
  deriving DecidableEq, Repr

/-- R482: a temperature sensor: its last three readings in 1/4 °C, newest first, when one was last good, the reading it has not left
since, when that was, the least and the greatest region power since, and whether it has failed. -/
structure SensorSt where
  last : List Int := []
  okAt : Nat := 0
  ref : Int := 0
  refAt : Nat := 0
  pLo : Nat := 0
  pHi : Nat := 0
  failed : Bool := false
  deriving DecidableEq, Repr

/-- R454, R455, R478: a region's clock: trips of the beat, beats in a row without exceeding LIMIT, whether its clock is stretched, when the
supply was last clear of the trip level; when THERM_CAP last changed, and whether it is falling; where a ramp step that runs leads (R453). -/
structure ClockSt where
  trips : Nat := 0
  good : Nat := 0
  stretched : Bool := false
  clearAt : Option Nat := none
  capAt : Nat := 0
  falling : Bool := false
  stepTo : Nat := 0
  deriving DecidableEq, Repr

/-- R481: a die's forced shelf: its causes (8: rail current), since when it has had none, and whether the keeper releases it at the next
boundary. -/
structure ShelfSt where
  causes : List Nat := []
  clearAt : Nat := 0
  release : Bool := false
  deriving DecidableEq, Repr

/-- Power beside its registers. -/
structure PowerSt where
  windows : List LeaseWin := []
  /-- R418: the number of the last minute boundary taken. -/
  minute : Nat := 0
  /-- R473: when LENT_W was raised and its OFFER is still due. -/
  lentAt : Option Nat := none
  /-- R471, R475: the open NEED, when one was last refused, the last number used; R477: offers received and grants sent. -/
  need : Option Nat := none
  refusedAt : Option Nat := none
  tradeId : Nat := 0
  traded : Bool := false
  offersRx : Nat := 0
  grantsTx : Nat := 0
  rails : SMap RailSt := []
  sensors : SMap SensorSt := []
  hbmTemps : SMap SensorSt := []
  clocks : SMap ClockSt := []
  shelf : SMap ShelfSt := []
  /-- R467: when rails were last sampled; the package readings of the last second in mW, newest first; when the loop last ran; loops in a
  row with room to rise. -/
  sampledAt : Nat := 0
  readings : List Nat := []
  loopAt : Nat := 0
  calm : Nat := 0
  /-- R465, R468: beats of the last 10 ms as (start, predicted nJ, its dynamic nJ before scaling), and means of the last second's loops in
  mW, newest first; loops in a row outside and within 15 %. -/
  beats : List (Nat × Nat × Nat) := []
  loops : List (Nat × Nat) := []
  apart : Nat := 0
  near : Nat := 0
  /-- R469: loops in a row with running work; the last full second of it in mW, measured and dynamic; the hour last calibrated in. -/
  busyLoops : Nat := 0
  busyW : Nat := 0
  busyDyn : Nat := 0
  calHour : Nat := 0
  /-- R478: stacks in self-refresh. -/
  selfRefresh : List Nat := []
  deriving DecidableEq, Repr

/-! ## Keys, images and energy records in MRAM (R506 to R524) -/

/-- R520: the running totals of the open minute: when it began, measured µJ, predicted nJ, the largest 10 ms and 1 s means in mW, the largest
W lent and borrowed, ms under the fallback budget and in a forced shelf state, FLAGS, and UNMEASURED_MS. -/
structure MinuteAcc where
  since : Nat := 0
  uj : Nat := 0
  modelNj : Nat := 0
  peak10 : Nat := 0
  max1s : Nat := 0
  lent : Nat := 0
  borrowed : Nat := 0
  fallbackMs : Nat := 0
  shelfMs : Nat := 0
  flags : Nat := 0
  unmeasured : Nat := 0
  extra : Nat := 0
  deriving DecidableEq, Repr

/-- What MRAM holds without a register, and what the keeper needs for quotes and records. -/
structure SecSt where
  cak : Option (List Byte × List Byte) := none
  leaseKey : Option (List Byte) := none
  resetKey : Option (List Byte) := none
  /-- R516: KEY_CTR by kind. R463: FALLBACK_W has been provisioned. -/
  keyCtr : SMap Nat := []
  fallbackSet : Bool := false
  /-- R506, R510: the images of firmware slots A and B, the confirmed slot, and whether the pending image has been entered once. -/
  images : SMap (List Byte) := []
  confirmed : Nat := 0
  entered : Bool := false
  /-- R519: when quotes were signed, and the nonce of the quote being signed. -/
  quotes : List Nat := []
  nonce : Option (List Byte) := none
  /-- R514: when 0x0E08 was last raised. -/
  budgetAt : Option Nat := none
  /-- R520 to R524: the open minute and its saved totals, when they were saved, the number of the next record, the records and signature
  blocks kept, and the records acknowledged whole. -/
  acc : MinuteAcc := {}
  saved : MinuteAcc := {}
  savedAt : Nat := 0
  nextSeq : Nat := 0
  records : List (Nat × List Byte) := []
  blocks : List (Nat × List Byte) := []
  delivered : List Nat := []
  deriving DecidableEq, Repr

/-! ## Save points and restores (R486 to R503) -/

/-- R488 to R493: a save point being sent to another package: its destination, its use (0 DRAIN, 1 REFILL, 2 ATTIC_REFILL), the next part
and piece, the digests so far, pieces to send again from as (part, piece), parts that wait for an answer with the beat of their last piece,
how often each was sent again, the parts acknowledged, and whether the receiver found it bad. -/
structure Transfer where
  dst : Nat
  use : Nat
  step : Nat
  next : Nat := 0
  piece : Nat := 0
  digests : List (List Byte) := []
  again : List (Nat × Nat) := []
  waits : List (Nat × Nat) := []
  tries : SMap Nat := []
  sentParts : List Nat := []
  acked : List Nat := []
  bad : Bool := false
  deriving DecidableEq, Repr

/-- R496: an external drain: the next part, the parts in progress as (channel, part, offset), the digests so far, parts sent whole and parts
acknowledged, and whether the manifest has been sent. -/
structure ExtDrain where
  step : Nat
  next : Nat := 0
  active : List (Nat × Nat × Nat) := []
  digests : List (List Byte) := []
  acked : List Nat := []
  manifestSent : Bool := false
  deriving DecidableEq, Repr

/-- Recovery beside its registers. -/
structure RecSt where
  transfers : List Transfer := []
  ext : Option ExtDrain := none
  /-- R492: pieces landed as (use, part, piece), of which step, and from whom, by use. -/
  got : List (Nat × Nat × Nat) := []
  gotStep : SMap Nat := []
  gotFrom : SMap Nat := []
  /-- R492, R501: the bytes of a restore that wait for its acceptance, by part; 0xFFFFFF is the manifest. -/
  held : SMap (List Byte) := []
  /-- R501: the fetch in progress: part and offset. -/
  fetch : Option (Nat × Nat) := none
  /-- R498, R500: the declaration acted on, and the step of the restored save point. -/
  epoch : Nat := 0
  restored : Option Nat := none
  /-- R497: the LEDGER_DIGEST the host has supplied. -/
  ledgerDigest : Option (List Byte) := none
  /-- R498: peers toward which every port has gone. -/
  suspects : List Nat := []
  deriving DecidableEq, Repr

/-! ## Reset and bring-up (R22, R527 to R544) -/

/-- R527, R528: a domain reset: its domain, instance and source, and when it is issued. -/
structure ResetReq where
  dom : Nat
  inst : Nat
  src : Nat
  at' : Nat
  deriving DecidableEq, Repr

/-- R541 step 3: a domain that has been reset and is not yet back in service: the regions, clusters and stacks, as level and instance, whose
self-test or training is still due. -/
structure BackReq where
  dom : Nat
  inst : Nat
  src : Nat
  left : List (Nat × Nat)
  deriving DecidableEq, Repr

/-- Reset and bring-up beside their registers. -/
structure RstSt where
  /-- R528, R532: PWR_GOOD is high; RESET_N is low; REFCLK runs; THERMTRIP_N has been asserted since power-on. -/
  power : Bool := true
  low : Bool := true
  refclk : Bool := true
  trip : Bool := false
  /-- The package reset is in force, and the reset pin that ended last (R533). -/
  held : Bool := true
  cause : Nat := 1
  /-- R531: when the internal reset has run out after its last source. -/
  runsTo : Nat := 0
  /-- R531, R542: the fuses have been sensed since power-on; the pin codes of the fuse map, by pin, 0 where none is programmed. -/
  sensed : Bool := false
  pinFuses : SMap Nat := []
  /-- R510: an image has been entered. -/
  booted : Bool := false
  /-- R482: FEED_SEL as sampled. -/
  strap : Nat := 63
  /-- R543, R446: resets that are due; R541: domains that quiesce, and domains not yet back in service. -/
  due : List ResetReq := []
  drain : List ResetReq := []
  back : List BackReq := []
  /-- R538: training attempts that have failed, by stack; when SL2 was entered. -/
  tries : SMap Nat := []
  sl2At : Nat := 0
  /-- R22, R24: failed resends of each block in transfer, by edge, direction, destination die and place; failed edges. -/
  resends : SMap Nat := []
  edges : List Nat := []
  /-- R446: when 0x0B09 was last raised. -/
  rejectAt : Option Nat := none
  deriving DecidableEq, Repr

/-- What a command answers or sends to the outside. -/
inductive Output where
  /-- R43: a register access ended with this completion code and, for a read, this value. -/
  | completion (code value : Nat)
  /-- R394: a beat marker left a link port. -/
  | marker (port : Nat) (m : Marker)
  /-- R402, R407: a shuttle left a link port. -/
  | shuttle (port : Nat) (sh : Shuttle)
  /-- R420, R421: a segment left a host port for an endpoint: type, flags, session, SEQ, ACK, SACK, channel, WINDOW, payload. -/
  | segment (port : Nat) (peer : Endpoint) (ty : Nat) (isFirst isLast : Bool) (session seq ack sack channel window : Nat) (payload : List Byte)
  /-- R414: an ARP reply, a neighbour advertisement, an echo reply or an MKA frame left a host port. -/
  | arpReply (port : Nat)
  | neighborAdvert (port : Nat) (link : Bool)
  | echoReply (port : Nat) (v6 : Bool) (payload : List Byte)
  | mkaReply (port : Nat)
  /-- R415: an MKA frame that asks for a new SAK left a host port. -/
  | sakRequest (port : Nat)
  /-- R22, R23: a selvedge block goes on over an edge, or is asked for again: edge, direction, destination die and place. -/
  | selvedge (edge : Nat) (back : Bool) (dst dest : Nat) (block : List Byte)
  | selvedgeResend (edge : Nat) (back : Bool) (dst dest : Nat)
  /-- R554: what the test port shifted out. -/
  | testOut (value : Nat)
  deriving DecidableEq, Repr

/-- Everything the package holds beside its store and the queue of waiting commands. -/
structure Dev where
  /-- The value of every register field that differs from its value at reset, by the field's key. -/
  regs : SMap Word := []
  /-- R50: the shadow sets: SH fields whose shadow value differs from the live one. -/
  shadow : SMap Word := []
  /-- R249, R448, R525: the values that a read of a .LO word has latched for its .HI field and its companions. -/
  latch : SMap Word := []
  pages : SMap PageInfo := []
  /-- R57: when each commit group was armed. -/
  groupAt : SMap Nat := []
  /-- Time since power-on in units of 100 ns (assumption 1). -/
  now : Nat := 0
  /-- R560: whether the beat timer runs, whether a boundary has fallen, and when the latest fell. -/
  timerOn : Bool := false
  beatSeen : Bool := false
  boundary : Nat := 0
  /-- R536: when RESET_N was last released. -/
  relAt : Nat := 0
  /-- The model's own: which free value is drawn next (assumption 2). -/
  free : Nat := 0
  /-- R73: event queues: region cores 0–15, die managers 16–19, package manager 32. -/
  queues : SMap EvQueue := []
  units : SMap UnitSt := []
  clusters : SMap ClusterSt := []
  cmove : SMap Engine := []
  rmove : SMap Engine := []
  beat : BeatSt := {}
  step : StepSt := {}
  plan : PlanSt := {}
  links : SMap PortSt := []
  route : RouteSt := {}
  host : HostSt := {}
  power : PowerSt := {}
  recov : RecSt := {}
  sec : SecSt := {}
  rst : RstSt := {}
  /-- R61, R69, R531: the pages that are RESETTING, with the time at which each is done and whether it then raises 0x0108. -/
  resetting : List (Nat × Nat × Bool) := []
  /-- R554: the instruction in the test port's instruction register; IDCODE before any (assumption 41). -/
  testInstr : TestInstr := .idcode
  /-- R21: the fault map in MRAM: retired blocks as level (1 unit, 2 cluster, 3 region, 4 die, 5 stack) and instance. -/
  faults : List (Nat × Nat) := []
  /-- R20: blocks due for retirement at the next re-plan commit, as level (1 unit, 2 cluster, 3 region, 4 die, 5 stack) and
  instance. -/
  due : List (Nat × Nat) := []
  /-- R143, R197, R216: the attempt in progress can no longer commit. -/
  spoiled : Bool := false
  /-- The store operations of the command in progress; empty between commands. -/
  writes : List MemOp := []
  /-- What the latest command answered or sent (assumption 4). -/
  out : List Output := []
  deriving DecidableEq, Repr

/-- The package: the commands that wait, first in first out; the byte store; and everything else. -/
structure State where
  pending : List Instr := []
  mem : Mem := []
  dev : Dev := {}
  deriving DecidableEq, Repr

/-- The package right after power-on: every register at its reset value, nothing stored, nothing waiting (R530). -/
def State.reset : State := {}

end Sys2Proof.Machine
end

