-- ==== Sys2Proof/Machine/Ops.lean ====
section
/-! DEFINITION. The named operations over registers, events, time, block states and stores that every meaning uses. -/

namespace Sys2Proof.Machine

/-! ## Running a meaning -/

/-- A command's working view of the device: nothing written to the store yet, nothing sent yet. -/
def Dev.start (d : Dev) : Dev := { d with writes := [], out := [] }

/-- The end of a command that leaves the store alone. -/
def runDev (s : State) (f : Dev → Dev) : Host.Outcome State Fault Refusal :=
  .next { s with dev := { f s.dev.start with writes := [] } }

/-- The end of a command that may write the store: its store operations are applied in order. -/
def runMem (s : State) (f : Mem → Dev → Dev) : Host.Outcome State Fault Refusal :=
  .next { s with mem := Mem.apply s.mem (f s.mem s.dev.start).writes
                 dev := { f s.mem s.dev.start with writes := [] } }

/-- Bytes written from an address of the store upward. -/
def Dev.poke (d : Dev) (a : Nat) (bs : List Byte) : Dev := { d with writes := d.writes ++ [.write a bs] }

/-- Addresses `lo` up to `hi` of the store cleared. -/
def Dev.wipe (d : Dev) (lo hi : Nat) : Dev := { d with writes := d.writes ++ [.clear lo hi] }

/-- Something answered or sent. -/
def Dev.send (d : Dev) (o : Output) : Dev := { d with out := d.out ++ [o] }

/-! ## Registers (R37 to R46) -/

/-- The value of a field's copy `i` at reset: the table's, but for the PANTRY partition (R223), whose base is the host
window and whose size is 8, for the fused current limits of the rails (R548), and for DEVICE_ID, which R512 derives from the public key at reset. -/
def Field.rst (f : Field) (i : Nat) : Nat :=
  if f.cls = 5 ∧ f.page = 1 ∧ f.off = 0x084 ∧ i = 4 then 8
  else if f.cls = 4 ∧ f.page = 3 ∧ f.off = 0x0E0 then [1100, 1100, 1100, 1100, 400, 280, 450].getD i 0
  else if f.cls = 14 ∧ f.page = 1 ∧ f.off = 0x080 then [0x6868f7df, 0xe47a351b].getD i 0
  else f.reset

/-- The live value of a field's copy on a page. -/
def Dev.get (d : Dev) (f : Field) (pg i : Nat) : Nat :=
  match SMap.find d.regs (f.key pg i) with
  | some w => w.toNat
  | none => f.rst i

/-- A field's copy given a value, cut to its width. -/
def Dev.set (d : Dev) (f : Field) (pg i v : Nat) : Dev :=
  { d with regs := SMap.putD d.regs (f.key pg i) (BitVec.ofNat 32 (v % 2 ^ f.width)) (BitVec.ofNat 32 (f.rst i)) }

/-- A register field of an instance of its own page. -/
def Dev.rd (d : Dev) (f : Field) (inst : Nat) (i : Nat := 0) : Nat := d.get f (f.pg inst) i
def Dev.wr (d : Dev) (f : Field) (inst v : Nat) (i : Nat := 0) : Dev := d.set f (f.pg inst) i v

/-- A register field of a package page. -/
def Dev.g (d : Dev) (f : Field) (i : Nat := 0) : Nat := d.rd f 0 i
def Dev.p (d : Dev) (f : Field) (v : Nat) (i : Nat := 0) : Dev := d.wr f 0 v i

/-- A header field of a page (R46). -/
def Dev.hd (d : Dev) (f : Field) (pg : Nat) : Nat := d.get f pg 0
def Dev.hw (d : Dev) (f : Field) (pg v : Nat) : Dev := d.set f pg 0 v

/-- A 64-bit register held as two words. -/
def Dev.g64 (d : Dev) (lo hi : Field) : Nat := d.g lo + 2 ^ 32 * d.g hi
def Dev.p64 (d : Dev) (lo hi : Field) (v : Nat) : Dev := (d.p lo v).p hi (v / 2 ^ 32)

/-- A counter that saturates at its width. -/
def Dev.bump (d : Dev) (f : Field) (inst : Nat) (n : Nat := 1) (i : Nat := 0) : Dev :=
  d.wr f inst (sat f.width (d.rd f inst i + n)) i

/-- A counter that wraps. -/
def Dev.count (d : Dev) (f : Field) (inst : Nat) (n : Nat := 1) (i : Nat := 0) : Dev := d.wr f inst (d.rd f inst i + n) i

/-- R50: the shadow value of an SH field's copy: the value written since, or the live one. -/
def Dev.shadowGet (d : Dev) (f : Field) (pg i : Nat) : Nat :=
  match SMap.find d.shadow (f.key pg i) with
  | some w => w.toNat
  | none => d.get f pg i

/-- R50: a write to an SH field lands in the shadow set only. -/
def Dev.shadowSet (d : Dev) (f : Field) (pg i v : Nat) : Dev :=
  { d with shadow := SMap.putD d.shadow (f.key pg i) (BitVec.ofNat 32 (v % 2 ^ f.width)) (BitVec.ofNat 32 (d.get f pg i)) }

/-- The shadow value of a register field of an instance of its own page. -/
def Dev.sh (d : Dev) (f : Field) (inst : Nat) (i : Nat := 0) : Nat := d.shadowGet f (f.pg inst) i

/-- The bit keys of a page: its first, and the first of the next page. -/
def pageLo (pg : Nat) : Nat := pg * 4096 * 32
def pageHi (pg : Nat) : Nat := (pg + 1) * 4096 * 32

/-- R52: the shadow set of a page reloaded from the live values. -/
def Dev.reloadShadow (d : Dev) (pg : Nat) : Dev := { d with shadow := SMap.cut d.shadow (pageLo pg) (pageHi pg) }

/-- A register access ends (R43). -/
def Dev.done (d : Dev) (code : Nat) (value : Nat := 0) : Dev := d.send (.completion code value)

/-! R43: the completion codes. -/
def Cc.done : Nat := 0
def Cc.noPage : Nat := 1
def Cc.retired : Nat := 2
def Cc.locked : Nat := 3
def Cc.armed : Nat := 4
def Cc.quiesced : Nat := 5
def Cc.resetting : Nat := 6
def Cc.timeout : Nat := 7
def Cc.uerr : Nat := 8
def Cc.fuseLocked : Nat := 9
def Cc.align : Nat := 10
def Cc.unsupported : Nat := 11
def Cc.denied : Nat := 12

/-! R61: the block states. -/
def Bs.off : Nat := 0
def Bs.idle : Nat := 1
def Bs.run : Nat := 2
def Bs.quiescing : Nat := 3
def Bs.quiesced : Nat := 4
def Bs.resetting : Nat := 5
def Bs.fault : Nat := 6
def Bs.retired : Nat := 7

/-- The class, instance and page of a page number. -/
def pgClass (pg : Nat) : Nat := pg / 65536
def pgInst (pg : Nat) : Nat := (pg / 16) % 4096
def pgPage (pg : Nat) : Nat := pg % 16

/-- R557: PAGE_CAP.SHADOW, LOCKABLE, and QUIESCE with RESET. -/
def capShadow (pg : Nat) : Bool := Reg.shadowPages.contains (pgClass pg, pgPage pg)
def capLock (pg : Nat) : Bool := Reg.lockPages.contains (pgClass pg, pgPage pg)
def capQuiesce (pg : Nat) : Bool := ! [0x0, 0xC, 0xE, 0xF].contains (pgClass pg)

def Dev.info (d : Dev) (pg : Nat) : PageInfo := SMap.at d.pages pg {}
def Dev.setInfo (d : Dev) (pg : Nat) (x : PageInfo) : Dev := { d with pages := SMap.put d.pages pg x }

/-- The block state of a page. -/
def Dev.bs (d : Dev) (pg : Nat) : Nat := d.hd Hdr.STATE pg
/-- R65: DROPS is cleared when the block leaves QUIESCED. -/
def Dev.setBs (d : Dev) (pg v : Nat) : Dev :=
  (d.hw Hdr.DROPS pg (if d.bs pg = Bs.quiesced ∧ v ≠ Bs.quiesced then 0 else d.hd Hdr.DROPS pg)).hw Hdr.STATE pg v

/-- R63, R70: a block that refuses requests and writes that start work. -/
def Dev.refusesWork (d : Dev) (pg : Nat) : Bool := [Bs.quiescing, Bs.quiesced, Bs.fault].contains (d.bs pg)

/-- R61: a block takes up work, and puts its last work down. -/
def Dev.busy (d : Dev) (pg : Nat) : Dev := if d.bs pg = Bs.idle then d.setBs pg Bs.run else d
def Dev.idle (d : Dev) (pg : Nat) : Dev := if d.bs pg = Bs.run then d.setBs pg Bs.idle else d

/-- R62: the outstanding counts of a block, shown in PAGE_STATE.OUTSTANDING. -/
def Dev.setReqs (d : Dev) (pg i o : Nat) : Dev :=
  (d.setInfo pg { d.info pg with reqIn := i, reqOut := o }).hw Hdr.OUTSTANDING pg (sat 16 (i + o))

/-- R65, R66: a reply is discarded and counted. -/
def Dev.dropReply (d : Dev) (pg : Nat) : Dev := d.hw Hdr.DROPS pg (sat 8 (d.hd Hdr.DROPS pg + 1))

/-! ## Events (R71 to R76) -/

/-- R73: the queues the records of a page go to. -/
def queuesOf (pg : Nat) : List Nat :=
  let c := pgClass pg
  let region := pgInst pg / 256
  let die := pgInst pg / 1024
  if c = 1 ∨ c = 2 then [region]
  else if c = 3 then [region, 32]
  else if 4 ≤ c ∧ c ≤ 7 then [16 + die, 32]
  else [32]

/-- R73: how many records a queue holds. -/
def queueCap (q : Nat) : Nat := if q = 32 then 1024 else 256

/-- R74: one record offered to a queue; a full queue loses it and marks the source page. -/
def Dev.offer (d : Dev) (r : EventRec) (q : Nat) : Dev :=
  let e := SMap.at d.queues q {}
  if e.recs.length < queueCap q then { d with queues := SMap.put d.queues q { e with recs := e.recs ++ [r] } }
  else
    { d with queues := SMap.put d.queues q { e with lost := e.lost + 1 } }.hw Hdr.EVT_OVERFLOW r.source 1

/-- R71: the beat an event record carries. -/
def Dev.eventBeat (d : Dev) : Nat := if d.beatSeen then d.g Reg.BEAT_CFG_BEAT_NUM_LO else 0xFFFFFFFF

/-- R72: an event is raised at position `pos` of its page (0–7 COMMON, 8–23 BLOCK). -/
def Dev.raise (d : Dev) (pg code pos sev detail : Nat) : Dev :=
  let f := if pos < 8 then Hdr.EVT_COMMON else Hdr.EVT_BLOCK
  let m := if pos < 8 then Hdr.MASK_COMMON else Hdr.MASK_BLOCK
  let b := if pos < 8 then pos else pos - 8
  let pend := d.hd f pg
  let d1 := d.hw f pg (setBit pend b)
  if bit pend b || bit (d.hd m pg) b then d1
  else
    let r : EventRec := ⟨code, sev, pg, d.eventBeat, detail % 2 ^ 32⟩
    (queuesOf pg).foldl (fun (d : Dev) q => d.offer r q) d1

/-! R71: the severities. -/
def Sev.info : Nat := 0
def Sev.warn : Nat := 1
def Sev.error : Nat := 2
def Sev.fatal : Nat := 3

/-- R46, R76: a corrected error is counted with its source and raised. -/
def Dev.correctedError (d : Dev) (pg src : Nat) : Dev :=
  ((d.hw Hdr.CERR_COUNT pg (sat 16 (d.hd Hdr.CERR_COUNT pg + 1))).hw Hdr.CERR_SRC pg src).raise pg 0x0109 4 Sev.info (src % 256)

/-- R46, R213: PAGE_UERR counts an uncorrectable error with its source. -/
def Dev.uerrCount (d : Dev) (pg src : Nat) : Dev :=
  (d.hw Hdr.UERR_COUNT pg (sat 16 (d.hd Hdr.UERR_COUNT pg + 1))).hw Hdr.UERR_SRC pg src

/-- R46, R76: an uncorrectable error is counted with its source and raised; the detail holds the block state after it. -/
def Dev.uncorrectable (d : Dev) (pg src : Nat) : Dev :=
  let d1 := d.uerrCount pg src
  d1.raise pg 0x010A 5 Sev.error (src % 256 + 256 * d1.bs pg)

/-! ## Votes (R271, R342) -/

/-- A step is running or has been voted on. -/
def Dev.stepOpen (d : Dev) : Bool := d.g Reg.STEP_REC_STATE_PHASE == 1 || d.g Reg.STEP_REC_STATE_PHASE == 2

/-- R271: the package's own vote rises to `v`; `dirty` says that the cause is not numeric. -/
def Dev.voteFor (d : Dev) (v : Nat) (dirty : Bool) : Dev :=
  if d.stepOpen then
    let d := (d.p Reg.STEP_REC_STATE_PHASE 2).p Reg.STEP_REC_STATE_VOTE (max v (d.g Reg.STEP_REC_STATE_VOTE))
    { d with step := { d.step with dirty := d.step.dirty || dirty } }
  else d
def Dev.voteFail (d : Dev) : Dev := d.voteFor 3 true
def Dev.voteReplay (d : Dev) : Dev := d.voteFor 2 true

/-- R143, R174, R197, R216, R271: the training step in progress never commits: the package's vote is REPLAY, at once. -/
def Dev.spoil (d : Dev) : Dev := { d with spoiled := true }.voteReplay

/-- R59: an LK write is refused: recorded with its word, and raised. -/
def Dev.lockRefused (d : Dev) (pg off : Nat) : Dev :=
  ((d.hw Hdr.LOCK_REFUSED pg 1).hw Hdr.LOCK_WORD pg (off / 4)).raise pg 0x0105 1 Sev.warn (off / 4)

/-! ## Time (R244, R245, R560) -/

/-- The live beat period in units of 100 ns. -/
def Dev.period (d : Dev) : Nat := 100 * d.g Reg.BEAT_CFG_PERIOD

/-- R245: the window of a phase: 0 compute before T_X, 1 exchange, 2 slack. -/
def Dev.windowAt (d : Dev) (ph : Nat) : Nat :=
  if d.g Reg.BEAT_CFG_T_S ≤ ph then 2 else if d.g Reg.BEAT_CFG_T_X ≤ ph then 1 else 0

/-- R61, R69: a page enters RESETTING and stays there until `t`. -/
def Dev.enterReset (d : Dev) (pg t : Nat) (ev : Bool) : Dev :=
  { d with resetting := d.resetting.filter (fun x : Nat × Nat × Bool => x.1 ≠ pg) ++ [(pg, t, ev)] }.setBs pg Bs.resetting

/-- R69: the reset of one page ends in OFF, or, where EN has been written since, in IDLE. -/
def Dev.endReset (d : Dev) (x : Nat × Nat × Bool) : Dev :=
  if d.bs x.1 ≠ Bs.resetting then d
  else
    let d := d.setBs x.1 (if d.hd Hdr.CTL_EN x.1 = 1 then Bs.idle else Bs.off)
    if x.2.2 then d.raise x.1 0x0108 3 Sev.info 0 else d

/-- R541, R559: the top block of a domain. -/
def domTop (dom inst : Nat) : Nat := pageNum ([0, 4, 3, 2, 6, 7, 5].getD dom 0) inst 0

/-- R544: 0x0F04. -/
def Dev.restoredEvent (d : Dev) (b : BackReq) : Dev := d.raise (pageNum 0xF 0 1) 0x0F04 9 Sev.info (b.dom + 16 * b.inst + 65536 * b.src)

/-- R541 step 3: the domains that await no test and whose reset has run out are back in service. -/
def Dev.domainsBack (d : Dev) : Dev :=
  let done := fun (b : BackReq) => b.left.isEmpty && ! d.resetting.any fun x => x.1 == domTop b.dom b.inst
  (d.rst.back.filter done).foldl Dev.restoredEvent { d with rst := { d.rst with back := d.rst.back.filter fun b => ! done b } }

/-- The resets that have run out by now. -/
def Dev.endResets (d : Dev) : Dev :=
  let due := d.resetting.filter fun x => decide (x.2.1 ≤ d.now)
  if due = [] then d
  else (due.foldl Dev.endReset { d with resetting := d.resetting.filter fun x => decide (d.now < x.2.1) }).domainsBack

/-- Time passes up to `t`: the phase advances while the beat timer runs, short of the next boundary (assumption 1), and resets run out. -/
def Dev.passTo (d : Dev) (t : Nat) : Dev :=
  if t ≤ d.now then d
  else
    let ph := min (d.g Reg.BEAT_CFG_PHASE + (t - d.now)) (d.period - 1)
    let d1 := { d with now := t }
    (if d.timerOn then (d1.p Reg.BEAT_CFG_PHASE ph).p Reg.BEAT_CFG_STATUS_WINDOW (d.windowAt ph) else d1).endResets

/-- R5, R529: hardware acts only while the package is out of reset. -/
def Dev.whenUp (d : Dev) (f : Dev → Dev) : Dev := if d.rst.held || decide (d.now < d.rst.runsTo) then d else f d

/-- R5, R536, R560: the managers act only once the keeper runs, from SL1 on. -/
def Dev.level (d : Dev) : Nat := d.g Reg.BRINGUP_LEVEL
def Dev.whenKept (d : Dev) (f : Dev → Dev) : Dev := if d.level = 0 then d else f d

/-- Microseconds and milliseconds in units of 100 ns. -/
def us (n : Nat) : Nat := 10 * n
def ms (n : Nat) : Nat := 10000 * n

/-- The current beat number (R249). -/
def Dev.beatNum (d : Dev) : Nat := d.g64 Reg.BEAT_CFG_BEAT_NUM_LO Reg.BEAT_CFG_BEAT_NUM_HI

/-- The time of the next beat boundary, when the timer runs. -/
def Dev.nextBoundary (d : Dev) : Nat := d.now + (d.period - d.g Reg.BEAT_CFG_PHASE)

/-- R51, R57: the first beat boundary at least `margin` after `t`, seen from now. -/
def Dev.boundaryAfter (d : Dev) (t margin : Nat) : Nat :=
  if t + margin ≤ d.boundary ∧ d.beatSeen then d.boundary
  else
    let b := d.nextBoundary
    if t + margin ≤ b then b
    else b + ((t + margin - b + d.period - 1) / max 1 d.period) * d.period

/-- R451: the clock of an operating point in MHz. -/
def opMhz (op : Nat) : Nat := [100, 200, 300, 400, 500, 600, 650, 700, 750, 800, 850, 900, 950, 1000, 1050, 1100].getD op 1100

/-- How long a count of a region's clock cycles takes, in units of 100 ns, rounded up. -/
def Dev.cyclesTime (d : Dev) (region n : Nat) : Nat :=
  let f := opMhz (d.rd Reg.RCLOCK_OP region)
  (n * 10 + f - 1) / f

/-! ## Free values (assumption 2) -/

/-- The next free value is drawn: the counter it is named by, and the device with the counter advanced. -/
def Dev.draw (d : Dev) : Nat × Dev := (d.free, { d with free := d.free + 1 })

/-- `n` free bytes. -/
def Dev.freeBytes (d : Dev) (n : Nat) : List Byte × Dev := ((List.range n).map fun i => Config.freeByte (d.free + i), { d with free := d.free + n })

/-- `n` bytes from an address hold no defined value any more. -/
def Dev.undefine (d : Dev) (a n : Nat) : Dev := let x := d.freeBytes n; x.2.poke a x.1

/-! ## Units, clusters, stores -/

def Dev.unit (d : Dev) (u : Nat) : UnitSt := SMap.at d.units u {}
def Dev.setUnit (d : Dev) (u : Nat) (x : UnitSt) : Dev := { d with units := SMap.put d.units u x }
def Dev.cluster (d : Dev) (c : Nat) : ClusterSt := SMap.at d.clusters c {}
def Dev.setCluster (d : Dev) (c : Nat) (x : ClusterSt) : Dev := { d with clusters := SMap.put d.clusters c x }

/-- R33: the unit number, the cluster, the region and the die of a unit coordinate. -/
def unitNo (u : Nat) : Nat := u % 32
def clusterOf (u : Nat) : Nat := u - u % 32
def regionOf (u : Nat) : Nat := u - u % 256
def dieOf (u : Nat) : Nat := u / 1024

/-- R33: a coordinate that names a unit of the package. -/
def unitOk (u : Nat) : Bool := decide (u < 4096 ∧ unitNo u ≤ 16)

/-- The store's one address space: where each local store, instruction store, larder and HBM stack begins. -/
def lsBase (u : Nat) : Nat := u * 2 ^ 19
def isBase (u : Nat) : Nat := 2 ^ 32 + u * 2 ^ 16
def larderBase (r : Nat) : Nat := 2 ^ 33 + (r / 256) * 2 ^ 24
def hbmBase (stack : Nat) : Nat := 2 ^ 40 + stack * 2 ^ 36

/-- R27, R221: the sizes of the stores in bytes. -/
def lsSize : Nat := 2 ^ 19
def isSize : Nat := 2 ^ 16
def larderSize : Nat := 2 ^ 24
def granule : Nat := 2 ^ 24

/-- R38: the instance number of HBM stack `s`, link port `l` and host port `h`. -/
def hbmInst (s : Nat) : Nat := (s / 2) * 1024 + s % 2
def linkInst (l : Nat) : Nat := (l / 8) * 1024 + l % 8
def hostInst (h : Nat) : Nat := (h % 4) * 1024 + h / 4

/-! The page numbers of the unit pages, and of the other pages that meanings name. -/
def pgSeq (u : Nat) : Nat := pageNum 1 u 0
def pgMatrix (u : Nat) : Nat := pageNum 1 u 1
def pgVector (u : Nat) : Nat := pageNum 1 u 2
def pgLstore (u : Nat) : Nat := pageNum 1 u 3
def pgIstore (u : Nat) : Nat := pageNum 1 u 4
def pgGang (c : Nat) : Nat := pageNum 2 c 1
def pgCmove (c : Nat) : Nat := pageNum 2 c 2
def pgRcore (r : Nat) : Nat := pageNum 3 r 0
def pgLarder (r : Nat) : Nat := pageNum 3 r 1
def pgRclock (r : Nat) : Nat := pageNum 3 r 2
def pgCompress (r : Nat) : Nat := pageNum 3 r 3
def pgRmove (r : Nat) : Nat := pageNum 3 r 4

/-- Every unit coordinate, cluster, region and die of the package. -/
def allDies : List Nat := (List.range 4).map (· * 1024)
def allRegions : List Nat := (List.range 16).map (· * 256)
def clustersOf (r : Nat) : List Nat := (List.range 8).map (fun c => r + c * 32)
def unitsOf (c : Nat) : List Nat := (List.range 17).map (fun u => c + u)

end Sys2Proof.Machine
end

