-- ==== Sys2Proof/Machine/Beat.lean ====
section
/-! DEFINITION. Step votes, the beat source, beat markers and the beat lock (R244 to R273). -/

namespace Sys2Proof.Machine

def pgBeatCfg : Nat := pageNum 8 0 0
def pgBeatLock : Nat := pageNum 8 0 1
def pgStepRec : Nat := pageNum 8 0 2

/-! ## Claims (R258, R259, R266) -/

def Dev.lockState (d : Dev) : Nat := d.g Reg.BEAT_LOCK_STATE
def Dev.selfAddr (d : Dev) : Nat := d.g Reg.DRAFT_SELF_ADDR

/-- R389: the ports in UP or DEGRADED, and whether one is. -/
def Dev.portLive (d : Dev) (p : Nat) : Bool := [3, 4].contains (d.rd Reg.LINK_PHY_STATE (linkInst p))
def Dev.livePorts (d : Dev) : List Nat := (List.range 32).filter d.portLive

/-- R258: a claim is a priority and an address; the better of two. -/
def claimLt (a b : Nat × Nat) : Bool := decide (a.1 < b.1 ∨ a.1 = b.1 ∧ a.2 < b.2)

/-- R258: the package's own claim. -/
def Dev.ownClaim (d : Dev) : Option (Nat × Nat) :=
  if d.g Reg.BEAT_LOCK_CANDIDATE = 1 ∧ d.selfAddr ≠ 0x3FFFF then some (d.g Reg.BEAT_LOCK_PRIORITY, d.selfAddr) else none

/-- R258, R260, R266: the claim that the package's markers carry: the adopted one while it is the package's own or still heard from an upstream, otherwise
none. -/
def Dev.sentClaim (d : Dev) : Nat × Nat :=
  let c := (d.g Reg.BEAT_LOCK_SOURCE_PRIO, d.g Reg.BEAT_LOCK_SOURCE)
  if d.beat.source ∨ d.g Reg.BEAT_LOCK_UPSTREAM ≠ 63 ∨ d.ownClaim = some c then c else (255, 0x3FFFF)

def Mark.claim (k : Mark) : Nat × Nat := (k.m.prio.toNat, k.m.source.toNat)

/-- R266: the claims still heard: markers not older than SOURCE_TIMEOUT beats that carry a claim the package may adopt. -/
def Dev.heard (d : Dev) : List (Nat × Mark) :=
  d.beat.marks.filter fun pk =>
    decide (d.now < pk.2.heardAt + (d.g Reg.BEAT_LOCK_SOURCE_TIMEOUT + 1) * d.period) && pk.2.m.source.toNat != 0x3FFFF &&
      d.beat.former != some pk.2.m.source.toNat

/-- R258, R259: the best claim heard, with the port and the hops of its upstream. -/
def bestHeard : List (Nat × Mark) → Option ((Nat × Nat) × Nat × Nat)
  | [] => none
  | (p, k) :: ks =>
    let r := (k.claim, p, k.m.hops.toNat)
    match bestHeard ks with
    | none => some r
    | some b =>
      if claimLt b.1 r.1 then some b
      else if b.1 = r.1 ∧ b.2.2 < r.2.2 then some b
      else some r

/-- The claim adopted is written with its upstream and hops; a change of source is counted and reported (R266). -/
def Dev.adopt (d : Dev) (c : Nat × Nat) (up hops : Nat) : Dev :=
  let old := d.g Reg.BEAT_LOCK_SOURCE
  let d := (((d.p Reg.BEAT_LOCK_SOURCE c.2).p Reg.BEAT_LOCK_SOURCE_PRIO c.1).p Reg.BEAT_LOCK_UPSTREAM up).p Reg.BEAT_LOCK_HOPS hops
  if old ≠ 0x3FFFF ∧ old ≠ c.2 then (d.bump Reg.BEAT_LOCK_SOURCE_CHANGES 0).raise pgBeatLock 0x0604 11 Sev.info c.2 else d

/-- R260: every port in UP or DEGRADED carries the package's own claim. -/
def Dev.confirmed (d : Dev) (c : Nat × Nat) : Bool :=
  d.livePorts.all fun p => match SMap.find d.beat.marks p with | some k => k.claim == c | none => false

/-- R260: entry to LOCKED and to HOLDOVER. -/
def Dev.enterLocked (d : Dev) : Dev :=
  (d.p Reg.BEAT_LOCK_STATE 2).raise pgBeatLock 0x0601 8 Sev.info (d.g Reg.BEAT_LOCK_SOURCE + 2 ^ 18 * d.g Reg.BEAT_LOCK_HOPS)
def Dev.enterHoldover (d : Dev) (port : Nat) : Dev :=
  let d := { d with beat := { d.beat with holdAt := d.now, source := false } }
  (d.p Reg.BEAT_LOCK_STATE 3).raise pgBeatLock 0x0602 9 Sev.warn port

/-- R260: entry to ACQUIRE; `fail` says that the package had been locked. -/
def Dev.enterAcquire (d : Dev) (fail : Bool) : Dev :=
  let d := { d with beat := { d.beat with samples := [], run := 0, source := false } }
  let d := d.p Reg.BEAT_LOCK_STATE 1
  if fail then d.voteFail else d

/-- R258 to R260, R266: election over the claims heard and the package's own. -/
def Dev.elect (d : Dev) : Dev :=
  let st := d.lockState
  let own (c : Nat × Nat) : Dev :=
    let d1 := d.adopt c 63 0
    if st = 2 ∧ d.beat.source then d1
    else if st ≠ 4 ∧ d.confirmed c then { d1 with beat := { d1.beat with source := true, former := none } }.enterLocked
    else if st = 1 then d1.p Reg.BEAT_LOCK_STATE 0
    else if st = 2 then d1.enterHoldover 63
    else d1
  match d.ownClaim, bestHeard d.heard with
  | none, none => if st = 2 ∧ ! d.beat.source then d.enterHoldover (d.g Reg.BEAT_LOCK_UPSTREAM) else d
  | some c, none => own c
  | oc, some b =>
    match oc with
    | some c => if ! claimLt b.1 c then own c else follow d st b
    | none => follow d st b
where
  /-- A heard claim is the best: the package follows its upstream. -/
  follow (d : Dev) (st : Nat) (b : (Nat × Nat) × Nat × Nat) : Dev :=
    let changed := d.g Reg.BEAT_LOCK_SOURCE != b.1.2
    let differs := ((SMap.find d.beat.marks b.2.1).map (·.differs)).getD false
    let d1 := d.adopt b.1 b.2.1 (b.2.2 + 1)
    if st = 0 then d1.enterAcquire false
    else if (st = 2 ∨ st = 3) ∧ changed then
      (if differs then d1.enterAcquire true else { d1 with beat := { d1.beat with source := false, lastOk := d.now } })
    else d1

/-! ## Markers (R260, R261, R267) -/

/-- R267: the median of the last accepted samples. -/
def median : List Int → Int
  | [a, b, c] => max (min a b) (min (max a b) c)
  | a :: _ => a
  | [] => 0

def Dev.sample (d : Dev) (e : Int) (rate : Nat) : Dev :=
  let s := (e :: d.beat.samples).take 3
  let d := { d with beat := { d.beat with samples := s, lastOk := d.now } }
  (d.p Reg.BEAT_LOCK_PHASE_ERR (wrapI 16 (median s))).p Reg.BEAT_LOCK_RATE_PPB rate

def Dev.rejectMarker (d : Dev) (port row : Nat) : Dev := d.raise pgBeatLock 0x0605 12 Sev.warn (port + 64 * row)
def Dev.periodMismatch (d : Dev) (per : Nat) : Dev :=
  d.raise pgBeatLock 0x0606 13 Sev.warn (per + 256 * d.g Reg.BEAT_CFG_PERIOD)

/-- R267: a marker's period lies within the size table's range. -/
def Dev.periodOk (d : Dev) (per : Nat) : Bool :=
  decide (d.g Reg.SIZE_TABLE_ST_BEAT_MIN ≤ per ∧ per ≤ d.g Reg.SIZE_TABLE_ST_BEAT_MAX)

/-- R261: the boundary is set from the upstream marker: its send time plus the delay ago. -/
def Dev.stepPhase (d : Dev) (port : Nat) (m : Marker) : Dev :=
  let ph := min ((m.sendOffset.toNat + d.g Reg.BEAT_LOCK_DELAY_VALUE port) / 200) (d.period - 1)
  ({ d with boundary := d.now - ph }.p Reg.BEAT_CFG_PHASE ph).p Reg.BEAT_CFG_STATUS_WINDOW (d.windowAt ph)

/-- R261: on entry to LOCKED, BEAT_NUM and PERIOD are the upstream marker's. -/
def Dev.takeBeat (d : Dev) (m : Marker) : Dev :=
  (d.p64 Reg.BEAT_CFG_BEAT_NUM_LO Reg.BEAT_CFG_BEAT_NUM_HI m.beat.toNat).p Reg.BEAT_CFG_PERIOD m.period.toNat

/-- The marker of the upstream port disciplines the timer: in ACQUIRE towards lock, in LOCKED and HOLDOVER as a checked
sample. `e` is the phase error in 0.5 ns units. -/
def Dev.discipline (d : Dev) (port : Nat) (m : Marker) (e : Int) (rate : Nat) : Dev :=
  let st := d.lockState
  let per := m.period.toNat
  if st = 1 then
    if ! d.periodOk per then d.periodMismatch per
    else
      let d := (d.stepPhase port m).sample e rate
      let n := if (median d.beat.samples).natAbs ≤ 40 then d.beat.run + 1 else 0
      let d := { d with beat := { d.beat with run := n } }
      if d.g Reg.BEAT_LOCK_LOCK_COUNT ≤ n then (d.takeBeat m).enterLocked else d
  else if st = 2 ∨ st = 3 then
    if per ≠ d.g Reg.BEAT_CFG_PERIOD then
      (if st = 2 then (d.periodMismatch per).enterAcquire true else d.periodMismatch per)
    else if m.beat.toNat ≠ d.beatNum then d.rejectMarker port 1
    else if 2000 < e.natAbs then d.rejectMarker port 0
    else
      let d := d.sample e rate
      if st = 3 ∧ (median d.beat.samples).natAbs ≤ 40 then d.p Reg.BEAT_LOCK_STATE 2 else d
  else if st = 4 then (if d.periodOk per then d.enterAcquire false else d.periodMismatch per)
  else d

/-- R273: the decision of the upstream port is taken for the running step. -/
def Dev.hearDecision (d : Dev) (m : Marker) : Dev :=
  if m.decision.toNat ≠ 0 ∧ m.step.toNat = d.g Reg.STEP_REC_STEP_LO ∧ d.step.dec = none ∧ d.stepOpen then
    { d with step := { d.step with dec := some (m.decision.toNat, m.decDirty, m.apply.toNat) } }
  else d

/-- BEAT_MARKER: a marker that passed its CRC arrives on a port. -/
def Dev.beatMarker (port : Nat) (crcOk : Bool) (m : Marker) (e : Int) (rate : Nat) (d : Dev) : Dev :=
  if ! crcOk || ! d.portLive port || ! d.timerOn then d
  else if 64 < m.hops.toNat then d.raise pgBeatLock 0x060D 14 Sev.error port
  else
    let differs := m.beat.toNat != d.beatNum || m.period.toNat != d.g Reg.BEAT_CFG_PERIOD || decide (2000 < e.natAbs)
    let d := { d with beat := { d.beat with marks := SMap.put d.beat.marks port ⟨m, d.now, differs⟩ } }.elect
    if d.g Reg.BEAT_LOCK_UPSTREAM = port ∧ ! d.beat.source then
      let d := if (m.prio.toNat, m.source.toNat) = (d.g Reg.BEAT_LOCK_SOURCE_PRIO, d.g Reg.BEAT_LOCK_SOURCE) then
        { d with beat := { d.beat with lastClaim := d.now } } else d
      (d.discipline port m e rate).hearDecision m
    else d

/-- R260: MARKER_TIMEOUT beats without an accepted marker. -/
def Dev.markerTimeout (d : Dev) : Dev :=
  if d.lockState = 2 ∧ ! d.beat.source then
    (d.passTo (d.beat.lastOk + d.g Reg.BEAT_LOCK_MARKER_TIMEOUT * d.period)).enterHoldover (d.g Reg.BEAT_LOCK_UPSTREAM)
  else d

/-- R260, R267, R482: entry to LOST. -/
def Dev.enterLost (d : Dev) (why : Nat) : Dev :=
  let d := ((d.p Reg.BEAT_LOCK_STATE 4).bump Reg.BEAT_LOCK_LOCK_LOSSES 0).voteFail
  let d := { d with beat := { d.beat with source := false } }
  d.raise pgBeatLock 0x0603 10 Sev.error why

/-- R260: HOLD_LIMIT beats of holdover. -/
def Dev.holdLimitExpiry (d : Dev) : Dev :=
  if d.lockState = 3 then (d.passTo (d.beat.holdAt + d.g Reg.BEAT_LOCK_HOLD_LIMIT * d.period)).enterLost 0 else d

/-- R266: the adopted claim has not been refreshed on the upstream port for SOURCE_TIMEOUT beats: it is dropped and the election
runs on the claims still heard, the timer held meanwhile. -/
def Dev.sourceTimeout (d : Dev) : Dev :=
  if d.beat.source ∨ d.g Reg.BEAT_LOCK_UPSTREAM = 63 then d
  else
    let src := d.g Reg.BEAT_LOCK_SOURCE
    let d := d.passTo (d.beat.lastClaim + d.g Reg.BEAT_LOCK_SOURCE_TIMEOUT * d.period)
    let d := { d with beat := { d.beat with marks := d.beat.marks.filter fun pk => pk.2.m.source.toNat != src } }
    let d := if d.lockState = 2 then d.enterHoldover (d.g Reg.BEAT_LOCK_UPSTREAM) else d
    (d.p Reg.BEAT_LOCK_UPSTREAM 63).elect

/-- R260: the source stops making its claim. -/
def Dev.sourceWithdraws (d : Dev) : Dev :=
  if d.beat.source ∧ d.ownClaim.map (·.2) ≠ some (d.g Reg.BEAT_LOCK_SOURCE) then
    let d := { d with beat := { d.beat with former := some (d.g Reg.BEAT_LOCK_SOURCE) } }
    d.enterHoldover 63
  else d

/-- R245: T_X is reached. -/
def Dev.exchangeWindowStart (d : Dev) : Dev :=
  if d.timerOn ∧ d.g Reg.BEAT_CFG_PHASE < d.g Reg.BEAT_CFG_T_X then
    d.passTo (d.now + (d.g Reg.BEAT_CFG_T_X - d.g Reg.BEAT_CFG_PHASE))
  else d

def execExchangeWindowStart (s : State) : Host.Outcome State Fault Refusal := runDev s Dev.exchangeWindowStart

def execBeatMarker (port : BitVec 5) (crcOk : Bool) (m : Marker) (phase rate : BitVec 32) (s : State) :
    Host.Outcome State Fault Refusal :=
  runDev s (Dev.beatMarker port.toNat crcOk m phase.toInt rate.toNat)

def execMarkerTimeout (s : State) : Host.Outcome State Fault Refusal := runDev s Dev.markerTimeout

def execHoldLimitExpiry (s : State) : Host.Outcome State Fault Refusal := runDev s Dev.holdLimitExpiry

def execSourceTimeout (s : State) : Host.Outcome State Fault Refusal := runDev s Dev.sourceTimeout

end Sys2Proof.Machine
end

