-- ==== Sys2Proof/Machine/DraftForm.lean ====
section
/-! DEFINITION. The fields of drafts, of kernel images and of route tables (R209, R294 to R300, R385 to R387, R396). -/

namespace Sys2Proof.Machine

/-! ## Fields of byte sequences -/

/-- The little-endian number of `n` bytes at offset `o`. -/
def fld (b : List Byte) (o n : Nat) : Nat := leNat ((b.drop o).take n)

/-- A byte sequence with the 32-bit field at `o` taken as zero, for its CRC. -/
def zeroed (b : List Byte) (o : Nat) : List Byte := b.take o ++ [0, 0, 0, 0] ++ b.drop (o + 4)

/-- Insertion into a sorted list, and a stable sort by a reflexive order. -/
def insertBy {α : Type} (lt : α → α → Bool) (x : α) : List α → List α
  | [] => [x]
  | y :: ys => if lt x y then x :: y :: ys else y :: insertBy lt x ys
def sortBy {α : Type} (lt : α → α → Bool) (xs : List α) : List α := xs.foldr (insertBy lt) []

/-- Whether the bytes from `o` to `e` are all zero. -/
def allZero (b : List Byte) (o e : Nat) : Bool := ((b.drop o).take (e - o)).all (· == 0)

/-- A register word of a page from its listed fields. -/
def Dev.word (d : Dev) (fs : List Field) (pg : Nat) : Nat := fs.foldl (fun a f => a + d.get f pg 0 * 2 ^ f.lo) 0

/-! ## The draft (R294 to R301) -/

namespace Dr
def degData (b : List Byte) : Nat := fld b 0x18 2
def degModel (b : List Byte) : Nat := fld b 0x1A 2
def degPipe (b : List Byte) : Nat := fld b 0x1C 2
def nMembers (b : List Byte) : Nat := degData b * degModel b * degPipe b
def nSpares (b : List Byte) : Nat := fld b 0x20 3 % 2 ^ 18
def opPlan (b : List Byte) : Nat := fld b 0x24 1 % 16
def single (b : List Byte) : Bool := bit (fld b 0x24 1) 4
def sliceAllow (b : List Byte) : Bool := bit (fld b 0x24 1) 5
def stepBeats (b : List Byte) : Nat := fld b 0x28 2
def drainSteps (b : List Byte) : Nat := fld b 0x2C 2
def drainShared (b : List Byte) : Nat := fld b 0x2E 2
def nTensors (b : List Byte) : Nat := fld b 0x30 3
def nStages (b : List Byte) : Nat := fld b 0x34 2
def nKernels (b : List Byte) : Nat := fld b 0x36 2
def nReductions (b : List Byte) : Nat := fld b 0x38 3
def nBindings (b : List Byte) : Nat := fld b 0x3C 4
def sect (b : List Byte) (i : Nat) : Nat := fld b (0x40 + 4 * i) 4

/-- Field `o`, `n` bytes, of entry `i` of a section with entries of `size` bytes. -/
def entry (b : List Byte) (s size i o n : Nat) : Nat := fld b (sect b s + size * i + o) n

/-- R295: members and spares: address and feed group. -/
def memberWord (b : List Byte) (i : Nat) : Nat := entry b 0 4 i 0 4
def spareWord (b : List Byte) (i : Nat) : Nat := entry b 1 4 i 0 4
def addrOf (w : Nat) : Nat := w % 2 ^ 18
def feedOf (w : Nat) : Nat := bits w 18 6
def coords (b : List Byte) (i : Nat) : Nat × Nat × Nat :=
  (i % degData b, i / degData b % degModel b, i / (degData b * degModel b))

/-- R296: tensors. -/
def tensor (b : List Byte) (i o n : Nat) : Nat := entry b 2 32 i o n
def tId (b : List Byte) (i : Nat) : Nat := tensor b i 0 3
def tFmt (b : List Byte) (i : Nat) : Nat := tensor b i 3 1 % 16
def tKind (b : List Byte) (i : Nat) : Nat := tensor b i 3 1 / 16
def tRows (b : List Byte) (i : Nat) : Nat := tensor b i 4 4
def tCols (b : List Byte) (i : Nat) : Nat := tensor b i 8 4
def tPolicy (b : List Byte) (i : Nat) : Nat := tensor b i 0xC 2
def tSave (b : List Byte) (i : Nat) : Nat := bits (tensor b i 0xC 4) 16 2
def tSplit (b : List Byte) (i : Nat) : Nat := bits (tensor b i 0xC 4) 18 2
def tSplitCols (b : List Byte) (i : Nat) : Bool := bit (tensor b i 0xC 4) 20
def tPipe (b : List Byte) (i : Nat) : Nat := tensor b i 0x10 2
def tCellar (b : List Byte) (i : Nat) : Nat := tensor b i 0x14 4

/-- R296: the rows and columns that a package with given coordinates holds of a tensor. -/
def local' (b : List Byte) (c : Nat × Nat × Nat) (i : Nat) : Nat × Nat :=
  let cut := fun (n dg j : Nat) => let q := (n + dg - 1) / max 1 dg; min q (n - j * q)
  let dg := if tSplit b i = 1 then degData b else if tSplit b i = 2 then degModel b else 1
  let j := if tSplit b i = 1 then c.1 else if tSplit b i = 2 then c.2.1 else 0
  if tPipe b i ≠ 0xFFFF ∧ tPipe b i ≠ c.2.2 then (0, 0)
  else if tSplitCols b i then (tRows b i, cut (tCols b i) dg j) else (cut (tRows b i) dg j, tCols b i)
def elems (b : List Byte) (c : Nat × Nat × Nat) (i : Nat) : Nat := let x := local' b c i; x.1 * x.2

/-- R297: stages. -/
def stage (b : List Byte) (i o n : Nat) : Nat := entry b 3 32 i o n
def sKernel (b : List Byte) (i : Nat) : Nat := stage b i 0 2
def sAlt (b : List Byte) (i : Nat) : Nat := stage b i 2 2
def sInst (b : List Byte) (i : Nat) : Nat := stage b i 4 3
def sResident (b : List Byte) (i : Nat) : Bool := bit (stage b i 7 1) 0
def sSliceable (b : List Byte) (i : Nat) : Bool := bit (stage b i 7 1) 1
def sHandoff (b : List Byte) (i : Nat) : Bool := bit (stage b i 7 1) 2
def sSegs (b : List Byte) (i : Nat) : Nat := stage b i 8 2
def sPipe (b : List Byte) (i : Nat) : Nat := stage b i 0xA 2
def sFirst (b : List Byte) (i : Nat) : Nat := stage b i 0xC 2
def sLast (b : List Byte) (i : Nat) : Nat := stage b i 0xE 2

/-- R298: kernel images. -/
def image (b : List Byte) (k : Nat) : List Byte :=
  (b.drop (sect b 4 + entry b 4 8 k 0 4)).take (entry b 4 8 k 4 4)

/-- R299: reductions. -/
def red (b : List Byte) (i o n : Nat) : Nat := entry b 5 16 i o n
def rId (b : List Byte) (i : Nat) : Nat := red b i 0 3
def rTensor (b : List Byte) (i : Nat) : Nat := red b i 4 3
def rWire (b : List Byte) (i : Nat) : Nat := red b i 7 1 % 16
def rDrop (b : List Byte) (i : Nat) : Bool := bit (red b i 7 1) 4
def rDeadline (b : List Byte) (i : Nat) : Nat := red b i 8 2
def rKeep (b : List Byte) (i : Nat) : Nat := bits (red b i 8 4) 16 13
def rAxis (b : List Byte) (i : Nat) : Nat := red b i 0xC 1 % 4

/-- R300: bindings. -/
def bind' (b : List Byte) (i o n : Nat) : Nat := entry b 6 16 i o n

/-- The index of the tensor with an id, and of the reduction with an id. -/
def tensorIdx (b : List Byte) (id : Nat) : Option Nat := (List.range (nTensors b)).find? fun i => tId b i == id
def redIdx (b : List Byte) (id : Nat) : Option Nat := (List.range (nReductions b)).find? fun i => rId b i == id

/-- R363: the exchange start of a pipeline index, and the earliest deadline. -/
def minDeadline (b : List Byte) : Nat := (List.range (nReductions b)).foldl (fun a i => min a (rDeadline b i)) 65536
def exchangeStart (b : List Byte) (p : Nat) : Nat :=
  1 + (List.range (nStages b)).foldl (fun a i =>
    if (sPipe b i = p ∨ sPipe b i = 0xFFFF) ∧ sLast b i < minDeadline b then max a (sLast b i) else a) 0
end Dr

/-! ## Kernel images (R209 to R211) -/

namespace Im
def nBundles (m : List Byte) : Nat := fld m 0x10 2
def nSegs (m : List Byte) : Nat := fld m 0x12 2
def nRelocs (m : List Byte) : Nat := fld m 0x14 2
def nSyms (m : List Byte) : Nat := fld m 0x16 2
def entryIdx (m : List Byte) : Nat := fld m 0x18 2
def lsUnits (m : List Byte) : Nat := fld m 0x1A 2
def gangRows (m : List Byte) : Nat := fld m 0x1C 1 % 4
def gangCols (m : List Byte) : Nat := bits (fld m 0x1C 1) 2 3
def attrs (m : List Byte) : Nat := bits (fld m 0x1C 1) 5 3
def slots (m : List Byte) : List Nat := (List.range (nBundles m + nSegs m)).map fun i => fld m (64 + 32 * i) 32
def reloc (m : List Byte) (i o n : Nat) : Nat := fld m (64 + 32 * (nBundles m + nSegs m) + 12 * i + o) n
def sym (m : List Byte) (i : Nat) : Nat := fld m (64 + 32 * (nBundles m + nSegs m) + 12 * nRelocs m + 8 * i) 4
def symRsv (m : List Byte) (i : Nat) : Nat := fld m (64 + 32 * (nBundles m + nSegs m) + 12 * nRelocs m + 8 * i + 4) 4
def size (m : List Byte) : Nat := 64 + 32 * (nBundles m + nSegs m) + 12 * nRelocs m + 8 * nSyms m
end Im

/-! ## Topology (R385 to R387) -/

/-- The sizes of the torus, from TOPO's coding, and their product. -/
def topoN (topo i : Nat) : Nat := bits topo (8 * i) 8
def topoSize (topo : Nat) : Nat := topoN topo 0 * topoN topo 1 * topoN topo 2 * topoN topo 3

/-- R386: the coordinate of an address in a dimension, and the stride of the dimension. -/
def topoStride (topo i : Nat) : Nat := ((List.range i).map (topoN topo)).prod
def coordOf (topo a i : Nat) : Nat := a / topoStride topo i % max 1 (topoN topo i)

/-- R387: the neighbour of an address in a dimension and direction (0 plus, 1 minus). -/
def neighbour (topo a i dir : Nat) : Nat :=
  let n := max 1 (topoN topo i)
  let c := coordOf topo a i
  let c' := if dir = 0 then (c + 1) % n else (c + n - 1) % n
  a - c * topoStride topo i + c' * topoStride topo i

/-! ## Route tables (R396 to R401) -/

namespace Rt
def nFlows (t : List Byte) : Nat := fld t 0x14 4
def nEntries (t : List Byte) : Nat := fld t 0x18 4
def topo (t : List Byte) : Nat := fld t 0x1C 4
def tx (t : List Byte) : Nat := fld t 0x20 2 % 2 ^ 15
def ts (t : List Byte) : Nat := fld t 0x24 2 % 2 ^ 15
def flow (t : List Byte) (i o n : Nat) : Nat := fld t (64 + 32 * i + o) n
def fId (t : List Byte) (i : Nat) : Nat := flow t i 0 3
def fContrib (t : List Byte) (i : Nat) : Bool := flow t i 3 1 % 16 == 0
def fVar (t : List Byte) (i : Nat) : Bool := fContrib t i && bit (flow t i 3 1) 4
def fSrc (t : List Byte) (i : Nat) : Nat := flow t i 4 3 % 2 ^ 18
def fDst (t : List Byte) (i : Nat) : Nat := flow t i 8 3 % 2 ^ 18
def fObject (t : List Byte) (i : Nat) : Nat := flow t i 0xC 3
def fWhere (t : List Byte) (i : Nat) : Nat := flow t i 0x10 4
def fBytes (t : List Byte) (i : Nat) : Nat := flow t i 0x14 4
def fAttic (t : List Byte) (i : Nat) : Nat := flow t i 0x18 4
def flowIdx (t : List Byte) (id : Nat) : Option Nat := (List.range (nFlows t)).find? fun i => fId t i == id
def slot (t : List Byte) (i : Nat) : Nat := fld t (64 + 32 * nFlows t + 16 * i) 16
def pbeat (e : Nat) : Nat := bits e 0 16
def outSlot (e : Nat) : Nat := bits e 16 16
def bundle (e : Nat) : Nat := bits e 32 3
def pos (e : Nat) : Nat := bits e 35 2
def role (e : Nat) : Nat := bits e 37 2
def eFlow (e : Nat) : Nat := bits e 40 24
def shuttle (e : Nat) : Nat := bits e 64 16
def inSlot (e : Nat) : Nat := bits e 80 16
def inBundle (e : Nat) : Nat := bits e 96 3
def entries (t : List Byte) : List Nat := (List.range (nEntries t)).map (slot t)

/-- R396, R398 ENTRY: a flow entry with a reserved code or a reserved bit that is not 0. -/
def flowBad (t : List Byte) (i : Nat) : Bool :=
  decide (1 < flow t i 3 1 % 16 ∨ 32 ≤ flow t i 3 1 ∨ 2 ^ 18 ≤ flow t i 4 4 ∨ 2 ^ 18 ≤ flow t i 8 4 ∨ flow t i 0xF 1 ≠ 0 ∨ flow t i 0x1C 4 ≠ 0)

/-- R396: the fields that an entry's role does not use are 0. -/
def unusedBad (e : Nat) : Bool := (role e == 2 && bits e 16 21 != 0) || (role e == 0 && bits e 80 19 != 0)

/-- R398 ENTRY: an entry that breaks the rules of the table. -/
def entryBad (t : List Byte) (self e : Nat) : Bool :=
  let small := fun b => topoN (topo t) (b / 2) == 1
  role e == 3 || bits e 39 1 != 0 || e / 2 ^ 99 != 0 || unusedBad e || (role e != 2 && (pos e == 3 || small (bundle e))) || (role e != 0 && small (inBundle e)) ||
    (match flowIdx t (eFlow e) with
     | none => true
     | some f => (role e == 0 && fSrc t f != self) || (role e == 2 && fDst t f != self) || decide ((fBytes t f + 4095) / 4096 ≤ shuttle e))

/-- R400: the slots during which an entry holds a buffer of its bundle: from, and up to. -/
def held (e : Nat) : Nat × Nat := (inSlot e + 1, if role e = 1 then outSlot e + 1 else inSlot e + 3)
def crowded (es : List Nat) (e : Nat) : Bool :=
  decide (192 < (es.filter fun x => role x != 0 && pbeat x == pbeat e && inBundle x == inBundle e &&
    decide ((held x).1 ≤ (held e).1 ∧ (held e).1 < (held x).2)).length)
end Rt

/-! ## The slack window (R245, R256) -/

def Dev.routeLive (d : Dev) : Bool := d.g Reg.LINK_ROUTE_LIVE == 1

/-- R256: the slack window of the running beat in units of 100 ns: nearly all of it in a beat without a step and without live
entries. -/
def Dev.slackFrom (d : Dev) : Nat :=
  if ! d.stepOpen ∧ (! d.routeLive ∨ Rt.nEntries d.route.live = 0) then 10 else d.g Reg.BEAT_CFG_T_S
def Dev.slackOpen (d : Dev) : Bool := d.timerOn && decide (d.slackFrom ≤ d.g Reg.BEAT_CFG_PHASE)

/-- R256: a time at which an unscheduled user may be served: the slack window, or no beat runs yet (assumption 122). -/
def Dev.slackFree (d : Dev) : Bool := ! d.timerOn || d.slackOpen

end Sys2Proof.Machine
end

