-- ==== Sys2Proof/Machine/Float.lean ====
section
/-! DEFINITION. Exact binary arithmetic and the rounding rules of the number formats (R77 to R94). -/

namespace Sys2Proof.Machine

/-! R98: the tile flag bits. -/
def Flag.nan : Nat := 1
def Flag.e8inv : Nat := 2
def Flag.ovf : Nat := 4
def Flag.sat : Nat := 8
def Flag.flushIn : Nat := 16
def Flag.flushOut : Nat := 32
def Flag.zeroBlk : Nat := 64
def Flag.srnd : Nat := 128
def Flag.iv : Nat := 256
def Flag.dz : Nat := 512
def Flag.ofl : Nat := 1024
def Flag.ufl : Nat := 2048
def Flag.nx : Nat := 4096

/-- An exact number `m · 2 ^ e`. -/
structure Dy where
  m : Int
  e : Int
  deriving DecidableEq, Repr

/-- `2 ^ k` for an integer `k` that is not negative. -/
def pow2 (k : Int) : Int := 2 ^ k.toNat

def Dy.zero : Dy := ⟨0, 0⟩
def Dy.neg (a : Dy) : Dy := ⟨-a.m, a.e⟩
def Dy.abs (a : Dy) : Dy := ⟨a.m.natAbs, a.e⟩
def Dy.mul (a b : Dy) : Dy := ⟨a.m * b.m, a.e + b.e⟩

/-- The exact sum. -/
def Dy.add (a b : Dy) : Dy :=
  let e := min a.e b.e
  ⟨a.m * pow2 (a.e - e) + b.m * pow2 (b.e - e), e⟩

def Dy.sub (a b : Dy) : Dy := a.add b.neg
def Dy.scale (a : Dy) (k : Int) : Dy := ⟨a.m, a.e + k⟩
def Dy.isZero (a : Dy) : Bool := decide (a.m = 0)
def Dy.le (a b : Dy) : Bool := decide ((a.sub b).m ≤ 0)
def Dy.lt (a b : Dy) : Bool := decide ((a.sub b).m < 0)
def Dy.eqv (a b : Dy) : Bool := decide ((a.sub b).m = 0)
def Dy.isNeg (a : Dy) : Bool := decide (a.m < 0)

/-- `⌊log₂ |a|⌋` of a number that is not 0. -/
def Dy.top (a : Dy) : Int := (Nat.log2 a.m.natAbs : Int) + a.e

/-- The exact sum of a list. -/
def Dy.sum : List Dy → Dy
  | [] => Dy.zero
  | x :: xs => x.add (Dy.sum xs)

/-- How a rounding is done: to nearest with ties to even (R87), with a random word (R88), or always up in magnitude. -/
inductive Rnd where
  | rne
  | sr (r : Nat)
  deriving DecidableEq, Repr

/-- `m / 2 ^ sh` rounded to a whole number. For R88, `t` is the first 32 bits of the fraction and the magnitude goes
up when `t + r` reaches `2 ^ 32`. -/
def Rnd.shift (rd : Rnd) (m sh : Nat) : Nat :=
  let q := m / 2 ^ sh
  let rem := m % 2 ^ sh
  match rd with
  | .rne =>
    if 2 * rem > 2 ^ sh then q + 1
    else if 2 * rem = 2 ^ sh ∧ sh ≠ 0 then q + q % 2
    else q
  | .sr r =>
    let t := if 32 ≤ sh then rem / 2 ^ (sh - 32) else rem * 2 ^ (32 - sh)
    if 2 ^ 32 ≤ t + r then q + 1 else q

/-- `|a|` rounded to a whole multiple of `2 ^ g`, as that multiple. -/
def Rnd.grid (rd : Rnd) (a : Dy) (g : Int) : Nat :=
  if a.e ≥ g then a.m.natAbs * 2 ^ (a.e - g).toNat
  else rd.shift a.m.natAbs (g - a.e).toNat

/-- `a` rounded to `p` significant bits, exponent unbounded. -/
def Rnd.signif (rd : Rnd) (p : Nat) (a : Dy) : Dy :=
  if a.m = 0 then a
  else
    let g := a.top - (p : Int) + 1
    let q := rd.grid a g
    ⟨if a.m < 0 then -(q : Int) else q, g⟩

/-- A binary interchange format: significand bits, exponent bits, and the largest exponent. -/
structure FFmt where
  p : Nat
  ebits : Nat
  emax : Int
  deriving DecidableEq, Repr

/-- R80: binary32 and binary16. -/
def FFmt.f32 : FFmt := ⟨24, 8, 127⟩
def FFmt.f16 : FFmt := ⟨11, 5, 15⟩

/-- The smallest normal exponent. -/
def FFmt.emin (f : FFmt) : Int := 1 - f.emax

/-- R80: the canonical NaN, and the infinities. -/
def FFmt.cnan (f : FFmt) : Nat := (2 ^ f.ebits - 1) * 2 ^ (f.p - 1) + 2 ^ (f.p - 2)
def FFmt.signBit (f : FFmt) (neg : Bool) : Nat := if neg then 2 ^ (f.p - 1 + f.ebits) else 0
def FFmt.inf (f : FFmt) (neg : Bool) : Nat := f.signBit neg + (2 ^ f.ebits - 1) * 2 ^ (f.p - 1)

/-- The largest finite magnitude, with a sign. -/
def FFmt.big (f : FFmt) (neg : Bool) : Nat := f.inf neg - 1

/-- What a bit pattern of a float format stands for; a zero keeps its sign. -/
inductive FV where
  | nan (signalling : Bool)
  | inf (neg : Bool)
  | num (neg : Bool) (v : Dy) (sub : Bool)
  deriving DecidableEq, Repr

/-- R80: the value of a bit pattern. -/
def FFmt.decode (f : FFmt) (w : Nat) : FV :=
  let neg := w.testBit (f.p - 1 + f.ebits)
  let e := (w / 2 ^ (f.p - 1)) % 2 ^ f.ebits
  let fr := w % 2 ^ (f.p - 1)
  let s : Int := if neg then -1 else 1
  if e = 2 ^ f.ebits - 1 then (if fr = 0 then .inf neg else .nan (! fr.testBit (f.p - 2)))
  else if e = 0 then .num neg ⟨s * fr, f.emin - (f.p : Int) + 1⟩ (decide (fr ≠ 0))
  else .num neg ⟨s * (fr + 2 ^ (f.p - 1) : Nat), (e : Int) - f.emax - (f.p : Int) + 1⟩ false

/-- The pattern of a number that the format holds exactly as a normal number. -/
def FFmt.encodeNormal (f : FFmt) (neg : Bool) (a : Dy) : Nat :=
  let g := a.top - (f.p : Int) + 1
  let sig := Rnd.rne.grid a g
  f.signBit neg + ((a.top + f.emax).toNat) * 2 ^ (f.p - 1) + (sig - 2 ^ (f.p - 1))

/-- A result with the flags it sets. -/
structure FR where
  w : Nat
  fl : Nat
  deriving DecidableEq, Repr

/-- R81: a fast-path arithmetic result, rounded with an unbounded exponent, then overflowed or flushed. `neg` gives
the sign of a zero. -/
def FFmt.packFast (f : FFmt) (rd : Rnd) (neg : Bool) (a : Dy) : FR :=
  if a.m = 0 then ⟨f.signBit neg, 0⟩
  else
    let r := rd.signif f.p a
    if r.m = 0 then ⟨f.signBit a.isNeg, Flag.flushOut⟩
    else if r.top > f.emax then ⟨f.inf a.isNeg, Flag.ovf⟩
    else if r.top < f.emin then ⟨f.signBit a.isNeg, Flag.flushOut⟩
    else ⟨f.encodeNormal a.isNeg r, 0⟩

/-- R94: a conversion to a float format, which saturates where an arithmetic result would overflow. -/
def FFmt.packCvt (f : FFmt) (rd : Rnd) (neg : Bool) (a : Dy) : FR :=
  let r := f.packFast rd neg a
  if r.fl = Flag.ovf then ⟨f.big a.isNeg, Flag.sat⟩ else r

/-- R103, R104: a strict result: IEEE 754 rounding to nearest with subnormals kept, tininess detected after
rounding. -/
def FFmt.packStrict (f : FFmt) (neg : Bool) (a : Dy) : FR :=
  if a.m = 0 then ⟨f.signBit neg, 0⟩
  else
    let r := Rnd.rne.signif f.p a
    if r.top > f.emax then ⟨f.inf a.isNeg, Flag.ofl ||| Flag.nx⟩
    else if r.top < f.emin then
      let q := Rnd.rne.grid a (f.emin - (f.p : Int) + 1)
      let exact := Dy.eqv a.abs ⟨q, f.emin - (f.p : Int) + 1⟩
      ⟨f.signBit a.isNeg + q, if exact then 0 else Flag.ufl ||| Flag.nx⟩
    else ⟨f.encodeNormal a.isNeg r, if Dy.eqv a r then 0 else Flag.nx⟩

/-- R81: the treatment of one fast-path input: a subnormal counts as a zero of its sign; a NaN or an infinity makes
the result a NaN. -/
def FV.fastIn : FV → FV × Nat
  | .num neg v true => (.num neg ⟨0, v.e⟩ false, Flag.flushIn)
  | .num neg v false => (.num neg v false, 0)
  | .inf s => (.inf s, Flag.nan)
  | .nan s => (.nan s, Flag.nan)

/-- The number an input stands for, if it is one. -/
def FV.num? : FV → Option (Bool × Dy)
  | .num neg v _ => some (neg, v)
  | _ => none

/-- R81, R96: one pass or sum of exact terms on the fast path, NaN when `bad`. -/
def FFmt.sumFast (f : FFmt) (rd : Rnd) (bad : Bool) (a : Dy) : FR :=
  if bad then ⟨f.cnan, Flag.nan⟩ else f.packFast rd false a

/-- R81, R155: `± a · b ± c` on the fast path. A product of zeros takes the product's sign; a sum whose exact value is
zero is +0. -/
def FFmt.fmaFast (f : FFmt) (rd : Rnd) (negP negC : Bool) (a b c : FV) : FR :=
  let (a', fa) := a.fastIn
  let (b', fb) := b.fastIn
  let (c', fc) := c.fastIn
  let fl := fa ||| fb ||| fc
  match a'.num?, b'.num?, c'.num? with
  | some (_, x), some (_, y), some (_, z) =>
    let p := x.mul y
    let p := if negP then p.neg else p
    let z := if negC then z.neg else z
    let r := f.packFast rd false (p.add z)
    ⟨r.w, r.fl ||| fl⟩
  | _, _, _ => ⟨f.cnan, fl ||| Flag.nan⟩

/-- R81: `a · b` on the fast path. The table fixes +0 for sums alone; a product that is exactly zero takes the sign of the product (DESIGN
CHOICE, assumption 112). -/
def FFmt.mulFast (f : FFmt) (rd : Rnd) (a b : FV) : FR :=
  let (a', fa) := a.fastIn
  let (b', fb) := b.fastIn
  match a'.num?, b'.num? with
  | some (s, x), some (t, y) =>
    let r := f.packFast rd (s != t) (x.mul y)
    ⟨r.w, r.fl ||| fa ||| fb⟩
  | _, _ => ⟨f.cnan, fa ||| fb ||| Flag.nan⟩

/-- R81: `a ± b` on the fast path. -/
def FFmt.addFast (f : FFmt) (rd : Rnd) (negB : Bool) (a b : FV) : FR :=
  let (a', fa) := a.fastIn
  let (b', fb) := b.fastIn
  match a'.num?, b'.num? with
  | some (_, x), some (_, y) =>
    let r := f.packFast rd false (x.add (if negB then y.neg else y))
    ⟨r.w, r.fl ||| fa ||| fb⟩
  | _, _ => ⟨f.cnan, fa ||| fb ||| Flag.nan⟩

/-- IEEE 754 fusedMultiplyAdd `± a · b ± c` with the strict flags (R103, R104): a NaN result also sets NAN. Zero times infinity sets IV even
beside a quiet NaN addend, which IEEE 754 leaves open (DESIGN CHOICE, assumption 113). -/
def FFmt.fmaStrict (f : FFmt) (negP negC : Bool) (a b c : FV) : FR :=
  let isNan : FV → Bool := fun x => match x with | .nan _ => true | _ => false
  let isSnan : FV → Bool := fun x => match x with | .nan s => s | _ => false
  let sg : FV → Bool := fun x => match x with | .num s _ _ => s | .inf s => s | .nan _ => false
  let isInf : FV → Bool := fun x => match x with | .inf _ => true | _ => false
  let isZero : FV → Bool := fun x => match x with | .num _ v _ => v.isZero | _ => false
  let sp := (sg a != sg b) != negP
  let sc := sg c != negC
  let pInf := isInf a || isInf b
  let invP := (isInf a && isZero b) || (isInf b && isZero a)
  if invP then ⟨f.cnan, Flag.nan ||| Flag.iv⟩
  else if isNan a || isNan b || isNan c then
    ⟨f.cnan, Flag.nan ||| (if isSnan a || isSnan b || isSnan c then Flag.iv else 0)⟩
  else if pInf && isInf c && (sp != sc) then ⟨f.cnan, Flag.nan ||| Flag.iv⟩
  else if pInf then ⟨f.inf sp, 0⟩
  else if isInf c then ⟨f.inf sc, 0⟩
  else
    match a.num?, b.num?, c.num? with
    | some (_, x), some (_, y), some (_, z) =>
      let p := x.mul y
      let p := if negP then p.neg else p
      let z := if negC then z.neg else z
      f.packStrict (sp && sc) (p.add z)
    | _, _, _ => ⟨f.cnan, Flag.nan⟩

/-- IEEE 754 multiplication, as `a · b + (−0)` or `+0` of the product's sign (R104). -/
def FFmt.mulStrict (f : FFmt) (a b : FV) : FR :=
  let sg : FV → Bool := fun x => match x with | .num s _ _ => s | .inf s => s | .nan _ => false
  f.fmaStrict false false a b (.num (sg a != sg b) Dy.zero false)

/-- IEEE 754 addition and subtraction (R104). -/
def FFmt.addStrict (f : FFmt) (negB : Bool) (a b : FV) : FR :=
  f.fmaStrict false negB a (.num false ⟨1, 0⟩ false) b

/-- The whole square root of a number below `2 ^ (2 · n)`, from the highest bit down. -/
def isqrt (v : Nat) : Nat → Nat → Nat
  | 0, r => r
  | n + 1, r => let t := r + 2 ^ n; isqrt v n (if t * t ≤ v then t else r)

/-- `x / y` to more bits than any format holds, with a last bit that is 1 when the quotient goes on. -/
def Dy.divSticky (x y : Dy) : Dy :=
  let n := x.m.natAbs * 2 ^ 64
  let q := n / y.m.natAbs
  let s := 2 * q + (if n % y.m.natAbs = 0 then 0 else 1)
  ⟨if (x.m < 0) = (y.m < 0) then s else -(s : Int), x.e - y.e - 65⟩

/-- `√x` of a number that is not negative, to more bits than any format holds, with a last bit that is 1 when the root
goes on. -/
def Dy.sqrtSticky (x : Dy) : Dy :=
  let odd := x.e % 2 ≠ 0
  let m := (if odd then x.m.natAbs * 2 else x.m.natAbs) * 2 ^ 64
  let e := (if odd then x.e - 1 else x.e) - 64
  let r := isqrt m 80 0
  ⟨2 * r + (if r * r = m then 0 else 1), e / 2 - 1⟩

/-- `1 / √x` of a positive number, to more bits than any format holds, with a last bit that is 1 when it goes on. -/
def Dy.rsqrtSticky (x : Dy) : Dy :=
  let odd := x.e % 2 ≠ 0
  let m := if odd then x.m.natAbs * 2 else x.m.natAbs
  let e := if odd then x.e - 1 else x.e
  let r := isqrt (2 ^ 128 / m) 80 0
  ⟨2 * r + (if r * r * m = 2 ^ 128 then 0 else 1), -(e / 2) - 65⟩

/-! ## Block-scaled formats (R82 to R92). -/

/-- R82, R77: the element width of a block-scaled format code, 0 for another format. -/
def biWidth (fmt : Nat) : Nat := if fmt = 2 then 8 else if fmt = 3 then 4 else if fmt = 4 then 2 else 0

/-- R83: the block exponent and the sub-shift of group `g`. -/
def scaleE8 (s : Nat) : Nat := s % 256
def scaleSS (s g : Nat) : Nat := (s / 2 ^ (8 + 2 * g)) % 4

/-- R83: a block scale word from its fields. -/
def mkScale (e8 : Nat) (ss : List Nat) : Nat :=
  e8 + 256 * (ss.getD 0 0 + 4 * ss.getD 1 0 + 16 * ss.getD 2 0 + 64 * ss.getD 3 0)

/-- R84: the value of element `i` with code `q` under a scale word. -/
def elemValue (w scale i : Nat) (q : Int) : Dy :=
  ⟨q, (scaleE8 scale : Int) - 127 - (scaleSS scale (i / 8) : Int) - ((w : Int) - 1)⟩

/-- R82: element `i` of packed codes, as a signed code. -/
def codeAt (w : Nat) (bytes : List Byte) (i : Nat) : Int :=
  let b := (bytes.getD (i * w / 8) 0).toNat
  sInt w ((b / 2 ^ (i * w % 8)) % 2 ^ w)

/-- R82: a list of codes packed into bytes. -/
def packCodes (w : Nat) (codes : List Int) : List Byte :=
  let total := codes.foldr (fun q acc => acc * 2 ^ w + wrapI w q) 0
  natLe (codes.length * w / 8) total

/-- R92: what a conversion to a block reports, with the block. -/
structure BlockOut where
  scale : Nat
  codes : List Int
  sat : Nat
  crush : Nat
  allZero : Bool
  allSat : Bool
  fl : Nat
  deriving DecidableEq, Repr

/-- The largest magnitude among finite elements, NaN and infinite elements left out (R89). -/
def maxMag : List FV → Dy
  | [] => Dy.zero
  | .num _ v _ :: xs => let r := maxMag xs; if r.le v.abs then v.abs else r
  | _ :: xs => maxMag xs

/-- Whether a list holds a NaN or an infinity. -/
def anySpecial : List FV → Bool
  | [] => false
  | .num _ _ _ :: xs => anySpecial xs
  | _ :: _ => true

/-- R89: the data-derived scale of a block, `none` for the zero block. -/
def deriveScale (xs : List FV) (subShifts : Bool) : Option Nat :=
  let m := maxMag xs
  if m.isZero then (if anySpecial xs then some (mkScale 1 (List.replicate 4 (if subShifts then 3 else 0))) else none)
  else
    let e0 := m.top + 1
    let e := if e0 > 127 then 127 else if e0 < -126 then -126 else e0
    let ss := (List.range 4).map fun g =>
      let mg := maxMag ((xs.drop (8 * g)).take 8)
      if ! subShifts then 0
      else if mg.isZero then 3
      else (max 0 (min 3 (e - (mg.top + 1)))).toNat
    some (mkScale (e + 127).toNat ss)

/-- R91: the code of one element: value, clamped?, crushed?, flags. -/
def elemCode (w scale i : Nat) (rd : Rnd) (x : FV) : Int × Bool × Bool × Nat :=
  let hi : Int := 2 ^ (w - 1) - 1
  match x with
  | .nan _ => (0, false, false, Flag.nan)
  | .inf s => (if s then -(2 ^ (w - 1)) else hi, false, false, Flag.nan)
  | .num _ v _ =>
    let g : Int := (scaleE8 scale : Int) - 127 - (scaleSS scale (i / 8) : Int) - ((w : Int) - 1)
    let q : Int := if v.m < 0 then -(rd.grid v g : Int) else rd.grid v g
    let c := if q > hi then hi else if q < -(2 ^ (w - 1)) then -(2 ^ (w - 1)) else q
    (c, decide (c ≠ q), ! v.isZero && decide (c = 0), if c ≠ q then Flag.sat else 0)

/-- R89 to R92: the conversion of a block of elements. `supplied` is the scale word of R90; `rds` gives each element's
rounding. A block without a finite element other than zero reports no ALL_SAT (DESIGN CHOICE, assumption 114). -/
def toBlock (w : Nat) (xs : List FV) (supplied : Option Nat) (subShifts : Bool) (rds : List Rnd) : BlockOut :=
  let m := maxMag xs
  let special := anySpecial xs
  let repl := match supplied with | some s => decide (scaleE8 s = 255) | none => false
  let scale? : Option Nat := match supplied with
    | none => deriveScale xs subShifts
    | some s =>
      if scaleE8 s = 0 then (if m.isZero && ! special then none else some (s + 1))
      else if scaleE8 s = 255 then some (s - 1)
      else some s
  match scale? with
  | none => ⟨0, xs.map (fun _ => 0), 0, 0, false, false, 0⟩
  | some sc =>
    let cs := (List.range xs.length).map fun i => elemCode w sc i (rds.getD i .rne) (xs.getD i (.num false Dy.zero false))
    let codes := cs.map (·.1)
    let sat := (cs.filter (·.2.1)).length + ofB repl
    let crush := (cs.filter (·.2.2.1)).length
    let fl := cs.foldl (fun a c => a ||| c.2.2.2) (if repl then Flag.sat else 0)
    let half := m.scale (-1)
    let allSat := (xs.zip cs).all fun xc =>
      match xc.1 with
      | .num _ v _ => ! (half.le v.abs) || xc.2.2.1
      | _ => true
    ⟨sc, codes, sat, crush, ! m.isZero && codes.all (· = 0), allSat && ! m.isZero, fl⟩

/-- R86: the FP32 word of a decoded element: exact, or a signed zero with FLUSH_OUT. -/
def decodeF32 (v : Dy) : FR := FFmt.f32.packFast .rne false v

/-- R94: the FP16 word of a decoded element. -/
def decodeF16 (v : Dy) : FR := FFmt.f16.packCvt .rne false v

end Sys2Proof.Machine
end

