-- ==== Sys2Proof/Machine/Flags.lean ====
section
/-! DEFINITION. Where the flags of vector operations and of tiles go: the sticky register, the counters and the format
events (R98, R108, R148, R162, R179, R181 to R183). -/

namespace Sys2Proof.Machine

/-- R108: the format events of one flag word on a page whose BLOCK bits 8 to 10 are 0x0201 to 0x0203. `fmt` is the result's
format code, `inFmt` and `invOp` describe the operand that held an invalid block. -/
def Dev.formatEvents (d : Dev) (pg fl fmt inFmt invOp : Nat) : Dev :=
  let d := if fl &&& (Flag.nan ||| Flag.e8inv) ≠ 0 then { d with step := { d.step with nan := true } } else d
  let d := if fl &&& Flag.nan ≠ 0 then d.raise pg 0x0201 8 Sev.warn (fl + 65536 * fmt) else d
  let d := if fl &&& Flag.e8inv ≠ 0 then d.raise pg 0x0202 9 Sev.error (fl + 65536 * inFmt + 2 ^ 20 * invOp) else d
  if fl &&& (Flag.iv ||| Flag.dz ||| Flag.ofl) ≠ 0 then d.raise pg 0x0203 10 Sev.info fl else d

/-- R162, R179, R181, R182: the flags of one vector operation. -/
def Dev.vectorFlags (d : Dev) (u fl fmt inFmt : Nat) : Dev :=
  if fl = 0 then d
  else
    let d := d.wr Reg.VECTOR_STICKY u (d.rd Reg.VECTOR_STICKY u ||| fl)
    let d := (List.range 13).foldl (fun d f => if bit fl f then d.bump Reg.VECTOR_FLAG_CNT u 1 f else d) d
    d.formatEvents (pgVector u) fl fmt inFmt 1

/-- R179: the flags of a verified tile. -/
def Dev.tileFlags (d : Dev) (u : Nat) (t : CqEntry) : Dev :=
  let d := d.wr Reg.VECTOR_STICKY u (d.rd Reg.VECTOR_STICKY u ||| t.flags)
  d.formatEvents (pgMatrix u) t.flags 0 (if t.invOp % 2 = 1 then t.fmtA else t.fmtB) t.invOp

end Sys2Proof.Machine
end

