-- ==== Sys2Proof/Machine/Access.lean ====
section
/-! DEFINITION. Which register accesses are performed (R34, R38 to R45, R437, R518, R554), and the writes that ask a block
for an action. -/

namespace Sys2Proof.Machine

/-- R38: whether an instance number keeps the rule of its class. -/
def instOk (cls inst : Nat) : Bool :=
  if cls = 1 then decide (inst % 32 ≤ 16)
  else if cls = 2 then inst % 32 == 0
  else if cls = 3 then inst % 256 == 0
  else if cls = 4 then inst % 1024 == 0
  else if cls = 5 then (inst / 32) % 32 == 0 && decide (inst % 32 < 2)
  else if cls = 6 then (inst / 32) % 32 == 0 && decide (inst % 32 < 8)
  else if cls = 7 then (inst / 32) % 32 == 0 && decide (inst % 32 < 2)
  else inst == 0

/-- R38, R40: whether a page number names a page of the package. -/
def pageOk (pg : Nat) : Bool :=
  decide (pg < 2 ^ 20) && instOk (pgClass pg) (pgInst pg) && decide (pgPage pg < Reg.pagesOf.getD (pgClass pg) 0) &&
    ! (pgClass pg == 7 && pgPage pg == 3 && pgInst pg % 32 == 0)

/-- R510, R554: the codes of the boot checks, which the test port reads at SL0 whatever JTAG_LOCK says. -/
def Dev.bootCodes (d : Dev) (r : Requester) (addr : Nat) (write : Bool) : Bool :=
  r == .testPort && ! write && d.g Reg.BRINGUP_LEVEL == 0 && addr == pageNum 0xE 0 0 * 4096 + 0x098

/-- R437, R438, R518, R554: whether a requester may make an access to a class at all. -/
def Dev.permitted (d : Dev) (r : Requester) (cls : Nat) (write : Bool) : Bool :=
  match r with
  | .host w => w || ! write
  | .testPort => cls != 0xE || (d.g Reg.FUSE_KEYS_JTAG_LOCK == 0 && ! write)
  | _ => cls != 0xE || ! write

/-- R43, R45: the completion code of an access that is not performed. `addr` is the byte address (R37). A package held in reset
answers nothing, and the requester completes the access with TIMEOUT (R66). -/
def Dev.refusal (d : Dev) (r : Requester) (addr : Nat) (write : Bool) : Option Nat :=
  let pg := addr / 4096
  let off := addr % 4096
  if d.rst.held || decide (d.now < d.rst.runsTo) then some Cc.timeout
  else if ! pageOk pg then some Cc.noPage
  else if ! (d.permitted r (pgClass pg) write || d.bootCodes r addr write) then some Cc.denied
  else if off % 4 ≠ 0 then some Cc.align
  else if 128 ≤ off ∧ d.bs pg = Bs.retired then some Cc.retired
  else if 128 ≤ off ∧ d.bs pg = Bs.resetting then some Cc.resetting
  else none

/-- A register write that asks a page for an action: refused by the rules of every access, refused with QUIESCED while the
block takes no work (R63) when the action starts work, and otherwise done by `act`, which answers its completion
code. -/
def Dev.action (d : Dev) (r : Requester) (pg off : Nat) (work : Bool) (act : Dev → Nat × Dev) : Dev :=
  match d.refusal r (pg * 4096 + off) true with
  | some c => d.done c
  | none =>
    if work && d.refusesWork pg then d.done Cc.quiesced
    else (act d).2.done (act d).1

/-- R62, R63: an action that clears counters: every listed field's copies return to 0. -/
def Dev.clearFields (d : Dev) (inst : Nat) (fs : List Field) : Dev :=
  fs.foldl (fun d f => (List.range f.n).foldl (fun d i => d.wr f inst 0 i) d) d

end Sys2Proof.Machine
end

