-- ==== Sys2Proof/Machine/Faults.lean ====
section
/-! DEFINITION. The fault map: what it takes out of service, standbys, retirements (R15 to R21, R327, R538). -/

namespace Sys2Proof.Machine

def pgPlanRb : Nat := pageNum 9 0 1

/-! ## The fault map (R15 to R21) -/

/-- The blocks that a fault map `f` leaves out of service. -/
def dieOut (f : List (Nat × Nat)) (d : Nat) : Bool := f.contains (4, d)
def regionOut (f : List (Nat × Nat)) (r : Nat) : Bool := f.contains (3, r) || dieOut f (r / 1024 * 1024)
def clusterOut (f : List (Nat × Nat)) (c : Nat) : Bool := f.contains (2, c) || regionOut f (regionOf c)
def unitOut (f : List (Nat × Nat)) (u : Nat) : Bool := f.contains (1, u) || clusterOut f (clusterOf u)
def stackOut (f : List (Nat × Nat)) (s : Nat) : Bool := f.contains (5, s) || dieOut f (s / 2 * 1024)

/-- R17, R18, R20: the working unit whose positions the standby takes, and those whose positions stay empty. -/
def standbyFor (f : List (Nat × Nat)) (c : Nat) : Option Nat :=
  if f.contains (1, c + 16) then none else (List.range 16).find? fun n => f.contains (1, c + n)
def emptyUnits (f : List (Nat × Nat)) (c : Nat) : List Nat :=
  (List.range 16).filter fun n => f.contains (1, c + n) && standbyFor f c != some n

/-- R19: a fault map closed under the loss of clusters with fewer than 12 usable units, and of dies without stacks (R538). -/
def closeFaults (f : List (Nat × Nat)) : List (Nat × Nat) :=
  let cs := (allRegions.flatMap clustersOf).filter fun c => ! f.contains (2, c) && decide (4 < (emptyUnits f c).length)
  let ds := allDies.filter fun d => ! f.contains (4, d) && f.contains (5, d / 512) && f.contains (5, d / 512 + 1)
  f ++ cs.map (fun c => (2, c)) ++ ds.map (fun d => (4, d))

/-- The pages of a unit. -/
def unitPages (u : Nat) : List Nat := (List.range 5).map fun p => pageNum 1 u p
def clusterPages (c : Nat) : List Nat := (List.range 3).map fun p => pageNum 2 c p
def regionPages (r : Nat) : List Nat := (List.range 5).map fun p => pageNum 3 r p
def diePages (d : Nat) : List Nat := (List.range 5).map fun p => pageNum 4 d p
def stackPages (s : Nat) : List Nat := (List.range 3).map fun p => pageNum 5 (hbmInst s) p

/-- R21: the pages of everything that a fault-map entry takes out of service. -/
def faultPages (x : Nat × Nat) : List Nat :=
  match x.1 with
  | 1 => unitPages x.2
  | 2 => clusterPages x.2 ++ (unitsOf x.2).flatMap unitPages
  | 3 => regionPages x.2 ++ (clustersOf x.2).flatMap fun c => clusterPages c ++ (unitsOf c).flatMap unitPages
  | 4 => diePages x.2 ++ ((List.range 4).map fun i => x.2 + 256 * i).flatMap fun r =>
      regionPages r ++ (clustersOf r).flatMap fun c => clusterPages c ++ (unitsOf c).flatMap unitPages
  | _ => stackPages x.2

/-- R21, R61: a fault-map entry is recorded in MRAM and its blocks are RETIRED. -/
def Dev.recordFault (d : Dev) (x : Nat × Nat) : Dev :=
  if d.faults.contains x then d
  else (faultPages x).foldl (fun d pg => d.setBs pg Bs.retired) { d with faults := d.faults ++ [x] }

/-- R327: the events of a retirement. -/
def Dev.retireEvent (d : Dev) (f : List (Nat × Nat)) (x : Nat × Nat) : Dev :=
  if x.1 = 1 then
    let c := clusterOf x.2
    let took := standbyFor f c == some (unitNo x.2)
    let d := d.raise pgPlanRb 0x0707 8 Sev.warn (x.2 + 4096 * ofB took)
    if took then d.raise pgPlanRb 0x0708 9 Sev.info (c + 16) else d
  else d.raise pgPlanRb 0x0709 10 Sev.error (x.2 + 4096 * (x.1 - 1))

/-- R18, R123: GANG.EMPTY of a cluster marks its vacant grid positions, two to a unit. -/
def emptyMask (us : List Nat) : Nat := us.foldl (fun m n => m ||| (3 * 2 ^ (8 * (n / 4) + 2 * (n % 4)))) 0

/-- R18: GANG.EMPTY of every cluster that the fault map names a unit of: before the first plan every position of a retired unit, after it
those that the standby has not taken. -/
def Dev.emptyView (d : Dev) : Dev :=
  (allRegions.flatMap clustersOf).foldl (fun (d : Dev) c =>
    let us := if d.plan.planned then emptyUnits d.faults c else (List.range 16).filter fun n => d.faults.contains (1, c + n)
    if d.rd Reg.GANG_EMPTY c = emptyMask us then d else d.wr Reg.GANG_EMPTY c (emptyMask us)) d

/-- R320: under a fault map an entry is a unit whose positions the standby takes: it needs no new search. -/
def standbyTakes (f : List (Nat × Nat)) (x : Nat × Nat) : Bool := x.1 == 1 && standbyFor f (clusterOf x.2) == some (unitNo x.2)

/-- R20, R21, R320: a block fails for good. With a plan in force it becomes due at the next re-plan commit, and the package votes FAIL unless a
standby takes its positions; otherwise it is recorded at once, with all that R19 and R538 take along. -/
def Dev.retire (d : Dev) (x : Nat × Nat) : Dev :=
  if d.faults.contains x ∨ d.due.contains x then d
  else if d.plan.live.isSome then
    let d := { d with due := d.due ++ [x] }
    if standbyTakes (closeFaults (d.faults ++ d.due)) x then d else d.voteFail
  else
    let f := closeFaults (d.faults ++ [x])
    ((f.filter fun y => ! d.faults.contains y).foldl (fun (d : Dev) y =>
      let d := d.recordFault y
      if y.1 = 1 then d.raise pgPlanRb 0x0707 8 Sev.warn y.2 else d.retireEvent f y) d).emptyView

def Dev.retireDue (d : Dev) (level inst : Nat) : Dev := d.retire (level, inst)

end Sys2Proof.Machine
end

