-- ==== Sys2Proof/Machine/Sr.lean ====
section
/-! DEFINITION. SR32, the generator of the random words of stochastic rounding (R349, R350). -/

namespace Sys2Proof.Machine

/-- R349: the mixing step on 32-bit words. -/
def srMix (x : Word) : Word :=
  let x := x ^^^ (x >>> 16)
  let x := x * 0x6C8E9CF5#32
  let x := x ^^^ (x >>> 13)
  let x := x * 0xA54FE3B1#32
  x ^^^ (x >>> 16)

/-- R349: the key of a job seed, a step and a tensor. -/
def srKeyOf (seedLo seedHi stepLo stepHi tensor : Nat) : Nat × Nat :=
  let w := fun (n : Nat) => BitVec.ofNat 32 n
  ((srMix (w seedLo ^^^ srMix (w stepLo ^^^ 0x53523332#32))).toNat,
   (srMix (w seedHi ^^^ srMix (w stepHi ^^^ (w tensor + 0x01000000#32)))).toNat)

/-- R349: the word of an index under a key. -/
def sr32 (ka kb i : Nat) : Nat :=
  let w := fun (n : Nat) => BitVec.ofNat 32 n
  let x := srMix (w i ^^^ w ka)
  let x := srMix (x + w kb)
  (srMix (x ^^^ (w ka).rotateLeft 13)).toNat

/-- R350: the key of a tensor in the step being run. -/
def Dev.srKey (d : Dev) (tensor : Nat) : Nat × Nat :=
  srKeyOf (d.g Reg.SR_SEED_JOB_SEED_LO) (d.g Reg.SR_SEED_JOB_SEED_HI) (d.g Reg.STEP_REC_STEP_LO) (d.g Reg.STEP_REC_STEP_HI) tensor

end Sys2Proof.Machine
end

