-- ==== Sys2Proof/Machine/Matrix.lean ====
section
/-! DEFINITION. Matrix arrays: gangs, passes, accumulator sets, drains, the array test (R109 to R148). -/

namespace Sys2Proof.Machine

/-! ## Gangs (R15, R17, R119 to R123) -/

/-- R119: a gang: origin and size in arrays. -/
structure Gang where
  row : Nat
  col : Nat
  gr : Nat
  gc : Nat
  deriving DecidableEq, Repr

/-- R122: the multi-array gang of a live GANG slot. -/
def Dev.gangSlot (d : Dev) (c n : Nat) : Option Gang :=
  if d.rd Reg.GANG_SHAPE_EN c n = 0 then none
  else some ⟨d.rd Reg.GANG_ORIGIN_ROW c n, d.rd Reg.GANG_ORIGIN_COL c n,
             2 ^ d.rd Reg.GANG_SHAPE_ROWS c n, 2 ^ d.rd Reg.GANG_SHAPE_COLS c n⟩

/-- Whether a gang covers a grid position. -/
def Gang.covers (g : Gang) (r c : Nat) : Bool :=
  decide (g.row ≤ r ∧ r < g.row + g.gr ∧ g.col ≤ c ∧ c < g.col + g.gc)

/-- R121: the gang an array belongs to: a live slot's, or a gang of one. -/
def Dev.gangAt (d : Dev) (c row col : Nat) : Gang :=
  match ((List.range 8).filterMap (d.gangSlot c)).find? (fun g => g.covers row col) with
  | some g => g
  | none => ⟨row, col, 1, 1⟩

/-- R15, R17: the grid position of array `arr` of a unit; the standby has one only in a retired unit's place. -/
def Dev.posOf (d : Dev) (u arr : Nat) : Option (Nat × Nat) :=
  let cl := d.cluster (clusterOf u)
  let place (n : Nat) : Nat × Nat := (n / 4, 2 * (n % 4) + arr)
  if unitNo u = 16 then cl.standbyFor.map place
  else if cl.standbyFor = some (unitNo u) then none
  else some (place (unitNo u))

/-- R15, R17: the unit and array at a grid position of a cluster. -/
def Dev.atPos (d : Dev) (c row col : Nat) : Nat × Nat :=
  let n := row * 4 + col / 2
  (c + (if (d.cluster c).standbyFor = some n then 16 else n), col % 2)

/-- The gang of a unit's array, when the unit holds a position. -/
def Dev.gangOf (d : Dev) (u arr : Nat) : Option Gang :=
  (d.posOf u arr).map fun p => d.gangAt (clusterOf u) p.1 p.2

/-- R120: whether the array is the origin of its gang. -/
def Dev.isOrigin (d : Dev) (u arr : Nat) : Bool :=
  match d.posOf u arr, d.gangOf u arr with
  | some p, some g => decide (p = (g.row, g.col))
  | _, _ => false

/-- R114: the bottom-row arrays of a gang, left to right. -/
def Dev.bottoms (d : Dev) (c : Nat) (g : Gang) : List (Nat × Nat) :=
  (List.range g.gc).map fun j => d.atPos c (g.row + g.gr - 1) (g.col + j)

/-! ## Segment descriptors and operands (R189, R190) -/

/-- R189: the fields of a segment descriptor, as lowest bit and width. -/
def Sd.fmtA (w : Nat) : Nat := bits w 0 4
def Sd.fmtB (w : Nat) : Nat := bits w 4 4
def Sd.mode (w : Nat) : Nat := bits w 8 2
def Sd.load (w : Nat) : Bool := bit w 10
def Sd.sr (w : Nat) : Bool := bit w 11
def Sd.rows (w : Nat) : Nat := bits w 12 8 + 1
def Sd.kActive (w : Nat) : Nat := bits w 20 7 + 1
def Sd.kLast (w : Nat) : Nat := bits w 27 7 + 1
def Sd.nActive (w : Nat) : Nat := bits w 34 8 + 1
def Sd.mbase (w : Nat) : Nat := bits w 42 13
def Sd.mstride (w : Nat) : Nat := bits w 55 13
def Sd.mscale (w : Nat) : Nat := bits w 68 13
def Sd.sbase (w : Nat) : Nat := bits w 81 13
def Sd.sstride (w : Nat) : Nat := bits w 94 13
def Sd.sscale (w : Nat) : Nat := bits w 107 13
def Sd.lbase (w : Nat) : Nat := bits w 120 13
def Sd.s1code (w : Nat) : Nat := bits w 133 13
def Sd.s1scale (w : Nat) : Nat := bits w 146 13

/-- R205: a descriptor whose formats, mode and reserved bits a pass can use (R77, R79, R189). -/
def Sd.ok (w : Nat) : Bool :=
  decide (Sd.fmtA w ≤ 4 ∧ Sd.fmtB w ≤ 4 ∧ w / 2 ^ 159 = 0) &&
    (decide (Sd.mode w < 2) || (Sd.fmtA w == 0 && Sd.fmtB w == 0))

/-- The segment descriptor in a unit's instruction store. -/
def segDesc (m : Mem) (u seg : Nat) : Nat := m.nat (isBase u + 32 * (seg % 2048)) 32

/-- R190: bytes per row of 32 elements. -/
def rowBytes (fmt : Nat) : Nat := [128, 64, 32, 16, 8].getD fmt 0

/-- R190: bytes of a local store, addresses modulo its size. -/
def lsBytes (m : Mem) (u a n : Nat) : List Byte := (List.range n).map fun i => m.read (lsBase u + (a + i) % lsSize)
def lsNat (m : Mem) (u a n : Nat) : Nat := leNat (lsBytes m u a n)

/-- One operand block of 32 elements along K: float values, or codes with their scale word. -/
structure OpBlk where
  fmt : Nat
  xs : List FV
  qs : List Int
  scale : Nat
  deriving DecidableEq, Repr

def OpBlk.isBi (b : OpBlk) : Bool := decide (2 ≤ b.fmt)
def OpBlk.invalid (b : OpBlk) : Bool := b.isBi && scaleE8 b.scale == 255
def OpBlk.zeroBlk (b : OpBlk) : Bool := b.isBi && scaleE8 b.scale == 0
def OpBlk.special (b : OpBlk) : Bool := ! b.isBi && anySpecial b.xs

/-- The float format of a format code. -/
def fltOf (fmt : Nat) : FFmt := if fmt = 1 then FFmt.f16 else FFmt.f32

/-- R127: the first `k` of 32 elements kept, the others zero. -/
def keepFirst {α : Type} (zero : α) (k : Nat) (l : List α) : List α :=
  (List.range 32).map fun i => if i < k then l.getD i zero else zero

def FV.zero : FV := .num false Dy.zero false

/-- R190: block `row` of the moving operand of pass `j`. -/
def movingBlk (m : Mem) (u w j row k : Nat) : OpBlk :=
  let f := Sd.fmtA w
  let a := 64 * Sd.mbase w + 64 * j * Sd.mstride w + row * rowBytes f
  let bs := lsBytes m u a (rowBytes f)
  if 2 ≤ f then
    ⟨f, [], keepFirst 0 k ((List.range 32).map (codeAt (biWidth f) bs)),
     lsNat m u (64 * Sd.mscale w + j * 64 * ((2 * Sd.rows w + 63) / 64) + 2 * row) 2⟩
  else
    let n := rowBytes f / 32
    ⟨f, keepFirst FV.zero k ((List.range 32).map fun i => (fltOf f).decode (leNat ((bs.drop (n * i)).take n))), [], 0⟩

/-- R190: element `(k, n)` of the stationary tile of pass `j`, as a code or a float pattern. -/
def stationaryRaw (m : Mem) (u w j off k n : Nat) : Nat :=
  let f := Sd.fmtB w
  let a := 64 * Sd.sbase w + 64 * j * Sd.sstride w + off + k * rowBytes f
  let wd := if 2 ≤ f then biWidth f else rowBytes f / 4
  (lsNat m u (a + n * wd / 8) ((wd + 7) / 8) / 2 ^ (n * wd % 8)) % 2 ^ wd

/-- R190: column `n` of the stationary tile of pass `j`, its first `kAct` rows active. -/
def stationaryBlk (m : Mem) (u w j : Nat) (both : Bool) (arr n kAct : Nat) : OpBlk :=
  let f := Sd.fmtB w
  let s1 := both && arr == 1
  let raw := fun k => stationaryRaw m u w j (if s1 then 64 * Sd.s1code w else 0) k n
  if 2 ≤ f then
    ⟨f, [], keepFirst 0 kAct ((List.range 32).map fun k => sInt (biWidth f) (raw k)),
     lsNat m u (64 * Sd.sscale w + 64 * j + 2 * n + (if s1 then 64 * Sd.s1scale w else 0)) 2⟩
  else ⟨f, keepFirst FV.zero kAct ((List.range 32).map fun k => (fltOf f).decode (raw k)), [], 0⟩

/-! ## Pass arithmetic (R95 to R97, R103, R105) -/

/-- R81, R84: the exact values of a block's elements as a pass uses them, with the input flags. -/
def OpBlk.values (b : OpBlk) : List Dy × Nat :=
  if b.isBi then ((List.range 32).map fun i => elemValue (biWidth b.fmt) b.scale i (b.qs.getD i 0), 0)
  else
    (b.xs.map fun x => match x.fastIn.1 with | .num _ v _ => v | _ => Dy.zero,
     b.xs.foldl (fun a x => a ||| x.fastIn.2) 0)

/-- R95: the integer S of a pass of two block-scaled operands. -/
def passS (a b : OpBlk) : Int :=
  ((List.range 32).map fun i =>
    2 ^ (6 - scaleSS a.scale (i / 8) - scaleSS b.scale (i / 8)) * (a.qs.getD i 0 * b.qs.getD i 0)).foldl (· + ·) 0

/-- R96, R100, R102: a result whose fast-path bits are open: the part's own bits while they lie within `bound` of the exact
value, and the correctly rounded ones otherwise. -/
def withinOr (cand : Word) (exact bound : Dy) (dflt : FR) : FR :=
  match FFmt.f32.decode cand.toNat with
  | .num _ v false => if (v.sub exact).abs.le bound && ! (decide (dflt.fl ≠ 0)) then ⟨cand.toNat, 0⟩ else dflt
  | _ => dflt

/-- R105: the exponent of a pair-mode block, when its largest magnitude is finite and not zero. -/
def pairExp (vs : List Dy) : Option Int :=
  let m := vs.foldl (fun a v => if a.le v.abs then v.abs else a) Dy.zero
  if m.isZero then none else some (m.top + 1)

/-- R105: an element split into two FP16 parts, subnormals kept. -/
def pairSplit (x : Dy) : Dy × Dy :=
  let r16 := fun (v : Dy) => match FFmt.f16.decode (FFmt.f16.packStrict false v).w with | .num _ y _ => y | _ => Dy.zero
  let hi := r16 x
  (hi, r16 (x.sub hi))

/-- The result of one pass: the FP32 word with its flags, which operands held an invalid block, and, in pair mode, the
block exponents. -/
structure PassOut where
  p : FR
  inv : Nat := 0
  ea : Option Int := none
  eb : Option Int := none
  deriving DecidableEq, Repr

/-- R85, R95 to R98, R105: one pass of one output element in a fast mode. -/
def passFast (mode : Nat) (a b : OpBlk) : PassOut :=
  let inv := ofB a.invalid + 2 * ofB b.invalid
  let (va, fa) := a.values
  let (vb, fb) := b.values
  let fl := fa ||| fb ||| (if inv ≠ 0 then Flag.e8inv else 0) ||| (if a.zeroBlk || b.zeroBlk then Flag.zeroBlk else 0)
  let ea := if 2 ≤ mode ∧ ! a.special then pairExp va else none
  let eb := if 2 ≤ mode ∧ ! b.special then pairExp vb else none
  if inv ≠ 0 || a.special || b.special then ⟨⟨FFmt.f32.cnan, Flag.nan ||| fl⟩, inv, ea, eb⟩
  else if a.zeroBlk || b.zeroBlk then ⟨⟨0, fl⟩, 0, ea, eb⟩
  else if 2 ≤ mode then
    match ea, eb with
    | some ka, some kb =>
      let sa := va.map fun x => pairSplit (x.scale (-ka))
      let sb := vb.map fun x => pairSplit (x.scale (-kb))
      let s := Dy.sum ((sa.zip sb).map fun t =>
        ((t.1.1.mul t.2.1).add (t.1.1.mul t.2.2)).add (t.1.2.mul t.2.1))
      let r := Rnd.rne.signif 24 s
      let r := FFmt.f32.packFast .rne false (r.scale (ka + kb))
      ⟨⟨r.w, r.fl ||| fl⟩, 0, ea, eb⟩
    | _, _ => ⟨⟨0, Flag.zeroBlk ||| fl⟩, 0, ea, eb⟩
  else if a.isBi && b.isBi then
    let wa := biWidth a.fmt
    let wb := biWidth b.fmt
    let s := Rnd.rne.signif 24 ⟨passS a b, 0⟩
    let k : Int := (scaleE8 a.scale : Int) - 127 + ((scaleE8 b.scale : Int) - 127) - ((wa : Int) - 1) - ((wb : Int) - 1) - 6
    ⟨FFmt.f32.packFast .rne false (s.scale k), 0, none, none⟩
  else
    let prods := (va.zip vb).map fun t => t.1.mul t.2
    let exact := Dy.sum prods
    let r := FFmt.f32.packFast .rne false exact
    let r := if a.fmt = 0 ∨ b.fmt = 0 then
        withinOr (Config.fastPassSum (prods.map fun x => (x.m, x.e))) exact ((Dy.sum (prods.map Dy.abs)).scale (-23)) r
      else r
    ⟨⟨r.w, r.fl ||| fl⟩, 0, none, none⟩

/-- R103: the operand values of a block in strict mode. -/
def OpBlk.strictValues (b : OpBlk) : List FV :=
  if b.invalid then (List.range 32).map fun _ => .nan false
  else if b.zeroBlk then (List.range 32).map fun _ => FV.zero
  else if b.isBi then (List.range 32).map fun i => .num (decide (b.qs.getD i 0 < 0)) (elemValue (biWidth b.fmt) b.scale i (b.qs.getD i 0)) false
  else b.xs

/-- R103: `k` sequential fused multiply-adds; elements that the lists lack are +0, as masked rows are (R127). -/
def strictChain (k : Nat) (a b : List FV) (acc : FR) : FR :=
  (List.range k).foldl (fun r i =>
    let x := FFmt.f32.fmaStrict false false (a.getD i FV.zero) (b.getD i FV.zero) (FFmt.f32.decode r.w)
    ⟨x.w, r.fl ||| x.fl⟩) acc

/-- R112: a pass result joins the running value at an edge stage. -/
def edgeAdd (rd : Rnd) (v : Nat) (p : FR) : FR :=
  let r := FFmt.f32.addFast rd false (FFmt.f32.decode v) (FFmt.f32.decode p.w)
  ⟨r.w, r.fl ||| p.fl⟩

/-! ## One pass over a gang column (R112, R113, R127, R133) -/

/-- What a pass needs to know of its segment and place. -/
structure PassCtx where
  c : Nat
  gang : Gang
  desc : Nat
  j : Nat
  last : Bool
  gcol : Nat
  ka : Nat
  kb : Nat
  srIndex : Nat
  deriving DecidableEq, Repr

def PassCtx.kTotal (x : PassCtx) : Nat := if x.last then Sd.kLast x.desc else Sd.kActive x.desc

/-- R127: how many of the 32 rows of gang row `i` are active. -/
def PassCtx.kOf (x : PassCtx) (i : Nat) : Nat := min 32 (x.kTotal - 32 * i)

/-- R127: how many of the 32 columns of the array are active. -/
def PassCtx.nOf (x : PassCtx) : Nat := min 32 (Sd.nActive x.desc - 32 * x.gcol)

/-- R120: the units of the gang's left column and of this column, at gang row `i`. -/
def Dev.leftUnit (d : Dev) (x : PassCtx) (i : Nat) : Nat := (d.atPos x.c (x.gang.row + i) x.gang.col).1
def Dev.colUnit (d : Dev) (x : PassCtx) (i : Nat) : Nat × Nat := d.atPos x.c (x.gang.row + i) (x.gang.col + x.gcol)

def Dev.movingAt (d : Dev) (m : Mem) (x : PassCtx) (i row : Nat) : OpBlk :=
  movingBlk m (d.leftUnit x i) x.desc x.j row (x.kOf i)

def Dev.stationaryAt (d : Dev) (m : Mem) (x : PassCtx) (i n : Nat) : OpBlk :=
  let ua := d.colUnit x i
  stationaryBlk m ua.1 x.desc x.j (decide (2 ≤ x.gang.gc)) ua.2 n (x.kOf i)

/-- R350: the rounding of an edge-stage addition. -/
def PassCtx.rnd (x : PassCtx) (i row n : Nat) : Rnd :=
  if Sd.sr x.desc then
    .sr (sr32 x.ka x.kb (x.srIndex + ((x.j * x.gang.gr + i) * 256 + row) * 256 + (32 * x.gcol + n)))
  else .rne

/-- R112, R103: the new value of one data output, with its flags, invalid operands and pair exponents. -/
def Dev.outputStep (d : Dev) (m : Mem) (x : PassCtx) (row n v0 : Nat) : PassOut :=
  let mode := Sd.mode x.desc
  (List.range x.gang.gr).foldl (fun acc i =>
    if x.kOf i = 0 then
      { acc with p := if mode = 1 then strictChain 32 [] [] acc.p else edgeAdd (x.rnd i row n) acc.p.w ⟨0, acc.p.fl⟩ }
    else
      let a := d.movingAt m x i row
      let b := d.stationaryAt m x i n
      let inv := acc.inv ||| (ofB a.invalid + 2 * ofB b.invalid)
      if mode = 1 then
        let r := strictChain 32 a.strictValues b.strictValues acc.p
        let e := if a.invalid || b.invalid then Flag.e8inv ||| Flag.nan else 0
        let z := if a.zeroBlk || b.zeroBlk then Flag.zeroBlk else 0
        { acc with p := ⟨r.w, r.fl ||| e ||| z⟩, inv := inv }
      else
        let o := passFast mode a b
        let mx := fun (s t : Option Int) => match s, t with | some y, some z => some (max y z) | some y, none => some y | none, t => t
        let r := if mode = 3 then ⟨o.p.w, acc.p.fl ||| o.p.fl⟩
          else let r := edgeAdd (x.rnd i row n) acc.p.w o.p
            ⟨r.w, acc.p.fl ||| r.fl ||| (if Sd.sr x.desc then Flag.srnd else 0)⟩
        ⟨r, inv, mx acc.ea o.ea, mx acc.eb o.eb⟩) ⟨⟨v0, 0⟩, 0, none, none⟩

/-- The magnitude of a value. -/
def FV.abs : FV → FV
  | .num _ y s => .num false y.abs s
  | .inf _ => .inf false
  | .nan s => .nan s

/-- An FP32 sum of check values joins a running one, with its flags. -/
def FR.plus (s : FR) (v : FV) : FR :=
  let r := FFmt.f32.addFast .rne false (FFmt.f32.decode s.w) v
  ⟨r.w, s.fl ||| r.fl⟩

/-- R86, R133: the sums σ_k and σ_k^abs of a stationary row over its active columns, ascending, FP32 to nearest, flushed in every mode
(DESIGN CHOICE, assumption 116). -/
def Dev.sigma (d : Dev) (m : Mem) (x : PassCtx) (i k : Nat) (absolute : Bool) : FR :=
  (List.range x.nOf).foldl (fun s n =>
    let b := d.stationaryAt m x i n
    let v : FV :=
      if b.invalid then .nan false
      else if b.zeroBlk then FV.zero
      else if b.isBi then FFmt.f32.decode (FFmt.f32.packFast .rne false (elemValue (biWidth b.fmt) b.scale k (b.qs.getD k 0))).w
      else b.xs.getD k FV.zero
    s.plus (if absolute then v.abs else v)) ⟨0, 0⟩

/-- R133, R137: the RC or MAG value of a row after a pass, with the flags of every operation that formed it (R98). -/
def Dev.checkStep (d : Dev) (m : Mem) (x : PassCtx) (row v0 : Nat) (absolute : Bool) : FR :=
  let mode := Sd.mode x.desc
  (List.range x.gang.gr).foldl (fun v i =>
    if x.kOf i = 0 then (if mode = 1 then strictChain 32 [] [] v else edgeAdd .rne v.w ⟨0, v.fl⟩)
    else
      let a := d.movingAt m x i row
      let a := if absolute then { a with xs := a.xs.map FV.abs, qs := a.qs.map fun q => (q.natAbs : Int) } else a
      let sums := (List.range (x.kOf i)).map fun k => d.sigma m x i k absolute
      let fl := sums.foldl (fun f s => f ||| s.fl) v.fl
      let b : OpBlk := ⟨0, keepFirst FV.zero (x.kOf i) (sums.map fun s => FFmt.f32.decode s.w), [], 0⟩
      if mode = 1 then strictChain 32 a.strictValues b.xs ⟨v.w, fl⟩
      else
        let p := (passFast mode a b).p
        if mode = 3 then ⟨p.w, fl ||| p.fl⟩
        else
          let r := edgeAdd .rne v.w p
          ⟨r.w, fl ||| r.fl⟩) ⟨v0, 0⟩

/-- R133: what a pass adds to the residues D and X of a row, modulo 65,535. -/
def Dev.residues (d : Dev) (m : Mem) (x : PassCtx) (row : Nat) : Nat × Nat :=
  if 2 ≤ Sd.fmtA x.desc ∧ 2 ≤ Sd.fmtB x.desc then
    (List.range x.gang.gr).foldl (fun acc i =>
      let a := d.movingAt m x i row
      if a.zeroBlk || x.kOf i == 0 then acc
      else
        let cols := (List.range x.nOf).map (d.stationaryAt m x i)
        let cols := cols.filter fun b => ! b.zeroBlk
        let dd := (cols.map (passS a)).foldl (· + ·) 0
        let xx := ((List.range 32).map fun k =>
          let tau := (cols.map fun b => 2 ^ (3 - scaleSS b.scale (k / 8)) * b.qs.getD k 0).foldl (· + ·) 0
          2 ^ (3 - scaleSS a.scale (k / 8)) * a.qs.getD k 0 * tau).foldl (· + ·) 0
        (((acc.1 : Int) + dd) % 65535 |>.toNat, ((acc.2 : Int) + xx) % 65535 |>.toNat)) (0, 0)
  else (0, 0)

/-- Words of an accumulator set. -/
def AccSet.at (s : AccSet) (row col : Nat) : Nat := (SMap.at s.cells (row * 64 + col) 0).toNat
def AccSet.put (s : AccSet) (row col v : Nat) : AccSet :=
  { s with cells := SMap.putD s.cells (row * 64 + col) (BitVec.ofNat 32 v) 0 }

/-- Flags join those of the tile that holds a row. -/
def AccSet.join (s : AccSet) (row fl : Nat) : AccSet :=
  { s with flags := SMap.put s.flags (row / 32) (SMap.at s.flags (row / 32) 0 ||| fl) }

/-- R113, R133: the starting values of one row at the OPEN pass of a segment. -/
def initRow (m : Mem) (u : Nat) (x : PassCtx) (s : AccSet) (row : Nat) : AccSet :=
  let s := (List.range 36).foldl (fun s c => s.put row c 0) s
  if Sd.load x.desc ∧ Sd.mode x.desc ≠ 3 then
    (List.range x.nOf).foldl (fun s n =>
      let v := lsNat m u (64 * Sd.lbase x.desc + 128 * row + 4 * n) 4
      let y := FFmt.f32.decode v
      let rc := FR.plus ⟨s.at row 32, 0⟩ y
      let mag := FR.plus ⟨s.at row 33, 0⟩ y.abs
      (((s.put row n v).put row 32 rc.w).put row 33 mag.w).join row (rc.fl ||| mag.fl)) s
  else s

/-- One row of one pass joins an accumulator set: the data columns, RC, MAG, D and X, and the tile's flags (R98, R137). -/
def Dev.rowStep (d : Dev) (m : Mem) (x : PassCtx) (s : AccSet) (row : Nat) : AccSet :=
  let s := (List.range x.nOf).foldl (fun s n =>
    let o := d.outputStep m x row n (s.at row n)
    let t := row / 32
    let mx := fun (p : Option Int) (q : Option Int) => match p, q with | some y, some z => some (max y z) | some y, none => some y | none, q => q
    let ea := match mx (SMap.find s.ea t) o.ea with | some e => SMap.put s.ea t e | none => s.ea
    ({ s.put row n o.p.w with inv := SMap.put s.inv t (SMap.at s.inv t 0 ||| o.inv), ea := ea, eb := mx s.eb o.eb }).join row o.p.fl) s
  let rc := d.checkStep m x row (s.at row 32) false
  let mag := d.checkStep m x row (s.at row 33) true
  let s := ((s.put row 32 rc.w).put row 33 mag.w).join row (rc.fl ||| mag.fl)
  let r := d.residues m x row
  (s.put row 34 ((s.at row 34 + r.1) % 65535)).put row 35 ((s.at row 35 + r.2) % 65535)

/-- R127, R134: what a pass adds to CHAIN. -/
def PassCtx.chain (x : PassCtx) : Nat := if Sd.mode x.desc = 1 then x.kTotal else (x.kTotal + 31) / 32

/-- R190, R350: the pass of a segment over one gang column. -/
def Dev.passCtx (d : Dev) (c : Nat) (g : Gang) (desc j : Nat) (last : Bool) (gcol srT srI : Nat) : PassCtx :=
  ⟨c, g, desc, j, last, gcol, (d.srKey srT).1, (d.srKey srT).2, srI⟩

/-- One pass over the given rows of one gang column's set. -/
def Dev.passRows (d : Dev) (m : Mem) (x : PassCtx) (fresh : Bool) (rows : List Nat) (s : AccSet) : AccSet :=
  let u := (d.atPos x.c (x.gang.row + x.gang.gr - 1) (x.gang.col + x.gcol)).1
  let s := if fresh then rows.foldl (initRow m u x) { s with chain := if Sd.load x.desc && Sd.mode x.desc != 3 then 1 else 0 } else s
  let s := rows.foldl (d.rowStep m x) s
  { s with chain := s.chain + x.chain }

/-! ## Segments and sets (R115, R116, R188) -/

def segKey (arr set : Nat) : Nat := arr * 4 + set

def UnitSt.passQ (x : UnitSt) (arr : Nat) : List PassReq := if arr = 0 then x.passQ0 else x.passQ1
def UnitSt.setPassQ (x : UnitSt) (arr : Nat) (q : List PassReq) : UnitSt :=
  if arr = 0 then { x with passQ0 := q } else { x with passQ1 := q }
def UnitSt.inFlight (x : UnitSt) (arr : Nat) : Option (Nat × Nat) := if arr = 0 then x.inFlight0 else x.inFlight1
def UnitSt.setInFlight (x : UnitSt) (arr : Nat) (q : Option (Nat × Nat)) : UnitSt :=
  if arr = 0 then { x with inFlight0 := q } else { x with inFlight1 := q }
def UnitSt.seg (x : UnitSt) (arr set : Nat) : SegSet := SMap.at x.segs (segKey arr set) {}
def UnitSt.setSeg (x : UnitSt) (arr set : Nat) (v : SegSet) : UnitSt := { x with segs := SMap.put x.segs (segKey arr set) v }
def UnitSt.acc (x : UnitSt) (arr set : Nat) : AccSet := SMap.at x.accs (segKey arr set) {}
def UnitSt.setAcc (x : UnitSt) (arr set : Nat) (v : AccSet) : UnitSt := { x with accs := SMap.put x.accs (segKey arr set) v }
def UnitSt.entry (x : UnitSt) (e : Nat) : CqEntry := SMap.at x.cq e {}
def UnitSt.setEntry (x : UnitSt) (e : Nat) (v : CqEntry) : UnitSt := { x with cq := SMap.put x.cq e v }

/-- The entries of the cloth queue in a state. -/
def UnitSt.inState (x : UnitSt) (st : Nat) : List Nat := (List.range 8).filter fun e => (x.entry e).st == st

/-- R115, R188: which segment a set is open for, counting the passes that wait in the queue. -/
def UnitSt.openSeg (x : UnitSt) (arr set : Nat) : Option Nat :=
  match ((x.passQ arr).filter (fun p => p.set == set)).getLast? with
  | some p => if p.isClose then none else some p.seg
  | none => let s := x.seg arr set; if s.st = 1 ∧ ! s.closing then some s.seg else none

/-- The units that own an array of a gang. -/
def Dev.gangUnits (d : Dev) (c : Nat) (g : Gang) : List Nat :=
  ((List.range g.gr).flatMap fun i => (List.range g.gc).map fun j => (d.atPos c (g.row + i) (g.col + j)).1).eraseDups

/-- R120: the unit and the array at the origin of a gang. -/
def Dev.leaderOf (d : Dev) (c : Nat) (g : Gang) : Nat × Nat := d.atPos c g.row g.col

/-- The gangs that hold an array of a unit. -/
def Dev.gangsOf (d : Dev) (u : Nat) : List Gang := ((List.range 2).filterMap (d.gangOf u)).eraseDups

/-- R114, R115: the state of set A or B of an array: 0 FREE, 1 OPEN, 2 DRAINING. Only a bottom-row array of a gang holds sets; they are open
while the leader's segment is. -/
def Dev.setState (d : Dev) (u arr set : Nat) : Nat :=
  if ((d.unit u).acc arr set).draining then 2
  else
    match d.posOf u arr, d.gangOf u arr with
    | some p, some g =>
      let l := d.leaderOf (clusterOf u) g
      if p.1 + 1 = g.row + g.gr ∧ ((d.unit l.1).seg l.2 set).st = 1 then 1 else 0
    | _, _ => 0

/-- R61: an array takes part in a segment that its gang leader runs, or the array test runs. -/
def Dev.matrixWorks (d : Dev) (u : Nat) : Bool :=
  d.rd Reg.MATRIX_TEST_STAT_RESULT u == 1 || (d.gangsOf u).any fun g =>
    let l := d.leaderOf (clusterOf u) g
    (List.range 2).any fun set => ((d.unit l.1).seg l.2 set).st != 0

/-- R146: the STATE word of a MATRIX page, the outstanding count of R145 and the block state follow the unit. -/
def Dev.matrixView (d : Dev) (u : Nat) : Dev :=
  let x := d.unit u
  let use := fun arr => if (x.acc arr 2).rows ≠ 0 then 3 else if d.setState u arr 0 ≠ 0 then 1 else if d.setState u arr 1 ≠ 0 then 2 else 0
  let ganged := fun arr => match d.gangOf u arr with | some g => ofB (decide (1 < g.gr * g.gc)) | none => 0
  let n := ([(0, 0), (0, 1), (1, 0), (1, 1)].filter fun k => d.setState u k.1 k.2 != 0).length
  let works := n != 0 || d.matrixWorks u
  let d := (d.wr Reg.MATRIX_STATE_SET0 u (use 0)).wr Reg.MATRIX_STATE_SET1 u (use 1)
  let d := (d.wr Reg.MATRIX_STATE_GANGED0 u (ganged 0)).wr Reg.MATRIX_STATE_GANGED1 u (ganged 1)
  let d := d.wr Reg.MATRIX_STATE_CQ_FILL u (8 - (x.inState 0).length)
  let d := d.wr Reg.MATRIX_STATE_RECOMPUTING u (ofB x.recomputing)
  let d := d.setReqs (pgMatrix u) n 0
  if works then d.busy (pgMatrix u) else d.idle (pgMatrix u)

/-- R122: GANG.LIVE marks the positions of enabled multi-array gangs; the units' views follow. -/
def Dev.gangView (d : Dev) (c : Nat) : Dev :=
  let gs := ((List.range 8).filterMap (d.gangSlot c)).filter fun g => decide (1 < g.gr * g.gc)
  let d := d.wr Reg.GANG_LIVE c (((List.range 32).map fun k => if gs.any (fun g => g.covers (k / 8) (k % 8)) then 2 ^ k else 0).sum)
  (unitsOf c).foldl Dev.matrixView d

/-- R110, R117, R125: the streaming cycles of a pass and the cycles its stationary tile takes to load. -/
def streamCycles (desc : Nat) : Nat :=
  let rows := Sd.rows desc
  let wider := min (Sd.fmtA desc) (Sd.fmtB desc)
  let fast := fun n => match wider with | 0 => 2 * n | 1 => n | 2 => (n + 1) / 2 | 3 => (n + 3) / 4 | _ => (n + 7) / 8
  match Sd.mode desc with
  | 1 => fast (32 * rows)
  | 2 => 3 * rows
  | 3 => 7 * rows
  | _ => fast rows
def loadCycles (desc : Nat) : Nat := if Sd.fmtB desc = 0 ∨ 2 ≤ Sd.mode desc then 64 else 32

/-- R131: how long an activation row is on its way until its last write. In STRICT a hop from one cell row to the next takes as long as a row
takes to stream (DEDUCED, assumption 117). -/
def fillCycles (desc gr gc : Nat) : Nat :=
  let hop := if Sd.mode desc = 1 then [64, 32, 16, 8, 4].getD (min (Sd.fmtA desc) (Sd.fmtB desc)) 1 else 1
  35 * gr + 33 * gc - 1 + 32 * gr * (hop - 1)

/-- R199: the cycle a unit's sequencer has reached by now. -/
def Dev.cycleOf (d : Dev) (u : Nat) : Nat :=
  let x := d.unit u
  x.cyc + (d.now - x.cycAt) * opMhz (d.rd Reg.RCLOCK_OP (regionOf u)) / 10

/-- R125, R126: the front of a pass that enters at cycle `c` or later, after the pass `prev` of its array, given as front and streaming cycles, and the cycles
in which no activation enters because its stationary tile still loads. `w` is what that load takes, `fill` how long the earlier pass stays in the
gang after its last row. -/
def frontAt (c w fill : Nat) : Option (Nat × Nat) → Nat × Nat
  | none => (c + w, 0)
  | some (f, p) => if f + p + fill ≤ c then (c + w, 0) else (max c (f + max p w), f + w - max (f + p) c)

/-- R126, R146: a pass whose front enters at `f` and leaves by `e` is counted on the page of a unit of its gang. -/
def Dev.passCounted (d : Dev) (f e stall u : Nat) : Dev :=
  let x := d.unit u
  let d := d.setUnit u { x with busyTo := max x.busyTo e }
  (d.count Reg.MATRIX_BUSY u (e - max f x.busyTo)).count Reg.MATRIX_FRONT_STALL u stall

/-- R216: an uncorrectable local-store read: counted, raised, the unit due for retirement, the step spoiled. -/
def Dev.lsUerr (d : Dev) (u line : Nat) : Dev :=
  let pg := pgLstore u
  let d := d.uncorrectable pg (line % 4)
  let d := d.wr Reg.LSTORE_LAST_UERR u line
  ((d.raise pg 0x0501 8 Sev.error line).retireDue 1 u).spoil

/-- R213: what the store's code said of a local-store access: a corrected error is counted; an uncorrectable one is R216. -/
def Dev.lsEcc (d : Dev) (e : Ecc) (u line : Nat) : Dev :=
  match e with
  | .ok => d
  | .corrected => d.correctedError (pgLstore u) (line % 4)
  | .uncorrectable => d.lsUerr u line

/-- R115: the event of a pass whose set is not open. -/
def Dev.setNotOpen (d : Dev) (u arr set : Nat) : Dev :=
  d.raise (pgSeq u) 0x0401 8 Sev.warn (d.rd Reg.SEQ_STATE_PC u + 65536 * (arr + 2 * set))

/-- The gang that a CHECKING tile of a unit came from, by its leader's unit and array. -/
def UnitSt.checkingGang (x : UnitSt) : Option (Nat × Nat) := (x.inState 3).head?.map fun e => ((x.entry e).leader, (x.entry e).lArr)

/-- R139, R144: a mismatch in the gang that array `arr` of `u` leads waits for its recompute, so the gang holds its next front. -/
def Dev.gangHeld (d : Dev) (u arr : Nat) : Bool := (d.cluster (clusterOf u)).mmQueue.any fun w => (d.unit w).checkingGang == some (u, arr)

/-- R116, R169: the next tile of a DRAINING set takes a FREE entry of the cloth queue at its first row, one tile of an array at a time; none
when no entry is FREE. -/
def Dev.takeEntry (d : Dev) (u arr set : Nat) : Option Dev :=
  let x := d.unit u
  let s := x.acc arr set
  if ! s.draining || (x.inState 1).any (fun e => (x.entry e).arr == arr) then some d
  else
    match x.inState 0 with
    | [] => none
    | e :: _ =>
      some ((d.setUnit u (x.setEntry e { st := 1, arr := arr, set := set, tile := s.nextTile, seg := s.seg, leader := s.leader, lArr := s.lArr })).matrixView u)

/-- R112 to R118, R126: the pass `p` of array `arr` of `u` enters its gang `g`; `rest` of its queue stays. -/
def Dev.passGo (m : Mem) (u arr : Nat) (ecc : Ecc) (g : Gang) (p : PassReq) (rest : List PassReq) (d : Dev) : Dev :=
  let c := clusterOf u
  let sg0 := (d.unit u).seg arr p.set
  let desc := if p.isOpen then segDesc m u p.seg else sg0.desc
  let sg := if p.isOpen then { st := 1, seg := p.seg, desc := desc, j := 0, closing := false, srTensor := p.srTensor, srIndex := p.srIndex : SegSet } else sg0
  let cp := Sd.mode desc == 3
  let fresh := p.isOpen || cp
  let bots := d.bottoms c g
  let d := (List.range g.gc).foldl (fun d gcol =>
    let b := d.atPos c (g.row + g.gr - 1) (g.col + gcol)
    let y := d.unit b.1
    let s0 := y.acc b.2 p.set
    let s0 := if fresh then { leader := u, lArr := arr, set := p.set, gcol := gcol, srTensor := sg.srTensor, srIndex := sg.srIndex : AccSet } else s0
    let ctx := d.passCtx c g desc sg.j p.isClose gcol sg.srTensor sg.srIndex
    let s1 := d.passRows m ctx fresh (List.range (Sd.rows desc)) s0
    let s1 := { s1 with rows := Sd.rows desc, seg := p.seg, desc := desc, jLast := sg.j,
                        draining := p.isClose || cp, cpPass := cp && ! p.isClose, closed := p.isClose, nextTile := 0 }
    d.setUnit b.1 (y.setAcc b.2 p.set s1)) d
  let x := d.unit u
  let n := streamCycles desc
  let fill := fillCycles desc g.gr g.gc
  let f := frontAt (d.cycleOf u) (loadCycles desc) (fill - 1) (x.inFlight arr)
  let x := (x.setPassQ arr rest).setInFlight arr (some (f.1, n))
  let x := x.setSeg arr p.set { sg with j := sg.j + 1, st := if p.isClose then 2 else 1 }
  let us := d.gangUnits c g
  let d := us.foldl (Dev.passCounted · f.1 (f.1 + n + fill - 1) f.2 ·) (d.setUnit u x)
  let d := us.foldl Dev.matrixView (d.lsEcc ecc u (Sd.mbase desc))
  bots.foldl (fun d b => (d.takeEntry b.1 b.2 p.set).getD d) d

/-- R115, R116, R139: the pass at the front of an array's queue enters its gang when it may. -/
def Dev.passEntry (m : Mem) (u arr : Nat) (ecc : Ecc) (d : Dev) : Dev :=
  let x := d.unit u
  match x.passQ arr, d.gangOf u arr with
  | p :: rest, some g =>
    let sg := x.seg arr p.set
    let draining := (d.bottoms (clusterOf u) g).any fun b => ((d.unit b.1).acc b.2 p.set).draining
    if x.held || d.gangHeld u arr then d
    else if draining || (p.isOpen && (sg.st == 2 || sg.closing)) then
      d.count Reg.MATRIX_DRAIN_STALL u
    else if ! p.isOpen && sg.st != 1 then
      (d.setUnit u (x.setPassQ arr rest)).setNotOpen u arr p.set
    else d.passGo m u arr ecc g p rest
  | _, _ => d

/-- R134: the tile `t` of an accumulator set as a cloth-queue entry. -/
def AccSet.tile (s : AccSet) (t arr seqNo : Nat) (recomp : Bool) : CqEntry :=
  let valid := min 32 (s.rows - 32 * t)
  let cell := fun m c => if m < valid then s.at (32 * t + m) c else 0
  let colSum := fun c => (List.range 31).foldl (fun v m =>
    (FFmt.f32.addFast .rne false (FFmt.f32.decode v) (FFmt.f32.decode (cell (m + 1) c))).w) (cell 0 c)
  let put := fun (w : SMap Word) (k v : Nat) => SMap.putD w k (BitVec.ofNat 32 v) 0
  let w := (List.range 32).foldl (fun w m => (List.range 32).foldl (fun w h => put w (32 * m + h) (cell m h)) w) []
  let w := (List.range 32).foldl (fun w m =>
    put (put (put (put w (1024 + m) (cell m 32)) (1056 + m) (cell m 33)) (1088 + m) (cell m 34)) (1120 + m) (cell m 35)) w
  let w := (List.range 33).foldl (fun w h => put w (1152 + h) (colSum h)) w
  let mode := Sd.mode s.desc
  { st := 2, seq := seqNo, flags := SMap.at s.flags t 0, fmtA := Sd.fmtA s.desc, fmtB := Sd.fmtB s.desc, mode := mode
    sr := Sd.sr s.desc, arr := arr, tile := t, recomp := recomp, invOp := SMap.at s.inv t 0, rows := valid, seg := s.seg
    eab := if 2 ≤ mode then (SMap.find s.ea t).getD (-125) + s.eb.getD (-125) else 0
    chain := s.chain, words := w, leader := s.leader, lArr := s.lArr, desc := s.desc, jLast := s.jLast, gcol := s.gcol
    srTensor := s.srTensor, srIndex := s.srIndex, closed := s.closed }

/-- R115, R116: a set whose last tile has entered the queue is FREE for the leader once every bottom array has drained its own. -/
def Dev.setFreed (d : Dev) (s : AccSet) (set : Nat) : Dev :=
  let c := clusterOf s.leader
  match d.gangOf s.leader s.lArr with
  | some g =>
    if (d.bottoms c g).any fun b => ((d.unit b.1).acc b.2 set).draining then d
    else
      let l := d.unit s.leader
      (d.gangUnits c g).foldl Dev.matrixView
        (d.setUnit s.leader (l.setSeg s.lArr set { l.seg s.lArr set with st := if s.cpPass then 1 else 0 }))
  | none => d

/-- R116, R169: the tile that a DRAINING set fills becomes WHOLE, and the set's next tile takes an entry; a tile that has none yet takes it now,
or holds. `eccBad` says that the set held an uncorrectable word (R138). -/
def Dev.tileDrain (u arr set : Nat) (eccBad : Bool) (d : Dev) : Dev :=
  let x := d.unit u
  let s := x.acc arr set
  if ! s.draining then d
  else
    match (x.inState 1).find? (fun e => (x.entry e).arr == arr && (x.entry e).set == set) with
    | none => (d.takeEntry u arr set).getD (d.count Reg.MATRIX_CQ_STALL u)
    | some e =>
      let t := { s.tile s.nextTile arr x.cqSeq false with eccBad := eccBad, set := set }
      let x := { x.setEntry e t with cqSeq := x.cqSeq + 1 }
      let fin := decide ((s.rows + 31) / 32 ≤ s.nextTile + 1)
      let s' := if fin then { s with draining := false } else { s with nextTile := s.nextTile + 1 }
      let d := d.setUnit u (x.setAcc arr set s')
      let d := (List.range 13).foldl (fun d f => if bit t.flags f then d.bump Reg.MATRIX_FLAG_CNT u 1 f else d) d
      let d := ((if fin then d.setFreed s set else d).matrixView u)
      let d := (d.takeEntry u arr set).getD d
      (d.takeEntry u arr (1 - set)).getD d

/-- R145: the segments that a gang runs are discarded: its sets, open or draining, with the tile being drained, and its waiting passes. -/
def Dev.discardGang (d : Dev) (c : Nat) (g : Gang) : Dev :=
  let l := d.leaderOf c g
  let d := (d.bottoms c g).foldl (fun (d : Dev) b =>
    let x := d.unit b.1
    let x := { x with accs := x.accs.filter fun e => e.1 != segKey b.2 0 && e.1 != segKey b.2 1 }
    d.setUnit b.1 ((x.inState 1).foldl (fun x e => if (x.entry e).arr = b.2 then x.setEntry e {} else x) x)) d
  let d := d.setUnit l.1 (((((d.unit l.1).setSeg l.2 0 {}).setSeg l.2 1 {}).setPassQ l.2 []).setInFlight l.2 none)
  (d.gangUnits c g).foldl Dev.matrixView d

/-- R145: a forced quiesce of a MATRIX block: the open and draining sets of every gang that it has an array of are discarded. -/
def Dev.matrixForce (d : Dev) (u : Nat) : Dev := (d.gangsOf u).foldl (fun d g => d.discardGang (clusterOf u) g) d

/-! ## The array test and the counters (R142, R146) -/

/-- R59, R63, R142, R146: a write of TEST.RUN: refused while the block runs, as of any LK field; a 1 starts the array test of both arrays, unless the block
takes no work. -/
def Dev.matrixTestRun (d : Dev) (u : Nat) (go : Bool) : Nat × Dev :=
  let pg := pgMatrix u
  if ! [Bs.off, Bs.idle, Bs.quiesced].contains (d.bs pg) then (Cc.locked, d.lockRefused pg 0x0F8)
  else if go && d.refusesWork pg then (Cc.quiesced, d)
  else
    let d := d.wr Reg.MATRIX_TEST_RUN u (ofB go)
    (Cc.done, if go then (d.wr Reg.MATRIX_TEST_STAT_RESULT u 1).busy pg else d)

/-- R142: GANG.SUSPECT shows the units that await the array test. -/
def Dev.suspectView (d : Dev) (c : Nat) : Dev :=
  d.wr Reg.GANG_SUSPECT c (((d.cluster c).suspects.flatMap (·.2.1)).foldl setBit 0)

/-- R142: a unit that fails the array test is retired; once every suspect of a gang column has been tested and none has failed, the unit that owns the
bottom array is. -/
def Dev.suspectTested (d : Dev) (u : Nat) (failed : Bool) : Dev :=
  let c := clusterOf u
  let n := unitNo u
  let cl := d.cluster c
  let gs := cl.suspects.map fun x => if x.2.1.contains n then (x.1, x.2.1.filter (· != n), x.2.2 || failed) else x
  let d := (d.setCluster c { cl with suspects := gs.filter fun x => ! x.2.1.isEmpty }).suspectView c
  let d := if failed then d.retireDue 1 u else d
  gs.foldl (fun d x => if x.2.1.isEmpty && ! x.2.2 then d.retireDue 1 x.1 else d) d

/-- R146: the array test ends with the arrays that failed. -/
def Dev.arrayTestDone (u : Nat) (fail0 fail1 : Bool) (d : Dev) : Dev :=
  if d.rd Reg.MATRIX_TEST_STAT_RESULT u ≠ 1 then d
  else
    let f := ofB fail0 + 2 * ofB fail1
    let d := (d.wr Reg.MATRIX_TEST_STAT_RESULT u (if f = 0 then 2 else 3)).wr Reg.MATRIX_TEST_STAT_FAILED u f
    let d := (d.idle (pgMatrix u)).matrixView u
    let d := if f = 0 then d else d.raise (pgMatrix u) 0x0214 14 Sev.error f
    d.suspectTested u (decide (f ≠ 0))

/-- R146: CNT_CLR clears every counter at 0x088 and 0x094 to 0x0F0. -/
def matrixCounters : List Field :=
  [Reg.MATRIX_MISMATCH_TOTAL, Reg.MATRIX_BUSY, Reg.MATRIX_FRONT_STALL, Reg.MATRIX_DRAIN_STALL, Reg.MATRIX_CQ_STALL,
   Reg.MATRIX_RECOMP_CYCLES, Reg.MATRIX_FLAG_CNT]

def execPassEntry (u : BitVec 12) (arr : Bool) (ecc : Ecc) (s : State) : Host.Outcome State Fault Refusal :=
  runDev s (Dev.passEntry s.mem u.toNat (ofB arr) ecc)

def execTileDrain (u : BitVec 12) (arr set eccBad : Bool) (s : State) : Host.Outcome State Fault Refusal :=
  runDev s (Dev.tileDrain u.toNat (ofB arr) (ofB set) eccBad)

def execMatrixTestRun (r : Requester) (u : BitVec 12) (s : State) : Host.Outcome State Fault Refusal :=
  runDev s (fun d => d.action r (pgMatrix u.toNat) 0x0F8 false (fun d => d.matrixTestRun u.toNat true))

def execArrayTestDone (u : BitVec 12) (fail0 fail1 : Bool) (s : State) : Host.Outcome State Fault Refusal :=
  runDev s (Dev.arrayTestDone u.toNat fail0 fail1)

def execMatrixCntClr (r : Requester) (u : BitVec 12) (s : State) : Host.Outcome State Fault Refusal :=
  runDev s (fun d => d.action r (pgMatrix u.toNat) 0x0F4 false (fun d => (Cc.done, d.clearFields u.toNat matrixCounters)))

end Sys2Proof.Machine
end

