-- ==== Sys2Proof/Machine/Operands.lean ====
section
/-! DEFINITION. The operand forms of the V slot: element views, masks, immediates, the cloth-queue source, and how a
destination is written (R149 to R153, R172, R191 to R194). -/

namespace Sys2Proof.Machine

/-- R149, R191: element width and element count of a VIEW code. -/
def viewBits (v : Nat) : Nat := if v < 2 then 32 else if v < 5 then 16 else 8
def viewCount (v : Nat) : Nat := 2048 / viewBits v

/-- R150: whether a view is an F16 half, and the index of its first element. -/
def isHalf (v : Nat) : Bool := v == 2 || v == 3
def halfBase (v : Nat) : Nat := if v = 3 then 64 else 0

/-- Element `i` of `w` bits of a register. -/
def vElem (w : Nat) (r : VReg) (i : Nat) : Nat := (r.toNat / 2 ^ (w * i)) % 2 ^ w

/-- A register from its elements of `w` bits, element 0 first. -/
def vOfElems (w : Nat) (es : List Nat) : VReg :=
  BitVec.ofNat 2048 (es.foldr (fun e acc => acc * 2 ^ w + e % 2 ^ w) 0)

def Dev.vreg (d : Dev) (u r : Nat) : VReg := SMap.at (d.unit u).vregs r 0

/-- R153: m0 reads as all ones. -/
def Dev.mask (d : Dev) (u r : Nat) : MReg := if r = 0 then BitVec.allOnes 256 else SMap.at (d.unit u).mregs r 0
def Dev.sreg (d : Dev) (u r : Nat) : Word := SMap.at (d.unit u).sregs r 0

/-- R169: the entry that is CURRENT. -/
def Dev.currentEntry (d : Dev) (u : Nat) : Option Nat :=
  (List.range 8).find? fun e => (SMap.at (d.unit u).cq e {}).st == 5

/-- R172: rows 2r and 2r + 1 of the CURRENT tile as a register. -/
def Dev.cqReg (d : Dev) (u r : Nat) : VReg :=
  match d.currentEntry u with
  | some e => vOfElems 32 ((List.range 64).map fun i => (SMap.at (SMap.at (d.unit u).cq e {}).words (64 * r + i) 0).toNat)
  | none => 0

/-- R191: source A of a V slot as a register. -/
def Dev.srcA (d : Dev) (u : Nat) (f : VSlot) : VReg := if f.cqa then d.cqReg u (f.va.toNat % 16) else d.vreg u f.va.toNat

/-- R153: whether mask index `j` is active under MK and INV. -/
def Dev.active (d : Dev) (u : Nat) (mk : Nat) (inv : Bool) (j : Nat) : Bool := (d.mask u mk).getLsbD j != inv

/-- R150, R153: whether element `i` of a 64-element operation is active. -/
def Dev.act64 (d : Dev) (u : Nat) (f : VSlot) (i : Nat) : Bool := d.active u f.mreg.toNat f.inv (halfBase f.view.toNat + i)

/-- R150: element `i` of a register as a float value of the view. -/
def fElem (view : Nat) (r : VReg) (i : Nat) : FV :=
  if isHalf view then FFmt.f16.decode (vElem 16 r (halfBase view + i)) else FFmt.f32.decode (vElem 32 r i)

/-- R152: the immediate as a float value. -/
def immF (f : VSlot) : FV := if f.imk.toNat = 1 then FFmt.f16.decode (f.imm.toNat % 2 ^ 16) else FFmt.f32.decode f.imm.toNat

/-- R191: element `i` of source B, of source C (VD in the immediate form), as float values. -/
def Dev.fB (d : Dev) (u : Nat) (f : VSlot) (i : Nat) : FV :=
  if f.imf then immF f else fElem f.view.toNat (d.vreg u f.vb.toNat) i
def Dev.fC (d : Dev) (u : Nat) (f : VSlot) (i : Nat) : FV :=
  fElem f.view.toNat (d.vreg u (if f.imf then f.vd.toNat else f.vc.toNat)) i

/-- R152: the immediate as an element of the view's width, for operations that move bits. -/
def immBits (f : VSlot) : Nat :=
  let w := viewBits f.view.toNat
  if f.imk.toNat = 1 ∧ w = 32 then
    (match FFmt.f16.decode (f.imm.toNat % 2 ^ 16) with
     | .num neg v _ => (if neg then 2 ^ 31 else 0) ||| (FFmt.f32.packStrict false v.abs).w
     | .inf neg => FFmt.f32.inf neg
     | .nan _ => FFmt.f32.cnan)
  else if f.imk.toNat = 0 ∧ w = 16 then (Config.halfOfWord f.imm).toNat
  else f.imm.toNat % 2 ^ w

/-- Element `j` of source B as bits of the view's width. -/
def Dev.bitsB (d : Dev) (u : Nat) (f : VSlot) (j : Nat) : Nat :=
  if f.imf then immBits f else vElem (viewBits f.view.toNat) (d.vreg u f.vb.toNat) j

/-- R192: the shift count of element `j`: an element of B, or IMM itself. -/
def Dev.shiftB (d : Dev) (u : Nat) (f : VSlot) (j : Nat) : Nat :=
  if f.imf then f.imm.toNat else vElem (viewBits f.view.toNat) (d.vreg u f.vb.toNat) j

/-- Element `i` of source B as an I32 word. -/
def Dev.intB (d : Dev) (u : Nat) (f : VSlot) (i : Nat) : Nat :=
  if f.imf then f.imm.toNat else vElem 32 (d.vreg u f.vb.toNat) i

/-- R153: a register whose elements `lo … lo + n − 1` of `w` bits take new values where active, 0 where zeroing, and their old
ones elsewhere. -/
def mergeElems (old : VReg) (w lo n : Nat) (act : Nat → Bool) (zm : Bool) (val : Nat → Nat) : VReg :=
  vOfElems w ((List.range (2048 / w)).map fun e =>
    if lo ≤ e ∧ e < lo + n then
      (if act (e - lo) then val (e - lo) else if zm then 0 else vElem w old e)
    else vElem w old e)

/-- R153: the same for the bits of a mask register. -/
def mergeBits (old : MReg) (lo n : Nat) (act : Nat → Bool) (zm : Bool) (val : Nat → Bool) : MReg :=
  BitVec.ofNat 256 ((List.range 256).foldr (fun e acc =>
    acc * 2 + ofB (if lo ≤ e ∧ e < lo + n then
      (if act (e - lo) then val (e - lo) else if zm then false else old.getLsbD e) else old.getLsbD e)) 0)

/-- A destination of 64 elements of the view: an F16 half or the 32-bit elements. -/
def Dev.write64 (d : Dev) (u : Nat) (f : VSlot) (val : Nat → Nat) : RegWr :=
  let old := d.vreg u f.vd.toNat
  if isHalf f.view.toNat then .v f.vd.toNat (mergeElems old 16 (halfBase f.view.toNat) 64 (d.act64 u f) f.zm val)
  else .v f.vd.toNat (mergeElems old 32 0 64 (d.act64 u f) f.zm val)

/-- A destination of 64 32-bit elements, whatever the view. -/
def Dev.write32 (d : Dev) (u : Nat) (f : VSlot) (val : Nat → Nat) : RegWr :=
  .v f.vd.toNat (mergeElems (d.vreg u f.vd.toNat) 32 0 64 (d.act64 u f) f.zm val)

/-- A full-width destination: every element of the view. -/
def Dev.writeAll (d : Dev) (u : Nat) (f : VSlot) (val : Nat → Nat) : RegWr :=
  .v f.vd.toNat (mergeElems (d.vreg u f.vd.toNat) (viewBits f.view.toNat) 0 (viewCount f.view.toNat)
    (d.active u f.mreg.toNat f.inv) f.zm val)

/-- A mask destination of 64 elements. -/
def Dev.writeMask64 (d : Dev) (u : Nat) (f : VSlot) (val : Nat → Bool) : RegWr :=
  .m (f.vd.toNat % 8) (mergeBits (d.mask u (f.vd.toNat % 8)) (halfBase f.view.toNat) 64 (d.act64 u f) f.zm val)

/-- A mask destination of all 256 bits, or of the first `n`. -/
def Dev.writeMask (d : Dev) (u : Nat) (f : VSlot) (n : Nat) (val : Nat → Bool) : RegWr :=
  .m (f.vd.toNat % 8) (mergeBits (d.mask u (f.vd.toNat % 8)) 0 n (d.active u f.mreg.toNat f.inv) f.zm val)

/-! ## R194: the encodings a V slot may hold -/

/-- Opcodes that take a source B that an immediate may replace. -/
def takesB (opc : Nat) : Bool :=
  [1, 2, 3, 4, 5, 6, 0x0A, 0x0B, 0x0C, 0x10, 0x11, 0x12, 0x13, 0x14, 0x15, 0x18, 0x30, 0x31, 0x32, 0x33, 0x34, 0x35, 0x36,
   0x37, 0x38, 0x39, 0x3A, 0x40, 0x41, 0x42, 0x44, 0x45, 0x46, 0x4A, 0x4C].contains opc

/-- Opcodes that take a CTL immediate. -/
def takesCtl (opc : Nat) : Bool := [0x0D, 0x48, 0x49, 0x50, 0x51, 0x52, 0x53, 0x5D, 0x61].contains opc

/-- Opcodes whose destination is a mask register. -/
def writesMask (opc : Nat) : Bool :=
  [0x0D, 0x10, 0x11, 0x12, 0x13, 0x14, 0x15, 0x35, 0x36, 0x37, 0x38, 0x39, 0x3A, 0x58, 0x59, 0x5A, 0x5B, 0x5C, 0x5D, 0x5F].contains opc

/-- Opcodes with a vector source A. -/
def takesA (opc : Nat) : Bool :=
  opc != 0 && ! [0x58, 0x59, 0x5A, 0x5B, 0x5C, 0x5D, 0x5E, 0x60, 0x61, 0x68].contains opc

/-- R158, R162, R163, R168: which ATTR an opcode allows. -/
def attrOk (opc attr : Nat) : Bool :=
  match attr with
  | 0 => true
  | 1 => decide ((1 ≤ opc ∧ opc ≤ 6) ∨ (8 ≤ opc ∧ opc ≤ 15) ∨ (0x10 ≤ opc ∧ opc ≤ 0x15) ∨ (0x18 ≤ opc ∧ opc ≤ 0x1B) ∨
      opc = 0x50 ∨ opc = 0x28 ∨ opc = 0x29)
  | 2 => opc == 1 || opc == 2
  | _ => [1, 2, 4, 0x28, 0x2C].contains opc

/-- R193: the operation fields of the conversions to and from blocks. -/
def opxFmt (f : VSlot) : Nat := bits f.opx.toNat 0 4
def opxP (f : VSlot) : Nat := bits f.opx.toNat 4 4
def opxSupplied (f : VSlot) : Bool := f.opx.getLsbD 8
def opxSS (f : VSlot) : Bool := f.opx.getLsbD 9
def opxStat (f : VSlot) : Nat := bits f.opx.toNat 10 3

/-- R194, R205: whether a V slot with opcode `opc` breaks no rule that applies to a single slot. -/
def vOk (opc : Nat) (f : VSlot) : Bool :=
  let v := f.view.toNat
  let opxUsed := if opc = 0x2C then 13 else if opc = 0x2D then 8 else 0
  decide (v ≤ 5) &&
  (if f.imf then
    (if takesCtl opc then f.imk.toNat == 3
     else takesB opc && (if f.imk.toNat = 2 then [1, 4, 5].contains v else if f.imk.toNat = 3 then false else [0, 2, 3].contains v))
   else ! takesCtl opc && f.imk.toNat == 0 && decide (f.opx.toNat < 2 ^ opxUsed)) &&
  (! (0x50 ≤ opc && opc ≤ 0x53) || (v == 0 && [64, 32, 16, 8].contains f.imm.toNat)) &&
  (! (opc == 0x28 || opc == 0x29) || isHalf v) &&
  (! (opc == 0x2C || opc == 0x2D) || (decide (2 ≤ opxFmt f ∧ opxFmt f ≤ 4) && decide (opxP f < 2 ^ opxFmt f))) &&
  (! writesMask opc || (decide (f.vd.toNat < 8) && f.vd.toNat != 0)) &&
  (! f.cqa || takesA opc) && (! f.rel || f.cqa) && attrOk opc f.attr.toNat

/-! ## R155, R162, R199: what a V operation reads and writes, how long it holds the slot, when its result can be read

Registers are numbered 0 to 31 for v0–v31, 32 to 39 for m0–m7, 64 to 79 for s0–s15. -/

def vSources (opc : Nat) (f : VSlot) : List Nat :=
  if opc = 0 ∨ opc = 0x68 then []
  else
    [32 + f.mreg.toNat] ++ (if takesA opc && ! f.cqa then [f.va.toNat] else []) ++
      (if [0x58, 0x59, 0x5A, 0x5B, 0x5C, 0x5E].contains opc then [32 + f.va.toNat % 8] else []) ++
      (if 0x58 ≤ opc ∧ opc ≤ 0x5B then [32 + f.vb.toNat % 8] else []) ++
      (if ! f.imf && (takesB opc || [0x0E, 0x2C, 0x2D].contains opc) then [f.vb.toNat] else []) ++
      (if 4 ≤ opc ∧ opc ≤ 6 then [if f.imf then f.vd.toNat else f.vc.toNat] else []) ++
      (if opc = 0x0E then [32 + f.vc.toNat % 8] else [])

def vDests (opc : Nat) (f : VSlot) : List Nat :=
  if opc = 0 ∨ opc = 0x68 then []
  else if writesMask opc then [32 + f.vd.toNat % 8]
  else if opc = 0x2C then [f.vd.toNat, f.vb.toNat].eraseDups
  else [f.vd.toNat]

/-- R155, R162, R192: weight and latency. -/
def vTiming (opc attr : Nat) : Nat × Nat :=
  if attr = 1 ∧ (opc ≤ 0x15 ∨ opc = 0x28 ∨ opc = 0x29) then (4, 8)
  else if attr = 1 ∧ opc ≤ 0x1B then (16, 30)
  else if attr = 1 ∧ opc = 0x50 then (64, 66)
  else if opc ≤ 6 then (1, 4)
  else if opc ≤ 0x15 then (1, 2)
  else if opc ≤ 0x1B then (4, 12)
  else if opc ≤ 0x1D then (2, 10)
  else if opc ≤ 0x23 then (4, 14)
  else if opc ≤ 0x26 then (8, 18)
  else if opc ≤ 0x2D then (1, 6)
  else if opc ≤ 0x3A then (1, 2)
  else if opc ≤ 0x46 then (1, 1)
  else if opc ≤ 0x4C then (1, 3)
  else if opc ≤ 0x53 then (1, 8)
  else if opc ≤ 0x5F then (1, 1)
  else if opc ≤ 0x61 then (1, 2)
  else (1, 1)

def dSources (opc : Nat) (f : DSlot) : List Nat :=
  if opc = 2 then [f.reg.toNat, 32 + f.mreg.toNat] else if opc = 4 then [32 + f.reg.toNat % 8] else []

def dDests (opc : Nat) (f : DSlot) : List Nat :=
  (if opc = 1 then [f.reg.toNat] else if opc = 3 then [32 + f.reg.toNat % 8] else []) ++ (if opc ≠ 0 ∧ f.pinc then [64 + f.sb.toNat] else [])

/-- R196. -/
def dLatency (opc : Nat) : Nat := if opc = 1 then 6 else if opc = 3 then 4 else 1

def cDests (opc : Nat) (f : CSlot) : List Nat := if 1 ≤ opc ∧ opc ≤ 8 then [64 + f.sd.toNat] else []

/-! ## The fields of the slot words (R187, R191, R195, R198) -/

def mSlotOf (w : Nat) : MSlot :=
  { arr := bit w 8, set := bit w 9, isOpen := bit w 10, isClose := bit w 11, seg := BitVec.ofNat 16 (bits w 12 16) }

def vSlotOf (w : Nat) : VSlot :=
  let imf := bit w 29
  { vd := BitVec.ofNat 5 (bits w 7 5), va := BitVec.ofNat 5 (bits w 12 5), cqa := bit w 17, mreg := BitVec.ofNat 3 (bits w 18 3),
    inv := bit w 21, zm := bit w 22, view := BitVec.ofNat 3 (bits w 23 3), rel := bit w 26, attr := BitVec.ofNat 2 (bits w 27 2),
    imf := imf, imk := BitVec.ofNat 2 (bits w 30 2), vb := BitVec.ofNat 5 (if imf then 0 else bits w 32 5),
    vc := BitVec.ofNat 5 (if imf then 0 else bits w 37 5), opx := BitVec.ofNat 22 (if imf then 0 else bits w 42 22),
    imm := BitVec.ofNat 32 (if imf then bits w 32 32 else 0) }

def dSlotOf (w : Nat) : DSlot :=
  { reg := BitVec.ofNat 5 (bits w 8 5), sb := BitVec.ofNat 4 (bits w 13 4), off := BitVec.ofNat 13 (bits w 17 13),
    mreg := BitVec.ofNat 3 (bits w 30 3), inv := bit w 33, view := BitVec.ofNat 3 (bits w 34 3), inc := BitVec.ofNat 13 (bits w 37 13),
    pinc := bit w 50, tag := BitVec.ofNat 4 (bits w 51 4) }

def cSlotOf (w : Nat) : CSlot :=
  { sd := BitVec.ofNat 4 (bits w 8 4), sa := BitVec.ofNat 4 (bits w 12 4), sb := BitVec.ofNat 4 (bits w 16 4),
    cx := BitVec.ofNat 12 (bits w 20 12), imm := BitVec.ofNat 32 (bits w 32 32) }

end Sys2Proof.Machine
end

