-- ==== Sys2Proof/Machine/Slot.lean ====
section
/-! DEFINITION. Issue: the common frame of every slot operation, the end of a bundle, stops, and the M slot (R184 to R188,
R199, R200, R204, R205). -/

namespace Sys2Proof.Machine

/-- R206: STATE.SEQ. -/
def Dev.seqState (d : Dev) (u : Nat) : Nat := d.rd Reg.SEQ_STATE_SEQ u

/-- Whether a unit's sequencer can issue: STATE.SEQ is one of `sts`, its SEQ block is running or draining, no mismatch
holds it (R139, R204), and its region is not in a shelf state (R464, R479). -/
def Dev.issuing (d : Dev) (u : Nat) (sts : List Nat) : Bool :=
  unitOk u && sts.contains (d.seqState u) && [Bs.run, Bs.quiescing].contains (d.bs (pgSeq u)) && ! (d.unit u).held &&
    d.rd Reg.RCLOCK_SHELF (regionOf u) == 0

/-- R146, R181: STATE.STOPPED of the MATRIX and VECTOR pages tells whether issue is stopped under R141, and under R172 or R174. -/
def Dev.stoppedView (d : Dev) (u : Nat) : Dev :=
  let stop := if d.seqState u = 6 then d.rd Reg.SEQ_STATE_STOP u else 0
  (d.wr Reg.MATRIX_STATE_STOPPED u (ofB (stop == 1))).wr Reg.VECTOR_STATE_STOPPED u (ofB (stop == 2 || stop == 3))

/-- R174: a unit that is reset or re-placed is stopped no more. -/
def Dev.unstop (d : Dev) (u : Nat) : Dev :=
  if d.seqState u = 6 then ((d.wr Reg.SEQ_STATE_SEQ u 0).wr Reg.SEQ_STATE_STOP u 0).stoppedView u else d

/-- Issue stops in all four slots with a cause; the first cause is kept (R206). The bundle in progress writes nothing. -/
def Dev.stopUnit (d : Dev) (u cause : Nat) : Dev :=
  if d.seqState u = 6 then d
  else
    let d := ((d.wr Reg.SEQ_STATE_SEQ u 6).wr Reg.SEQ_STATE_STOP u cause).stoppedView u
    let d := d.setUnit u { d.unit u with bundle := [], ending := false, barWait := none, barDone := false }
    d.setReqs (pgSeq u) 0 (d.info (pgSeq u)).reqOut

/-- R205: an illegal bundle. -/
def Dev.illegalBundle (d : Dev) (u : Nat) : Dev :=
  (d.raise (pgSeq u) 0x0408 15 Sev.error (d.rd Reg.SEQ_STATE_PC u)).stopUnit u 4

/-- R205, R213: an uncorrectable instruction-store read. -/
def Dev.istoreUerr (d : Dev) (u : Nat) : Dev :=
  let d := d.stopUnit u 7
  let d := d.setBs (pgSeq u) Bs.fault
  (d.uncorrectable (pgSeq u) 0).uerrCount (pgIstore u) 0

/-- One register write applied. -/
def UnitSt.applyWr (x : UnitSt) : RegWr → UnitSt
  | .v r v => { x with vregs := SMap.putD x.vregs r v 0 }
  | .m r v => { x with mregs := SMap.putD x.mregs r v 0 }
  | .s r v => { x with sregs := SMap.putD x.sregs r v 0 }

/-- R200: the loops after the bundle at `pc`: where issue goes on, and the loops left open. -/
def loopBack (pc : Nat) : List LoopSt → Nat × List LoopSt
  | [] => (pc + 1, [])
  | l :: ls =>
    if l.last = pc then
      (if 0 < l.left then (l.first, { l with left := l.left - 1, idx := l.idx + 1 } :: ls) else loopBack pc ls)
    else (pc + 1, l :: ls)

/-- R200, R204, R205: every slot of the bundle has issued, and issue goes on. -/
def Dev.endBundle (d : Dev) (u : Nat) : Dev :=
  let x := d.unit u
  let pc := d.rd Reg.SEQ_STATE_PC u
  let nx := loopBack pc x.loops
  let x1 := { x with bundle := [], ending := false, barDone := false, loops := if x.ending then x.loops else nx.2 }
  let d1 := ((d.setUnit u x1).count Reg.SEQ_ISSUED u).wr Reg.SEQ_STATE_LOOPS u x1.loops.length
  if x.ending then
    ((((d1.wr Reg.SEQ_STATE_SEQ u 5).wr Reg.SEQ_STATE_PC u ((pc + 1) % 2048))).setReqs (pgSeq u) 0 (d.info (pgSeq u)).reqOut).idle (pgSeq u)
  else if nx.1 = pc + 1 ∧ pc = d.rd Reg.SEQ_IMG_HI u then d1.illegalBundle u
  else d1.wr Reg.SEQ_STATE_PC u nx.1

/-- What a slot operation does when its bundle is offered for issue. It issues: its register writes, its other effects, and what follows once
the bundle has issued. It holds the bundle, which counts a cycle against a SEQ counter (R199). It stops issue. It breaks an encoding rule (R205).
The sources are read before any effect of any slot (R185). -/
inductive SlotRes where
  | issue (ws : List RegWr) (act after : Dev → Dev)
  | hold (counter : Field) (act : Dev → Dev)
  | stop (act : Dev → Dev)
  | illegal

/-- A slot operation that issues and does no more than write registers. -/
def slotWrites (ws : List RegWr) : SlotRes := .issue ws id id

def SlotRes.isIllegal : SlotRes → Bool
  | .illegal => true
  | _ => false
def SlotRes.writes : SlotRes → List RegWr
  | .issue ws _ _ => ws
  | _ => []
def SlotRes.act : SlotRes → Dev → Dev
  | .issue _ g _ => g
  | _ => id
def SlotRes.after : SlotRes → Dev → Dev
  | .issue _ _ g => g
  | _ => id

/-- R185, R199: a slot operation of a bundle: the registers it reads and writes (numbered as in `vSources`), weight, 0 for one outside the V slot, and
latency, and its effect. -/
structure SlotOp where
  srcs : List Nat
  dsts : List Nat
  weight : Nat
  lat : Nat
  run : Dev → SlotRes

/-- R199: the cycle by which no register of a list has a write pending. -/
def UnitSt.readyBy (x : UnitSt) (rs : List Nat) : Nat := rs.foldl (fun c r => max c (SMap.at x.ready r 0)) 0

/-- R199: the sequencer has reached cycle `c`. -/
def Dev.atCycle (d : Dev) (u c : Nat) : Dev := d.setUnit u { d.unit u with cyc := c, cycAt := d.now }

/-- R199: an operation that issues in cycle `c` keeps its destinations pending and the V slot busy. -/
def UnitSt.issueAt (c : Nat) (x : UnitSt) (o : SlotOp) : UnitSt :=
  { x with ready := o.dsts.foldl (fun m r => if r < 40 then SMap.put m r (c + o.lat) else m) x.ready
           vFree := if o.weight = 0 then x.vFree else c + o.weight }

/-- R185: the bundle issues in cycle `c`: every slot has read its sources in `d`. -/
def Dev.issueBundle (d : Dev) (u c : Nat) (rs : List (SlotOp × SlotRes)) : Dev :=
  let d1 := rs.foldl (fun e r => r.2.act e) d
  let x := (rs.map (·.1)).foldl (UnitSt.issueAt c) ((rs.flatMap (·.2.writes)).foldl UnitSt.applyWr (d1.unit u))
  rs.foldl (fun e r => r.2.after e) (((d1.setUnit u x).atCycle u (c + 1)).endBundle u)

/-- The first slot that does not issue, and whether it is the V slot. -/
def firstHold : List (SlotOp × SlotRes) → Option (Bool × SlotRes)
  | [] => none
  | (_, .issue ..) :: rs => firstHold rs
  | (o, r) :: _ => some (o.weight != 0, r)

/-- R185, R199, R205: a whole bundle offered for issue, its operations in the order V, M, D, C. A dependency and a busy V slot end by themselves: the
cycles are counted and passed. A bundle that another cause holds stays, and nothing of it acts. -/
def Dev.offerBundle (d : Dev) (u : Nat) (ops : List SlotOp) : Dev :=
  let rs := ops.map fun o => (o, o.run d)
  let dsts := ops.flatMap (·.dsts)
  if rs.any (·.2.isIllegal) || ! decide dsts.Nodup || dsts.contains 32 then d.illegalBundle u
  else
    let x := d.unit u
    let c := d.cycleOf u
    let c1 := max c (x.readyBy (ops.flatMap (·.srcs) ++ dsts))
    let c2 := if ops.any (·.weight != 0) then max c1 x.vFree else c1
    let d1 := d.count Reg.SEQ_STALL_DEP u (c1 - c)
    match firstHold rs with
    | none => (d1.count Reg.SEQ_STALL_VBUSY u (c2 - c1)).issueBundle u c2 rs
    | some (true, .hold f g) => ((g d1).count f u).atCycle u (c1 + 1)
    | some (_, .hold f g) => ((g (d1.count Reg.SEQ_STALL_VBUSY u (c2 - c1))).count f u).atCycle u (c2 + 1)
    | some (_, .stop g) => (g d1).atCycle u c1
    | some _ => d1

/-- A slot that does nothing (R184). -/
def slotNop : SlotRes := slotWrites []

/-! ## M slot -/

/-- R188: MPASS and MFENCE wait while the MATRIX block refuses work or resets. -/
def Dev.matrixWaits (d : Dev) (u : Nat) : Bool :=
  [Bs.quiescing, Bs.quiesced, Bs.resetting, Bs.fault].contains (d.bs (pgMatrix u))

/-- R120: an M-slot instruction of a gang member for a ganged array: a no-operation. -/
def Dev.notLeader (d : Dev) (u arr set : Nat) : Dev :=
  d.raise (pgSeq u) 0x0402 9 Sev.warn (d.rd Reg.SEQ_STATE_PC u + 65536 * (arr + 2 * set))

/-- R115, R120, R188, R205: MPASS. `ecc` is what the instruction store said of the descriptor read. -/
def Dev.mpass (m : Mem) (u : Nat) (f : MSlot) (ecc : Ecc) (d : Dev) : SlotRes :=
  let arr := ofB f.arr
  let set := ofB f.set
  let pc := d.rd Reg.SEQ_STATE_PC u
  let seg := d.rd Reg.SEQ_PROG_SEG_BASE u + f.seg.toNat
  let x := d.unit u
  if d.matrixWaits u then .hold Reg.SEQ_STALL_M id
  else if ! d.isOrigin u arr then .issue [] (Dev.notLeader · u arr set) id
  else if ecc = .uncorrectable then .stop (Dev.istoreUerr · u)
  else if d.rd Reg.SEQ_IMG_HI u < seg ∨ seg < d.rd Reg.SEQ_IMG_LO u ∨ ! Sd.ok (segDesc m u seg) then .illegal
  else if 2 ≤ (x.passQ arr).length then .hold Reg.SEQ_STALL_M id
  else
    let read := fun (d : Dev) => if ecc = .corrected then d.correctedError (pgIstore u) 0 else d
    let req : PassReq := ⟨seg, set, f.isOpen, f.isClose, x.srTensor, x.srIndex⟩
    let go := SlotRes.issue [] (fun d => let d := read d; d.setUnit u ((d.unit u).setPassQ arr (x.passQ arr ++ [req]))) id
    if f.isOpen then go
    else
      match x.openSeg arr set with
      | none => .issue [] (fun d => (read d).setNotOpen u arr set) id
      | some s => if s = seg then go else .issue [] (fun d => (read d).raise (pgSeq u) 0x0403 10 Sev.warn (pc + 65536 * (seg % 65536))) id

/-- R188: MFENCE. -/
def Dev.mfence (u : Nat) (f : MSlot) (d : Dev) : SlotRes :=
  let arr := ofB f.arr
  let x := d.unit u
  if d.matrixWaits u then .hold Reg.SEQ_STALL_M id
  else if ! d.isOrigin u arr then .issue [] (Dev.notLeader · u arr (ofB f.set)) id
  else if ! (x.passQ arr).isEmpty || (x.seg arr 0).st != 0 || (x.seg arr 1).st != 0 then .hold Reg.SEQ_STALL_M id
  else .issue [] (fun d => d.setUnit u ((d.unit u).setInFlight arr none)) id

/-- R187, R188: an M slot operation. -/
def mOp (m : Mem) (u opc : Nat) (f : MSlot) (ecc : Ecc) : SlotOp :=
  { srcs := [], dsts := [], weight := 0, lat := 0,
    run := fun d => match opc with
      | 0 => slotNop
      | 1 => Dev.mpass m u f ecc d
      | 2 => Dev.mfence u f d
      | _ => .illegal }

end Sys2Proof.Machine
end

