-- ==== Sys2Proof/Machine/Stores.lean ====
section
/-! DEFINITION. The stores: larder remap and HBM blocks (R213 to R221, R494). -/

namespace Sys2Proof.Machine

/-- R213, R216: an uncorrectable larder read: the line is remapped to a spare and its contents are lost. -/
def Dev.larderUerr (d : Dev) (r line : Nat) : Dev :=
  let pg := pgLarder r
  let d := (d.uncorrectable pg 0).wr Reg.LARDER_LAST_UERR r line
  let d := (d.undefine (larderBase r + 64 * line) 64).spoil
  let n := d.rd Reg.LARDER_SPARES_USED r
  if n < 64 then
    let d := (d.wr Reg.LARDER_REMAP_LINE r line n).wr Reg.LARDER_REMAP_VALID r 1 n
    let d := d.wr Reg.LARDER_SPARES_USED r (n + 1)
    d.raise pg 0x0502 8 Sev.warn (line + 2 ^ 18 * (n + 1))
  else (d.raise pg 0x0503 9 Sev.error 0).retireDue 3 r

/-- R213: what the store's code said of a larder access. -/
def Dev.larderEcc (d : Dev) (e : Ecc) (r line : Nat) : Dev :=
  match e with
  | .ok => d
  | .corrected => d.correctedError (pgLarder r) 0
  | .uncorrectable => d.larderUerr r line

/-- R221: the partition that holds a granule of a stack. -/
def Dev.partitionOf (d : Dev) (stack g : Nat) : Option Nat :=
  (List.range 5).find? fun p =>
    let b := d.rd Reg.HBM_PART_BASE (hbmInst stack) p
    decide (b ≤ g ∧ g < b + d.rd Reg.HBM_PART_SIZE (hbmInst stack) p)

/-- R219: the CRC that the side area of a stack holds for a block: the controller has written it together with the block's bytes. -/
def sideCrc (m : Mem) (stack block : Nat) : Nat := crc32 (m.bytes (hbmBase stack + 512 * block) 512)

/-- R219: the check of a block that has been read as `data`. -/
def blockPasses (m : Mem) (stack block : Nat) (data : List Byte) : Bool := data.length == 512 && crc32 data == sideCrc m stack block

/-- R27, R219: how many blocks a stack has below its side area: 47.625 GiB. -/
def stackBlocks : Nat := 99876864

/-- R220: a block of a stack whose CRC failed is read once more, as `data`. -/
def Dev.hbmCrcRetry (m : Mem) (stack block : Nat) (data : List Byte) (d : Dev) : Dev :=
  let i := hbmInst stack
  let pg := pageNum 5 i 2
  if 8 ≤ stack ∨ stackBlocks ≤ block then d
  else if blockPasses m stack block data then (d.bump Reg.HBM_ERR_CRC_RETRY i).raise pg 0x0504 8 Sev.info block
  else
    let d := ((d.bump Reg.HBM_ERR_CRC_FAIL i).wr Reg.HBM_ERR_LAST_FAIL i block)
    let n := d.rd Reg.HBM_ERR_BAD_COUNT i
    let listed := (List.range n).any fun k => d.rd Reg.HBM_ERR_BAD_BLOCK i k == block
    let part := d.partitionOf stack (block / 32768)
    let d := if part = some 0 ∨ part = some 1 then d.spoil else d
    let d := if part = some 3 then d.p Reg.PARTNER_ATTIC_STATE 3 else d
    let d := d.raise pg 0x0505 9 Sev.error block
    if listed then d
    else if n < 64 then
      ((d.wr Reg.HBM_ERR_BAD_BLOCK i block n).wr Reg.HBM_ERR_BAD_VALID i 1 n).wr Reg.HBM_ERR_BAD_COUNT i (n + 1)
    else (d.raise pg 0x0506 10 Sev.error stack).retireDue 5 stack

end Sys2Proof.Machine
end

