-- ==== Sys2Proof/Machine/Move.lean ====
section
/-! DEFINITION. The movement engines: kicks, block checks, and the descriptors NOP, COPY and ZERO (R224 to R232, R561). -/

namespace Sys2Proof.Machine

/-! ## Engines -/

def Dev.eng (d : Dev) (rm : Bool) (inst : Nat) : Engine := if rm then SMap.at d.rmove inst {} else SMap.at d.cmove inst {}
def Dev.setEng (d : Dev) (rm : Bool) (inst : Nat) (e : Engine) : Dev :=
  if rm then { d with rmove := SMap.put d.rmove inst e } else { d with cmove := SMap.put d.cmove inst e }
def pgEng (rm : Bool) (inst : Nat) : Nat := if rm then pgRmove inst else pgCmove inst

/-- R228: how many blocks an engine holds. -/
def engCap (rm : Bool) : Nat := if rm then 32 else 16

/-- The fields of an engine's page (R232). -/
def engField (rm : Bool) (c r : Field) : Field := if rm then r else c

/-- The descriptor an engine runs, whose requests are open. -/
def Engine.desc (e : Engine) : Option Nat :=
  match e.run with
  | some r => if r.fault.isSome then none else r.descs[r.next]?
  | none => none

/-- R227: the blocks that the CMOVE of cluster `c` has passed on and waits for. -/
def Dev.passedBlocks (d : Dev) (c : Nat) : List MBlock :=
  (d.eng true (regionOf c)).queue.filter fun b => ! b.atRegion && b.home == c && ! b.gone

/-- R62, R230, R232: QUEUED counts the blocks held. A block is open until its tag completes, one that CMOVE passes on in each part of the
count; the descriptor in progress is a request of the engine's own. -/
def Dev.engView (d : Dev) (rm : Bool) (inst : Nat) : Dev :=
  let e := d.eng rm inst
  let n := e.queue.length
  let p := if rm then 0 else (d.passedBlocks inst).length
  let d := d.wr (engField rm Reg.CMOVE_QUEUED Reg.RMOVE_QUEUED) inst n
  let d := d.setReqs (pgEng rm inst) (n + p) (p + ofB e.desc.isSome)
  if n + p = 0 then d.idle (pgEng rm inst) else d.busy (pgEng rm inst)

/-- A block accepted by an engine. -/
def Dev.accept (d : Dev) (rm : Bool) (inst : Nat) (b : MBlock) : Dev :=
  let e := d.eng rm inst
  (d.setEng rm inst { e with queue := e.queue ++ [b] }).engView rm inst

/-- R196: how many kicks of a unit are open under a tag. -/
def Dev.openKicks (d : Dev) (u tag : Nat) : Nat := ((d.info (pgSeq u)).issued.filter (·.1 == tag)).length

/-- R196, R197: a unit's kick has completed with a code. A completion that no open kick awaits, or that reaches a QUIESCED or
FAULT block, is discarded (R65, R66, R70). -/
def Dev.kickDone (d : Dev) (u tag code : Nat) : Dev :=
  let pg := pgSeq u
  let i := d.info pg
  match i.issued.find? (·.1 == tag) with
  | none => d.dropReply pg
  | some k =>
    let d := (d.setInfo pg { i with issued := i.issued.erase k }).setReqs pg i.reqIn (i.reqOut - 1)
    if d.bs pg = Bs.quiesced ∨ d.bs pg = Bs.fault then d.dropReply pg
    else if code = Cc.done then d
    else ((d.raise pg 0x0407 14 Sev.error (tag + 16 * code)).stopUnit u 6).spoil

/-- R232: KICK.GO. -/
def Dev.kickGo (d : Dev) (rm : Bool) (inst tag : Nat) : Nat × Dev :=
  if engCap rm ≤ (d.eng rm inst).queue.length then (Cc.quiesced, d)
  else
    let a := d.rd (engField rm Reg.CMOVE_KICK_ADDR Reg.RMOVE_KICK_ADDR) inst
    let f := engField rm Reg.CMOVE_OPEN_TAGS Reg.RMOVE_OPEN_TAGS
    let d := d.wr f inst (setBit (d.rd f inst) tag)
    (Cc.done, d.accept rm inst { addr := larderBase (regionOf inst) + 64 * a, kicker := none, tag := tag, home := inst, atRegion := rm, heldAt := d.now })

/-! ## Descriptors (R225) -/

def Ds.op (w : Nat) : Nat := bits w 0 4
def Ds.srcSpace (w : Nat) : Nat := bits w 4 4
def Ds.dstSpace (w : Nat) : Nat := bits w 8 4
def Ds.fmtIn (w : Nat) : Nat := bits w 12 4
def Ds.fmtOut (w : Nat) : Nat := bits w 16 4
def Ds.sr (w : Nat) : Bool := bit w 20
def Ds.ss (w : Nat) : Bool := bit w 21
def Ds.cmode (w : Nat) : Nat := bits w 22 2
def Ds.srcInst (w : Nat) : Nat := bits w 24 12
def Ds.dstInst (w : Nat) : Nat := bits w 36 12
def Ds.stat (w : Nat) : Nat := bits w 48 3
def Ds.srcAddr (w : Nat) : Nat := bits w 64 32
def Ds.dstAddr (w : Nat) : Nat := bits w 96 32
def Ds.rowLen (w : Nat) : Nat := bits w 128 16 + 1
def Ds.rows (w : Nat) : Nat := bits w 144 16 + 1
def Ds.srcStride (w : Nat) : Int := sInt 32 (bits w 160 32)
def Ds.dstStride (w : Nat) : Int := sInt 32 (bits w 192 32)
def Ds.scaleAddr (w : Nat) : Nat := bits w 224 32
def Ds.tensor (w : Nat) : Nat := bits w 256 24
def Ds.elemBase (w : Nat) : Nat := bits w 288 32
def Ds.dstLimit (w : Nat) : Nat := bits w 320 32

/-! R372: the fields of the exchange operations. -/
def Ds.keep (w : Nat) : Nat := bits w 352 13
def Ds.red (w : Nat) : Nat := bits w 368 24
def Ds.shard (w : Nat) : Nat := bits w 392 32
def Ds.firstBlock (w : Nat) : Nat := bits w 424 32
def Ds.nBlocks (w : Nat) : Nat := bits w 456 32

/-- R372: the bits above 351: reserved, but for the exchange operations. -/
def Ds.highOk (w : Nat) : Bool :=
  if Ds.op w = 7 ∨ Ds.op w = 8 then
    decide (1 ≤ Ds.keep w ∧ Ds.keep w ≤ 4096 ∧ bits w 365 3 = 0 ∧ 1 ≤ Ds.nBlocks w ∧ bits w 488 24 = 0)
  else w / 2 ^ 352 == 0

/-- R369: the reserved size of one record, and of a contribution. -/
def wireBlock (fmt : Nat) : Nat := if fmt = 2 then 32 else 16
def wRec (keep fmt : Nat) : Nat :=
  let g := (keep + 31) / 32
  (8 + min ((3 * keep + 1) / 2) 512 + 2 * g + g * wireBlock fmt + 7) / 8 * 8
def reservedSize (keep fmt blocks : Nat) : Nat := 48 + blocks * wRec keep fmt

/-- R225, R561: a descriptor whose operation, spaces, formats and reserved bits are allowed. -/
def Ds.encodingOk (w : Nat) : Bool :=
  let i := Ds.fmtIn w
  let o := Ds.fmtOut w
  decide (Ds.op w ≤ 8 ∧ Ds.srcSpace w ≤ 2 ∧ Ds.dstSpace w ≤ 2 ∧ bits w 51 13 = 0 ∧ bits w 280 8 = 0) && Ds.highOk w &&
  (match Ds.op w with
   | 3 => decide (i ≤ 1 ∧ o = 0 ∧ Ds.cmode w ≤ 1)
   | 4 => decide (i = 0 ∧ o ≤ 1 ∧ Ds.cmode w = 0)
   | 5 => decide (i ≤ 1 ∧ 2 ≤ o ∧ o ≤ 4 ∧ Ds.cmode w ≤ 1)
   | 6 => decide (2 ≤ i ∧ i ≤ 4 ∧ o ≤ 1 ∧ Ds.cmode w = 0)
   | 7 => decide (i ≤ 1 ∧ (o = 2 ∨ o = 3) ∧ Ds.cmode w = 0)
   | 8 => decide ((i = 2 ∨ i = 3) ∧ o ≤ 1 ∧ Ds.cmode w = 0)
   | _ => decide (i = 0 ∧ o = 0 ∧ Ds.cmode w = 0))

/-- R219, R225: for every HBM space that the operation uses, the address, the row length, the stride and DST_LIMIT are
multiples of 8 units. -/
def Ds.alignOk (w : Nat) : Bool :=
  let hs := Ds.srcSpace w == 2 && Ds.op w != 0 && Ds.op w != 2
  let hd := Ds.dstSpace w == 2 && Ds.op w != 0
  let m8 := fun (n : Nat) => n % 8 == 0
  (! hs || (m8 (Ds.srcAddr w) && m8 (bits w 160 32))) && (! hd || (m8 (Ds.dstAddr w) && m8 (bits w 192 32))) &&
  (! (hs || hd) || (m8 (Ds.rowLen w) && m8 (Ds.dstLimit w)))

/-- R221, R225: where a space begins in the store, and its size in bytes: a unit's local store, a region's larder, a partition
of a stack. -/
def Dev.space (d : Dev) (space inst : Nat) : Option (Nat × Nat) :=
  match space with
  | 0 => if unitOk inst then some (lsBase inst, lsSize) else none
  | 1 => if inst % 256 = 0 then some (larderBase inst, larderSize) else none
  | 2 =>
    let st := inst % 8
    let p := bits inst 4 3
    if p ≤ 4 then
      some (hbmBase st + d.rd Reg.HBM_PART_BASE (hbmInst st) p * granule, d.rd Reg.HBM_PART_SIZE (hbmInst st) p * granule)
    else none
  | _ => none

/-- R227: which stores an engine reaches. -/
def engReaches (rm : Bool) (inst space sinst : Nat) : Bool :=
  if rm then space != 0 || regionOf sinst == inst
  else (space == 0 && clusterOf sinst == inst) || (space == 1 && sinst == regionOf inst)

/-- The rows of a transfer: byte offset of row `r` in its space. -/
def rowAt (addr : Nat) (stride : Int) (r : Nat) : Int := 64 * ((addr : Int) + stride * r)

/-- Whether every row of `len` bytes lies in a space of `size` bytes. -/
def rowsIn (addr : Nat) (stride : Int) (rows len size : Nat) : Bool :=
  decide (0 ≤ rowAt addr stride 0 ∧ rowAt addr stride 0 + len ≤ size ∧
    0 ≤ rowAt addr stride (rows - 1) ∧ rowAt addr stride (rows - 1) + len ≤ size)

/-- R237: the size of a BOUNDED record. -/
def boundedSize (fmt : Nat) : Nat := if fmt = 1 then 35328 else 17920

/-- The number of 64 KiB blocks in a descriptor's rows. -/
def Ds.blocks (w : Nat) : Nat := (Ds.rows w * Ds.rowLen w * 64 + 65535) / 65536

/-- R218, R225: bytes of one destination row of a conversion, and of its scale words, from the source row's length. -/
def Ds.blocksPerRow (w : Nat) : Nat :=
  if Ds.op w = 5 then (Ds.rowLen w * 64 + (32 * (if Ds.fmtIn w = 0 then 4 else 2)) - 1) / (32 * (if Ds.fmtIn w = 0 then 4 else 2))
  else Ds.rowLen w * 64 / (4 * max 1 (biWidth (Ds.fmtIn w)))
def Ds.dstRowBytes (w : Nat) : Nat :=
  if Ds.op w = 5 then (Ds.blocksPerRow w * 4 * biWidth (Ds.fmtOut w) + 63) / 64 * 64
  else if Ds.op w = 6 then Ds.blocksPerRow w * 32 * (if Ds.fmtOut w = 0 then 4 else 2)
  else Ds.rowLen w * 64
def Ds.scaleRowBytes (w : Nat) : Nat := (2 * Ds.blocksPerRow w + 63) / 64 * 64

/-- R228 code 5: every address of a descriptor lies in a store that the engine reaches. -/
def Dev.rangeOk (d : Dev) (rm : Bool) (inst w : Nat) : Bool :=
  let src := if engReaches rm inst (Ds.srcSpace w) (Ds.srcInst w) then d.space (Ds.srcSpace w) (Ds.srcInst w) else none
  let dst := if engReaches rm inst (Ds.dstSpace w) (Ds.dstInst w) then d.space (Ds.dstSpace w) (Ds.dstInst w) else none
  let srcRows := match src with | some s => rowsIn (Ds.srcAddr w) (Ds.srcStride w) (Ds.rows w) (Ds.rowLen w * 64) s.2 | none => false
  let dstRows := match dst with | some s => rowsIn (Ds.dstAddr w) (Ds.dstStride w) (Ds.rows w) (Ds.dstRowBytes w) s.2 | none => false
  let inSp := fun (sp : Option (Nat × Nat)) (a n : Nat) => match sp with | some s => decide (64 * a + n ≤ s.2) | none => false
  match Ds.op w with
  | 0 => true
  | 1 => srcRows && dstRows
  | 2 => dstRows
  | 3 => srcRows && inSp dst (Ds.dstAddr w) (Ds.dstLimit w * 64) && inSp dst (Ds.scaleAddr w) (4 * Ds.blocks w) &&
         decide (Ds.blocks w * boundedSize (Ds.fmtIn w) ≤ Ds.dstLimit w * 64)
  | 4 => dstRows && src.isSome && inSp src (Ds.scaleAddr w) (4 * Ds.blocks w)
  | 5 => srcRows && dstRows && inSp dst (Ds.scaleAddr w) (Ds.rows w * Ds.scaleRowBytes w)
  | 6 => srcRows && dstRows && inSp src (Ds.scaleAddr w) (Ds.rows w * Ds.scaleRowBytes w)
  | 7 => srcRows && inSp dst (Ds.dstAddr w) (Ds.dstLimit w * 64) && (Ds.keep w == 4096 || inSp src (Ds.scaleAddr w) (16384 * Ds.nBlocks w)) &&
         decide (reservedSize (Ds.keep w) (Ds.fmtOut w) (Ds.nBlocks w) ≤ Ds.dstLimit w * 64)
  | _ => srcRows && inSp dst (Ds.dstAddr w) (16384 / (1 + Ds.fmtOut w) * (Ds.nBlocks w - 1) + 64)

/-- R222: a unit's block that touches the ATTIC partition. -/
def atticTouched (w : Nat) : Bool :=
  Ds.op w != 0 && ((Ds.op w != 2 && Ds.srcSpace w == 2 && bits (Ds.srcInst w) 4 3 == 3) || (Ds.dstSpace w == 2 && bits (Ds.dstInst w) 4 3 == 3))

/-! ## Block checks (R224, R227, R228) -/

/-- The descriptors of a block in the store, as 512-bit words. -/
def blockDescs (m : Mem) (a : Nat) : List Nat := (List.range (m.nat (a + 4) 4 % 16)).map fun i => m.nat (a + 64 + 64 * i) 64

/-- R224: the CRC of a block, its CRC field taken as zero. -/
def blockCrcOk (m : Mem) (a : Nat) : Bool :=
  let n := m.nat (a + 4) 4 % 16
  crc32 (m.bytes a 8 ++ [0, 0, 0, 0] ++ m.bytes (a + 12) (52 + 64 * n)) == m.nat (a + 8) 4

/-- R228 step 3: the reserved fields of a block's header. -/
def blockRestOk (m : Mem) (a : Nat) : Bool := m.nat (a + 4) 4 / 16 == 0 && m.nat (a + 12) 52 == 0

/-- R228: the header of a block can be read on. -/
def blockHeadOk (m : Mem) (a : Nat) : Bool := m.nat a 4 == 0x4E584D44 && m.nat (a + 4) 4 % 16 != 0

/-- Where the local store or larder that holds an address of the store ends. -/
def storeEnd (a : Nat) : Nat := if a < isBase 0 then (a / lsSize + 1) * lsSize else (a / larderSize + 1) * larderSize

/-- R561: an exchange operation whose wire format is not that of its reduction in the draft held. -/
def Dev.wireOk (d : Dev) (w : Nat) : Bool :=
  let fmt := if Ds.op w = 7 then Ds.fmtOut w else Ds.fmtIn w
  if Ds.op w = 7 ∨ Ds.op w = 8 then
    match Dr.redIdx d.plan.draft (Ds.red w) with
    | some i => Dr.rWire d.plan.draft i == fmt
    | none => true
  else true

/-- R228: the first fault of a block as (code, descriptor counted from 1, completion code), none when it may run. -/
def Dev.blockFault (d : Dev) (m : Mem) (rm : Bool) (inst : Nat) (b : MBlock) (uerr : Bool) : Option (Nat × Nat × Nat) :=
  if uerr then some (7, 0, Cc.uerr)
  else if ! blockHeadOk m b.addr then some (2, 0, Cc.unsupported)
  else if storeEnd b.addr < b.addr + 64 + 64 * (m.nat (b.addr + 4) 4 % 16) then some (5, 0, Cc.unsupported)
  else if ! blockCrcOk m b.addr then some (1, 0, Cc.unsupported)
  else if ! blockRestOk m b.addr then some (2, 0, Cc.unsupported)
  else
    let ds := blockDescs m b.addr
    (List.range ds.length).findSome? fun i =>
      let w := ds.getD i 0
      if ! (Ds.encodingOk w && d.wireOk w) then some (3, i + 1, Cc.unsupported)
      else if ! Ds.alignOk w then some (4, i + 1, Cc.unsupported)
      else if ! d.rangeOk rm inst w then some (5, i + 1, Cc.unsupported)
      else if b.kicker.isSome && atticTouched w then some (6, i + 1, Cc.denied)
      else none

/-- R227: whether CMOVE serves a block itself: its header or its CRC is at fault, or every descriptor copies or zeroes within the cluster's
local stores and the region's larder. -/
def cmoveServes (m : Mem) (inst : Nat) (b : MBlock) : Bool :=
  ! blockHeadOk m b.addr || ! blockCrcOk m b.addr || ! blockRestOk m b.addr ||
  (blockDescs m b.addr).all fun w =>
    (Ds.op w == 1 && engReaches false inst (Ds.srcSpace w) (Ds.srcInst w) && engReaches false inst (Ds.dstSpace w) (Ds.dstInst w)) ||
    (Ds.op w == 2 && engReaches false inst (Ds.dstSpace w) (Ds.dstInst w))

/-- The code with which a block that refuses work completes a request, none when it takes it (R43, R63, R70). -/
def Dev.stateCode (d : Dev) (pg : Nat) : Option Nat :=
  let b := d.bs pg
  if b = Bs.quiescing ∨ b = Bs.quiesced ∨ b = Bs.fault then some Cc.quiesced
  else if b = Bs.resetting then some Cc.resetting
  else if b = Bs.retired then some Cc.retired
  else none

/-- The page of a store. -/
def spacePg (space inst : Nat) : Nat :=
  match space with
  | 0 => pgLstore inst
  | 1 => pgLarder inst
  | _ => pageNum 5 (hbmInst (inst % 8)) 0

/-- The pages of the stores, and of the compression engine of region `r`, that serve a descriptor. -/
def descPages (r w : Nat) : List Nat :=
  (if Ds.op w = 0 ∨ Ds.op w = 2 then [] else [spacePg (Ds.srcSpace w) (Ds.srcInst w)]) ++
    (if Ds.op w = 0 then [] else [spacePg (Ds.dstSpace w) (Ds.dstInst w)]) ++ (if 3 ≤ Ds.op w then [pgCompress r] else [])

/-- R62: the requests that the engines have open at a store or a compression engine: a descriptor in progress is one at each block that
serves it. -/
def Dev.servedBy (d : Dev) (pg : Nat) : Nat :=
  ((d.cmove ++ d.rmove).filter fun e => match e.2.desc with | some w => (descPages (regionOf e.1) w).contains pg | none => false).length

/-- R61: a store or a compression engine is at work while it serves a descriptor. -/
def Dev.storeView (d : Dev) (pg : Nat) : Dev := if d.servedBy pg = 0 then d.idle pg else d.busy pg

/-- The pages that serve the descriptor in progress of an engine. -/
def Dev.servers (d : Dev) (rm : Bool) (inst : Nat) : List Nat :=
  match (d.eng rm inst).desc with | some w => descPages (regionOf inst) w | none => []

/-- An engine takes a value; the pages of the stores it leaves and enters follow. -/
def Dev.putEng (d : Dev) (rm : Bool) (inst : Nat) (e : Engine) : Dev :=
  let old := d.servers rm inst
  let d := (d.setEng rm inst e).engView rm inst
  (old ++ d.servers rm inst).eraseDups.foldl Dev.storeView d

/-- R228 code 10: the code of a store on the path, or of the compression engine, that takes no work. -/
def Dev.pathCode (d : Dev) (r w : Nat) : Option Nat := (descPages r w).findSome? d.stateCode

/-- R228: the next descriptor of a block is issued; a block on its path that takes no work ends it. -/
def Dev.issue (d : Dev) (inst : Nat) (r : MRun) : MRun :=
  match r.fault, r.descs[r.next]? with
  | none, some w =>
    { r with issuedAt := d.now, fault := (d.pathCode (regionOf inst) w).map fun c => (10, r.next + 1, c) }
  | _, _ => r

/-- R254: every shuttle of a landing area of the plan has landed in the running attempt. -/
def Dev.landedWhole (d : Dev) (x : LandArea) : Bool :=
  match d.route.landed.filter fun y => y.1 == x.flow with
  | [] => false
  | y :: ys => decide (y.2.2 + 1 ≤ (y :: ys).length)

/-- R254: a descriptor reads a landing area for which shuttles are still to land. A contribution is bound by its deadline instead. -/
def Dev.awaitsLanding (d : Dev) (w : Nat) : Bool :=
  Ds.op w != 0 && Ds.op w != 2 && d.stepOpen &&
    (match d.space (Ds.srcSpace w) (Ds.srcInst w), d.plan.live with
     | some s, some p => p.lands.any fun x => ! x.contrib && ! d.landedWhole x && (List.range (Ds.rows w)).any fun r =>
         let a := s.1 + (rowAt (Ds.srcAddr w) (Ds.srcStride w) r).toNat
         decide (a < x.addr + x.bytes ∧ x.addr < a + Ds.rowLen w * 64)
     | _, _ => false)

/-- R213, R216: what the store's code said of line `l` of a block as it is read in. -/
def Dev.blockEcc (d : Dev) (a l : Nat) (e : Ecc) : Dev :=
  if a < isBase 0 then d.lsEcc e (a / lsSize) (a % lsSize / 64 + l)
  else d.larderEcc e ((a - larderBase 0) / larderSize * 256) ((a - larderBase 0) % larderSize / 64 + l)

/-- How many lines of a block an engine reads: with a bad header only the first. -/
def blockLines (m : Mem) (a : Nat) : Nat := if blockHeadOk m a then 1 + m.nat (a + 4) 4 % 16 else 1

/-- R256: a block that an RMOVE may start now: one kicked by a control core or the package manager waits for the slack window unless the plan schedules
it. -/
def Dev.mayStart (d : Dev) (rm : Bool) (b : MBlock) : Bool := ! rm || b.kicker.isSome || b.planned || d.slackFree

/-- R229, R256: the queue with the block that is next in acceptance order among those that may start at its front. -/
def Dev.nextBlocks (d : Dev) (rm : Bool) (q : List MBlock) : List MBlock :=
  match q.findIdx? (d.mayStart rm) with
  | some i => q.drop i |>.take 1 |>.append (q.eraseIdx i)
  | none => []

/-- R228, R229: an engine takes its next block and checks it. `ecc` is what the store's code said of line `line` of the block. -/
def Dev.blockStart (m : Mem) (rm : Bool) (inst : Nat) (ecc : Ecc) (line : Nat) (d : Dev) : Dev :=
  let e := d.eng rm inst
  match e.run, d.nextBlocks rm e.queue with
  | none, b :: bs =>
    let ecc := if line < blockLines m b.addr then ecc else .ok
    let uerr := ecc == .uncorrectable
    if [Bs.quiesced, Bs.resetting, Bs.fault, Bs.retired].contains (d.bs (pgEng rm inst)) || (! rm && ! uerr && ! cmoveServes m inst b) then d
    else
      let f := d.blockFault m rm inst b uerr
      if f.isNone && (blockDescs m b.addr).any d.awaitsLanding then d
      else
        let d := d.blockEcc b.addr line ecc
        d.putEng rm inst { queue := b :: bs, run := some (d.issue inst { block := b, descs := if f.isSome then [] else blockDescs m b.addr, next := 0, fault := f }) }
  | _, _ => d

/-- R228: a completed block with a fault is recorded and reported. -/
def Dev.recordFail (d : Dev) (rm : Bool) (inst : Nat) (b : MBlock) (f : Nat × Nat × Nat) : Dev :=
  let k := b.kicker.getD 0xFFF
  let w := fun (c r : Field) (v : Nat) (d : Dev) => d.wr (engField rm c r) inst v
  let d := w Reg.CMOVE_LAST_FAIL_CODE Reg.RMOVE_LAST_FAIL_CODE f.1 d
  let d := w Reg.CMOVE_LAST_FAIL_DESC Reg.RMOVE_LAST_FAIL_DESC f.2.1 d
  let d := w Reg.CMOVE_LAST_FAIL_COMPL Reg.RMOVE_LAST_FAIL_COMPL f.2.2 d
  let d := w Reg.CMOVE_LAST_FAIL_TAG Reg.RMOVE_LAST_FAIL_TAG b.tag d
  let d := w Reg.CMOVE_LAST_FAIL_KICKER Reg.RMOVE_LAST_FAIL_KICKER k d
  d.raise (pgEng rm inst) 0x0507 8 Sev.error (f.1 + 16 * f.2.1 + 256 * f.2.2 + 4096 * b.tag + 65536 * k)

/-- R65, R66, R229, R232: the tag of a block completes at whoever awaits it; nobody does any more where CMOVE or the core has given up. -/
def Dev.tagDone (d : Dev) (b : MBlock) (code : Nat) : Dev :=
  if b.gone then d.dropReply (pgCmove b.home)
  else
    match b.kicker with
    | some u => d.kickDone u b.tag code
    | none =>
      let f := engField b.atRegion Reg.CMOVE_OPEN_TAGS Reg.RMOVE_OPEN_TAGS
      let d := d.wr f b.home (clrBit (d.rd f b.home) b.tag)
      if b.coreGone then d.dropReply (pgRcore (regionOf b.home)) else d

/-- The block an engine runs leaves it, completed with or without a fault. -/
def Dev.finishBlock (d : Dev) (rm : Bool) (inst : Nat) (b : MBlock) (f : Option (Nat × Nat × Nat)) : Dev :=
  let d := d.putEng rm inst { queue := (d.eng rm inst).queue.drop 1, run := none }
  let d := if rm && ! b.atRegion then d.engView false b.home else d
  let d := d.count (engField rm Reg.CMOVE_BLOCKS_DONE Reg.RMOVE_BLOCKS_DONE) inst
  match f with
  | some f => (d.recordFail rm inst b f).tagDone b f.2.2
  | none => d.tagDone b Cc.done

/-- R229: a block completes when its last write has landed or a fault has ended it. -/
def Dev.blockComplete (rm : Bool) (inst : Nat) (d : Dev) : Dev :=
  match (d.eng rm inst).run with
  | some r => if r.fault.isSome || r.next == r.descs.length then d.finishBlock rm inst r.block r.fault else d
  | none => d

/-- The blocks of an engine changed. -/
def Engine.mapBlocks (f : MBlock → MBlock) (e : Engine) : Engine :=
  { queue := e.queue.map f, run := e.run.map fun r => { r with block := f r.block } }

/-- R64, R66, R70: CMOVE completes blocks that it has passed on, with `code`, and awaits them no more. -/
def Dev.giveUp (d : Dev) (c code : Nat) (p : MBlock → Bool) : Dev :=
  let r := regionOf c
  let bs := (d.passedBlocks c).filter p
  let d := d.setEng true r ((d.eng true r).mapBlocks fun b => if bs.contains b then { b with gone := true } else b)
  (bs.foldl (fun d b => d.tagDone b code) d).engView false c

/-- R64, R70, R230: the engine gives its running and its queued blocks, and those it has passed on, a terminal completion. -/
def Dev.engForce (d : Dev) (rm : Bool) (inst code : Nat) : Dev :=
  let q := (d.eng rm inst).queue
  let d := d.putEng rm inst {}
  let d := q.foldl (fun d b =>
    let d := (d.count (engField rm Reg.CMOVE_BLOCKS_DONE Reg.RMOVE_BLOCKS_DONE) inst).tagDone b code
    if rm && ! b.atRegion then d.engView false b.home else d) d
  if rm then d else d.giveUp inst code fun _ => true

/-- R64, R70: a store or a compression engine ends the descriptors that it serves, with `code`. -/
def Dev.storeForce (d : Dev) (pg code : Nat) : Dev :=
  let cut := fun (rm : Bool) (d : Dev) (x : Nat × Engine) =>
    match x.2.run with
    | some r =>
      if (d.servers rm x.1).contains pg then d.putEng rm x.1 { x.2 with run := some { r with fault := some (10, r.next + 1, code) } } else d
    | none => d
  d.rmove.foldl (cut true) (d.cmove.foldl (cut false) d)

/-- R66: the descriptor that an engine runs under a tag has waited `limit` for a store: it ends with TIMEOUT. -/
def Dev.descTimeout (d : Dev) (rm : Bool) (inst tag limit : Nat) : Dev :=
  let e := d.eng rm inst
  match e.run with
  | some r =>
    if e.desc.isSome ∧ r.block.tag = tag then
      (d.passTo (r.issuedAt + limit)).putEng rm inst { e with run := some { r with fault := some (10, r.next + 1, Cc.timeout) } }
    else d
  | none => d

/-- The engines of a region: its RMOVE and its clusters' CMOVEs. -/
def enginesOf (r : Nat) : List (Bool × Nat) := (true, r) :: (clustersOf r).map ((false, ·))

/-- R62, R232: the core kicks of a region that its control core awaits. -/
def Dev.coreBlocks (d : Dev) (r : Nat) : List ((Bool × Nat) × MBlock) :=
  (enginesOf r).flatMap fun e => ((d.eng e.1 e.2).queue.filter fun b => b.kicker.isNone && ! b.coreGone && ! b.gone).map (e, ·)

/-- R64, R66: the control core awaits some of its kicks no more. -/
def Dev.coreGiveUp (d : Dev) (bs : List ((Bool × Nat) × MBlock)) : Dev :=
  bs.foldl (fun d x => d.setEng x.1.1 x.1.2 ((d.eng x.1.1 x.1.2).mapBlocks fun b => if b = x.2 then { b with coreGone := true } else b)) d

/-- R227: CMOVE passes a block it cannot serve to its region's RMOVE once RMOVE has room; an RMOVE that takes no work ends
it (R228 code 10). -/
def Dev.cmovePass (m : Mem) (c : Nat) (d : Dev) : Dev :=
  let e := d.eng false c
  let r := regionOf c
  match e.run, e.queue with
  | none, b :: rest =>
    if cmoveServes m c b ∨ [Bs.quiesced, Bs.resetting, Bs.fault, Bs.retired].contains (d.bs (pgCmove c)) then d
    else
      match d.stateCode (pgRmove r) with
      | some code => d.finishBlock false c b (some (10, 0, code))
      | none =>
        if engCap true ≤ (d.eng true r).queue.length then d
        else ((d.setEng false c { e with queue := rest }).accept true r { b with sentAt := d.now }).engView false c
  | _, _ => d

/-- R223: a descriptor in flight addresses partition `p` of a stack. -/
def Dev.partInFlight (d : Dev) (stack p : Nat) : Bool :=
  (d.cmove ++ d.rmove).any fun e =>
    match e.2.run with
    | none => false
    | some r => r.fault.isNone && (r.descs.drop r.next).any fun w =>
        (Ds.srcSpace w == 2 && Ds.srcInst w % 8 == stack && bits (Ds.srcInst w) 4 3 == p) ||
        (Ds.dstSpace w == 2 && Ds.dstInst w % 8 == stack && bits (Ds.dstInst w) 4 3 == p)

/-! ## Running descriptors (R226, R229) -/

/-- What running a descriptor gives: the writes, the lines written, counters and events in the device, and a fault that
ended it. -/
structure DescRes where
  d : Dev
  lines : Nat := 0
  fault : Option (Nat × Nat) := none

/-- An uncorrectable word of line `line` of a space: the effects on its store, and the fault code (R216, R220, R228). -/
def Dev.storeFail (d : Dev) (space inst line : Nat) : Dev × Nat :=
  match space with
  | 0 => (d.lsUerr inst (line % 8192), 7)
  | 1 => (d.larderUerr inst (line % 262144), 7)
  | _ => (d, 8)

/-- The line of a space at which line `l` of row `r` of a descriptor's source lies. -/
def Ds.srcLine (w r l : Nat) : Nat := (rowAt (Ds.srcAddr w) (Ds.srcStride w) r / 64).toNat + l
def Dev.srcFail (d : Dev) (w r l : Nat) : Dev × Nat := d.storeFail (Ds.srcSpace w) (Ds.srcInst w) (Ds.srcLine w r l)

/-- Row and line of the word that a store's code found uncorrectable, if there is one. -/
def badAt (e : Ecc) (row line : Nat) : Option (Nat × Nat) := if e = .uncorrectable then some (row, line) else none

/-- R213: a corrected error in a line of a store that a descriptor reads is counted on the page of the store. -/
def Dev.corrected (d : Dev) (space inst line : Nat) : Dev :=
  match space with
  | 0 => d.correctedError (pgLstore inst) (line % 4)
  | 1 => d.correctedError (pgLarder inst) 0
  | _ => d
def Dev.srcCorrected (d : Dev) (e : Ecc) (w row line : Nat) : Dev :=
  if e ≠ .corrected then d else d.corrected (Ds.srcSpace w) (Ds.srcInst w) (Ds.srcLine w row line)

/-- The common frame of a descriptor operation: the engine's next descriptor runs when it has this operation code, and the one after it is
issued. A store that has been fenced, has failed or is gone meanwhile ends it (R228 code 10). -/
def Dev.descRun (d : Dev) (rm : Bool) (inst op : Nat) (go : Dev → Nat → DescRes) : Dev :=
  let e := d.eng rm inst
  match e.run with
  | some r =>
    match r.fault, r.descs[r.next]? with
    | none, some w =>
      if Ds.op w ≠ op then d
      else
        match ((descPages (regionOf inst) w).filter fun pg => d.bs pg != Bs.quiescing).findSome? d.stateCode with
        | some c => d.putEng rm inst { e with run := some { r with fault := some (10, r.next + 1, c) } }
        | none =>
          let x := go d w
          let f := x.fault.map fun f => (f.1, r.next + 1, f.2)
          let d := x.d.count (engField rm Reg.CMOVE_LINES Reg.RMOVE_LINES) inst x.lines
          d.putEng rm inst { e with run := some (d.issue inst { r with next := r.next + 1, fault := f }) }
    | _, _ => d
  | none => d

/-- The store address of byte `0` of a row. -/
def Dev.rowBase (d : Dev) (space inst addr : Nat) (stride : Int) (r : Nat) : Nat :=
  match d.space space inst with
  | some s => s.1 + (rowAt addr stride r).toNat
  | none => 0
def Dev.srcRow (d : Dev) (w r : Nat) : Nat := d.rowBase (Ds.srcSpace w) (Ds.srcInst w) (Ds.srcAddr w) (Ds.srcStride w) r
def Dev.dstRow (d : Dev) (w r : Nat) : Nat := d.rowBase (Ds.dstSpace w) (Ds.dstInst w) (Ds.dstAddr w) (Ds.dstStride w) r

/-- COPY: rows in ascending order, in pieces of 4 KiB (R233); `bad` names the row and line of an uncorrectable word: the pieces before the
one that holds it stand. -/
def copyDesc (m : Mem) (bad : Option (Nat × Nat)) (d : Dev) (w : Nat) : DescRes :=
  let len := Ds.rowLen w
  let copy := fun (d : Dev) (r n : Nat) => d.poke (d.dstRow w r) (m.bytes (d.srcRow w r) (n * 64))
  match bad.filter fun b => decide (b.1 < Ds.rows w ∧ b.2 < len) with
  | some (r, l) =>
    let part := l / 64 * 64
    let d := copy ((List.range r).foldl (fun d k => copy d k len) d) r part
    let x := d.srcFail w r l
    ⟨x.1, r * len + part, some (x.2, Cc.uerr)⟩
  | none => ⟨(List.range (Ds.rows w)).foldl (fun d k => copy d k len) d, Ds.rows w * len, none⟩

/-- ZERO: zero bytes in the destination rows. -/
def zeroDesc (d : Dev) (w : Nat) : DescRes :=
  ⟨(List.range (Ds.rows w)).foldl (fun d r => d.wipe (d.dstRow w r) (d.dstRow w r + Ds.rowLen w * 64)) d,
   Ds.rows w * Ds.rowLen w, none⟩

def execKickGo (r : Requester) (rm : Bool) (inst : BitVec 12) (tag : BitVec 4) (s : State) : Host.Outcome State Fault Refusal :=
  runDev s (fun d => d.action r (pgEng rm inst.toNat) 0x084 true (fun d => d.kickGo rm inst.toNat tag.toNat))

def execCmovePassToRmove (c : BitVec 12) (s : State) : Host.Outcome State Fault Refusal :=
  runDev s (Dev.cmovePass s.mem c.toNat)

def execMoveBlockStart (rm : Bool) (inst : BitVec 12) (e : ReadEcc) (s : State) : Host.Outcome State Fault Refusal :=
  runMem s (fun m => Dev.blockStart m rm inst.toNat e.ecc e.line.toNat)

def execMoveBlockComplete (rm : Bool) (inst : BitVec 12) (s : State) : Host.Outcome State Fault Refusal :=
  runDev s (Dev.blockComplete rm inst.toNat)

def execDescNop (rm : Bool) (inst : BitVec 12) (s : State) : Host.Outcome State Fault Refusal :=
  runDev s (fun d => d.descRun rm inst.toNat 0 (fun d _ => { d := d }))

def execDescCopy (rm : Bool) (inst : BitVec 12) (e : ReadEcc) (row : BitVec 16) (s : State) : Host.Outcome State Fault Refusal :=
  runMem s (fun m d => d.descRun rm inst.toNat 1 (fun d w =>
    copyDesc m (badAt e.ecc row.toNat e.line.toNat) (d.srcCorrected e.ecc w row.toNat e.line.toNat) w))

def execDescZero (rm : Bool) (inst : BitVec 12) (s : State) : Host.Outcome State Fault Refusal :=
  runMem s (fun _ d => d.descRun rm inst.toNat 2 zeroDesc)

end Sys2Proof.Machine
end

