-- ==== Sys2Proof/Machine/Elementary.lean ====
section
/-! DEFINITION. The transcendental functions to about 150 bits, and the bounds of R158 over them. -/

namespace Sys2Proof.Machine

/-! ## Fixed-point numbers: integers in units of 2⁻¹⁶⁰ -/

def fixOne : Int := 2 ^ 160
def Dy.fix (x : Dy) : Int := if -160 ≤ x.e then x.m * pow2 (x.e + 160) else x.m / pow2 (-160 - x.e)
def fixMul (a b : Int) : Int := a * b / fixOne
def fixDiv (a b : Int) : Int := a * fixOne / b

/-- ln 2, π / 2 and 2 / √π. -/
def fixLn2 : Int := 1013035739299659071135698605846798551586536899366
def fixHalfPi : Int := 2295721403524109460692402599871655564227077512209
def fixTwoOverSqrtPi : Int := 1649128000240172121335468122222580532118151184855

/-- The sum of `n` terms, each the one before times `y` and divided by `den k`; `k` counts them. -/
def series (y : Int) (den : Nat → Int) : Nat → Nat → Int → Int
  | 0, _, _ => 0
  | n + 1, k, t => t + series y den n (k + 1) (fixMul t y / den k)

/-- eˣ of a number in fixed point, with its power of two apart. -/
def fixExp (x : Int) : Dy :=
  let k := (x + fixLn2 / 2) / fixLn2
  ⟨series (x - k * fixLn2) (fun i => i + 1) 48 0 fixOne, k - 160⟩

/-- 2ˣ. -/
def exp2Of (x : Dy) : Dy :=
  let f := x.fix
  let k := f / fixOne
  let r := fixExp (fixMul (f - k * fixOne) fixLn2)
  ⟨r.m, r.e + k⟩

/-- `Σ z²ⁿ / (2n + 1)`. -/
def atanhSum (z2 : Int) : Nat → Nat → Int → Int
  | 0, _, _ => 0
  | n + 1, k, t => t / (2 * k + 1) + atanhSum z2 n (k + 1) (fixMul t z2)

/-- ln x of a positive number, in fixed point. -/
def fixLn (x : Dy) : Int :=
  let m := (x.scale (-x.top)).fix
  let z := fixDiv (m - fixOne) (m + fixOne)
  2 * fixMul z (atanhSum (fixMul z z) 60 0 fixOne) + x.top * fixLn2

/-- tanh x as `x · (sinh x / x) / cosh x`. -/
def tanhOf (x : Dy) : Dy :=
  let y := (x.mul x).fix
  let s := series y (fun i => (2 * i + 2) * (2 * i + 3)) 72 0 fixOne
  let c := series y (fun i => (2 * i + 1) * (2 * i + 2)) 72 0 fixOne
  x.mul ⟨fixDiv s c, -160⟩

/-- 1 / (1 + e⁻ˣ). -/
def sigmoidOf (x : Dy) : Dy :=
  let e := fixExp (-x.abs.fix)
  let d := fixOne + e.fix
  if x.isNeg then ⟨fixDiv e.m d, e.e⟩ else ⟨fixDiv fixOne d, -160⟩

/-- `Σ (−y)ⁿ / (n! (2n + 1))`. -/
def erfSum (y : Int) : Nat → Nat → Int → Int
  | 0, _, _ => 0
  | n + 1, k, t => t / (2 * k + 1) + erfSum y n (k + 1) (-(fixMul t y) / (k + 1))
def erfOf (x : Dy) : Dy := x.mul ⟨fixMul fixTwoOverSqrtPi (erfSum ((x.mul x).fix) 130 0 fixOne), -160⟩

/-- sin x, or with `quarter` cos x: the angle is reduced by quarter turns. -/
def sinOf (x : Dy) (quarter : Bool) : Dy :=
  let f := x.fix
  let k := (f + fixHalfPi / 2) / fixHalfPi
  let r := f - k * fixHalfPi
  let y := -(fixMul r r)
  let s := fixMul r (series y (fun i => (2 * i + 2) * (2 * i + 3)) 40 0 fixOne)
  let c := series y (fun i => (2 * i + 1) * (2 * i + 2)) 40 0 fixOne
  match ((k + (if quarter then 1 else 0)) % 4).toNat with
  | 0 => ⟨s, -160⟩
  | 1 => ⟨c, -160⟩
  | 2 => ⟨-s, -160⟩
  | _ => ⟨-c, -160⟩

/-! ## The table of R158 -/

/-- The functions by number: EXP2, LOG2, EXP, LOG, TANH, SIGMOID, ERF, SIN, COS. -/
def transValue (op : Nat) (x : Dy) : Dy :=
  match op with
  | 0 => exp2Of x
  | 1 => ⟨fixDiv (fixLn x) fixLn2, -160⟩
  | 2 => fixExp x.fix
  | 3 => ⟨fixLn x, -160⟩
  | 4 => tanhOf x
  | 5 => sigmoidOf x
  | 6 => erfOf x
  | 7 => sinOf x false
  | _ => sinOf x true

/-- R158: the bound on |computed − exact|, in the units of R78 (u = 2⁻²⁴). -/
def transBound (op : Nat) (r : Dy) : Dy :=
  let a := if op = 1 ∨ op = 3 then (if r.abs.le ⟨1, 0⟩ then ⟨1, 0⟩ else r.abs) else if op = 7 ∨ op = 8 then ⟨1, 0⟩ else r.abs
  (a.mul ⟨[2, 3, 3, 3, 4, 4, 4, 4, 4].getD op 4, 0⟩).scale (-24)

/-- R158: whether a candidate FP32 word lies within the bound of the function's exact value `r`, which is known to 2⁻¹⁰⁰ of the bound's own
unit: a word that lies nearer than that to the edge of the bound is not taken. -/
def transOk (op : Nat) (r : Dy) (cand : Nat) : Bool :=
  let b := transBound op r
  match FFmt.f32.decode cand with
  | .num s c false =>
    if c.isZero then s == r.isNeg && r.abs.lt (Dy.add ⟨1, -126⟩ b) else ((c.sub r).abs.add (b.scale (-76))).le b
  | .inf s => s == r.isNeg && Dy.le ⟨1, 128⟩ (r.abs.add b)
  | _ => false

end Sys2Proof.Machine
end

