-- ==== Sys2Proof/Machine/Vector.lean ====
section
/-! DEFINITION. The vector operations of the V slot (R149 to R168, R191 to R194). -/

namespace Sys2Proof.Machine

/-- What a vector operation gives: register writes, the flags it sets, the format code of its result and of its block
input (R108), and what else it does. -/
structure VOut where
  ws : List RegWr
  fl : Nat := 0
  fmt : Nat := 0
  inFmt : Nat := 0
  post : Dev → Dev := id

/-- R168, R203: the rounding of element `i` of an operation with the SR attribute. -/
def Dev.vRnd (d : Dev) (u : Nat) (f : VSlot) (i : Nat) : Rnd :=
  if f.attr.toNat = 3 then
    let x := d.unit u
    let k := d.srKey x.srTensor
    .sr (sr32 k.1 k.2 (x.srIndex + i))
  else .rne

/-- R172: a read of cq with no tile CURRENT and none to come. -/
def Dev.cqNoSource (d : Dev) (u : Nat) (rel : Bool) : Dev :=
  let pc := d.rd Reg.SEQ_STATE_PC u
  let d := d.raise (pgVector u) 0x0301 11 Sev.error pc
  let d := if rel then d.raise (pgVector u) 0x0302 12 Sev.warn pc else d
  (d.stopUnit u 2).spoil

/-- R181: the STATE word of a VECTOR page and the outstanding count of R175 follow the unit. -/
def Dev.vectorView (d : Dev) (u : Nat) : Dev :=
  let x := d.unit u
  let one := fun st => (x.inState st).head?
  let d := (d.wr Reg.VECTOR_STATE_CUR_ENTRY u ((one 5).getD 0)).wr Reg.VECTOR_STATE_CUR_VALID u (ofB (one 5).isSome)
  let d := (d.wr Reg.VECTOR_STATE_RDY_ENTRY u ((one 4).getD 0)).wr Reg.VECTOR_STATE_RDY_VALID u (ofB (one 4).isSome)
  let d := (d.wr Reg.VECTOR_STATE_POPS u x.pops).wr Reg.VECTOR_STATE_CHECKING u (ofB (one 3).isSome)
  let d := d.wr Reg.MATRIX_STATE_CQ_FILL u (8 - (x.inState 0).length)
  let d := d.setReqs (pgVector u) x.pops 0
  if x.pops = 0 then d.idle (pgVector u) else d.busy (pgVector u)

/-- R171: a tile whose check has passed and that may become READY does so: its pop ends, its flags are collected (R179). -/
def Dev.makeReady (d : Dev) (u e : Nat) : Dev :=
  let x := d.unit u
  let t := x.entry e
  let d := d.setUnit u { x.setEntry e { t with st := 4, verified := false } with pops := x.pops - 1, popWaited := 0 }
  (d.count Reg.VECTOR_TILES_CHECKED u).tileFlags u t

/-- R171 step 4: a READY tile becomes CURRENT when none is. -/
def Dev.readyToCurrent (d : Dev) (u : Nat) : Dev :=
  let x := d.unit u
  match x.inState 4, x.inState 5 with
  | e :: _, [] => d.setUnit u (x.setEntry e { x.entry e with st := 5 })
  | _, _ => d

/-- R171 step 3: a verified tile becomes READY when none is. -/
def Dev.verifiedToReady (d : Dev) (u : Nat) : Dev :=
  let x := d.unit u
  match x.inState 4, (x.inState 3).find? (fun e => (x.entry e).verified) with
  | [], some e => d.makeReady u e
  | _, _ => d

/-- R171: tiles move up as far as they can. -/
def Dev.promote (d : Dev) (u : Nat) : Dev :=
  ((((d.verifiedToReady u).readyToCurrent u).verifiedToReady u).readyToCurrent u).vectorView u

/-- R173: the CURRENT tile is released after the read. -/
def Dev.releaseTile (d : Dev) (u : Nat) : Dev :=
  match d.currentEntry u with
  | some e => (d.setUnit u ((d.unit u).setEntry e {})).promote u
  | none => d.raise (pgVector u) 0x0302 12 Sev.warn (d.rd Reg.SEQ_STATE_PC u)

/-- What a vector operation does beside its register writes: flags, the SR index, BUSY and the release of a tile. -/
def Dev.vopActs (d : Dev) (u : Nat) (f : VSlot) (o : VOut) : Dev :=
  let sr := f.attr.toNat == 3
  let d := d.vectorFlags u (o.fl ||| (if sr then Flag.srnd else 0)) o.fmt o.inFmt
  let d := if sr then d.setUnit u { d.unit u with srIndex := ((d.unit u).srIndex + 64) % 2 ^ 32 } else d
  let d := o.post (d.count Reg.VECTOR_BUSY u)
  if f.rel then d.releaseTile u else d

/-- The common frame of a vector operation with opcode `opc` (R172, R173, R194, R203, R205). -/
def Dev.vop (u opc : Nat) (f : VSlot) (op : Dev → VOut) (d : Dev) : SlotRes :=
  if ! vOk opc f then .illegal
  else if f.cqa && (d.currentEntry u).isNone then
    (if (d.unit u).pops = 0 ∧ (d.unit u).inState 4 = [] then .stop (Dev.cqNoSource · u f.rel)
     else .hold Reg.SEQ_STALL_CQ (Dev.count · Reg.VECTOR_CQ_READ_STALL u))
  else
    let o := op d
    .issue o.ws (Dev.vopActs · u f o) id

/-- A float operation on 64 elements: each active element's result and flags. -/
def Dev.floatOp (d : Dev) (u : Nat) (f : VSlot) (op : Nat → FR) : VOut :=
  { ws := [d.write64 u f (fun i => (op i).w)]
    fl := (List.range 64).foldl (fun a i => if d.act64 u f i then a ||| (op i).fl else a) 0
    fmt := if isHalf f.view.toNat then 1 else 0 }

/-- The format of a view's results. -/
def viewFmt (f : VSlot) : FFmt := if isHalf f.view.toNat then FFmt.f16 else FFmt.f32

/-- R150, R163: an input of the KS attribute: an FP32 subnormal is kept; an F16 one has been flushed when it was widened. -/
def FV.keepIn : FV → FV × Nat
  | .num neg v true => if Dy.le ⟨1, -126⟩ v.abs then (.num neg ⟨0, v.e⟩ false, Flag.flushIn) else (.num neg v true, 0)
  | x => (x, 0)

/-- R81, R163: `a ± b` with FP32 subnormal inputs and results kept, on the fast path otherwise. -/
def FFmt.addKeep (f : FFmt) (negB : Bool) (a b : FV) : FR :=
  let x := a.keepIn
  let y := b.keepIn
  match x.1.num?, y.1.num? with
  | some (_, v), some (_, w) =>
    let s := v.add (if negB then w.neg else w)
    let r := if f.p = 24 then f.packStrict false s else f.packFast .rne false s
    ⟨r.w, (r.fl &&& Flag.flushOut) ||| (if r.fl &&& (Flag.ofl ||| Flag.ovf) ≠ 0 then Flag.ovf else 0) ||| x.2 ||| y.2⟩
  | _, _ => ⟨f.cnan, Flag.nan ||| x.2 ||| y.2⟩

/-- R155, R162, R163: ADD and SUB. -/
def vAddSub (neg : Bool) (u : Nat) (f : VSlot) (d : Dev) : VOut :=
  d.floatOp u f fun i =>
    let a := fElem f.view.toNat (d.srcA u f) i
    let b := d.fB u f i
    let m := viewFmt f
    if f.attr.toNat = 1 then m.addStrict neg a b
    else if f.attr.toNat = 2 then m.addKeep neg a b
    else m.addFast (d.vRnd u f i) neg a b

/-- R155, R162: MUL. -/
def vMulOp (u : Nat) (f : VSlot) (d : Dev) : VOut :=
  d.floatOp u f fun i =>
    let a := fElem f.view.toNat (d.srcA u f) i
    let b := d.fB u f i
    if f.attr.toNat = 1 then (viewFmt f).mulStrict a b else (viewFmt f).mulFast .rne a b

/-- R155, R162, R191: FMA, FMS and FNMA. -/
def vFmaOp (negP negC : Bool) (u : Nat) (f : VSlot) (d : Dev) : VOut :=
  d.floatOp u f fun i =>
    let a := fElem f.view.toNat (d.srcA u f) i
    let b := d.fB u f i
    let c := d.fC u f i
    if f.attr.toNat = 1 then (viewFmt f).fmaStrict negP negC a b c else (viewFmt f).fmaFast (d.vRnd u f i) negP negC a b c

/-! ## FX class (R157) -/

/-- The pattern of a value in a format, subnormals kept. -/
def FFmt.packKeep (f : FFmt) : FV → Nat
  | .nan _ => f.cnan
  | .inf s => f.inf s
  | .num neg v _ => (f.packStrict neg v).w

/-- A NaN operand, and a signalling one. -/
def FV.isNan : FV → Bool
  | .nan _ => true
  | _ => false
def FV.isSnan : FV → Bool
  | .nan s => s
  | _ => false

/-- R157: the IEEE order of two values that are not NaNs: `a < b` and `a = b`. -/
def FV.ltv (a b : FV) : Bool :=
  match a, b with
  | .num _ x _, .num _ y _ => x.lt y
  | .inf s, .inf t => s && ! t
  | .inf s, .num _ _ _ => s
  | .num _ _ _, .inf t => ! t
  | _, _ => false
def FV.eqv (a b : FV) : Bool :=
  match a, b with
  | .num _ x _, .num _ y _ => x.eqv y
  | .inf s, .inf t => s == t
  | _, _ => false
def FV.sign : FV → Bool
  | .num s _ _ => s
  | .inf s => s
  | .nan _ => false
def FV.setSign (neg : Bool) : FV → FV
  | .num _ v s => .num neg (if neg then ⟨-(v.m.natAbs : Int), v.e⟩ else v.abs) s
  | .inf _ => .inf neg
  | .nan s => .nan s

/-- R157: MIN, MAX and MAXA of two values. -/
def fvMin (a b : FV) : FV := if a.ltv b then a else if b.ltv a then b else if a.sign then a else b
def fvMax (a b : FV) : FV := if a.ltv b then b else if b.ltv a then a else if a.sign then b else a
def fvMaxa (a b : FV) : FV :=
  let x := a.setSign false
  let y := b.setSign false
  if x.ltv y then b else if y.ltv x then a else if a.sign then b else a

/-- R162: the invalid-operation flag of a strict selection or comparison: a signalling NaN sets it. A quiet NaN sets no flag in a
comparison (R157). -/
def strictInvalid (f : VSlot) (a b : FV) : Nat :=
  if f.attr.toNat = 1 ∧ (a.isSnan || b.isSnan) then Flag.iv else 0

/-- MIN, MAX and MAXA. -/
def vSelect (pick : FV → FV → FV) (u : Nat) (f : VSlot) (d : Dev) : VOut :=
  d.floatOp u f fun i =>
    let a := fElem f.view.toNat (d.srcA u f) i
    let b := d.fB u f i
    if a.isNan || b.isNan then ⟨(viewFmt f).cnan, Flag.nan ||| strictInvalid f a b⟩
    else ⟨(viewFmt f).packKeep (pick a b), 0⟩

/-- ABS and NEG, which signal no exception (R157, R162). -/
def vSignOp (abs : Bool) (u : Nat) (f : VSlot) (d : Dev) : VOut :=
  d.floatOp u f fun i =>
    let a := fElem f.view.toNat (d.srcA u f) i
    if a.isNan then ⟨(viewFmt f).cnan, Flag.nan⟩
    else ⟨(viewFmt f).packKeep (a.setSign (if abs then false else ! a.sign)), 0⟩

/-- R157: the six comparisons. -/
def fvCompare (k : Nat) (a b : FV) : Bool :=
  if a.isNan || b.isNan then k == 1
  else match k with
    | 0 => a.eqv b
    | 1 => ! a.eqv b
    | 2 => a.ltv b
    | 3 => a.ltv b || a.eqv b
    | 4 => b.ltv a
    | _ => b.ltv a || a.eqv b

/-- CMP.EQ, NE, LT, LE, GT and GE. -/
def vCmp (k : Nat) (u : Nat) (f : VSlot) (d : Dev) : VOut :=
  let a := fun i => fElem f.view.toNat (d.srcA u f) i
  { ws := [d.writeMask64 u f fun i => fvCompare k (a i) (d.fB u f i)]
    fl := (List.range 64).foldl (fun x i => if d.act64 u f i then x ||| strictInvalid f (a i) (d.fB u f i) else x) 0 }

/-- R156: whether a value belongs to the classes an immediate selects. -/
def fvClass (sel : Nat) (a : FV) : Bool :=
  match a with
  | .nan _ => bit sel 0
  | .inf s => bit sel 1 || (bit sel 3 && s)
  | .num s v _ => (bit sel 2 && v.isZero) || (bit sel 3 && s) || (bit sel 4 && ! v.isZero)

def vClassOp (u : Nat) (f : VSlot) (d : Dev) : VOut :=
  { ws := [d.writeMask64 u f fun i => fvClass f.imm.toNat (fElem f.view.toNat (d.srcA u f) i)] }

/-- R191: SEL, full width. -/
def vSelOp (u : Nat) (f : VSlot) (d : Dev) : VOut :=
  let w := viewBits f.view.toNat
  { ws := [d.writeAll u f fun j =>
      if (d.mask u (f.vc.toNat % 8)).getLsbD j then vElem w (d.srcA u f) j else vElem w (d.vreg u f.vb.toNat) j] }

def vMovOp (u : Nat) (f : VSlot) (d : Dev) : VOut :=
  { ws := [d.writeAll u f fun j => vElem (viewBits f.view.toNat) (d.srcA u f) j] }

/-! ## DQ class (R100, R157, R162) -/

/-- R100: whether a candidate for `x / y` lies within 2u of it. -/
def quotientOk (cand : Nat) (x y : Dy) : Bool :=
  match FFmt.f32.decode cand with
  | .num _ c false => ((c.mul y).sub x).abs.le (x.abs.scale (-23))
  | _ => false

/-- R100: whether a candidate for `√x` lies within 2u of it. -/
def rootOk (cand : Nat) (x : Dy) : Bool :=
  match FFmt.f32.decode cand with
  | .num false c false =>
    let lo := (x.mul ⟨(2 ^ 23 - 1) * (2 ^ 23 - 1), -46⟩)
    let hi := (x.mul ⟨(2 ^ 23 + 1) * (2 ^ 23 + 1), -46⟩)
    lo.le (c.mul c) && (c.mul c).le hi
  | _ => false

/-- R100: whether a candidate for `1 / √x` lies within 2u of it. -/
def rrootOk (cand : Nat) (x : Dy) : Bool :=
  match FFmt.f32.decode cand with
  | .num false c false =>
    let p := (c.mul c).mul x
    (Dy.le ⟨(2 ^ 23 - 1) * (2 ^ 23 - 1), -46⟩ p) && (p.le ⟨(2 ^ 23 + 1) * (2 ^ 23 + 1), -46⟩)
  | _ => false

/-- R102: the fast bits of a DQ operation in the F32 view are the part's own while the bound allows them. For an F16 view R100 states no bound: the
result is the correctly rounded one (DESIGN CHOICE, assumption 115). -/
def dqPick (f : VSlot) (ok : Nat → Bool) (cand : Word) (r : FR) : FR :=
  if isHalf f.view.toNat then r
  else if r.fl = 0 ∧ ok cand.toNat then ⟨cand.toNat, 0⟩ else r

/-- R157: a quotient. `op` numbers the operation for its free bits. -/
def fvDiv (op : Nat) (f : VSlot) (wa wb : Nat) (a b : FV) : FR :=
  let m := viewFmt f
  if f.attr.toNat = 1 then
    (match a, b with
     | .nan s, y => ⟨m.cnan, Flag.nan ||| (if s || y.isSnan then Flag.iv else 0)⟩
     | _, .nan s => ⟨m.cnan, Flag.nan ||| (if s then Flag.iv else 0)⟩
     | .inf _, .inf _ => ⟨m.cnan, Flag.nan ||| Flag.iv⟩
     | .inf s, .num t _ _ => ⟨m.inf (s != t), 0⟩
     | .num s _ _, .inf t => ⟨m.signBit (s != t), 0⟩
     | .num s x _, .num t y _ =>
       if y.isZero then
         (if x.isZero then ⟨m.cnan, Flag.nan ||| Flag.iv⟩ else ⟨m.inf (s != t), Flag.dz⟩)
       else m.packStrict (s != t) (x.divSticky y))
  else
    let (a', fa) := a.fastIn
    let (b', fb) := b.fastIn
    match a', b' with
    | .num s x _, .num t y _ =>
      if y.isZero then
        (if x.isZero then ⟨m.cnan, Flag.nan ||| fa ||| fb⟩ else ⟨m.inf (s != t), Flag.ovf ||| fa ||| fb⟩)
      else
        let r := dqPick f (fun c => quotientOk c x y && ! x.isZero) (Config.fastQuotient op (BitVec.ofNat 32 wa) (BitVec.ofNat 32 wb))
          (m.packFast .rne (s != t) (x.divSticky y))
        ⟨r.w, r.fl ||| fa ||| fb⟩
    | _, _ => ⟨m.cnan, Flag.nan ||| fa ||| fb⟩

/-- R157: a square root, or with `recip` its reciprocal. -/
def fvRoot (recip : Bool) (f : VSlot) (wa : Nat) (a : FV) : FR :=
  let m := viewFmt f
  let strict := f.attr.toNat = 1
  let (a', fa) := if strict then (a, 0) else a.fastIn
  match a' with
  | .nan s => ⟨m.cnan, Flag.nan ||| fa ||| (if strict ∧ s then Flag.iv else 0)⟩
  | .inf s =>
    if strict then (if s then ⟨m.cnan, Flag.nan ||| Flag.iv⟩ else ⟨if recip then 0 else m.inf false, 0⟩)
    else ⟨m.cnan, Flag.nan ||| fa⟩
  | .num s x _ =>
    if x.isZero then
      (if recip then ⟨m.inf s, (if strict then Flag.dz else Flag.ovf) ||| fa⟩ else ⟨m.signBit s, fa⟩)
    else if s then ⟨m.cnan, Flag.nan ||| fa ||| (if strict then Flag.iv else 0)⟩
    else
      let v := if recip then x.rsqrtSticky else x.sqrtSticky
      if strict then m.packStrict false v
      else
        let r := dqPick f (fun c => if recip then rrootOk c x else rootOk c x)
          (Config.fastQuotient (if recip then 3 else 2) (BitVec.ofNat 32 wa) 0) (m.packFast .rne false v)
        ⟨r.w, r.fl ||| fa⟩

/-- The pattern of element `i` of source A, widened to FP32 in an F16 view. -/
def Dev.wordA (d : Dev) (u : Nat) (f : VSlot) (i : Nat) : Nat := FFmt.f32.packKeep (fElem f.view.toNat (d.srcA u f) i)
def Dev.wordB (d : Dev) (u : Nat) (f : VSlot) (i : Nat) : Nat := FFmt.f32.packKeep (d.fB u f i)

def vDivOp (u : Nat) (f : VSlot) (d : Dev) : VOut :=
  d.floatOp u f fun i => fvDiv 0 f (d.wordA u f i) (d.wordB u f i) (fElem f.view.toNat (d.srcA u f) i) (d.fB u f i)

/-- RCP is 1 divided by its source. -/
def vRcpOp (u : Nat) (f : VSlot) (d : Dev) : VOut :=
  d.floatOp u f fun i => fvDiv 1 f 0x3F800000 (d.wordA u f i) (.num false ⟨1, 0⟩ false) (fElem f.view.toNat (d.srcA u f) i)

def vRootOp (recip : Bool) (u : Nat) (f : VSlot) (d : Dev) : VOut :=
  d.floatOp u f fun i => fvRoot recip f (d.wordA u f i) (fElem f.view.toNat (d.srcA u f) i)

/-! ## Transcendental functions (R158) -/

/-- `x ≥ num / den`. -/
def Dy.geRat (x : Dy) (num : Int) (den : Nat) : Bool := Dy.le ⟨num, 0⟩ (x.mul ⟨den, 0⟩)

/-- Whether a number is an integer, and which. -/
def Dy.int? (x : Dy) : Option Int :=
  if 0 ≤ x.e then some (x.m * pow2 x.e)
  else if x.m % pow2 (-x.e) = 0 then some (x.m / pow2 (-x.e)) else none

/-- R158: the functions, numbered EXP2, LOG2, EXP, LOG, TANH, SIGMOID, ERF, SIN, COS: the edge results and exact points the
table fixes, and elsewhere the part's own bits while they lie within the table's bound, the nearest FP32 value otherwise (assumption 10); an
F16 view rounds that value once more. -/
def fvTrans (op : Nat) (f : VSlot) (w : Nat) (a : FV) : FR :=
  let m := viewFmt f
  let (a', fa) := a.fastIn
  let put := fun (neg : Bool) (v : Dy) (fl : Nat) => (⟨(m.packFast .rne neg v).w, fl ||| fa⟩ : FR)
  let nan : FR := ⟨m.cnan, Flag.nan ||| fa⟩
  let free := fun (x : Dy) =>
    let r := transValue op x
    let c := (Config.transcendental op (BitVec.ofNat 32 w)).toNat
    let v := if transOk op r c then FFmt.f32.decode c else FFmt.f32.decode (FFmt.f32.packFast .rne r.isNeg r).w
    (match v with
     | .num s v sub =>
       if sub || v.isZero then ⟨m.signBit s, Flag.flushOut ||| fa⟩ else let r := m.packFast .rne s v; ⟨r.w, r.fl ||| fa⟩
     | .inf s => ⟨m.inf s, Flag.ovf ||| fa⟩
     | .nan _ => nan : FR)
  match a' with
  | .num s x _ =>
    let neg1 := fun (b : Bool) => put b ⟨if b then -1 else 1, 0⟩ 0
    match op with
    | 0 =>
      if x.geRat 128 1 then ⟨m.inf false, Flag.ovf ||| fa⟩
      else if x.lt ⟨-126, 0⟩ then ⟨0, Flag.flushOut ||| fa⟩
      else (match x.int? with
        | some n => let r := m.packFast .rne false ⟨1, n⟩; ⟨r.w, r.fl ||| fa⟩
        | none => free x)
    | 2 =>
      if x.geRat 8872284 100000 then ⟨m.inf false, Flag.ovf ||| fa⟩
      else if ! x.geRat (-8733655) 100000 then ⟨0, Flag.flushOut ||| fa⟩
      else if x.isZero then put false ⟨1, 0⟩ 0 else free x
    | 1 | 3 =>
      if x.isZero then ⟨m.inf true, Flag.ovf ||| fa⟩
      else if s then nan
      else if op = 1 ∧ x.m.natAbs = 2 ^ Nat.log2 x.m.natAbs then put (decide (x.top < 0)) ⟨x.top, 0⟩ 0
      else if x.eqv ⟨1, 0⟩ then ⟨0, fa⟩ else free x
    | 4 =>
      if x.abs.geRat 91 10 then neg1 s else if x.isZero then ⟨m.signBit s, fa⟩ else free x
    | 5 =>
      if x.geRat 1733 100 then put false ⟨1, 0⟩ 0
      else if ! x.geRat (-8733) 100 then ⟨0, Flag.flushOut ||| fa⟩
      else if x.isZero then put false ⟨1, -1⟩ 0 else free x
    | 6 =>
      if x.abs.geRat 4 1 then neg1 s else if x.isZero then ⟨m.signBit s, fa⟩ else free x
    | 7 =>
      if Dy.lt ⟨1, 16⟩ x.abs then nan else if x.isZero then ⟨m.signBit s, fa⟩ else free x
    | _ =>
      if Dy.lt ⟨1, 16⟩ x.abs then nan else if x.isZero then put false ⟨1, 0⟩ 0 else free x
  | _ => nan

def vTransOp (op u : Nat) (f : VSlot) (d : Dev) : VOut :=
  d.floatOp u f fun i => fvTrans op f (d.wordA u f i) (fElem f.view.toNat (d.srcA u f) i)

/-! ## CV class (R94, R157, R164 to R168) -/

/-- R94, R162: FP32 to FP16. -/
def fvToHalf (strict : Bool) (r : Rnd) (a : FV) : FR :=
  if strict then
    (match a with
     | .nan q => ⟨FFmt.f16.cnan, Flag.nan ||| (if q then Flag.iv else 0)⟩
     | .inf z => ⟨FFmt.f16.inf z, 0⟩
     | .num z v _ => FFmt.f16.packStrict z v)
  else
    match a.fastIn with
    | (.num z v _, fa) => let x := FFmt.f16.packCvt r z v; ⟨x.w, x.fl ||| fa⟩
    | _ => ⟨FFmt.f16.cnan, Flag.nan⟩

/-- R94, R162: FP16 to FP32, which is exact. -/
def fvFromHalf (strict : Bool) (a : FV) : FR :=
  match if strict then (a, 0) else a.fastIn with
  | (.num z v _, fa) => ⟨(FFmt.f32.packStrict z v).w, fa⟩
  | (.inf z, _) => if strict then ⟨FFmt.f32.inf z, 0⟩ else ⟨FFmt.f32.cnan, Flag.nan⟩
  | (.nan q, _) => ⟨FFmt.f32.cnan, Flag.nan ||| (if strict ∧ q then Flag.iv else 0)⟩

/-- CVT.F16F32: FP32 A to the F16 half that VIEW names. -/
def vToF16 (u : Nat) (f : VSlot) (d : Dev) : VOut :=
  d.floatOp u f fun i => fvToHalf (f.attr.toNat == 1) (d.vRnd u f i) (FFmt.f32.decode (vElem 32 (d.srcA u f) i))

/-- An operation that writes 64 32-bit elements, whatever the view. -/
def Dev.wideOp (d : Dev) (u : Nat) (f : VSlot) (op : Nat → FR) : VOut :=
  { ws := [d.write32 u f (fun i => (op i).w)]
    fl := (List.range 64).foldl (fun a i => if d.act64 u f i then a ||| (op i).fl else a) 0 }

/-- CVT.F32F16: the F16 half of A that VIEW names, to FP32. -/
def vFromF16 (u : Nat) (f : VSlot) (d : Dev) : VOut :=
  d.wideOp u f fun i => fvFromHalf (f.attr.toNat == 1) (fElem f.view.toNat (d.srcA u f) i)

/-- R157: FP32 to I32 to nearest, saturated; a NaN or an infinity gives 0. -/
def fvToInt (a : FV) : FR :=
  match a.fastIn with
  | (.num _ v _, fa) =>
    let q := Rnd.rne.grid v 0
    if v.m < 0 then (if 2 ^ 31 < q then ⟨2 ^ 31, Flag.sat ||| fa⟩ else ⟨wrapI 32 (-(q : Int)), fa⟩)
    else if 2 ^ 31 ≤ q then ⟨2 ^ 31 - 1, Flag.sat ||| fa⟩ else ⟨q, fa⟩
  | _ => ⟨0, Flag.nan⟩

def vToInt (u : Nat) (f : VSlot) (d : Dev) : VOut :=
  d.wideOp u f fun i => fvToInt (FFmt.f32.decode (vElem 32 (d.srcA u f) i))

/-- I32 to FP32 to nearest. -/
def vFromInt (u : Nat) (f : VSlot) (d : Dev) : VOut :=
  { ws := [d.write32 u f (fun i => (FFmt.f32.packFast .rne false ⟨sInt 32 (vElem 32 (d.srcA u f) i), 0⟩).w)] }

/-- R164: the elements of block `b` of a conversion, inactive ones as +0, with the input treatment of R81. -/
def Dev.tobElems (d : Dev) (u : Nat) (f : VSlot) (b : Nat) : List FV :=
  (List.range 32).map fun i =>
    if d.act64 u f (32 * b + i) then (fElem f.view.toNat (d.srcA u f) (32 * b + i)).fastIn.1 else FV.zero

/-- R81: the input flags of block `b`: a subnormal sets FLUSH_IN. -/
def Dev.tobInFlags (d : Dev) (u : Nat) (f : VSlot) (b : Nat) : Nat :=
  (List.range 32).foldl (fun a i =>
    if d.act64 u f (32 * b + i) then a ||| ((fElem f.view.toNat (d.srcA u f) (32 * b + i)).fastIn.2 &&& Flag.flushIn) else a) 0

/-- R164, R165: block `b` of CVT.TOB. A block with no active element is the zero block. -/
def Dev.tobBlock (d : Dev) (u : Nat) (f : VSlot) (b : Nat) : BlockOut :=
  let w := biWidth (opxFmt f)
  let old := vElem 16 (d.vreg u f.vb.toNat) (2 * opxP f + b)
  if (List.range 32).all fun i => ! d.act64 u f (32 * b + i) then ⟨0, (List.range 32).map fun _ => 0, 0, 0, false, false, 0⟩
  else toBlock w (d.tobElems u f b) (if opxSupplied f then some old else none) (opxSS f)
    ((List.range 32).map fun i => d.vRnd u f (32 * b + i))

/-- R167: the reports of a block added to CSTAT_n, saturating. -/
def Dev.addStat (d : Dev) (fs : Field × Field × Field × Field) (inst n : Nat) (b : BlockOut) : Dev :=
  (((d.bump fs.1 inst b.sat n).bump fs.2.1 inst b.crush n).bump fs.2.2.1 inst (ofB b.allZero) n).bump fs.2.2.2 inst (ofB b.allSat) n

def vectorStat : Field × Field × Field × Field :=
  (Reg.VECTOR_CSTAT_SAT, Reg.VECTOR_CSTAT_CRUSH, Reg.VECTOR_CSTAT_ALL_ZERO, Reg.VECTOR_CSTAT_ALL_SAT)

/-- R164: codes to part P of the code register, scale words to positions 2P and 2P + 1 of the scale register, which may be the same
register. -/
def vTob (u : Nat) (f : VSlot) (d : Dev) : VOut :=
  let w := biWidth (opxFmt f)
  let b0 := d.tobBlock u f 0
  let b1 := d.tobBlock u f 1
  let old := d.vreg u f.vd.toNat
  let codes := b0.codes ++ b1.codes
  let vd := mergeElems old w (64 * opxP f) 64 (fun _ => true) false (fun i => wrapI w (codes.getD i 0))
  let scales := fun (r : VReg) => mergeElems r 16 (2 * opxP f) 2 (fun _ => true) false (fun i => if i = 0 then b0.scale else b1.scale)
  { ws := if f.vd = f.vb then [.v f.vd.toNat (scales vd)] else [.v f.vd.toNat vd, .v f.vb.toNat (scales (d.vreg u f.vb.toNat))]
    fl := b0.fl ||| b1.fl ||| d.tobInFlags u f 0 ||| d.tobInFlags u f 1
    fmt := opxFmt f
    post := fun d => (d.addStat vectorStat u (opxStat f) b0).addStat vectorStat u (opxStat f) b1 }

/-- R83, R85, R166: element `i` of a block with scale word `sc`, from its code of `w` bits. -/
def fvFromCode (half : Bool) (w sc i code : Nat) : FR :=
  if scaleE8 sc = 255 then ⟨if half then FFmt.f16.cnan else FFmt.f32.cnan, Flag.e8inv ||| Flag.nan⟩
  else if scaleE8 sc = 0 then ⟨0, Flag.zeroBlk⟩
  else if half then decodeF16 (elemValue w sc i (sInt w code)) else decodeF32 (elemValue w sc i (sInt w code))

/-- R166: CVT.FROMB: 64 elements from part P. -/
def vFromB (u : Nat) (f : VSlot) (d : Dev) : VOut :=
  let w := biWidth (opxFmt f)
  { d.floatOp u f fun i => fvFromCode (isHalf f.view.toNat) w (vElem 16 (d.vreg u f.vb.toNat) (2 * opxP f + i / 32)) (i % 32)
      (vElem w (d.srcA u f) (64 * opxP f + i)) with inFmt := opxFmt f }

/-! ## IN and LG classes (R155, R157, R192) -/

/-- An I32 operation on 64 elements. -/
def vIntOp (op : Nat → Nat → Nat) (u : Nat) (f : VSlot) (d : Dev) : VOut :=
  { ws := [.v f.vd.toNat (mergeElems (d.vreg u f.vd.toNat) 32 0 64 (d.active u f.mreg.toNat f.inv) f.zm
      (fun i => op (vElem 32 (d.srcA u f) i) (d.intB u f i)))] }

/-- A signed I32 comparison into a mask. -/
def vIntCmp (op : Int → Int → Bool) (u : Nat) (f : VSlot) (d : Dev) : VOut :=
  { ws := [.m (f.vd.toNat % 8) (mergeBits (d.mask u (f.vd.toNat % 8)) 0 64 (d.active u f.mreg.toNat f.inv) f.zm
      (fun i => op (sInt 32 (vElem 32 (d.srcA u f) i)) (sInt 32 (d.intB u f i))))] }

/-- A bitwise operation over all 2,048 bits, element by element of the view. -/
def vLogic (op : Nat → Nat → Nat) (u : Nat) (f : VSlot) (d : Dev) : VOut :=
  { ws := [d.writeAll u f fun j => op (vElem (viewBits f.view.toNat) (d.srcA u f) j) (d.bitsB u f j)] }

/-- A shift, element by element of the view. -/
def vShift (op : Nat → Nat → Nat → Nat) (u : Nat) (f : VSlot) (d : Dev) : VOut :=
  let w := viewBits f.view.toNat
  { ws := [d.writeAll u f fun j => op w (vElem w (d.srcA u f) j) (d.shiftB u f j)] }

/-- R192: shift counts are taken modulo the element width. -/
def shiftLeft (w a n : Nat) : Nat := (a * 2 ^ (n % w)) % 2 ^ w
def shiftRight (w a n : Nat) : Nat := a / 2 ^ (n % w)
def shiftArith (w a n : Nat) : Nat := wrapI w (sInt w a / 2 ^ (n % w))

/-! ## PM and RD classes (R156, R159, R161, R162) -/

def vBcastOp (u : Nat) (f : VSlot) (d : Dev) : VOut :=
  let e := viewCount f.view.toNat
  { ws := [d.writeAll u f fun _ => vElem (viewBits f.view.toNat) (d.srcA u f) (f.imm.toNat % e)] }

def vRotOp (u : Nat) (f : VSlot) (d : Dev) : VOut :=
  let e := viewCount f.view.toNat
  { ws := [d.writeAll u f fun j => vElem (viewBits f.view.toNat) (d.srcA u f) ((j + e - f.imm.toNat % e) % e)] }

def vZipOp (u : Nat) (f : VSlot) (d : Dev) : VOut :=
  let w := viewBits f.view.toNat
  { ws := [d.writeAll u f fun j => if j % 2 = 0 then vElem w (d.srcA u f) (j / 2) else d.bitsB u f (j / 2)] }

def vUnzipOp (u : Nat) (f : VSlot) (d : Dev) : VOut :=
  let w := viewBits f.view.toNat
  let e := viewCount f.view.toNat
  { ws := [d.writeAll u f fun j => if j < e / 2 then vElem w (d.srcA u f) (2 * j) else vElem w (d.srcA u f) (2 * (j - e / 2) + 1)] }

/-- R156: VPERM, in the F32 and I32 views; in another view its result is free (assumption 100). -/
def vPermOp (u : Nat) (f : VSlot) (d : Dev) : VOut :=
  let w := viewBits f.view.toNat
  let index := vOfElems w ((List.range (2048 / w)).map (d.bitsB u f))
  { ws := [d.writeAll u f fun i =>
      if f.view.toNat ≤ 1 then vElem 32 (d.srcA u f) (d.bitsB u f i % 64)
      else vElem w (Config.permuted f.view.toNat (d.srcA u f) index) i] }

/-- R159: the fixed tree over a segment of `2 ^ lv` lanes from lane `j`, with the flags of its additions. -/
def laneTree (op : FR → FR → FR) (x : Nat → FR) : Nat → Nat → FR
  | 0, j => x j
  | lv + 1, j => op (laneTree op x lv j) (laneTree op x lv (j + 2 ^ lv))

/-- Lane `j` of a reduction: inactive lanes are +0. -/
def Dev.lane (d : Dev) (u : Nat) (f : VSlot) (j : Nat) : FR := ⟨if d.act64 u f j then vElem 32 (d.srcA u f) j else 0, 0⟩

/-- A reduction: the segment results written to every lane of their segments. -/
def Dev.reduce (d : Dev) (u : Nat) (f : VSlot) (seg : Nat → FR) : VOut :=
  let w := max 1 f.imm.toNat
  { ws := [d.write32 u f fun j => (seg (w * (j / w))).w]
    fl := (List.range 64).foldl (fun a j => if j % w = 0 then a ||| (seg j).fl else a) 0 }

/-- R159, R162: VSUM. -/
def vSumOp (u : Nat) (f : VSlot) (d : Dev) : VOut :=
  let dec := FFmt.f32.decode
  if f.attr.toNat = 1 then
    d.reduce u f fun j => (List.range (f.imm.toNat - 1)).foldl (fun acc i =>
      let r := FFmt.f32.addStrict false (dec acc.w) (dec (d.lane u f (j + i + 1)).w)
      ⟨r.w, acc.fl ||| r.fl⟩) (d.lane u f j)
  else
    d.reduce u f fun j => laneTree (fun a b =>
      let r := FFmt.f32.addFast .rne false (dec a.w) (dec b.w)
      ⟨r.w, a.fl ||| b.fl ||| r.fl⟩) (d.lane u f) (Nat.log2 f.imm.toNat) j

/-- R161: VMAX, VMIN and VAMAX. -/
def vReduceOp (pick : FV → FV → FV) (u : Nat) (f : VSlot) (d : Dev) : VOut :=
  let dec := FFmt.f32.decode
  d.reduce u f fun j => laneTree (fun a b =>
    if (dec a.w).isNan || (dec b.w).isNan then ⟨FFmt.f32.cnan, a.fl ||| b.fl ||| Flag.nan⟩
    else ⟨FFmt.f32.packKeep (pick (dec a.w) (dec b.w)), a.fl ||| b.fl⟩) (d.lane u f) (Nat.log2 f.imm.toNat) j

/-! ## MK and ST classes (R156, R167, R182) -/

def vMaskOp (op : Bool → Bool → Bool) (u : Nat) (f : VSlot) (d : Dev) : VOut :=
  { ws := [d.writeMask u f 256 fun j => op ((d.mask u (f.va.toNat % 8)).getLsbD j) ((d.mask u (f.vb.toNat % 8)).getLsbD j)] }

def vMsetOp (u : Nat) (f : VSlot) (d : Dev) : VOut :=
  { ws := [d.writeMask u f 256 fun j => decide (j < f.imm.toNat)] }

def vMcountOp (u : Nat) (f : VSlot) (d : Dev) : VOut :=
  let e := viewCount f.view.toNat
  let n := (List.range e).foldl (fun a i => a + ofB ((d.mask u (f.va.toNat % 8)).getLsbD i && d.active u f.mreg.toNat f.inv i)) 0
  { ws := [.v f.vd.toNat (vOfElems 32 ((List.range 64).map fun _ => n))] }

def vMsignOp (u : Nat) (f : VSlot) (d : Dev) : VOut :=
  let w := viewBits f.view.toNat
  { ws := [d.writeMask u f (viewCount f.view.toNat) fun j => (vElem w (d.srcA u f) j).testBit (w - 1)] }

def vFlagsOp (u : Nat) (f : VSlot) (d : Dev) : VOut :=
  { ws := [.v f.vd.toNat (mergeElems (d.vreg u f.vd.toNat) 32 0 64 (d.active u f.mreg.toNat f.inv) f.zm
      (fun _ => d.rd Reg.VECTOR_STICKY u))] }

/-- R167: the clear bit of VSTAT. -/
def Dev.statClear (d : Dev) (u n : Nat) : Dev :=
  (((d.wr Reg.VECTOR_CSTAT_SAT u 0 n).wr Reg.VECTOR_CSTAT_CRUSH u 0 n).wr Reg.VECTOR_CSTAT_ALL_ZERO u 0 n).wr Reg.VECTOR_CSTAT_ALL_SAT u 0 n

/-- R167: the four CSTAT_n fields in elements 0 to 3, and their clear. -/
def vStatOp (u : Nat) (f : VSlot) (d : Dev) : VOut :=
  let n := f.imm.toNat % 8
  let v := fun i => match i with
    | 0 => d.rd Reg.VECTOR_CSTAT_SAT u n
    | 1 => d.rd Reg.VECTOR_CSTAT_CRUSH u n
    | 2 => d.rd Reg.VECTOR_CSTAT_ALL_ZERO u n
    | 3 => d.rd Reg.VECTOR_CSTAT_ALL_SAT u n
    | _ => 0
  { ws := [.v f.vd.toNat (mergeElems (d.vreg u f.vd.toNat) 32 0 64 (d.active u f.mreg.toNat f.inv) f.zm v)]
    post := fun d => if f.imm.getLsbD 3 then d.statClear u n else d }

/-- R171, R197: VPOP: a further pop waits behind the one in progress; a third waits for a place. -/
def vpopOp (u : Nat) (f : VSlot) (d : Dev) : SlotRes :=
  if ! vOk 0x68 f then .illegal
  else if 2 ≤ (d.unit u).pops then .hold Reg.SEQ_STALL_CQ id
  else .issue [] (fun d => ((d.setUnit u { d.unit u with pops := (d.unit u).pops + 1 }).vectorView u).count Reg.VECTOR_BUSY u) id

/-- R192: the operation of a V opcode. -/
def vOut : Nat → Option (Nat → VSlot → Dev → VOut)
  | 0x01 => some (vAddSub false)
  | 0x02 => some (vAddSub true)
  | 0x03 => some vMulOp
  | 0x04 => some (vFmaOp false false)
  | 0x05 => some (vFmaOp false true)
  | 0x06 => some (vFmaOp true false)
  | 0x08 => some (vSignOp true)
  | 0x09 => some (vSignOp false)
  | 0x0A => some (vSelect fvMin)
  | 0x0B => some (vSelect fvMax)
  | 0x0C => some (vSelect fvMaxa)
  | 0x0D => some vClassOp
  | 0x0E => some vSelOp
  | 0x0F => some vMovOp
  | 0x10 => some (vCmp 0)
  | 0x11 => some (vCmp 1)
  | 0x12 => some (vCmp 2)
  | 0x13 => some (vCmp 3)
  | 0x14 => some (vCmp 4)
  | 0x15 => some (vCmp 5)
  | 0x18 => some vDivOp
  | 0x19 => some vRcpOp
  | 0x1A => some (vRootOp false)
  | 0x1B => some (vRootOp true)
  | 0x1C => some (vTransOp 0)
  | 0x1D => some (vTransOp 1)
  | 0x20 => some (vTransOp 2)
  | 0x21 => some (vTransOp 3)
  | 0x22 => some (vTransOp 4)
  | 0x23 => some (vTransOp 5)
  | 0x24 => some (vTransOp 6)
  | 0x25 => some (vTransOp 7)
  | 0x26 => some (vTransOp 8)
  | 0x28 => some vToF16
  | 0x29 => some vFromF16
  | 0x2A => some vToInt
  | 0x2B => some vFromInt
  | 0x2C => some vTob
  | 0x2D => some vFromB
  | 0x30 => some (vIntOp fun a b => (a + b) % 2 ^ 32)
  | 0x31 => some (vIntOp fun a b => (a + 2 ^ 32 - b) % 2 ^ 32)
  | 0x32 => some (vIntOp fun a b => (a * b) % 2 ^ 32)
  | 0x33 => some (vIntOp fun a b => if sInt 32 a ≤ sInt 32 b then a else b)
  | 0x34 => some (vIntOp fun a b => if sInt 32 a ≤ sInt 32 b then b else a)
  | 0x35 => some (vIntCmp fun a b => a == b)
  | 0x36 => some (vIntCmp fun a b => a != b)
  | 0x37 => some (vIntCmp fun a b => decide (a < b))
  | 0x38 => some (vIntCmp fun a b => decide (a ≤ b))
  | 0x39 => some (vIntCmp fun a b => decide (b < a))
  | 0x3A => some (vIntCmp fun a b => decide (b ≤ a))
  | 0x40 => some (vLogic fun a b => a &&& b)
  | 0x41 => some (vLogic fun a b => a ||| b)
  | 0x42 => some (vLogic fun a b => a ^^^ b)
  | 0x43 => some (fun u f => vLogic (fun a _ => 2 ^ viewBits f.view.toNat - 1 - a) u f)
  | 0x44 => some (vShift shiftLeft)
  | 0x45 => some (vShift shiftRight)
  | 0x46 => some (vShift shiftArith)
  | 0x48 => some vBcastOp
  | 0x49 => some vRotOp
  | 0x4A => some vZipOp
  | 0x4B => some vUnzipOp
  | 0x4C => some vPermOp
  | 0x50 => some vSumOp
  | 0x51 => some (vReduceOp fvMax)
  | 0x52 => some (vReduceOp fvMin)
  | 0x53 => some (vReduceOp fvMaxa)
  | 0x58 => some (vMaskOp fun a b => a && b)
  | 0x59 => some (vMaskOp fun a b => a || b)
  | 0x5A => some (vMaskOp fun a b => a != b)
  | 0x5B => some (vMaskOp fun a b => a && ! b)
  | 0x5C => some (vMaskOp fun a _ => ! a)
  | 0x5D => some vMsetOp
  | 0x5E => some vMcountOp
  | 0x5F => some vMsignOp
  | 0x60 => some vFlagsOp
  | 0x61 => some vStatOp
  | _ => none

/-- R192, R199: a V slot operation. -/
def vOp (u opc : Nat) (f : VSlot) : SlotOp :=
  { srcs := vSources opc f, dsts := vDests opc f, weight := if opc = 0 then 0 else (vTiming opc f.attr.toNat).1,
    lat := (vTiming opc f.attr.toNat).2,
    run := fun d =>
      if opc = 0 then (if vOk 0 f then slotNop else .illegal)
      else if opc = 0x68 then vpopOp u f d
      else match vOut opc with
        | some op => Dev.vop u opc f (op u f) d
        | none => .illegal }

end Sys2Proof.Machine
end

