-- ==== Sys2Proof/Machine/UnitProg.lean ====
section
/-! DEFINITION. Unit programs: the D slot, the C slot, illegal bundles, barriers, starts and instruction-store fills (R184 to
R208). -/

namespace Sys2Proof.Machine

/-! ## D slot (R195 to R197) -/

/-- R196: the effective address in the local store, with bits [5:0] taken as zero. -/
def Dev.dAddr (d : Dev) (u : Nat) (f : DSlot) : Nat := ((d.sreg u f.sb.toNat).toNat + 64 * f.off.toNat) % lsSize / 64 * 64

/-- R195: the post-increment of SB. -/
def Dev.dInc (d : Dev) (u : Nat) (f : DSlot) : List RegWr :=
  if f.pinc then [.s f.sb.toNat (BitVec.ofInt 32 (((d.sreg u f.sb.toNat).toNat : Int) + 64 * f.inc.toInt))] else []

/-- Where byte `b` of an access at effective address `a` lies in the store; an access wraps at the end of the local store. -/
def lsByte (u a b : Nat) : Nat := lsBase u + (a + b) % lsSize

/-- `n` bytes of the local store from an effective address. -/
def lsRead (m : Mem) (u a n : Nat) : List Byte := (List.range n).map fun b => m.read (lsByte u a b)

/-- The bytes of a store, each written where `keep` holds. -/
def Dev.lsWrite (d : Dev) (u a : Nat) (keep : Nat → Bool) (bs : List Byte) : Dev :=
  bs.zipIdx.foldl (fun d (b, i) => if keep i then d.poke (lsByte u a i) [b] else d) d

/-- R63, R70: a load or a store of the unit waits, uncounted, while its LSTORE refuses work or resets (assumption 124). -/
def Dev.storeWaits (d : Dev) (u : Nat) : Bool := [Bs.quiescing, Bs.quiesced, Bs.resetting, Bs.fault].contains (d.bs (pgLstore u))
def Dev.stored (d : Dev) (u : Nat) (r : SlotRes) : SlotRes := if d.storeWaits u && ! r.isIllegal then .stop id else r

/-- R196, R216: DLD. `ecc` is what the store said of the read, `line` which of its four lines it concerns; an uncorrectable load
leaves a free value. -/
def Dev.dld (m : Mem) (u : Nat) (f : DSlot) (ecc : Ecc) (line : Nat) (d : Dev) : SlotRes :=
  let a := d.dAddr u f
  let err := fun (d : Dev) => d.lsEcc ecc u ((a / 64 + line) % 8192)
  if ecc = .uncorrectable then .issue (.v f.reg.toNat (Config.freeVReg d.free) :: d.dInc u f) (fun d => (err d.draw.2)) id
  else .issue (.v f.reg.toNat (BitVec.ofNat 2048 (leNat (lsRead m u a 256))) :: d.dInc u f) err id

/-- R213: whether a store of the active bytes covers word `w` only in part. -/
def partWord (act : Nat → Bool) (w : Nat) : Bool :=
  let bs := (List.range 4).map fun i => act (4 * w + i)
  bs.any id && ! bs.all id

/-- R150, R196, R213: DST: the whole register, whatever half VIEW names; inactive elements leave their bytes unchanged. `ecc` is what
the read of word `word`, covered in part, said: an uncorrectable word is left as it is, under R216. -/
def Dev.dst (u : Nat) (f : DSlot) (ecc : Ecc) (word : Nat) (d : Dev) : SlotRes :=
  if 5 < f.view.toNat then .illegal
  else
    let a := d.dAddr u f
    let n := viewBits f.view.toNat / 8
    let act := fun b => d.active u f.mreg.toNat f.inv (b / n)
    let part := partWord act word
    let keep := fun b => act b && ! (part && ecc == .uncorrectable && b / 4 == word)
    let bytes := natLe 256 (d.vreg u f.reg.toNat).toNat
    .issue (d.dInc u f) (fun d => (if part then d.lsEcc ecc u ((a / 64 + word / 16) % 8192) else d).lsWrite u a keep bytes) id

/-- R196: DLDM; m0 is no destination (R205). -/
def Dev.dldm (m : Mem) (u : Nat) (f : DSlot) (ecc : Ecc) (d : Dev) : SlotRes :=
  let r := f.reg.toNat % 8
  let a := d.dAddr u f
  let err := fun (d : Dev) => d.lsEcc ecc u (a / 64)
  if ecc = .uncorrectable then .issue (.m r (Config.freeMReg d.free) :: d.dInc u f) (fun d => (err d.draw.2)) id
  else .issue (.m r (BitVec.ofNat 256 (leNat (lsRead m u a 32))) :: d.dInc u f) err id

/-- R196: DSTM. -/
def Dev.dstm (u : Nat) (f : DSlot) (d : Dev) : SlotRes :=
  let a := d.dAddr u f
  let bytes := natLe 32 (d.mask u (f.reg.toNat % 8)).toNat
  .issue (d.dInc u f) (Dev.lsWrite · u a (fun _ => true) bytes) id

/-- R196, R197, R228: DKICK: the block goes to the cluster's engine under TAG. One whose buffer is full holds the bundle until it has room
(assumption 73); one that refuses work completes the kick with its code once the bundle has issued. -/
def Dev.dkick (u : Nat) (f : DSlot) (d : Dev) : SlotRes :=
  let t := f.tag.toNat
  let c := clusterOf u
  let block : MBlock := { addr := lsBase u + d.dAddr u f, kicker := some u, tag := t, home := c, atRegion := false, heldAt := d.now }
  let kick := fun (d : Dev) =>
    let i := d.info (pgSeq u)
    (d.setInfo (pgSeq u) { i with issued := i.issued ++ [(t, d.now)] }).setReqs (pgSeq u) i.reqIn (i.reqOut + 1)
  match d.stateCode (pgCmove c) with
  | some code => .issue (d.dInc u f) kick (Dev.kickDone · u t code)
  | none =>
    if engCap false ≤ (d.eng false c).queue.length then .hold Reg.SEQ_STALL_D id
    else .issue (d.dInc u f) (fun d => (kick d).accept false c block) id

/-- R196, R199: DWAIT. -/
def Dev.dwait (u : Nat) (f : DSlot) (d : Dev) : SlotRes :=
  if d.openKicks u f.tag.toNat ≠ 0 then .hold Reg.SEQ_STALL_D id else slotWrites (d.dInc u f)

/-- R195, R196: a D slot operation. `at_` says which line or word of a read `ecc` is about. -/
def dOp (m : Mem) (u opc : Nat) (f : DSlot) (ecc : Ecc) (at_ : Nat) : SlotOp :=
  { srcs := dSources opc f, dsts := dDests opc f, weight := 0, lat := dLatency opc,
    run := fun d => match opc with
      | 0 => slotNop
      | 1 => d.stored u (Dev.dld m u f ecc at_ d)
      | 2 => d.stored u (Dev.dst u f ecc at_ d)
      | 3 => d.stored u (Dev.dldm m u f ecc d)
      | 4 => d.stored u (Dev.dstm u f d)
      | 5 => Dev.dkick u f d
      | 6 => Dev.dwait u f d
      | _ => .illegal }

/-! ## C slot (R198, R200 to R204) -/

/-- R198: a scalar result. -/
def cScalar (f : CSlot) (v : Word) : SlotRes := slotWrites [.s f.sd.toNat v]

/-- R198: SLIDX. -/
def Dev.slidx (u : Nat) (f : CSlot) (d : Dev) : SlotRes :=
  match (d.unit u).loops[f.cx.toNat % 4]? with
  | some l => cScalar f (BitVec.ofNat 32 l.idx)
  | none => .illegal

/-- R200, R205: whether a LOOP at `pc` may open a body that ends at `last`. -/
def Dev.loopOk (d : Dev) (u pc last : Nat) : Bool :=
  let x := d.unit u
  decide (x.loops.length < 4 ∧ last ≤ d.rd Reg.SEQ_IMG_HI u) && ! x.loops.any (fun l => l.last == pc) &&
    (match x.loops.head? with | some l => decide (last ≤ l.last) | none => true)

/-- R200: LOOP. -/
def Dev.seqLoop (u : Nat) (f : CSlot) (d : Dev) : SlotRes :=
  let pc := d.rd Reg.SEQ_STATE_PC u
  let last := pc + f.cx.toNat % 2048 + 1
  if ! d.loopOk u pc last then .illegal
  else .issue [] (fun d => d.setUnit u { d.unit u with loops := ⟨pc + 1, last, f.imm.toNat % 2 ^ 20, 0⟩ :: (d.unit u).loops }) id

/-- R247: STEP_START of the running step. -/
def Dev.stepStart (d : Dev) : Nat := d.g64 Reg.STEP_REC_START_LO Reg.STEP_REC_START_HI

/-- R245: the phase at which a window begins. -/
def Dev.windowStart (d : Dev) (w : Nat) : Nat :=
  if w = 0 then 0 else if w = 1 then d.g Reg.BEAT_CFG_T_X else d.g Reg.BEAT_CFG_T_S

/-- How long ago a window of a system beat began, none before it begins. -/
def Dev.windowAge (d : Dev) (b w : Nat) : Option Nat :=
  let t := (d.beatNum : Int) * d.period + d.g Reg.BEAT_CFG_PHASE - (b * d.period + d.windowStart w : Nat)
  if d.beatSeen && decide (0 ≤ t) then some t.toNat else none

/-- R201: WBEAT. A unit that reaches it after the window has begun is late. -/
def Dev.wbeat (u : Nat) (f : CSlot) (d : Dev) : SlotRes :=
  let w := f.cx.toNat % 4
  let b := (d.stepStart + f.imm.toNat) % 2 ^ 64
  let on := fun (st : Nat) (d : Dev) => (d.setUnit u { d.unit u with winBeat := b }).wr Reg.SEQ_STATE_SEQ u st
  if w = 3 then .illegal
  else
    match d.windowAge b w with
    | none => .hold Reg.SEQ_WAIT_SYNC (on 3)
    | some t =>
      if d.seqState u = 3 ∨ t = 0 then .issue [] (on 2) id
      else
        let c := t * opMhz (d.rd Reg.RCLOCK_OP (regionOf u)) / 10
        .issue [] (fun d => ((on 2 d).count Reg.SEQ_LATE_CYCLES u c).raise (pgSeq u) 0x0405 12 Sev.warn (sat 24 c)) id

/-- R202: the failure of a barrier for one unit. -/
def Dev.barrierStop (n why : Nat) (d : Dev) (u : Nat) : Dev :=
  (d.raise (pgSeq u) 0x0406 13 Sev.error (n + 8 * why)).stopUnit u 5

/-- R202: the failure of a barrier: every unit that waits at it stops, and the barrier is reset. -/
def Dev.barrierFail (d : Dev) (c n why : Nat) (us : List Nat) : Dev :=
  let x := d.cluster c
  us.foldl (Dev.barrierStop n why) (d.setCluster c { x with bars := SMap.del x.bars n })

/-- R202: BAR: a unit that waits issues once the barrier has released it; otherwise it arrives. -/
def Dev.bar (u : Nat) (f : CSlot) (d : Dev) : SlotRes :=
  let n := f.cx.toNat % 8
  let mask := f.imm.toNat % 2 ^ 17
  let c := clusterOf u
  let x := d.unit u
  if x.barDone then .issue [] (fun d => (d.setUnit u { d.unit u with barDone := false, barWait := none }).wr Reg.SEQ_STATE_SEQ u 2) id
  else if x.barWait.isSome then .hold Reg.SEQ_WAIT_SYNC id
  else
    let b := SMap.at (d.cluster c).bars n ⟨mask, [], d.now, d.rd Reg.SEQ_BAR_LIMIT u⟩
    let arrived := b.arrived ++ [u]
    if ! bit mask (unitNo u) || b.mask != mask then .stop (Dev.barrierFail · c n 0 arrived)
    else
      .hold Reg.SEQ_WAIT_SYNC fun d =>
        let d := (d.setUnit u { d.unit u with barWait := some n }).wr Reg.SEQ_STATE_SEQ u 4
        let k := d.cluster c
        if (List.range 17).all (fun i => ! bit mask i || arrived.contains (c + i)) then
          arrived.foldl (fun d v => d.setUnit v { d.unit v with barDone := true }) (d.setCluster c { k with bars := SMap.del k.bars n })
        else d.setCluster c { k with bars := SMap.put k.bars n { b with arrived := arrived } }

/-- R202: BAR_LIMIT cycles after the first arrival an open barrier fails. -/
def Dev.barrierTimeout (c n : Nat) (d : Dev) : Dev :=
  match SMap.find (d.cluster c).bars n with
  | some b => (d.passTo (b.since + d.cyclesTime (regionOf c) b.limit)).barrierFail c n 1 b.arrived
  | none => d

/-- R203: SRCTX. -/
def Dev.srctx (u : Nat) (f : CSlot) (d : Dev) : SlotRes :=
  let index := (d.sreg u f.sa.toNat).toNat
  .issue [] (fun d => d.setUnit u { d.unit u with srTensor := f.imm.toNat % 2 ^ 24, srIndex := index }) id

/-- R198: SEVT. -/
def sevt (u : Nat) (f : CSlot) : SlotRes := .issue [] (Dev.raise · (pgSeq u) 0x0404 11 Sev.info f.imm.toNat) id

/-- R204: END. -/
def seqEnd (u : Nat) : SlotRes := .issue [] (fun d => d.setUnit u { d.unit u with ending := true }) id

/-- R198: a C slot operation. -/
def cOp (u opc : Nat) (f : CSlot) : SlotOp :=
  { srcs := [], dsts := cDests opc f, weight := 0, lat := 1,
    run := fun d =>
      let a := d.sreg u f.sa.toNat
      match opc with
      | 0x00 => slotNop
      | 0x01 => cScalar f f.imm
      | 0x02 => cScalar f (a + d.sreg u f.sb.toNat)
      | 0x03 => cScalar f (a - d.sreg u f.sb.toNat)
      | 0x04 => cScalar f (a + f.imm)
      | 0x05 => cScalar f (a <<< (f.imm.toNat % 32))
      | 0x06 => cScalar f (a >>> (f.imm.toNat % 32))
      | 0x07 => cScalar f (a &&& f.imm)
      | 0x08 => Dev.slidx u f d
      | 0x10 => Dev.seqLoop u f d
      | 0x18 => Dev.wbeat u f d
      | 0x19 => Dev.bar u f d
      | 0x1A => Dev.srctx u f d
      | 0x1B => sevt u f
      | 0x1F => seqEnd u
      | _ => .illegal }

/-! ## The encoding rules of one bundle (R184, R187, R191, R194, R195, R198, R205) -/

/-- R192: the V opcodes. -/
def vOpcode (opc : Nat) : Bool :=
  decide (opc ≤ 0x06 ∨ (0x08 ≤ opc ∧ opc ≤ 0x15) ∨ (0x18 ≤ opc ∧ opc ≤ 0x1D) ∨ (0x20 ≤ opc ∧ opc ≤ 0x26) ∨
    (0x28 ≤ opc ∧ opc ≤ 0x2D) ∨ (0x30 ≤ opc ∧ opc ≤ 0x3A) ∨ (0x40 ≤ opc ∧ opc ≤ 0x46) ∨ (0x48 ≤ opc ∧ opc ≤ 0x4C) ∨
    (0x50 ≤ opc ∧ opc ≤ 0x53) ∨ (0x58 ≤ opc ∧ opc ≤ 0x61) ∨ opc = 0x68)

/-- R198: the C opcodes. -/
def cOpcode (opc : Nat) : Bool :=
  decide (opc ≤ 0x08 ∨ opc = 0x10 ∨ (0x18 ≤ opc ∧ opc ≤ 0x1B) ∨ opc = 0x1F)

def mSlotOk (w : Nat) : Bool := decide (bits w 0 8 ≤ 2 ∧ bits w 28 36 = 0)
def vSlotOk (w : Nat) : Bool := vOpcode (bits w 0 7) && vOk (bits w 0 7) (vSlotOf w)
def dSlotOk (w : Nat) : Bool :=
  decide (bits w 0 8 ≤ 6 ∧ bits w 55 9 = 0) && (bits w 0 8 != 2 || decide (bits w 34 3 ≤ 5)) && (bits w 0 8 != 3 || bits w 8 3 != 0)
def cSlotOk (w : Nat) : Bool := cOpcode (bits w 0 8) && (bits w 0 8 != 0x18 || bits w 20 2 != 3)

/-- R199: whether the slots of a bundle write disjoint registers. -/
def destsOk (w : Nat) : Bool :=
  let v := bits w 64 64
  let d := bits w 128 64
  let c := bits w 192 64
  decide (vDests (bits v 0 7) (vSlotOf v) ++ dDests (bits d 0 8) (dSlotOf d) ++ cDests (bits c 0 8) (cSlotOf c)).Nodup

/-- Whether a bundle breaks no rule that applies to a single bundle. -/
def bundleOk (w : Nat) : Bool :=
  mSlotOk (bits w 0 64) && vSlotOk (bits w 64 64) && dSlotOk (bits w 128 64) && cSlotOk (bits w 192 64) && destsOk w

/-- The bundle or segment descriptor in a slot of a unit's instruction store. -/
def istoreSlot (m : Mem) (u slot : Nat) : Nat := m.nat (isBase u + 32 * slot) 32

/-- R200, R205: whether the C slot of a bundle breaks a loop rule where it stands. -/
def Dev.loopRule (d : Dev) (u w : Nat) : Bool :=
  let pc := d.rd Reg.SEQ_STATE_PC u
  if bits w 0 8 = 0x10 then d.loopOk u pc (pc + bits w 20 12 % 2048 + 1)
  else if bits w 0 8 = 0x08 then decide (bits w 20 2 < (d.unit u).loops.length)
  else true

/-- R205: the sequencer reaches the bundle at PC: one that breaks an image rule stops the unit, and so does an uncorrectable
read of it. -/
def Dev.reachBundle (m : Mem) (u : Nat) (ecc : Ecc) (d : Dev) : Dev :=
  let w := istoreSlot m u (d.rd Reg.SEQ_STATE_PC u)
  if ! d.issuing u [2] then d
  else if ecc = .uncorrectable then d.istoreUerr u
  else
    let d := if ecc = .corrected then d.correctedError (pgIstore u) 0 else d
    if bundleOk w && d.loopRule u (bits w 192 64) then d else d.illegalBundle u

/-! ## Starts and fills (R204, R206, R208) -/

/-- R204: a write of 1 to SEQ.START. -/
def Dev.seqStart (u : Nat) (d : Dev) : Nat × Dev :=
  let s := d.seqState u
  if s = 0 ∨ s = 5 then (Cc.done, (d.wr Reg.SEQ_STATE_SEQ u 1).setUnit u { d.unit u with startAt := d.now })
  else if s = 1 then (Cc.done, d)
  else (Cc.locked, d)

/-- R204: the first compute window after the start: the program begins at ENTRY. -/
def Dev.programStart (u : Nat) (d : Dev) : Dev :=
  let x := d.unit u
  if unitOk u && d.seqState u == 1 && d.beatSeen && decide (x.startAt < d.boundary) && [Bs.idle, Bs.run].contains (d.bs (pgSeq u)) then
    let d := d.setUnit u { x with loops := [], bundle := [], ending := false, winBeat := d.beatNum }
    let d := ((d.wr Reg.SEQ_STATE_SEQ u 2).wr Reg.SEQ_STATE_PC u (d.rd Reg.SEQ_PROG_ENTRY u)).wr Reg.SEQ_STATE_LOOPS u 0
    (d.setReqs (pgSeq u) 1 (d.info (pgSeq u)).reqOut).busy (pgSeq u)
  else d

/-- R206: CNT_CLR. -/
def Dev.seqCntClr (d : Dev) (u : Nat) : Dev :=
  d.clearFields u [Reg.SEQ_ISSUED, Reg.SEQ_STALL_DEP, Reg.SEQ_STALL_CQ, Reg.SEQ_STALL_VBUSY, Reg.SEQ_STALL_M, Reg.SEQ_STALL_D,
    Reg.SEQ_WAIT_SYNC, Reg.SEQ_LATE_CYCLES]

/-- R208: a fill has failed. -/
def Dev.fillFail (d : Dev) (u reason : Nat) : Dev :=
  let d := (d.wr Reg.ISTORE_FILL_STAT_STATE u 3).wr Reg.ISTORE_FILL_STAT_REASON u reason
  d.raise (pgIstore u) 0x040A 9 Sev.error reason

/-- R208: FILL_GO. A fill that is accepted marks its slots unfit until it ends in DONE. -/
def Dev.fillGo (u : Nat) (d : Dev) : Nat × Dev :=
  let src := d.rd Reg.ISTORE_FILL_SRC u
  let dst := d.rd Reg.ISTORE_FILL_DST u
  let n := d.rd Reg.ISTORE_FILL_SLOTS u
  let x := d.unit u
  if d.rd Reg.ISTORE_FILL_STAT_STATE u = 1 then (Cc.quiesced, d)
  else if n = 0 ∨ 2048 < dst + n ∨ larderSize < 64 * src + 32 * n then (Cc.done, d.fillFail u 2)
  else if ! [0, 5].contains (d.seqState u) && decide (dst ≤ d.rd Reg.SEQ_IMG_HI u ∧ d.rd Reg.SEQ_IMG_LO u < dst + n) then
    (Cc.done, d.fillFail u 1)
  else
    let slots := (List.range n).map (dst + ·)
    let d := d.setUnit u { x with fill := some (src, dst, n, d.rd Reg.ISTORE_FILL_CRC u),
                                  unfit := x.unfit.filter (! slots.contains ·) ++ slots }
    let d := (d.wr Reg.ISTORE_FILL_STAT_STATE u 1).wr Reg.ISTORE_FILL_STAT_REASON u 0
    (Cc.done, (d.setReqs (pgIstore u) 1 0).busy (pgIstore u))

/-- The fill in progress has left the store. -/
def Dev.fillOver (d : Dev) (u : Nat) : Dev :=
  ((d.setUnit u { d.unit u with fill := none }).setReqs (pgIstore u) 0 0).idle (pgIstore u)

/-- R208: a fill ends. `ecc` is what the larder said, `line` the line of the fill it concerns. -/
def Dev.fillComplete (m : Mem) (u : Nat) (ecc : Ecc) (line : Nat) (d : Dev) : Dev :=
  match (d.unit u).fill with
  | none => d
  | some (src, dst, n, crc) =>
    let r := regionOf u
    let bs := m.bytes (larderBase r + 64 * src) (32 * n)
    let d := d.larderEcc ecc r (src + line)
    if ecc = .uncorrectable then ((d.poke (isBase u + 32 * dst) (bs.take (64 * line))).fillOver u).fillFail u 4
    else
      let d := (d.poke (isBase u + 32 * dst) bs).fillOver u
      if crc32 bs ≠ crc then d.fillFail u 3
      else
        let x := d.unit u
        let d := d.setUnit u { x with unfit := x.unfit.filter (fun s => ! decide (dst ≤ s ∧ s < dst + n)) }
        (d.wr Reg.ISTORE_FILL_STAT_STATE u 2).raise (pgIstore u) 0x0409 8 Sev.info dst

/-- A forced quiesce of an ISTORE block cuts the fill in progress: its slots stay unfit, and the fill has failed, with none of the reasons that
R208 lists (R64, R208). -/
def Dev.istoreForce (d : Dev) (u : Nat) : Dev :=
  if (d.unit u).fill.isSome then (d.fillOver u).fillFail u 0 else d

def execBarrierTimeout (c : BitVec 12) (n : BitVec 3) (s : State) : Host.Outcome State Fault Refusal :=
  runDev s (Dev.barrierTimeout c.toNat n.toNat)

def execIllegalBundle (u : BitVec 12) (ecc : Ecc) (s : State) : Host.Outcome State Fault Refusal :=
  runDev s (Dev.reachBundle s.mem u.toNat ecc)

def execSeqStart (r : Requester) (u : BitVec 12) (s : State) : Host.Outcome State Fault Refusal :=
  runDev s (fun d => d.action r (pgSeq u.toNat) 0x08C true (Dev.seqStart u.toNat))

def execProgramStart (u : BitVec 12) (s : State) : Host.Outcome State Fault Refusal :=
  runDev s (Dev.programStart u.toNat)

def execSeqCntClr (r : Requester) (u : BitVec 12) (s : State) : Host.Outcome State Fault Refusal :=
  runDev s (fun d => d.action r (pgSeq u.toNat) 0x0B4 false (fun d => (Cc.done, d.seqCntClr u.toNat)))

def execFillGo (r : Requester) (u : BitVec 12) (s : State) : Host.Outcome State Fault Refusal :=
  runDev s (fun d => d.action r (pgIstore u.toNat) 0x08C true (Dev.fillGo u.toNat))

def execIstoreFillComplete (u : BitVec 12) (ecc : Ecc) (line : BitVec 10) (s : State) : Host.Outcome State Fault Refusal :=
  runMem s (fun m => Dev.fillComplete m u.toNat ecc line.toNat)

end Sys2Proof.Machine
end

