-- ==== Sys2Proof/Machine/Bundle.lean ====
section
/-! DEFINITION. Bundles: slot operations offered for issue, the decoding of a bundle word into its slot commands, and the meanings of the slot
commands (R184, R185, R187, R191, R192, R195, R198, R199). -/

namespace Sys2Proof.Machine

/-- The slot of an operation, in the order in which the causes of R199 are tested: V, M, D, C. -/
def SlotCmd.kind : SlotCmd → Nat
  | .v .. => 0
  | .m .. => 1
  | .d .. => 2
  | .c .. => 3

def SlotCmd.op (m : Mem) (u : Nat) : SlotCmd → SlotOp
  | .v opc f => vOp u opc f
  | .m opc f ecc => mOp m u opc f ecc
  | .d opc f ecc i => dOp m u opc f ecc i
  | .c opc f => cOp u opc f

/-- R206: the sequencer states in which a bundle can be offered: one that waits at WBEAT or BAR is the one that waits there. -/
def SlotCmd.states : SlotCmd → List Nat
  | .c 0x18 _ => [2, 3]
  | .c 0x19 _ => [2, 4]
  | _ => [2]

/-- An operation takes its slot in a bundle. -/
def joinSlot (bs : List SlotCmd) (s : SlotCmd) : List SlotCmd := bs.filter (·.kind != s.kind) ++ [s]

/-- The operations of a bundle, in the order V, M, D, C. -/
def bundleOps (m : Mem) (u : Nat) (bs : List SlotCmd) : List SlotOp :=
  (List.range 4).filterMap fun k => (bs.find? (·.kind == k)).map (SlotCmd.op m u)

/-- R184, R185: a slot operation of the bundle at the program counter. The slots of a bundle are offered one after another; the last one offers
the whole bundle for issue (assumption 14). -/
def Dev.slot (m : Mem) (u : Nat) (last : Bool) (s : SlotCmd) (d : Dev) : Dev :=
  let x := d.unit u
  let bs := joinSlot x.bundle s
  if last then (if d.issuing u (bs.foldl (fun l s => if s.states.length = 1 then l else s.states) [2]) then d.offerBundle u (bundleOps m u bs) else d)
  else if d.issuing u [2] then d.setUnit u { x with bundle := bs }
  else d

/-- A slot command. -/
def runSlot (s : State) (u : BitVec 12) (last : Bool) (c : SlotCmd) : Host.Outcome State Fault Refusal :=
  runMem s (fun m => Dev.slot m u.toNat last c)

/-- MNOP (R188). -/
def execMnop (u : BitVec 12) (last : Bool) (s : State) : Host.Outcome State Fault Refusal :=
  runSlot s u last (.m 0 (mSlotOf 0) .ok)

/-- MPASS (R188). -/
def execMpass (u : BitVec 12) (f : MSlot) (ecc : Ecc) (last : Bool) (s : State) : Host.Outcome State Fault Refusal :=
  runSlot s u last (.m 1 f ecc)

/-- MFENCE (R188). -/
def execMfence (u : BitVec 12) (f : MSlot) (last : Bool) (s : State) : Host.Outcome State Fault Refusal :=
  runSlot s u last (.m 2 f .ok)

/-- VNOP (R192). -/
def execVnop (u : BitVec 12) (last : Bool) (s : State) : Host.Outcome State Fault Refusal :=
  runSlot s u last (.v 0x00 (vSlotOf 0))

/-- ADD (R192). -/
def execVAdd (u : BitVec 12) (f : VSlot) (last : Bool) (s : State) : Host.Outcome State Fault Refusal :=
  runSlot s u last (.v 0x01 f)

/-- SUB (R192). -/
def execVSub (u : BitVec 12) (f : VSlot) (last : Bool) (s : State) : Host.Outcome State Fault Refusal :=
  runSlot s u last (.v 0x02 f)

/-- MUL (R192). -/
def execVMul (u : BitVec 12) (f : VSlot) (last : Bool) (s : State) : Host.Outcome State Fault Refusal :=
  runSlot s u last (.v 0x03 f)

/-- FMA (R192). -/
def execVFma (u : BitVec 12) (f : VSlot) (last : Bool) (s : State) : Host.Outcome State Fault Refusal :=
  runSlot s u last (.v 0x04 f)

/-- FMS (R192). -/
def execVFms (u : BitVec 12) (f : VSlot) (last : Bool) (s : State) : Host.Outcome State Fault Refusal :=
  runSlot s u last (.v 0x05 f)

/-- FNMA (R192). -/
def execVFnma (u : BitVec 12) (f : VSlot) (last : Bool) (s : State) : Host.Outcome State Fault Refusal :=
  runSlot s u last (.v 0x06 f)

/-- ABS (R192). -/
def execVAbs (u : BitVec 12) (f : VSlot) (last : Bool) (s : State) : Host.Outcome State Fault Refusal :=
  runSlot s u last (.v 0x08 f)

/-- NEG (R192). -/
def execVNeg (u : BitVec 12) (f : VSlot) (last : Bool) (s : State) : Host.Outcome State Fault Refusal :=
  runSlot s u last (.v 0x09 f)

/-- MIN (R192). -/
def execVMinE (u : BitVec 12) (f : VSlot) (last : Bool) (s : State) : Host.Outcome State Fault Refusal :=
  runSlot s u last (.v 0x0A f)

/-- MAX (R192). -/
def execVMaxE (u : BitVec 12) (f : VSlot) (last : Bool) (s : State) : Host.Outcome State Fault Refusal :=
  runSlot s u last (.v 0x0B f)

/-- MAXA (R192). -/
def execVMaxaE (u : BitVec 12) (f : VSlot) (last : Bool) (s : State) : Host.Outcome State Fault Refusal :=
  runSlot s u last (.v 0x0C f)

/-- CLASS (R192). -/
def execVClass (u : BitVec 12) (f : VSlot) (last : Bool) (s : State) : Host.Outcome State Fault Refusal :=
  runSlot s u last (.v 0x0D f)

/-- SEL (R192). -/
def execVSel (u : BitVec 12) (f : VSlot) (last : Bool) (s : State) : Host.Outcome State Fault Refusal :=
  runSlot s u last (.v 0x0E f)

/-- VMOV (R192). -/
def execVMov (u : BitVec 12) (f : VSlot) (last : Bool) (s : State) : Host.Outcome State Fault Refusal :=
  runSlot s u last (.v 0x0F f)

/-- CMP_EQ (R192). -/
def execCmpEq (u : BitVec 12) (f : VSlot) (last : Bool) (s : State) : Host.Outcome State Fault Refusal :=
  runSlot s u last (.v 0x10 f)

/-- CMP_NE (R192). -/
def execCmpNe (u : BitVec 12) (f : VSlot) (last : Bool) (s : State) : Host.Outcome State Fault Refusal :=
  runSlot s u last (.v 0x11 f)

/-- CMP_LT (R192). -/
def execCmpLt (u : BitVec 12) (f : VSlot) (last : Bool) (s : State) : Host.Outcome State Fault Refusal :=
  runSlot s u last (.v 0x12 f)

/-- CMP_LE (R192). -/
def execCmpLe (u : BitVec 12) (f : VSlot) (last : Bool) (s : State) : Host.Outcome State Fault Refusal :=
  runSlot s u last (.v 0x13 f)

/-- CMP_GT (R192). -/
def execCmpGt (u : BitVec 12) (f : VSlot) (last : Bool) (s : State) : Host.Outcome State Fault Refusal :=
  runSlot s u last (.v 0x14 f)

/-- CMP_GE (R192). -/
def execCmpGe (u : BitVec 12) (f : VSlot) (last : Bool) (s : State) : Host.Outcome State Fault Refusal :=
  runSlot s u last (.v 0x15 f)

/-- DIV (R192). -/
def execVDiv (u : BitVec 12) (f : VSlot) (last : Bool) (s : State) : Host.Outcome State Fault Refusal :=
  runSlot s u last (.v 0x18 f)

/-- RCP (R192). -/
def execVRcp (u : BitVec 12) (f : VSlot) (last : Bool) (s : State) : Host.Outcome State Fault Refusal :=
  runSlot s u last (.v 0x19 f)

/-- SQRT (R192). -/
def execVSqrt (u : BitVec 12) (f : VSlot) (last : Bool) (s : State) : Host.Outcome State Fault Refusal :=
  runSlot s u last (.v 0x1A f)

/-- RSQRT (R192). -/
def execVRsqrt (u : BitVec 12) (f : VSlot) (last : Bool) (s : State) : Host.Outcome State Fault Refusal :=
  runSlot s u last (.v 0x1B f)

/-- EXP2 (R192). -/
def execVExp2 (u : BitVec 12) (f : VSlot) (last : Bool) (s : State) : Host.Outcome State Fault Refusal :=
  runSlot s u last (.v 0x1C f)

/-- LOG2 (R192). -/
def execVLog2 (u : BitVec 12) (f : VSlot) (last : Bool) (s : State) : Host.Outcome State Fault Refusal :=
  runSlot s u last (.v 0x1D f)

/-- EXP (R192). -/
def execVExp (u : BitVec 12) (f : VSlot) (last : Bool) (s : State) : Host.Outcome State Fault Refusal :=
  runSlot s u last (.v 0x20 f)

/-- LOG (R192). -/
def execVLog (u : BitVec 12) (f : VSlot) (last : Bool) (s : State) : Host.Outcome State Fault Refusal :=
  runSlot s u last (.v 0x21 f)

/-- TANH (R192). -/
def execVTanh (u : BitVec 12) (f : VSlot) (last : Bool) (s : State) : Host.Outcome State Fault Refusal :=
  runSlot s u last (.v 0x22 f)

/-- SIGMOID (R192). -/
def execVSigmoid (u : BitVec 12) (f : VSlot) (last : Bool) (s : State) : Host.Outcome State Fault Refusal :=
  runSlot s u last (.v 0x23 f)

/-- ERF (R192). -/
def execVErf (u : BitVec 12) (f : VSlot) (last : Bool) (s : State) : Host.Outcome State Fault Refusal :=
  runSlot s u last (.v 0x24 f)

/-- SIN (R192). -/
def execVSin (u : BitVec 12) (f : VSlot) (last : Bool) (s : State) : Host.Outcome State Fault Refusal :=
  runSlot s u last (.v 0x25 f)

/-- COS (R192). -/
def execVCos (u : BitVec 12) (f : VSlot) (last : Bool) (s : State) : Host.Outcome State Fault Refusal :=
  runSlot s u last (.v 0x26 f)

/-- CVT_F16F32 (R192). -/
def execCvtF16f32 (u : BitVec 12) (f : VSlot) (last : Bool) (s : State) : Host.Outcome State Fault Refusal :=
  runSlot s u last (.v 0x28 f)

/-- CVT_F32F16 (R192). -/
def execCvtF32f16 (u : BitVec 12) (f : VSlot) (last : Bool) (s : State) : Host.Outcome State Fault Refusal :=
  runSlot s u last (.v 0x29 f)

/-- CVT_I32F32 (R192). -/
def execCvtI32f32 (u : BitVec 12) (f : VSlot) (last : Bool) (s : State) : Host.Outcome State Fault Refusal :=
  runSlot s u last (.v 0x2A f)

/-- CVT_F32I32 (R192). -/
def execCvtF32i32 (u : BitVec 12) (f : VSlot) (last : Bool) (s : State) : Host.Outcome State Fault Refusal :=
  runSlot s u last (.v 0x2B f)

/-- CVT_TOB (R192). -/
def execCvtTob (u : BitVec 12) (f : VSlot) (last : Bool) (s : State) : Host.Outcome State Fault Refusal :=
  runSlot s u last (.v 0x2C f)

/-- CVT_FROMB (R192). -/
def execCvtFromb (u : BitVec 12) (f : VSlot) (last : Bool) (s : State) : Host.Outcome State Fault Refusal :=
  runSlot s u last (.v 0x2D f)

/-- IADD (R192). -/
def execIadd (u : BitVec 12) (f : VSlot) (last : Bool) (s : State) : Host.Outcome State Fault Refusal :=
  runSlot s u last (.v 0x30 f)

/-- ISUB (R192). -/
def execIsub (u : BitVec 12) (f : VSlot) (last : Bool) (s : State) : Host.Outcome State Fault Refusal :=
  runSlot s u last (.v 0x31 f)

/-- IMUL (R192). -/
def execImul (u : BitVec 12) (f : VSlot) (last : Bool) (s : State) : Host.Outcome State Fault Refusal :=
  runSlot s u last (.v 0x32 f)

/-- IMIN (R192). -/
def execImin (u : BitVec 12) (f : VSlot) (last : Bool) (s : State) : Host.Outcome State Fault Refusal :=
  runSlot s u last (.v 0x33 f)

/-- IMAX (R192). -/
def execImax (u : BitVec 12) (f : VSlot) (last : Bool) (s : State) : Host.Outcome State Fault Refusal :=
  runSlot s u last (.v 0x34 f)

/-- ICMP_EQ (R192). -/
def execIcmpEq (u : BitVec 12) (f : VSlot) (last : Bool) (s : State) : Host.Outcome State Fault Refusal :=
  runSlot s u last (.v 0x35 f)

/-- ICMP_NE (R192). -/
def execIcmpNe (u : BitVec 12) (f : VSlot) (last : Bool) (s : State) : Host.Outcome State Fault Refusal :=
  runSlot s u last (.v 0x36 f)

/-- ICMP_LT (R192). -/
def execIcmpLt (u : BitVec 12) (f : VSlot) (last : Bool) (s : State) : Host.Outcome State Fault Refusal :=
  runSlot s u last (.v 0x37 f)

/-- ICMP_LE (R192). -/
def execIcmpLe (u : BitVec 12) (f : VSlot) (last : Bool) (s : State) : Host.Outcome State Fault Refusal :=
  runSlot s u last (.v 0x38 f)

/-- ICMP_GT (R192). -/
def execIcmpGt (u : BitVec 12) (f : VSlot) (last : Bool) (s : State) : Host.Outcome State Fault Refusal :=
  runSlot s u last (.v 0x39 f)

/-- ICMP_GE (R192). -/
def execIcmpGe (u : BitVec 12) (f : VSlot) (last : Bool) (s : State) : Host.Outcome State Fault Refusal :=
  runSlot s u last (.v 0x3A f)

/-- AND (R192). -/
def execVAnd (u : BitVec 12) (f : VSlot) (last : Bool) (s : State) : Host.Outcome State Fault Refusal :=
  runSlot s u last (.v 0x40 f)

/-- OR (R192). -/
def execVOr (u : BitVec 12) (f : VSlot) (last : Bool) (s : State) : Host.Outcome State Fault Refusal :=
  runSlot s u last (.v 0x41 f)

/-- XOR (R192). -/
def execVXor (u : BitVec 12) (f : VSlot) (last : Bool) (s : State) : Host.Outcome State Fault Refusal :=
  runSlot s u last (.v 0x42 f)

/-- NOT (R192). -/
def execVNot (u : BitVec 12) (f : VSlot) (last : Bool) (s : State) : Host.Outcome State Fault Refusal :=
  runSlot s u last (.v 0x43 f)

/-- SHL (R192). -/
def execVShl (u : BitVec 12) (f : VSlot) (last : Bool) (s : State) : Host.Outcome State Fault Refusal :=
  runSlot s u last (.v 0x44 f)

/-- SHR (R192). -/
def execVShr (u : BitVec 12) (f : VSlot) (last : Bool) (s : State) : Host.Outcome State Fault Refusal :=
  runSlot s u last (.v 0x45 f)

/-- SAR (R192). -/
def execVSar (u : BitVec 12) (f : VSlot) (last : Bool) (s : State) : Host.Outcome State Fault Refusal :=
  runSlot s u last (.v 0x46 f)

/-- VBCAST (R192). -/
def execVbcast (u : BitVec 12) (f : VSlot) (last : Bool) (s : State) : Host.Outcome State Fault Refusal :=
  runSlot s u last (.v 0x48 f)

/-- VROT (R192). -/
def execVrot (u : BitVec 12) (f : VSlot) (last : Bool) (s : State) : Host.Outcome State Fault Refusal :=
  runSlot s u last (.v 0x49 f)

/-- VZIP (R192). -/
def execVzip (u : BitVec 12) (f : VSlot) (last : Bool) (s : State) : Host.Outcome State Fault Refusal :=
  runSlot s u last (.v 0x4A f)

/-- VUNZIP (R192). -/
def execVunzip (u : BitVec 12) (f : VSlot) (last : Bool) (s : State) : Host.Outcome State Fault Refusal :=
  runSlot s u last (.v 0x4B f)

/-- VPERM (R192). -/
def execVperm (u : BitVec 12) (f : VSlot) (last : Bool) (s : State) : Host.Outcome State Fault Refusal :=
  runSlot s u last (.v 0x4C f)

/-- VSUM (R192). -/
def execVsum (u : BitVec 12) (f : VSlot) (last : Bool) (s : State) : Host.Outcome State Fault Refusal :=
  runSlot s u last (.v 0x50 f)

/-- VMAX (R192). -/
def execVMaxR (u : BitVec 12) (f : VSlot) (last : Bool) (s : State) : Host.Outcome State Fault Refusal :=
  runSlot s u last (.v 0x51 f)

/-- VMIN (R192). -/
def execVMinR (u : BitVec 12) (f : VSlot) (last : Bool) (s : State) : Host.Outcome State Fault Refusal :=
  runSlot s u last (.v 0x52 f)

/-- VAMAX (R192). -/
def execVAmaxR (u : BitVec 12) (f : VSlot) (last : Bool) (s : State) : Host.Outcome State Fault Refusal :=
  runSlot s u last (.v 0x53 f)

/-- MAND (R192). -/
def execMand (u : BitVec 12) (f : VSlot) (last : Bool) (s : State) : Host.Outcome State Fault Refusal :=
  runSlot s u last (.v 0x58 f)

/-- MOR (R192). -/
def execMor (u : BitVec 12) (f : VSlot) (last : Bool) (s : State) : Host.Outcome State Fault Refusal :=
  runSlot s u last (.v 0x59 f)

/-- MXOR (R192). -/
def execMxor (u : BitVec 12) (f : VSlot) (last : Bool) (s : State) : Host.Outcome State Fault Refusal :=
  runSlot s u last (.v 0x5A f)

/-- MANDN (R192). -/
def execMandn (u : BitVec 12) (f : VSlot) (last : Bool) (s : State) : Host.Outcome State Fault Refusal :=
  runSlot s u last (.v 0x5B f)

/-- MNOT (R192). -/
def execMnot (u : BitVec 12) (f : VSlot) (last : Bool) (s : State) : Host.Outcome State Fault Refusal :=
  runSlot s u last (.v 0x5C f)

/-- MSET (R192). -/
def execMset (u : BitVec 12) (f : VSlot) (last : Bool) (s : State) : Host.Outcome State Fault Refusal :=
  runSlot s u last (.v 0x5D f)

/-- MCOUNT (R192). -/
def execMcount (u : BitVec 12) (f : VSlot) (last : Bool) (s : State) : Host.Outcome State Fault Refusal :=
  runSlot s u last (.v 0x5E f)

/-- MSIGN (R192). -/
def execMsign (u : BitVec 12) (f : VSlot) (last : Bool) (s : State) : Host.Outcome State Fault Refusal :=
  runSlot s u last (.v 0x5F f)

/-- VFLAGS (R192). -/
def execVflags (u : BitVec 12) (f : VSlot) (last : Bool) (s : State) : Host.Outcome State Fault Refusal :=
  runSlot s u last (.v 0x60 f)

/-- VSTAT (R192). -/
def execVstat (u : BitVec 12) (f : VSlot) (last : Bool) (s : State) : Host.Outcome State Fault Refusal :=
  runSlot s u last (.v 0x61 f)

/-- VPOP (R192). -/
def execVpop (u : BitVec 12) (f : VSlot) (last : Bool) (s : State) : Host.Outcome State Fault Refusal :=
  runSlot s u last (.v 0x68 f)

/-- DNOP (R196). -/
def execDnop (u : BitVec 12) (last : Bool) (s : State) : Host.Outcome State Fault Refusal :=
  runSlot s u last (.d 0 (dSlotOf 0) .ok 0)

/-- DLD (R196). -/
def execDld (u : BitVec 12) (f : DSlot) (ecc : Ecc) (line : BitVec 2) (last : Bool) (s : State) : Host.Outcome State Fault Refusal :=
  runSlot s u last (.d 1 f ecc line.toNat)

/-- DST (R196). -/
def execDst (u : BitVec 12) (f : DSlot) (ecc : Ecc) (word : BitVec 6) (last : Bool) (s : State) : Host.Outcome State Fault Refusal :=
  runSlot s u last (.d 2 f ecc word.toNat)

/-- DLDM (R196). -/
def execDldm (u : BitVec 12) (f : DSlot) (ecc : Ecc) (last : Bool) (s : State) : Host.Outcome State Fault Refusal :=
  runSlot s u last (.d 3 f ecc 0)

/-- DSTM (R196). -/
def execDstm (u : BitVec 12) (f : DSlot) (last : Bool) (s : State) : Host.Outcome State Fault Refusal :=
  runSlot s u last (.d 4 f .ok 0)

/-- DKICK (R196). -/
def execDkick (u : BitVec 12) (f : DSlot) (last : Bool) (s : State) : Host.Outcome State Fault Refusal :=
  runSlot s u last (.d 5 f .ok 0)

/-- DWAIT (R196). -/
def execDwait (u : BitVec 12) (f : DSlot) (last : Bool) (s : State) : Host.Outcome State Fault Refusal :=
  runSlot s u last (.d 6 f .ok 0)

/-- CNOP (R198). -/
def execCnop (u : BitVec 12) (last : Bool) (s : State) : Host.Outcome State Fault Refusal :=
  runSlot s u last (.c 0x00 (cSlotOf 0))

/-- SLI (R198). -/
def execSli (u : BitVec 12) (f : CSlot) (last : Bool) (s : State) : Host.Outcome State Fault Refusal :=
  runSlot s u last (.c 0x01 f)

/-- SADD (R198). -/
def execSadd (u : BitVec 12) (f : CSlot) (last : Bool) (s : State) : Host.Outcome State Fault Refusal :=
  runSlot s u last (.c 0x02 f)

/-- SSUB (R198). -/
def execSsub (u : BitVec 12) (f : CSlot) (last : Bool) (s : State) : Host.Outcome State Fault Refusal :=
  runSlot s u last (.c 0x03 f)

/-- SADDI (R198). -/
def execSaddi (u : BitVec 12) (f : CSlot) (last : Bool) (s : State) : Host.Outcome State Fault Refusal :=
  runSlot s u last (.c 0x04 f)

/-- SSHLI (R198). -/
def execSshli (u : BitVec 12) (f : CSlot) (last : Bool) (s : State) : Host.Outcome State Fault Refusal :=
  runSlot s u last (.c 0x05 f)

/-- SSHRI (R198). -/
def execSshri (u : BitVec 12) (f : CSlot) (last : Bool) (s : State) : Host.Outcome State Fault Refusal :=
  runSlot s u last (.c 0x06 f)

/-- SANDI (R198). -/
def execSandi (u : BitVec 12) (f : CSlot) (last : Bool) (s : State) : Host.Outcome State Fault Refusal :=
  runSlot s u last (.c 0x07 f)

/-- SLIDX (R198). -/
def execSlidx (u : BitVec 12) (f : CSlot) (last : Bool) (s : State) : Host.Outcome State Fault Refusal :=
  runSlot s u last (.c 0x08 f)

/-- LOOP (R198). -/
def execSeqLoop (u : BitVec 12) (f : CSlot) (last : Bool) (s : State) : Host.Outcome State Fault Refusal :=
  runSlot s u last (.c 0x10 f)

/-- WBEAT (R198). -/
def execWbeat (u : BitVec 12) (f : CSlot) (last : Bool) (s : State) : Host.Outcome State Fault Refusal :=
  runSlot s u last (.c 0x18 f)

/-- BAR (R198). -/
def execSeqBar (u : BitVec 12) (f : CSlot) (last : Bool) (s : State) : Host.Outcome State Fault Refusal :=
  runSlot s u last (.c 0x19 f)

/-- SRCTX (R198). -/
def execSrctx (u : BitVec 12) (f : CSlot) (last : Bool) (s : State) : Host.Outcome State Fault Refusal :=
  runSlot s u last (.c 0x1A f)

/-- SEVT (R198). -/
def execSevt (u : BitVec 12) (f : CSlot) (last : Bool) (s : State) : Host.Outcome State Fault Refusal :=
  runSlot s u last (.c 0x1B f)

/-- END (R198). -/
def execSeqEnd (u : BitVec 12) (last : Bool) (s : State) : Host.Outcome State Fault Refusal :=
  runSlot s u last (.c 0x1F (cSlotOf 0))

/-! ## A bundle word as its slot commands -/

/-- R187: the command that an M slot word spells; none for a reserved code. -/
def mCommand (u : BitVec 12) (last : Bool) (w : Nat) : Option Instr :=
  match bits w 0 8 with
  | 0x00 => some (.mnop u last)
  | 0x01 => some (.mpass u (mSlotOf w) .ok last)
  | 0x02 => some (.mfence u (mSlotOf w) last)
  | _ => none

/-- R191, R192: the command that a V slot word spells; none for a reserved code. -/
def vCommand (u : BitVec 12) (last : Bool) (w : Nat) : Option Instr :=
  match bits w 0 7 with
  | 0x00 => some (.vnop u last)
  | 0x01 => some (.vAdd u (vSlotOf w) last)
  | 0x02 => some (.vSub u (vSlotOf w) last)
  | 0x03 => some (.vMul u (vSlotOf w) last)
  | 0x04 => some (.vFma u (vSlotOf w) last)
  | 0x05 => some (.vFms u (vSlotOf w) last)
  | 0x06 => some (.vFnma u (vSlotOf w) last)
  | 0x08 => some (.vAbs u (vSlotOf w) last)
  | 0x09 => some (.vNeg u (vSlotOf w) last)
  | 0x0A => some (.vMinE u (vSlotOf w) last)
  | 0x0B => some (.vMaxE u (vSlotOf w) last)
  | 0x0C => some (.vMaxaE u (vSlotOf w) last)
  | 0x0D => some (.vClass u (vSlotOf w) last)
  | 0x0E => some (.vSel u (vSlotOf w) last)
  | 0x0F => some (.vMov u (vSlotOf w) last)
  | 0x10 => some (.cmpEq u (vSlotOf w) last)
  | 0x11 => some (.cmpNe u (vSlotOf w) last)
  | 0x12 => some (.cmpLt u (vSlotOf w) last)
  | 0x13 => some (.cmpLe u (vSlotOf w) last)
  | 0x14 => some (.cmpGt u (vSlotOf w) last)
  | 0x15 => some (.cmpGe u (vSlotOf w) last)
  | 0x18 => some (.vDiv u (vSlotOf w) last)
  | 0x19 => some (.vRcp u (vSlotOf w) last)
  | 0x1A => some (.vSqrt u (vSlotOf w) last)
  | 0x1B => some (.vRsqrt u (vSlotOf w) last)
  | 0x1C => some (.vExp2 u (vSlotOf w) last)
  | 0x1D => some (.vLog2 u (vSlotOf w) last)
  | 0x20 => some (.vExp u (vSlotOf w) last)
  | 0x21 => some (.vLog u (vSlotOf w) last)
  | 0x22 => some (.vTanh u (vSlotOf w) last)
  | 0x23 => some (.vSigmoid u (vSlotOf w) last)
  | 0x24 => some (.vErf u (vSlotOf w) last)
  | 0x25 => some (.vSin u (vSlotOf w) last)
  | 0x26 => some (.vCos u (vSlotOf w) last)
  | 0x28 => some (.cvtF16f32 u (vSlotOf w) last)
  | 0x29 => some (.cvtF32f16 u (vSlotOf w) last)
  | 0x2A => some (.cvtI32f32 u (vSlotOf w) last)
  | 0x2B => some (.cvtF32i32 u (vSlotOf w) last)
  | 0x2C => some (.cvtTob u (vSlotOf w) last)
  | 0x2D => some (.cvtFromb u (vSlotOf w) last)
  | 0x30 => some (.iadd u (vSlotOf w) last)
  | 0x31 => some (.isub u (vSlotOf w) last)
  | 0x32 => some (.imul u (vSlotOf w) last)
  | 0x33 => some (.imin u (vSlotOf w) last)
  | 0x34 => some (.imax u (vSlotOf w) last)
  | 0x35 => some (.icmpEq u (vSlotOf w) last)
  | 0x36 => some (.icmpNe u (vSlotOf w) last)
  | 0x37 => some (.icmpLt u (vSlotOf w) last)
  | 0x38 => some (.icmpLe u (vSlotOf w) last)
  | 0x39 => some (.icmpGt u (vSlotOf w) last)
  | 0x3A => some (.icmpGe u (vSlotOf w) last)
  | 0x40 => some (.vAnd u (vSlotOf w) last)
  | 0x41 => some (.vOr u (vSlotOf w) last)
  | 0x42 => some (.vXor u (vSlotOf w) last)
  | 0x43 => some (.vNot u (vSlotOf w) last)
  | 0x44 => some (.vShl u (vSlotOf w) last)
  | 0x45 => some (.vShr u (vSlotOf w) last)
  | 0x46 => some (.vSar u (vSlotOf w) last)
  | 0x48 => some (.vbcast u (vSlotOf w) last)
  | 0x49 => some (.vrot u (vSlotOf w) last)
  | 0x4A => some (.vzip u (vSlotOf w) last)
  | 0x4B => some (.vunzip u (vSlotOf w) last)
  | 0x4C => some (.vperm u (vSlotOf w) last)
  | 0x50 => some (.vsum u (vSlotOf w) last)
  | 0x51 => some (.vMaxR u (vSlotOf w) last)
  | 0x52 => some (.vMinR u (vSlotOf w) last)
  | 0x53 => some (.vAmaxR u (vSlotOf w) last)
  | 0x58 => some (.mand u (vSlotOf w) last)
  | 0x59 => some (.mor u (vSlotOf w) last)
  | 0x5A => some (.mxor u (vSlotOf w) last)
  | 0x5B => some (.mandn u (vSlotOf w) last)
  | 0x5C => some (.mnot u (vSlotOf w) last)
  | 0x5D => some (.mset u (vSlotOf w) last)
  | 0x5E => some (.mcount u (vSlotOf w) last)
  | 0x5F => some (.msign u (vSlotOf w) last)
  | 0x60 => some (.vflags u (vSlotOf w) last)
  | 0x61 => some (.vstat u (vSlotOf w) last)
  | 0x68 => some (.vpop u (vSlotOf w) last)
  | _ => none

/-- R195: the command that a D slot word spells; none for a reserved code. -/
def dCommand (u : BitVec 12) (last : Bool) (w : Nat) : Option Instr :=
  match bits w 0 8 with
  | 0x00 => some (.dnop u last)
  | 0x01 => some (.dld u (dSlotOf w) .ok 0 last)
  | 0x02 => some (.dst u (dSlotOf w) .ok 0 last)
  | 0x03 => some (.dldm u (dSlotOf w) .ok last)
  | 0x04 => some (.dstm u (dSlotOf w) last)
  | 0x05 => some (.dkick u (dSlotOf w) last)
  | 0x06 => some (.dwait u (dSlotOf w) last)
  | _ => none

/-- R198: the command that a C slot word spells; none for a reserved code. -/
def cCommand (u : BitVec 12) (last : Bool) (w : Nat) : Option Instr :=
  match bits w 0 8 with
  | 0x00 => some (.cnop u last)
  | 0x01 => some (.sli u (cSlotOf w) last)
  | 0x02 => some (.sadd u (cSlotOf w) last)
  | 0x03 => some (.ssub u (cSlotOf w) last)
  | 0x04 => some (.saddi u (cSlotOf w) last)
  | 0x05 => some (.sshli u (cSlotOf w) last)
  | 0x06 => some (.sshri u (cSlotOf w) last)
  | 0x07 => some (.sandi u (cSlotOf w) last)
  | 0x08 => some (.slidx u (cSlotOf w) last)
  | 0x10 => some (.seqLoop u (cSlotOf w) last)
  | 0x18 => some (.wbeat u (cSlotOf w) last)
  | 0x19 => some (.seqBar u (cSlotOf w) last)
  | 0x1A => some (.srctx u (cSlotOf w) last)
  | 0x1B => some (.sevt u (cSlotOf w) last)
  | 0x1F => some (.seqEnd u last)
  | _ => none

/-- R184, R205: the commands that a 256-bit bundle word stands for, the C slot last; a reserved code makes it an illegal bundle. -/
def bundleCommands (u : BitVec 12) (w : Nat) : List Instr :=
  match mCommand u false (bits w 0 64), vCommand u false (bits w 64 64), dCommand u false (bits w 128 64), cCommand u true (bits w 192 64) with
  | some a, some b, some c, some d => [a, b, c, d]
  | _, _, _, _ => [.illegalBundle u .ok]

end Sys2Proof.Machine
end

