-- ==== Sys2Proof/Machine/Cellar.lean ====
section
/-! DEFINITION. The compression engine: cellar records and the conversions of operations 3 to 6 (R234 to R242). -/

namespace Sys2Proof.Machine

/-! ## Elements of a byte stream -/

/-- Bytes of one element of a float format (0 FP32, 1 FP16), and the format. -/
def elemBytes (fmt : Nat) : Nat := if fmt = 1 then 2 else 4
def elemFmt (fmt : Nat) : FFmt := if fmt = 1 then FFmt.f16 else FFmt.f32

/-- The little-endian elements of `n` bytes each of a byte list; `k` of them. -/
def elemsOf (n : Nat) : Nat → List Byte → List Nat
  | 0, _ => []
  | k + 1, bs => leNat (bs.take n) :: elemsOf n k (bs.drop n)

/-- A list cut into `k` pieces of `n`. -/
def pieces {α : Type} (n : Nat) : Nat → List α → List (List α)
  | 0, _ => []
  | k + 1, xs => xs.take n :: pieces n k (xs.drop n)

/-- A byte list filled up with zeros to a multiple of `n`. -/
def padTo (n : Nat) (bs : List Byte) : List Byte := bs ++ List.replicate ((n - bs.length % n) % n) 0

/-! ## LOSSLESS coding (R238) -/

/-- Exponent and mantissa widths of a format, and the largest delta width. -/
def llExp (fmt : Nat) : Nat := if fmt = 1 then 5 else 8
def llMan (fmt : Nat) : Nat := if fmt = 1 then 10 else 23
def llMaxB (fmt : Nat) : Nat := if fmt = 1 then 6 else 9

/-- Fields packed from bit 0 upward: the number, and how many bits it has. -/
def packBits : List (Nat × Nat) → Nat × Nat
  | [] => (0, 0)
  | (v, w) :: fs => let r := packBits fs; (v % 2 ^ w + 2 ^ w * r.1, w + r.2)

def llExpOf (fmt x : Nat) : Nat := bits x (llMan fmt) (llExp fmt)

/-- The exponent differences of neighbouring elements. -/
def llDeltas (fmt : Nat) : List Nat → List Int
  | x :: y :: xs => ((llExpOf fmt y : Int) - llExpOf fmt x) :: llDeltas fmt (y :: xs)
  | _ => []

/-- The smallest width that holds every delta. -/
def llWidth (ds : List Int) : Nat :=
  ((List.range 10).find? fun b => ds.all fun x => if b = 0 then x == 0 else decide (-(2 ^ (b - 1) : Int) ≤ x ∧ x < 2 ^ (b - 1))).getD 9

/-- A coded group: its header byte, zero mask and bit field. -/
def llGroup (fmt : Nat) (g : List Nat) : List Byte :=
  let nz := g.filter (· ≠ 0)
  let ds := llDeltas fmt nz
  let b := llWidth ds
  let z := (List.range 32).foldl (fun z i => if g.getD i 0 = 0 then setBit z i else z) 0
  let man := fun x => (x % 2 ^ llMan fmt, llMan fmt)
  let sign := fun x => (x / 2 ^ (llMan fmt + llExp fmt), 1)
  let fields := (List.range nz.length).flatMap fun i =>
    let x := nz.getD i 0
    if i = 0 then [(llExpOf fmt x, llExp fmt), sign x, man x] else [sign x, (wrapI b (ds.getD (i - 1) 0), b), man x]
  let p := packBits fields
  BitVec.ofNat 8 b :: natLe 4 z ++ natLe ((p.2 + 7) / 8) p.1

/-- The header byte of a run of all-zero groups, none for an empty run. -/
def llRun (n : Nat) : List Byte := if n = 0 then [] else [BitVec.ofNat 8 (127 + n)]

/-- The groups coded in order; `run` counts the all-zero groups not yet coded. -/
def llEncode (fmt : Nat) : List (List Nat) → Nat → List Byte
  | [], run => llRun run
  | g :: gs, run =>
    if g.all (· = 0) then (if run = 127 then llRun 128 ++ llEncode fmt gs 0 else llEncode fmt gs (run + 1))
    else llRun run ++ llGroup fmt g ++ llEncode fmt gs 0

/-- The elements of a coded group from its bit field, by ascending element number; `prev` is the exponent of the element before,
none before the first. Answers the elements and the bits used. -/
def llElems (fmt b z v : Nat) : Nat → Nat → Nat → Option Nat → List Nat × Nat
  | 0, _, pos, _ => ([], pos)
  | k + 1, i, pos, prev =>
    if bit z i then let r := llElems fmt b z v k (i + 1) pos prev; (0 :: r.1, r.2)
    else
      let m := llMan fmt
      let e := llExp fmt
      match prev with
      | none =>
        let x := bits v pos e * 2 ^ m + bits v (pos + e) 1 * 2 ^ (m + e) + bits v (pos + e + 1) m
        let r := llElems fmt b z v k (i + 1) (pos + e + 1 + m) (some (bits v pos e))
        (x :: r.1, r.2)
      | some p =>
        let dlt := if b = 0 then 0 else sInt b (bits v (pos + 1) b)
        let ex := wrapI e ((p : Int) + dlt)
        let x := ex * 2 ^ m + bits v pos 1 * 2 ^ (m + e) + bits v (pos + 1 + b) m
        let r := llElems fmt b z v k (i + 1) (pos + 1 + b + m) (some ex)
        (x :: r.1, r.2)

/-- A LOSSLESS payload decoded into `left` groups of 32 elements; none when it is invalid. -/
def llDecode (fmt : Nat) : Nat → Nat → List Byte → Option (List Nat)
  | 0, left, _ => if left = 0 then some [] else none
  | fuel + 1, left, bs =>
    if left = 0 then some []
    else
      match bs with
      | [] => none
      | h :: rest =>
        let hn := h.toNat
        if 128 ≤ hn then
          if left < hn - 127 then none
          else (llDecode fmt fuel (left - (hn - 127)) rest).map (List.replicate (32 * (hn - 127)) 0 ++ ·)
        else if llMaxB fmt < hn ∨ rest.length < 4 then none
        else
          let z := leNat (rest.take 4)
          let body := rest.drop 4
          let r := llElems fmt hn z (leNat (body.take 144)) 32 0 0 none
          let n := (r.2 + 7) / 8
          if body.length < n then none else (llDecode fmt fuel (left - 1) (body.drop n)).map (r.1 ++ ·)

/-! ## BOUNDED coding (R239) -/

/-- The elements of a block with the input treatment of R81. -/
def fastElems (fmt : Nat) (xs : List Nat) : List FV := xs.map fun x => ((elemFmt fmt).decode x).fastIn.1
def fastFlags (fmt : Nat) (xs : List Nat) : Nat :=
  xs.foldl (fun a x => a ||| (((elemFmt fmt).decode x).fastIn.2 &&& Flag.flushIn)) 0

/-- R86, R94: element `i` of a block decoded to FP32 or FP16. -/
def blockElem (fmt w sc i : Nat) (q : Int) : FR :=
  if scaleE8 sc = 255 then ⟨(elemFmt fmt).cnan, Flag.e8inv ||| Flag.nan⟩
  else if scaleE8 sc = 0 then ⟨0, Flag.zeroBlk⟩
  else if fmt = 1 then decodeF16 (elemValue w sc i q) else decodeF32 (elemValue w sc i q)

/-- The blocks of a stream of elements, each of 32. -/
def bounded (fmt : Nat) (ss : Bool) (xs : List Nat) : List BlockOut :=
  (pieces 32 (xs.length / 32) xs).map fun b =>
    let o := toBlock 8 (fastElems fmt b) none ss []
    { o with fl := o.fl ||| fastFlags fmt b }

/-- R237: scale words of all blocks, then codes of all blocks. -/
def boundedPayload (bs : List BlockOut) : List Byte :=
  (bs.flatMap fun b => natLe 2 b.scale) ++ (bs.flatMap fun b => packCodes 8 b.codes)

/-- A BOUNDED payload decoded: the elements, and the flags met. -/
def boundedDecode (fmt : Nat) (p : List Byte) : List FR :=
  let nb := 65536 / (32 * elemBytes fmt)
  (pieces 32 nb (p.drop (2 * nb))).zipIdx.flatMap fun (c, k) =>
    let sc := leNat ((p.drop (2 * k)).take 2)
    (List.range 32).map fun i => blockElem fmt 8 sc i (codeAt 8 c i)

/-! ## Records (R235) -/

/-- A record of a mode: header, payload, and zeros up to a multiple of 512 bytes. -/
def record (mode fmt inBytes tensor block : Nat) (payload decoded : List Byte) : List Byte :=
  let head := natLe 4 0x4E584352 ++ natLe 4 (mode + 16 * fmt) ++ natLe 4 inBytes ++ natLe 4 payload.length ++ natLe 4 tensor ++
    natLe 4 block ++ natLe 4 (crc32 payload) ++ natLe 4 (crc32 decoded) ++ List.replicate 28 0
  padTo 512 (head ++ natLe 4 (crc32 head) ++ payload)

/-- What COMPRESS has done so far; `tab` holds the table entries. -/
structure Packing where
  d : Dev
  used : Nat := 0
  fell : Nat := 0
  tab : List Byte := []

/-- R229: what lands of a stream whose writer ends early: whole lines, in HBM whole blocks. An HBM block that a stream or a row covers in part
is written whole, its other bytes as they stand (assumption 111). -/
def wholeWrites (space : Nat) (bs : List Byte) : List Byte := let n := if space = 2 then 512 else 64; bs.take (bs.length / n * n)

/-- R167: the reports of conversions added to CSTAT_STAT of a region's COMPRESS page. -/
def compressStat : Field × Field × Field × Field :=
  (Reg.COMPRESS_CSTAT_SAT, Reg.COMPRESS_CSTAT_CRUSH, Reg.COMPRESS_CSTAT_ALL_ZERO, Reg.COMPRESS_CSTAT_ALL_SAT)

/-- The reports and the format events of a list of converted blocks. -/
def Dev.blockReports (d : Dev) (r stat fmt : Nat) (bs : List BlockOut) : Dev :=
  let d := bs.foldl (fun d b => d.addStat compressStat r stat b) d
  d.formatEvents (pgCompress r) (bs.foldl (fun a b => a ||| b.fl) 0) fmt 0 0

/-- One record written at its place, with its table entry. -/
def Packing.put (p : Packing) (base : Nat) (rec : List Byte) : Packing :=
  { p with d := p.d.poke (base + p.used) rec, tab := p.tab ++ natLe 4 (p.used / 64), used := p.used + rec.length }

/-- R234, R237: one 64 KiB input block compressed and packed; `left` blocks follow it. -/
def Packing.block (p : Packing) (r w base i left inBytes : Nat) (bytes : List Byte) : Packing :=
  let fmt := Ds.fmtIn w
  let limit := Ds.dstLimit w * 64
  let after := left * boundedSize fmt
  let xs := elemsOf (elemBytes fmt) (65536 / elemBytes fmt) bytes
  let lossless := llEncode fmt (pieces 32 (xs.length / 32) xs) 0
  let rl := record 1 fmt inBytes (Ds.tensor w) i lossless bytes
  if Ds.cmode w = 1 ∧ lossless.length ≤ 65536 ∧ p.used + rl.length + after ≤ limit then
    { p with d := p.d.bump Reg.COMPRESS_RECORDS r }.put base rl
  else if Ds.cmode w = 1 ∧ p.used + 66048 + after ≤ limit then
    { p with d := (p.d.bump Reg.COMPRESS_RECORDS r).bump Reg.COMPRESS_STORED r }.put base
      (record 0 fmt inBytes (Ds.tensor w) i bytes bytes)
  else
    let bs := bounded fmt (Ds.ss w) xs
    let payload := boundedPayload bs
    let decoded := (boundedDecode fmt payload).flatMap fun x => natLe (elemBytes fmt) x.w
    let d := (p.d.bump Reg.COMPRESS_RECORDS r).blockReports r (Ds.stat w) 2 bs
    let d := if Ds.cmode w = 1 then (d.bump Reg.COMPRESS_FALLBACK r).raise (pgCompress r) 0x0508 11 Sev.info (Ds.tensor w + 2 ^ 24 * sat 8 (p.fell + 1)) else d
    { p with d := d, fell := p.fell + Ds.cmode w }.put base (record 2 fmt inBytes (Ds.tensor w) i payload decoded)

/-- The source rows of a descriptor as one byte stream, the first `n` rows. -/
def Dev.srcStream (d : Dev) (m : Mem) (w n : Nat) : List Byte :=
  (List.range n).flatMap fun r => m.bytes (d.srcRow w r) (Ds.rowLen w * 64)

/-- Where an address of the destination or source space of a descriptor lies in the store. -/
def Dev.dstAt (d : Dev) (w units : Nat) : Nat := d.rowBase (Ds.dstSpace w) (Ds.dstInst w) units 0 0
def Dev.srcAt (d : Dev) (w units : Nat) : Nat := d.rowBase (Ds.srcSpace w) (Ds.srcInst w) units 0 0

/-- The row and line at which an uncorrectable word of a descriptor's source rows ends it, if it lies there. -/
def inRows (w : Nat) (bad : Option (Nat × Nat)) : Option (Nat × Nat) := bad.filter fun b => decide (b.1 < Ds.rows w ∧ b.2 < Ds.rowLen w)

/-- COMPRESS. `bad` names the line whose word is uncorrectable: the blocks that end before it have their records. -/
def compressDesc (m : Mem) (rm : Bool) (inst : Nat) (bad : Option (Nat × Nat)) (d : Dev) (w : Nat) : DescRes :=
  let r := if rm then inst else regionOf inst
  let total := Ds.rows w * Ds.rowLen w * 64
  let n := match inRows w bad with | some b => (b.1 * Ds.rowLen w + b.2) * 64 / 65536 | none => Ds.blocks w
  let stream := d.srcStream m w (Ds.rows w)
  let base := d.dstAt w (Ds.dstAddr w)
  let p := (List.range n).foldl (fun (p : Packing) i =>
    p.block r w base i (Ds.blocks w - 1 - i) (min 65536 (total - 65536 * i)) (padTo 65536 ((stream.drop (65536 * i)).take 65536)))
    { d := d }
  let tab := if (inRows w bad).isSome then wholeWrites (Ds.dstSpace w) p.tab else p.tab
  let d := p.d.poke (d.dstAt w (Ds.scaleAddr w)) tab
  let lines := p.used / 64 + (tab.length + 63) / 64
  match inRows w bad with
  | some b => let x := d.srcFail w b.1 b.2; ⟨x.1, lines, some (x.2, Cc.uerr)⟩
  | none => ⟨d, lines, none⟩

/-! ## DECOMPRESS (R236) -/

/-- What decoding a record's payload gives: its bytes and the flags met; none when the payload does not decode. -/
def recordDecode (mode fmt : Nat) (payload : List Byte) : Option (List Byte × Nat) :=
  match mode with
  | 0 => some (payload.take 65536, 0)
  | 1 =>
    let groups := 65536 / elemBytes fmt / 32
    (llDecode fmt (groups + 1) groups payload).map fun xs => (xs.flatMap fun x => natLe (elemBytes fmt) x, 0)
  | _ =>
    let xs := boundedDecode fmt payload
    some (xs.flatMap fun x => natLe (elemBytes fmt) x.w, xs.foldl (fun a x => a ||| x.fl) 0)

/-- R236: the record at `a` checked: the failing check, or the bytes of the record that count and the flags met. -/
def recordCheck (m : Mem) (w a : Nat) : Nat ⊕ (List Byte × Nat) :=
  let mode := m.nat (a + 4) 4 % 16
  let fmt := m.nat (a + 4) 4 / 16 % 16
  let payload := m.bytes (a + 64) (m.nat (a + 12) 4 % 2 ^ 17)
  if crc32 (m.bytes a 60) ≠ m.nat (a + 60) 4 then .inl 1
  else if m.nat a 4 ≠ 0x4E584352 ∨ 2 < mode ∨ fmt ≠ Ds.fmtOut w then .inl 2
  else if m.nat (a + 16) 4 % 2 ^ 24 ≠ Ds.tensor w then .inl 3
  else if crc32 payload ≠ m.nat (a + 24) 4 then .inl 4
  else
    match recordDecode mode fmt payload with
    | none => .inl 5
    | some x => if crc32 x.1 ≠ m.nat (a + 28) 4 then .inl 5 else .inr (x.1.take (m.nat (a + 8) 4 % 2 ^ 17), x.2)

/-- A byte stream written into the destination rows of a descriptor, from stream position `pos`, as far as the rows reach. -/
def Dev.putRows (d : Dev) (w pos : Nat) (bs : List Byte) : Dev :=
  let len := Ds.rowLen w * 64
  (List.range (Ds.rows w)).foldl (fun d r =>
    let lo := max pos (r * len)
    let hi := min (pos + bs.length) ((r + 1) * len)
    if lo < hi then d.poke (d.dstRow w r + (lo - r * len)) ((bs.drop (lo - pos)).take (hi - lo)) else d) d

/-- What DECOMPRESS has done so far: the stream bytes of the records that passed, and the fault that ended it. -/
structure Unpacking where
  d : Dev
  out : List Byte := []
  fault : Option (Nat × Nat) := none

/-- R236: the offset of record `i` of a DECOMPRESS descriptor, in 64-byte units. -/
def Dev.recordOff (d : Dev) (m : Mem) (w i : Nat) : Nat := m.nat (d.srcAt w (Ds.scaleAddr w) + 4 * i) 4

/-- One record of a DECOMPRESS descriptor. A record that reaches beyond its store or partition is no access at all (R221). -/
def Unpacking.step (m : Mem) (r w : Nat) (u : Unpacking) (i : Nat) : Unpacking :=
  if u.fault.isSome then u
  else
    let off := u.d.recordOff m w i
    let inside := match u.d.space (Ds.srcSpace w) (Ds.srcInst w) with
      | some s => decide (64 * (Ds.srcAddr w + off) + 64 ≤ s.2 ∧
          64 * (Ds.srcAddr w + off) + 64 + m.nat (u.d.srcAt w (Ds.srcAddr w + off) + 12) 4 % 2 ^ 17 ≤ s.2)
      | none => false
    if ! inside then { u with fault := some (5, Cc.unsupported) }
    else
      match recordCheck m w (u.d.srcAt w (Ds.srcAddr w + off)) with
      | .inl c =>
        let d := u.d.bump Reg.COMPRESS_RECORD_FAIL r
        { u with d := d.raise (pgCompress r) 0x0509 12 Sev.error (c + 256 * sat 24 i), fault := some (9, Cc.uerr) }
      | .inr x => { u with d := u.d.formatEvents (pgCompress r) x.2 (Ds.fmtOut w) 2 1, out := u.out ++ x.1 }

/-- DECOMPRESS. `bad` names the record, and its line, in which a word is uncorrectable. -/
def decompressDesc (m : Mem) (rm : Bool) (inst : Nat) (bad : Option (Nat × Nat)) (d : Dev) (w : Nat) : DescRes :=
  let r := if rm then inst else regionOf inst
  let n := match bad with | some b => min b.1 (Ds.blocks w) | none => Ds.blocks w
  let u := (List.range n).foldl (Unpacking.step m r w) { d := d }
  let whole := u.fault.isNone && n == Ds.blocks w
  let out := if whole then u.out else wholeWrites (Ds.dstSpace w) u.out
  let d := u.d.putRows w 0 out
  let lines := (min out.length (Ds.rows w * Ds.rowLen w * 64) + 63) / 64
  match u.fault, bad.filter fun b => decide (b.1 < Ds.blocks w) with
  | some f, _ => ⟨d, lines, some f⟩
  | none, some b =>
    let x := d.storeFail (Ds.srcSpace w) (Ds.srcInst w) (Ds.srcAddr w + d.recordOff m w b.1 + b.2)
    ⟨x.1, lines, some (x.2, Cc.uerr)⟩
  | none, none => ⟨d, lines, none⟩

/-! ## TO_BLOCK, FROM_BLOCK (R218, R241) -/

/-- Where the scale words of row `j` (one K-chunk) of a conversion begin. -/
def scaleRow (base w j : Nat) : Nat := base + j * Ds.scaleRowBytes w

/-- The blocks of source row `j`, converted. -/
def Dev.toBlockRow (d : Dev) (m : Mem) (w j : Nat) : List BlockOut :=
  let fmt := Ds.fmtIn w
  let per := Ds.rowLen w * 64 / elemBytes fmt
  let n := Ds.blocksPerRow w
  let xs := elemsOf (elemBytes fmt) (32 * n) (m.bytes (d.srcRow w j) (Ds.rowLen w * 64) ++ List.replicate (32 * n * 4) 0)
  let key := d.srKey (Ds.tensor w)
  (pieces 32 n xs).zipIdx.map fun (b, k) =>
    let supplied := if Ds.cmode w = 1 then some (m.nat (scaleRow (d.dstAt w (Ds.scaleAddr w)) w j + 2 * k) 2) else none
    let rds := (List.range 32).map fun i =>
      if Ds.sr w then Rnd.sr (sr32 key.1 key.2 ((Ds.elemBase w + j * per + 32 * k + i) % 2 ^ 32)) else Rnd.rne
    let o := toBlock (biWidth (Ds.fmtOut w)) (fastElems fmt b) supplied (Ds.ss w) rds
    { o with fl := o.fl ||| fastFlags fmt b ||| (if Ds.sr w then Flag.srnd else 0) }

/-- An uncorrectable word that a conversion of rows meets: in line `l` of source row `j`, or, from ROW_LEN on, in its row of scale words, which
lies in the space `sp` of instance `si`. -/
def Dev.convFail (d : Dev) (w sp si j l : Nat) : Dev × Nat :=
  if l < Ds.rowLen w then d.srcFail w j l
  else d.storeFail sp si (Ds.scaleAddr w + (j * Ds.scaleRowBytes w) / 64 + (l - Ds.rowLen w))

/-- TO_BLOCK. Scale words are read with CMODE = SUPPLIED only. -/
def toBlockDesc (m : Mem) (rm : Bool) (inst : Nat) (bad : Option (Nat × Nat)) (d : Dev) (w : Nat) : DescRes :=
  let r := if rm then inst else regionOf inst
  let reads := Ds.rowLen w + (if Ds.cmode w = 1 then Ds.scaleRowBytes w / 64 else 0)
  let bad := bad.filter fun b => decide (b.1 < Ds.rows w ∧ b.2 < reads)
  let n := match bad with | some b => b.1 | none => Ds.rows w
  let d := (List.range n).foldl (fun d j =>
    let bs := d.toBlockRow m w j
    let d := d.poke (d.dstRow w j) (padTo 64 (bs.flatMap fun b => packCodes (biWidth (Ds.fmtOut w)) b.codes))
    let d := d.poke (scaleRow (d.dstAt w (Ds.scaleAddr w)) w j) (padTo 64 (bs.flatMap fun b => natLe 2 b.scale))
    d.blockReports r (Ds.stat w) (Ds.fmtOut w) bs) d
  let lines := n * (Ds.dstRowBytes w + Ds.scaleRowBytes w) / 64
  match bad with
  | some b => let x := d.convFail w (Ds.dstSpace w) (Ds.dstInst w) b.1 b.2; ⟨x.1, lines, some (x.2, Cc.uerr)⟩
  | none => ⟨d, lines, none⟩

/-- FROM_BLOCK. -/
def fromBlockDesc (m : Mem) (rm : Bool) (inst : Nat) (bad : Option (Nat × Nat)) (d : Dev) (w : Nat) : DescRes :=
  let r := if rm then inst else regionOf inst
  let bad := bad.filter fun b => decide (b.1 < Ds.rows w ∧ b.2 < Ds.rowLen w + Ds.scaleRowBytes w / 64)
  let n := match bad with | some b => b.1 | none => Ds.rows w
  let bw := biWidth (Ds.fmtIn w)
  let fmt := Ds.fmtOut w
  let d := (List.range n).foldl (fun d j =>
    let codes := pieces (4 * bw) (Ds.blocksPerRow w) (m.bytes (d.srcRow w j) (Ds.rowLen w * 64))
    let xs := codes.zipIdx.flatMap fun (c, k) =>
      let sc := m.nat (scaleRow (d.srcAt w (Ds.scaleAddr w)) w j + 2 * k) 2
      (List.range 32).map fun i => blockElem fmt bw sc (i % 32) (codeAt bw c i)
    let d := d.poke (d.dstRow w j) (xs.flatMap fun x => natLe (elemBytes fmt) x.w)
    d.formatEvents (pgCompress r) (xs.foldl (fun a x => a ||| x.fl) 0) fmt (Ds.fmtIn w) 1) d
  let lines := n * Ds.dstRowBytes w / 64
  match bad with
  | some b => let x := d.convFail w (Ds.srcSpace w) (Ds.srcInst w) b.1 b.2; ⟨x.1, lines, some (x.2, Cc.uerr)⟩
  | none => ⟨d, lines, none⟩

/-- R242: CNT_CLR. -/
def Dev.compressCntClr (d : Dev) (r : Nat) : Dev :=
  d.clearFields r [Reg.COMPRESS_RECORDS, Reg.COMPRESS_FALLBACK, Reg.COMPRESS_STORED, Reg.COMPRESS_RECORD_FAIL,
    Reg.COMPRESS_CSTAT_SAT, Reg.COMPRESS_CSTAT_CRUSH, Reg.COMPRESS_CSTAT_ALL_ZERO, Reg.COMPRESS_CSTAT_ALL_SAT]

def execDescCompress (rm : Bool) (inst : BitVec 12) (e : ReadEcc) (row : BitVec 16) (s : State) :
    Host.Outcome State Fault Refusal :=
  runMem s (fun m d => d.descRun rm inst.toNat 3 (fun d w =>
    compressDesc m rm inst.toNat (badAt e.ecc row.toNat e.line.toNat) (d.srcCorrected e.ecc w row.toNat e.line.toNat) w))

def execDescDecompress (rm : Bool) (inst : BitVec 12) (e : ReadEcc) (row : BitVec 16) (s : State) :
    Host.Outcome State Fault Refusal :=
  runMem s (fun m d => d.descRun rm inst.toNat 4 (fun d w =>
    decompressDesc m rm inst.toNat (badAt e.ecc row.toNat e.line.toNat) (d.srcCorrected e.ecc w row.toNat e.line.toNat) w))

def execDescToBlock (rm : Bool) (inst : BitVec 12) (e : ReadEcc) (row : BitVec 16) (s : State) :
    Host.Outcome State Fault Refusal :=
  runMem s (fun m d => d.descRun rm inst.toNat 5 (fun d w =>
    toBlockDesc m rm inst.toNat (badAt e.ecc row.toNat e.line.toNat) (d.srcCorrected e.ecc w row.toNat e.line.toNat) w))

def execDescFromBlock (rm : Bool) (inst : BitVec 12) (e : ReadEcc) (row : BitVec 16) (s : State) :
    Host.Outcome State Fault Refusal :=
  runMem s (fun m d => d.descRun rm inst.toNat 6 (fun d w =>
    fromBlockDesc m rm inst.toNat (badAt e.ecc row.toNat e.line.toNat) (d.srcCorrected e.ecc w row.toNat e.line.toNat) w))

def execCompressCntClr (r : Requester) (inst : BitVec 12) (s : State) : Host.Outcome State Fault Refusal :=
  runDev s (fun d => d.action r (pgCompress inst.toNat) 0x100 false (fun d => (Cc.done, d.compressCntClr inst.toNat)))

end Sys2Proof.Machine
end

