-- ==== Sys2Proof/Machine/Cloth.lean ====
section
/-! DEFINITION. The tile-check stage, mismatches and recomputes, pops (R133 to R145, R169 to R179). -/

namespace Sys2Proof.Machine

/-! ## The row tolerance (R177) -/

/-- A number that is not negative, rounded up to 24 significant bits and never flushed. -/
def up (x : Dy) : Dy :=
  if x.m ≤ 0 then x
  else
    let n := Nat.log2 x.m.natAbs + 1
    if n ≤ 24 then x
    else
      let sh := n - 24
      ⟨((x.m.natAbs + 2 ^ sh - 1) / 2 ^ sh : Nat), x.e + sh⟩

/-- The unit roundoff. -/
def unitU : Dy := ⟨1, -24⟩

/-- R177: the bound above γ(n). -/
def gam (n : Nat) : Dy :=
  let nu := up (Dy.mul ⟨n, 0⟩ unitU)
  up (nu.mul (up (Dy.add ⟨1, 0⟩ (up (Dy.mul ⟨2 * n, 0⟩ unitU)))))

/-- R177: β of a tile. -/
def CqEntry.beta (t : CqEntry) : Dy :=
  let alpha : Dy := if t.fmtA = 0 ∨ t.fmtB = 0 then ⟨1, -23⟩ else unitU
  match t.mode with
  | 1 => gam t.chain
  | 2 => up (Dy.add ⟨14, -24⟩ (gam t.chain))
  | 3 => up (Dy.add ⟨14, -24⟩ (gam 1))
  | _ => if t.sr then up (alpha.add (up ((gam t.chain).scale 1))) else up (alpha.add (gam t.chain))

/-- R177: the tolerance of a row with the given MAG. -/
def CqEntry.tolerance (t : CqEntry) (mag : Dy) : Dy :=
  let am0 := (up (Dy.mul ⟨66 * 32 * t.chain, 0⟩ unitU)).scale t.eab
  let am := if 2 ≤ t.mode ∧ ! am0.isZero ∧ -126 ≤ am0.top then am0 else Dy.zero
  let coef := up (Dy.mul ⟨17, -4⟩ (up ((up (t.beta.scale 1)).add (gam 41))))
  up (Dy.add (up (Dy.add (up (coef.mul mag)) am)) ⟨1, -110⟩)

/-! ## The three checks (R135, R137, R138, R176) -/

def CqEntry.word (t : CqEntry) (k : Nat) : Nat := (SMap.at t.words k 0).toNat

/-- R176: the column sum of the check stage. -/
def CqEntry.colSum (t : CqEntry) (h : Nat) : Nat :=
  let v := fun m => if h < 32 then t.word (32 * m + h) else t.word (1024 + m)
  (List.range 31).foldl (fun s m => (FFmt.f32.addFast .rne false (FFmt.f32.decode s) (FFmt.f32.decode (v (m + 1)))).w) (v 0)

/-- R176: the row sum, a tree of width 32. -/
def CqEntry.rowSum (t : CqEntry) (m : Nat) : Nat :=
  (laneTree (fun a b => FFmt.f32.addFast .rne false (FFmt.f32.decode a.w) (FFmt.f32.decode b.w))
    (fun n => ⟨t.word (32 * m + n), 0⟩) 5 0).w

/-- R135 check 3, R137: whether a row passes or is exempt; a tolerance beyond the largest FP32 number is +∞ (R177). -/
def CqEntry.rowOk (t : CqEntry) (m : Nat) : Bool :=
  let fin := fun w => match FFmt.f32.decode w with | .num _ v _ => some v | _ => none
  if (List.range 32).any fun n => (fin (t.word (32 * m + n))).isNone then true
  else
    match fin (t.word (1024 + m)), fin (t.word (1056 + m)), fin (t.rowSum m) with
    | some rc, some mag, some rs =>
      let tol := t.tolerance mag
      decide (128 ≤ tol.top) || (up (rs.sub rc).abs).le tol
    | _, _, _ => true

/-- R135: the first failing check as (check, row, column), none when all pass. -/
def CqEntry.check (t : CqEntry) : Option (Nat × Nat × Nat) :=
  if t.eccBad then some (0, 0, 0)
  else
    match (List.range 33).find? fun h => t.colSum h != t.word (1152 + h) with
    | some h => some (3, 0, h)
    | none =>
      match (if 2 ≤ t.fmtA ∧ 2 ≤ t.fmtB then (List.range t.rows).find? fun m => t.word (1088 + m) != t.word (1120 + m) else none) with
      | some m => some (1, m, 0)
      | none =>
        match (List.range t.rows).find? fun m => ! t.rowOk m with
        | some m => some (2, m, 0)
        | none => none

/-! ## Taking a tile (R171) -/

/-- The oldest WHOLE tile (R170). -/
def UnitSt.oldestWhole (x : UnitSt) : Option Nat :=
  (x.inState 2).foldl (fun b e => match b with
    | none => some e
    | some c => if (x.entry e).seq < (x.entry c).seq then some e else b) none

/-- R171: the pop in progress takes the oldest WHOLE tile into CHECKING, or waits a cycle. -/
def Dev.tileCheckStart (u : Nat) (d : Dev) : Dev :=
  let x := d.unit u
  if x.pops = 0 ∨ x.inState 3 ≠ [] then d
  else
    match x.oldestWhole with
    | some e => (d.setUnit u { x.setEntry e { x.entry e with st := 3, verified := false } with popWaited := 0 }).vectorView u
    | none => (d.setUnit u { x with popWaited := x.popWaited + 1 }).count Reg.VECTOR_POP_WAIT u

/-- R148: the DETAIL word of a mismatch. -/
def mismatchDetail (t : CqEntry) (f : Nat × Nat × Nat) : Nat :=
  t.arr + 2 * f.1 + 8 * f.2.1 + 256 * f.2.2 + 2 ^ 14 * t.tile

/-- R142: after a second mismatch: the unit of a one-row gang is due for retirement, the units of a taller gang's column are
suspect. -/
def Dev.secondMismatchRetire (d : Dev) (u : Nat) (t : CqEntry) : Dev :=
  let c := clusterOf u
  match d.gangOf t.leader t.lArr with
  | some g =>
    if g.gr = 1 then d.retireDue 1 u
    else
      let units := (List.range g.gr).map fun i => unitNo (d.atPos c (g.row + i) (g.col + t.gcol)).1
      let d := (d.setCluster c { d.cluster c with suspects := (d.cluster c).suspects ++ [(u, units, false)] }).suspectView c
      d.raise (pgGang c) 0x0213 8 Sev.warn (d.rd Reg.GANG_SUSPECT c)
  | none => d.retireDue 1 u

/-- R141: a second mismatch. -/
def Dev.secondMismatch (d : Dev) (u : Nat) (t : CqEntry) (detail : Nat) : Dev :=
  let dt := detail + (if t.recomp then 2 ^ 17 else 0)
  let d := (d.wr Reg.MATRIX_LAST_MM u dt).raise (pgMatrix u) 0x0212 13 Sev.error dt
  let c := clusterOf u
  let cl := d.cluster c
  let d := d.setCluster c { cl with mmQueue := cl.mmQueue.filter (· != u) }
  let d := d.setUnit u { (d.unit u).setAcc t.arr 2 {} with mmWait := false, recomputing := false, held := false }
  let d := (d.stopUnit u 1).spoil
  (d.secondMismatchRetire u t).matrixView u

/-- R139, R141: a failing check. -/
def Dev.mismatch (d : Dev) (u : Nat) (t : CqEntry) (f : Nat × Nat × Nat) : Dev :=
  let detail := mismatchDetail t f
  let beat := d.beatNum
  let again := match (d.unit u).lastMm with
    | some b => decide (beat < b + d.rd Reg.MATRIX_RETIRE_WINDOW u)
    | none => false
  let d := (d.bump Reg.MATRIX_MISMATCH_TOTAL u).wr Reg.MATRIX_LAST_MM_BEAT u beat
  let d := d.setUnit u { d.unit u with lastMm := some beat }
  if t.recomp || again then d.secondMismatch u t detail
  else
    let d := (d.wr Reg.MATRIX_LAST_MM u detail).raise (pgMatrix u) 0x0210 11 Sev.warn detail
    let d := d.setUnit u { d.unit u with held := true, mmWait := true, heldCycles := 0 }
    let c := clusterOf u
    d.setCluster c { d.cluster c with mmQueue := (d.cluster c).mmQueue ++ [u] }

/-- R139 step 5: a recomputed tile has passed its check. -/
def Dev.tileRecovered (d : Dev) (u : Nat) : Dev :=
  let x := d.unit u
  if x.held then
    (d.setUnit u { x with held := false, mmWait := false }).raise (pgMatrix u) 0x0211 12 Sev.info (sat 24 x.heldCycles)
  else d

/-- R171, R176 to R179: the check of the CHECKING tile ends. `upset` gives the words of the entry that the hardware has
corrupted, with the bits inverted; `storeErr` an uncorrectable error of the entry (R138). -/
def Dev.tileCheckDone (u : Nat) (upset : List (BitVec 11 × BitVec 32)) (storeErr : Bool) (d : Dev) : Dev :=
  let x := d.unit u
  match (x.inState 3).find? (fun e => ! (x.entry e).verified) with
  | none => d
  | some e =>
    if x.mmWait then d
    else
      let t0 := x.entry e
      let t := { t0 with words := upset.foldl (fun w p => SMap.putD w p.1.toNat (SMap.at w p.1.toNat 0 ^^^ p.2) 0) t0.words
                         eccBad := t0.eccBad || storeErr }
      let d := (d.setUnit u (x.setEntry e t)).count Reg.VECTOR_CHECK_BUSY u 40
      match t.check with
      | some f => (d.mismatch u t f).vectorView u
      | none =>
        let d := d.setUnit u ((d.unit u).setEntry e { t with verified := true })
        let d := if t.recomp then d.tileRecovered u else d
        d.promote u

/-! ## Recompute (R139, R144) -/

/-- The mismatches of the gang that array `arr` of `l` leads, oldest first (R144). -/
def Dev.gangQueue (d : Dev) (c l arr : Nat) : List Nat := (d.cluster c).mmQueue.filter fun w => (d.unit w).checkingGang == some (l, arr)

/-- R114, R139, R190, R350: what set X holds after a recompute: the rows of a tile, by their numbers in the segment, computed again through
every pass. -/
def Dev.recomputeSet (d : Dev) (m : Mem) (t : CqEntry) (g : Gang) : AccSet :=
  let rows := (List.range t.rows).map (· + 32 * t.tile)
  let s := (List.range (t.jLast + 1)).foldl (fun s j =>
    let x := d.passCtx (clusterOf t.leader) g t.desc j (t.closed && j == t.jLast) t.gcol t.srTensor t.srIndex
    d.passRows m x (j == 0 || t.mode == 3) rows s) ({} : AccSet)
  { s with rows := Sd.rows t.desc, seg := t.seg, desc := t.desc, jLast := t.jLast, leader := t.leader, lArr := t.lArr, set := 2,
           gcol := t.gcol, srTensor := t.srTensor, srIndex := t.srIndex, closed := t.closed }

/-- R139 steps 2 and 3: the gang leader reruns the failing tile's rows into set X, one recompute per gang at a time. -/
def Dev.recomputeStart (m : Mem) (u : Nat) (d : Dev) : Dev :=
  let x := d.unit u
  match x.inState 3 with
  | e :: _ =>
    let t := x.entry e
    if ! x.mmWait || x.recomputing || (d.gangQueue (clusterOf u) t.leader t.lArr).head? != some u then d
    else
      match d.gangOf t.leader t.lArr with
      | some g => (d.setUnit u { x.setAcc t.arr 2 (d.recomputeSet m t g) with recomputing := true }).matrixView u
      | none => d
  | [] => d

/-- R139 step 4, R178: the recomputed tile replaces the failing one in its entry and a fresh check starts. `held` is how many
cycles issue has been held. -/
def Dev.recomputeDone (u : Nat) (held : BitVec 32) (d : Dev) : Dev :=
  let x := d.unit u
  match x.recomputing, x.inState 3 with
  | true, e :: _ =>
    let t := x.entry e
    let t' := { (x.acc t.arr 2).tile t.tile t.arr t.seq true with st := 3 }
    let c := clusterOf u
    let d := d.setUnit u { (x.setEntry e t').setAcc t.arr 2 {} with recomputing := false, mmWait := false, heldCycles := held.toNat }
    let d := d.setCluster c { d.cluster c with mmQueue := (d.cluster c).mmQueue.filter (· != u) }
    (d.count Reg.MATRIX_RECOMP_CYCLES u held.toNat).matrixView u
  | _, _ => d

/-- R174: a pop has waited POP_LIMIT cycles. -/
def Dev.popTimeout (u : Nat) (d : Dev) : Dev :=
  let x := d.unit u
  if x.pops = 0 ∨ x.inState 3 ≠ [] ∨ x.inState 2 ≠ [] then d
  else
    let lim := d.rd Reg.VECTOR_POP_LIMIT u
    let d := d.count Reg.VECTOR_POP_WAIT u (lim - x.popWaited)
    let d := d.passTo (d.now + d.cyclesTime (regionOf u) (lim - x.popWaited))
    let d := d.setUnit u { d.unit u with popWaited := lim }
    let d := d.raise (pgVector u) 0x0303 13 Sev.error (lim + 2 ^ 24 * x.pops)
    (d.stopUnit u 3).spoil

/-- R175: a forced quiesce of a VECTOR block: waiting pops are abandoned and a CHECKING tile returns to WHOLE. -/
def Dev.vectorForce (d : Dev) (u : Nat) : Dev :=
  let x := d.unit u
  let x := (x.inState 3).foldl (fun x e => x.setEntry e { x.entry e with st := 2, verified := false }) x
  (d.setUnit u { x with pops := 0, popWaited := 0 }).vectorView u

/-- R145: a recompute in progress is abandoned, which counts as a mismatch under R141: as the failure of the recomputed tile, so that 0x0212
has DETAIL bit 17 (DESIGN CHOICE, assumption 118). -/
def Dev.recomputeCut (d : Dev) (u : Nat) : Dev :=
  let x := d.unit u
  match x.recomputing, x.inState 3 with
  | true, e :: _ =>
    let detail := d.rd Reg.MATRIX_LAST_MM u
    let d := (d.bump Reg.MATRIX_MISMATCH_TOTAL u).wr Reg.MATRIX_LAST_MM_BEAT u d.beatNum
    (d.setUnit u { x with lastMm := some d.beatNum }).secondMismatch u { x.entry e with recomp := true } (detail % 2 ^ 17)
  | _, _ => d

/-- R145: a MATRIX block is forced: every recompute abandons that a gang with an array of the block takes part in. -/
def Dev.recomputeForce (d : Dev) (u : Nat) : Dev :=
  let ls := (d.gangsOf u).map (d.leaderOf (clusterOf u))
  (unitsOf (clusterOf u)).foldl (fun d w =>
    match (d.unit w).checkingGang with
    | some l => if ls.contains l then d.recomputeCut w else d
    | none => d) d

/-- R123, R144: a recompute is in progress for a gang. -/
def Dev.recomputeIn (d : Dev) (c : Nat) (g : Gang) : Bool :=
  (unitsOf c).any fun w => (d.unit w).recomputing && (d.unit w).checkingGang == some (d.leaderOf c g)

/-- R175: a reset of the VECTOR block, beside its registers. -/
def Dev.vectorReset (d : Dev) (u : Nat) : Dev :=
  let c := clusterOf u
  let d := d.setCluster c { d.cluster c with mmQueue := (d.cluster c).mmQueue.filter (· != u) }
  let x := d.unit u
  d.setUnit u { x with cq := [], vregs := [], mregs := [], ready := [], vFree := 0, pops := 0, popWaited := 0, mmWait := false, recomputing := false,
                       held := x.held && ! x.mmWait }

/-- R181: the counters that VECTOR.CNT_CLR and CSTAT_CLR clear. -/
def vectorCounters : List Field :=
  [Reg.VECTOR_BUSY, Reg.VECTOR_POP_WAIT, Reg.VECTOR_CQ_READ_STALL, Reg.VECTOR_CHECK_BUSY, Reg.VECTOR_TILES_CHECKED,
   Reg.VECTOR_FLAG_CNT]
def vectorStats : List Field :=
  [Reg.VECTOR_CSTAT_SAT, Reg.VECTOR_CSTAT_CRUSH, Reg.VECTOR_CSTAT_ALL_ZERO, Reg.VECTOR_CSTAT_ALL_SAT]

def execTileCheckStart (u : BitVec 12) (s : State) : Host.Outcome State Fault Refusal :=
  runDev s (Dev.tileCheckStart u.toNat)

def execTileCheckDone (u : BitVec 12) (upset : List (BitVec 11 × BitVec 32)) (storeErr : Bool) (s : State) :
    Host.Outcome State Fault Refusal :=
  runDev s (Dev.tileCheckDone u.toNat upset storeErr)

def execRecomputeStart (u : BitVec 12) (s : State) : Host.Outcome State Fault Refusal :=
  runDev s (Dev.recomputeStart s.mem u.toNat)

def execRecomputeDone (u : BitVec 12) (held : BitVec 32) (s : State) : Host.Outcome State Fault Refusal :=
  runDev s (Dev.recomputeDone u.toNat held)

def execPopTimeout (u : BitVec 12) (s : State) : Host.Outcome State Fault Refusal :=
  runDev s (Dev.popTimeout u.toNat)

def execVectorCntClr (r : Requester) (u : BitVec 12) (s : State) : Host.Outcome State Fault Refusal :=
  runDev s (fun d => d.action r (pgVector u.toNat) 0x140 false (fun d => (Cc.done, d.clearFields u.toNat vectorCounters)))

def execVectorCstatClr (r : Requester) (u : BitVec 12) (s : State) : Host.Outcome State Fault Refusal :=
  runDev s (fun d => d.action r (pgVector u.toNat) 0x140 false (fun d => (Cc.done, d.clearFields u.toNat vectorStats)))

end Sys2Proof.Machine
end

