-- ==== Sys2Proof/Machine/Draft.lean ====
section
/-! DEFINITION. Drafts, policy tables and kernel images as byte sequences, and the checks of draft load (R209 to R211, R294
to R302, R328 to R331, R360 to R363). -/

namespace Sys2Proof.Machine

/-- R300, R301: the symbols that relocation binds for one instance. -/
structure Binding where
  draft : List Byte
  kernel : Nat
  inst : Nat
  lsBase : Nat
  startBeat : Nat
  beatStep : Nat
  standby : Option Nat

/-- R300, R301: the value of a symbol, none when nothing binds it. -/
def Binding.value (x : Binding) (s : Nat) : Option Int :=
  let b := x.draft
  if s = 0xFFFFFF00 then some x.lsBase
  else if s = 0xFFFFFF01 then some x.startBeat
  else if s = 0xFFFFFF02 then some x.inst
  else if s = 0xFFFFFF03 then some x.beatStep
  else if 0xFFFFFF00 ≤ s then some 0
  else
    let find := fun k => (List.range (Dr.nBindings b)).find? fun i => Dr.bind' b i 0 4 == s && Dr.bind' b i 4 2 == k
    ((find x.kernel).or (find 0xFFFF)).map fun i =>
      if Dr.bind' b i 6 1 = 0 then sInt 32 (Dr.bind' b i 8 4)
      else sInt 32 (wrapI 32 (sInt 32 (Dr.bind' b i 8 4) + x.inst * sInt 32 (Dr.bind' b i 12 4)))

/-- R210: the number a relocation writes in its field, none when it does not fit. -/
def relocValue (x : Binding) (kind width : Nat) (v : Int) : Option Nat :=
  let fits : Int → Option Nat := fun v => if -(2 ^ (width - 1) : Int) ≤ v ∧ v < 2 ^ width then some (wrapI width v) else none
  match kind with
  | 0 => fits v
  | 1 => if 1 ≤ v ∧ v ≤ 1048576 then fits (v - 1) else none
  | 2 => if 0 ≤ v ∧ v < lsSize ∧ v % 64 = 0 then fits (v / 64) else none
  | 3 => if 0 ≤ v then fits v else none
  | 4 => if 0 ≤ v ∧ v < 2 ^ 24 then fits v else none
  | 5 =>
    if v < 0 then none
    else
      match x.standby with
      | some n => fits (if bit v.toNat n then setBit (clrBit v.toNat n) 16 else v.toNat : Nat)
      | none => fits v
  | _ => none

/-- One relocation applied to the slots; none when it fails. -/
def relocOne (x : Binding) (m : List Byte) (ss : List Nat) (i : Nat) : Option (List Nat) :=
  let t := Im.reloc m i 0 2
  let lo := Im.reloc m i 2 1
  let w := Im.reloc m i 3 1 % 32 + 1
  let kind := Im.reloc m i 3 1 / 32
  let s := Im.reloc m i 4 2
  if ss.length ≤ t ∨ 256 < lo + w ∨ Im.nSyms m ≤ s then none
  else
    match x.value (Im.sym m s) with
    | none => none
    | some v =>
      (relocValue x kind w (v + sInt 32 (Im.reloc m i 8 4))).map fun n =>
        let old := ss.getD t 0
        ss.set t (old - bits old lo w * 2 ^ lo + n * 2 ^ lo)

/-- R210: the relocated slots, and whether every relocation could be written. -/
def relocate (x : Binding) (m : List Byte) : List Nat × Bool :=
  (List.range (Im.nRelocs m)).foldl (fun a i => match relocOne x m a.1 i with | some s => (s, a.2) | none => (a.1, false))
    (Im.slots m, true)

/-! ## The static walk: scalars, addresses, passes and cycles (R125, R126, R140, R171, R180, R186, R190, R199, R211, R297, R310) -/

/-- R140: the operands of a segment that a kernel has run passes of: their ranges, how many tiles are still to be popped, the cycle by which the popped
ones are verified, and whether its last pass has been issued. -/
structure OpSeg where
  no : Nat
  ranges : List (Nat × Nat)
  left : Nat := 0
  by' : Nat := 0
  closed : Bool := false

/-- Where the walk of an image stands, and what it has found. -/
structure Walk where
  pc : Nat
  regs : SMap Nat := []
  loops : List LoopSt := []
  passes : SMap (Nat × Nat) := []
  outside : Bool := false
  longChain : Bool := false
  /-- R199: the next cycle, pending registers, the V slot. -/
  c : Nat := 0
  ready : SMap Nat := []
  vFree : Nat := 0
  /-- R126: by array, the latest front and its streaming cycles, and the fronts of the passes issued; by set, when it is FREE. -/
  fronts : SMap (Nat × Nat) := []
  entered : SMap (List Nat) := []
  frees : SMap Nat := []
  /-- R171: tiles in the order in which they come whole, as (cycle, segment); pops whose tile is not CURRENT yet, as (cycle, whole, segment); the
  latest READY, CURRENT and release; whether a tile is CURRENT. -/
  wholes : List (Nat × Nat) := []
  pops : List (Nat × Nat × Nat) := []
  lastReady : Nat := 0
  lastCur : Nat := 0
  lastRel : Nat := 0
  cur : Bool := false
  /-- R196: by tag, when its kicks have completed. -/
  kicks : SMap Nat := []
  segNo : Nat := 0
  opSegs : List OpSeg := []
  overwrite : Bool := false
  /-- R180: the counts of the beat segment in progress, where it began, and the cycles of the segments that have ended. -/
  mat : SMap Nat := []
  vec : Nat := 0
  chk : Nat := 0
  start : Nat := 0
  counts : List Nat := []
  /-- R297: where the segments after the first begin. -/
  starts : List Nat := []
  done : Bool := false

/-- What the walk of one image is about: its bundles and segments, its area, its gang, whether its stage is SLICEABLE, and the worst-case cycles of the
block kicked at an address. -/
structure WalkEnv where
  bundles : List Nat
  segs : List Nat
  lo : Nat
  hi : Nat
  gr : Nat
  gc : Nat
  sliceable : Bool
  kick : Nat → Nat

/-- Whether `n` bytes at `a` lie outside the instance's area. -/
def WalkEnv.out (x : WalkEnv) (a n : Nat) : Bool := decide (a < x.lo ∨ x.hi < a + n)

/-- R190: the byte ranges, as (address, bytes), that pass `j` of a segment reads in a unit. -/
def segRanges (gc w j : Nat) : List (Nat × Nat) :=
  let blk := fun f => decide (0 < biWidth f)
  let code := 64 * Sd.sbase w + 64 * j * Sd.sstride w
  let scale := 64 * Sd.sscale w + 64 * j
  let n := 32 * rowBytes (Sd.fmtB w)
  [(64 * Sd.mbase w + 64 * j * Sd.mstride w, Sd.rows w * rowBytes (Sd.fmtA w)), (code, n)] ++
    (if 1 < gc then [(code + 64 * Sd.s1code w, n)] else []) ++
    (if blk (Sd.fmtA w) then [(64 * Sd.mscale w + j * 64 * ((2 * Sd.rows w + 63) / 64), 2 * Sd.rows w)] else []) ++
    (if blk (Sd.fmtB w) then (scale, 64) :: (if 1 < gc then [(scale + 64 * Sd.s1scale w, 64)] else []) else []) ++
    (if Sd.load w then [(64 * Sd.lbase w, 128 * Sd.rows w)] else [])

/-- Tiles that a segment's set gives in the leader's own unit: one per 32 rows for each of its arrays in the gang's bottom row. -/
def WalkEnv.ownTiles (e : WalkEnv) (sd : Nat) : Nat := if e.gr = 1 then (Sd.rows sd + 31) / 32 * min e.gc 2 else 0

/-- R116, R131: the cycles at which the tiles of a set whose last pass entered at `f` come whole. -/
def WalkEnv.tileTimes (e : WalkEnv) (sd f : Nat) : List Nat :=
  let last := f + streamCycles sd + fillCycles sd e.gr e.gc - 2
  (List.range ((Sd.rows sd + 31) / 32)).flatMap fun t => (List.range (min e.gc 2)).map fun _ => last + 33 * (t + 1)

/-- R188, R199: the M slot of a bundle at cycle `x.c`: the cycle from which it can issue. -/
def Walk.mHold (w : Nat) (x : Walk) : Nat :=
  let arr := bits w 8 1
  let waiting := (SMap.at x.entered arr []).filter (x.c < ·)
  match bits w 0 8 with
  | 1 => if 2 ≤ waiting.length then waiting.getD (waiting.length - 2) x.c else x.c
  | 2 => (waiting ++ [SMap.at x.frees (4 * arr) 0, SMap.at x.frees (4 * arr + 1) 0]).foldl max x.c
  | _ => x.c

/-- The M slot of a bundle in the walk: a pass counts in its segment; CHAIN is n_p, or K in STRICT (R211). -/
def Walk.mslot (e : WalkEnv) (w : Nat) (x : Walk) : Walk :=
  let arr := bits w 8 1
  if bits w 0 8 = 2 then { x with fronts := SMap.del x.fronts arr }
  else if bits w 0 8 ≠ 1 then x
  else
    let key := 4 * arr + bits w 9 1
    let seg := bits w 12 16
    let sd := e.segs.getD seg 0
    let opens := bit w 10
    let closes := bit w 11 || Sd.mode sd == 3
    let j := if opens then 0 else (SMap.at x.passes key (seg, 0)).2
    let chain := (j + 1) * (if Sd.mode sd = 1 then Sd.kActive sd else 1) + ofB (Sd.load sd)
    let f := (frontAt (if opens then max x.c (SMap.at x.frees key 0) else x.c) (loadCycles sd) (fillCycles sd e.gr e.gc - 1) (SMap.find x.fronts arr)).1
    let no := if opens then x.segNo + 1 else x.segNo
    let ranges := segRanges e.gc sd j
    let own := e.ownTiles sd
    let last := f + streamCycles sd + fillCycles sd e.gr e.gc - 2 + 33 * ((Sd.rows sd + 31) / 32)
    let os := if opens then x.opSegs ++ [{ no := no, ranges := ranges : OpSeg }]
      else x.opSegs.map fun o => if o.no = no then { o with ranges := o.ranges ++ ranges } else o
    { x with
      passes := SMap.put x.passes key (seg, j + 1), outside := x.outside || ranges.any fun r => e.out r.1 r.2
      longChain := x.longChain || decide (2 ^ 23 ≤ chain), segNo := no
      fronts := SMap.put x.fronts arr (f, streamCycles sd), entered := SMap.put x.entered arr ((SMap.at x.entered arr []).drop 1 ++ [f])
      frees := if closes then SMap.put x.frees key (last + 1) else x.frees
      wholes := if closes ∧ own ≠ 0 then x.wholes ++ (e.tileTimes sd f).map (·, no) else x.wholes
      opSegs := if closes then os.map (fun o => if o.no = no then
        { o with left := o.left + own, closed := bit w 11, by' := if own = 0 then last + 40 else o.by' } else o) else os
      mat := SMap.put x.mat arr (SMap.at x.mat arr 0 + max (streamCycles sd) (loadCycles sd))
      chk := if closes then x.chk + 40 * own else x.chk }

/-- R171: when the tile of the oldest pop is verified, and when it becomes READY. -/
def Walk.popTimes (x : Walk) (p : Nat × Nat × Nat) : Nat × Nat :=
  let v := max (max (p.1 + 1) (p.2.1 + 1)) x.lastReady + 40
  (v, max v x.lastCur)

/-- R140: one tile of a segment is verified by cycle `v`. -/
def Walk.verified (x : Walk) (no v : Nat) : Walk :=
  { x with opSegs := x.opSegs.map fun o => if o.no = no then { o with left := o.left - 1, by' := max o.by' v } else o }

/-- R171: the tile of the oldest pop becomes CURRENT. -/
def Walk.settle (x : Walk) : Walk :=
  match x.cur, x.pops with
  | false, p :: ps =>
    let t := x.popTimes p
    { x with pops := ps, cur := true, lastReady := t.2, lastCur := max t.2 (x.lastRel + 1) }
  | _, _ => x

/-- R171, R173, R199: the V slot of a bundle from cycle `x.c`, when it can issue; `stall` counts the waits on the cloth queue. -/
def Walk.vslot (w : Nat) (x : Walk) : Walk :=
  let opc := bits w 0 7
  let f := vSlotOf w
  if opc = 0 then x
  else
    let x1 := if f.cqa then x.settle else x
    let c1 :=
      if f.cqa then (if x1.cur then max x1.c x1.lastCur else x1.c)
      else if opc = 0x68 then (match x1.pops with | p :: _ :: _ => max x1.c (x1.popTimes p).2 | _ => x1.c)
      else x1.c
    { x1 with c := max c1 x1.vFree, vec := x1.vec + (c1 - x1.c) }

/-- The V slot of a bundle that issues at `x.c`. -/
def Walk.vgo (w : Nat) (x : Walk) : Walk :=
  let opc := bits w 0 7
  let f := vSlotOf w
  if opc = 0 then x
  else
    let t := vTiming opc f.attr.toNat
    let x := { x with vFree := x.c + t.1, vec := x.vec + t.1,
                      ready := (vDests opc f).foldl (fun m r => SMap.put m r (x.c + t.2)) x.ready }
    if opc = 0x68 then
      match sortBy (fun a b => decide (a.1 ≤ b.1)) x.wholes with
      | [] => { x with pops := x.pops ++ [(x.c, x.c, 0)] }
      | t :: ts =>
        let x1 := { x with wholes := ts, pops := x.pops ++ [(x.c, t.1, t.2)] }
        x1.verified t.2 (x.popTimes (x.c, t.1, t.2)).1
    else if f.rel then { x with cur := false, lastRel := x.c }
    else x

/-- R140: a store of `n` bytes at `a` in cycle `x.c` overwrites an operand of a segment with a tile that is not verified. -/
def Walk.overwrites (x : Walk) (a n : Nat) : Bool :=
  x.opSegs.any fun o => (! o.closed || o.left != 0 || decide (x.c < o.by')) && o.ranges.any fun r => decide (a < r.1 + r.2 ∧ r.1 < a + n)

/-- The D slot of a bundle in the walk. -/
def Walk.dslot (e : WalkEnv) (w : Nat) (x : Walk) : Walk :=
  let opc := bits w 0 8
  let f := dSlotOf w
  let base := SMap.at x.regs f.sb.toNat 0
  let ea := (base + 64 * f.off.toNat) % lsSize / 64 * 64
  let n := if opc = 1 ∨ opc = 2 then 256 else if opc = 3 ∨ opc = 4 then 32 else 64
  { x with
    outside := x.outside || (decide (1 ≤ opc ∧ opc ≤ 5) && e.out ea n)
    overwrite := x.overwrite || ((opc == 2 || opc == 4) && x.overwrites ea n)
    regs := if opc ≠ 0 ∧ f.pinc then SMap.put x.regs f.sb.toNat (wrapI 32 ((base : Int) + 64 * f.inc.toInt)) else x.regs
    ready := (dDests opc f).foldl (fun m r => if r < 40 then SMap.put m r (x.c + dLatency opc) else m) x.ready
    kicks := if opc = 5 then SMap.put x.kicks f.tag.toNat (max (SMap.at x.kicks f.tag.toNat 0) (x.c + e.kick ea)) else x.kicks }

/-- The C slot of a bundle in the walk, reading the scalars as they were before the bundle. -/
def Walk.cslot (w : Nat) (old : SMap Nat) (x : Walk) : Walk :=
  let f := cSlotOf w
  let a := SMap.at old f.sa.toNat 0
  let b := SMap.at old f.sb.toNat 0
  let imm := f.imm.toNat
  let put := fun (v : Int) => { x with regs := SMap.put x.regs f.sd.toNat (wrapI 32 v) }
  match bits w 0 8 with
  | 0x01 => put imm
  | 0x02 => put (a + b)
  | 0x03 => put ((a : Int) - b)
  | 0x04 => put (a + imm)
  | 0x05 => put (a * 2 ^ (imm % 32))
  | 0x06 => put (a / 2 ^ (imm % 32))
  | 0x07 => put (a &&& imm)
  | 0x08 => put ((x.loops.getD (bits w 20 2) ⟨0, 0, 0, 0⟩).idx)
  | 0x10 => { x with loops := ⟨x.pc + 1, x.pc + bits w 20 11 + 1, imm % 2 ^ 20, 0⟩ :: x.loops }
  | _ => x

/-- R180, R310: a beat segment ends: its cycles are the largest of its issue, matrix, vector and check cycles. The next one begins with the array,
the V slot and the cloth queue idle (assumption 12). -/
def Walk.endSegment (x : Walk) : Walk :=
  let n := (x.mat.map (·.2)).foldl max (max (x.c - x.start) (max x.vec x.chk))
  { x with counts := x.counts ++ [n], starts := x.starts ++ [x.pc + 1], start := x.c, mat := [], vec := 0, chk := 0 }

/-- R199: the cycle in which a bundle can issue: dependency, cloth queue, V busy, matrix, movement. -/
def Walk.hold (w : Nat) (x : Walk) : Walk :=
  let v := bits w 64 64
  let d := bits w 128 64
  let regs := vSources (bits v 0 7) (vSlotOf v) ++ vDests (bits v 0 7) (vSlotOf v) ++ dSources (bits d 0 8) (dSlotOf d) ++ dDests (bits d 0 8) (dSlotOf d)
  let x := ({ x with c := regs.foldl (fun c r => max c (SMap.at x.ready r 0)) x.c }).vslot v
  let x := { x with c := x.mHold (bits w 0 64) }
  { x with c := if bits d 0 8 = 6 then max x.c (SMap.at x.kicks (dSlotOf d).tag.toNat 0) else x.c }

/-- One bundle of the walk. -/
def Walk.bundle (e : WalkEnv) (w : Nat) (x : Walk) : Walk :=
  let old := x.regs
  let x := x.hold w
  let x := (((x.vgo (bits w 64 64)).mslot e (bits w 0 64)).dslot e (bits w 128 64)).cslot (bits w 192 64) old
  let opc := bits w 192 8
  let nx := loopBack x.pc x.loops
  let x := { x with c := x.c + 1 }
  if opc = 0x1F then
    (if e.sliceable then { x.endSegment with pc := x.pc + 1, loops := [] } else { x.endSegment with done := true })
  else
    let x := if opc = 0x18 ∧ bits w 212 2 = 0 then x.endSegment else x
    { x with pc := nx.1, loops := nx.2 }

/-- The walk of a relocated image from its entry on, bundle by bundle, loops counted out, to its END or the end of the image. -/
def Walk.run (e : WalkEnv) : Nat → Walk → Walk
  | 0, x => x
  | n + 1, x =>
    if x.done then x
    else match e.bundles[x.pc]? with
      | none => x.endSegment
      | some w => Walk.run e n (x.bundle e w)

/-- More bundles than any image issues: 4 loops of 2²⁰ iterations over 2¹¹ bundles. -/
def walkLimit : Nat := 2 ^ 92

/-- The walk of an image over its relocated slots, in an area that begins at `lsBase`. -/
def walkImage (m : List Byte) (ss : List Nat) (lsBase : Nat) (sliceable : Bool) : Walk :=
  Walk.run ⟨ss.take (Im.nBundles m), ss.drop (Im.nBundles m), lsBase, lsBase + 64 * Im.lsUnits m, 2 ^ Im.gangRows m, 2 ^ Im.gangCols m, sliceable,
    Config.kickCycles ss⟩ walkLimit { pc := Im.entryIdx m }

/-! ## The image check (R211) -/

/-- R200: the loop rules of an image, bundle by bundle; `open'` holds the last bundles of the open loops, innermost first. -/
def loopsOk (n : Nat) : Nat → List Nat → List Nat → Bool
  | _, [], _ => true
  | i, w :: ws, opens =>
    let opens := opens.filter (fun l => decide (i ≤ l))
    let c := bits w 192 64
    if bits c 0 8 = 0x10 then
      let last := i + bits c 20 11 + 1
      decide (opens.length < 4 ∧ last < n) && ! opens.contains i && (match opens.head? with | some l => decide (last ≤ l) | none => true) &&
        loopsOk n (i + 1) ws (last :: opens)
    else (bits c 0 8 != 8 || decide (bits c 20 2 < opens.length)) && loopsOk n (i + 1) ws opens

/-- R211: a V slot without its attribute, and with a mask destination other than m0, for the ENCODING check. -/
def vEncodingOk (w : Nat) : Bool :=
  let opc := bits w 0 7
  let f := vSlotOf w
  vOpcode opc && vOk opc { f with attr := 0, vd := if writesMask opc && f.vd == 0 then 1 else f.vd }
def vAttributeOk (attrs w : Nat) : Bool :=
  let opc := bits w 0 7
  let a := bits w 27 2
  (attrOk opc a && (a == 0 || bit attrs (a - 1)) && (! writesMask opc || bits w 7 5 != 0))
def dEncodingOk (w : Nat) : Bool := decide (bits w 0 8 ≤ 6 ∧ bits w 55 9 = 0) && (bits w 0 8 != 2 || decide (bits w 34 3 ≤ 5))

/-- R211 from ENCODING on, over the relocated slots of an instance and their walk: the first failing code. `shapeOk` says that a cluster offers
the declared gang. -/
def imageFault (m : List Byte) (ss : List Nat) (w : Walk) (relocOk shapeOk : Bool) : Option Nat :=
  let nb := Im.nBundles m
  let bs := ss.take nb
  let segs := ss.drop nb
  let gr := 2 ^ Im.gangRows m
  let gc := 2 ^ Im.gangCols m
  if ! (bs.all (fun w => mSlotOk (bits w 0 64) && vEncodingOk (bits w 64 64) && dEncodingOk (bits w 128 64) && cSlotOk (bits w 192 64)) &&
        segs.all Sd.ok) then some 5
  else if ! (bs.all (fun w => vAttributeOk (Im.attrs m) (bits w 64 64) && (bits w 128 8 != 3 || bits w 136 3 != 0))) ||
      (! bit (Im.attrs m) 0 && segs.any (fun s => Sd.mode s == 1)) || (! bit (Im.attrs m) 2 && segs.any Sd.sr) then some 6
  else if ! loopsOk nb 0 bs [] then some 7
  else if ! relocOk then some 8
  else if ! bs.all destsOk then some 9
  else if w.outside || w.overwrite then some 0xA
  else if segs.any (fun s => (Sd.mode s == 3 && gr != 1) || (decide (2 ≤ Sd.mode s) && (Sd.fmtA s != 0 || Sd.fmtB s != 0))) then some 0xB
  else if ! shapeOk then some 0xC
  else if bs.any (fun w => bits w 0 8 == 1 && decide (Im.nSegs m ≤ bits w 12 16)) ||
      segs.any (fun s => decide (32 * gr < Sd.kActive s ∨ 32 * gr < Sd.kLast s ∨ 32 * gc < Sd.nActive s)) || w.longChain then some 0xD
  else none

/-- R209: the reserved bytes of relocations and symbols are zero. -/
def Im.reservedOk (m : List Byte) : Bool :=
  (List.range (Im.nRelocs m)).all (fun i => Im.reloc m i 6 2 == 0) &&
  (List.range (Im.nSyms m)).all (fun i => Im.symRsv m i == 0)

/-- R211: the checks before relocation, and SIZE and FIT: the first failing code. -/
def Dev.imageHead (d : Dev) (m : List Byte) : Option Nat :=
  let stArray := d.word [Reg.SIZE_TABLE_ST_ARRAY_ARRAY_DIM, Reg.SIZE_TABLE_ST_ARRAY_ARRAYS_PER_UNIT, Reg.SIZE_TABLE_ST_ARRAY_GRID_ROWS,
    Reg.SIZE_TABLE_ST_ARRAY_GRID_COLS, Reg.SIZE_TABLE_ST_ARRAY_CQ_DEPTH] (pageNum 0 0 1)
  let stVector := d.word [Reg.SIZE_TABLE_ST_VECTOR_LANES, Reg.SIZE_TABLE_ST_VECTOR_VREGS, Reg.SIZE_TABLE_ST_VECTOR_SREGS,
    Reg.SIZE_TABLE_ST_VECTOR_MREGS] (pageNum 0 0 1)
  if fld m 0 4 ≠ 0x4E584B49 ∨ fld m 6 2 ≠ 1 ∨ Im.nBundles m = 0 ∨ m.length < Im.size m ∨ fld m 0x1D 3 ≠ 0 ∨ ! allZero m 0x24 0x40 ∨
      Im.nBundles m ≤ Im.entryIdx m ∨ 2 < Im.gangRows m ∨ 3 < Im.gangCols m ∨ ! Im.reservedOk m then some 1
  else if crc32 (zeroed (m.take (Im.size m)) 0x20) ≠ fld m 0x20 4 then some 2
  else if fld m 8 4 ≠ stArray ∨ fld m 0xC 4 ≠ stVector then some 3
  else if 2048 < Im.nBundles m + Im.nSegs m ∨ lsSize < 64 * Im.lsUnits m then some 4
  else none

/-! ## The policy table (R328 to R331) -/

namespace Pol
def nPolicies (p : List Byte) : Nat := fld p 0x10 2
def nSlots (p : List Byte) : Nat := if p = [] then 0 else fld p 0x14 4
def pol (p : List Byte) (i o n : Nat) : Nat := fld p (64 + 32 * i + o) n
def baseLevel (p : List Byte) (i : Nat) : Nat := bits (pol p i 0 4) 0 2
def maxLevel (p : List Byte) (i : Nat) : Nat := bits (pol p i 0 4) 2 2
def crushAct (p : List Byte) (i : Nat) : Nat := bits (pol p i 0 4) 4 2
def lossyOk (p : List Byte) (i : Nat) : Bool := bit (pol p i 0 4) 6
def watchAct (p : List Byte) (i : Nat) : Nat := bits (pol p i 0 4) 7 2
def headroom (p : List Byte) (i : Nat) : Nat := bits (pol p i 4 4) 0 4
def decaySteps (p : List Byte) (i : Nat) : Nat := bits (pol p i 4 4) 4 8
def calmSteps (p : List Byte) (i : Nat) : Nat := bits (pol p i 4 4) 12 8
def warmSteps (p : List Byte) (i : Nat) : Nat := bits (pol p i 4 4) 20 12
def satTol (p : List Byte) (i : Nat) : Nat := pol p i 8 4
def zeroTol (p : List Byte) (i : Nat) : Nat := pol p i 0xC 4
def crushMax (p : List Byte) (i : Nat) : Nat := pol p i 0x10 4
def ratioMax (p : List Byte) (i : Nat) : Nat := pol p i 0x14 4
def slot (p : List Byte) (i o n : Nat) : Nat := fld p (64 + 32 * nPolicies p + 16 * i + o) n
def slStage (p : List Byte) (i : Nat) : Nat := slot p i 0 2
def slSlot (p : List Byte) (i : Nat) : Nat := slot p i 2 1 % 8
def slWatch (p : List Byte) (i : Nat) : Bool := bit (slot p i 2 1) 3
def slTensor (p : List Byte) (i : Nat) : Nat := slot p i 4 3
def slLayer (p : List Byte) (i : Nat) : Nat := slot p i 8 2

/-- R330, R333: the slot entry of slot `n` of a stage, and whether the stage has a numeric control area. -/
def entryOf (p : List Byte) (stage n : Nat) : Option Nat := (List.range (nSlots p)).find? fun i => slStage p i == stage && slSlot p i == n
def controls (p : List Byte) (stage : Nat) : Bool := (List.range (nSlots p)).any fun i => slStage p i == stage

/-- R331 ENTRY: a policy entry that breaks its own rules. -/
def entryBad (p : List Byte) (i : Nat) : Bool :=
  let r := FFmt.f32.decode (ratioMax p i)
  decide (baseLevel p i = 3 ∨ maxLevel p i = 3 ∨ crushAct p i = 3 ∨ maxLevel p i < baseLevel p i ∨ decaySteps p i = 0 ∨
    calmSteps p i = 0 ∨ 7 < headroom p i ∨ bits (pol p i 0 4) 9 23 ≠ 0 ∨ pol p i 0x1C 4 ≠ 0) ||
    ! (match r with | .num false v _ => ! v.isZero | _ => false)

/-- R331: the first failure of a policy table against a draft, as code and index. -/
def check (b p : List Byte) (len : Nat) : Option (Nat × Nat) :=
  let slots := List.range (nSlots p)
  let idx := fun i => Dr.tensorIdx b (slTensor p i)
  if p = [] then none
  else if fld p 0 4 ≠ 0x4E584E50 ∨ fld p 6 2 ≠ 1 ∨ fld p 8 4 ≠ len ∨ nPolicies p = 0 ∨ fld p 0x12 2 ≠ 0 ∨ ! allZero p 0x18 0x40 ∨
      p.length < 64 + 32 * nPolicies p + 16 * nSlots p then some (1, 0)
  else if crc32 (zeroed p 0xC) ≠ fld p 0xC 4 then some (2, 0)
  else
    let ent := (List.range (nPolicies p)).find? (entryBad p)
    let index := slots.find? fun i => match idx i with | some t => decide (nPolicies p ≤ Dr.tPolicy b t) | none => true
    let slotBad := slots.find? fun i => decide (Dr.nStages b ≤ slStage p i) || bits (slot p i 0 4) 20 12 != 0 ||
      (List.range i).any (fun k => slStage p k == slStage p i && slSlot p k == slSlot p i) ||
      (List.range i).any (fun k => slTensor p k == slTensor p i && slLayer p k != slLayer p i)
    let lossy := (List.range (Dr.nTensors b)).find? fun t =>
      (Dr.tSave b t == 1 || Dr.tSave b t == 2) && slots.any (fun i => slTensor p i == Dr.tId b t) && ! lossyOk p (Dr.tPolicy b t)
    let level := slots.find? fun i => match idx i with
      | some t => if 2 ≤ Dr.tFmt b t then baseLevel p (Dr.tPolicy b t) == 2 else decide (maxLevel p (Dr.tPolicy b t) < 2)
      | none => false
    ((((ent.map (3, ·)).or (index.map (4, ·))).or (slotBad.map (5, ·))).or (lossy.map (6, ·))).or (level.map (7, ·))
end Pol

/-! ## The draft checks before placement (R302, R362) -/

/-- R302: whether the sections lie in the draft, aligned and apart. -/
def sectSize (b : List Byte) (i : Nat) : Nat :=
  match i with
  | 0 => 4 * Dr.nMembers b
  | 1 => 4 * Dr.nSpares b
  | 2 => 32 * Dr.nTensors b
  | 3 => 32 * Dr.nStages b
  | 4 => (List.range (Dr.nKernels b)).foldl (fun a k => max a (Dr.entry b 4 8 k 0 4 + Dr.entry b 4 8 k 4 4)) (8 * Dr.nKernels b)
  | 5 => 16 * Dr.nReductions b
  | _ => 16 * Dr.nBindings b
def sectBad (b : List Byte) (i : Nat) : Bool :=
  let s := Dr.sect b i
  decide (s % 64 ≠ 0 ∨ b.length < s + sectSize b i ∨ (s < 128 ∧ sectSize b i ≠ 0)) ||
    (List.range i).any (fun k => decide (sectSize b i ≠ 0 ∧ sectSize b k ≠ 0 ∧ s < Dr.sect b k + sectSize b k ∧ Dr.sect b k < s + sectSize b i))

/-- R302: the addresses of all members and spares. -/
def Dr.addrs (b : List Byte) : List Nat :=
  (List.range (Dr.nMembers b)).map (fun i => Dr.addrOf (Dr.memberWord b i)) ++
    (List.range (Dr.nSpares b)).map (fun i => Dr.addrOf (Dr.spareWord b i))

/-- R314: the cellar bytes that saved activation `t` needs for SAVE 2, and the 64 KiB blocks it fills. -/
def Dr.saveBlocks (b : List Byte) (c : Nat × Nat × Nat) (t : Nat) : Nat :=
  (Dr.elems b c t * (if Dr.tFmt b t = 0 then 4 else 2) + 65535) / 65536
def Dr.saveBounded (b : List Byte) (c : Nat × Nat × Nat) (t : Nat) : Nat :=
  Dr.saveBlocks b c t * boundedSize (if Dr.tFmt b t = 0 then 0 else 1)

/-- R302 TENSOR: an entry that breaks its rules. -/
def Dr.tensorBad (b : List Byte) (c : Nat × Nat × Nat) (i : Nat) : Bool :=
  decide (4 < Dr.tFmt b i ∨ 6 < Dr.tKind b i ∨ Dr.tRows b i = 0 ∨ Dr.tCols b i = 0 ∨ Dr.tSplit b i = 3 ∨
    (Dr.tSave b i ≠ 0 ∧ Dr.tKind b i ≠ 2) ∨ bits (Dr.tensor b i 0xC 4) 21 11 ≠ 0 ∨ Dr.tensor b i 0x12 2 ≠ 0 ∨ Dr.tensor b i 0x18 8 ≠ 0 ∨
    (Dr.tSave b i = 1 ∧ 1024 * Dr.tCellar b i < Dr.saveBounded b c i)) ||
    (List.range i).any (fun k => Dr.tId b k == Dr.tId b i)

/-- R302 STAGE. -/
def Dr.stageBad (b : List Byte) (i : Nat) : Bool :=
  decide (Dr.nKernels b ≤ Dr.sKernel b i ∨ (Dr.sAlt b i ≠ 0xFFFF ∧ Dr.nKernels b ≤ Dr.sAlt b i) ∨ Dr.sLast b i < Dr.sFirst b i ∨
    Dr.stepBeats b ≤ Dr.sLast b i ∨ Dr.sSegs b i = 0 ∨ Dr.sInst b i = 0 ∨ (Dr.sSliceable b i ∧ ! Dr.sResident b i) ∨
    8 ≤ Dr.stage b i 7 1 ∨ Dr.stage b i 0x10 16 ≠ 0)

/-- R302 BINDING. -/
def Dr.bindingBad (b : List Byte) (i : Nat) : Bool :=
  decide (0xFFFFFF00 ≤ Dr.bind' b i 0 4 ∨ 1 < Dr.bind' b i 6 1 ∨ Dr.bind' b i 7 1 ≠ 0) ||
    (List.range i).any (fun k => Dr.bind' b k 0 4 == Dr.bind' b i 0 4 && Dr.bind' b k 4 2 == Dr.bind' b i 4 2)

/-- R302 REDUCTION, R362. -/
def Dr.reductionBad (b : List Byte) (p i : Nat) : Bool :=
  match Dr.tensorIdx b (Dr.rTensor b i) with
  | none => true
  | some t =>
    decide (Dr.tKind b t ≠ 3 ∨ Dr.stepBeats b ≤ Dr.rDeadline b i ∨ (Dr.rWire b i ≠ 2 ∧ Dr.rWire b i ≠ 3) ∨ 1 < Dr.rAxis b i ∨
      Dr.rKeep b i = 0 ∨ 4096 < Dr.rKeep b i ∨ 1 < Dr.tFmt b t ∨ Dr.tSplit b t = Dr.rAxis b i + 1 ∨
      Dr.minDeadline b < Dr.exchangeStart b p ∨ 32 ≤ Dr.red b i 7 1 ∨ 8192 ≤ bits (Dr.red b i 8 4) 16 16 ∨ Dr.red b i 3 1 ≠ 0 ∨
      4 ≤ Dr.red b i 0xC 4)

/-- R302 LEVEL: what SL2 does not run. -/
def Dr.levelBad (b : List Byte) : Option Nat :=
  if ! Dr.single b then some 0 else (List.range (Dr.nTensors b)).find? fun i => Dr.tSave b i != 0

/-- R295: the member a package is, by its address: the draft's entry, or the one a spare has taken. -/
def Dev.memberOf (d : Dev) (a : Nat) : Option Nat :=
  let b := d.plan.draft
  match d.plan.replaced.find? (fun x => x.2 == a) with
  | some x => some x.1
  | none => (List.range (Dr.nMembers b)).find? fun i => Dr.addrOf (Dr.memberWord b i) == a && ! d.plan.replaced.any (fun x => x.1 == i)

/-- R318: the address and the feed group of a member. -/
def Dev.memberAddr (d : Dev) (i : Nat) : Nat :=
  match d.plan.replaced.find? (fun x => x.1 == i) with
  | some x => x.2
  | none => Dr.addrOf (Dr.memberWord d.plan.draft i)
def Dev.feedOfAddr (d : Dev) (a : Nat) : Nat :=
  let b := d.plan.draft
  match ((List.range (Dr.nMembers b)).map (Dr.memberWord b) ++ (List.range (Dr.nSpares b)).map (Dr.spareWord b)).find? (fun w => Dr.addrOf w == a) with
  | some w => Dr.feedOf w
  | none => 0

/-- The package's own member index and partition coordinates. -/
def Dev.self (d : Dev) : Option Nat := d.memberOf d.selfAddr
def Dev.coords (d : Dev) : Nat × Nat × Nat := Dr.coords d.plan.draft (d.self.getD 0)

/-- R302: the checks up to STAGE, in order: reason and index. -/
def Dev.draftHead (d : Dev) : Option (Nat × Nat) :=
  let b := d.plan.draft
  let sp := d.g Reg.DRAFT_SRC_SPACE
  let len := d.g Reg.DRAFT_LEN
  let as := Dr.addrs b
  if (sp ≠ 1 ∧ sp ≠ 2) ∨ len % 64 ≠ 0 ∨ len < 128 ∨ (if sp = 1 then 2 ^ 22 else 2 ^ 26) < len ∨ fld b 0 4 ≠ 0x4E584446 ∨
      fld b 8 4 ≠ len ∨ fld b 6 2 ≠ 1 ∨ fld b 0x1E 2 ≠ 0 ∨ 4 ≤ fld b 0x22 2 ∨ 64 ≤ fld b 0x24 4 ∨ fld b 0x2A 2 ≠ 0 ∨
      fld b 0x33 1 ≠ 0 ∨ fld b 0x3B 1 ≠ 0 ∨ ! allZero b 0x5C 0x80 ∨ Dr.stepBeats b = 0 then some (1, 0)
  else if crc32 (zeroed b 0xC) ≠ fld b 0xC 4 then some (2, 0)
  else
    match (List.range 7).find? (sectBad b) with
    | some i => some (3, i)
    | none =>
      if Dr.nMembers b = 0 ∨ d.g Reg.SIZE_TABLE_ST_SYSTEM_MAX_ACTIVE < Dr.nMembers b ∨ ! decide as.Nodup ∨ 0x3FFFF ∈ as ∨
          (Dr.single b ∧ Dr.nMembers b ≠ 1) then
        some (4, ((List.range as.length).find? fun i => as.getD i 0 == 0x3FFFF || (as.take i).contains (as.getD i 0)).getD 0)
      else if ! as.contains d.selfAddr then some (5, 0)
      else
        match (List.range (Dr.nTensors b)).find? (Dr.tensorBad b d.coords) with
        | some i => some (6, i)
        | none => none

/-- R302: STAGE, and BINDING to LEVEL, the checks on either side of the image checks. -/
def Dev.draftStages (d : Dev) : Option (Nat × Nat) :=
  ((List.range (Dr.nStages d.plan.draft)).find? (Dr.stageBad d.plan.draft)).map (7, ·)
def Dev.draftTail (d : Dev) : Option (Nat × Nat) :=
  let b := d.plan.draft
  (((List.range (Dr.nBindings b)).find? (Dr.bindingBad b)).map (9, ·)).or
    ((((List.range (Dr.nReductions b)).find? (Dr.reductionBad b d.coords.2.2)).map (10, ·)).or
      (if d.g Reg.BRINGUP_LEVEL = 2 then
        ((Dr.levelBad b).or (if d.g Reg.DRAFT_SRC_SPACE = 2 then some 0 else none)).map (11, ·)
       else none))

end Sys2Proof.Machine
end

