-- ==== Sys2Proof/Machine/Energy.lean ====
section
/-! DEFINITION. The activity model: what a plan is predicted to draw (R451, R465). -/

namespace Sys2Proof.Machine

def pgModel : Nat := pageNum 0xC 0 2
def pgMeasure : Nat := pageNum 0xC 0 3

/-- R512: the public key of the identity, and DEVICE_ID: the low 64 bits of its SHAKE256 digest. -/
def Dev.identityKey (d : Dev) : List Byte := ((List.range 17).map fun i => natLe 4 (d.g Reg.IDENT_PK i)).flatten
def Dev.deviceId (d : Dev) : Nat := leNat ((shake256 d.identityKey).take 8)

/-- R451: the core voltage of an operating point in mV. -/
def opMv (op : Nat) : Nat := [500, 500, 505, 515, 530, 545, 550, 560, 575, 590, 610, 630, 655, 680, 715, 750].getD op 750

/-- R465: the hottest junction temperature. -/
def Dev.hottest (d : Dev) : Nat := (allDies.map (d.rd Reg.THERMAL_TJ_MAX)).foldl max 0

/-- R465: the dynamic energy of plan beat `b` at OP15, before calibration, in nJ; none without a plan. -/
def Dev.rawDynamic (d : Dev) (b : Option Nat) : Nat :=
  match d.plan.live, b with
  | some p, some b => Config.dynamicEnergy p.hash p.timing b
  | _, _ => 0

/-- R465: the dynamic part k_dyn × Σ n × e × (V ÷ 0.75 V)² in nJ, and the static part k_st × S × beat length in nJ. -/
def Dev.dynamicPart (d : Dev) (op : Nat) (b : Option Nat) : Nat :=
  d.g Reg.MODEL_K_DYN * d.rawDynamic b * opMv op * opMv op / (16384 * 750 * 750)
def Dev.staticPart (d : Dev) (op : Nat) : Nat := d.g Reg.MODEL_K_ST * Config.staticPower op d.hottest * d.period / (16384 * 10)

/-- R465: PMEAN(o) in W over the plan's beats. -/
def Dev.pmean (d : Dev) (op n : Nat) : Nat :=
  (((List.range n).map fun b => d.dynamicPart op (some b) + d.staticPart op).sum) / (max 1 n * max 1 d.period * 100)

/-- R465, R470: the predictions of a plan that commits; a measured source whose rails are sound again returns. -/
def Dev.modelPlan (d : Dev) (n : Nat) : Dev :=
  let d := (List.range 16).foldl (fun d op => d.p Reg.MODEL_PMEAN (sat 16 (d.pmean op n)) op) d
  if d.power.rails.any (fun r => r.2.failed) then d else d.p Reg.MEASURE_FAILED 0

end Sys2Proof.Machine
end

