-- ==== Sys2Proof/Machine/Place.lean ====
section
/-! DEFINITION. The placer: fault map, positions, ways, fit, partitions, partners and spares, plans and re-plans (R15 to R21, R289 to
R326). -/

namespace Sys2Proof.Machine

def pgDraft : Nat := pageNum 9 0 0
def pgSpares : Nat := pageNum 9 0 2
def pgScalePol : Nat := pageNum 10 0 0
def pgWatch : Nat := pageNum 10 0 2

/-! ## Where drafts come from (R289, R537) -/

/-- R537: the SL2 region of a die. -/
def Dev.sl2Region (d : Dev) (die : Nat) : Nat :=
  ((List.range 4).map (fun i => die + 256 * i)).find? (fun r => ! regionOut d.faults r) |>.getD die

/-- R289: the load larder's region. -/
def Dev.loadLarder (d : Dev) : Nat := d.sl2Region (if d.g Reg.RST_SRC_MANAGER = 1 then 1024 else 0)

/-- R289, R290: where a space code and an address of DRAFT.SRC's coding lie in the store. -/
def Dev.srcAddr (d : Dev) (space addr : Nat) : Option Nat :=
  if space = 1 then some (larderBase d.loadLarder + 64 * addr)
  else if space = 2 then
    let st := bits addr 27 3
    some (hbmBase st + d.rd Reg.HBM_PART_BASE (hbmInst st) 4 * granule + 512 * bits addr 0 27)
  else none
def Dev.srcBytes (d : Dev) (m : Mem) (space addr len : Nat) : List Byte :=
  match d.srcAddr space addr with | some a => m.bytes a len | none => []

/-! ## Placement (R303 to R314) -/

/-- The clusters, regions and stacks that the placer uses under a fault map: at SL2 those of the SL2 regions, without stacks. -/
def Dev.placeRegions (d : Dev) (f : List (Nat × Nat)) : List Nat :=
  if d.g Reg.BRINGUP_LEVEL = 2 then (allDies.filter (! dieOut f ·)).map d.sl2Region else allRegions.filter (! regionOut f ·)
def Dev.placeClusters (d : Dev) (f : List (Nat × Nat)) : List Nat := ((d.placeRegions f).flatMap clustersOf).filter (! clusterOut f ·)
def Dev.placeStacks (d : Dev) (f : List (Nat × Nat)) : List Nat :=
  if d.g Reg.BRINGUP_LEVEL = 2 then [] else (List.range 8).filter (! stackOut f ·)

/-- A gang position: origin index, cluster, origin row and column. -/
structure Pos where
  o : Nat
  c : Nat
  row : Nat
  col : Nat

/-- R305: spread order: (o, CLUSTER, REGION, DIE). -/
def Pos.rank (p : Pos) : Nat := ((p.o * 8 + p.c / 32 % 8) * 4 + p.c / 256 % 4) * 4 + p.c / 1024

/-- R18, R305, R307: the positions of a shape that a cluster offers. -/
def positionsIn (f : List (Nat × Nat)) (gr gc c : Nat) : List Pos :=
  let all := (List.range (4 / gr)).flatMap fun r => (List.range (8 / gc)).filterMap fun k =>
    let cover := (List.range gr).flatMap fun i => (List.range gc).map fun j => (r * gr + i) * 4 + (k * gc + j) / 2
    if cover.any (emptyUnits f c).contains then none else some (⟨r * (8 / gc) + k, c, r * gr, k * gc⟩ : Pos)
  if gr = 1 ∧ gc ≤ 2 then all else all.take 8

/-- The units that a position covers, the standby in a retired unit's place. -/
def Pos.units (f : List (Nat × Nat)) (gr gc : Nat) (p : Pos) : List Nat :=
  ((List.range gr).flatMap fun i => (List.range gc).map fun j =>
    let n := (p.row + i) * 4 + (p.col + j) / 2
    p.c + (if standbyFor f p.c = some n then 16 else n)).eraseDups

/-! ## Groups and shards (R360, R361) -/

/-- R360: a partition coordinate along an axis. -/
def axisOf (axis : Nat) (c : Nat × Nat × Nat) : Nat := if axis = 0 then c.1 else c.2.1

/-- R360: how many members the group of a reduction has. -/
def Dev.groupSize (d : Dev) (i : Nat) : Nat := if Dr.rAxis d.plan.draft i = 0 then Dr.degData d.plan.draft else Dr.degModel d.plan.draft

/-- R360: the package's own coordinate in a reduction's group: the shard it owns. -/
def Dev.ownShard (d : Dev) (i : Nat) : Nat := axisOf (Dr.rAxis d.plan.draft i) d.coords

/-- R360: the member index at a coordinate of the package's own group. -/
def Dev.groupMember (d : Dev) (i g : Nat) : Nat :=
  let b := d.plan.draft
  let c := d.coords
  let c := if Dr.rAxis b i = 0 then (g, c.2.1, c.2.2) else (c.1, g, c.2.2)
  c.1 + Dr.degData b * (c.2.1 + Dr.degModel b * c.2.2)

/-- R360: the coordinate of a sender in the package's own group of a reduction. -/
def Dev.groupCoord (d : Dev) (i sender : Nat) : Option Nat :=
  match d.memberOf sender with
  | none => none
  | some m =>
    let g := axisOf (Dr.rAxis d.plan.draft i) (Dr.coords d.plan.draft m)
    if d.self.isSome ∧ d.groupMember i g = m then some g else none

/-- R361: elements and exchange blocks of the package-local part of a reduction's tensor. -/
def Dev.redElems (d : Dev) (i : Nat) : Nat :=
  ((Dr.tensorIdx d.plan.draft (Dr.rTensor d.plan.draft i)).map (Dr.elems d.plan.draft d.coords)).getD 0
def Dev.redBlocks (d : Dev) (i : Nat) : Nat := (d.redElems i + 4095) / 4096

/-- R361: whether the package's own shard of a reduction holds a block. -/
def Dev.ownsBlocks (d : Dev) (i : Nat) : Bool :=
  let n := d.groupSize i
  let j := d.ownShard i
  d.self.isSome && decide (j * d.redBlocks i / max 1 n < (j + 1) * d.redBlocks i / max 1 n)

/-- What the placer works with: the draft, the fault map, its clusters, the stages of this package (R304 step 1) and the stages that
use their alternate kernel, and the units whose positions the timing part skips (R315). -/
structure Job where
  b : List Byte
  f : List (Nat × Nat)
  clusters : List Nat
  stages : List Nat
  alt : List Nat
  quiet : List Nat := []

def Job.kernel (j : Job) (s : Nat) : Nat := if j.alt.contains s then Dr.sAlt j.b s else Dr.sKernel j.b s
def Job.image (j : Job) (s : Nat) : List Byte := Dr.image j.b (j.kernel s)

/-- R307: shapes as GANG.ROWS + 4 × GANG.COLS, in order of demand, and the clusters each takes. -/
def Job.shapeOf (j : Job) (s : Nat) : Nat × Nat := (Im.gangRows (j.image s), Im.gangCols (j.image s))
def Job.demand (j : Job) (sh : Nat × Nat) : Nat :=
  (j.stages.filter (fun s => j.shapeOf s == sh)).foldl (fun a s => a + Dr.sInst j.b s * Dr.sSegs j.b s * 2 ^ (sh.1 + sh.2)) 0
/-- R307 steps 2 to 4: the taking-part shapes, best first, each with its demand. -/
def Job.shapes (j : Job) : List ((Nat × Nat) × Nat) :=
  let all := ((List.range 3).flatMap fun r => (List.range 4).map fun c => ((r, c), j.demand (r, c))).filter (fun x => x.2 != 0)
  (sortBy (fun a b => decide (b.2 < a.2 ∨ a.2 = b.2 ∧ (a.1.1 < b.1.1 ∨ a.1.1 = b.1.1 ∧ a.1.2 ≤ b.1.2))) all).take j.clusters.length

/-- R307 step 4: one cluster taken back from the largest share, the last in rank on ties, until the shares fit. -/
def takeBack (c : Nat) : Nat → List Nat → List Nat
  | 0, a => a
  | n + 1, a =>
    if a.sum ≤ c then a
    else
      let mx := a.foldl max 0
      let i := a.length - 1 - ((List.range a.length).find? fun k => a.getD (a.length - 1 - k) 0 == mx).getD 0
      takeBack c n (a.set i (mx - 1))
def Job.shares (j : Job) : List Nat :=
  let sh := j.shapes
  let c := j.clusters.length
  let total := (sh.map (·.2)).sum
  let a := sh.map fun x => max 1 (c * x.2 / max 1 total)
  let a := takeBack c (a.sum + 1) a
  if a = [] then [] else a.set 0 (a.getD 0 0 + (c - a.sum))

/-- R305: clusters in spread order. -/
def spreadClusters (cs : List Nat) : List Nat := sortBy (fun a b => decide ((⟨0, a, 0, 0⟩ : Pos).rank ≤ (⟨0, b, 0, 0⟩ : Pos).rank)) cs

/-- R307: the clusters that take a shape. -/
def Job.clustersOfShape (j : Job) (sh : Nat × Nat) : List Nat :=
  match j.shapes.findIdx? (fun x => x.1 == sh) with
  | some i => ((spreadClusters j.clusters).drop ((j.shares.take i).sum)).take (j.shares.getD i 0)
  | none => []

/-- R305, R307, R315: the positions of a shape in spread order, without those of quiesced blocks. -/
def Job.positions (j : Job) (sh : Nat × Nat) : List Pos :=
  sortBy (fun a b => decide (a.rank ≤ b.rank)) (((j.clustersOfShape sh).flatMap fun c => positionsIn j.f (2 ^ sh.1) (2 ^ sh.2) c).filter fun p =>
    ! (p.units j.f (2 ^ sh.1) (2 ^ sh.2)).any j.quiet.contains)

/-- R211 GANG: whether a cluster in service can offer a shape. -/
def Job.offered (j : Job) (sh : Nat × Nat) : Bool := j.clusters.any fun c => ! (positionsIn j.f (2 ^ sh.1) (2 ^ sh.2) c).isEmpty

/-- An instance that has been given a place: shape, position index, way, first beat, beat step. -/
structure Placed where
  stage : Nat
  inst : Nat
  sh : Nat × Nat
  pos : Nat
  way : Nat
  start : Nat
  step : Nat

/-- R308: the resident instances of a shape in stage and instance order. -/
def Job.residents (j : Job) (sh : Nat × Nat) : List (Nat × Nat) :=
  (j.stages.filter fun s => Dr.sResident j.b s && j.shapeOf s == sh).flatMap fun s => (List.range (Dr.sInst j.b s)).map fun i => (s, i)

/-- R308: the residents of a shape placed; the stages that do not fit. -/
def Job.placeResidents (j : Job) (sh : Nat × Nat) : List Placed × List Nat :=
  let rs := j.residents sh
  let n := (j.positions sh).length
  if n = 0 then ([], rs.map (·.1))
  else
    let ps := rs.zipIdx.map fun ((s, i), k) =>
      let w := (rs.length - 1 - k % n) / n + 1
      let way := k / n
      let st := Dr.sFirst j.b s + (if w ≤ 1 then 0 else (way + w - Dr.sFirst j.b s % w) % w)
      (⟨s, i, sh, k % n, way, st, w⟩ : Placed)
    (ps, (ps.filter fun p => decide (4 < p.step) || (decide (1 < p.step) && ! (Dr.sSliceable j.b p.stage && Dr.sliceAllow j.b)) ||
      decide (Dr.sLast j.b p.stage < p.start + (Dr.sSegs j.b p.stage - 1) * p.step)).map (·.stage))

/-- R309: the beats in which units are taken by non-resident instances, as (unit, first beat, last beat). -/
abbrev Busy := List (Nat × Nat × Nat)

/-- R309: one non-resident instance: the lowest beat, and at it the first free position. -/
def Job.placeOne (j : Job) (held : List Nat) (busy : Busy) (s : Nat) : Option (Nat × Nat) :=
  let sh := j.shapeOf s
  let ps := j.positions sh
  let seg := Dr.sSegs j.b s
  (List.range (Dr.sLast j.b s + 1 - (Dr.sFirst j.b s + seg - 1))).findSome? fun k =>
    let b := Dr.sFirst j.b s + k
    (List.range ps.length).findSome? fun i =>
      match ps[i]? with
      | none => none
      | some p =>
        let us := p.units j.f (2 ^ sh.1) (2 ^ sh.2)
        if us.any (fun u => held.contains u || busy.any (fun x => x.1 == u && decide (x.2.1 ≤ b + seg - 1 ∧ b ≤ x.2.2))) then none
        else some (b, i)

/-- R308, R309: every instance placed that fits, and the stages that do not fit. -/
def Job.placeAll (j : Job) : List Placed × List Nat :=
  let res := j.shapes.map fun x => j.placeResidents x.1
  let bad := res.flatMap (·.2) ++ j.stages.filter fun s => (j.positions (j.shapeOf s)).isEmpty
  let rs := res.flatMap (·.1)
  let held := (rs.flatMap fun p => match (j.positions p.sh)[p.pos]? with
    | some x => x.units j.f (2 ^ p.sh.1) (2 ^ p.sh.2) | none => []).eraseDups
  let go := (j.stages.filter (! Dr.sResident j.b ·)).flatMap fun s => (List.range (Dr.sInst j.b s)).map fun i => (s, i)
  let r := go.foldl (fun (a : List Placed × Busy × List Nat) si =>
    match j.placeOne held a.2.1 si.1 with
    | none => (a.1, a.2.1, a.2.2 ++ [si.1])
    | some (b, i) =>
      let sh := j.shapeOf si.1
      let us := match (j.positions sh)[i]? with | some x => x.units j.f (2 ^ sh.1) (2 ^ sh.2) | none => []
      (a.1 ++ [⟨si.1, si.2, sh, i, 0, b, 1⟩], a.2.1 ++ us.map (fun u => (u, b, b + Dr.sSegs j.b si.1 - 1)), a.2.2))
    (rs, [], bad)
  (r.1, r.2.2)

/-- R306: the lowest of a list of failing stages. -/
def lowest : List Nat → Option Nat
  | [] => none
  | s :: ss => some (ss.foldl min s)

/-- R306: in ascending order, a stage that does not fit changes to its alternate kernel, once; the placement then runs again. The answer ends with
the stage that fails for good. -/
def Job.solve : Nat → Job → Job × List Placed × Option Nat
  | 0, j => (j, j.placeAll.1, lowest j.placeAll.2)
  | n + 1, j =>
    let r := j.placeAll
    match lowest r.2 with
    | none => (j, r.1, none)
    | some s =>
      if j.alt.contains s ∨ Dr.sAlt j.b s = 0xFFFF then (j, r.1, some s)
      else Job.solve n { j with alt := j.alt ++ [s] }

/-- R315: the numeric part as though nothing were quiesced, and the timing part around the quiesced units. -/
def Job.settle (j : Job) (quiet : List Nat) : Job × List Placed × Option Nat :=
  let r := Job.solve (j.stages.length + 1) j
  if quiet = [] ∨ r.2.2.isSome then r
  else
    let j := { r.1 with quiet := quiet }
    (j, j.placeAll.1, lowest j.placeAll.2)

/-! ## Local layout and fit (R310 to R313) -/

/-- The local-store bytes and the instruction-store slots of a stage's image. -/
def Job.area (j : Job) (s : Nat) : Nat := 64 * Im.lsUnits (j.image s)
def Job.islots (j : Job) (s : Nat) : Nat := Im.nBundles (j.image s) + Im.nSegs (j.image s)

/-- What a unit hosts, in placement order. -/
def Job.hosted (j : Job) (ps : List Placed) (u : Nat) : List Placed :=
  ps.filter fun p => match (j.positions p.sh)[p.pos]? with
    | some x => (x.units j.f (2 ^ p.sh.1) (2 ^ p.sh.2)).contains u | none => false

/-- R312: the resident areas of a unit, whether they all fit, and the larger of them. -/
def Job.unitFit (j : Job) (h : List Placed) : Bool × Bool × Nat :=
  let rs := h.filter fun p => Dr.sResident j.b p.stage
  let ns := h.filter fun p => ! Dr.sResident j.b p.stage
  let big := rs.foldl (fun a p => max a (j.area p.stage)) 0
  let nbig := ns.foldl (fun a p => max a (j.area p.stage)) 0
  let all := (rs.map fun p => j.area p.stage).sum + nbig
  (decide (all ≤ lsSize), decide (big + nbig ≤ lsSize), big)

/-- R312: whether the images of a unit fit in its instruction store together. -/
def Job.slotsFit (j : Job) (h : List Placed) : Bool := decide ((h.map fun q => j.islots q.stage).sum ≤ 2048)

/-- R312: where an instance's area and slots begin: after those of the earlier instances of its unit when all fit, at 0 when they
swap. Instances that are not resident share one area, and have slots of their own. -/
def Job.baseOf (j : Job) (h : List Placed) (p : Placed) : Nat × Nat :=
  let before := fun (l : List Placed) => l.take ((l.findIdx? fun q => q.stage == p.stage && q.inst == p.inst).getD l.length)
  let rs := h.filter fun q => Dr.sResident j.b q.stage
  let ls := if (j.unitFit h).1 then ((before rs).map fun q => j.area q.stage).sum else if Dr.sResident j.b p.stage then 0 else (j.unitFit h).2.2
  (ls, if j.slotsFit h then ((before h).map fun q => j.islots q.stage).sum else 0)

/-- R308, R311: a unit whose ways take turns; one whose areas swap through the larder; one whose images do. -/
def Job.sliced (h : List Placed) : Bool := h.any fun p => decide (1 < p.step)
def Job.swaps (j : Job) (h : List Placed) : Bool := Job.sliced h && ! (j.unitFit h).1
def Job.refills (j : Job) (h : List Placed) : Bool := Job.sliced h && ! j.slotsFit h

/-- R311: the swap time of a time-sliced unit. `n` counts the region's units whose areas swap, `bytes` what they move. -/
def Job.swapTime (j : Job) (h : List Placed) (n bytes : Nat) : Nat :=
  let nd := 2 * n
  (if j.swaps h then max ((2 * (j.unitFit h).2.2 + 127) / 128 + 40) ((bytes + 1023) / 1024 + 32 * ((nd + 14) / 15) + 4 * nd) else 0) +
    (if j.refills h then (h.foldl (fun x p => max x (j.islots p.stage)) 0 + 1) / 2 else 0)

/-- The units that a placed instance covers. -/
def Job.unitsOf (j : Job) (p : Placed) : List Nat :=
  match (j.positions p.sh)[p.pos]? with | some x => x.units j.f (2 ^ p.sh.1) (2 ^ p.sh.2) | none => []

/-- The binding of a placed instance (R301). -/
def Job.binding (j : Job) (ps : List Placed) (p : Placed) : Binding :=
  ⟨j.b, j.kernel p.stage, p.inst, (j.baseOf (j.hosted ps ((j.unitsOf p).headD 0)) p).1, p.start, p.step,
    match (j.positions p.sh)[p.pos]? with | some x => standbyFor j.f x.c | none => none⟩

/-- An instance with its relocated slots and their walk; one that has no place is relocated as though it stood alone, for its image check. -/
structure Rel where
  p : Placed
  placed : Bool
  slots : List Nat
  ok : Bool
  walk : Walk

/-- The instances in stage and instance order, relocated. -/
def Job.relocated (j : Job) (ps : List Placed) : List Rel :=
  (j.stages.flatMap fun s => (List.range (Dr.sInst j.b s)).map fun i => (s, i)).map fun (s, i) =>
    let q := ps.find? fun p => p.stage == s && p.inst == i
    let p : Placed := q.getD ⟨s, i, j.shapeOf s, 0, 0, Dr.sFirst j.b s, 1⟩
    let bd := if q.isSome then j.binding ps p else ⟨j.b, j.kernel s, i, 0, p.start, p.step, none⟩
    let r := relocate bd (j.image s)
    ⟨p, q.isSome, r.1, r.2, walkImage (j.image s) r.1 bd.lsBase (Dr.sSliceable j.b s)⟩

/-- R310: the cycle budget of a beat at a clock in MHz. -/
def Dev.budget (d : Dev) (mhz : Nat) : Nat := d.g Reg.BEAT_CFG_T_S * mhz * (100 - d.g Reg.BEAT_CFG_FIT_MARGIN) / 1000

/-- R180, R310, R311: for every unit and instance, the stage and the most cycles of a plan beat. `us` lists the units with what they host. -/
def Dev.unitCycles (d : Dev) (j : Job) (us : List (Nat × List Placed)) (rel : List Rel) : List (Nat × Nat) :=
  (d.placeRegions j.f).flatMap fun r =>
    let here := us.filter fun x => regionOf x.1 == r
    let sw := here.filter fun x => j.swaps x.2
    let bytes := (sw.map fun x => 2 * (j.unitFit x.2).2.2).sum
    here.flatMap fun x =>
      let t := j.swapTime x.2 sw.length bytes
      (rel.filter fun y => x.2.any fun p => p.stage == y.p.stage && p.inst == y.p.inst).map fun y => (y.p.stage, y.walk.counts.foldl max 0 + t)

/-! ## The larder (R304 step 9, R313, R369, R372, R401) -/

/-- A number rounded up to whole lines. -/
def line64 (n : Nat) : Nat := (n + 63) / 64 * 64

/-- R313 item 1: the distinct relocated images that a region uses, in kernel order. -/
def Job.staged (j : Job) (rel : List Rel) (r : Nat) : List (List Nat) :=
  ((sortBy (fun x y => decide (j.kernel x.p.stage ≤ j.kernel y.p.stage))
    (rel.filter fun x => x.placed && (j.unitsOf x.p).any fun u => regionOf u == r)).map (·.slots)).eraseDups

/-- The items of a list laid out from an offset upward, each with where it begins. -/
def layOut {α : Type} (size : α → Nat) : Nat → List α → List (Nat × α)
  | _, [] => []
  | o, x :: xs => (o, x) :: layOut size (o + size x) xs

/-- R361, R369: the reserved size of a contribution to the package's own shard of a reduction, in whole lines; a live flow may reserve more. -/
def Dev.contribStride (d : Dev) (i : Nat) : Nat :=
  let t := d.route.live
  let n := d.groupSize i
  let nb := (d.ownShard i + 1) * d.redBlocks i / max 1 n - d.ownShard i * d.redBlocks i / max 1 n
  let fs := (List.range (Rt.nFlows t)).filter fun f => Rt.fContrib t f && Rt.fObject t f == Dr.rId d.plan.draft i && Rt.fDst t f == d.selfAddr
  fs.foldl (fun a f => max a (Rt.fBytes t f)) (line64 (reservedSize (Dr.rKeep d.plan.draft i) (Dr.rWire d.plan.draft i) nb))

/-- R372, R401: what must land in the larders: for each shard the package owns one area per sender in group order, then each tensor flow; each
as its bytes and the flows bound to it with their offsets. -/
def Dev.landItems (d : Dev) : List (Nat × List (Nat × Bool × Nat × Nat)) :=
  let t := d.route.live
  let flows := (List.range (Rt.nFlows t)).filter fun f => Rt.fDst t f == d.selfAddr
  let shards := ((List.range (Dr.nReductions d.plan.draft)).filter d.ownsBlocks).map fun i =>
    let w := d.contribStride i
    (d.groupSize i * w, flows.filterMap fun f =>
      if Rt.fContrib t f ∧ Rt.fObject t f = Dr.rId d.plan.draft i ∧ Rt.fWhere t f = d.ownShard i then
        (d.groupCoord i (Rt.fSrc t f)).map fun g => (Rt.fId t f, true, g * w, Rt.fBytes t f)
      else none)
  shards ++ (flows.filter fun f => ! Rt.fContrib t f).map fun f => (line64 (Rt.fBytes t f), [(Rt.fId t f, false, 0, Rt.fBytes t f)])

/-- R313: a region's larder: the staged images, the swap slots, the landing items that fall to it, each with its offset, and where the
remainder begins. -/
structure LarderPlan where
  region : Nat
  images : List (Nat × List Nat)
  swaps : List (Nat × Nat × Nat)
  lands : List (Nat × Nat × List (Nat × Bool × Nat × Nat))
  used : Nat

/-- R313: the larders of the regions in use, each laid out from address 0 upward. Landing items go to the regions in turn (assumption 87). -/
def Dev.larderPlans (d : Dev) (j : Job) (us : List (Nat × List Placed)) (rel : List Rel) : List LarderPlan :=
  let rs := d.placeRegions j.f
  let items := d.landItems.zipIdx
  rs.zipIdx.map fun (r, k) =>
    let im := layOut (fun l : List Nat => 32 * l.length) 0 (j.staged rel r)
    let o1 := line64 (im.foldl (fun _ x => x.1 + 32 * x.2.length) 0)
    let sw := (us.filter fun x => regionOf x.1 == r && Job.sliced x.2).map fun x => (x.1, line64 (x.2.foldl (fun a p => max a (j.area p.stage)) 0))
    let ls := layOut (fun x : Nat × Nat => 2 * x.2) o1 sw
    let o2 := ls.foldl (fun _ x => x.1 + 2 * x.2.2) o1
    let la := layOut (fun x : Nat × List (Nat × Bool × Nat × Nat) => x.1) o2 ((items.filter fun x => x.2 % max 1 rs.length == k).map (·.1))
    ⟨r, im, ls.map fun x => (x.2.1, x.1, x.2.2), la.map fun x => (x.1, x.2.1, x.2.2), la.foldl (fun _ x => x.1 + x.2.1) o2⟩

/-- R401: the live table names only reductions and tensors of the draft. -/
def Dev.flowsNamed (d : Dev) : Bool :=
  let t := d.route.live
  (List.range (Rt.nFlows t)).all fun f =>
    if Rt.fContrib t f then (Dr.redIdx d.plan.draft (Rt.fObject t f)).isSome else (Dr.tensorIdx d.plan.draft (Rt.fObject t f)).isSome

/-- R231, R251, R363, R373: whether the encodes and the decodes of a region complete within their windows at worst case: encodes from the exchange
start up to each deadline, decodes from each deadline to the end of the step. Reductions fall to the regions in turn (assumption 87). -/
def Dev.exchangeFits (d : Dev) (regions budget : Nat) : Bool :=
  let b := d.plan.draft
  let x := Dr.exchangeStart b d.coords.2.2
  let is := (List.range (Dr.nReductions b)).filter fun i => d.redElems i != 0
  let enc := fun i => d.redBlocks i * (if Dr.tFmt b ((Dr.tensorIdx b (Dr.rTensor b i)).getD 0) = 0 then 192 else 160) + 36 * d.groupSize i
  let dec := fun i =>
    let n := d.groupSize i
    let nb := (d.ownShard i + 1) * d.redBlocks i / max 1 n - d.ownShard i * d.redBlocks i / max 1 n
    if nb = 0 then 0 else 36 + nb * (n * (8 + (Dr.rKeep b i + 31) / 32) + 64)
  (List.range regions).all fun r =>
    let here := is.filter (· % max 1 regions == r)
    here.all fun i =>
      let dl := Dr.rDeadline b i
      decide (((here.filter fun k => decide (Dr.rDeadline b k ≤ dl)).map enc).sum ≤ (dl + 1 - x) * budget) &&
        decide (((here.filter fun k => decide (dl ≤ Dr.rDeadline b k)).map dec).sum ≤ max 1 (Dr.stepBeats b - 1 - dl) * budget)

/-! ## Partitions (R314, R486) -/

/-- Bytes of `n` elements in a format, in units of 1/32 byte per element. -/
def fmtBytes (fmt n : Nat) : Nat := (n * [128, 64, 34, 18, 10].getD fmt 128 + 31) / 32

/-- R218: the bytes of the stored stream of a tensor part of `rows` × `cols` elements: chunks of 32 columns, each a whole number of 64-byte
lines, and for the block-scaled formats a plane of scale words. -/
def storedBytes (fmt rows cols : Nat) : Nat :=
  (cols + 31) / 32 * (((rows * [128, 64, 32, 16, 8].getD fmt 128 + 63) / 64 + (if fmt < 2 then 0 else (2 * rows + 63) / 64)) * 64)

/-- R218: the bytes that a package with coordinates `c` stores of tensor `i`. -/
def Dr.stored (b : List Byte) (c : Nat × Nat × Nat) (i : Nat) : Nat := storedBytes (Dr.tFmt b i) (Dr.local' b c i).1 (Dr.local' b c i).2

/-- R338: the managed tensors of a policy table, ascending and each once. -/
def managed (p : List Byte) : List Nat :=
  sortBy (fun a b => decide (a ≤ b)) ((List.range (Pol.nSlots p)).map (Pol.slTensor p)).eraseDups

/-- R486: the objects of a save point as (kind, object, bytes), in order. A carry list is allowed an equal share of the carry
area. -/
def saveObjects (b p : List Byte) (carryMib : Nat) (c : Nat × Nat × Nat) : List (Nat × Nat × Nat) :=
  let le := fun (a b : Nat × Nat × Nat) => decide (a.2.1 ≤ b.2.1)
  let ts := fun kind => sortBy le (((List.range (Dr.nTensors b)).filter fun i => Dr.tKind b i == kind && Dr.elems b c i != 0).map fun i =>
    (kind, Dr.tId b i, if kind = 0 then 4 * Dr.elems b c i else Dr.stored b c i))
  let rs := sortBy le ((List.range (Dr.nReductions b)).map fun i => (2, Dr.rId b i,
    if Dr.rKeep b i < 4096 then 4 * ((Dr.tensorIdx b (Dr.rTensor b i)).map (Dr.elems b c)).getD 0 else 0))
  ts 0 ++ ts 1 ++ rs.filter (fun x => x.2.2 != 0) ++
    (if (managed p).isEmpty then [] else [(3, 0, 8 * (managed p).length)]) ++
    rs.map (fun x => (4, x.2.1, 8 * carryMib * 2 ^ 20 / max 1 rs.length / 512 * 512)) ++ [(5, 0, 524480)]

/-- R486: the parts of a save point as (kind, object, offset in the object, bytes). -/
def saveParts (b p : List Byte) (carryMib : Nat) (c : Nat × Nat × Nat) : List (Nat × Nat × Nat × Nat) :=
  (saveObjects b p carryMib c).flatMap fun (k, o, n) =>
    (List.range ((n + 2 ^ 28 - 1) / 2 ^ 28)).map fun i => (k, o, i * 2 ^ 28, min (2 ^ 28) (n - i * 2 ^ 28))

/-- R314: the bytes of the partitions WEIGHTS, STATE, CELLAR, ATTIC, and PANTRY beyond its reserves; `held` is the member whose copies
the package holds. -/
def Dev.partBytes (d : Dev) (c : Nat × Nat × Nat) (held : Option (Nat × Nat × Nat)) : List Nat :=
  let b := d.plan.draft
  let ts := List.range (Dr.nTensors b)
  let carry := d.g Reg.EXCH_CFG_CARRY_MIB
  let sumKind := fun kind (g : Nat → Nat) => ((ts.filter fun i => Dr.tKind b i == kind).map g).sum
  let weights := sumKind 0 fun i => 4 * Dr.elems b c i + (if Dr.tFmt b i = 0 then 0 else fmtBytes (Dr.tFmt b i) (Dr.elems b c i))
  let rem := ((List.range (Dr.nReductions b)).map fun i =>
    if Dr.rKeep b i < 4096 then 4 * ((Dr.tensorIdx b (Dr.rTensor b i)).map (Dr.elems b c)).getD 0 else 0).sum
  let state := 2 * (sumKind 1 (Dr.stored b c) + rem)
  let cellar := (ts.map fun i => match Dr.tSave b i with
    | 1 => 1024 * Dr.tCellar b i
    | 2 => Dr.saveBounded b c i
    | 3 => Dr.saveBlocks b c i * 66048
    | _ => 0).sum
  let attic := match held with
    | none => 0
    | some h =>
      let parts := saveParts b d.plan.policy carry h
      ((parts.filter (·.1 != 4)).map fun x => (x.2.2.2 + 511) / 512 * 512).sum + 8 * carry * 2 ^ 20 + (64 + 48 * parts.length + 511) / 512 * 512
  let one := Dr.stored b c
  let pantry := sumKind 3 one + sumKind 6 one + 2 * sumKind 4 one + 3 * sumKind 5 one
  [weights, state, cellar, attic, pantry]

/-- R220: the granules of a stack that hold a listed bad block. -/
def Dev.badGranules (d : Dev) (s : Nat) : List Nat :=
  ((List.range (d.rd Reg.HBM_ERR_BAD_COUNT (hbmInst s))).filter fun i => d.rd Reg.HBM_ERR_BAD_VALID (hbmInst s) i == 1).map fun i =>
    d.rd Reg.HBM_ERR_BAD_BLOCK (hbmInst s) i / 32768

/-- The first granule from `from'` at which `n` granules run without a bad one. -/
def runFrom (bad : List Nat) (n : Nat) (from' : Nat) : Nat :=
  ((List.range (3049 - from')).map (from' + ·)).find? (fun g => bad.all fun x => decide (x < g ∨ g + n ≤ x)) |>.getD 3048

/-- R314: the host window of a stack. -/
def Dev.hostWindow (d : Dev) (s : Nat) : Nat := runFrom (d.badGranules s) 8 0

/-- R223: the PANTRY partition of a stack begins at its host window. -/
def Dev.partView (d : Dev) (s : Nat) : Dev := d.wr Reg.HBM_PART_BASE (hbmInst s) (d.hostWindow s) 4

/-- R314: the granules of PANTRY on a stack: those it needs, and one more for each bad granule inside. -/
def pantrySpan (bad : List Nat) (w : Nat) : Nat → Nat → Nat
  | 0, n => n
  | k + 1, n =>
    let m := n + (bad.filter fun x => decide (w ≤ x ∧ x < w + n)).eraseDups.length
    pantrySpan bad w k (max n m)

/-- R314: base and size of the five partitions of a stack; none when its granules run out. -/
def Dev.layoutStack (d : Dev) (s : Nat) (sizes : List Nat) : Option (List (Nat × Nat)) :=
  let bad := d.badGranules s
  let w := d.hostWindow s
  let need := sizes.getD 4 0
  let inside := fun n => (bad.filter fun x => decide (w ≤ x ∧ x < w + n)).eraseDups.length
  let pn := (List.range 65).foldl (fun n _ => need + inside n) need
  let r := (List.range 4).foldl (fun (a : List (Nat × Nat) × Nat) p =>
    let n := sizes.getD p 0
    if n = 0 then (a.1 ++ [(0, 0)], a.2) else let g := runFrom bad n a.2; (a.1 ++ [(g, n)], g + n)) ([], w + pn)
  if 3048 < r.2 ∨ 3048 < w + pn then none else some (r.1 ++ [(w, pn)])

/-! ## Partners and spares (R316 to R318) -/

/-- R316: the size of the ring, and the member that stands at ring index `i` of a member's ring. -/
def ringSize (b : List Byte) : Nat :=
  if 2 ≤ Dr.degData b then Dr.degData b else if 2 ≤ Dr.degModel b then Dr.degModel b else if 2 ≤ Dr.degPipe b then Dr.degPipe b else 1
def ringIdx (b : List Byte) (m : Nat) : Nat :=
  let c := Dr.coords b m
  if 2 ≤ Dr.degData b then c.1 else if 2 ≤ Dr.degModel b then c.2.1 else c.2.2
def ringAt (b : List Byte) (m i : Nat) : Nat :=
  let c := Dr.coords b m
  let at' := fun (c : Nat × Nat × Nat) => c.1 + Dr.degData b * (c.2.1 + Dr.degModel b * c.2.2)
  if 2 ≤ Dr.degData b then at' (i, c.2.1, c.2.2) else if 2 ≤ Dr.degModel b then at' (c.1, i, c.2.2) else at' (c.1, c.2.1, i)

/-- R316: the shift k: the pairs on a shared feed over all members are fewest, the smallest k on ties. -/
def ringShift (b : List Byte) : Nat :=
  let dg := ringSize b
  let shared := fun k => ((List.range (Dr.nMembers b)).filter fun m =>
    Dr.feedOf (Dr.memberWord b m) == Dr.feedOf (Dr.memberWord b (ringAt b m ((ringIdx b m + k) % dg)))).length
  ((List.range (dg - 1)).map (· + 1)).foldl (fun a k => if a = 0 ∨ shared k < shared a then k else a) 0

/-- R316: the members that hold this member's copies and whose copies it holds. -/
def partnerOf (b : List Byte) (m : Nat) : Option Nat :=
  let dg := ringSize b
  if dg < 2 then none else some (ringAt b m ((ringIdx b m + ringShift b) % dg))
def heldBy (b : List Byte) (m : Nat) : Option Nat :=
  let dg := ringSize b
  if dg < 2 then none else some (ringAt b m ((ringIdx b m + dg - ringShift b) % dg))

/-- R318: spares neither failed nor taken. -/
def Dev.freeSpares (d : Dev) : List Nat :=
  ((List.range (Dr.nSpares d.plan.draft)).map fun i => Dr.addrOf (Dr.spareWord d.plan.draft i)).filter fun a =>
    ! d.plan.lostSpares.contains a && ! d.plan.replaced.any (fun x => x.2 == a)

/-- R318: the spare that replaces a member. -/
def Dev.chooseSpare (d : Dev) (m : Nat) : Option Nat :=
  let b := d.plan.draft
  let fs := d.freeSpares
  let up := (partnerOf b m).map fun p => d.feedOfAddr (d.memberAddr p)
  let down := (heldBy b m).map fun p => d.feedOfAddr (d.memberAddr p)
  let c2 := fun a => up != some (d.feedOfAddr a)
  let c1 := fun a => c2 a && down != some (d.feedOfAddr a)
  ((fs.find? c1).or (fs.find? c2)).or fs.head?

/-- R326: the SPARES page follows the member list. -/
def Dev.sparesView (d : Dev) : Dev :=
  let b := d.plan.draft
  let me := d.self
  let spare := ((List.range (Dr.nSpares b)).any fun i => Dr.addrOf (Dr.spareWord b i) == d.selfAddr)
  let own := if me.isSome ∨ spare then d.feedOfAddr d.selfAddr else d.rst.strap
  let addr := fun (x : Option Nat) => match x with | some p => d.memberAddr p | none => 0x3FFFF
  let partner := me.bind (partnerOf b)
  let shared := match partner with | some p => d.feedOfAddr (d.memberAddr p) == own | none => false
  let d1 := d.p Reg.SPARES_ROLE (match me with | some _ => if spare then 3 else 1 | none => if spare then 2 else 0)
  let d1 := (d1.p Reg.SPARES_OWN_FEED own).p Reg.SPARES_FEED_SHARED (ofB shared)
  let d1 := (d1.p Reg.SPARES_PARTNER (addr partner)).p Reg.SPARES_HOLDS (addr (me.bind (heldBy b)))
  let d1 := (d1.p Reg.SPARES_RING_K (ringShift b)).p Reg.SPARES_DRAIN (if shared then Dr.drainShared b else Dr.drainSteps b)
  let d1 := d1.p Reg.SPARES_SPARES_LEFT d.freeSpares.length
  let d1 := if own = d.rst.strap then d1 else d1.raise (pageNum 12 0 4) 0x0C10 9 Sev.warn (d.rst.strap + 64 * own)
  if shared then d1.raise pgSpares 0x070A 8 Sev.warn (addr partner + 2 ^ 18 * own) else d1

/-! ## A plan (R303, R323 to R325) -/

/-- R325: the bytes of a plan-table entry. -/
def PlanEntry.bytes (e : PlanEntry) : List Byte :=
  natLe 2 e.stage ++ natLe 3 e.inst ++ natLe 1 (e.rows + 4 * e.cols + 32 * ofB e.alt + 64 * e.way) ++ natLe 2 (e.leader + 4096 * (e.ways - 1)) ++
    natLe 4 e.start ++ natLe 2 e.span ++ natLe 2 e.slot ++ natLe 4 (e.ls / 64) ++ natLe 4 0

/-- R304 step 1: the stages that a pipeline index runs. -/
def stagesOf (b : List Byte) (p : Nat) : List Nat :=
  (List.range (Dr.nStages b)).filter fun s => Dr.sPipe b s == p || Dr.sPipe b s == 0xFFFF

/-- R324: the lowest operating point at which a number of cycles fits. -/
def Dev.fitOp (d : Dev) (cycles : Nat) : Nat := ((List.range 16).find? fun op => decide (cycles ≤ d.budget (opMhz op))).getD 15

/-- What a placement gives: a plan, or a reason with its index and image code. -/
inductive PlaceResult where
  | ok (p : Plan)
  | reject (reason index kcode : Nat)

/-- R211 BARRIER: the barriers of an instance's relocated bundles, as (number, mask), in order. -/
def barriersOf (bundles : List Nat) : List (Nat × Nat) :=
  (bundles.filter fun w => bits w 192 8 == 0x19).map fun w => (bits w 212 3, bits w 224 17)

/-- R211 BARRIER: two lists of barriers that would meet at one barrier with different masks. -/
def barriersClash : List (Nat × Nat) → List (Nat × Nat) → Bool
  | (n, a) :: xs, (m, b) :: ys => (n == m && a != b && (a &&& b) != 0) || barriersClash xs ys
  | _, _ => false

/-- R541: the domain of a reset that is not yet back in service covers a page. -/
def domHas (dom inst pg : Nat) : Bool :=
  let c := pgClass pg
  let i := pgInst pg
  match dom with
  | 1 => decide (1 ≤ c ∧ c ≤ 7 ∧ dieOf i * 1024 = inst)
  | 2 => decide (1 ≤ c ∧ c ≤ 3 ∧ regionOf i = inst)
  | 3 => decide (1 ≤ c ∧ c ≤ 2 ∧ clusterOf i = inst)
  | 4 => c == 6 && i == inst
  | 5 => c == 7 && i == inst
  | 6 => c == 5 && i == inst
  | _ => false

/-- R62, R315, R541: a page that is quiescing or quiesced, or whose domain is being reset. -/
def Dev.quietPage (d : Dev) (pg : Nat) : Bool :=
  [Bs.quiescing, Bs.quiesced].contains (d.bs pg) || d.rst.back.any fun b => domHas b.dom b.inst pg

/-- R315: the units and the stacks that quiesced blocks take out of the timing part: a unit with a quiesced page of its own, of its cluster or of its
region (assumption 119). -/
def Dev.quietUnits (d : Dev) : List Nat :=
  allRegions.flatMap fun r =>
    let inR := (regionPages r).any d.quietPage
    (clustersOf r).flatMap fun c =>
      let inC := inR || (clusterPages c).any d.quietPage
      (unitsOf c).filter fun u => inC || (unitPages u).any d.quietPage
def Dev.quietStack (d : Dev) (s : Nat) : Bool := (stackPages s).any d.quietPage

/-- R302 KERNEL, R211: the first kernel in index order whose image fails, with the code: the image as it stands, each distinct relocated image, and the
barriers of instances that meet. -/
def Dev.kernelFault (d : Dev) (j : Job) (rel : List Rel) : Option (Nat × Nat) :=
  let met := fun (x y : Rel) => x.placed && y.placed && x.p.stage == y.p.stage &&
    clusterOf ((j.unitsOf x.p).headD 0) == clusterOf ((j.unitsOf y.p).headD 0)
  let bars := fun (x : Rel) => barriersOf (x.slots.take (Im.nBundles (j.image x.p.stage)))
  (List.range (Dr.nKernels j.b)).findSome? fun k =>
    let own := rel.filter fun x => j.kernel x.p.stage == k
    if own = [] then none
    else
      (((d.imageHead (Dr.image j.b k)).or
        (own.findSome? fun x => imageFault (j.image x.p.stage) x.slots x.walk x.ok (j.offered (j.shapeOf x.p.stage)))).or
        (if own.any (fun x => own.any fun y => met x y && barriersClash (bars x) (bars y)) then some 0xE else none)).map fun c => (k, c)

/-- R310, R312: the first stage that fits no unit, or no beat. -/
def Dev.unfitStage (j : Job) (us : List (Nat × List Placed)) (cyc : List (Nat × Nat)) (budget : Nat) : Option Nat :=
  (lowest ((us.filter fun x => ! (j.unitFit x.2).2.1).flatMap fun x => x.2.map (·.stage))).or
    (lowest ((cyc.filter fun x => decide (budget < x.2)).map (·.1)))

/-- The plan-table entry of an instance. -/
def Job.entry (j : Job) (ps : List Placed) (ls : List LarderPlan) (x : Rel) : PlanEntry :=
  let p := x.p
  let us := j.unitsOf p
  let leader := us.headD 0
  let bs := j.baseOf (j.hosted ps leader) p
  let m := j.image p.stage
  let at' := (ls.find? fun l => l.region == regionOf leader).bind fun l => (l.images.find? fun y => y.2 == x.slots).map fun y => larderBase l.region + y.1
  { stage := p.stage, inst := p.inst, rows := p.sh.1, cols := p.sh.2, alt := j.alt.contains p.stage, way := p.way, ways := p.step, leader := leader,
    start := p.start, span := (Dr.sSegs j.b p.stage - 1) * p.step, slot := bs.2, ls := bs.1, step := p.step, units := us, image := at'.getD 0,
    bundles := Im.nBundles m, slots := x.slots.length, crc := crc32 (x.slots.flatMap (natLe 32)), starts := Im.entryIdx m :: x.walk.starts }

/-- R313 item 4, R335: the observation lines of the instances with a numeric control area lie where the remainder of their region's larder begins, 512
bytes each (assumption 125). -/
def Dev.withLines (d : Dev) (ls : List LarderPlan) (es : List PlanEntry) : List PlanEntry :=
  es.zipIdx.map fun (e, k) =>
    let r := regionOf e.leader
    let n := ((es.take k).filter fun x => regionOf x.leader == r && Pol.controls d.plan.policy x.stage).length
    match ls.find? fun l => l.region == r with
    | some l => if Pol.controls d.plan.policy e.stage then { e with lines := larderBase r + l.used + 512 * n } else e
    | none => e

/-- R302 to R315: the placement of the draft held, under a fault map and a planning operating point. -/
def Dev.place (d : Dev) (f : List (Nat × Nat)) (op : Nat) : PlaceResult :=
  let b := d.plan.draft
  let r := Job.settle { b := b, f := f, clusters := d.placeClusters f, stages := if d.self.isSome then stagesOf b d.coords.2.2 else [], alt := [] } d.quietUnits
  let j := r.1
  let ps := r.2.1
  let rel := j.relocated ps
  match d.kernelFault j rel with
  | some (k, c) => .reject 8 k c
  | none =>
    match d.draftTail with
    | some (reason, i) => .reject reason i 0
    | none =>
      let us := (((d.placeClusters f).flatMap unitsOf).map fun u => (u, j.hosted ps u)).filter fun x => ! x.2.isEmpty
      let cyc := d.unitCycles j us rel
      let budget := d.budget (opMhz op)
      let stks := (d.placeStacks f).filter fun s => ! d.quietStack s
      let bytes := d.partBytes d.coords ((d.self.bind (heldBy b)).map (Dr.coords b))
      let reserve := 128 + d.g Reg.EXCH_CFG_CARRY_MIB + 32
      let sizes := bytes.map fun n => (n + granule * max 1 stks.length - 1) / (granule * max 1 stks.length)
      let sizes := sizes.set 4 (sizes.getD 4 0 + (reserve + 15) / 16)
      let parts := stks.map fun s => (s, d.layoutStack s sizes)
      let ls := d.larderPlans j us rel
      let free := fun (l : LarderPlan) => larderSize - 2 ^ 20 - l.used
      let homes := if stks = [] then ((List.range (Dr.nTensors b)).map (Dr.stored b d.coords)).sum else 0
      match r.2.2 with
      | some s => .reject 12 s 0
      | none =>
        if parts.any (fun x => x.2.isNone) ∨ ls.any (fun l => decide (larderSize - 2 ^ 20 < l.used)) ∨ (ls.map free).sum < homes then .reject 12 0 0
        else
          match Dev.unfitStage j us cyc budget with
          | some s => .reject 12 s 0
          | none =>
            if ! d.flowsNamed ∨ ! d.exchangeFits ls.length budget then .reject 12 0 0
            else
              let es := d.withLines ls (rel.map (j.entry ps ls))
              let numeric := es.flatMap fun e => natLe 1 (e.rows + 4 * e.cols + 32 * ofB e.alt)
              let images := (sortBy (fun x y => decide (j.kernel x.p.stage ≤ j.kernel y.p.stage)) rel).flatMap fun x => x.slots.flatMap (natLe 32)
              .ok { entries := es, parts := parts.map fun x => (x.1, x.2.getD []), hash := shake256 (numeric ++ images),
                    timing := leNat ((shake256 (es.flatMap PlanEntry.bytes)).take 4), fitOp := d.fitOp ((cyc.map (·.2)).foldl max 0), planOp := op,
                    slicedUnits := (us.filter fun x => Job.sliced x.2).length,
                    sliced := (ps.filter fun p => p.way == 0 && decide (1 < p.step)).map fun p => (p.stage, p.step),
                    gangs := j.shapes.flatMap fun x => (j.clustersOfShape x.1).map fun c => (c, x.1.1, x.1.2),
                    lands := ls.flatMap fun l => l.lands.flatMap fun x => x.2.2.map fun y => ⟨y.1, y.2.1, larderBase l.region + x.1 + y.2.2.1, y.2.2.2⟩,
                    staging := ls.flatMap fun l => l.images.map fun x => (larderBase l.region + x.1, x.2.flatMap (natLe 32)),
                    swapSlots := ls.flatMap fun l => l.swaps.map fun x => (x.1, larderBase l.region + x.2.1, x.2.2), faults := f }

/-- R20: the fault map that the next placement works with: the recorded one and the retirements due, in coordinate order within a level. -/
def Dev.nextFaults (d : Dev) : List (Nat × Nat) :=
  closeFaults (d.faults ++ (sortBy (fun (a b : Nat × Nat) => decide (a.2 ≤ b.2)) (d.due.filter fun x => ! d.faults.contains x)))

/-! ## The DRAFT commands (R290 to R293) -/

/-- R291: a held draft and its plan are dropped. -/
def Dev.dropDraft (d : Dev) : Dev :=
  { d with plan := { d.plan with draft := [], policy := [], ready := none, live := none, causes := [], replanning := false,
                                 replaced := [], lostSpares := [], scales := [], obs := [], staged := [], skips := [] } }

/-- R302: the checks of a draft that come before any of its kernels': reason and index. -/
def Dev.draftChecks (d : Dev) : Option (Nat × Nat) :=
  (d.draftHead.or ((Pol.check d.plan.draft d.plan.policy (d.g Reg.SCALE_POL_TABLE_LEN)).map fun _ => (6, 0))).or d.draftStages

/-- R302: the whole check and placement of a draft, under the fault map that its commit makes live. -/
def Dev.checkAndPlace (d : Dev) : PlaceResult :=
  match d.draftChecks with
  | some (r, i) => .reject r i 0
  | none => d.place d.nextFaults (if d.g Reg.BRINGUP_LEVEL = 2 then 5 else Dr.opPlan d.plan.draft)

/-- R291: CMD.LOAD: the draft and the policy table are read and the check begins; a draft whose entries pass goes on to placement, which finds
what is wrong with its kernels (assumption 120). -/
def Dev.draftLoad (m : Mem) (d : Dev) : Nat × Dev :=
  let st := d.g Reg.DRAFT_STATUS_STATE
  if [1, 2, 4, 5].contains st then (Cc.locked, d)
  else
    let d := d.dropDraft
    let b := d.srcBytes m (d.g Reg.DRAFT_SRC_SPACE) (d.g Reg.DRAFT_SRC_ADDR) (d.g Reg.DRAFT_LEN)
    let p := d.srcBytes m (d.g Reg.SCALE_POL_TABLE_SPACE) (d.g Reg.SCALE_POL_TABLE_ADDR) (d.g Reg.SCALE_POL_TABLE_LEN)
    let d := { d with plan := { d.plan with draft := b, policy := p, loadAt := d.now } }
    (Cc.done, (((d.p Reg.DRAFT_STATUS_STATE (if d.draftChecks.isNone then 2 else 1)).p Reg.DRAFT_STATUS_REASON 0).p Reg.DRAFT_STATUS_KCODE 0).p Reg.DRAFT_INDEX 0)

/-- R290, R291: CMD.ABORT. -/
def Dev.draftAbort (d : Dev) : Nat × Dev :=
  let st := d.g Reg.DRAFT_STATUS_STATE
  if st = 3 ∨ st = 6 then (Cc.done, d.dropDraft.p Reg.DRAFT_STATUS_STATE 0) else (Cc.locked, d)

/-- R302: a rejection. -/
def Dev.rejectDraft (d : Dev) (reason index kcode : Nat) : Dev :=
  let d := ((d.p Reg.DRAFT_STATUS_STATE 6).p Reg.DRAFT_STATUS_REASON reason).p Reg.DRAFT_STATUS_KCODE kcode
  let d := (d.p Reg.DRAFT_INDEX index).raise pgDraft 0x0702 9 Sev.error (reason + 256 * sat 24 index)
  if reason = 8 then d.raise pgDraft 0x0703 10 Sev.error (index + 65536 * kcode) else d

/-- R331: the policy table's status after a load. -/
def Dev.policyStatus (d : Dev) : Dev :=
  let p := d.plan.policy
  match Pol.check d.plan.draft p (d.g Reg.SCALE_POL_TABLE_LEN) with
  | some (c, i) =>
    (((d.p Reg.SCALE_POL_STATUS_STATE 2).p Reg.SCALE_POL_STATUS_REASON c).p Reg.SCALE_POL_STATUS_INDEX i).raise pgScalePol 0x0808 8 Sev.error
      (c + 256 * sat 24 i)
  | none =>
    let d := ((d.p Reg.SCALE_POL_STATUS_STATE (if p = [] then 0 else 1)).p Reg.SCALE_POL_STATUS_REASON 0).p Reg.SCALE_POL_STATUS_INDEX 0
    let h := shake256 p
    (List.range 8).foldl (fun d i => d.p Reg.SCALE_POL_POLICY_DIGEST (fld h (4 * i) 4) i) d

/-- R338: the scale states at job load without a restore. -/
def Dev.freshScales (d : Dev) : SMap ScaleSt :=
  (managed d.plan.policy).map fun t =>
    let pol := ((Dr.tensorIdx d.plan.draft t).map (Dr.tPolicy d.plan.draft)).getD 0
    (t, { tensor := t, level := Pol.baseLevel d.plan.policy pol })

/-- R305, R306: the events of a placement. -/
def Dev.planEvents (d : Dev) (p : Plan) : Dev :=
  let d := p.sliced.foldl (fun d x => d.raise pgDraft 0x0705 12 Sev.warn (x.1 + 65536 * (x.2 - 1))) d
  ((p.entries.filter (·.alt)).map (·.stage)).eraseDups.foldl (fun d s => d.raise pgDraft 0x0706 13 Sev.info s) d

/-- R302: checking and placement end. -/
def Dev.placementDone (d : Dev) : Dev :=
  let st := d.g Reg.DRAFT_STATUS_STATE
  if st ≠ 1 ∧ st ≠ 2 then d
  else
    let head := d.draftHead
    let d := if head.isNone then d.policyStatus else d
    match d.checkAndPlace with
    | .reject r i k => d.rejectDraft r i k
    | .ok p =>
      let d := { d with plan := { d.plan with ready := some p, scales := d.freshScales } }
      let d := (d.p Reg.SR_SEED_JOB_SEED_LO (fld d.plan.draft 0x10 4)).p Reg.SR_SEED_JOB_SEED_HI (fld d.plan.draft 0x14 4)
      let d := (d.planEvents p).p Reg.DRAFT_STATUS_STATE 3
      d.sparesView.raise pgDraft 0x0701 8 Sev.info (Dr.stepBeats d.plan.draft)

/-- R293: a job-load placement that has not finished in time. -/
def Dev.placeTimeout (d : Dev) : Dev :=
  let st := d.g Reg.DRAFT_STATUS_STATE
  if st = 1 ∨ st = 2 then (d.passTo (d.plan.loadAt + ms (d.g Reg.DRAFT_LIMIT_PLACE_MS))).rejectDraft 13 0 0 else d

/-! ## Re-plans (R315, R319 to R322) -/

/-- R322: the power system's operating point asks for a re-place: it fell below the one at which the plan fits, or it allows a faster plan. -/
def Dev.fitChanged (d : Dev) : Bool :=
  let lease := d.g Reg.LEASE_LEASE_OP
  decide (lease < d.g Reg.PLAN_RB_FIT_OP ∨ d.g Reg.PLAN_RB_PLAN_OP < min (if d.g Reg.BRINGUP_LEVEL = 2 then 5 else Dr.opPlan d.plan.draft) lease)

/-- R321: a cause joins the pending ones and placement starts again with all of them; a change of the lease operating point is one only where it
changes fit. -/
def Dev.replanStart (cause : Nat) (d : Dev) : Dev :=
  if d.plan.draft = [] ∨ d.plan.live = none ∨ (cause = 4 ∧ ! d.fitChanged) then d
  else
    let first := d.plan.causes.isEmpty
    let d := { d with plan := { d.plan with causes := if d.plan.causes.contains cause then d.plan.causes else d.plan.causes ++ [cause],
                                            causeAt := if first then d.now else d.plan.causeAt, ready := none, replanning := true } }
    if d.g Reg.DRAFT_STATUS_STATE = 3 ∨ d.g Reg.DRAFT_STATUS_STATE = 4 then d.p Reg.DRAFT_STATUS_STATE 5 else d

/-- R322: the planning operating point: the lower of OP_PLAN and the lease operating point, for a lease cause. -/
def Dev.replanOp (d : Dev) : Nat :=
  let op := if d.g Reg.BRINGUP_LEVEL = 2 then 5 else Dr.opPlan d.plan.draft
  if d.plan.causes.contains 4 then min op (d.g Reg.LEASE_LEASE_OP) else op

/-- A re-plan is given up: the plan in force stays. -/
def Dev.replanStops (d : Dev) : Dev :=
  let d := { d with plan := { d.plan with causes := [], replanning := false, ready := none } }
  if d.g Reg.DRAFT_STATUS_STATE = 5 then d.p Reg.DRAFT_STATUS_STATE (if d.g Reg.DRAFT_RUN = 1 then 4 else 3) else d

/-- R320, R322: a re-placement that fails: the package stays FAIL, or keeps the old plan when only the lease had changed. -/
def Dev.replanFails (d : Dev) (code : Nat) : Dev :=
  let lease := d.plan.causes == [4]
  let d := d.replanStops
  if lease then d.raise pgPlanRb 0x070C 11 Sev.warn (d.g Reg.LEASE_LEASE_OP + 16 * d.g Reg.PLAN_RB_FIT_OP)
  else (d.raise pgDraft 0x070D 14 Sev.error code).voteFail

/-- R320, R321: a re-placement finishes. -/
def Dev.replanDone (d : Dev) : Dev :=
  if ! d.plan.replanning then d
  else
    match d.place d.nextFaults d.replanOp with
    | .ok p =>
      let same := d.plan.causes.all (fun c => c == 4 || c == 5)
      if same ∧ d.plan.live.map (·.hash) ≠ some p.hash then d.replanFails 12
      else { d.planEvents p with plan := { d.plan with ready := some p, replanning := false } }
    | .reject r _ _ => d.replanFails r

/-- R293: a re-plan that has not finished LIMIT.REPLAN_MS after its cause, whatever the cause. -/
def Dev.replanTimeout (d : Dev) : Dev :=
  if d.plan.replanning then
    (((d.passTo (d.plan.causeAt + ms (d.g Reg.DRAFT_LIMIT_REPLAN_MS))).replanStops).raise pgDraft 0x070D 14 Sev.error 13).voteFail
  else d

/-! ## Plan commit (R17 to R21, R223, R319, R323) -/

/-- R16, R17, R557: the standby of a cluster enters or leaves service: its blocks are enabled, or clock-gated. -/
def Dev.gateStandby (d : Dev) (c : Nat) (on : Bool) : Dev :=
  (unitPages (c + 16)).foldl (fun (d : Dev) pg =>
    if d.bs pg = Bs.retired then d
    else
      let d := d.hw Hdr.CTL_EN pg (ofB on)
      if on ∧ d.bs pg = Bs.off then d.setBs pg Bs.idle
      else if ! on ∧ (d.bs pg = Bs.idle ∨ d.bs pg = Bs.run) then d.setBs pg Bs.off else d) d

/-- R17, R18, R20: standbys take the positions that the fault map vacates: in each cluster those of the lowest-numbered retired unit of the
whole map, which may take a standby from a unit it replaced before (assumption 108). -/
def Dev.enableStandbys (d : Dev) : Dev :=
  (allRegions.flatMap clustersOf).foldl (fun d c =>
    let d := if (d.cluster c).standbyFor.isSome = (standbyFor d.faults c).isSome then d else d.gateStandby c (standbyFor d.faults c).isSome
    let d := d.setCluster c { d.cluster c with standbyFor := standbyFor d.faults c }
    d.wr Reg.GANG_EMPTY c (emptyMask (emptyUnits d.faults c))) d

/-- R223: a descriptor in flight uses a partition that a plan moves. -/
def Dev.partsBusy (d : Dev) (p : Plan) : Bool := p.parts.any fun x =>
  x.2.zipIdx.any fun (y, i) => (d.rd Reg.HBM_PART_BASE (hbmInst x.1) i, d.rd Reg.HBM_PART_SIZE (hbmInst x.1) i) != y && d.partInFlight x.1 i
/-- R223: HBM_PART of every stack takes the plan's partitions. -/
def Dev.setParts (d : Dev) (p : Plan) : Dev :=
  p.parts.foldl (fun d x =>
    (x.2.zipIdx.foldl (fun d (y, i) => (d.wr Reg.HBM_PART_BASE (hbmInst x.1) y.1 i).wr Reg.HBM_PART_SIZE (hbmInst x.1) y.2 i) d).reloadShadow
      (pageNum 5 (hbmInst x.1) 1)) d

/-- R307: the GANG slots of every cluster take the gangs of its shape, in origin order; shapes 1 × 1 and 1 × 2 take none. -/
def Dev.setGangs (d : Dev) (p : Plan) : Dev :=
  ((allRegions.flatMap clustersOf).filter (! clusterOut d.faults ·)).foldl (fun d c =>
    let ps := match p.gangs.find? fun x => x.1 == c with
      | some (_, r, k) => if r = 0 ∧ k ≤ 1 then [] else (positionsIn d.faults (2 ^ r) (2 ^ k) c).map fun (q : Pos) => (q.row, q.col, r, k)
      | none => []
    let d := (List.range 8).foldl (fun d n =>
      match ps[n]? with
      | some (r, k, gr, gc) =>
        ((((d.wr Reg.GANG_SHAPE_ROWS c gr n).wr Reg.GANG_SHAPE_COLS c gc n).wr Reg.GANG_SHAPE_EN c 1 n).wr
          Reg.GANG_ORIGIN_ROW c r n).wr Reg.GANG_ORIGIN_COL c k n
      | none => d.wr Reg.GANG_SHAPE_EN c 0 n) d
    (d.gangView c).reloadShadow (pgGang c)) d

/-- Where the plan keeps a table of the package, in DRAFT.SRC's coding: after the host window and the carry area of the pantry of the
first stack in service, or at 8 MiB of the load larder at SL2. -/
def Dev.tablePlace (d : Dev) : Nat × Nat :=
  match d.placeStacks d.faults with
  | s :: _ => (2, (128 + d.g Reg.EXCH_CFG_CARRY_MIB) * 2048 + 2 ^ 27 * s)
  | [] => (1, 2 ^ 17)

/-- R323: PLAN_RB at a plan commit. -/
def Dev.planReadBack (d : Dev) (p : Plan) (cause : Nat) : Dev :=
  let f := d.faults
  let cs := (allRegions.flatMap clustersOf).filter (! clusterOut f ·)
  let units := (cs.map fun c => 16 - (emptyUnits f c).length).sum
  let d := (List.range 8).foldl (fun d i => d.p Reg.PLAN_RB_NUMERIC_HASH (fld p.hash (4 * i) 4) i) d
  let d := ((d.p Reg.PLAN_RB_TIMING_ID p.timing).p Reg.PLAN_RB_N_BEATS (Dr.stepBeats d.plan.draft)).p Reg.PLAN_RB_SLICED (sat 16 p.slicedUnits)
  let d := ((d.p Reg.PLAN_RB_USE_UNITS units).p Reg.PLAN_RB_USE_CLUSTERS cs.length).p Reg.PLAN_RB_USE_REGIONS (allRegions.filter (! regionOut f ·)).length
  let d := (d.p Reg.PLAN_RB_USE_DIES (allDies.filter (! dieOut f ·)).length).p Reg.PLAN_RB_USE_STACKS_LO ((List.range 8).filter (! stackOut f ·)).length
  let d := ((d.p Reg.PLAN_RB_FIT_OP p.fitOp).p Reg.PLAN_RB_PLAN_OP p.planOp).p Reg.PLAN_RB_CAUSE cause
  let d := (d.bump Reg.PLAN_RB_REPLANS 0 (if cause = 0 then 0 else 1)).modelPlan (Dr.stepBeats d.plan.draft)
  (d.p Reg.PLAN_RB_TABLE_ADDR d.tablePlace.2).p Reg.PLAN_RB_TABLE_COUNT p.entries.length

/-- R319: the re-plan point of the pending causes has come: START_BEAT for a job load; otherwise the boundary at which a decision applied, a COMMIT
where only the lease operating point changed, and with the route tables committed for a spare takeover. -/
def Dev.replanPoint (d : Dev) : Bool :=
  if d.plan.causes.isEmpty then
    d.plan.live.isNone && d.beatSeen && decide (d.g64 Reg.DRAFT_START_BEAT_LO Reg.DRAFT_START_BEAT_HI ≤ d.beatNum) &&
      d.g Reg.DRAFT_STATUS_STATE == 4
  else
    ! d.stepOpen && (! d.plan.causes.contains 3 || (d.routeLive && ! d.route.pend)) &&
      (d.plan.causes.any (· != 4) || decide (d.g Reg.STEP_REC_STATE_DECISION ≤ 1))

/-- R174: a unit that a plan re-places is no longer stopped. -/
def Dev.restartUnits (d : Dev) (p : Plan) : Dev :=
  ((p.entries.flatMap (·.units)).eraseDups).foldl (fun (d : Dev) u => if d.seqState u = 6 then d.unstop u else d) d

/-- PLAN_COMMIT: a placed plan takes effect at its re-plan point, once no descriptor in flight uses a partition that moves (R223). `lastMs` is how
long the placement took. -/
def Dev.planCommit (lastMs : Nat) (d : Dev) : Dev :=
  match d.plan.ready with
  | none => d
  | some p =>
    if ! d.replanPoint ∨ d.partsBusy p then d
    else
      let f := closeFaults (d.faults ++ p.faults.filter fun x => ! d.faults.contains x)
      let new := f.filter fun x => ! d.faults.contains x
      let cause := match d.plan.causes.getLast? with
        | none => 0
        | some c => if c = 1 ∨ c = 2 then (if new.all (standbyTakes f) then 1 else 2) else c
      let d : Dev := new.foldl (fun (d : Dev) x => (d.recordFault x).retireEvent f x) d
      let d : Dev := { d with due := d.due.filter fun x => ! f.contains x }
      let d := (((d.enableStandbys.setParts p).setGangs p)).restartUnits p
      let d : Dev := { d with plan := { d.plan with live := some p, planned := true, ready := none, causes := [], replanning := false } }
      let d := (d.planReadBack p cause).p Reg.PLAN_RB_LAST_MS lastMs
      let d := if d.g Reg.DRAFT_STATUS_STATE = 5 then d.p Reg.DRAFT_STATUS_STATE (if d.g Reg.DRAFT_RUN = 1 then 4 else 3) else d
      let d := match d.srcAddr d.tablePlace.1 d.tablePlace.2 with
        | some a => d.poke a (p.entries.flatMap PlanEntry.bytes)
        | none => d
      let d := p.staging.foldl (fun (d : Dev) x => d.poke x.1 x.2) d
      d.sparesView.raise pgDraft 0x0704 11 Sev.info (cause + 256 * p.fitOp)

/-! ## Way swaps (R311) -/

/-- R308: the plan's entries on a unit, and the one whose segment runs in a plan beat. -/
def Plan.waysOf (p : Plan) (u : Nat) : List PlanEntry := p.entries.filter fun e => decide (1 < e.ways) && e.units.contains u
def Plan.wayAt (p : Plan) (u b : Nat) : Option PlanEntry :=
  (p.waysOf u).find? fun e => decide (e.start ≤ b ∧ b ≤ e.start + e.span) && (b - e.start) % max 1 e.ways == 0

/-- R312: the images of a unit's ways do not fit in its instruction store together. -/
def Plan.refills (p : Plan) (u : Nat) : Bool := decide (2048 < ((p.waysOf u).map (·.slots)).sum)

/-- R311 item 2: the incoming image of a unit is refilled from its staging copy. -/
def Dev.refillWay (d : Dev) (p : Plan) (b u : Nat) : Dev :=
  match p.wayAt u b with
  | some e =>
    if p.refills u ∧ d.rd Reg.ISTORE_FILL_STAT_STATE u ≠ 1 then
      let d := (d.wr Reg.ISTORE_FILL_SRC u ((e.image - larderBase (regionOf u)) / 64)).wr Reg.ISTORE_FILL_DST u e.slot
      (((d.wr Reg.ISTORE_FILL_SLOTS u e.slots).wr Reg.ISTORE_FILL_CRC u e.crc).fillGo u).2
    else d
  | none => d

/-- The units of a plan that are time-sliced, ascending. -/
def Plan.slicedUnitList (p : Plan) : List Nat :=
  sortBy (fun a b => decide (a ≤ b)) ((p.entries.filter fun e => decide (1 < e.ways)).flatMap (·.units)).eraseDups

/-- R311 items 1 and 2: the movement blocks of a swap enter RMOVE in order, at the phase T_S less the swap time (in units of 100 ns), and the incoming
images are refilled. -/
def Dev.waySwapStart (r : Nat) (swap : Nat) (lines : List Nat) (d : Dev) : Dev :=
  let ph := d.g Reg.BEAT_CFG_T_S - swap
  let d := if d.timerOn ∧ d.g Reg.BEAT_CFG_PHASE < ph then d.passTo (d.now + (ph - d.g Reg.BEAT_CFG_PHASE)) else d
  match d.plan.live with
  | none => d
  | some p =>
    let us := p.slicedUnitList.filter fun u => regionOf u == r
    if us = [] then d
    else
      let d := lines.zipIdx.foldl (fun d (l, i) =>
        if engCap true ≤ (d.eng true r).queue.length ∨ (d.stateCode (pgRmove r)).isSome then d
        else
          let d := d.wr Reg.RMOVE_OPEN_TAGS r (setBit (d.rd Reg.RMOVE_OPEN_TAGS r) (i % 16))
          d.accept true r { addr := larderBase r + 64 * l, kicker := none, tag := i % 16, home := r, atRegion := true, heldAt := d.now, planned := true }) d
      if d.stepOpen then us.foldl (fun d u => d.refillWay p (d.beatNum + 1 - d.stepStart) u) d else d

/-- R311 item 3, R297: at a boundary that begins plan beat `b` the SEQ page of a time-sliced unit commits the way whose segment runs in it, under
R207, and its start is written; the program begins in this beat (assumption 121). -/
def Dev.startWay (b : Nat) (p : Plan) (d : Dev) (u : Nat) : Dev :=
  match p.wayAt u b with
  | none => d
  | some e =>
    let slots := (List.range e.slots).map (e.slot + ·)
    if ! [0, 5].contains (d.seqState u) ∨ slots.any (d.unit u).unfit.contains then d
    else
      let d := (d.wr Reg.SEQ_IMG_LO u e.slot).wr Reg.SEQ_IMG_HI u (e.slot + e.slots - 1)
      let d := (d.wr Reg.SEQ_PROG_ENTRY u (e.slot + e.starts.getD ((b - e.start) / max 1 e.ways) 0)).wr Reg.SEQ_PROG_SEG_BASE u (e.slot + e.bundles)
      let d := (d.reloadShadow (pgSeq u)).wr Reg.SEQ_STATE_SEQ u 1
      d.setUnit u { d.unit u with startAt := d.boundary - 1 }

/-- R304: the plan beat of the running step, or of the step that begins now. -/
def Dev.planBeatNow (d : Dev) : Option Nat :=
  if d.stepOpen then some (d.beatNum - d.stepStart) else if d.step.next = some d.beatNum then some 0 else none

/-- R311: the ways that run in the beat which begins. -/
def Dev.startWays (d : Dev) : Dev :=
  match d.planBeatNow, d.plan.live with
  | some b, some p => p.slicedUnitList.foldl (fun d u => d.startWay b p u) d
  | _, _ => d

def execDraftCmdLoad (r : Requester) (s : State) : Host.Outcome State Fault Refusal :=
  runDev s (fun d => d.action r pgDraft 0x090 true (Dev.draftLoad s.mem))

def execDraftCmdAbort (r : Requester) (s : State) : Host.Outcome State Fault Refusal :=
  runDev s (fun d => d.action r pgDraft 0x090 false Dev.draftAbort)

def execPlacementDone (s : State) : Host.Outcome State Fault Refusal := runDev s Dev.placementDone

def execPlaceTimeout (s : State) : Host.Outcome State Fault Refusal := runDev s Dev.placeTimeout

def execReplanStart (cause : BitVec 3) (s : State) : Host.Outcome State Fault Refusal := runDev s (Dev.replanStart cause.toNat)

def execReplanDone (s : State) : Host.Outcome State Fault Refusal := runDev s Dev.replanDone

def execReplanTimeout (s : State) : Host.Outcome State Fault Refusal := runDev s Dev.replanTimeout

end Sys2Proof.Machine
end

