-- ==== Sys2Proof/Machine/Numerics.lean ====
section
/-! DEFINITION. The numeric state of managed tensors: observation, triggers, corrections, rounds, the update at a commit, warm-up
and the watch (R332 to R348, R356 to R359). -/

namespace Sys2Proof.Machine

/-! ## The policy of a tensor and its state -/

/-- R296, R331: the policy index of a managed tensor. -/
def Dev.polOf (d : Dev) (t : Nat) : Nat := ((Dr.tensorIdx d.plan.draft t).map (Dr.tPolicy d.plan.draft)).getD 0

/-- R338: the scale state of a managed tensor. -/
def Dev.scale (d : Dev) (t : Nat) : ScaleSt := SMap.at d.plan.scales t { tensor := t }
def Dev.setScale (d : Dev) (t : Nat) (x : ScaleSt) : Dev := { d with plan := { d.plan with scales := SMap.put d.plan.scales t x } }

/-- R336: a tensor at level 0 whose E_RUN is undefined runs at level 1. -/
def ScaleSt.runLevel (x : ScaleSt) : Nat := if x.level = 0 ∧ x.eRun = none then 1 else x.level

/-- R336: the supplied scale word of a tensor. -/
def ScaleSt.supplied (x : ScaleSt) (headroom : Nat) : Nat :=
  (max 1 (min 254 ((x.eRun.getD 0) + headroom + 127))).toNat

/-- R336: the binade of an observed maximum, given as an FP32 word; none unless it is a finite normal number above 0. -/
def eObs (w : Nat) : Option Int :=
  match FFmt.f32.decode w with
  | .num false v false => if v.m = 0 then none else some (min (v.top + 1) 127)
  | _ => none

/-- R338: the eight bytes of a scale-state record. -/
def ScaleSt.record (x : ScaleSt) : List Byte :=
  natLe 8 (x.tensor + 2 ^ 24 * wrapI 8 (x.eRun.getD (-128)) + 2 ^ 32 * x.quiet + 2 ^ 40 * x.calm + 2 ^ 48 * x.level +
    2 ^ 50 * x.warmLeft + 2 ^ 62 * ofB x.warm)

/-- R338: the state that a record holds. -/
def scaleOfRecord (b : List Byte) : ScaleSt :=
  let w := fld b 0 8
  let e := sInt 8 (bits w 24 8)
  { tensor := bits w 0 24, eRun := if e = -128 then none else some e, quiet := bits w 32 8, calm := bits w 40 8,
    level := bits w 48 2, warmLeft := bits w 50 12, warm := bit w 62 }

/-- R358: the tensors in warm-up. -/
def Dev.warmCount (d : Dev) : Dev := d.p Reg.WATCH_WARM (sat 16 (d.plan.scales.filter (fun p => p.2.warm)).length)

/-- A tensor takes a state; a change of its level is counted and reported (R358, R359). -/
def Dev.takeScale (d : Dev) (x : ScaleSt) : Dev :=
  let old := (d.scale x.tensor).level
  let d := d.setScale x.tensor x
  if x.level = old then d
  else
    let d := d.bump (if old < x.level then Reg.WATCH_LEVEL_UPS else Reg.WATCH_LEVEL_DOWNS) 0
    (d.p Reg.WATCH_LAST_TENSOR x.tensor).raise pgWatch 0x0802 9 Sev.info (x.tensor + 2 ^ 24 * old + 2 ^ 26 * x.level)

/-- R346: a tensor whose scale history is lost starts in warm-up. -/
def Dev.warmStart (d : Dev) (t : Nat) : Dev :=
  (d.setScale t { tensor := t, eRun := none, quiet := 0, calm := 0, level := 2,
                  warmLeft := Pol.warmSteps d.plan.policy (d.polOf t), warm := true }).warmCount.raise pgWatch 0x0806 13 Sev.info t

/-! ## Observations (R334, R336, R337, R347) -/

/-- R334: one harvested observation line: its slot entry, its instance and its sixteen words. -/
structure ObsLine where
  slot : Nat
  inst : Nat
  line : Nat
  deriving DecidableEq, Repr
def ObsLine.word (o : ObsLine) (i : Nat) : Nat := bits o.line (32 * i) 32

/-- R336: the larger of two maxima as FP32 words; a NaN stands, and nothing is below +0. -/
def maxWord (a b : Nat) : Nat :=
  match FFmt.f32.decode a, FFmt.f32.decode b with
  | .nan _, _ => a
  | _, .nan _ => b
  | _, .inf false => b
  | _, .num false _ _ => max a b
  | _, _ => a

/-- R333: where the numeric control area of an instance begins in a unit of its gang. -/
def PlanEntry.area (e : PlanEntry) (u : Nat) : Nat := lsBase u + e.ls

/-- R335, R337: the line of a slot of an instance: its harvested copy, or, until the harvest, the leader's local store. -/
def Dev.obsLine (d : Dev) (m : Mem) (e : PlanEntry) (n : Nat) : List Byte :=
  if d.step.harvested.contains (e.stage, e.inst) then m.bytes (e.lines + 64 * n) 64 else m.bytes (e.area e.leader + 512 * n + 0x100) 64

/-- R335, R337: the observation lines of the plan's instances, in ascending slot-entry and instance order. -/
def Dev.obsLines (d : Dev) (m : Mem) : List ObsLine :=
  let p := d.plan.policy
  let es := ((d.plan.live.map (·.entries)).getD []).filter fun e => Pol.controls p e.stage
  sortBy (fun a b => decide (a.slot < b.slot ∨ a.slot = b.slot ∧ a.inst ≤ b.inst))
    (es.flatMap fun e => (List.range 8).filterMap fun n => (Pol.entryOf p e.stage n).map fun i => ⟨i, e.inst, leNat (d.obsLine m e n)⟩)

/-- R334, R336: what an attempt observed of a tensor. -/
def observed (p : List Byte) (ls : List ObsLine) (t : Nat) : TensorObs :=
  let ms := ls.filter fun o => Pol.slTensor p o.slot == t
  let sum := fun i => (ms.map (ObsLine.word · i)).sum
  { tensor := t, sat := sum 0, crush := sum 1, zero := sum 2, allSat := sum 3,
    maxWord := (ms.map (ObsLine.word · 4)).foldl maxWord 0 }

/-- R347: the layers named by WATCH_W slots, ascending. -/
def watchLayers (p : List Byte) : List Nat :=
  sortBy (fun a b => decide (a ≤ b)) (((List.range (Pol.nSlots p)).filter (Pol.slWatch p)).map (Pol.slLayer p)).eraseDups

/-- R347: an FP32 sum over words in order, RNE with the flushing of R81. -/
def sumWords (ws : List Nat) : Nat :=
  ws.foldl (fun a w => (FFmt.f32.addFast .rne false (FFmt.f32.decode a) (FFmt.f32.decode w)).w) 0

/-- R347: whether a layer breaks its watch: SD > RATIO_MAX² × SW, the square rounded once to FP32. -/
def watchBroken (p : List Byte) (ls : List ObsLine) (layer pol : Nat) : Bool :=
  let ms := ls.filter fun o => Pol.slWatch p o.slot && Pol.slLayer p o.slot == layer
  let sd := FFmt.f32.decode (sumWords (ms.map (ObsLine.word · 5)))
  let sw := FFmt.f32.decode (sumWords (ms.map (ObsLine.word · 6)))
  let r := FFmt.f32.decode (Pol.ratioMax p pol)
  let r2 := FFmt.f32.decode (FFmt.f32.mulFast .rne r r).w
  match sd, sw, r2 with
  | .inf false, .num _ _ _, .num _ _ _ => true
  | .num _ a _, .num _ b _, .num _ c _ => (c.mul b).lt a
  | .num _ a _, .num _ b _, .inf _ => b.isZero && Dy.zero.lt a
  | _, _, _ => false

/-! ## The numeric control areas (R333 to R336) -/

/-- R333, R335: one slot of a control area: the masks of the three levels, the supplied scale word 32 times, and a zeroed observation line. The word of
a tensor without a running estimate, which no conversion uses, is a free value. -/
def Dev.fillSlot (d : Dev) (e : PlanEntry) (a n : Nat) : Dev :=
  let p := d.plan.policy
  let masks := fun (on : Nat → Bool) (d : Dev) =>
    (List.range 3).foldl (fun (d : Dev) k => d.poke (a + 64 * k) (List.replicate 32 (if on k then 255 else 0))) (d.poke (a + 0x100) (List.replicate 64 0))
  match Pol.entryOf p e.stage n with
  | none => masks (fun _ => false) d
  | some i =>
    let t := Pol.slTensor p i
    let x := d.scale t
    let w := if x.eRun.isSome then (x.supplied (Pol.headroom p (d.polOf t)), d) else ((Config.freeWord d.draw.1).toNat, d.draw.2)
    (masks (fun k => x.runLevel == k) w.2).poke (a + 0xC0) (List.replicate 32 (natLe 2 w.1)).flatten

/-- R335: the fill block of an instance. -/
def Dev.fillArea (d : Dev) (e : PlanEntry) : Dev :=
  if ! Pol.controls d.plan.policy e.stage then d
  else e.units.foldl (fun (d : Dev) u => (List.range 8).foldl (fun (d : Dev) n => d.fillSlot e (e.area u + 512 * n) n) d) d

/-- R335: the harvest block of an instance. -/
def Dev.harvest (m : Mem) (d : Dev) (e : PlanEntry) : Dev :=
  if ! Pol.controls d.plan.policy e.stage ∨ d.step.harvested.contains (e.stage, e.inst) then d
  else
    let d := (List.range 8).foldl (fun (d : Dev) n => d.poke (e.lines + 64 * n) (d.obsLine m e n)) d
    { d with step := { d.step with harvested := d.step.harvested ++ [(e.stage, e.inst)] } }

/-- R335: at a boundary the instances whose last segment has ended are harvested and those whose first segment begins are filled. -/
def Dev.controlAreas (m : Mem) (d : Dev) : Dev :=
  match d.planBeatNow, d.plan.live with
  | some b, some p =>
    let d := if d.stepOpen then (p.entries.filter fun (e : PlanEntry) => decide (e.start + e.span < b) && ! [2, 4].contains (d.seqState e.leader)).foldl (Dev.harvest m) d else d
    (p.entries.filter fun (e : PlanEntry) => e.start == b).foldl Dev.fillArea d
  | _, _ => d

/-- WAY_SWAP_START: the ways that have ended are harvested before their areas leave (R335). -/
def Dev.swapStart (m : Mem) (r swap : Nat) (lines : List Nat) (d : Dev) : Dev :=
  let d := match d.planBeatNow, d.plan.live with
    | some b, some p =>
      if d.stepOpen then (p.entries.filter fun (e : PlanEntry) => decide (1 < e.ways ∧ e.start + e.span = b ∧ regionOf e.leader = r)).foldl (Dev.harvest m) d else d
    | _, _ => d
  d.waySwapStart r swap lines

/-! ## Triggers (R339 to R341, R344, R347) -/

/-- The state that a correction gives a tensor. -/
def Correction.apply (c : Correction) (x : ScaleSt) : ScaleSt :=
  { x with eRun := match c.eRun with | some e => some e | none => x.eRun, quiet := if c.quiet then 0 else x.quiet, level := c.level }

/-- R339: the SAT and ZERO triggers of a tensor and the correction they stage. With `esc` (R340) a tensor that may goes to
level 2. -/
def tensorTrigger (p : List Byte) (pol : Nat) (x : ScaleSt) (o : TensorObs) (esc : Bool) : Bool × Bool × Correction :=
  let e := eObs o.maxWord
  let sat := x.runLevel == 0 && (decide (Pol.satTol p pol < o.sat) || decide (0 < o.allSat))
  let zero := x.runLevel == 0 && decide (Pol.zeroTol p pol < o.zero)
  let below := match e, x.eRun with | some a, some b => decide (a < b) | _, _ => false
  let up := if 1 ≤ Pol.maxLevel p pol then 1 else x.level
  let lvl := if esc ∧ Pol.maxLevel p pol = 2 ∧ (sat ∨ zero) then 2
    else if zero ∧ (sat ∨ ! below) then up else x.level
  let er := if sat ∨ (zero ∧ below) then e else none
  let c : Correction := ⟨x.tensor, er, sat && e.isSome, lvl⟩
  let acts := decide (c.apply x ≠ x) || (sat && x.eRun == some 127 && e == some 127)
  (sat && acts, zero && acts, c)

/-- What an evaluation comes to: the causes as bits of STATE.CAUSES, the corrections, the layers to skip and to flag, the first
tensor of each cause, and whether the package must fail, with the cause's bit position and the tensor. -/
structure Evaluation where
  causes : Nat := 0
  staged : List Correction := []
  skips : List Nat := []
  flags : List Nat := []
  fail : Option (Nat × Nat) := none
  last : Option Nat := none
  deriving DecidableEq, Repr

/-- A correction joins the staged ones: with an earlier one for the tensor, the higher level and either's E_RUN stand. -/
def stage (cs : List Correction) (c : Correction) : List Correction :=
  match cs with
  | [] => [c]
  | x :: xs =>
    if x.tensor = c.tensor then ⟨c.tensor, x.eRun.or c.eRun, x.quiet || c.quiet, max x.level c.level⟩ :: xs
    else if c.tensor < x.tensor then c :: x :: xs
    else x :: stage xs c

/-- R339, R341, R347: the tensors among `ts` below level 2 that may go there. -/
def Dev.raisable (d : Dev) (ts : List Nat) : List Nat :=
  ts.filter fun t => decide ((d.scale t).level < 2 ∧ Pol.maxLevel d.plan.policy (d.polOf t) = 2)

/-- R339, R340: SAT and ZERO of one tensor taken into the evaluation. -/
def Dev.evalTensor (d : Dev) (esc : Bool) (v : Evaluation) (o : TensorObs) : Evaluation :=
  let r := tensorTrigger d.plan.policy (d.polOf o.tensor) (d.scale o.tensor) o esc
  if r.1 ∨ r.2.1 then
    { v with causes := v.causes ||| ofB r.1 ||| 2 * ofB r.2.1, staged := stage v.staged r.2.2, last := some o.tensor,
             fail := if d.g Reg.SCALE_POL_NR_LIMIT < d.g Reg.WATCH_STATE_ROUND ∧ v.fail = none then some (if r.1 then 5 else 6, o.tensor)
                     else v.fail }
  else v

/-- R339, R341: NAN. -/
def Dev.evalNan (d : Dev) (nan : Bool) (v : Evaluation) : Evaluation :=
  let up := d.raisable (managed d.plan.policy)
  let later := match d.plan.nanRound with | some r => decide (r < d.g Reg.WATCH_STATE_ROUND) | none => false
  if ! nan then v
  else if d.g Reg.SCALE_POL_NAN_ACT = 0 ∨ later = true ∨ (up ≠ [] ∧ d.g Reg.SCALE_POL_NR_LIMIT < d.g Reg.WATCH_STATE_ROUND) then
    { v with causes := v.causes ||| 4, fail := v.fail.or (some (7, 0xFFFFFF)) }
  else if up = [] then v
  else { v with causes := v.causes ||| 4, staged := up.foldl (fun cs t => stage cs ⟨t, none, false, 2⟩) v.staged }

/-- R347: the watch of one layer. -/
def Dev.evalLayer (d : Dev) (ls : List ObsLine) (v : Evaluation) (layer : Nat) : Evaluation :=
  let p := d.plan.policy
  let ss := (List.range (Pol.nSlots p)).filter fun i => Pol.slLayer p i == layer
  let pol := d.polOf (Pol.slTensor p (ss.headD 0))
  let up := d.raisable (ss.map (Pol.slTensor p)).eraseDups
  if ! watchBroken p ls layer pol then v
  else match Pol.watchAct p pol with
    | 0 => v
    | 1 => { v with flags := v.flags ++ [layer] }
    | 2 => { v with skips := v.skips ++ [layer] }
    | _ =>
      if d.g Reg.SCALE_POL_NR_LIMIT ≤ d.g Reg.WATCH_STATE_ROUND ∨ up = [] then { v with skips := v.skips ++ [layer] }
      else { v with causes := v.causes ||| 8, staged := up.foldl (fun cs t => stage cs ⟨t, none, false, 2⟩) v.staged }

/-- R339: the whole evaluation of an attempt. -/
def Dev.evaluation (d : Dev) (ls : List ObsLine) (os : List TensorObs) : Evaluation :=
  let esc := decide (d.g Reg.SCALE_POL_NR_LIMIT ≤ d.g Reg.WATCH_STATE_ROUND)
  let nan := d.step.nan || os.any (fun o => match FFmt.f32.decode o.maxWord with | .nan _ => true | _ => false)
  let v := os.foldl (d.evalTensor esc) {}
  let v := d.evalNan nan v
  let v := (watchLayers d.plan.policy).foldl (d.evalLayer ls) v
  if v.fail = none ∧ v.staged ≠ [] ∧ d.g Reg.SCALE_POL_DIRTY_LIMIT ≤ d.g Reg.WATCH_STATE_DIRTY_RUN then
    { v with fail := some (9, ((v.staged.head?).map (·.tensor)).getD 0) }
  else v

/-- R335: where the observation line of slot `n` of the plan's entry `k` lies. -/
def Dev.obsPlace (d : Dev) (k n : Nat) : Option Nat :=
  (((d.plan.live.map (·.entries)).getD [])[k]?).bind fun e => if (Pol.entryOf d.plan.policy e.stage n).isSome then some (e.lines + 64 * n) else none

/-- R213, R216: what the code of a larder said of a read at address `a`. -/
def Dev.larderRead (d : Dev) (e : Ecc) (a : Nat) : Dev :=
  let r := (a - larderBase 0) / 2 ^ 24 * 256
  d.larderEcc e r ((a - larderBase r) / 64)

/-- R336 to R341: the keeper evaluates the attempt from its observation lines. -/
def Dev.evaluate (d : Dev) (ls : List ObsLine) : Dev :=
  let os := (managed d.plan.policy).map (observed d.plan.policy ls)
  let v := d.evaluation ls os
  let round := d.g Reg.WATCH_STATE_ROUND
  let nanRound := if bit v.causes 2 ∧ d.plan.nanRound = none then some round else d.plan.nanRound
  let d := { d with plan := { d.plan with obs := os, staged := v.staged, skips := v.skips, nanRound := nanRound },
                    step := { d.step with evaluated := true } }
  let d := d.p Reg.WATCH_STATE_CAUSES (v.causes + 16 * ofB d.step.dirty)
  let d := match v.last with | some t => d.p Reg.WATCH_LAST_TENSOR t | none => d
  let d := v.flags.foldl (fun d l => d.raise pgWatch 0x0803 10 Sev.warn l) d
  let d := v.skips.foldl (fun d l => d.raise pgWatch 0x0804 11 Sev.warn l) d
  match v.fail with
  | some (c, t) => (d.raise pgWatch 0x0805 12 Sev.error (t + 2 ^ 24 * c)).voteFor 3 false
  | none => if v.causes % 16 = 0 then d else d.voteFor 2 false

/-- NUMERIC_EVALUATION: once the harvest blocks of the running attempt have landed. An observation line that is lost to an uncorrectable error spoils the
step (R216), and nothing is evaluated. -/
def Dev.numericEvaluation (m : Mem) (ecc : Ecc) (k n : Nat) (d : Dev) : Dev :=
  if ! d.stepOpen || d.step.evaluated then d
  else
    let h := ((d.plan.live.map (·.entries)).getD []).foldl (Dev.harvest m) d
    match d.obsPlace k n with
    | none => h.evaluate (d.obsLines m)
    | some a =>
      let e := h.larderRead ecc a
      if ecc = .uncorrectable then { e with step := { e.step with evaluated := true } } else e.evaluate (d.obsLines m)

/-! ## Decisions (R337, R343) -/

/-- R337: the E_RUN part of the update of a tensor at a commit. -/
def updateE (p : List Byte) (pol : Nat) (x : ScaleSt) (o : TensorObs) : ScaleSt :=
  let rise : Option Int := match eObs o.maxWord with
    | some e => (match x.eRun with | none => some e | some r => if r ≤ e then some e else none)
    | none => none
  match rise, x.eRun with
  | some e, _ => { x with eRun := some e, quiet := 0 }
  | none, some r =>
    if x.quiet + 1 = Pol.decaySteps p pol then { x with eRun := some (max (r - 1) (-126)), quiet := 0 }
    else { x with quiet := x.quiet + 1 }
  | none, none => x

/-- R337: the LEVEL part of the update. -/
def updateLevel (p : List Byte) (pol : Nat) (x : ScaleSt) (o : TensorObs) : ScaleSt :=
  if x.warm then
    if x.eRun = none then x
    else if x.warmLeft - 1 = 0 then { x with warmLeft := 0, level := Pol.baseLevel p pol, warm := false }
    else { x with warmLeft := x.warmLeft - 1 }
  else if Pol.crushMax p pol < o.crush ∧ x.level < Pol.maxLevel p pol ∧ Pol.crushAct p pol ≠ 0 then
    { x with level := if Pol.crushAct p pol = 2 then 2 else x.level + 1, calm := 0 }
  else if Pol.baseLevel p pol < x.level ∧ o.crush ≤ Pol.crushMax p pol / 4 then
    (if x.calm + 1 = Pol.calmSteps p pol then { x with level := x.level - 1, calm := 0 } else { x with calm := x.calm + 1 })
  else { x with calm := 0 }

/-- R337: one tensor at a commit. -/
def Dev.commitTensor (d : Dev) (t : Nat) : Dev :=
  let p := d.plan.policy
  let pol := d.polOf t
  let o := (d.plan.obs.find? (fun o => o.tensor == t)).getD ⟨t, 0, 0, 0, 0, 0⟩
  let old := d.scale t
  let x := updateLevel p pol (updateE p pol old o) o
  let d := d.takeScale x
  if old.warm && ! x.warm then d.raise pgWatch 0x0807 14 Sev.info t else d

/-- The records of an attempt's evaluation go. -/
def Dev.clearEvaluation (d : Dev) : Dev :=
  { d with plan := { d.plan with obs := [], staged := [], skips := [] }, step := { d.step with nan := false, evaluated := false } }

/-- R337, R340, R347: the numeric state at a COMMIT. -/
def Dev.numericCommit (d : Dev) : Dev :=
  let d := (managed d.plan.policy).foldl Dev.commitTensor d
  let d := (d.bump Reg.WATCH_SKIPS 0 d.plan.skips.length).warmCount
  let d := { d with plan := { d.plan with nanRound := none } }
  ((d.p Reg.WATCH_STATE_ROUND 0).p Reg.WATCH_STATE_DIRTY_RUN 0).clearEvaluation

/-- R343: the numeric state at a REPLAY, with the system DIRTY. -/
def Dev.numericReplay (d : Dev) (dirty : Bool) : Dev :=
  if ! dirty then
    let d := d.plan.staged.foldl (fun d c => d.takeScale (c.apply (d.scale c.tensor))) d
    let d := (d.p Reg.WATCH_STATE_ROUND (d.g Reg.WATCH_STATE_ROUND + 1)).p Reg.WATCH_STATE_DIRTY_RUN 0
    let d := d.bump Reg.WATCH_REPLAYS 0
    (d.raise pgWatch 0x0801 8 Sev.info (d.g Reg.WATCH_STATE_ROUND + 32 * d.g Reg.WATCH_STATE_CAUSES)).clearEvaluation
  else
    let d := d.p Reg.WATCH_STATE_CAUSES (d.g Reg.WATCH_STATE_CAUSES ||| 16)
    if d.plan.staged = [] then (d.p Reg.WATCH_STATE_DIRTY_RUN 0).clearEvaluation
    else
      let n := sat 4 (d.g Reg.WATCH_STATE_DIRTY_RUN + 1)
      (((d.p Reg.WATCH_STATE_DIRTY_RUN n).bump Reg.WATCH_DISCARDS 0).raise pgWatch 0x0809 15 Sev.warn n).clearEvaluation

/-- R343: the numeric state at a RECOVER. -/
def Dev.numericRecover (d : Dev) : Dev := (d.p Reg.WATCH_STATE_DIRTY_RUN 0).clearEvaluation

/-! ## Registers (R357, R358) -/

/-- R357: TEST.WORD: the word of SR32 for JOB_SEED and the TEST fields. -/
def Dev.testWord (d : Dev) : Nat :=
  let k := srKeyOf (d.g Reg.SR_SEED_JOB_SEED_LO) (d.g Reg.SR_SEED_JOB_SEED_HI) (d.g Reg.SR_SEED_TEST_STEP_LO)
    (d.g Reg.SR_SEED_TEST_STEP_HI) (d.g Reg.SR_SEED_TEST_TENSOR)
  sr32 k.1 k.2 (d.g Reg.SR_SEED_TEST_INDEX)

/-- R358: WATCH.CNT_CLR. -/
def Dev.watchCntClr (d : Dev) : Dev :=
  d.clearFields 0 [Reg.WATCH_REPLAYS, Reg.WATCH_DISCARDS, Reg.WATCH_LEVEL_UPS, Reg.WATCH_LEVEL_DOWNS, Reg.WATCH_SKIPS]

def execNumericEvaluation (obs : ObsRead) (s : State) : Host.Outcome State Fault Refusal :=
  runMem s fun m d => d.numericEvaluation m obs.ecc obs.entry.toNat obs.slot.toNat

def execWaySwapStart (r : BitVec 12) (swap : BitVec 15) (lines : List (BitVec 18)) (s : State) : Host.Outcome State Fault Refusal :=
  runMem s fun m => Dev.swapStart m r.toNat swap.toNat (lines.map BitVec.toNat)

def execWatchCntClr (r : Requester) (s : State) : Host.Outcome State Fault Refusal :=
  runDev s fun d => d.action r pgWatch 0x094 false fun d => (Cc.done, d.watchCntClr)

end Sys2Proof.Machine
end

