-- ==== Sys2Proof/Machine/Exchange.lean ====
section
/-! DEFINITION. Gradient exchange: encode and decode, contributions, deadlines, late contributions, carries and the ledger (R278 to
R285, R360 to R384). -/

namespace Sys2Proof.Machine

def pgExchCfg : Nat := pageNum 11 0 0
def pgLedger : Nat := pageNum 11 0 1

/-! ## Deadlines -/

/-- R377: the boundary beat of a reduction's deadline: plan beat DEADLINE as a system beat. -/
def Dev.deadlineBeat (d : Dev) (i : Nat) : Nat := d.stepStart + Dr.rDeadline d.plan.draft i

def Dev.forcedMode (d : Dev) : Bool := d.g Reg.STEP_REC_LEDGER_MODE == 1

/-! ## The ledger (R282 to R285) -/

/-- R283: the order of entries. -/
def LedgerEntry.key (e : LedgerEntry) : List Nat := [e.red, e.shard, e.kind, e.origin, e.first]
def keyLt : List Nat → List Nat → Bool
  | x :: xs, y :: ys => decide (x < y) || (x == y && keyLt xs ys)
  | _, _ => false

/-- The earlier of two arrivals; none is never. -/
def minArrival : Option Int → Option Int → Option Int
  | some a, some b => some (min a b)
  | some a, none => some a
  | none, b => b

/-- R283: neighbours that one range can cover are joined. -/
def joinEntries : List LedgerEntry → List LedgerEntry
  | [] => []
  | e :: es =>
    match joinEntries es with
    | f :: fs =>
      if (e.red, e.shard, e.kind, e.origin) = (f.red, f.shard, f.kind, f.origin) ∧ f.first ≤ e.first + e.count then
        { e with count := max (e.first + e.count) (f.first + f.count) - e.first, arrival := minArrival e.arrival f.arrival } :: fs
      else e :: f :: fs
    | [] => [e]

/-- R283: a ledger with an entry added, in canonical order. -/
def ledgerAdd (l : List LedgerEntry) (e : LedgerEntry) : List LedgerEntry :=
  joinEntries (l.takeWhile (fun x => keyLt x.key e.key) ++ [e] ++ l.dropWhile (fun x => keyLt x.key e.key))

/-- R282: the 32 bytes of an entry. -/
def LedgerEntry.bytes (e : LedgerEntry) : List Byte :=
  natLe 4 (e.red + 2 ^ 24 * e.kind) ++ natLe 4 e.shard ++ natLe 4 e.first ++ natLe 4 e.count ++ natLe 8 e.origin ++
    natLe 4 (match e.arrival with | some a => wrapI 32 a | none => 0x7FFFFFFF) ++ natLe 4 0

/-- R282: the entry that 32 bytes hold. -/
def entryOf (b : List Byte) : LedgerEntry :=
  let a := fld b 24 4
  ⟨fld b 0 3, fld b 4 4, fld b 3 1, fld b 8 3 % 2 ^ 18, fld b 12 3 % 2 ^ 18, fld b 16 8, if a = 0x7FFFFFFF then none else some (sInt 32 a)⟩

/-- R284: LEDGER_DIGEST. -/
def ledgerDigest (l : List LedgerEntry) : List Byte := shake256 (l.flatMap fun e => { e with arrival := some 0 }.bytes)

/-- R383, R286: the counts of the attempt's ledger. -/
def Dev.ledgerView (d : Dev) : Dev :=
  let n := fun k => sat 16 (d.step.ledger.filter (fun e => e.kind == k)).length
  let d := (d.p Reg.LEDGER_DROPPED (n 1)).p Reg.LEDGER_DEFERRED (n 2)
  ((d.p Reg.LEDGER_APPLIED (n 3)).p Reg.LEDGER_DISCARDED (n 4)).p Reg.STEP_REC_LEDGER_COUNT d.step.ledger.length

/-- R285, R342: one entry written; the ledger stops at 16,384 entries, and a DROPPED or DEFERRED entry of a LIVE ledger makes the
attempt dirty. -/
def Dev.addEntry (d : Dev) (e : LedgerEntry) : Dev :=
  if d.g Reg.STEP_REC_LEDGER_TRUNCATED = 1 then d
  else
    let l := ledgerAdd d.step.ledger e
    if 16384 < l.length then (d.p Reg.STEP_REC_LEDGER_TRUNCATED 1).raise pgStepRec 0x060B 9 Sev.error e.red
    else
      let dirty := d.step.dirty || (e.kind ≤ 2 && ! d.forcedMode)
      { d with step := { d.step with ledger := l, dirty := dirty } }.ledgerView

/-- R381: the kind that the supplied ledger gives a contribution of the running step, none when it does not name it. -/
def Dev.forcedKind (d : Dev) (i sender : Nat) : Option Nat :=
  let stepNo := d.g64 Reg.STEP_REC_STEP_LO Reg.STEP_REC_STEP_HI
  (d.step.forced.find? fun e => e.red == Dr.rId d.plan.draft i && e.shard == d.ownShard i && e.kind != 3 && e.origin == stepNo &&
    decide (e.first ≤ sender ∧ sender < e.first + e.count)).map (·.kind)

/-! ## Carries (R378, R379) -/

/-- R378: the carry area in bytes, and how much of it is used. -/
def Dev.carryRoom (d : Dev) : Nat := d.g Reg.EXCH_CFG_CARRY_MIB * 2 ^ 20 * ((List.range 8).filter (! stackOut d.faults ·)).length
def Dev.carryUsed (d : Dev) : Nat := (d.step.carries.map (·.bytes.length)).sum
def Dev.setCarries (d : Dev) (cs : List Carry) : Dev :=
  let d := { d with step := { d.step with carries := cs } }
  d.p Reg.EXCH_CFG_CARRY_USED_KIB ((d.carryUsed + 1023) / 1024)

/-- R378: a contribution copied to the carry area: whether it fitted. -/
def Dev.carry (d : Dev) (c : Carry) : Bool × Dev :=
  if d.carryUsed + c.bytes.length ≤ d.carryRoom then (true, d.setCarries (d.step.carries ++ [c]))
  else (false, d.raise pgExchCfg 0x0905 10 Sev.warn c.red)

/-- R379: a COMMIT releases the live carries and makes the deferred ones live; a REPLAY discards the deferred ones. -/
def Dev.commitCarries (d : Dev) : Dev := d.setCarries ((d.step.carries.filter (! ·.live)).map fun c => { c with live := true })
def Dev.replayCarries (d : Dev) : Dev := d.setCarries (d.step.carries.filter (·.live))

/-! ## Landing and deadlines (R371, R374, R377) -/

/-- R377: the first late contribution of a step is reported. -/
def Dev.lateEvent (d : Dev) (red : Nat) : Dev :=
  if d.step.lateSeen then d else { d with step := { d.step with lateSeen := true } }.raise pgLedger 0x0901 8 Sev.info red

/-- R377, R381: the entry of a contribution that is late or named by the supplied ledger. `arrival` is none when it never landed;
then nothing is carried. -/
def Dev.settle (d : Dev) (i g sender kind : Nat) (arrival : Option Int) (bytes : List Byte) : Dev :=
  let red := Dr.rId d.plan.draft i
  let sh := d.ownShard i
  let stepNo := d.g64 Reg.STEP_REC_STEP_LO Reg.STEP_REC_STEP_HI
  let entry := fun k => (⟨red, sh, k, sender, 1, stepNo, arrival⟩ : LedgerEntry)
  if kind = 2 ∧ arrival.isSome then
    let r := d.carry ⟨red, sh, stepNo, g, sender, arrival, bytes, false⟩
    r.2.addEntry (entry (if r.1 then 2 else 4))
  else d.addEntry (entry kind)

/-- R371: CRC and decode failures. -/
def Dev.contribBad (d : Dev) (sender : Nat) : Dev :=
  ((d.count Reg.EXCH_CFG_CRC_FAIL 0).raise pgExchCfg 0x0903 8 Sev.error sender).voteReplay

/-- CONTRIBUTION_LAND: the last shuttle of a contribution has been written at `a`. -/
def Dev.contributionLand (m : Mem) (a : Nat) (d : Dev) : Dev :=
  let head := m.bytes a 48
  let len := fld head 0x1C 4
  let sender := fld head 0xC 3 % 2 ^ 18
  let room := storeEnd a - a
  let all := m.bytes a (48 + min len room)
  let stepNo := d.g64 Reg.STEP_REC_STEP_LO Reg.STEP_REC_STEP_HI
  let stale := (d.count Reg.EXCH_CFG_STALE 0).raise pgExchCfg 0x0904 9 Sev.warn sender
  if room < 48 + len ∨ crc32 (zeroed all 0x2C) ≠ fld head 0x2C 4 then d.contribBad sender
  else if fld head 0x10 8 < stepNo ∨ (fld head 0x10 8 = stepNo ∧ ! d.stepOpen) then
    (d.count Reg.EXCH_CFG_AFTER_DECISION 0).raise pgExchCfg 0x0906 11 Sev.info sender
  else if fld head 0x10 8 ≠ stepNo ∨ fld head 0x18 4 ≠ d.stepStart % 2 ^ 32 ∨ ! d.stepOpen then stale
  else
    match Dr.redIdx d.plan.draft (fld head 4 3) with
    | none => stale
    | some i =>
      match d.groupCoord i sender with
      | none => stale
      | some g =>
        let red := Dr.rId d.plan.draft i
        if fld head 8 4 ≠ d.ownShard i ∨ ! d.ownsBlocks i then stale
        else if d.step.landed.any (fun x => x.red == red && x.g == g) then d.count Reg.EXCH_CFG_DUPLICATE 0
        else
          let d : Dev := { d with step := { d.step with landed := d.step.landed ++ [⟨red, g, d.beatNum, false⟩] } }
          let arrival : Int := (d.beatNum : Int) - d.deadlineBeat i
          if d.forcedMode then
            match d.forcedKind i sender with
            | some k => (d.lateEvent red).settle i g sender k (some arrival) all
            | none => d
          else if 0 < arrival then
            (d.lateEvent red).settle i g sender (if Dr.rDrop d.plan.draft i then 1 else 2) (some arrival) all
          else d

/-- R374, R381: whether a landed contribution counts as on time. -/
def Dev.onTime (d : Dev) (i g : Nat) : Bool :=
  match d.step.landed.find? (fun x => x.red == Dr.rId d.plan.draft i && x.g == g) with
  | some x =>
    ! x.bad && (if d.forcedMode then (d.forcedKind i (d.memberAddr (d.groupMember i g))).isNone else decide (x.beat ≤ d.deadlineBeat i))
  | none => false

/-- DEADLINE_PASS: plan beat DEADLINE + 1 of a reduction has begun: its contributions are classed. -/
def Dev.deadlinePass (red : Nat) (d : Dev) : Dev :=
  match Dr.redIdx d.plan.draft red with
  | none => d
  | some i =>
    if ! d.stepOpen ∨ ! d.ownsBlocks i ∨ d.step.classed.contains red ∨ d.beatNum ≤ d.deadlineBeat i then d
    else
      let n := d.groupSize i
      let on := if d.forcedMode then
        ((List.range n).filter fun g => (d.forcedKind i (d.memberAddr (d.groupMember i g))).isNone).length
        else ((List.range n).filter (d.onTime i)).length
      let d := { d with step := { d.step with classed := d.step.classed ++ [red] } }
      let d := (d.count Reg.EXCH_CFG_ON_TIME 0 on).count Reg.EXCH_CFG_LATE 0 (n - on)
      if on < n then d.lateEvent red else d

/-- R377: at the boundary that begins beat A, the entries of contributions that have not landed. -/
def Dev.settleMissing (d : Dev) : Dev :=
  (List.range (Dr.nReductions d.plan.draft)).foldl (fun d i =>
    let red := Dr.rId d.plan.draft i
    if ! d.ownsBlocks i ∨ ! d.step.classed.contains red then d
    else (List.range (d.groupSize i)).foldl (fun d g =>
      let sender := d.memberAddr (d.groupMember i g)
      if d.step.landed.any (fun x => x.red == red && x.g == g) then d
      else if d.forcedMode then
        (match d.forcedKind i sender with | some k => d.settle i g sender k none [] | none => d)
      else d.settle i g sender (if Dr.rDrop d.plan.draft i then 1 else 4) none []) d) d

/-- R279, R381: the contributions of a reduction that forced mode still waits for. -/
def Dev.forcedMissing (d : Dev) (i : Nat) : Bool :=
  (List.range (d.groupSize i)).any fun g =>
    ! d.step.landed.any (fun x => x.red == Dr.rId d.plan.draft i && x.g == g) &&
      [none, some 2].contains (d.forcedKind i (d.memberAddr (d.groupMember i g)))

/-- R279: the wait of forced mode has run out, or a carry that the ledger names is not held. -/
def Dev.forceFail (d : Dev) (red : Nat) : Dev := (d.raise pgStepRec 0x060C 10 Sev.error red).voteFail

/-- FORCE_WAIT_EXCEEDED. -/
def Dev.forceWaitExceeded (red : Nat) (d : Dev) : Dev :=
  match Dr.redIdx d.plan.draft red with
  | none => d
  | some i =>
    if d.stepOpen ∧ d.forcedMode ∧ d.ownsBlocks i ∧ d.forcedMissing i ∧
        d.deadlineBeat i + d.g Reg.STEP_REC_FORCE_WAIT ≤ d.beatNum then d.forceFail red
    else d

/-! ## Encoding (R364 to R370, R372) -/

/-- R365: the positions selected of a block's values (FP32 words), ascending. `n` elements of the block exist. -/
def selectBlock (keep n : Nat) (vs : List Nat) : List Nat :=
  if keep = 4096 then List.range n
  else
    let mag := fun i => vs.getD i 0 % 2 ^ 31
    let nz := (List.range 4096).filter fun i => mag i != 0
    let ranked := sortBy (fun a b => decide (mag b < mag a ∨ mag a = mag b ∧ a ≤ b)) nz
    sortBy (fun a b => decide (a ≤ b)) (ranked.take keep)

/-- R368: the gaps of ascending positions. -/
def gapsOf : Option Nat → List Nat → List Nat
  | _, [] => []
  | none, i :: is => i :: gapsOf (some i) is
  | some p, i :: is => (i - p - 1) :: gapsOf (some i) is

/-- R368: the index coding, gap width and index bytes of ascending positions. -/
def indexField (is : List Nat) : Nat × Nat × List Byte :=
  if is = [] then (0, 0, [])
  else
    let gs := gapsOf none is
    let w := (gs.foldl max 0).log2 + 1
    let w := if gs.all (· == 0) then 0 else w
    let n := (w * is.length + 7) / 8
    if n ≤ 512 then (1, w, natLe n (packBits (gs.map fun g => (g, w))).1)
    else (2, 0, natLe 512 (is.foldl setBit 0))

/-- What encoding a block gives: its record, its new remainder, the converted groups and the flags. -/
structure BlockEnc where
  record : List Byte
  rem : List Nat
  groups : List BlockOut

/-- R365 to R367: one block encoded from its values. -/
def encodeBlock (keep fmt block n : Nat) (vs : List Nat) : BlockEnc :=
  let is := selectBlock keep n vs
  let k := is.length
  let ng := (k + 31) / 32
  let sel := is.map fun i => vs.getD i 0
  let gs := (pieces 32 ng (sel ++ List.replicate 32 0)).map fun g =>
    let o := toBlock (biWidth fmt) (fastElems 0 g) none true []
    { o with fl := o.fl ||| fastFlags 0 g }
  let ix := indexField is
  let head := natLe 4 block ++ natLe 2 (k + 8192 * ix.1) ++ natLe 1 (ix.2.1 + 16 * fmt) ++ natLe 1 0
  let rec' := padTo 8 (head ++ ix.2.2 ++ gs.flatMap (fun g => natLe 2 g.scale) ++ gs.flatMap (fun g => packCodes (biWidth fmt) g.codes))
  let wire := gs.flatMap fun g => (List.range 32).map fun i => (blockElem 0 (biWidth fmt) g.scale i (g.codes.getD i 0)).w
  let newRem := is.zipIdx.foldl (fun (vs : List Nat) (x : Nat × Nat) =>
    vs.set x.1 (FFmt.f32.addFast .rne true (FFmt.f32.decode (vs.getD x.1 0)) (FFmt.f32.decode (wire.getD x.2 0))).w) vs
  ⟨rec', newRem, gs⟩

/-- R365: the value G + remainder of an element, with the flags of the addition. -/
def gradPlus (fmt g rem : Nat) : FR :=
  FFmt.f32.addFast .rne false ((elemFmt fmt).decode g) (FFmt.f32.decode rem)

/-- EXCH_ENC. `bad` names the source row whose word is uncorrectable: then nothing is written. -/
def exchEncDesc (m : Mem) (r : Nat) (bad : Option (Nat × Nat)) (d : Dev) (w : Nat) : DescRes :=
  match inRows w bad with
  | some b => let x := d.srcFail w b.1 b.2; ⟨x.1, 0, some (x.2, Cc.uerr)⟩
  | none =>
    let fmt := Ds.fmtIn w
    let nb := Ds.nBlocks w
    let total := Ds.rows w * Ds.rowLen w * 64 / elemBytes fmt
    let stream := d.srcStream m w (Ds.rows w)
    let remAt := d.srcAt w (Ds.scaleAddr w)
    let encs := (List.range nb).map fun k =>
      let n := min 4096 (total - 4096 * k)
      let gs := elemsOf (elemBytes fmt) n (stream.drop (4096 * k * elemBytes fmt)) ++ List.replicate (4096 - n) 0
      let rems := if Ds.keep w = 4096 then List.replicate 4096 0
        else elemsOf 4 n (m.bytes (remAt + 16384 * k) (4 * n)) ++ List.replicate (4096 - n) 0
      let vs := (gs.zip rems).map fun x => gradPlus fmt x.1 x.2
      let fl := vs.foldl (fun a x => a ||| x.fl) 0
      (encodeBlock (Ds.keep w) (Ds.fmtOut w) (Ds.firstBlock w + k) n (vs.map (·.w)), fl, n)
    let recs := encs.flatMap fun x => x.1.record
    let head := natLe 4 0x4E584743 ++ natLe 4 (Ds.red w) ++ natLe 4 (Ds.shard w) ++ natLe 4 d.selfAddr ++
      natLe 8 (d.g64 Reg.STEP_REC_STEP_LO Reg.STEP_REC_STEP_HI) ++ natLe 4 d.stepStart ++ natLe 4 recs.length ++
      natLe 4 (Ds.firstBlock w) ++ natLe 4 nb ++ natLe 4 0
    let msg := head ++ natLe 4 (crc32 (head ++ natLe 4 0 ++ recs)) ++ recs
    let d := d.poke (d.dstAt w (Ds.dstAddr w)) (padTo 64 msg)
    let second := if Ds.keep w = 4096 then [] else
      encs.zipIdx.map fun (x, k) => (remAt + 16384 * k, (x.1.rem.take x.2.2).flatMap (natLe 4))
    let d := { d with step := { d.step with second := d.step.second ++ second } }
    let d := encs.foldl (fun d x => (d.blockReports r (Ds.stat w) (Ds.fmtOut w) x.1.groups).formatEvents (pgCompress r)
      (x.2.1 &&& Flag.nan) 0 0 0) d
    let d := (d.count Reg.EXCH_CFG_BLOCKS_ENCODED 0 nb).count Reg.EXCH_CFG_WIRE_BYTES 0 recs.length
    ⟨d, (msg.length + 63) / 64, none⟩

/-! ## Decoding (R368, R371, R375, R376) -/

/-- R368: the selected positions of a record, none when the index coding is reserved or does not fit. -/
def positionsOf (idx w k : Nat) (b : List Byte) : Option (List Nat) :=
  match idx with
  | 0 => if k = 0 then some [] else none
  | 1 =>
    let v := leNat b
    some ((List.range k).foldl (fun (a : List Nat × Nat) j =>
      let p := a.2 + bits v (w * j) w
      (a.1 ++ [p], p + 1)) ([], 0)).1
  | 2 =>
    let v := leNat b
    some ((List.range 4096).filter (bit v))
  | _ => none

/-- R367, R371: the records of a contribution, block by block, as positions with their decoded FP32 words, and the flags met (R85); none when
a record fails decode. -/
def decodeRecords (keep fmt : Nat) : Nat → Nat → List Byte → Option (List (SMap Nat) × Nat)
  | 0, _, bs => if bs = [] then some ([], 0) else none
  | n + 1, block, bs =>
    let k := fld bs 4 2 % 8192
    let idx := fld bs 4 2 / 8192 % 4
    let w := fld bs 6 1 % 16
    let ng := (k + 31) / 32
    let ni := if idx = 1 then (w * k + 7) / 8 else if idx = 2 then 512 else 0
    let size := (8 + ni + 2 * ng + ng * wireBlock fmt + 7) / 8 * 8
    match positionsOf idx w k ((bs.drop 8).take ni) with
    | none => none
    | some ps =>
      if bs.length < size ∨ fld bs 0 4 ≠ block ∨ keep < k ∨ fld bs 6 1 / 16 ≠ fmt ∨ ps.length ≠ k ∨ ps.any (4096 ≤ ·) then none
      else
        let scales := bs.drop (8 + ni)
        let codes := scales.drop (2 * ng)
        let vals := ps.zipIdx.map fun (p, j) =>
          (p, blockElem 0 (biWidth fmt) (fld scales (2 * (j / 32)) 2) (j % 32)
            (codeAt (biWidth fmt) ((codes.drop (j / 32 * wireBlock fmt)).take (wireBlock fmt)) (j % 32)))
        let fl := vals.foldl (fun a x => a ||| x.2.fl) 0
        (decodeRecords keep fmt n (block + 1) (bs.drop size)).map fun x => (vals.map (fun y => (y.1, y.2.w)) :: x.1, fl ||| x.2)

/-- R375: the sum of one element over the contributions and carries in order, with the flags of the additions. -/
def sumElem (xs : List (List (SMap Nat))) (k i : Nat) : FR :=
  xs.foldl (fun a x =>
    let r := FFmt.f32.addFast .rne false (FFmt.f32.decode a.w) (FFmt.f32.decode (SMap.at (x.getD k []) i 0))
    ⟨r.w, r.fl ||| a.fl⟩) ⟨0, 0⟩

/-- R94, R376: a sum in the tensor's format, with the flags of the conversion. -/
def exchResult (fmt : Nat) (rd : Rnd) (s : FR) : FR :=
  if fmt = 0 then s
  else
    match FFmt.f32.decode s.w with
    | .num neg v false => let r := FFmt.f16.packCvt rd neg v; ⟨r.w, r.fl ||| s.fl⟩
    | .num neg _ true => ⟨FFmt.f16.signBit neg, s.fl ||| Flag.flushIn⟩
    | _ => ⟨FFmt.f16.cnan, s.fl ||| Flag.nan⟩

/-- R372: a decode waits until the contributions it reads are classed, or, in forced mode, until they have landed. -/
def Dev.decodeReady (d : Dev) (w : Nat) : Bool :=
  match Dr.redIdx d.plan.draft (Ds.red w) with
  | none => true
  | some i => if d.forcedMode then ! (List.range (d.groupSize i)).any (fun g =>
      (d.forcedKind i (d.memberAddr (d.groupMember i g))).isNone && ! d.step.landed.any (fun x => x.red == Ds.red w && x.g == g))
    else d.step.classed.contains (Ds.red w)

/-- R378, R381: the carries that enter a sum, in order, and whether a named one is missing. -/
def Dev.carriesFor (d : Dev) (red shard : Nat) : List Carry × Bool :=
  let held := sortBy (fun a b => decide (a.origin < b.origin ∨ a.origin = b.origin ∧ a.g ≤ b.g))
    (d.step.carries.filter fun c => c.live && c.red == red && c.shard == shard)
  if ! d.forcedMode then (held, false)
  else
    let named := d.step.forced.filter fun e => e.kind == 3 && e.red == red && e.shard == shard
    (held.filter fun c => named.any fun e => e.origin == c.origin && decide (e.first ≤ c.sender ∧ c.sender < e.first + e.count),
     named.any fun e => (List.range e.count).any fun k => ! held.any fun c => c.origin == e.origin && c.sender == e.first + k)

/-- R375: after the exchange the owner's blocks of the tensor outside the shard hold no defined value. -/
def Dev.otherBlocks (d : Dev) (w len : Nat) : Dev :=
  match Dr.redIdx d.plan.draft (Ds.red w) with
  | none => d
  | some i =>
    let eb := elemBytes (Ds.fmtOut w)
    let at' := d.dstAt w (Ds.dstAddr w)
    let before := min (4096 * Ds.firstBlock w * eb) (64 * Ds.dstAddr w)
    let room := match d.space (Ds.dstSpace w) (Ds.dstInst w) with | some s => s.2 - (64 * Ds.dstAddr w + len) | none => 0
    let after := min (eb * (d.redElems i - 4096 * Ds.firstBlock w) - len) room
    (if before = 0 then d else d.undefine (at' - before) before) |> fun (d : Dev) => if after = 0 then d else d.undefine (at' + len) after

/-- EXCH_DEC. `bad` names the landing area in which a word is uncorrectable. -/
def exchDecDesc (m : Mem) (r : Nat) (bad : Option (Nat × Nat)) (d : Dev) (w : Nat) : DescRes :=
  match inRows w bad with
  | some b => let x := d.srcFail w b.1 b.2; ⟨x.1, 0, some (x.2, Cc.uerr)⟩
  | none =>
    let red := Ds.red w
    let i := (Dr.redIdx d.plan.draft red).getD 0
    let nb := Ds.nBlocks w
    let parse := fun (all : List Byte) => decodeRecords (Ds.keep w) (Ds.fmtIn w) nb (Ds.firstBlock w) ((all.drop 48).take (fld all 0x1C 4))
    let gs := (List.range (Ds.rows w)).filter (d.onTime i)
    let areas := gs.map fun g =>
      let a := d.srcRow w g
      (g, parse (m.bytes a (48 + min (m.nat (a + 0x1C) 4) (reservedSize (Ds.keep w) (Ds.fmtIn w) nb))))
    let carried := d.carriesFor red (Ds.shard w)
    let cs := carried.1.map fun c => (c, parse c.bytes)
    let d := areas.foldl (fun (d : Dev) x => if x.2.isSome then d else
      let l := d.step.landed.map fun (y : Landed) => if y.red == red && y.g == x.1 then { y with bad := true } else y
      { d with step := { d.step with landed := l } }.contribBad (d.memberAddr (d.groupMember i x.1))) d
    let d := cs.foldl (fun (d : Dev) x => if x.2.isSome then d else d.contribBad x.1.sender) d
    let d := if carried.2 then d.forceFail red else d
    let xs := areas.filterMap (·.2) ++ cs.filterMap (·.2)
    let fmt := Ds.fmtOut w
    let total := if (Dr.redIdx d.plan.draft red).isSome then min (4096 * nb) (d.redElems i - 4096 * Ds.firstBlock w) else 4096 * nb
    let key := d.srKey (Ds.tensor w)
    let words := (List.range total).map fun e =>
      let rd := if Ds.sr w then Rnd.sr (sr32 key.1 key.2 ((Ds.elemBase w + e) % 2 ^ 32)) else Rnd.rne
      exchResult fmt rd (sumElem (xs.map (·.1)) (e / 4096) (e % 4096))
    let fl := words.foldl (fun a x => a ||| x.fl) (xs.foldl (fun a x => a ||| x.2) 0)
    let bytes := words.flatMap fun x => natLe (elemBytes fmt) x.w
    let inside := match d.space (Ds.dstSpace w) (Ds.dstInst w) with | some s => decide (64 * Ds.dstAddr w + bytes.length ≤ s.2) | none => false
    if ! inside then ⟨d, 0, some (5, Cc.unsupported)⟩
    else
      let d := ((d.poke (d.dstAt w (Ds.dstAddr w)) bytes).otherBlocks w bytes.length).formatEvents (pgCompress r) fl fmt (Ds.fmtIn w) 1
      let d := cs.foldl (fun (d : Dev) x => d.addEntry ⟨red, Ds.shard w, 3, x.1.sender, 1, x.1.origin, x.1.arrival⟩) d
      let d := if cs = [] ∨ d.step.carrySeen then d
        else { d with step := { d.step with carrySeen := true } }.raise pgLedger 0x0902 9 Sev.info red
      ⟨{ d with step := { d.step with decoded := d.step.decoded ++ [red] } }, (bytes.length + 63) / 64, none⟩

/-- EXCH_DEC waits in its engine until it may read. -/
def Dev.exchDec (m : Mem) (r : Nat) (ecc : Ecc) (row line : Nat) (d : Dev) : Dev :=
  let next := match (d.eng true r).run with | some x => x.descs[x.next]? | none => none
  match next with
  | some w => if Ds.op w = 8 ∧ ! d.decodeReady w then d else d.descRun true r 8 (fun d w => exchDecDesc m r (badAt ecc row line) (d.srcCorrected ecc w row line) w)
  | none => d

/-- R382: EXCH_CFG.CNT_CLR. -/
def Dev.exchCntClr (d : Dev) : Dev :=
  d.clearFields 0 [Reg.EXCH_CFG_ON_TIME, Reg.EXCH_CFG_LATE, Reg.EXCH_CFG_CRC_FAIL, Reg.EXCH_CFG_STALE, Reg.EXCH_CFG_DUPLICATE,
    Reg.EXCH_CFG_AFTER_DECISION, Reg.EXCH_CFG_BLOCKS_ENCODED, Reg.EXCH_CFG_WIRE_BYTES]

/-- R363: no contribution of a running step is encoded before the exchange start. -/
def Dev.encodeReady (d : Dev) : Bool :=
  ! d.stepOpen || decide (d.stepStart + Dr.exchangeStart d.plan.draft d.coords.2.2 ≤ d.beatNum)

/-- EXCH_ENC waits in its engine for the exchange start. -/
def Dev.exchEnc (m : Mem) (r : Nat) (ecc : Ecc) (row line : Nat) (d : Dev) : Dev :=
  let next := match (d.eng true r).run with | some x => x.descs[x.next]? | none => none
  match next with
  | some w => if Ds.op w = 7 ∧ ! d.encodeReady then d else d.descRun true r 7 (fun d w => exchEncDesc m r (badAt ecc row line) (d.srcCorrected ecc w row line) w)
  | none => d

def execDescExchEnc (inst : BitVec 12) (e : ReadEcc) (row : BitVec 16) (s : State) : Host.Outcome State Fault Refusal :=
  runMem s fun m d => d.exchEnc m inst.toNat e.ecc row.toNat e.line.toNat

def execDescExchDec (inst : BitVec 12) (e : ReadEcc) (row : BitVec 16) (s : State) : Host.Outcome State Fault Refusal :=
  runMem s fun m d => d.exchDec m inst.toNat e.ecc row.toNat e.line.toNat

def execContributionLand (r : BitVec 12) (line : BitVec 18) (s : State) : Host.Outcome State Fault Refusal :=
  runDev s (Dev.contributionLand s.mem (larderBase (regionOf r.toNat) + 64 * line.toNat))

def execDeadlinePass (red : BitVec 24) (s : State) : Host.Outcome State Fault Refusal := runDev s (Dev.deadlinePass red.toNat)

def execForceWaitExceeded (red : BitVec 24) (s : State) : Host.Outcome State Fault Refusal := runDev s (Dev.forceWaitExceeded red.toNat)

def execExchCntClr (r : Requester) (s : State) : Host.Outcome State Fault Refusal :=
  runDev s fun d => d.action r pgExchCfg 0x0A0 false fun d => (Cc.done, d.exchCntClr)

end Sys2Proof.Machine
end

