-- ==== Sys2Proof/Machine/Links.lean ====
section
/-! DEFINITION. Link ports, shuttles, route tables, scheduled and slack traffic (R253, R256, R257, R261, R385 to R410). -/

namespace Sys2Proof.Machine

def pgLinkPhy (p : Nat) : Nat := pageNum 6 (linkInst p) 0
def pgLinkSlot (p : Nat) : Nat := pageNum 6 (linkInst p) 1
def pgLinkErr (p : Nat) : Nat := pageNum 6 (linkInst p) 3
def pgLinkRoute : Nat := pageNum 6 (linkInst 0) 2

def Dev.port (d : Dev) (p : Nat) : PortSt := SMap.at d.links p {}
/-- R405: the shuttles in a link port's buffers. -/
def PortSt.held (x : PortSt) : Nat := x.out.length + x.through.length + x.late.length + x.slack.length
/-- R61: a port is in RUN while it holds shuttles. -/
def Dev.setPort (d : Dev) (p : Nat) (x : PortSt) : Dev :=
  let d : Dev := { d with links := SMap.put d.links p x }
  if x.held = 0 then d.idle (pgLinkPhy p) else d.busy (pgLinkPhy p)
def Dev.phy (d : Dev) (p : Nat) : Nat := d.rd Reg.LINK_PHY_STATE (linkInst p)

/-! ## The live table -/

def Dev.topo (d : Dev) : Nat := d.g Reg.LINK_ROUTE_TOPO

/-! ## Port states (R389, R390, R404, R405) -/

/-- R389: a port leaves service: its output buffer waits for slack windows, what it held for a slot too (R405). -/
def Dev.portStops (d : Dev) (p st reason : Nat) : Dev :=
  let x := d.port p
  let d := d.setPort p { x with late := x.late ++ x.out.map (·.sh), out := [] }
  let d := ((d.wr Reg.LINK_PHY_STATE (linkInst p) st).wr Reg.LINK_PHY_ACTIVE (linkInst p) 0)
  if reason = 0 then d else d.wr Reg.LINK_PHY_REASON (linkInst p) reason

/-- R389: training begins. -/
def Dev.train (d : Dev) (p : Nat) : Dev :=
  let x := d.port p
  (d.wr Reg.LINK_PHY_STATE (linkInst p) 2).setPort p { x with trainAt := d.now }

def Dev.linkSignalDetect (p : Nat) (d : Dev) : Dev :=
  if d.phy p = 1 ∧ d.hd Hdr.CTL_EN (pgLinkPhy p) = 1 then d.train p else d

/-- R390: the identity that the live route table expects at a port's far end. -/
def Dev.identityOk (d : Dev) (p a q : Nat) : Bool :=
  ! d.routeLive || (a == neighbour d.topo d.selfAddr (p / 8) (p / 4 % 2) && q == (if p / 4 % 2 = 0 then p + 4 else p - 4))

/-- TRAIN_COMPLETE: FEC lock, and three equal identity frames. -/
def Dev.trainComplete (p a q : Nat) (d : Dev) : Dev :=
  if d.phy p ≠ 2 then d
  else
    let i := linkInst p
    let d := (d.wr Reg.LINK_PHY_FAR_ADDR i a).wr Reg.LINK_PHY_FAR_PORT i q
    let d := d.setPort p { d.port p with timeouts := 0 }
    if d.identityOk p a q then
      (((d.wr Reg.LINK_PHY_STATE i 3).wr Reg.LINK_PHY_LANES_OK i 15).wr Reg.LINK_PHY_ACTIVE i 15).raise (pgLinkPhy p) 0x0A01 8 Sev.info
        (a + 2 ^ 18 * q)
    else (d.portStops p 5 3).raise (pgLinkPhy p) 0x0A05 12 Sev.error (a + 2 ^ 18 * q)

/-- TRAIN_TIMEOUT: TRAIN_LIMIT_MS has passed. -/
def Dev.trainTimeout (p : Nat) (d : Dev) : Dev :=
  if d.phy p ≠ 2 then d
  else
    let x := d.port p
    let d := d.passTo (x.trainAt + ms (d.rd Reg.LINK_PHY_TRAIN_LIMIT_MS (linkInst p)))
    let d := d.setPort p { x with timeouts := x.timeouts + 1 }
    if d.rd Reg.LINK_PHY_ATTEMPTS (linkInst p) ≤ x.timeouts + 1 then (d.setPort p { x with timeouts := 0 }).portStops p 5 2
    else d.portStops p 1 2

/-- LANE_DEGRADED: a lane has failed. -/
def Dev.laneDegraded (p lane : Nat) (d : Dev) : Dev :=
  let i := linkInst p
  let ok := clrBit (d.rd Reg.LINK_PHY_LANES_OK i) lane
  if d.phy p = 3 then
    let d := (d.portStops p 4 4).wr Reg.LINK_PHY_LANES_OK i ok
    (d.wr Reg.LINK_PHY_ACTIVE i (if lane < 2 then 12 else 3)).raise (pgLinkPhy p) 0x0A03 10 Sev.warn ok
  else if d.phy p = 4 then
    let act := d.rd Reg.LINK_PHY_ACTIVE i
    let d := d.wr Reg.LINK_PHY_LANES_OK i ok
    if bit act lane then (d.portStops p 5 4).raise (pgLinkPhy p) 0x0A04 11 Sev.error 4 else d
  else d

/-- UNCORR_CW_LIMIT: the codewords of the last second; more than ten uncorrectable ones retrain the port. -/
def Dev.uncorrCwLimit (p corrected n : Nat) (d : Dev) : Dev :=
  let i := linkInst p
  if d.phy p ≠ 3 ∧ d.phy p ≠ 4 then d
  else
    let d := (d.count Reg.LINK_PHY_CORR_SYMBOLS i corrected).count Reg.LINK_PHY_UNCORR_CW i n
    if 10 < n then
      let d := (d.portStops p 2 5).train p
      (d.bump Reg.LINK_PHY_RETRAINS i).raise (pgLinkPhy p) 0x0A02 9 Sev.warn 5
    else d

/-- LINK_DOWN: no signal on any lane. -/
def Dev.linkDown (p : Nat) (d : Dev) : Dev :=
  if d.phy p = 0 then d
  else ((d.portStops p 1 1).wr Reg.LINK_PHY_LANES_OK (linkInst p) 0).raise (pgLinkPhy p) 0x0A02 9 Sev.warn 1

/-- R389: RETRY. -/
def Dev.linkRetry (d : Dev) (p : Nat) : Dev := if d.phy p = 5 then d.wr Reg.LINK_PHY_STATE (linkInst p) 1 else d

/-- R389: the port follows PAGE_CTL.EN. -/
def Dev.linkEnable (d : Dev) (p : Nat) (en : Bool) : Dev :=
  if ! en then d.portStops p 0 0
  else if d.phy p = 0 ∧ ! (d.routeLive && topoN d.topo (p / 8) == 1) then d.wr Reg.LINK_PHY_STATE (linkInst p) 1 else d

/-- R404: a port that may carry scheduled traffic. -/
def Dev.portSched (d : Dev) (p : Nat) : Bool :=
  d.phy p == 3 && ! [Bs.quiescing, Bs.quiesced].contains (d.bs (pgLinkPhy p)) && ! [Bs.quiescing, Bs.quiesced].contains (d.bs (pgLinkSlot p))

/-- R404: the port that carries a position of a bundle now, and the one that the registers show. -/
def Dev.wantCarrier (d : Dev) (b q : Nat) : Option Nat :=
  if d.portSched (4 * b + q) then some (4 * b + q)
  else if d.portSched (4 * b + 3) ∧ (List.range q).all (fun k => d.portSched (4 * b + k)) then some (4 * b + 3)
  else none
def Dev.carrier (d : Dev) (b q : Nat) : Option Nat :=
  ((List.range 4).map (4 * b + ·)).find? fun p =>
    d.rd Reg.LINK_SLOT_SCHED (linkInst p) == 1 && d.rd Reg.LINK_SLOT_CARRIES (linkInst p) == q

/-! ## Route tables (R396 to R401) -/

/-- R23, R24: the edges from one die to another, and how many hops the way around the ring takes that has no failed edge. -/
def edgePath (a b : Nat) : List Nat :=
  let n := (b + 4 - a) % 4
  if n = 3 then [b] else (List.range n).map fun k => (a + k) % 4
def Dev.dieHops (d : Dev) (a b : Nat) : Nat :=
  let p := edgePath a b
  if p.any d.rst.edges.contains then 4 - p.length else p.length

/-- R399: whether a THROUGH entry leaves later than it can be ready, in ns. -/
def Dev.throughOk (d : Dev) (e : Nat) : Bool :=
  let ports := (List.range 4).map (4 * Rt.inBundle e + ·)
  let delay := ((ports.filter fun p => d.g Reg.BEAT_LOCK_DELAY_VALID p == 1).map fun p => d.g Reg.BEAT_LOCK_DELAY_VALUE p).foldl max 0
  decide (2 * (50 * Rt.inSlot e + 50 + 125 * d.dieHops (Rt.inBundle e / 2) (Rt.bundle e / 2) + 250) + delay ≤ 2 * (50 * Rt.outSlot e))

/-- R398: the first failure of a route table, as code and index. -/
def Dev.routeCheck (d : Dev) (t : List Byte) : Option (Nat × Nat) :=
  let n := fun i => topoN (Rt.topo t) i
  let es := Rt.entries t
  let idx := fun (p : Nat → Bool) => (es.zipIdx.find? fun x => p x.1).map (·.2)
  if fld t 0 4 ≠ 0x4E585254 ∨ fld t 6 2 ≠ 1 ∨ fld t 8 4 ≠ d.g Reg.LINK_ROUTE_TABLE_LEN ∨ ! allZero t 0x28 0x40 ∨
      fld t 0x10 4 / 2 ^ 18 ≠ 0 ∨ fld t 0x20 4 / 2 ^ 15 ≠ 0 ∨ fld t 0x24 4 / 2 ^ 15 ≠ 0 ∨
      t.length < 64 + 32 * Rt.nFlows t + 16 * Rt.nEntries t then some (1, 0)
  else if crc32 (zeroed t 0xC) ≠ fld t 0xC 4 then some (2, 0)
  else if fld t 0x10 4 ≠ d.selfAddr then some (3, 0)
  else if (List.range 4).any (fun i => n i == 0 || decide (64 < n i)) ∨ 262143 < topoSize (Rt.topo t) ∨
      64 < n 0 / 2 + n 1 / 2 + n 2 / 2 + n 3 / 2 ∨ topoSize (Rt.topo t) ≤ d.selfAddr then some (4, 0)
  else if Rt.tx t ≠ d.g Reg.BEAT_CFG_T_X ∨ Rt.ts t ≠ d.g Reg.BEAT_CFG_T_S then some (5, 0)
  else
    let top := 2 * (Rt.ts t - Rt.tx t)
    match idx fun e => (Rt.role e != 2 && decide (top ≤ Rt.outSlot e)) || (Rt.role e != 0 && decide (top ≤ Rt.inSlot e)) with
    | some i => some (5, i)
    | none =>
      match (List.range (Rt.nFlows t)).find? (Rt.flowBad t) with
      | some f => some (6, f)
      | none =>
        match idx (Rt.entryBad t d.selfAddr) with
        | some i => some (6, i)
        | none =>
          match (es.zipIdx.find? fun x => Rt.role x.1 != 2 && (es.take x.2).any fun y => Rt.role y != 2 && y % 2 ^ 37 == x.1 % 2 ^ 37).map (·.2) with
          | some i => some (7, i)
          | none =>
            match idx fun e => Rt.role e == 1 && ! d.throughOk e with
            | some i => some (8, i)
            | none => (idx fun e => Rt.role e != 0 && Rt.crowded es e).map fun i => (9, i)

/-- LINK_ROUTE.CMD.LOAD: the table is read into the inactive bank and checked. -/
def Dev.routeLoad (m : Mem) (d : Dev) : Nat × Dev :=
  if d.g Reg.LINK_ROUTE_STATUS_STATE = 1 then (Cc.locked, d)
  else
    let t := d.srcBytes m (d.g Reg.LINK_ROUTE_TABLE_SPACE) (d.g Reg.LINK_ROUTE_TABLE_ADDR) (d.g Reg.LINK_ROUTE_TABLE_LEN)
    let d := { d with route := { d.route with ready := t, pend := false } }
    match d.routeCheck t with
    | some (c, i) =>
      let d := { d with route := { d.route with ready := [] } }
      let d := ((d.p Reg.LINK_ROUTE_STATUS_STATE 3).p Reg.LINK_ROUTE_STATUS_REASON c).p Reg.LINK_ROUTE_STATUS_INDEX i
      (Cc.done, d.raise pgLinkRoute 0x0A0C 9 Sev.error (c + 256 * sat 24 i))
    | none =>
      let d := ((d.p Reg.LINK_ROUTE_STATUS_STATE 2).p Reg.LINK_ROUTE_STATUS_REASON 0).p Reg.LINK_ROUTE_STATUS_INDEX 0
      (Cc.done, d.raise pgLinkRoute 0x0A0B 8 Sev.info 0)

/-- R404: each bundle maps its positions to ports, at a beat boundary. -/
def Dev.mapBundle (d : Dev) (b : Nat) : Dev :=
  let old := (List.range 3).map (d.carrier b)
  let new := (List.range 3).map (d.wantCarrier b)
  let d := (List.range 4).foldl (fun (d : Dev) k =>
    let p := 4 * b + k
    match (List.range 3).find? fun q => new.getD q none == some p with
    | some q => (d.wr Reg.LINK_SLOT_SCHED (linkInst p) 1).wr Reg.LINK_SLOT_CARRIES (linkInst p) q
    | none => (d.wr Reg.LINK_SLOT_SCHED (linkInst p) 0).wr Reg.LINK_SLOT_CARRIES (linkInst p) 0) d
  let d := (List.range 3).foldl (fun (d : Dev) q =>
    let x := new.getD q none
    if x = old.getD q none then d
    else d.raise (pgLinkSlot (4 * b + q)) 0x0A06 8 Sev.warn (b + 8 * q + 32 * ((x.map (· % 4)).getD q))) d
  let used := (Rt.entries d.route.live).any fun e => Rt.role e != 2 && Rt.bundle e == b
  match (List.range 3).find? fun q => new.getD q none == none with
  | some q => if used then (d.raise (pgLinkSlot (4 * b + q)) 0x0A07 9 Sev.error b).voteFail else d
  | none => d
def Dev.mapPositions (d : Dev) : Dev := (List.range 8).foldl Dev.mapBundle d

/-- ROUTE_APPLIED: a READY table becomes live at the boundary that begins APPLY_BEAT, and the positions are mapped against it. -/
def Dev.routeApplied (d : Dev) : Dev :=
  let at' := d.g64 Reg.LINK_ROUTE_APPLY_BEAT_LO Reg.LINK_ROUTE_APPLY_BEAT_HI
  if ! d.route.pend ∨ ! d.beatSeen ∨ d.beatNum < at' then d
  else
    let t := d.route.ready
    let d := { d with route := { d.route with live := t, ready := [], pend := false } }
    let d := ((d.p Reg.LINK_ROUTE_LIVE 1).p Reg.LINK_ROUTE_TOPO (Rt.topo t)).p Reg.LINK_ROUTE_STATUS_STATE 0
    let d := (List.range 32).foldl (fun (d : Dev) p =>
      if topoN (Rt.topo t) (p / 8) = 1 then d.portStops p 0 0 else d.linkEnable p (d.hd Hdr.CTL_EN (pgLinkPhy p) == 1 || d.phy p != 0)) d
    (d.raise pgLinkRoute 0x0A0D 10 Sev.info 0).mapPositions

/-- DELAY_REMEASURE: a port's one-way delay as the mean of 16 exchanges, in 0.5 ns units, at most 10 µs (R267); live entries are checked again
(R399). -/
def Dev.delayRemeasure (p v : Nat) (d : Dev) : Dev :=
  if 20000 < v then d.rejectMarker p 4
  else
  let d := (d.p Reg.BEAT_LOCK_DELAY_VALUE v p).p Reg.BEAT_LOCK_DELAY_VALID 1 p
  match (Rt.entries d.route.live).zipIdx.find? fun x => Rt.role x.1 == 1 && Rt.inBundle x.1 == p / 4 && ! d.throughOk x.1 with
  | some x => d.raise pgLinkRoute 0x0A0C 9 Sev.error (8 + 256 * sat 24 x.2)
  | none => d

/-! ## Shuttles (R391 to R393) -/

/-- R391: header and payload as the CRC covers them, HOPS taken as zero. -/
def shCovered (s : Shuttle) : List Byte :=
  natLe 4 (s.kind.toNat + 16 * ofB s.cls + 64 * s.units.toNat) ++ natLe 4 s.dst.toNat ++ natLe 4 s.src.toNat ++ natLe 4 s.flow.toNat ++
    natLe 4 (s.shuttle.toNat + 65536 * s.total.toNat) ++ natLe 4 s.step.toNat ++ natLe 4 s.start.toNat ++ natLe 4 0 ++ s.payload

/-- A shuttle with its CRC. -/
def shSealed (s : Shuttle) : Shuttle := { s with crc := BitVec.ofNat 32 (crc32 (shCovered s)) }

/-- A shuttle made from its fields, its payload filled up to whole 64-byte units. -/
def mkShuttle (kind dst src flow i total step start : Nat) (payload : List Byte) : Shuttle :=
  let b := padTo 64 payload
  { kind := BitVec.ofNat 4 kind, cls := false, units := BitVec.ofNat 6 (b.length / 64 - 1), hops := 0, dst := BitVec.ofNat 18 dst,
    src := BitVec.ofNat 18 src, flow := BitVec.ofNat 24 flow, shuttle := BitVec.ofNat 16 i, total := BitVec.ofNat 16 total,
    step := BitVec.ofNat 32 step, start := BitVec.ofNat 32 start, payload := b, crc := 0 }

def Dev.stepNo (d : Dev) : Nat := d.g64 Reg.STEP_REC_STEP_LO Reg.STEP_REC_STEP_HI

def Dev.linkStale (d : Dev) (p : Nat) : Dev := d.bump Reg.LINK_ERR_STALE (linkInst p)

/-- R63, R389, R390: a port that takes shuttles: up or degraded, not refusing work, and a table is live. -/
def Dev.portTakes (d : Dev) (p : Nat) : Bool := d.portLive p && d.routeLive && ! d.refusesWork (pgLinkPhy p)

/-- R393: a shuttle that a port receives: whether it is acted on, and the counts of one that is not. -/
def Dev.receive (d : Dev) (p : Nat) (s : Shuttle) (act : Dev → Dev) : Dev :=
  let plan := decide (s.kind.toNat ≤ 1)
  if ! d.portTakes p then d
  else if crc32 (shCovered s) ≠ s.crc.toNat then
    (d.bump Reg.LINK_ERR_SHUTTLE_CRC (linkInst p)).raise (pgLinkErr p) 0x0A08 8 Sev.warn (s.kind.toNat + 16 * s.flow.toNat)
  else if 7 ≤ s.kind.toNat ∨ (plan ∧ (s.step.toNat ≠ d.stepNo % 2 ^ 32 ∨ s.start.toNat ≠ d.stepStart % 2 ^ 32 ∨ ! d.stepOpen)) then d.linkStale p
  else act d

/-! ## Slack routing (R407, R408) -/

/-- R407: the bundle a shuttle takes next towards `dst`: the first candidate with a working port. -/
def Dev.nextBundle (d : Dev) (dst : Nat) : Option Nat :=
  let t := d.topo
  let self := d.selfAddr
  let cands := (List.range 4).flatMap fun i =>
    let n := topoN t i
    let c := coordOf t self i
    let e := coordOf t dst i
    let up := (e + n - c) % max 1 n
    if c = e then [] else if 2 * up ≤ n then [2 * i, 2 * i + 1] else [2 * i + 1, 2 * i]
  cands.find? fun b => (List.range 4).any fun k => d.portTakes (4 * b + k)

/-- R407: the class of a shuttle on a hop: `from'` is the dimension it came in by. -/
def Dev.hopClass (d : Dev) (b : Nat) (from' : Option Nat) (cls : Bool) : Bool :=
  let i := b / 2
  let c := coordOf d.topo d.selfAddr i
  let crosses := if b % 2 = 0 then c + 1 == topoN d.topo i else c == 0
  crosses || (cls && from' == some i)

/-- R407, R408: what becomes of a slack shuttle for another package: sent on a port, waiting, or discarded. -/
inductive Hop where
  | send (port : Nat) (sh : Shuttle)
  | wait
  | drop
  deriving DecidableEq, Repr

def Dev.hop (d : Dev) (from' : Option Nat) (credit : Nat) (s : Shuttle) : Hop :=
  if topoSize d.topo ≤ s.dst.toNat ∨ 126 ≤ s.hops.toNat ∨ d.selfAddr = 0x3FFFF then .drop
  else
    match d.nextBundle s.dst.toNat with
    | none => .wait
    | some b =>
      match (List.range 4).find? fun k => d.portTakes (4 * b + k) && bit credit (4 * b + k) with
      | none => .wait
      | some k =>
        let h := if from'.isSome then s.hops + 1 else s.hops
        .send (4 * b + k) { s with hops := h, cls := d.hopClass b (from'.map (· / 8)) s.cls }

/-- R408: a slack shuttle is discarded at a port. -/
def Dev.slackDiscard (d : Dev) (p : Nat) (s : Shuttle) : Dev :=
  (d.bump Reg.LINK_ERR_SLACK_DISCARD (linkInst p)).raise (pgLinkErr p) 0x0A0E 11 Sev.warn (s.kind.toNat + 16 * s.dst.toNat)

/-- A shuttle with the CRC of its bytes leaves a port. -/
def Dev.emit (d : Dev) (p : Nat) (s : Shuttle) : Dev := d.send (.shuttle p (shSealed s))

/-! ## The order of the slack window (R253, R256, R257) -/

/-- R391: the time of a number of shuttle bytes on a port against a share of the slack window. -/
def Dev.lateFits (d : Dev) (bytes : Nat) : Bool :=
  decide (bytes * 4096 ≤ (d.period - d.slackFrom) * d.g Reg.BEAT_CFG_LATE_SHARE * 413600)

/-- R257: the bytes of late plan traffic on a port in this beat's window, with one more shuttle. -/
def Dev.lateBytesWith (d : Dev) (q : Nat) (s : Shuttle) : Nat :=
  let y := d.port q
  (if y.lateBeat = d.beatNum then y.lateBytes else 0) + 40 + s.payload.length

/-- R256: the place of a slack shuttle in the order of users: trade messages, plan traffic and what asks for it, the rest (assumption 122). -/
def slackPrio (s : Shuttle) : Nat := if s.kind.toNat = 4 then 1 else if s.kind.toNat ≤ 3 then 2 else 3

/-- R256: a late shuttle that fits in its share waits for a port, before the users of lower priority. -/
def Dev.lateWaits (d : Dev) (q : Nat) : Bool :=
  (List.range 32).any fun p => match (d.port p).late with
    | s :: _ => (match d.hop none (2 ^ 32 - 1) { s with kind := 1 } with
        | .send r _ => r == q && d.lateFits (d.lateBytesWith q s)
        | _ => false)
    | [] => false

/-- R256, R257, R394: whether a slack shuttle may leave on a port now: none starts whose last byte would leave in the last 100 ns of the beat. -/
def Dev.slackGo (d : Dev) (q : Nat) (s : Shuttle) : Bool :=
  d.slackOpen && decide (d.g Reg.BEAT_CFG_PHASE + 1 < d.period) && (s.kind.toNat != 1 || d.lateFits (d.lateBytesWith q s)) && (slackPrio s != 3 || ! d.lateWaits q)

/-- A slack shuttle leaves a port; late plan traffic counts against its share. -/
def Dev.slackEmit (d : Dev) (q : Nat) (s : Shuttle) : Dev :=
  let d := if s.kind.toNat = 1 then d.setPort q { d.port q with lateBeat := d.beatNum, lateBytes := d.lateBytesWith q s } else d
  d.emit q s

/-- The slack shuttles of one priority in a list, sent or discarded where they can be; the others wait on. -/
def Dev.drainSlack (d : Dev) (from' : Option Nat) (credit pr : Nat) : List SlackSh → Dev × List SlackSh
  | [] => (d, [])
  | x :: xs =>
    let keep := fun (d : Dev) => let r := Dev.drainSlack d from' credit pr xs; (r.1, x :: r.2)
    if slackPrio x.sh ≠ pr then keep d
    else
      match d.hop from' credit x.sh with
      | .send q s =>
        if ! d.slackGo q s then keep d
        else
          let d := d.slackEmit q s
          let d := match from' with | some p => d.count Reg.LINK_ROUTE_SLACK_FWD (linkInst p) | none => d
          Dev.drainSlack d from' credit pr xs
      | .wait => keep d
      | .drop => Dev.drainSlack (d.slackDiscard (from'.getD 0) x.sh) from' credit pr xs

/-- What waits of one priority leaves as far as credits go: the package's own shuttles, then those that its ports forward, by port. -/
def Dev.drainPrio (credit : Nat) (d : Dev) (pr : Nat) : Dev :=
  let r := d.drainSlack none credit pr d.route.own
  let d := { r.1 with route := { r.1.route with own := r.2 } }
  ((List.range 32).filter fun p => ! (d.port p).slack.isEmpty).foldl (fun d p =>
    let r := d.drainSlack (some p) credit pr (d.port p).slack
    r.1.setPort p { r.1.port p with slack := r.2 }) d
def Dev.drainAll (credit : Nat) (d : Dev) : Dev := [1, 2, 3].foldl (Dev.drainPrio credit) d

/-- A slack shuttle of the package's own waits for its turn in a slack window, which may have come. -/
def Dev.slackOwn (d : Dev) (s : Shuttle) : Dev :=
  let d := { d with route := { d.route with own := d.route.own ++ [(⟨s, d.beatNum⟩ : SlackSh)] } }
  if d.slackOpen then d.drainAll (2 ^ 32 - 1) else d

/-- R407: a received slack shuttle for another package joins its class's 16 buffers and is forwarded against a credit in its turn. -/
def Dev.slackForward (p : Nat) (s : Shuttle) (credit : Nat) (d : Dev) : Dev :=
  let x := d.port p
  if 16 ≤ (x.slack.filter fun y => y.sh.cls == s.cls).length then d.slackDiscard p s
  else (d.setPort p { x with slack := x.slack ++ [⟨s, d.beatNum⟩] }).drainAll credit

/-- SLACK_TTL_EXPIRY: the shuttles of a port that have waited SLACK_TTL beats. -/
def Dev.slackTtl (p : Nat) (d : Dev) : Dev :=
  let old := fun (x : SlackSh) => decide (x.since + d.g Reg.LINK_ROUTE_SLACK_TTL ≤ d.beatNum)
  let x := d.port p
  let d1 := d.setPort p { x with slack := x.slack.filter fun y => ! old y }
  (x.slack.filter old).foldl (fun d y => d.slackDiscard p y.sh) d1

/-! ## Slots (R397, R402 to R405) -/

/-- R405: a shuttle that missed its slot waits in a port for a slack window. -/
def Dev.missed (d : Dev) (p : Nat) (s : Shuttle) : Dev := d.setPort p { d.port p with late := (d.port p).late ++ [s] }

/-- R397: whether the slot of a plan beat has begun. -/
def Dev.slotPast (d : Dev) (pbeat slot : Nat) : Bool :=
  let b := d.stepStart + pbeat
  decide (b < d.beatNum) || (b == d.beatNum && decide (d.g Reg.BEAT_CFG_T_X + slot / 2 ≤ d.g Reg.BEAT_CFG_PHASE))

/-- SHUTTLE_FETCH: the source block of a SEND entry has completed; its shuttle is fetched from the bound area. -/
def Dev.shuttleFetch (m : Mem) (i area : Nat) (d : Dev) : Dev :=
  let t := d.route.live
  let e := Rt.slot t i
  match Rt.flowIdx t (Rt.eFlow e), d.carrier (Rt.bundle e) (Rt.pos e) with
  | some f, c =>
    let p := c.getD (4 * Rt.bundle e + Rt.pos e)
    let x := d.port p
    let len := if Rt.fVar t f then min (48 + m.nat (area + 0x1C) 4) (Rt.fBytes t f) else Rt.fBytes t f
    let n := (len + 4095) / 4096
    let k := Rt.shuttle e
    if ! d.routeLive || Rt.nEntries t ≤ i || Rt.role e ≠ 0 || ! d.stepOpen || n ≤ k || 8 ≤ x.out.length ||
        (d.route.sent.any fun s => s.flow.toNat == Rt.eFlow e && s.shuttle.toNat == k) || x.out.any (fun y => y.entry == i) then d
    else
      let s := mkShuttle 0 (Rt.fDst t f) d.selfAddr (Rt.eFlow e) k (n - 1) d.stepNo d.stepStart (m.bytes (area + 4096 * k) (min 4096 (len - 4096 * k)))
      if d.slotPast (Rt.pbeat e) (Rt.outSlot e) then d.missed p s else d.setPort p { x with out := x.out ++ [⟨i, p, s⟩] }
  | none, _ => d

/-- R369, R402: a slot of a VAR flow beyond the shuttles that its transfer has: it stays empty and is not counted. -/
def Dev.beyondTotal (d : Dev) (e : Nat) : Bool :=
  d.route.sent.any fun s => s.flow.toNat == Rt.eFlow e && decide (s.total.toNat < Rt.shuttle e)

/-- SLOT_SEND: a link slot of the running beat begins. -/
def Dev.slotSend (i : Nat) (d : Dev) : Dev :=
  let t := d.route.live
  let e := Rt.slot t i
  if ! d.routeLive || Rt.nEntries t ≤ i || 2 ≤ Rt.role e || ! d.stepOpen || d.beatNum ≠ d.stepStart + Rt.pbeat e then d
  else
    let d := d.passTo (d.boundary + d.g Reg.BEAT_CFG_T_X + Rt.outSlot e / 2)
    let c := d.carrier (Rt.bundle e) (Rt.pos e)
    let own := 4 * Rt.bundle e + Rt.pos e
    let lists := fun (x : PortSt) => if Rt.role e = 0 then x.out else x.through
    match (List.range 32).findSome? fun p => ((lists (d.port p)).find? fun y => y.entry == i).map fun y => (p, y) with
    | none =>
      if Rt.role e = 0 ∧ d.beyondTotal e then d else d.count Reg.LINK_SLOT_EMPTY (linkInst (c.getD own))
    | some (p, y) =>
      let x := d.port p
      let d := d.setPort p { x with out := x.out.filter (fun z => z.entry != i || Rt.role e != 0),
                                    through := x.through.filter (fun z => z.entry != i || Rt.role e != 1) }
      match c with
      | none => (d.count Reg.LINK_SLOT_EMPTY (linkInst own)).missed p y.sh
      | some q =>
        if ! d.portSched q || ! [2, 3].contains d.lockState then (d.count Reg.LINK_SLOT_EMPTY (linkInst q)).missed p y.sh
        else
          let d := d.count Reg.LINK_SLOT_SENT (linkInst q)
          if Rt.role e = 0 then { d with route := { d.route with sent := d.route.sent ++ [y.sh] } }.emit q y.sh
          else (d.count Reg.LINK_ROUTE_THROUGH (linkInst y.port)).emit q { y.sh with hops := y.sh.hops + 1 }

/-! ## Landing (R222, R403, R489, R494) -/

/-- R314: where the striped part of a partition begins on each stack: PANTRY's lies above its reserve. -/
def Dev.stripeBase (d : Dev) (part : Nat) : Nat := if part = 4 then (160 + d.g Reg.EXCH_CFG_CARRY_MIB) * 2 ^ 20 else 0

/-- R314, R492: a byte offset of a partition in the store: 512 KiB pieces over the stacks of the plan, in ascending order. -/
def Dev.stripe (d : Dev) (part off : Nat) : Option Nat :=
  let ss := ((d.plan.live.map (·.parts)).getD []).map (·.1)
  if ss = [] then none
  else
    let s := ss.getD (off / 2 ^ 19 % ss.length) 0
    let a := d.stripeBase part + off / 2 ^ 19 / ss.length * 2 ^ 19 + off % 2 ^ 19
    if a < d.rd Reg.HBM_PART_SIZE (hbmInst s) part * granule then
      some (hbmBase s + d.rd Reg.HBM_PART_BASE (hbmInst s) part * granule + a)
    else none

/-- Bytes written at an offset of a partition, cut where its stripes end. -/
def Dev.pokeStripe (d : Dev) (part off : Nat) (bs : List Byte) : Dev :=
  let put := fun (d : Dev) (o : Nat) (b : List Byte) => match d.stripe part o with | some a => d.poke a b | none => d
  let n := 2 ^ 19 - off % 2 ^ 19
  (List.range ((bs.length - n + 2 ^ 19 - 1) / 2 ^ 19)).foldl (fun d k => put d (off + n + k * 2 ^ 19) ((bs.drop (n + k * 2 ^ 19)).take (2 ^ 19)))
    (put d off (bs.take n))

/-- Bytes read at an offset of a partition. -/
def Dev.readStripe (d : Dev) (m : Mem) (part off len : Nat) : List Byte :=
  let get := fun (o n : Nat) => match d.stripe part o with | some a => m.bytes a n | none => []
  let n := min len (2 ^ 19 - off % 2 ^ 19)
  get off n ++ (List.range ((len - n + 2 ^ 19 - 1) / 2 ^ 19)).flatMap fun k => get (off + n + k * 2 ^ 19) (min (2 ^ 19) (len - n - k * 2 ^ 19))

/-- R494: a piece of save point `s` written into the attic: FILLING begins with the first of a newer save point. -/
def Dev.atticPut (d : Dev) (s off : Nat) (bs : List Byte) : Dev :=
  let have' := d.g64 Reg.PARTNER_ATTIC_STEP_LO Reg.PARTNER_ATTIC_STEP_HI
  let d := if d.g Reg.PARTNER_ATTIC_STATE = 1 ∧ have' = s then d
    else (d.p Reg.PARTNER_ATTIC_STATE 1).p64 Reg.PARTNER_ATTIC_STEP_LO Reg.PARTNER_ATTIC_STEP_HI s
  d.pokeStripe 3 off bs

/-- R403, R489: the attic capture of a landed shuttle, unless the attic holds the save point VALID. -/
def Dev.capture (d : Dev) (f : Nat) (s : Shuttle) : Dev :=
  let a := Rt.fAttic d.route.live f
  let sp := d.stepNo - 1
  if a = 0xFFFFFFFF ∨ (d.g Reg.PARTNER_ATTIC_STATE = 2 ∧ d.g64 Reg.PARTNER_ATTIC_STEP_LO Reg.PARTNER_ATTIC_STEP_HI = sp) then d
  else d.atticPut sp (512 * a + 4096 * s.shuttle.toNat) s.payload

/-- R403: a shuttle lands in the area bound to its flow. -/
def Dev.land (d : Dev) (p f area : Nat) (s : Shuttle) : Dev :=
  let key := (s.flow.toNat, s.shuttle.toNat, s.total.toNat)
  let d := d.poke (area + 4096 * s.shuttle.toNat) s.payload
  let d := { d with route := { d.route with landed := if d.route.landed.contains key then d.route.landed else d.route.landed ++ [key] } }
  (d.count Reg.LINK_ROUTE_LANDED (linkInst p)).capture f s

/-- R403: the entry that a received plan shuttle matches; a late one matches by FLOW and SHUTTLE alone. -/
def Dev.matchEntry (d : Dev) (s : Shuttle) (bundle : Option Nat) : Option (Nat × Nat) :=
  ((Rt.entries d.route.live).zipIdx.find? fun x => Rt.role x.1 != 0 && Rt.eFlow x.1 == s.flow.toNat && Rt.shuttle x.1 == s.shuttle.toNat &&
    (match bundle with | some b => Rt.inBundle x.1 == b | none => Rt.role x.1 == 2))

/-- R401, R403: the area bound to a flow: the plan's, or where the plan binds none the one named with the shuttle. -/
def Dev.boundArea (d : Dev) (flow area : Nat) : Nat :=
  ((d.plan.live.bind fun p => p.lands.find? fun x => x.flow == flow).map (·.addr)).getD area

/-- SCHED: a scheduled shuttle is received. -/
def Dev.sched (p : Nat) (s : Shuttle) (area : Nat) (d : Dev) : Dev :=
  if s.kind.toNat ≠ 0 then d
  else d.receive p s fun d =>
    match d.matchEntry s (some (p / 4)), Rt.flowIdx d.route.live s.flow.toNat with
    | some (e, i), some f =>
      if Rt.role e = 2 then d.land p f (d.boundArea s.flow.toNat area) s
      else if d.slotPast (Rt.pbeat e) (Rt.outSlot e) then d.missed p s
      else d.setPort p { d.port p with through := (d.port p).through ++ [⟨i, p, s⟩] }
    | _, _ => d.linkStale p

/-- LATE: a plan shuttle sent in a slack window is received. -/
def Dev.lateRecv (p : Nat) (s : Shuttle) (area credit : Nat) (d : Dev) : Dev :=
  if s.kind.toNat ≠ 1 then d
  else d.receive p s fun d =>
    if s.dst.toNat ≠ d.selfAddr then d.slackForward p s credit
    else
      match d.matchEntry s none, Rt.flowIdx d.route.live s.flow.toNat with
      | some _, some f => d.land p f (d.boundArea s.flow.toNat area) s
      | _, _ => d.linkStale p

/-! ## Slack windows (R253, R256, R257, R406) -/

/-- LATE_SEND: the oldest late shuttle of a port leaves in the slack window, within LATE_SHARE; users of lower priority follow. -/
def Dev.lateSend (p credit : Nat) (d : Dev) : Dev :=
  match (d.port p).late with
  | [] => d
  | s :: rest =>
    match d.hop none credit { s with kind := 1 } with
    | .wait => d
    | .drop => (d.setPort p { d.port p with late := rest }).slackDiscard p { s with kind := 1 }
    | .send q s' =>
      if ! d.slackGo q s' then d
      else
        let d := d.setPort p { d.port p with late := rest }
        let again := d.route.sent.any fun z => z.flow == s.flow && z.shuttle == s.shuttle
        let d := if s.src.toNat = d.selfAddr ∧ ! again then { d with route := { d.route with sent := d.route.sent ++ [s] } } else d
        let d := (d.count Reg.LINK_SLOT_LATE_SENT (linkInst q)).slackEmit q s'
        let d := if d.beat.lateSent then d
          else { d with beat := { d.beat with lateSent := true } }.raise pgBeatCfg 0x0608 9 Sev.info (d.g Reg.BEAT_CFG_LATE_BEATS)
        d.drainAll credit

/-- R406: the 64-byte payload that names a shuttle. -/
def askPayload (flow shuttle pbeat : Nat) : List Byte := natLe 4 flow ++ natLe 4 shuttle ++ natLe 4 pbeat ++ List.replicate 52 0

/-- R406: the LAND entries of the attempt whose shuttles have not landed by now, without the empty slots of VAR flows. -/
def Dev.missing (d : Dev) : List Nat :=
  let t := d.route.live
  (Rt.entries t).filter fun e =>
    let ls := d.route.landed.filter fun x => x.1 == Rt.eFlow e
    let var := match Rt.flowIdx t (Rt.eFlow e) with | some f => Rt.fVar t f | none => false
    let listed := ! var || (match ls.head? with | some x => decide (Rt.shuttle e ≤ x.2.2) | none => Rt.shuttle e == 0)
    Rt.role e == 2 && decide (d.stepStart + Rt.pbeat e ≤ d.beatNum) && listed && ! ls.any fun x => x.2.1 == Rt.shuttle e

/-- R406: one missing shuttle at the start of a slack window: a request, or the end of requests. -/
def Dev.ask (credit : Nat) (d : Dev) (e : Nat) : Dev :=
  let t := d.route.live
  let fl := Rt.eFlow e
  let k := Rt.shuttle e
  let a := (d.route.asked.find? fun x => x.flow == fl && x.shuttle == k).getD ⟨fl, k, 0, 0, false⟩
  let rest := d.route.asked.filter fun x => x.flow != fl || x.shuttle != k
  if a.beat = d.beatNum ∧ a.count + ofB a.nak ≠ 0 then d
  else if 3 ≤ a.count then
    let p := 4 * Rt.inBundle e
    let d := { d with route := { d.route with asked := ⟨fl, k, 0, d.beatNum, true⟩ :: rest } }
    ((d.bump Reg.LINK_ERR_RESEND_FAIL (linkInst p)).raise (pgLinkErr p) 0x0A0A 10 Sev.error fl).voteReplay
  else
    match (Rt.flowIdx t fl).map (Rt.fSrc t) with
    | none => d
    | some src =>
      let s := mkShuttle 2 src d.selfAddr fl k 0 d.stepNo d.stepStart (askPayload fl k (Rt.pbeat e))
      match d.hop none credit s with
      | .send q s' =>
        let d := { d with route := { d.route with asked := ⟨fl, k, a.count + 1, d.beatNum, false⟩ :: rest } }
        ((d.bump Reg.LINK_ERR_RESEND_REQ (linkInst q)).raise (pgLinkErr q) 0x0A09 9 Sev.info fl).emit q s'
      | _ => d

/-- SLACK_WINDOW_START: the slack window of the running beat begins (R256: at T_S, or after the first microsecond of a beat without a step
and without entries): waiting slack shuttles are forwarded and missing plan shuttles asked for. -/
def Dev.slackWindowStart (credit : Nat) (d : Dev) : Dev :=
  if ! d.timerOn ∨ d.slackFrom ≤ d.g Reg.BEAT_CFG_PHASE then d
  else
    let d := d.passTo (d.now + (d.slackFrom - d.g Reg.BEAT_CFG_PHASE))
    let d := d.drainPrio credit 1
    let d := if d.stepOpen then d.missing.foldl (Dev.ask credit) d else d
    [2, 3].foldl (Dev.drainPrio credit) d

/-- A received slack shuttle of a kind: forwarded when it is for another package, otherwise acted on. -/
def Dev.slackRecv (d : Dev) (p kind : Nat) (s : Shuttle) (credit : Nat) (act : Dev → Dev) : Dev :=
  if s.kind.toNat ≠ kind then d
  else d.receive p s fun d => if s.dst.toNat ≠ d.selfAddr then d.slackForward p s credit else act d

/-- RESEND_REQ: a receiver asks for a shuttle: it is sent again as kind LATE, or answered with RESEND_NAK. -/
def Dev.resendReq (p : Nat) (s : Shuttle) (credit : Nat) (d : Dev) : Dev :=
  d.slackRecv p 2 s credit fun d =>
    let fl := fld s.payload 0 3
    let k := fld s.payload 4 2
    match d.route.sent.find? fun x => x.flow.toNat == fl && x.shuttle.toNat == k with
    | some x => d.missed p x
    | none => d.slackOwn (mkShuttle 3 s.src.toNat d.selfAddr fl k 0 d.stepNo d.stepStart s.payload)

/-- RESEND_NAK: the shuttle has not yet been sent: it is asked for again in the next slack window. -/
def Dev.resendNak (p : Nat) (s : Shuttle) (credit : Nat) (d : Dev) : Dev :=
  d.slackRecv p 3 s credit fun d =>
    let fl := fld s.payload 0 3
    let k := fld s.payload 4 2
    { d with route := { d.route with asked := d.route.asked.map fun a =>
      if a.flow = fl ∧ a.shuttle = k ∧ ! a.nak then { a with count := a.count - 1, nak := true } else a } }

/-- SLACK_SHUTTLE_FORWARD: a slack shuttle of kinds 2 to 6 for another package; one of a reserved kind is discarded. -/
def Dev.slackShuttle (p : Nat) (s : Shuttle) (credit : Nat) (d : Dev) : Dev :=
  if s.kind.toNat < 2 ∨ (s.dst.toNat = d.selfAddr ∧ s.kind.toNat < 7) then d else d.receive p s (Dev.slackForward p s credit)

/-- R409: LINK_ERR.CNT_CLR. -/
def Dev.linkErrClr (d : Dev) (p : Nat) : Dev :=
  d.clearFields (linkInst p) [Reg.LINK_ERR_SHUTTLE_CRC, Reg.LINK_ERR_STALE, Reg.LINK_ERR_RESEND_REQ, Reg.LINK_ERR_RESEND_FAIL,
    Reg.LINK_ERR_SLACK_DISCARD]

/-! ## The commands -/

def execSlackWindowStart (credit : BitVec 32) (s : State) : Host.Outcome State Fault Refusal := runDev s (Dev.slackWindowStart credit.toNat)
def execDelayRemeasure (port : BitVec 5) (delay : BitVec 24) (s : State) : Host.Outcome State Fault Refusal :=
  runDev s (Dev.delayRemeasure port.toNat delay.toNat)
def execLinkSignalDetect (port : BitVec 5) (s : State) : Host.Outcome State Fault Refusal := runDev s (Dev.linkSignalDetect port.toNat)
def execTrainComplete (port : BitVec 5) (farAddr : BitVec 18) (farPort : BitVec 6) (s : State) : Host.Outcome State Fault Refusal :=
  runDev s (Dev.trainComplete port.toNat farAddr.toNat farPort.toNat)
def execTrainTimeout (port : BitVec 5) (s : State) : Host.Outcome State Fault Refusal := runDev s (Dev.trainTimeout port.toNat)
def execLaneDegraded (port : BitVec 5) (lane : BitVec 2) (s : State) : Host.Outcome State Fault Refusal :=
  runDev s (Dev.laneDegraded port.toNat lane.toNat)
def execUncorrCwLimit (port : BitVec 5) (corrected codewords : BitVec 32) (s : State) : Host.Outcome State Fault Refusal :=
  runDev s (Dev.uncorrCwLimit port.toNat corrected.toNat codewords.toNat)
def execLinkDown (port : BitVec 5) (s : State) : Host.Outcome State Fault Refusal := runDev s (Dev.linkDown port.toNat)
def execLinkPhyRetry (r : Requester) (port : BitVec 5) (s : State) : Host.Outcome State Fault Refusal :=
  runDev s fun d => d.action r (pgLinkPhy port.toNat) 0x088 true fun d => (Cc.done, d.linkRetry port.toNat)
def execShuttleFetch (entry : BitVec 32) (area : BitVec 48) (s : State) : Host.Outcome State Fault Refusal :=
  runDev s (Dev.shuttleFetch s.mem entry.toNat area.toNat)
def execSlotSend (entry : BitVec 32) (s : State) : Host.Outcome State Fault Refusal := runDev s (Dev.slotSend entry.toNat)
def execLateSend (port : BitVec 5) (credit : BitVec 32) (s : State) : Host.Outcome State Fault Refusal :=
  runDev s (Dev.lateSend port.toNat credit.toNat)
def execSchedShuttle (port : BitVec 5) (sh : Shuttle) (area : BitVec 48) (s : State) : Host.Outcome State Fault Refusal :=
  runMem s fun _ d => d.sched port.toNat sh area.toNat
def execLateShuttle (port : BitVec 5) (sh : Shuttle) (area : BitVec 48) (credit : BitVec 32) (s : State) : Host.Outcome State Fault Refusal :=
  runMem s fun _ d => d.lateRecv port.toNat sh area.toNat credit.toNat
def execResendReqRecv (port : BitVec 5) (sh : Shuttle) (credit : BitVec 32) (s : State) : Host.Outcome State Fault Refusal :=
  runDev s (Dev.resendReq port.toNat sh credit.toNat)
def execResendNakRecv (port : BitVec 5) (sh : Shuttle) (credit : BitVec 32) (s : State) : Host.Outcome State Fault Refusal :=
  runDev s (Dev.resendNak port.toNat sh credit.toNat)
def execSlackTtlExpiry (port : BitVec 5) (s : State) : Host.Outcome State Fault Refusal := runDev s (Dev.slackTtl port.toNat)
def execLinkRouteCmdLoad (r : Requester) (s : State) : Host.Outcome State Fault Refusal :=
  runDev s fun d => d.action r pgLinkRoute 0x08C true (Dev.routeLoad s.mem)
def execRouteApplied (s : State) : Host.Outcome State Fault Refusal := runDev s Dev.routeApplied
def execLinkErrCntClr (r : Requester) (port : BitVec 5) (s : State) : Host.Outcome State Fault Refusal :=
  runDev s fun d => d.action r (pgLinkErr port.toNat) 0x08C false fun d => (Cc.done, d.linkErrClr port.toNat)
def execSlackShuttleForward (port : BitVec 5) (sh : Shuttle) (credit : BitVec 32) (s : State) : Host.Outcome State Fault Refusal :=
  runDev s (Dev.slackShuttle port.toNat sh credit.toNat)

end Sys2Proof.Machine
end

