-- ==== Sys2Proof/Machine/Transport.lean ====
section
/-! DEFINITION. Host ports: frames, MACsec, addresses, wall time, sessions and segments (R411 to R428, R447 to R450). -/

namespace Sys2Proof.Machine

def pgHostMac (p : Nat) : Nat := pageNum 7 (hostInst p) 0
def pgHostSec (p : Nat) : Nat := pageNum 7 (hostInst p) 1
def pgXport (p : Nat) : Nat := pageNum 7 (hostInst p) 2
def pgPtp (p : Nat) : Nat := pageNum 7 (hostInst p) 3

def Dev.hp (d : Dev) (p : Nat) : HPort := SMap.at d.host.ports p {}
def Dev.setHp (d : Dev) (p : Nat) (x : HPort) : Dev := { d with host := { d.host with ports := SMap.put d.host.ports p x } }

/-- R411: H4 to H7 lie on the control network. -/
def isControl (p : Nat) : Bool := decide (4 ≤ p)

/-- R415, R416: whether a port is up, holds a secure association, requires one, and may carry frames of its own. -/
def Dev.hostUp (d : Dev) (p : Nat) : Bool := d.rd Reg.HOST_MAC_STATE (hostInst p) == 3
/-- R63, R70: an up port whose block is quiescing, fenced or in FAULT takes and sends no frame. -/
def Dev.hostTakes (d : Dev) (p : Nat) : Bool := d.hostUp p && ! d.refusesWork (pgHostMac p)
def Dev.secured (d : Dev) (p : Nat) : Bool := d.rd Reg.HOST_SEC_MKA_STATE (hostInst p) == 3
def Dev.secRequired (d : Dev) (p : Nat) : Bool := isControl p || d.rd Reg.HOST_SEC_REQUIRE (hostInst p) == 1
def Dev.carries (d : Dev) (p : Nat) : Bool := d.hostTakes p && (d.secured p || ! (d.secRequired p || (d.hp p).lost))

/-- R415: a packet number is used for a protected frame; at 0xC000_0000_0000_0000 a new SAK is asked for. -/
def Dev.txFrame (d : Dev) (p : Nat) : Dev :=
  let i := hostInst p
  let d := d.count Reg.HOST_MAC_TX_FRAMES i
  if d.secured p then
    let n := d.rd Reg.HOST_SEC_TX_PN_LO i + 2 ^ 32 * d.rd Reg.HOST_SEC_TX_PN_HI i + 1
    let d := (d.wr Reg.HOST_SEC_TX_PN_LO i n).wr Reg.HOST_SEC_TX_PN_HI i (n / 2 ^ 32)
    if n = 0xC000000000000000 then d.send (.sakRequest p) else d
  else d

/-! ## The active PTP port (R417) -/

/-- R417: the control port that is up, secured and hears a qualified master; the lowest. -/
def Dev.ptpBest (d : Dev) : Option Nat := [4, 5, 6, 7].find? fun p => d.hostUp p && d.secured p && (d.hp p).master.isSome
def Dev.ptpActive (d : Dev) : Option Nat := [4, 5, 6, 7].find? fun p => d.rd Reg.HOST_PTP_ACTIVE (hostInst p) == 1

/-- R417, R448: the active port follows, and with it PORT_STATE: a new active port is uncalibrated, another that is up listens. -/
def Dev.ptpSelect (d : Dev) : Dev :=
  let new := d.ptpBest
  let old := d.ptpActive
  let d := [4, 5, 6, 7].foldl (fun (d : Dev) p =>
    let i := hostInst p
    let on := new == some p
    (d.wr Reg.HOST_PTP_ACTIVE i (ofB on)).wr Reg.HOST_PTP_PORT_STATE i
      (if on then (if old = new then d.rd Reg.HOST_PTP_PORT_STATE i else 2) else if d.hostUp p then 1 else 0)) d
  match new with
  | some p => if old = new then d else d.raise (pgPtp p) 0x0B0D 11 Sev.info p
  | none => d

/-! ## Frames (R412 to R416) -/

/-- R415: whether a protected frame passes the replay window. -/
def Dev.pnOk (d : Dev) (p pn : Nat) : Bool := decide ((d.hp p).rxPn < pn + d.rd Reg.HOST_SEC_REPLAY_WINDOW (hostInst p))

/-- ETHERNET_FRAME_RECEIVE. -/
def Dev.frameReceive (p : Nat) (f : EthFrame) (d : Dev) : Dev :=
  let i := hostInst p
  if ! d.hostTakes p then d
  else if ! f.room then d.bump Reg.HOST_MAC_RX_DROP i
  else if ! f.fcsOk then d.bump Reg.HOST_MAC_FCS_ERR i
  else if 9216 < f.len.toNat then d.bump Reg.HOST_MAC_OVERSIZE i
  else if f.tagged then d.bump Reg.HOST_MAC_OTHER i
  else if f.pause then d.bump Reg.HOST_MAC_PAUSE_RX i
  else if f.eapol then d.count Reg.HOST_MAC_RX_FRAMES i
  else if f.isSecured && ! f.icvOk then d.bump Reg.HOST_SEC_ICV_FAIL i
  else if (f.isSecured && ! d.secured p) || (! f.isSecured && (d.secRequired p || (d.hp p).lost)) then d.bump Reg.HOST_SEC_UNPROTECTED_DROP i
  else if f.isSecured && ! d.pnOk p f.pn.toNat then d.bump Reg.HOST_SEC_REPLAY_DROP i
  else
    let d := if f.isSecured then d.setHp p { d.hp p with rxPn := max (d.hp p).rxPn f.pn.toNat } else d
    if ! f.served || ! f.headerOk then d.bump Reg.HOST_MAC_OTHER i else d.count Reg.HOST_MAC_RX_FRAMES i

/-- R415, R416: the secure association of a port goes. -/
def Dev.unsecure (d : Dev) (p st : Nat) : Dev := d.wr Reg.HOST_SEC_MKA_STATE (hostInst p) st

/-- MKA_FRAME: key agreement advances; a distributed SAK is installed. -/
def Dev.mkaFrame (p : Nat) (f : MkaFrame) (d : Dev) : Dev :=
  let i := hostInst p
  if ! d.hostTakes p || d.sec.cak.isNone || ! f.icvOk then d
  else
    let st := d.rd Reg.HOST_SEC_MKA_STATE i
    let d := if ! f.live then d.wr Reg.HOST_SEC_MKA_STATE i (max st 1) else d.wr Reg.HOST_SEC_MKA_STATE i (max st 2)
    let d := d.send (.mkaReply p)
    match f.live, f.sak with
    | true, some an =>
      let d := ((d.wr Reg.HOST_SEC_TX_AN i an.toNat).wr Reg.HOST_SEC_RX_AN i an.toNat).bump Reg.HOST_SEC_SAK_CHANGES i
      let d := (d.wr Reg.HOST_SEC_TX_PN_LO i 0).wr Reg.HOST_SEC_TX_PN_HI i 0
      let d := (d.setHp p { d.hp p with rxPn := 0, lost := false }).wr Reg.HOST_SEC_MKA_STATE i 3
      if st = 3 then d else d.raise (pgHostSec p) 0x0B03 8 Sev.info an.toNat
    | _, _ => d

/-- MKA_PEER_LOST: no MKA frame of the peer for the MKA life time: the association goes, and the port carries EAPOL frames only. -/
def Dev.mkaPeerLost (p : Nat) (d : Dev) : Dev :=
  if d.rd Reg.HOST_SEC_MKA_STATE (hostInst p) < 2 then d
  else ((d.setHp p { d.hp p with lost := true }).unsecure p 1).ptpSelect.raise (pgHostSec p) 0x0B04 9 Sev.warn 0

/-! ## Addresses (R414) -/

/-- R414: the MAC address of a port, the base address of the IDENT page plus its number, its first byte lowest as the registers hold it. -/
def Dev.macOf (d : Dev) (p : Nat) : Nat :=
  leNat ((natLe 6 (leNat ((natLe 8 (d.g Reg.IDENT_MAC_BASE 0 + 2 ^ 32 * d.g Reg.IDENT_MAC_BASE 1)).take 6).reverse + p)).reverse)

/-- R414: the link-local address of a port. -/
def Dev.linkLocal (d : Dev) (p : Nat) : Nat :=
  let b := (List.range 6).map fun k => bits (d.macOf p) (8 * k) 8
  let id := [b.getD 0 0 ^^^ 2, b.getD 1 0, b.getD 2 0, 0xFF, 0xFE, b.getD 3 0, b.getD 4 0, b.getD 5 0]
  0xFE80 * 2 ^ 112 + id.foldl (fun a x => 256 * a + x) 0

/-- R448: the IPv6 and the IPv4 address set on a port's page, first byte first. -/
def bytesBE (n v : Nat) : Nat := (List.range n).foldl (fun a k => 256 * a + bits v (8 * k) 8) 0
def Dev.ipv6 (d : Dev) (p : Nat) : Nat :=
  bytesBE 16 ((List.range 4).foldl (fun a k => a + 2 ^ (32 * k) * d.rd Reg.HOST_XPORT_IPV6 (hostInst p) k) 0)
def Dev.ipv4 (d : Dev) (p : Nat) : Nat := bytesBE 4 (d.rd Reg.HOST_XPORT_IPV4 (hostInst p))

def Dev.addrState (d : Dev) (p : Nat) : Nat := d.rd Reg.HOST_XPORT_ADDR_STATE (hostInst p)
def Dev.setAddrState (d : Dev) (p v : Nat) : Dev := d.wr Reg.HOST_XPORT_ADDR_STATE (hostInst p) v

/-- R414: duplicate address detection begins for the link-local (0) or the IPv6 (1) address. -/
def Dev.dadStart (d : Dev) (p k : Nat) : Dev :=
  let st := clrBit (clrBit (d.addrState p) k) (3 - k)
  (d.setAddrState p st).setHp p { d.hp p with dad := if (d.hp p).dad.contains k then (d.hp p).dad else (d.hp p).dad ++ [k] }

/-- R414: the address is in use elsewhere: never used. -/
def Dev.dadFail (d : Dev) (p k : Nat) : Dev :=
  let d := d.setHp p { d.hp p with dad := (d.hp p).dad.filter (· ≠ k) }
  let st := setBit (clrBit (d.addrState p) k) (3 - k)
  (d.setAddrState p st).raise (pgXport p) 0x0B07 10 Sev.error st

/-- DUPLICATE_ADDRESS_DETECTION_END: no conflict was heard. -/
def Dev.dadEnd (p k : Nat) (d : Dev) : Dev :=
  if (d.hp p).dad.contains k then
    (d.setHp p { d.hp p with dad := (d.hp p).dad.filter (· ≠ k) }).setAddrState p (setBit (d.addrState p) k)
  else d

/-- NEIGHBOR_SOLICITATION: answered for an address in use; another node's probe for, or advertisement of, an address under
detection shows a duplicate. -/
def Dev.neighborSol (p ip : Nat) (advert : Bool) (d : Dev) : Dev :=
  if ! d.carries p then d
  else
    let k := if ip = d.linkLocal p then some 0 else if ip = d.ipv6 p ∧ ip ≠ 0 then some 1 else none
    match k with
    | none => d
    | some k =>
      if (d.hp p).dad.contains k then d.dadFail p k
      else if ! advert && bit (d.addrState p) k then (d.txFrame p).send (.neighborAdvert p (k == 0))
      else d

def Dev.arpRequest (p ip : Nat) (d : Dev) : Dev :=
  if d.carries p ∧ ip ≠ 0 ∧ ip = d.ipv4 p then (d.txFrame p).send (.arpReply p) else d

/-- ECHO_REQUEST: at most 1,024 bytes, at most 64 answers in a second. -/
def Dev.echoRequest (p : Nat) (v6 : Bool) (payload : List Byte) (d : Dev) : Dev :=
  let recent := (d.hp p).echoes.filter fun t => decide (d.now < t + ms 1000)
  if ! d.carries p || 1024 < payload.length || 64 ≤ recent.length then d
  else ((d.setHp p { d.hp p with echoes := d.now :: recent }).txFrame p).send (.echoReply p v6 payload)

/-! ## The ports (R412) -/

/-- HOST_LINK_UP: MKA begins where a key is provisioned, and the addresses are checked. -/
def Dev.hostLinkUp (p : Nat) (d : Dev) : Dev :=
  let i := hostInst p
  if d.rd Reg.HOST_MAC_STATE i = 0 ∨ d.rd Reg.HOST_MAC_STATE i = 3 then d
  else
    let d := ((d.wr Reg.HOST_MAC_STATE i 3).busy (pgHostMac p)).raise (pgHostMac p) 0x0B01 8 Sev.info 0
    let d := if d.sec.cak.isSome then d.wr Reg.HOST_SEC_MKA_STATE i 1 else d
    let d := d.ptpSelect.dadStart p 0
    if d.ipv6 p = 0 then d else d.dadStart p 1

/-- HOST_LINK_DOWN. -/
def Dev.hostLinkDown (p : Nat) (d : Dev) : Dev :=
  let i := hostInst p
  if d.rd Reg.HOST_MAC_STATE i < 2 then d
  else
    let d := (((d.wr Reg.HOST_MAC_STATE i 1).idle (pgHostMac p)).unsecure p 0).setHp p { d.hp p with dad := [], master := none }
    (d.setAddrState p 0).ptpSelect.raise (pgHostMac p) 0x0B02 9 Sev.warn 0

/-- R68, R412: an enabled host port goes to DOWN; one that is switched off loses its link and is DISABLED. -/
def Dev.hostEnable (d : Dev) (p : Nat) (en : Bool) : Dev :=
  let i := hostInst p
  if en then (if d.rd Reg.HOST_MAC_STATE i = 0 then d.wr Reg.HOST_MAC_STATE i 1 else d)
  else (((d.hostLinkDown p).wr Reg.HOST_MAC_STATE i 0).unsecure p 0).ptpSelect

/-! ## Wall time (R417, R418, R447) -/

/-- R418: wall time in ns; 100 ns of package time per unit. -/
def Dev.wallNs (d : Dev) : Nat := (d.host.wallBase + 100 * d.now).toNat
def Dev.wallState (d : Dev) : Nat := d.rd Reg.HOST_PTP_WALL_STATE (hostInst 4)

/-- R448: a package value of the PTP pages is written on all of them. -/
def Dev.ptpAll (d : Dev) (f : Field) (v : Nat) (i : Nat := 0) : Dev := [4, 5, 6, 7].foldl (fun d p => d.wr f (hostInst p) v i) d

/-- R449: a value of MRAM is shown on every HOST_XPORT page. -/
def Dev.xportAll (d : Dev) (f : Field) (v : Nat) : Dev := (List.range 8).foldl (fun d p => d.wr f (hostInst p) v) d

/-- R448: what TAI_SEC and TAI_NS read. -/
def Dev.wallView (d : Dev) : Dev :=
  let t := d.wallNs
  ((d.ptpAll Reg.HOST_PTP_TAI_SEC_LO (t / 10 ^ 9)).ptpAll Reg.HOST_PTP_TAI_SEC_HI (t / 10 ^ 9 / 2 ^ 32)).ptpAll Reg.HOST_PTP_TAI_NS (t % 10 ^ 9)

/-- R417: the order of the best master clock algorithm. -/
def announceKey (a : Announce) : List Nat :=
  [a.priority1.toNat, a.clockClass.toNat, a.accuracy.toNat, a.variance.toNat, a.priority2.toNat, a.gm.toNat, a.stepsRemoved.toNat]

/-- PTP_ANNOUNCE. -/
def Dev.ptpAnnounce (p : Nat) (a : Announce) (d : Dev) : Dev :=
  if ! isControl p || ! d.hostTakes p || ! d.secured p || a.domain.toNat ≠ d.rd Reg.HOST_PTP_DOMAIN (hostInst p) || 255 ≤ a.stepsRemoved.toNat then d
  else
    let x := d.hp p
    let better := match x.master with | some b => keyLt (announceKey a) (announceKey b) || a.gm == b.gm | none => true
    let d := d.setHp p { x with master := if better then some a else x.master, utc := (a.utcOffset.toNat :: x.utc).take 3 }
    let d := d.ptpSelect
    if d.ptpActive ≠ some p then d
    else
      let gm := ((d.hp p).master.map (·.gm.toNat)).getD 0
      let d := (d.ptpAll Reg.HOST_PTP_GM_ID gm 0).ptpAll Reg.HOST_PTP_GM_ID (gm / 2 ^ 32) 1
      let us := (d.hp p).utc
      let d := if us.length = 3 ∧ us.all (· == a.utcOffset.toNat) ∧ a.utcOffset.toNat ≤ 255 then d.ptpAll Reg.HOST_PTP_UTC_OFFSET a.utcOffset.toNat else d
      if d.wallState = 0 ∨ d.wallState = 3 then
        { d with host := { d.host with beyond := 0, offsets := [] } }.ptpAll Reg.HOST_PTP_WALL_STATE 1
      else d

/-- R447: the median of the last exchanges. -/
def medianOf (xs : List Int) : Int := (sortBy (fun a b => decide (a ≤ b)) xs).getD (xs.length / 2) 0

/-- R418, R521: wall time moved by a number of ns; a step back marks the minute. -/
def Dev.moveWall (d : Dev) (by' : Int) : Dev := { d with host := { d.host with wallBase := d.host.wallBase + by' } }
def Dev.markMinute (d : Dev) (bit' : Nat) : Dev := { d with sec := { d.sec with acc := { d.sec.acc with flags := setBit d.sec.acc.flags bit' } } }
def Dev.stepWall (d : Dev) (by' : Int) : Dev := if by' < 0 then (d.moveWall by').markMinute 2 else d.moveWall by'

/-- R418: the offset has stayed within ±1 ms for five exchanges: each of the last five lies within 1 ms of their median. -/
def offsetSteady (xs : List Int) : Bool := decide (xs.length = 5) && xs.all fun x => decide ((x - medianOf xs).natAbs ≤ 1000000)

/-- R450: a step in µs, signed and saturating. -/
def stepDetail (ns : Int) : Nat := wrapI 32 (max (-2147483648) (min 2147483647 (ns / 1000)))

/-- PTP_EXCHANGE: `off` is the measured offset of wall time from the master, in ns. -/
def Dev.ptpExchange (p : Nat) (off : Int) (d : Dev) : Dev :=
  if d.ptpActive ≠ some p then d
  else
    let h := d.host
    let offs := (off :: h.offsets).take 5
    let near := decide (off.natAbs ≤ 1000000)
    let b := if near then 0 else h.beyond + 1
    let dt := d.now - h.lastSync
    let d := { d with host := { h with offsets := offs, beyond := b, lastSync := d.now } }
    let d := d.ptpAll Reg.HOST_PTP_OFFSET_NS (wrapI 32 (max (-2147483648) (min 2147483647 (medianOf offs))))
    let bumpSteps := fun (d : Dev) => d.ptpAll Reg.HOST_PTP_STEPS (sat 16 (d.rd Reg.HOST_PTP_STEPS (hostInst 4) + 1))
    let d := if d.wallState = 1 then
        (if offsetSteady offs then
          ((bumpSteps ((d.stepWall (-off)).ptpAll Reg.HOST_PTP_WALL_STATE 2)).wr Reg.HOST_PTP_PORT_STATE (hostInst p) 3).raise (pgPtp p) 0x0B0A 8 Sev.info 0
         else d)
      else if d.wallState = 2 then
        (if 3 ≤ b then
          (bumpSteps ({ d with host := { d.host with beyond := 0, offsets := [] } }.stepWall (-off))).raise (pgPtp p) 0x0B0C 10 Sev.warn (stepDetail (-off))
         else
          let lim : Int := dt * 100 / 10000
          d.moveWall (max (-lim) (min lim (-(medianOf offs)))))
      else d
    d.wallView

/-- PTP_TIMEOUT: a port has heard no master for three intervals. With none left, wall time that has tracked one since reset is in
HOLDOVER. -/
def Dev.ptpTimeout (p : Nat) (d : Dev) : Dev :=
  let d := (d.setHp p { d.hp p with master := none }).ptpSelect
  if d.ptpActive.isSome ∨ (d.wallState ≠ 1 ∧ d.wallState ≠ 2) then d
  else if d.rd Reg.HOST_PTP_STEPS (hostInst 4) = 0 then d.ptpAll Reg.HOST_PTP_WALL_STATE 0
  else
    ({ d with host := { d.host with holdAt := d.now } }.ptpAll Reg.HOST_PTP_WALL_STATE 3).raise (pgPtp p) 0x0B0B 9 Sev.warn 0

/-! ## Segments (R420, R425 to R427) -/

/-- R421: the segment types. -/
def Seg.open' : Nat := 1
def Seg.accept : Nat := 2
def Seg.data : Nat := 3
def Seg.ack : Nat := 4
def Seg.close : Nat := 5
def Seg.refuse : Nat := 6
def Seg.reset : Nat := 7

/-- R420: header and payload as the CRC covers them. -/
def segCovered (ty : Nat) (g : Segment) : List Byte :=
  natLe 4 g.magic.toNat ++
  natLe 4 (g.ver.toNat + 16 * ty + 256 * ofB g.isFirst + 512 * ofB g.isLast + 1024 * (g.reserved.toNat % 64) + 65536 * g.len.toNat +
    2 ^ 30 * (g.reserved.toNat / 64 % 4)) ++
  natLe 4 g.session.toNat ++ natLe 4 g.seq.toNat ++ natLe 4 g.ack.toNat ++ natLe 4 g.sack.toNat ++ natLe 4 g.channel.toNat ++
  natLe 4 (g.window.toNat + 65536 * (g.reserved.toNat / 256)) ++ g.payload

/-- R420: a segment that is sound, but for VER. -/
def segSound (ty : Nat) (g : Segment) : Bool :=
  g.magic.toNat == 0x4E584854 && g.reserved.toNat == 0 && g.len.toNat == g.payload.length && decide (g.len.toNat ≤ 8192 ∧ g.window.toNat ≤ 256) &&
    crc32 (segCovered ty g) == g.crc.toNat

/-- R425: serial-number arithmetic: how far `a` lies after `b`. -/
def serial (a b : Nat) : Nat := (a + 2 ^ 32 - b % 2 ^ 32) % 2 ^ 32

/-- R414: the same IP address and UDP port. -/
def samePeer (a b : Endpoint) : Bool := a.ip == b.ip && a.udp == b.udp

def Dev.sess (d : Dev) (id : Nat) : Option Sess := d.host.sessions.find? fun s => s.id == id
def Dev.setSess (d : Dev) (s : Sess) : Dev :=
  { d with host := { d.host with sessions := d.host.sessions.map fun x => if x.id = s.id then s else x } }
def Dev.portSessions (d : Dev) (p : Nat) : List Sess := d.host.sessions.filter fun s => s.port == p

/-- R426: receive buffers a session uses: segments held and messages not yet acted on. -/
def Dev.sessUsed (d : Dev) (s : Sess) : Nat :=
  s.held.length + ((s.ctl ++ s.ctlPart.toList).map fun m => (m.length + 8191) / 8192).sum + ((d.host.chans.filter fun c => c.sess == s.id).map fun c =>
    ((c.inbox ++ c.part.toList).map fun m => (m.length + 8191) / 8192).sum).sum

/-- R426: WINDOW: 16 buffers guaranteed to each session of the port's 1,024, the rest shared. -/
def Dev.windowOf (d : Dev) (s : Sess) : Nat :=
  let ss := d.portSessions s.port
  let shared := (ss.map fun x => d.sessUsed x - 16).sum
  min 256 ((16 - d.sessUsed s) + (1024 - 16 * ss.length - shared))

/-- R425: SACK: which of the 32 segments after ACK are held. -/
def Sess.sack (s : Sess) : Nat := (List.range 32).foldl (fun a i => if s.held.any fun h => serial h.seq s.rcv == i + 1 then setBit a i else a) 0

/-- A segment of a session leaves its port, carrying ACK and SACK. -/
def Dev.segOut (d : Dev) (s : Sess) (ty : Nat) (f l : Bool) (seq chan : Nat) (payload : List Byte) : Dev :=
  let d := (d.txFrame s.port).count Reg.HOST_XPORT_SEGS_TX (hostInst s.port)
  let d := d.send (.segment s.port s.peer ty f l s.id seq s.rcv s.sack chan (d.windowOf s) payload)
  d.setSess { s with pend := 0, ackDue := none, lastTx := d.now }

def Dev.ackOut (d : Dev) (s : Sess) : Dev := d.segOut s Seg.ack false false s.next 0 []

def Dev.chan (d : Dev) (h : Nat) : Option Chan := d.host.chans.find? fun c => c.handle == h
def Dev.setChan (d : Dev) (c : Chan) : Dev :=
  { d with host := { d.host with chans := d.host.chans.map fun x => if x.handle = c.handle then c else x } }

/-- R71: the bytes of an event record. -/
def EventRec.bytes (e : EventRec) : List Byte :=
  natLe 2 e.code ++ natLe 1 (e.sev % 4) ++ natLe 1 0 ++ natLe 4 e.source ++ natLe 4 e.beat ++ natLe 4 e.detail

/-- R440: room for 16 MiB of unsent objects: objects that waited come in while there is room. -/
def unsentBytes (c : Chan) : Nat := (c.objs.map fun x => x.2.length).sum - c.objOff
def takeWaiting (c : Chan) : Nat → Chan
  | 0 => c
  | n + 1 =>
    match c.waiting with
    | [] => c
    | x :: rest => if unsentBytes c + x.2.length ≤ 2 ^ 24 then takeWaiting { c with objs := c.objs ++ [x], waiting := rest } n else c

/-- R439, R440: the next message of an EVENT or a RECORD channel, and the channel after it. -/
def nextMessage (c : Chan) : Option (List Byte × Chan) :=
  match c.recs, c.objs with
  | (b, _) :: _, _ =>
    let rs := (c.recs.takeWhile fun x => x.1 == b).take 511
    some (natLe 4 c.sent ++ natLe 2 rs.length ++ natLe 2 (min 65535 c.lost) ++ natLe 8 b ++ rs.flatMap (fun x => EventRec.bytes x.2),
      { c with recs := c.recs.drop rs.length, lost := 0, sent := c.sent + 1 })
  | [], (t, o) :: rest =>
    let n := min 8176 (o.length - c.objOff)
    let c' := if c.objOff + n < o.length then { c with objOff := c.objOff + n } else { c with objs := rest, objOff := 0 }
    some (natLe 4 c.sent ++ natLe 1 t ++ natLe 1 (min 255 c.dropped) ++ natLe 2 0 ++ natLe 4 c.objOff ++ natLe 4 o.length ++ (o.drop c.objOff).take n,
      takeWaiting { c' with dropped := 0, sent := c.sent + 1 } c'.waiting.length)
  | [], [] => none

/-- R428: a message cut into segments of up to 8,192 bytes. -/
def cutMessage (chan : Nat) (msg : List Byte) : List HeldSeg :=
  let n := max 1 ((msg.length + 8191) / 8192)
  (pieces 8192 n msg).zipIdx.map fun (b, k) => ⟨0, Seg.data, k == 0, k + 1 == n, chan, b⟩

/-- A session with nothing queued takes the next message of one of its EVENT or RECORD channels. -/
def Dev.refill (d : Dev) (s : Sess) : Dev :=
  match (d.host.chans.filter fun c => c.sess == s.id).findSome? fun c => nextMessage c with
  | some (msg, c) =>
    let hs := cutMessage c.handle msg
    let n := c.segs + hs.length
    let o := ((d.chan c.handle).bind fun old => old.objs.head?).map (·.2)
    let ended := match o with
      | some b => if c.objOff = 0 ∧ b.length = 128 ∧ leNat (b.take 4) = 0x4E584552 then c.ended ++ [(leNat ((b.drop 16).take 8), n)] else c.ended
      | none => c.ended
    (d.setChan { c with segs := n, ended := ended }).setSess { s with queue := hs }
  | none => d

/-- R426: what a session may send is sent; `n` bounds how many. -/
def Dev.pump (d : Dev) (id : Nat) : Nat → Dev
  | 0 => d
  | n + 1 =>
    match d.sess id with
    | none => d
    | some s0 =>
      let d := if s0.queue = [] ∧ s0.una.length < min s0.window 256 ∧ ! s0.closed then d.refill s0 else d
      match d.sess id with
      | none => d
      | some s =>
        match s.queue with
        | [] => d
        | h :: rest =>
          if min s.window 256 ≤ s.una.length ∨ ! d.carries s.port then d
          else
            let seg : SentSeg := { seq := s.next, ty := h.ty, isFirst := h.isFirst, isLast := h.isLast, chan := h.chan, payload := h.payload, sentAt := d.now }
            let s' := { s with queue := rest, una := s.una ++ [seg], next := (s.next + 1) % 2 ^ 32 }
            Dev.pump (d.segOut s' seg.ty seg.isFirst seg.isLast seg.seq seg.chan seg.payload) id n

def Dev.pumpAll (d : Dev) (id : Nat) : Dev := d.pump id 256

/-- R428: a message is queued, then sent as far as the window goes. -/
def Dev.queueMsg (d : Dev) (id chan : Nat) (msg : List Byte) : Dev :=
  match d.sess id with
  | none => d
  | some s =>
    let hs := cutMessage chan msg
    let d := match d.chan chan with | some c => d.setChan { c with segs := c.segs + hs.length } | none => d
    (d.setSess { s with queue := s.queue ++ hs }).pumpAll id

/-! ## Channels as sessions see them (R431, R434, R435) -/

/-- R431: a session-control message of the package. -/
def Dev.control (d : Dev) (id op code tag handle : Nat) : Dev :=
  d.queueMsg id 0 (natLe 1 op ++ natLe 1 code ++ natLe 2 tag ++ natLe 4 handle ++ natLe 8 0)

/-- R435: a channel goes, with its unsent messages; its session is told when `tell`. -/
def Dev.dropChan (d : Dev) (h code tag : Nat) (tell : Bool) : Dev :=
  match d.chan h with
  | none => d
  | some c =>
    let d := { d with host := { d.host with chans := d.host.chans.filter fun x => x.handle != h } }
    let d := d.wr Reg.HOST_XPORT_CHANNELS_OPEN (hostInst 4) d.host.chans.length
    let d := match d.sess c.sess with
      | some s => d.setSess { s with queue := s.queue.filter fun x => x.chan != h }
      | none => d
    if tell then d.control c.sess 4 code tag h else d

def Dev.sessionsView (d : Dev) (p : Nat) : Dev := d.wr Reg.HOST_XPORT_SESSIONS (hostInst p) (d.portSessions p).length

/-- R424: a session ends with its channels. -/
def Dev.endSession (d : Dev) (id : Nat) : Dev :=
  match d.sess id with
  | none => d
  | some s =>
    let hs := (d.host.chans.filter fun c => c.sess == id).map (·.handle)
    let d := hs.foldl (fun d h => d.dropChan h 1 0 false) d
    { d with host := { d.host with sessions := d.host.sessions.filter fun x => x.id != id } }.sessionsView s.port

/-- R424: a session fails. -/
def Dev.failSession (d : Dev) (id : Nat) : Dev :=
  match d.sess id with
  | none => d
  | some s => ((d.endSession id).bump Reg.HOST_XPORT_SESS_FAILED (hostInst s.port)).raise (pgXport s.port) 0x0B06 9 Sev.warn id

/-- R434: a message of a stale handle is answered, at most once per 10 ms. -/
def Dev.staleChan (d : Dev) (s : Sess) (h : Nat) : Dev :=
  match SMap.find d.host.stales h with
  | some t => if d.now < t + ms 10 then d else go
  | none => go
where
  go : Dev :=
    let d := { d with host := { d.host with stales := SMap.put d.host.stales h d.now } }
    (d.control s.id 5 1 0 h).raise (pgXport s.port) 0x0B08 11 Sev.info (1 + 256 * (h / 2 ^ 28))

/-- A control message that the package acts on. -/
def controlOk (m : List Byte) : Bool := m.length == 16 && [1, 3].contains (fld m 0 1)

/-- R428: the part of a message that a channel of a session holds: none where the handle is stale. Handle 0 is the session's own. -/
def Dev.partOf (d : Dev) (s : Sess) (h : Nat) : Option (Option (List Byte)) :=
  if h = 0 then some s.ctlPart else (d.host.chans.find? fun c => c.handle == h && c.sess == s.id).map (·.part)

def Dev.setPart (d : Dev) (s : Sess) (h : Nat) (x : Option (List Byte)) : Dev :=
  if h = 0 then d.setSess { s with ctlPart := x }
  else match d.chan h with | some c => d.setChan { c with part := x } | none => d

/-- R428: a message has arrived whole on a channel of a session; a session-control message that is none is dropped. -/
def Dev.arrive (d : Dev) (s : Sess) (h : Nat) (msg : List Byte) : Dev :=
  if h = 0 then d.setSess { s with ctlPart := none, ctl := if controlOk msg then s.ctl ++ [msg] else s.ctl }
  else match d.chan h with | some c => d.setChan { c with inbox := c.inbox ++ [msg], part := none } | none => d

/-- R428, R434: one delivered DATA segment. -/
def Dev.deliver (d : Dev) (id : Nat) (g : HeldSeg) : Dev :=
  match d.sess id with
  | none => d
  | some s =>
    let i := hostInst s.port
    match d.partOf s g.chan with
    | none => if g.isLast then d.staleChan s g.chan else d
    | some old =>
      let d := if g.isFirst ∧ old.isSome then d.bump Reg.HOST_XPORT_DUP i else d
      match (if g.isFirst then some [] else old) with
      | none => d
      | some b =>
        let m := b ++ g.payload
        if 65600 < m.length then (d.setPart s g.chan none).bump Reg.HOST_XPORT_DUP i
        else if g.isLast then d.arrive s g.chan m
        else d.setPart s g.chan (some m)

/-- R425: held segments are delivered as long as the next is there; `n` bounds how many. -/
def Dev.deliverAll (d : Dev) (id : Nat) : Nat → Dev
  | 0 => d
  | n + 1 =>
    match d.sess id with
    | none => d
    | some s =>
      match s.held.find? fun h => h.seq == s.rcv with
      | none => d
      | some h =>
        let d := d.setSess { s with held := s.held.filter fun x => x.seq != h.seq, rcv := (s.rcv + 1) % 2 ^ 32 }
        let d := if h.ty = Seg.close then
            (match d.sess id with
             | some s =>
               let was := s.closed
               let d := d.setSess { s with peerClosed := true, closed := true, closeAt := if was then s.closeAt else d.now,
                                           queue := if was then s.queue else s.queue ++ [⟨0, Seg.close, false, false, 0, []⟩] }
               d.pumpAll id
             | none => d)
          else d.deliver id h
        Dev.deliverAll d id n

/-! ## Acknowledgements and timers (R426, R427) -/

/-- R427, RFC 6298: a round-trip sample, in units of 100 ns. -/
def Sess.sample (s : Sess) (min' r : Nat) : Sess :=
  let x := match s.srtt with
    | none => (r, r / 2)
    | some t => ((7 * t + r) / 8, (3 * s.rttvar + ((t : Int) - r).natAbs) / 4)
  { s with srtt := some x.1, rttvar := x.2, rto := max min' (min (ms 100) (x.1 + max 10 (4 * x.2))) }

/-- R443: segments of a channel that wait for an acknowledgement or to be sent. -/
def Dev.outstanding (d : Dev) (c : Chan) : Nat :=
  match d.sess c.sess with
  | some s => (s.una.filter fun x => x.chan == c.handle).length + (s.queue.filter fun x => x.chan == c.handle).length
  | none => 0

/-- R524: energy records that a session has acknowledged whole. -/
def Dev.noteDelivered (d : Dev) (id : Nat) : Dev :=
  (d.host.chans.filter fun c => c.sess == id && ! c.ended.isEmpty).foldl (fun (d : Dev) c =>
    let n := c.segs - d.outstanding c
    let done := (c.ended.filter fun e => decide (e.2 ≤ n)).map (·.1)
    let d := d.setChan { c with ended := c.ended.filter fun e => decide (n < e.2) }
    { d with sec := { d.sec with delivered := d.sec.delivered ++ done.filter fun q => ! d.sec.delivered.contains q } }) d

/-- R425, R426: ACK and SACK of a received segment. -/
def Dev.takeAck (d : Dev) (id ack sack window : Nat) : Dev :=
  match d.sess id with
  | none => d
  | some s =>
    let acked := fun (x : SentSeg) => decide (0 < serial ack x.seq ∧ serial ack x.seq ≤ 2 ^ 31)
    let rtoMin := us (d.rd Reg.HOST_XPORT_RTO_MIN_US (hostInst s.port))
    let s' := match (s.una.filter acked).getLast? with
      | some x => if x.tries = 0 then s.sample rtoMin (d.now - x.sentAt) else s
      | none => s
    let rest := (s.una.filter fun x => ! acked x).map fun x =>
      let k := serial x.seq ack
      if 1 ≤ k ∧ k ≤ 32 ∧ bit sack (k - 1) then { x with held := true } else x
    ((d.setSess { s' with una := rest, window := window }).noteDelivered id).pumpAll id

/-- R427: the oldest unacknowledged segment is sent again. -/
def Dev.resend (d : Dev) (s : Sess) (x : SentSeg) (fast : Bool) : Dev :=
  let x' := { x with tries := x.tries + 1, sentAt := d.now, fastAt := if fast then some d.now else x.fastAt }
  let s' := { s with una := x' :: s.una.drop 1 }
  (d.bump Reg.HOST_XPORT_RETRANSMITS (hostInst s.port)).segOut s' x.ty x.isFirst x.isLast x.seq x.chan x.payload

/-- R427: SACK shows three later segments held: the oldest is sent again, at most once per RTO. -/
def Dev.fastResend (d : Dev) (id : Nat) : Dev :=
  match d.sess id with
  | none => d
  | some s =>
    match s.una with
    | [] => d
    | x :: xs =>
      let due := match x.fastAt with | some t => decide (t + s.rto ≤ d.now) | none => true
      if x.held ∨ (xs.filter (·.held)).length < 3 ∨ ! due then d
      else if d.rd Reg.HOST_XPORT_RETRY_LIMIT (hostInst s.port) ≤ x.tries then d.failSession id
      else d.resend s x true

/-- R424: both CLOSE segments have been acknowledged. -/
def Dev.closeDone (d : Dev) (id : Nat) : Dev :=
  match d.sess id with
  | some s => if s.peerClosed ∧ s.closed ∧ s.una.isEmpty ∧ s.queue.isEmpty then d.endSession id else d
  | none => d

/-! ## Receiving segments (R420, R423 to R425) -/

def Dev.badSegment (d : Dev) (p : Nat) : Dev := d.bump Reg.HOST_XPORT_CRC_FAIL (hostInst p)

/-- R421, R423: REFUSE. -/
def Dev.refuse (d : Dev) (p : Nat) (peer : Endpoint) (session code : Nat) : Dev :=
  ((d.txFrame p).count Reg.HOST_XPORT_SEGS_TX (hostInst p)).send
    (.segment p peer Seg.refuse false false session 0 0 0 0 0 (natLe 4 code))

/-- R423 code 4, at most once per millisecond to each source. -/
def Dev.refuseUnknown (d : Dev) (p : Nat) (peer : Endpoint) (session : Nat) : Dev :=
  let x := d.hp p
  if x.unknown.any fun u => samePeer u.1 peer && decide (d.now < u.2 + ms 1) then d
  else
    let d := d.setHp p { x with unknown := (peer, d.now) :: x.unknown.filter fun u => ! samePeer u.1 peer && decide (d.now < u.2 + ms 1) }
    d.refuse p peer session 4

/-- A segment of type DATA, ACK or CLOSE is received: the common part, then `act` on the session. -/
def Dev.segIn (d : Dev) (p ty : Nat) (peer : Endpoint) (g : Segment) (act : Dev → Sess → Dev) : Dev :=
  if ! d.carries p then d
  else if ! segSound ty g || g.ver.toNat != 1 then d.badSegment p
  else
    match d.sess g.session.toNat with
    | none => d.refuseUnknown p peer g.session.toNat
    | some s =>
      if s.port ≠ p then d.refuseUnknown p peer g.session.toNat
      else
        let d := (d.count Reg.HOST_XPORT_SEGS_RX (hostInst p)).setSess { s with peer := peer, lastRx := d.now }
        let d := (d.takeAck s.id g.ack.toNat g.sack.toNat g.window.toNat).fastResend s.id
        match d.sess s.id with
        | some s => (act d s).closeDone s.id
        | none => d

/-- R425: a segment that consumes SEQ is held, or counted as a duplicate and answered with an ACK. -/
def Dev.holdSeg (d : Dev) (s : Sess) (g : HeldSeg) : Dev :=
  if 256 ≤ serial g.seq s.rcv ∨ s.held.any (fun h => h.seq == g.seq) then
    (d.bump Reg.HOST_XPORT_DUP (hostInst s.port)).ackOut s
  else
    let d := d.setSess { s with held := s.held ++ [g], pend := s.pend + 1, ackDue := some (s.ackDue.getD (d.now + us 20)) }
    let d := d.deliverAll s.id 257
    match d.sess s.id with
    | some s => if 16 ≤ s.pend then d.ackOut s else d
    | none => d

/-- R423: an id not in use and not 0, from a free value on upwards. -/
def pickId (used : List Nat) (w : Nat) : Nat :=
  ((List.range (used.length + 2)).map fun k => (w + k) % 2 ^ 32).find? (fun x => x != 0 && ! used.contains x) |>.getD 1

/-- R423: a session is granted. -/
def Dev.grant (d : Dev) (p : Nat) (peer : Endpoint) (g : Segment) : Dev :=
  let f := d.draw
  let f' := f.2.draw
  let d := f'.2
  let id := pickId (d.host.sessions.map (·.id)) (Config.freeWord f.1).toNat
  let isn := (Config.freeWord f'.1).toNat
  let s : Sess := { id := id, port := p, peer := peer, nonce := g.payload.take 8, next := isn, rcv := (g.seq.toNat + 1) % 2 ^ 32, lastRx := d.now,
                    lastTx := d.now, window := max 1 g.window.toNat, rto := max (us (d.rd Reg.HOST_XPORT_RTO_MIN_US (hostInst p))) (ms 100),
                    queue := [⟨0, Seg.accept, false, false, 0, g.payload.take 8 ++ List.replicate 8 0⟩] }
  let d := { d with host := { d.host with sessions := d.host.sessions ++ [s] } }.sessionsView p
  (d.raise (pgXport p) 0x0B05 8 Sev.info id).pumpAll id

/-- OPEN. -/
def Dev.hostOpen (p : Nat) (peer : Endpoint) (g : Segment) (d : Dev) : Dev :=
  if ! d.carries p then d
  else if ! segSound Seg.open' g || g.payload.length != 16 || leNat (g.payload.drop 8) != 0 then d.badSegment p
  else if g.ver.toNat ≠ 1 then d.refuse p peer 0 2
  else if ! isControl p && d.level < 2 then d.refuse p peer 0 3
  else
    match (d.portSessions p).find? fun s => samePeer s.peer peer with
    | some s =>
      if s.nonce = g.payload.take 8 then
        match s.una.find? fun x => x.ty == Seg.accept with
        | some x => d.segOut s Seg.accept false false x.seq 0 x.payload
        | none => d.segOut s Seg.accept false false (s.next + 2 ^ 32 - 1) 0 (s.nonce ++ List.replicate 8 0)
      else (d.endSession s.id).grant p peer g
    | none => if 64 ≤ (d.portSessions p).length then d.refuse p peer 0 1 else d.grant p peer g

/-- DATA. -/
def Dev.hostData (p : Nat) (peer : Endpoint) (g : Segment) (d : Dev) : Dev :=
  d.segIn p Seg.data peer g fun d s => d.holdSeg s ⟨g.seq.toNat, Seg.data, g.isFirst, g.isLast, g.channel.toNat, g.payload⟩

/-- ACK. -/
def Dev.hostAck (p : Nat) (peer : Endpoint) (g : Segment) (d : Dev) : Dev := d.segIn p Seg.ack peer g fun d _ => d

/-- CLOSE. -/
def Dev.hostClose (p : Nat) (peer : Endpoint) (g : Segment) (d : Dev) : Dev :=
  d.segIn p Seg.close peer g fun d s =>
    let d := d.holdSeg s ⟨g.seq.toNat, Seg.close, false, false, 0, []⟩
    match d.sess s.id with
    | some s => if 0 < s.pend then d.ackOut s else d
    | none => d

/-- ACK_TIMER: 20 µs after an accepted segment, or 100 ms after the last segment sent. -/
def Dev.ackTimer (id : Nat) (d : Dev) : Dev :=
  match d.sess id with
  | some s => (d.passTo (s.ackDue.getD (s.lastTx + ms 100))).ackOut s
  | none => d

/-- RTO_EXPIRY. -/
def Dev.rtoExpiry (id : Nat) (d : Dev) : Dev :=
  match d.sess id with
  | none => d
  | some s =>
    match s.una with
    | [] => d
    | x :: _ =>
      let d := d.passTo (x.sentAt + s.rto)
      if d.rd Reg.HOST_XPORT_RETRY_LIMIT (hostInst s.port) ≤ x.tries then d.failSession id
      else d.resend { s with rto := min (ms 100) (2 * s.rto) } x false

/-- SESSION_DEAD: DEAD_MS without a valid segment, or after the first CLOSE. -/
def Dev.sessionDead (id : Nat) (d : Dev) : Dev :=
  match d.sess id with
  | none => d
  | some s =>
    let dead := ms (d.rd Reg.HOST_XPORT_DEAD_MS (hostInst s.port))
    if s.closed then (d.passTo (s.closeAt + dead)).endSession id else (d.passTo (s.lastRx + dead)).failSession id

/-! ## Counters (R448) -/

def Dev.hostMacClr (d : Dev) (p : Nat) : Dev :=
  d.clearFields (hostInst p) [Reg.HOST_MAC_RX_FRAMES, Reg.HOST_MAC_TX_FRAMES, Reg.HOST_MAC_FCS_ERR, Reg.HOST_MAC_OVERSIZE, Reg.HOST_MAC_RX_DROP,
    Reg.HOST_MAC_OTHER, Reg.HOST_MAC_PAUSE_RX]
def Dev.hostSecClr (d : Dev) (p : Nat) : Dev :=
  d.clearFields (hostInst p) [Reg.HOST_SEC_ICV_FAIL, Reg.HOST_SEC_REPLAY_DROP, Reg.HOST_SEC_UNPROTECTED_DROP, Reg.HOST_SEC_SAK_CHANGES]
def Dev.hostXportClr (d : Dev) (p : Nat) : Dev :=
  d.clearFields (hostInst p) [Reg.HOST_XPORT_SEGS_RX, Reg.HOST_XPORT_SEGS_TX, Reg.HOST_XPORT_RETRANSMITS, Reg.HOST_XPORT_DUP,
    Reg.HOST_XPORT_CRC_FAIL, Reg.HOST_XPORT_SESS_FAILED, Reg.HOST_XPORT_RESET_REJECTED]

/-! ## The commands -/

def execEthernetFrameReceive (port : BitVec 3) (f : EthFrame) (s : State) : Host.Outcome State Fault Refusal :=
  runDev s (Dev.frameReceive port.toNat f)
def execMkaFrame (port : BitVec 3) (f : MkaFrame) (s : State) : Host.Outcome State Fault Refusal := runDev s (Dev.mkaFrame port.toNat f)
def execMkaPeerLost (port : BitVec 3) (s : State) : Host.Outcome State Fault Refusal := runDev s (Dev.mkaPeerLost port.toNat)
def execArpRequest (port : BitVec 3) (ip : BitVec 32) (s : State) : Host.Outcome State Fault Refusal := runDev s (Dev.arpRequest port.toNat ip.toNat)
def execNeighborSolicitation (port : BitVec 3) (ip : BitVec 128) (advert : Bool) (s : State) : Host.Outcome State Fault Refusal :=
  runDev s (Dev.neighborSol port.toNat ip.toNat advert)
def execEchoRequest (port : BitVec 3) (v6 : Bool) (payload : List Byte) (s : State) : Host.Outcome State Fault Refusal :=
  runDev s (Dev.echoRequest port.toNat v6 payload)
def execPtpAnnounce (port : BitVec 3) (a : Announce) (s : State) : Host.Outcome State Fault Refusal := runDev s (Dev.ptpAnnounce port.toNat a)
def execPtpExchange (port : BitVec 3) (offset : BitVec 64) (s : State) : Host.Outcome State Fault Refusal :=
  runDev s (Dev.ptpExchange port.toNat offset.toInt)
def execPtpTimeout (port : BitVec 3) (s : State) : Host.Outcome State Fault Refusal := runDev s (Dev.ptpTimeout port.toNat)
def execHostOpen (port : BitVec 3) (peer : Endpoint) (g : Segment) (s : State) : Host.Outcome State Fault Refusal :=
  runDev s (Dev.hostOpen port.toNat peer g)
def execHostData (port : BitVec 3) (peer : Endpoint) (g : Segment) (s : State) : Host.Outcome State Fault Refusal :=
  runDev s (Dev.hostData port.toNat peer g)
def execHostAck (port : BitVec 3) (peer : Endpoint) (g : Segment) (s : State) : Host.Outcome State Fault Refusal :=
  runDev s (Dev.hostAck port.toNat peer g)
def execHostClose (port : BitVec 3) (peer : Endpoint) (g : Segment) (s : State) : Host.Outcome State Fault Refusal :=
  runDev s (Dev.hostClose port.toNat peer g)
def execAckTimer (session : BitVec 32) (s : State) : Host.Outcome State Fault Refusal := runDev s (Dev.ackTimer session.toNat)
def execRtoExpiry (session : BitVec 32) (s : State) : Host.Outcome State Fault Refusal := runDev s (Dev.rtoExpiry session.toNat)
def execSessionDead (session : BitVec 32) (s : State) : Host.Outcome State Fault Refusal := runDev s (Dev.sessionDead session.toNat)
def execHostMacCntClr (r : Requester) (port : BitVec 3) (s : State) : Host.Outcome State Fault Refusal :=
  runDev s fun d => d.action r (pgHostMac port.toNat) 0x0A0 false fun d => (Cc.done, d.hostMacClr port.toNat)
def execHostSecCntClr (r : Requester) (port : BitVec 3) (s : State) : Host.Outcome State Fault Refusal :=
  runDev s fun d => d.action r (pgHostSec port.toNat) 0x09C false fun d => (Cc.done, d.hostSecClr port.toNat)
def execHostXportCntClr (r : Requester) (port : BitVec 3) (s : State) : Host.Outcome State Fault Refusal :=
  runDev s fun d => d.action r (pgXport port.toNat) 0x0B8 false fun d => (Cc.done, d.hostXportClr port.toNat)
def execHostLinkUp (port : BitVec 3) (s : State) : Host.Outcome State Fault Refusal := runDev s (Dev.hostLinkUp port.toNat)
def execHostLinkDown (port : BitVec 3) (s : State) : Host.Outcome State Fault Refusal := runDev s (Dev.hostLinkDown port.toNat)
def execDuplicateAddressDetectionEnd (port : BitVec 3) (link : Bool) (s : State) : Host.Outcome State Fault Refusal :=
  runDev s (Dev.dadEnd port.toNat (if link then 0 else 1))

end Sys2Proof.Machine
end

