-- ==== Sys2Proof/Machine/Channels.lean ====
section
/-! DEFINITION. Channels: creation and destruction, event and record delivery, and the data channels (R429 to R436, R439 to R443). -/

namespace Sys2Proof.Machine

/-! ## Creation and destruction (R429 to R435) -/

/-- R430: the kinds. -/
def Kd.hostIn : Nat := 1
def Kd.hostOut : Nat := 2
def Kd.reg : Nat := 3
def Kd.event : Nat := 4
def Kd.record : Nat := 5
def Kd.drain : Nat := 6
def Kd.trade : Nat := 7
def Kd.lease : Nat := 8

def kindOf (h : Nat) : Nat := h / 2 ^ 28
def chansOf (d : Dev) (k : Nat) : List Chan := d.host.chans.filter fun c => kindOf c.handle == k
def isStore (param : Nat) : Bool := bit param 24

/-- R422, R430: a front-network session is open. -/
def Dev.frontOpen (d : Dev) : Bool := d.host.sessions.any fun s => ! isControl s.port

/-- R433: the draft that is loaded names this tensor with this kind. -/
def Dev.namesTensor (d : Dev) (t kind : Nat) : Bool :=
  [3, 4, 5].contains (d.g Reg.DRAFT_STATUS_STATE) &&
    (match Dr.tensorIdx d.plan.draft t with | some i => Dr.tKind d.plan.draft i == kind | none => false)

/-- R430, R432, R433: why a CREATE is refused. -/
def Dev.createRefusal (d : Dev) (port handle param : Nat) : Option Nat :=
  let k := kindOf handle
  let same := chansOf d k
  let data := k == Kd.hostIn || k == Kd.hostOut
  let front := ! isControl port
  let level := if data then (if isStore param then 2 else 3) else if k = Kd.drain ∧ front then 3 else 1
  let limit := if k = Kd.reg ∨ k = Kd.drain then 64 else if k = Kd.event ∨ k = Kd.record then 16 else 1
  let used := if ! data then same.length
    else if isStore param then (same.filter fun c => isStore c.param).length
    else (same.filter fun c => ! isStore c.param && c.param % 2 ^ 24 == param % 2 ^ 24).length
  let paramBits := if data then 25 else if k = Kd.reg then 1 else if k = Kd.event then 18 else if k = Kd.record then 4 else 0
  if k = 0 ∨ 8 < k ∨ handle % 2 ^ 28 ≠ 0 ∨ (data && ! front) ∨ (! data && k != Kd.drain && front) then some 2
  else if d.level < level then some 3
  else if 4096 ≤ d.host.chans.length then some 4
  else if (if data ∧ isStore param then 16 else limit) ≤ used then some 5
  else if 2 ^ paramBits ≤ param then some 6
  else if k = Kd.drain ∧ ! front ∧ d.frontOpen then some 7
  else if data ∧ ! isStore param ∧ ! d.namesTensor (param % 2 ^ 24) (if k = Kd.hostIn then 4 else 5) then some 8
  else none

/-- R433: a refusal. -/
def Dev.refuseChan (d : Dev) (s : Sess) (code tag handle : Nat) : Dev :=
  (d.control s.id 5 code tag handle).raise (pgXport s.port) 0x0B08 11 Sev.info (code + 256 * kindOf handle)

/-- R429: the lowest free index, and the generation after the index's previous one. -/
def Dev.newHandle (d : Dev) (k : Nat) : Nat × Dev :=
  let used := d.host.chans.map fun c => bits c.handle 16 12
  let i := ((List.range 4096).find? fun i => ! used.contains i).getD 0
  let g := SMap.at d.host.gens i 0
  let g' := if g = 65535 then 1 else g + 1
  (k * 2 ^ 28 + i * 65536 + g', { d with host := { d.host with gens := SMap.put d.host.gens i g' } })

/-- The oldest session-control message of a session, when it has this OP. -/
def Dev.takeControl (d : Dev) (id op : Nat) : Option (Sess × List Byte × Dev) :=
  match d.sess id with
  | none => none
  | some s =>
    match s.ctl with
    | m :: rest => if fld m 0 1 = op then some (s, m, d.setSess { s with ctl := rest }) else none
    | [] => none

/-- CREATE. -/
def Dev.chanCreate (id : Nat) (d : Dev) : Dev :=
  match d.takeControl id 1 with
  | none => d
  | some (s, m, d) =>
    let tag := fld m 2 2
    let handle := fld m 4 4
    let param := fld m 8 8
    match d.createRefusal s.port handle param with
    | some code => d.refuseChan s code tag handle
    | none =>
      let r := d.newHandle (kindOf handle)
      let d := r.2
      let d := { d with host := { d.host with chans := d.host.chans ++ [({ handle := r.1, sess := id, port := s.port, param := param } : Chan)] } }
      (d.wr Reg.HOST_XPORT_CHANNELS_OPEN (hostInst 4) d.host.chans.length).control id 2 0 tag r.1

/-- DESTROY. -/
def Dev.chanDestroy (id : Nat) (d : Dev) : Dev :=
  match d.takeControl id 3 with
  | none => d
  | some (s, m, d) =>
    let h := fld m 4 4
    if (d.host.chans.any fun c => c.handle == h && c.sess == id) then d.dropChan h 0 (fld m 2 2) true else d.refuseChan s 1 (fld m 2 2) h

/-- The oldest message on a channel of a kind that has arrived whole and is not yet acted on (R436). -/
def Dev.takeMessage (d : Dev) (h kind : Nat) : Option (Chan × List Byte × Dev) :=
  match d.chan h with
  | none => none
  | some c =>
    if kindOf h ≠ kind then none
    else match c.inbox with
      | m :: rest => some ({ c with inbox := rest }, m, d.setChan { c with inbox := rest })
      | [] => none

/-! ## Events and records (R439, R440) -/

/-- R71, R432: whether a record passes a channel's filter. -/
def passes (param : Nat) (e : EventRec) : Bool := decide (param % 4 ≤ e.sev) && bit param (2 + bits e.code 8 4) && decide (e.code < 0x1000)

/-- R439: the records of a beat that ends go to one EVENT channel; records beyond 4,096 unsent ones are lost to it. -/
def giveEvents (beat : Nat) (rs : List EventRec) (c : Chan) : Chan :=
  let mine := rs.filter (passes c.param)
  let room := 4096 - c.recs.length
  { c with recs := c.recs ++ (mine.take room).map fun e => (beat, e), lost := sat 16 (c.lost + (mine.length - room)) }

/-- R73: the order of delivery within a beat. -/
def bySource (rs : List EventRec) : List EventRec := rs.foldr (insertBy fun a b => decide (a.source ≤ b.source)) []

/-- R73, R439: at the end of a beat the queues empty, and the package manager's records go to the EVENT channels. A queue that had
lost records keeps their count until EVENT_Q reports it (R74). -/
def Dev.deliverEvents (d : Dev) : Dev :=
  let beat := if d.beatSeen then d.beatNum else 2 ^ 64 - 1
  let rs := bySource ((SMap.at d.queues 32 {}).recs)
  let d : Dev := { d with queues := (d.queues.filter fun (q : Nat × EvQueue) => decide (0 < q.2.lost)).map fun (q : Nat × EvQueue) => (q.1, ({ q.2 with recs := [] } : EvQueue)) }
  let d := { d with host := { d.host with chans := d.host.chans.map fun c => if kindOf c.handle = Kd.event then giveEvents beat rs c else c } }
  ((chansOf d Kd.event).map (·.sess)).eraseDups.foldl (fun d id => d.pumpAll id) d

/-- R440: an object goes to every RECORD channel that subscribes to its TYPE: 0 step record, 1 plan table, 2 energy record, 3 quote. -/
def Dev.record (d : Dev) (ty : Nat) (obj : List Byte) : Dev :=
  let give := fun (c : Chan) =>
    if kindOf c.handle ≠ Kd.record ∨ ! bit c.param ty then c
    else if c.waiting = [] ∧ unsentBytes c + obj.length ≤ 2 ^ 24 then { c with objs := c.objs ++ [(ty, obj)] }
    else if ty ≤ 1 then { c with dropped := sat 8 (c.dropped + 1) }
    else { c with waiting := c.waiting ++ [(ty, obj)] }
  let d := { d with host := { d.host with chans := d.host.chans.map give } }
  ((chansOf d Kd.record).map (·.sess)).eraseDups.foldl (fun d id => d.pumpAll id) d

/-! ## Homes in the pantry (R314) -/

/-- Bytes of tensor `i` of the draft as this package stores it. -/
def Dev.tensorBytes (d : Dev) (i : Nat) : Nat := Dr.stored d.plan.draft d.coords i

/-- How many copies PANTRY holds of a tensor of a kind. -/
def copiesOf (kind : Nat) : Nat := if kind = 3 ∨ kind = 6 then 1 else if kind = 4 then 2 else if kind = 5 then 3 else 0

/-- R314: where copy `c` of tensor `t` begins in PANTRY's striped part, and its bytes: the tensors in ascending id, their copies one after
another. -/
def Dev.pantryHome (d : Dev) (t c : Nat) : Option (Nat × Nat) :=
  let b := d.plan.draft
  match Dr.tensorIdx b t with
  | none => none
  | some i =>
    let before := (List.range (Dr.nTensors b)).filter fun j => decide (Dr.tId b j < t)
    some ((before.map fun j => copiesOf (Dr.tKind b j) * d.tensorBytes j).sum + c * d.tensorBytes i, d.tensorBytes i)

/-! ## HOST_IN (R441, R442) -/

/-- R441: a status message. -/
def Dev.inStatus (d : Dev) (c : Chan) (step code off : Nat) : Dev :=
  d.queueMsg c.sess c.handle (natLe 8 step ++ natLe 1 code ++ natLe 3 0 ++ natLe 4 off)

/-- R441: a header is sound for its channel. -/
def headOk (store : Bool) (m : List Byte) (data : Bool) : Bool :=
  decide (32 ≤ m.length) && bit (fld m 0 4) 1 == store && decide (fld m 0 4 < 4) && fld m 4 4 == 0 && allZero m 0x18 0x20 &&
    (fld m 0x14 4) % 64 == 0 && decide (fld m 0x14 4 ≤ 65536) && m.length == 32 + (if data then fld m 0x14 4 else 0)

/-- R442: a range joins the ranges written, kept apart, in order and merged. -/
def addRange (lo hi : Nat) : List (Nat × Nat) → List (Nat × Nat)
  | [] => [(lo, hi)]
  | (a, b) :: rest =>
    if hi < a then (lo, hi) :: (a, b) :: rest
    else if b < lo then (a, b) :: addRange lo hi rest
    else addRange (min lo a) (max hi b) rest

/-- R442: the buffer of a tensor for a step. -/
def Dev.inBuf (d : Dev) (t step : Nat) : InBuf := (d.host.inputs.find? fun x => x.tensor == t && x.step == step).getD ⟨t, step, [], false⟩
def Dev.setInBuf (d : Dev) (x : InBuf) : Dev :=
  { d with host := { d.host with inputs := x :: d.host.inputs.filter fun y => ! (y.tensor == x.tensor && y.step == x.step) } }

/-- R254, R442: the input data of a step is complete. -/
def Dev.inputWhole (d : Dev) (t step : Nat) : Bool := (d.inBuf t step).ended

/-- The bytes of a store write; values nobody knows where the write met an error. -/
def Dev.landed (d : Dev) (err : Bool) (bs : List Byte) : List Byte × Dev :=
  if err then d.freeBytes bs.length else (bs, d)

/-- R442: the running step; at READY it is step 0. -/
def Dev.inputStep (d : Dev) : Nat :=
  if d.g Reg.DRAFT_STATUS_STATE = 3 then 0 else d.g64 Reg.STEP_REC_STEP_LO Reg.STEP_REC_STEP_HI

/-- R441, R442: a data message in TENSOR mode; `err` says that writing met a store error. -/
def Dev.inTensor (d : Dev) (c : Chan) (m : List Byte) (err : Bool) : Dev :=
  let t := c.param % 2 ^ 24
  let step := fld m 8 8
  let off := fld m 0x10 4
  let n := fld m 0x14 4
  let fin := bit (fld m 0 4) 0
  match headOk false m true, d.pantryHome t (step % 2) with
  | true, some (home, size) =>
    if step ≠ d.inputStep ∧ step ≠ d.inputStep + 1 then d.inStatus c step 1 off
    else
      let x := d.inBuf t step
      if x.ended then d.inStatus c step 3 off
      else if off % 64 ≠ 0 ∨ size < off + n then d.inStatus c step 4 off
      else
        let w := d.landed err (m.drop 32)
        let d := w.2.pokeStripe 4 (home + off) w.1
        if err then d.inStatus c step 5 off
        else
          let rs := if n = 0 then x.ranges else addRange off (off + n) x.ranges
          let whole := decide (size = 0) || rs == [(0, size)]
          let d := d.setInBuf { x with ranges := rs, ended := fin && whole }
          if ! fin then d else d.inStatus c step (if whole then 0 else 2) off
  | _, _ => d.inStatus c step 4 off

/-- R441, R442: a STORE access: where its bytes lie, or the code of the refusal. -/
def Dev.storeSpan (d : Dev) (m : List Byte) : Except Nat Nat :=
  let space := fld m 8 1 % 16
  let addr := fld m 0xC 4
  let n := fld m 0x14 4
  let st := d.g Reg.DRAFT_STATUS_STATE
  let stack := bits addr 27 3
  if fld m 8 4 ≠ space then .error 4
  else if space = 1 then
    if larderSize < 64 * addr + n then .error 4
    else if st = 0 ∨ st = 3 ∨ st = 6 then .ok (larderBase d.loadLarder + 64 * addr) else .error 3
  else if space = 2 then
    let off := 512 * (addr % 2 ^ 27)
    if n % 512 ≠ 0 ∨ bits addr 30 2 ≠ 0 ∨ stackOut d.faults stack ∨ d.level < 3 ∨ d.rd Reg.HBM_PART_SIZE (hbmInst stack) 4 * granule < off + n then .error 4
    else if [1, 2, 4, 5].contains st ∧ 2 ^ 27 < off + n then .error 3
    else .ok (hbmBase stack + d.rd Reg.HBM_PART_BASE (hbmInst stack) 4 * granule + off)
  else .error 4

def Dev.inStore (d : Dev) (c : Chan) (m : List Byte) (err : Bool) : Dev :=
  let step := fld m 8 8
  let off := fld m 0x10 4
  match headOk true m true, d.storeSpan m with
  | true, .ok a =>
    let w := d.landed err (m.drop 32)
    let d := w.2.poke a w.1
    if err then d.inStatus c step 5 off else if bit (fld m 0 4) 0 then d.inStatus c step 0 off else d
  | true, .error code => d.inStatus c step code off
  | _, _ => d.inStatus c step 4 off

/-- HOST_IN_DATA. -/
def Dev.hostIn (h : Nat) (err : Bool) (d : Dev) : Dev :=
  match d.takeMessage h Kd.hostIn with
  | some (c, m, d) => if isStore c.param then d.inStore c m err else d.inTensor c m err
  | none => d

/-! ## HOST_OUT (R443) -/

/-- HOST_OUT_REQUEST: a STORE request is answered; one that the rules refuse is dropped. -/
def Dev.outRequest (h : Nat) (mem : Mem) (d : Dev) : Dev :=
  match d.takeMessage h Kd.hostOut with
  | none => d
  | some (c, m, d) =>
    match isStore c.param && headOk true m false, d.storeSpan m with
    | true, .ok a => d.queueMsg c.sess h (m ++ mem.bytes a (fld m 0x14 4))
    | _, _ => d

/-- R443: an output that has been acknowledged whole. -/
def Dev.outAcked (d : Dev) (x : OutBuf) : Bool :=
  match x.upTo, (chansOf d Kd.hostOut).find? fun c => ! isStore c.param && c.param % 2 ^ 24 == x.tensor with
  | some n, some c => decide (n ≤ c.segs - d.outstanding c)
  | _, _ => false

/-- R443: step `s` has committed: its OUTPUT tensors are held; with a third one the oldest not yet acknowledged is dropped. -/
def Dev.holdOutputs (d : Dev) (s : Nat) : Dev :=
  let b := d.plan.draft
  let outs := sortBy (fun a b => decide (a ≤ b)) (((List.range (Dr.nTensors b)).filter fun i => Dr.tKind b i == 5 && d.tensorBytes i != 0).map (Dr.tId b))
  outs.foldl (fun d t =>
    let mine := d.host.outputs.filter fun x => x.tensor == t && ! d.outAcked x
    let rest := d.host.outputs.filter fun x => x.tensor != t
    let keep := if 2 ≤ mine.length then mine.drop (mine.length - 1) else mine
    let d' := { d with host := { d.host with outputs := rest ++ keep ++ [({ tensor := t, step := s } : OutBuf)] } }
    if 2 ≤ mine.length then d'.raise (pgXport 4) 0x0B0E 13 Sev.warn t else d') d

/-- HOST_OUT_SEND: the next message of the oldest output that is not yet sent whole leaves on its channel in the slack window. -/
def Dev.outSend (h : Nat) (mem : Mem) (d : Dev) : Dev :=
  match d.chan h with
  | none => d
  | some c =>
    let t := c.param % 2 ^ 24
    if kindOf h ≠ Kd.hostOut ∨ isStore c.param ∨ ! d.slackOpen then d
    else
      match d.host.outputs.find? fun x => x.tensor == t && x.upTo.isNone with
      | none => d
      | some x =>
        match d.pantryHome t (x.step % 3) with
        | none => d
        | some (home, size) =>
          let n := min 65536 (size - x.off)
          let fin := decide (size ≤ x.off + n)
          let d := d.queueMsg c.sess h (natLe 4 (ofB fin) ++ natLe 4 0 ++ natLe 8 x.step ++ natLe 4 x.off ++ natLe 4 n ++ natLe 8 0 ++
            d.readStripe mem 4 (home + x.off) n)
          let segs := ((d.chan h).map (·.segs)).getD 0
          let x' := { x with off := x.off + n, upTo := if fin then some segs else none }
          { d with host := { d.host with outputs := d.host.outputs.map fun y => if y = x then x' else y } }

/-! ## The commands -/

def execChanCreate (session : BitVec 32) (s : State) : Host.Outcome State Fault Refusal := runDev s (Dev.chanCreate session.toNat)
def execChanDestroy (session : BitVec 32) (s : State) : Host.Outcome State Fault Refusal := runDev s (Dev.chanDestroy session.toNat)
def execHostInData (handle : BitVec 32) (err : Bool) (s : State) : Host.Outcome State Fault Refusal := runMem s fun _ => Dev.hostIn handle.toNat err
def execHostOutRequest (handle : BitVec 32) (s : State) : Host.Outcome State Fault Refusal := runDev s (Dev.outRequest handle.toNat s.mem)
def execHostOutSend (handle : BitVec 32) (s : State) : Host.Outcome State Fault Refusal := runDev s (Dev.outSend handle.toNat s.mem)

end Sys2Proof.Machine
end

