-- ==== Sys2Proof/Machine/Power.lean ====
section
/-! DEFINITION. Power leases, operating points, the two power sources and trades (R451 to R477). -/

namespace Sys2Proof.Machine

def pgLease : Nat := pageNum 0xC 0 0
def pgTrade : Nat := pageNum 0xC 0 1
def pgInputCond : Nat := pageNum 0xC 0 4
def pgThermal (die : Nat) : Nat := pageNum 4 die 4
def pgAvs (die : Nat) : Nat := pageNum 4 die 3

def Dev.clock (d : Dev) (r : Nat) : ClockSt := SMap.at d.power.clocks r {}
def Dev.setClock (d : Dev) (r : Nat) (x : ClockSt) : Dev := { d with power := { d.power with clocks := SMap.put d.power.clocks r x } }
def Dev.shelfOf (d : Dev) (die : Nat) : ShelfSt := SMap.at d.power.shelf die {}
def Dev.setShelf (d : Dev) (die : Nat) (x : ShelfSt) : Dev := { d with power := { d.power with shelf := SMap.put d.power.shelf die x } }

def Dev.inDies (d : Dev) : List Nat := allDies.filter (! dieOut d.faults ·)
def Dev.inRegions (d : Dev) : List Nat := allRegions.filter (! regionOut d.faults ·)
def regionsOf (die : Nat) : List Nat := (List.range 4).map fun k => die + 256 * k

/-! ## The shelf state (R464, R479, R481) -/

/-- R479: a region in the shelf state runs at OP0 with issue held. -/
def Dev.shelveRegion (d : Dev) (r : Nat) : Dev :=
  ((((d.wr Reg.RCLOCK_OP r 0).wr Reg.RCLOCK_TARGET r 0).wr Reg.RCLOCK_RAMPING r 0).wr Reg.RCLOCK_SHELF r 1)

/-- R481: a cause forces a die into the shelf state; 8 stands for rail current, whose code is 7 as well. -/
def Dev.shelve (d : Dev) (die cause : Nat) : Dev :=
  let x := d.shelfOf die
  let d := d.setShelf die { x with causes := if x.causes.contains cause then x.causes else x.causes ++ [cause], release := false }
  if d.rd Reg.THERMAL_SHELF_FORCED die = 1 then d
  else
    let code := min 7 cause
    let d := (d.wr Reg.THERMAL_SHELF_FORCED die 1).wr Reg.THERMAL_CAUSE die code
    let d := ((regionsOf die).foldl Dev.shelveRegion d).voteFail
    d.raise (pgThermal die) 0x0C0D 9 Sev.fatal (code + 8 * (die / 1024))

/-- A cause has gone. -/
def Dev.unshelve (d : Dev) (die cause : Nat) : Dev :=
  let x := d.shelfOf die
  if ! x.causes.contains cause then d
  else
    let cs := x.causes.filter (· ≠ cause)
    d.setShelf die { x with causes := cs, clearAt := if cs.isEmpty then d.now else x.clearAt }

/-- R464: the present window is a shelf window. -/
def Dev.shelfWindow (d : Dev) : Bool := d.g Reg.LEASE_STATE == 2

/-- SHELF_RELEASE: every cause has been clear for 1 s: the next boundary releases the die. -/
def Dev.shelfRelease (die : Nat) (d : Dev) : Dev :=
  let x := d.shelfOf die
  if d.rd Reg.THERMAL_SHELF_FORCED die = 1 ∧ x.causes = [] ∧ x.clearAt + ms 1000 ≤ d.now then d.setShelf die { x with release := true } else d

/-- R481: the boundary at which a released die leaves the shelf. -/
def Dev.leaveShelf (d : Dev) (die : Nat) : Dev :=
  let x := d.shelfOf die
  if ! x.release ∨ x.causes ≠ [] then d
  else
    let d := (d.setShelf die { x with release := false }).wr Reg.THERMAL_SHELF_FORCED die 0
    let d := { d with power := { d.power with selfRefresh := d.power.selfRefresh.filter fun s => s / 2 * 1024 != die } }
    (regionsOf die).foldl (fun d r => d.wr Reg.RCLOCK_SHELF r (ofB d.shelfWindow)) d

/-! ## Budgets (R459 to R464) -/

/-- R461: the minute that holds the instant `dt` (100 ns) from now: boundaries are those of R418. -/
def Dev.minuteIn (d : Dev) (dt : Nat) : Nat := max d.power.minute ((d.wallNs + 100 * dt) / (60 * 10 ^ 9) * ofB (decide (0 < dt)))

def Dev.windowIn (d : Dev) (minute : Nat) : Option LeaseWin :=
  d.power.windows.find? fun w => decide (w.start ≤ minute ∧ minute < w.start + w.dur)
def Dev.windowNow (d : Dev) : Option LeaseWin := d.windowIn d.power.minute

/-- R461: B and P in force `dt` from now; trades count in the window in force alone. -/
def Dev.budgetIn (d : Dev) (dt lent borrowed : Nat) : Nat × Nat :=
  match d.windowIn (d.minuteIn dt) with
  | none => (d.g Reg.LEASE_FALLBACK_W, d.g Reg.LEASE_FALLBACK_W)
  | some w =>
    let mine := d.windowNow == some w
    let l := if mine then lent else 0
    let b := if mine then borrowed else 0
    (w.avg - l + b, min (w.peak - l + b) (d.g Reg.SIZE_TABLE_ST_POWER_PKG_MAX_W))
def Dev.lent (d : Dev) : Nat := d.g Reg.TRADE_LENT_W
def Dev.borrowed (d : Dev) : Nat := d.g Reg.TRADE_BORROWED_W

/-- R461: B_T and P_T. -/
def Dev.bTarget (d : Dev) (lent borrowed : Nat) : Nat := min (d.budgetIn 0 lent borrowed).1 (d.budgetIn (ms 1000) lent borrowed).1
def Dev.pTarget (d : Dev) : Nat := min (d.budgetIn 0 d.lent d.borrowed).2 (d.budgetIn (ms 10) d.lent d.borrowed).2

/-- R482: a row of the input conditioner is substituted, or no longer. -/
def Dev.subst (d : Dev) (row : Nat) (on : Bool) : Dev :=
  let v := d.g Reg.INPUT_COND_SUBST
  if bit v row = on then d
  else if on then (d.p Reg.INPUT_COND_SUBST (setBit v row)).count Reg.INPUT_COND_SUBST_COUNT 0
  else d.p Reg.INPUT_COND_SUBST (clrBit v row)

/-- R462 to R464, R484: the LEASE page follows the held windows; a shelf window begins or ends; the fallback budget begins. -/
def Dev.leaseView (d : Dev) : Dev :=
  let was := d.g Reg.LEASE_STATE
  let w := d.windowNow
  let st := match w with | none => 0 | some x => if x.avg = 0 then 2 else 1
  let b := d.budgetIn 0 d.lent d.borrowed
  let d := (d.p Reg.LEASE_AVG_W ((w.map (·.avg)).getD 0)).p Reg.LEASE_PEAK_W ((w.map (·.peak)).getD 0)
  let d := ((d.p Reg.LEASE_B_EFF b.1).p Reg.LEASE_P_EFF b.2).p Reg.LEASE_STATE st
  let d := (d.p Reg.LEASE_END_MIN ((d.power.windows.getLast?.map fun x => x.start + x.dur).getD 0)).p Reg.LEASE_WINDOWS d.power.windows.length
  let d := d.subst 5 (st == 0 && (was != 0 || bit (d.g Reg.INPUT_COND_SUBST) 5))
  let d := if was = 2 ∧ st ≠ 2 then
      d.inDies.foldl (fun d die => if d.rd Reg.THERMAL_SHELF_FORCED die = 1 then d else (regionsOf die).foldl (fun d r => d.wr Reg.RCLOCK_SHELF r 0) d) d
    else if was ≠ 2 ∧ st = 2 then (d.inRegions.foldl Dev.shelveRegion d).voteFail
    else d
  if was ≠ 0 ∧ st = 0 then d.raise pgLease 0x0C03 10 Sev.warn (d.g Reg.LEASE_FALLBACK_W) else d

/-! ## Lease frames (R456 to R460) -/

/-- R457: window `w` of a frame. -/
def frameWin (m : List Byte) (w : Nat) : LeaseWin :=
  ⟨fld m (0x20 + 16 * w) 4, fld m (0x24 + 16 * w) 1, fld m (0x28 + 16 * w) 2, fld m (0x2A + 16 * w) 2, fld m (0x2C + 16 * w) 2, fld m (0x2E + 16 * w) 2⟩
def frameWins (m : List Byte) : List LeaseWin := (List.range (fld m 6 1 % 8)).map (frameWin m)

/-- R458: the code of a frame. -/
def Dev.leaseCode (d : Dev) (m : List Byte) : Nat :=
  let n := fld m 6 1
  let ws := frameWins m
  let maxW := d.g Reg.SIZE_TABLE_ST_POWER_PKG_MAX_W
  let range := fun (w : LeaseWin) => decide (1 ≤ w.dur ∧ w.dur ≤ 60 ∧ (w.avg = 0 ∨ (d.g Reg.SIZE_TABLE_ST_POWER_LEASE_MIN_W ≤ w.avg ∧ w.avg ≤ maxW)) ∧
    w.avg ≤ w.peak ∧ w.peak ≤ maxW ∧ (w.avg = 0 → w.peak = 0) ∧ w.avg + w.borrow ≤ maxW)
  let gap := (ws.zip (ws.drop 1)).all fun (a, b) => a.start + a.dur == b.start
  let fin := (ws.getLast?.map fun w => w.start + w.dur).getD 0
  if m.length ≠ 128 ∨ fld m 0 4 ≠ 0x4E584C46 ∨ fld m 4 1 ≠ 1 ∨ fld m 5 1 ≠ 0 ∨ n < 1 ∨ 4 < n ∨ fld m 7 1 ≠ 0 ∨ fld m 0x1A 2 ≠ 0 ∨ 2 ^ 18 ≤ fld m 0x1C 4 ∨
      (List.range n).any (fun w => fld m (0x25 + 16 * w) 3 != 0) ∨ ! allZero m (0x20 + 16 * n) 0x60 then 1
  else match d.sec.leaseKey with
    | none => 2
    | some k =>
      if kmac256 k (m.take 0x60) "NXU LEASE" ≠ m.drop 0x60 then 3
      else if fld m 8 8 ≠ d.deviceId then 4
      else if fld m 0x10 8 ≤ d.g64 Reg.LEASE_SEQ_LO Reg.LEASE_SEQ_HI then 5
      else if d.wallState = 0 ∨ d.wallState = 1 ∨ (d.wallState = 3 ∧ d.host.holdAt + ms 600000 ≤ d.now) then 6
      else if ws.any fun w => ! range w then 7
      else if ! gap ∨ fin ≤ d.power.minute then 8
      else 0

/-- R459: a window cut to begin no earlier than a minute. -/
def clipWin (s : Nat) (w : LeaseWin) : Option LeaseWin :=
  if w.start + w.dur ≤ s then none else some { w with start := max w.start s, dur := w.start + w.dur - max w.start s }

/-- R459: the held windows after an accepted frame. -/
def mergeWins (minute : Nat) (held frame : List LeaseWin) : List LeaseWin :=
  match frame.filter fun w => decide (minute < w.start + w.dur) with
  | [] => held
  | f :: fs =>
    let now? := held.find? fun w => decide (w.start ≤ minute ∧ minute < w.start + w.dur)
    match now?, decide (f.start ≤ minute) with
    | some h, true =>
      { h with avg := min h.avg f.avg, peak := min h.peak f.peak, lend := min h.lend f.lend, borrow := min h.borrow f.borrow } ::
        (f :: fs).filterMap (clipWin (h.start + h.dur))
    | _, _ =>
      let keep := held.filter fun w => decide (w.start < f.start)
      let from' := (keep.map fun w => w.start + w.dur).foldl max 0
      keep ++ (f :: fs).filterMap (clipWin from')

/-- LEASE_FRAME. -/
def Dev.leaseFrame (h : Nat) (d : Dev) : Dev :=
  match d.takeMessage h Kd.lease with
  | none => d
  | some (c, m, d) =>
    let code := d.leaseCode m
    let d := d.p Reg.LEASE_LAST_CODE code
    let d := if code ≠ 0 then d.raise pgLease 0x0C02 9 Sev.warn code
      else
        let d := d.p64 Reg.LEASE_SEQ_LO Reg.LEASE_SEQ_HI (fld m 0x10 8)
        let d := { d with power := { d.power with windows := mergeWins d.power.minute d.power.windows (frameWins m) } }
        let d := ((d.p Reg.LEASE_POOL (fld m 0x18 2)).p Reg.LEASE_BROKER (fld m 0x1C 4)).leaseView
        d.raise pgLease 0x0C01 8 Sev.info (d.g Reg.LEASE_B_EFF)
    d.queueMsg c.sess h (natLe 8 (fld m 0x10 8) ++ natLe 1 code ++ natLe 3 0 ++ natLe 2 (d.g Reg.LEASE_B_EFF) ++ natLe 2 (d.g Reg.LEASE_P_EFF) ++
      natLe 4 (d.g Reg.LEASE_END_MIN) ++ natLe 12 0)

/-- R475, R477: the trades of a window end with it. -/
def Dev.endTrades (d : Dev) (w : LeaseWin) : Dev :=
  let d := match (chansOf d Kd.trade).head? with
    | some c =>
      if d.power.traded then
        d.queueMsg c.sess c.handle (natLe 4 w.start ++ natLe 2 (d.g Reg.LEASE_POOL) ++ natLe 2 d.lent ++ natLe 2 d.borrowed ++ natLe 2 d.power.offersRx ++
          natLe 2 d.power.grantsTx ++ natLe 18 0)
      else d
    | none => d
  let d := ((d.p Reg.TRADE_LENT_W 0).p Reg.TRADE_BORROWED_W 0).p Reg.TRADE_POOL_LEFT_W 0
  { d with power := { d.power with lentAt := none, need := none, refusedAt := none, traded := false, offersRx := 0, grantsTx := 0 } }

/-- LEASE_HOLDOVER_LIMIT: 600 s of HOLDOVER: every held window is discarded, and with the one in force its trades end. -/
def Dev.leaseHoldover (d : Dev) : Dev :=
  if d.wallState ≠ 3 then d
  else
    let d := d.passTo (d.host.holdAt + ms 600000)
    if d.power.windows = [] then d
    else
      let inForce := d.g Reg.LEASE_STATE ≠ 0
      let d := match d.windowNow with | some w => d.endTrades w | none => d
      let d := ({ d with power := { d.power with windows := [] } }.leaseView)
      if inForce then d else d.raise pgLease 0x0C03 10 Sev.warn (d.g Reg.LEASE_FALLBACK_W)

/-- R418, R459: the lease side of a minute boundary. -/
def Dev.leaseMinute (d : Dev) (minute : Nat) : Dev :=
  let old := d.windowNow
  let d := { d with power := { d.power with minute := minute } }
  let d := match old with
    | some w => if d.windowNow = some w then d else d.endTrades w
    | none => d
  { d with power := { d.power with windows := d.power.windows.filter fun w => decide (minute < w.start + w.dur) } }.leaseView

/-! ## Operating points (R452 to R455, R466) -/

/-- R466, R468, R470: m and the factor of a suspected model, as a fraction. -/
def Dev.margin (d : Dev) : Nat × Nat :=
  let m := if d.g Reg.MEASURE_FAILED = 1 then 115 else 110
  if d.g Reg.MODEL_SUSPECT = 1 then
    let q := d.g Reg.MODEL_Q10_W
    let x := d.g Reg.MEASURE_M10_W
    if q = 0 ∨ 10 * x ≤ 11 * q then (m * 11, 1000) else (m * x, 100 * q)
  else (m, 100)

/-- R466: the highest operating point whose mean meets a target. -/
def Dev.leaseOp (d : Dev) (bt : Nat) : Nat :=
  let m := d.margin
  ((List.range (d.g Reg.LEASE_USER_CAP_OP + 1)).filter fun o => decide (m.1 * d.g Reg.MODEL_PMEAN o ≤ m.2 * bt)).foldl max 0

/-- R304, R465: the plan beat of the running beat. -/
def Dev.planBeat (d : Dev) : Option Nat :=
  if d.stepOpen then some (d.beatNum - d.g64 Reg.STEP_REC_START_LO Reg.STEP_REC_START_HI) else none

/-- R466, R470: DENSITY for a beat. -/
def Dev.density (d : Dev) (op : Nat) (b : Option Nat) : Nat :=
  if d.g Reg.MODEL_FAILED = 1 then 11
  else
    let m := d.margin
    let room := m.2 * d.bTarget d.lent d.borrowed * d.period * 100
    let fits := fun (k : Nat) => decide (m.1 * (d.dynamicPart op b * (k + 1) / 16 + d.staticPart op) ≤ room)
    if fits 15 then 15 else (((List.range 12).map (14 - ·)).find? fits).getD 3

/-- R452: a region has a plan to run. -/
def Dev.regionPlanned (d : Dev) (r : Nat) : Bool :=
  [3, 4, 5].contains (d.g Reg.DRAFT_STATUS_STATE) &&
    (match d.plan.live with | some p => p.entries.any fun e => regionOf e.leader == r | none => false)

/-- R452: the target of a region. -/
def Dev.target (d : Dev) (r : Nat) : Nat :=
  if d.rd Reg.RCLOCK_SHELF r = 1 ∨ ! d.regionPlanned r then 0
  else min (min (d.g Reg.LEASE_LEASE_OP) (d.g Reg.MEASURE_MEAS_CAP)) (min (d.rd Reg.RCLOCK_THERM_CAP r) (d.rd Reg.RCLOCK_DROOP_CAP r))

/-- R455: DROOP_CAP after a beat. -/
def Dev.droopBeat (d : Dev) (r : Nat) : Dev :=
  let x := d.clock r
  let cap := d.rd Reg.RCLOCK_DROOP_CAP r
  if d.rd Reg.RCLOCK_LIMIT r < x.trips then
    let c := if cap = 0 then 0 else d.rd Reg.RCLOCK_OP r - 1
    ((d.setClock r { x with trips := 0, good := 0 }).wr Reg.RCLOCK_DROOP_CAP r c).raise (pgRclock r) 0x0C0B 8 Sev.warn (c + 16 * sat 8 x.trips)
  else if x.trips = 0 ∧ cap = 15 then d
  else if d.rd Reg.RCLOCK_RECOVER r ≤ x.good + 1 ∧ 0 < cap then (d.setClock r { x with trips := 0, good := 0 }).wr Reg.RCLOCK_DROOP_CAP r (min 15 (cap + 1))
  else d.setClock r { x with trips := 0, good := x.good + 1 }

/-- R453: the next step of a ramp towards a target begins; at the target the ramp has ended. -/
def Dev.nextStep (d : Dev) (r : Nat) : Dev :=
  let op := d.rd Reg.RCLOCK_OP r
  let t := d.rd Reg.RCLOCK_TARGET r
  if op = t then d.wr Reg.RCLOCK_RAMPING r 0
  else (d.setClock r { d.clock r with stepTo := if op < t then op + 1 else op - 1 }).wr Reg.RCLOCK_RAMPING r 1

/-- R453: a boundary sets a new target: a ramp starts, or one that runs heads for it after its current step. -/
def Dev.aim (d : Dev) (r : Nat) : Dev :=
  let d := d.wr Reg.RCLOCK_TARGET r (d.target r)
  if d.rd Reg.RCLOCK_RAMPING r = 1 then d else d.nextStep r

/-- R465, R468: the prediction of the beat that begins joins those of the last 10 ms. -/
def Dev.predict (d : Dev) : Dev :=
  let op := (d.inRegions.map (d.rd Reg.RCLOCK_OP)).foldl max 0
  let b := d.planBeat
  let e := d.dynamicPart op b + d.staticPart op
  let raw := d.rawDynamic b * opMv op * opMv op / (750 * 750)
  { d with power := { d.power with beats := (d.now, e, raw) :: d.power.beats.filter fun x => decide (d.now < x.1 + ms 10) },
           sec := { d.sec with acc := { d.sec.acc with modelNj := d.sec.acc.modelNj + e } } }

/-- A source is back: the shelf cause of R470 goes. -/
def Dev.sourcesBack (d : Dev) : Dev :=
  if d.g Reg.MODEL_FAILED = 1 ∧ d.g Reg.MEASURE_FAILED = 1 then d else allDies.foldl (fun d die => d.unshelve die 7) d

/-- R453, R455, R466, R481: what power does at a beat boundary. -/
def Dev.powerBoundary (d : Dev) : Dev :=
  let d := d.inDies.foldl Dev.leaveShelf d.sourcesBack
  let d := if d.shelfWindow then d.inRegions.foldl Dev.shelveRegion d else d
  let d := (d.p Reg.LEASE_LEASE_OP (d.leaseOp (d.bTarget d.lent d.borrowed))).leaseView
  let den := d.density (d.g Reg.LEASE_LEASE_OP) d.planBeat
  let d := d.inRegions.foldl (fun (d : Dev) r => ((d.droopBeat r).aim r).wr Reg.RCLOCK_DENSITY r den) d
  d.predict

/-- RAMP_STEP_DONE: one step of a ramp ends: the clock has moved by one operating point. A droop holds the ramp at its step. -/
def Dev.rampStep (r : Nat) (d : Dev) : Dev :=
  let x := d.clock r
  let held := x.stretched || (match x.clearAt with | some t => decide (d.now < t + us 10) | none => false)
  if d.rd Reg.RCLOCK_RAMPING r = 0 ∨ held then d else (d.wr Reg.RCLOCK_OP r x.stepTo).nextStep r

/-- DROOP_TRIP. -/
def Dev.droopTrip (r : Nat) (d : Dev) : Dev :=
  let x := d.clock r
  if x.stretched then d else (d.setClock r { x with stretched := true, trips := x.trips + 1 }).count Reg.RCLOCK_DROOP_EVENTS r

/-- DROOP_CLEAR: the supply has stayed 10 mV above the trip level for 64 cycles; `cycles` is how long the clock was stretched. -/
def Dev.droopClear (r cycles : Nat) (d : Dev) : Dev :=
  let x := d.clock r
  if ! x.stretched then d else (d.setClock r { x with stretched := false, clearAt := some d.now }).count Reg.RCLOCK_STRETCH_CYCLES r (max 64 cycles)

/-! ## The measured source (R467, R468, R470, R480) -/

/-- R470: one of the two sources has failed; with both gone the package is forced into the shelf state. -/
def Dev.sourceFailed (d : Dev) (model : Bool) : Dev :=
  let f := if model then Reg.MODEL_FAILED else Reg.MEASURE_FAILED
  if d.g f = 1 then d
  else
    let d := (d.p f 1).raise pgModel 0x0C09 10 Sev.error (if model then 1 else 2)
    if d.g Reg.MODEL_FAILED = 1 ∧ d.g Reg.MEASURE_FAILED = 1 then d.inDies.foldl (fun d die => d.shelve die 7) d else d

def Dev.rail (d : Dev) (k : Nat) : RailSt := SMap.at d.power.rails k { okAt := d.now }
def Dev.setRail (d : Dev) (k : Nat) (x : RailSt) : Dev := { d with power := { d.power with rails := SMap.put d.power.rails k x } }

/-- R451, R548: the voltage a rail is set to, in mV. -/
def Dev.railTarget (d : Dev) (die r : Nat) : Nat :=
  let v := fun k => opMv (d.rd Reg.RCLOCK_OP (die + 256 * k))
  if r < 4 then v r else if r = 4 then ((List.range 4).map v).foldl max 600 else if r = 5 then 1100 else 850

/-- R482: a reading of a rail, in mV and 0.1 A, that has passed the frame check; none where it has not. -/
def Dev.railRead (d : Dev) (die r : Nat) (x : Option (Nat × Nat)) : Dev :=
  let k := die + r
  let s := d.rail k
  let lim := d.rd Reg.AVS_ICC_LIMIT die r
  let t := d.railTarget die r
  let d := match x with
    | some (v, i) =>
      if 9 * t ≤ 10 * v ∧ 10 * v ≤ 11 * t ∧ 10 * i ≤ 12 * lim then
        d.setRail k { s with v := ((v : Int) :: s.v).take 3, i := ((i : Int) :: s.i).take 3, okAt := d.now, failed := false }
      else d.setRail k s
    | none => d.setRail k s
  let s := d.rail k
  let v := (medianOf s.v).toNat
  let i := (medianOf s.i).toNat
  let above := match x with | some (_, c) => if lim < c then s.above + 1 else 0 | none => s.above
  let failed := decide (s.okAt + ms 3 ≤ d.now) || s.failed
  let d := (d.setRail k { s with above := above, failed := failed }).wr Reg.AVS_V die v r |>.wr Reg.AVS_I die i r
  let d := d.wr Reg.AVS_RAIL_OK die (if failed then clrBit (d.rd Reg.AVS_RAIL_OK die) r else setBit (d.rd Reg.AVS_RAIL_OK die) r)
  let d := d.wr Reg.AVS_RAIL_FAILED die (if failed then setBit (d.rd Reg.AVS_RAIL_FAILED die) r else clrBit (d.rd Reg.AVS_RAIL_FAILED die) r)
  if above = 3 then (d.shelve die 8).raise (pgAvs die) 0x0C0F 8 Sev.error r else d

/-- R467: the package power in mW from the rails in V and I. -/
def Dev.packagePower (d : Dev) : Nat :=
  ((d.inDies.map fun die => ((List.range 7).map fun r => d.rd Reg.AVS_V die r * d.rd Reg.AVS_I die r).sum).sum) / 10

def meanOf (xs : List Nat) : Nat := xs.sum / max 1 xs.length

/-- R467, R470: the share of a target, in percent, that the loop allows. -/
def Dev.loopShare (d : Dev) : Nat := if d.g Reg.MODEL_FAILED = 1 then 90 else 97

/-- R468: what the loop compares over 10 ms and over 1 s, in mW: the larger of the measurement and 1.1 × the model while it is suspected. -/
def Dev.loopPower (d : Dev) : Nat × Nat :=
  let m10 := meanOf (d.power.readings.take 10)
  let m1s := meanOf d.power.readings
  if d.g Reg.MODEL_SUSPECT = 1 then
    (max m10 (1100 * d.g Reg.MODEL_Q10_W), max m1s (meanOf (d.power.loops.map (·.1)) * 11 / 10))
  else (m10, m1s)

/-- R520, R521: one millisecond joins the totals of the open minute. -/
def Dev.minuteTotals (d : Dev) : Dev :=
  let a := d.sec.acc
  let m10 := meanOf (d.power.readings.take 10)
  let m1s := meanOf d.power.readings
  let b := d.budgetIn 0 d.lent d.borrowed
  let shelf := d.inDies.any fun die => d.rd Reg.THERMAL_SHELF_FORCED die = 1
  let f := a.flags ||| (2 * ofB (d.wallState == 3)) ||| (32 * d.g Reg.MEASURE_FAILED) ||| (64 * d.g Reg.MODEL_SUSPECT) |||
    (128 * ofB (shelf || d.shelfWindow)) ||| (256 * ofB (decide (1000 * b.1 < m1s ∨ 1000 * b.2 < m10)))
  { d with sec := { d.sec with acc :=
      { a with uj := a.uj + d.power.readings.headD 0, peak10 := max a.peak10 m10, max1s := max a.max1s m1s, lent := max a.lent d.lent,
               borrowed := max a.borrowed d.borrowed, fallbackMs := a.fallbackMs + ofB (d.g Reg.LEASE_STATE == 0), shelfMs := a.shelfMs + ofB shelf,
               flags := f, unmeasured := if a.uj = 0 ∧ bit a.flags 4 ∧ a.unmeasured = 0 then (d.now - d.relAt) / 10000 else a.unmeasured } } }

/-- AVS_SAMPLE: once per millisecond every rail of every die is read; readings that failed the frame check are missing. -/
def Dev.avsSample (xs : List (BitVec 2 × BitVec 3 × BitVec 16 × BitVec 16)) (d : Dev) : Dev :=
  let d := d.passTo (d.power.sampledAt + ms 1)
  let d := { d with power := { d.power with sampledAt := d.now } }
  let d := d.inDies.foldl (fun (d : Dev) die => (List.range 7).foldl (fun d r =>
    d.railRead die r ((xs.find? fun x => x.1.toNat * 1024 == die && x.2.1.toNat == r).map fun x => (x.2.2.1.toNat, x.2.2.2.toNat))) d) d
  let d := d.inDies.foldl (fun (d : Dev) die =>
    if (List.range 7).all (fun r => (d.rail (die + r)).above = 0) then d.unshelve die 8 else d) d
  let bad := d.power.rails.any fun r => r.2.failed
  let d := d.subst 2 bad
  let d := if bad then d.sourceFailed false else d
  let d : Dev := { d with power := { d.power with readings := (d.packagePower :: d.power.readings).take 1000 } }
  let d := d.minuteTotals
  let d := (d.p Reg.MEASURE_M10_W (sat 16 (meanOf (d.power.readings.take 10) / 1000))).p Reg.MEASURE_M1S_W (sat 16 (meanOf d.power.readings / 1000))
  if d.g Reg.MEASURE_FAILED = 0 ∧ d.loopShare * 10 * d.pTarget < d.loopPower.1 then
    d.inRegions.foldl (fun (d : Dev) r => d.wr Reg.RCLOCK_DENSITY r (max 3 (d.rd Reg.RCLOCK_DENSITY r / 2))) d
  else d

/-- R467: MEAS_CAP after a loop. -/
def Dev.capLoop (d : Dev) : Dev :=
  if d.g Reg.MEASURE_FAILED = 1 then d
  else
    let p := d.loopPower
    let bt := d.bTarget d.lent d.borrowed
    let pt := d.pTarget
    let cap := d.g Reg.MEASURE_MEAS_CAP
    let k := d.loopShare * 10
    if k * bt < p.2 ∨ k * pt < p.1 then
      let c := cap - (if 1000 * pt < p.1 then 4 else 1)
      let d := { d with power := { d.power with calm := 0 } }
      ((d.p Reg.MEASURE_MEAS_CAP c).count Reg.MEASURE_CAP_CUTS 0).raise pgMeasure 0x0C0A 8 Sev.warn c
    else if p.2 < 900 * bt ∧ p.1 < 900 * pt then
      if d.power.calm + 1 < 100 then { d with power := { d.power with calm := d.power.calm + 1 } }
      else { d with power := { d.power with calm := 0 } }.p Reg.MEASURE_MEAS_CAP (min 15 (cap + 1))
    else { d with power := { d.power with calm := 0 } }

/-- R468: the model compared with the measurement. -/
def Dev.suspect (d : Dev) (q m : Nat) : Dev :=
  let off := decide (15 * m < 100 * ((q : Int) - m).natAbs)
  let x := d.power
  let d := { d with power := { x with apart := if off then x.apart + 1 else 0, near := if off then 0 else x.near + 1 } }
  if d.g Reg.MODEL_SUSPECT = 0 ∧ 10 ≤ d.power.apart then
    (d.p Reg.MODEL_SUSPECT 1).raise pgModel 0x0C07 8 Sev.warn (d.g Reg.MODEL_Q10_W + 65536 * d.g Reg.MEASURE_M10_W)
  else if d.g Reg.MODEL_SUSPECT = 1 ∧ 100 ≤ d.power.near then d.p Reg.MODEL_SUSPECT 0 else d

/-- MEAS_LOOP: every 10 ms. -/
def Dev.measLoop (d : Dev) : Dev :=
  let d := d.passTo (d.power.loopAt + ms 10)
  let bs := d.power.beats.filter fun x => decide (d.now ≤ x.1 + ms 10)
  let q := (bs.map (·.2.1)).sum / 10000
  let raw := (bs.map (·.2.2)).sum / 10000
  let m10 := meanOf (d.power.readings.take 10)
  let busy := if d.stepOpen then d.power.busyLoops + 1 else 0
  let loops := ((q, raw) :: d.power.loops).take 100
  let d : Dev := { d with power := { d.power with loopAt := d.now, loops := loops, busyLoops := busy,
                                                   busyW := if 100 ≤ busy then meanOf d.power.readings else d.power.busyW,
                                                   busyDyn := if 100 ≤ busy then meanOf (loops.map (·.2)) else d.power.busyDyn } }
  ((d.p Reg.MODEL_Q10_W (sat 16 (q / 1000))).suspect q m10).capLoop

/-- R469: whether the beat is quiet, and whether a recalibration is due. -/
def Dev.quietBeat (d : Dev) : Bool :=
  d.g Reg.STEP_REC_STATE_PHASE != 1 || (match d.planBeat with | some b => decide (d.g Reg.PLAN_RB_N_BEATS ≤ b) | none => true)
def Dev.wallHour (d : Dev) : Nat := d.wallNs / (3600 * 10 ^ 9) + 1

/-- RECALIBRATION: at a quiet beat after SUSPECT is set, and at the first quiet beat of every hour. -/
def Dev.recalibrate (d : Dev) : Dev :=
  if ! d.quietBeat ∨ (d.g Reg.MODEL_SUSPECT = 0 ∧ d.power.calHour = d.wallHour) then d
  else
    let d : Dev := { d with power := { d.power with calHour := d.wallHour } }
    let op := (d.inRegions.map (d.rd Reg.RCLOCK_OP)).foldl max 0
    let stat := Config.staticPower op d.hottest
    let kst := meanOf (d.power.readings.take 10) * 16384 / max 1 stat
    let kdyn := if d.power.busyDyn = 0 then d.g Reg.MODEL_K_DYN else (d.power.busyW - kst * stat / 16384) * 16384 / d.power.busyDyn
    let ok := fun k => decide (80 * 16384 ≤ 100 * k ∧ 100 * k ≤ 125 * 16384)
    if ok kst && ok kdyn then
      let d := (((d.p Reg.MODEL_K_ST kst).p Reg.MODEL_K_DYN kdyn).p Reg.MODEL_FAILED 0).count Reg.MODEL_CALIBRATIONS 0
      let d := if d.power.rails.any (fun r => r.2.failed) then d else d.p Reg.MEASURE_FAILED 0
      d.sourcesBack.raise pgModel 0x0C08 9 Sev.info (kdyn + 65536 * kst)
    else d.sourceFailed true

/-! ## Trade pools (R471 to R477) -/

/-- R472: the payload of a trade message. -/
def tradePayload (op pool start amount id from' for' : Nat) : List Byte :=
  natLe 2 op ++ natLe 2 pool ++ natLe 4 start ++ natLe 2 amount ++ natLe 2 0 ++ natLe 4 id ++ natLe 4 from' ++ natLe 4 for' ++ natLe 40 0

/-- R472: a payload whose reserved fields are zero. -/
def tradeOk (m : List Byte) (op : Nat) : Bool :=
  m.length == 64 && fld m 0 2 == op && fld m 0xA 2 == 0 && fld m 8 2 % 10 == 0 && decide (fld m 0x10 4 < 2 ^ 18 ∧ fld m 0x14 4 < 2 ^ 18) && allZero m 0x18 0x40

/-- Time to the end of a window, in 100 ns. -/
def Dev.winLeft (d : Dev) (w : LeaseWin) : Nat := (60 * 10 ^ 9 * (w.start + w.dur) - d.wallNs) / 100

/-- R476: this package is the broker of its pool for the window that a message names. -/
def Dev.brokerFor (d : Dev) (pool start : Nat) : Option LeaseWin :=
  match d.windowNow with
  | some w => if d.g Reg.LEASE_BROKER = d.selfAddr ∧ pool = d.g Reg.LEASE_POOL ∧ pool ≠ 0 ∧ w.start = start then some w else none
  | none => none

/-- R475: a GRANT is applied, or discarded. -/
def Dev.granted (d : Dev) (m : List Byte) : Dev :=
  match d.windowNow with
  | none => d
  | some w =>
    if tradeOk m 3 ∧ w.start = fld m 4 4 ∧ fld m 0x14 4 = d.selfAddr ∧ d.power.need = some (fld m 0xC 4) ∧
        ms 1000 ≤ d.winLeft w then
      let d := { d with power := { d.power with need := none, traded := true } }
      (d.p Reg.TRADE_BORROWED_W (d.borrowed + fld m 8 2)).leaseView.raise pgTrade 0x0C05 9 Sev.info (fld m 8 2)
    else d

/-- R474: a REFUSE: the NEED may be sent again 1 s later. -/
def Dev.refused (d : Dev) (m : List Byte) : Dev :=
  if ! tradeOk m 4 then d
  else
    let d := if d.power.need = some (fld m 0xC 4) then { d with power := { d.power with need := none, refusedAt := some d.now } } else d
    (d.bump Reg.TRADE_REFUSED 0).raise pgTrade 0x0C06 10 Sev.warn (fld m 0x10 4)

/-- The broker's answer to a member of its pool, which may be itself. -/
def Dev.tradeAnswer (d : Dev) (dst op pool start amount id : Nat) : Dev :=
  let m := tradePayload op pool start amount id d.selfAddr dst
  if dst = d.selfAddr then (if op = 3 then d.granted m else d.refused m)
  else
    let d := if op = 4 then (d.bump Reg.TRADE_REFUSED 0).raise pgTrade 0x0C06 10 Sev.warn dst else d
    d.slackOwn (mkShuttle 4 dst d.selfAddr pool 0 0 0 start m)

/-- R474: NEED and OFFER at a broker. -/
def Dev.brokerNeed (d : Dev) (m : List Byte) : Dev :=
  if ! tradeOk m 1 then d
  else
    let n := min (fld m 8 2) (d.g Reg.TRADE_POOL_LEFT_W)
    let no := d.tradeAnswer (fld m 0x10 4) 4 (fld m 2 2) (fld m 4 4) 0 (fld m 0xC 4)
    match d.brokerFor (fld m 2 2) (fld m 4 4) with
    | none => no
    | some w =>
      if n = 0 ∨ d.winLeft w ≤ ms 1000 then no
      else
        let d := { d with power := { d.power with traded := true, grantsTx := d.power.grantsTx + n } }.p Reg.TRADE_POOL_LEFT_W (d.g Reg.TRADE_POOL_LEFT_W - n)
        d.tradeAnswer (fld m 0x10 4) 3 (fld m 2 2) (fld m 4 4) n (fld m 0xC 4)
def Dev.brokerOffer (d : Dev) (m : List Byte) : Dev :=
  if ! tradeOk m 2 then d
  else match d.brokerFor (fld m 2 2) (fld m 4 4) with
    | none => d.tradeAnswer (fld m 0x10 4) 4 (fld m 2 2) (fld m 4 4) 0 (fld m 0xC 4)
    | some _ =>
      { d with power := { d.power with traded := true, offersRx := d.power.offersRx + fld m 8 2 } }.p Reg.TRADE_POOL_LEFT_W
        (sat 16 (d.g Reg.TRADE_POOL_LEFT_W + fld m 8 2))

/-- A NEED or an OFFER leaves for the broker. -/
def Dev.toBroker (d : Dev) (op start amount : Nat) : Dev :=
  let id := d.power.tradeId % 2 ^ 32
  let d := { d with power := { d.power with tradeId := (id + 1) % 2 ^ 32, need := if op = 1 then some id else d.power.need } }
  let pool := d.g Reg.LEASE_POOL
  let dst := d.g Reg.LEASE_BROKER
  let m := tradePayload op pool start amount id d.selfAddr d.selfAddr
  if dst = d.selfAddr then (if op = 1 then d.brokerNeed m else d.brokerOffer m) else d.slackOwn (mkShuttle 4 dst d.selfAddr pool 0 0 0 start m)

/-- R471: the window in which a trade may be made. -/
def Dev.tradeWindow (d : Dev) : Option LeaseWin :=
  match d.windowNow with
  | some w =>
    if d.g Reg.LEASE_POOL ≠ 0 ∧ d.g Reg.LEASE_BROKER ≠ 0x3FFFF ∧ ms 5000 < d.winLeft w ∧ d.routeLive ∧ d.plan.live.isSome then some w else none
  | none => none

/-- R471: the operating point without trades, and the tenths of a watt that FIT_OP needs. -/
def Dev.plainOp (d : Dev) : Nat := d.leaseOp (d.bTarget 0 0)
def Dev.fitTenths (d : Dev) : Nat := 11 * d.g Reg.MODEL_PMEAN (d.g Reg.PLAN_RB_FIT_OP)

/-- LEND. -/
def Dev.lend (d : Dev) : Dev :=
  match d.tradeWindow with
  | none => d
  | some w =>
    let l := min ((10 * w.avg - d.fitTenths - 10 * d.g Reg.TRADE_KEEP_W) / 100 * 10) (w.lend / 10 * 10)
    if d.g Reg.TRADE_LEND_EN = 0 ∨ d.lent ≠ 0 ∨ d.plainOp ≤ d.g Reg.PLAN_RB_FIT_OP ∨ l < 10 then d
    else
      let d := { d with power := { d.power with lentAt := some d.now, traded := true } }
      (d.p Reg.TRADE_LENT_W l).leaseView.raise pgTrade 0x0C04 8 Sev.info l

/-- OFFER_SEND: exactly 1 s after lending. -/
def Dev.offerSend (d : Dev) : Dev :=
  match d.power.lentAt, d.windowNow with
  | some t, some w => ({ d with power := { d.power with lentAt := none } }.passTo (t + ms 1000)).toBroker 2 w.start d.lent
  | _, _ => d

/-- BORROW. -/
def Dev.borrow (d : Dev) : Dev :=
  match d.tradeWindow with
  | none => d
  | some w =>
    let want := (d.fitTenths - 10 * w.avg - 10 * d.borrowed + 99) / 100 * 10
    let n := min want ((w.borrow - d.borrowed) / 10 * 10)
    let wait := match d.power.refusedAt with | some t => decide (d.now < t + ms 1000) | none => false
    if d.g Reg.TRADE_BORROW_EN = 0 || decide (d.g Reg.PLAN_RB_FIT_OP ≤ d.plainOp) || n == 0 || d.power.need.isSome || wait then d else d.toBroker 1 w.start n

/-! ## The commands -/

def execLeaseFrame (handle : BitVec 32) (s : State) : Host.Outcome State Fault Refusal := runDev s (Dev.leaseFrame handle.toNat)
def execLeaseHoldoverLimit (s : State) : Host.Outcome State Fault Refusal := runDev s fun d => d.whenKept Dev.leaseHoldover
def execRampStepDone (r : BitVec 4) (s : State) : Host.Outcome State Fault Refusal := runDev s fun d => d.whenUp (Dev.rampStep (256 * r.toNat))
def execDroopTrip (r : BitVec 4) (s : State) : Host.Outcome State Fault Refusal := runDev s fun d => d.whenUp (Dev.droopTrip (256 * r.toNat))
def execDroopClear (r : BitVec 4) (cycles : BitVec 32) (s : State) : Host.Outcome State Fault Refusal :=
  runDev s fun d => d.whenUp (Dev.droopClear (256 * r.toNat) cycles.toNat)
def execAvsSample (rails : List (BitVec 2 × BitVec 3 × BitVec 16 × BitVec 16)) (s : State) : Host.Outcome State Fault Refusal :=
  runDev s fun d => d.whenKept (Dev.avsSample rails)
def execMeasLoop (s : State) : Host.Outcome State Fault Refusal := runDev s fun d => d.whenKept Dev.measLoop
def execRecalibration (s : State) : Host.Outcome State Fault Refusal := runDev s fun d => d.whenKept Dev.recalibrate
def execPowerLend (s : State) : Host.Outcome State Fault Refusal := runDev s fun d => d.whenKept Dev.lend
def execOfferSend (s : State) : Host.Outcome State Fault Refusal := runDev s fun d => d.whenKept Dev.offerSend
def execPowerBorrow (s : State) : Host.Outcome State Fault Refusal := runDev s fun d => d.whenKept Dev.borrow
def execNeedRecv (port : BitVec 5) (sh : Shuttle) (credit : BitVec 32) (s : State) : Host.Outcome State Fault Refusal :=
  runDev s fun d => d.slackRecv port.toNat 4 sh credit.toNat fun d => d.brokerNeed sh.payload
def execOfferRecv (port : BitVec 5) (sh : Shuttle) (credit : BitVec 32) (s : State) : Host.Outcome State Fault Refusal :=
  runDev s fun d => d.slackRecv port.toNat 4 sh credit.toNat fun d => d.brokerOffer sh.payload
def execGrantRecv (port : BitVec 5) (sh : Shuttle) (credit : BitVec 32) (s : State) : Host.Outcome State Fault Refusal :=
  runDev s fun d => d.slackRecv port.toNat 4 sh credit.toNat fun d => d.granted sh.payload
def execRefuseRecv (port : BitVec 5) (sh : Shuttle) (credit : BitVec 32) (s : State) : Host.Outcome State Fault Refusal :=
  runDev s fun d => d.slackRecv port.toNat 4 sh credit.toNat fun d => d.refused sh.payload
def execShelfRelease (die : BitVec 2) (s : State) : Host.Outcome State Fault Refusal := runDev s fun d => d.whenUp (Dev.shelfRelease (1024 * die.toNat))

end Sys2Proof.Machine
end

