-- ==== Sys2Proof/Machine/Thermal.lean ====
section
/-! DEFINITION. Temperatures, regulator alerts and the loss of clocks and managers (R478 to R483). -/

namespace Sys2Proof.Machine

/-! ## Sensors (R482) -/

/-- R482: a sensor takes a reading (in 1/4 °C) that is in range, or none; `limit` is its timeout, `power` its region's power. A reading
that moves less than 0.25 °C in 10 s while the power changes by more than 20 % is stuck. -/
def SensorSt.take (s : SensorSt) (now limit power : Nat) (x : Option Int) (near : Bool) : SensorSt :=
  let s := match x with
    | some v => if near then { s with last := (v :: s.last).take 3, okAt := now } else s
    | none => s
  let v := medianOf s.last
  let s := if s.refAt = 0 ∨ 1 ≤ (v - s.ref).natAbs then { s with ref := v, refAt := now, pLo := power, pHi := power }
    else { s with pLo := min s.pLo power, pHi := max s.pHi power }
  let stuck := decide (s.refAt + ms 10000 ≤ now ∧ 12 * s.pLo < 10 * s.pHi ∧ limit = ms 1)
  { s with failed := decide (s.okAt + limit ≤ now) || stuck }

/-- R482: what sensor `i` counts as: its median, or the hottest sound one and 10 °C, or `dflt` when none is left. -/
def effective (ss : List SensorSt) (dflt : Int) (s : SensorSt) : Int :=
  if ! s.failed then medianOf s.last
  else match (ss.filter fun x => ! x.failed).map fun x => medianOf x.last with
    | [] => dflt
    | t :: ts => ts.foldl max t + 40

/-- Whole °C, 0 to 255, of a temperature in 1/4 °C. -/
def celsius (t : Int) : Nat := min 255 (t / 4).toNat

/-! ## Throttling (R478) -/

/-- R478: the temperature of a region: the hottest of its sensors. -/
def Dev.regionSensors (d : Dev) (r : Nat) : List SensorSt := (List.range 4).map fun i => SMap.at d.power.sensors (r + i) { okAt := d.now }
def Dev.regionTemp (d : Dev) (r : Nat) : Int :=
  let ss := d.regionSensors r
  (ss.map (effective ss 420)).foldl max (-160)

/-- R478: the temperature of a stack; the other stack of its die stands in with 10 °C more. -/
def Dev.stackSensors (d : Dev) (die : Nat) : List SensorSt := (List.range 2).map fun i => SMap.at d.power.hbmTemps (die / 512 + i) { okAt := d.now }
def Dev.stackTemp (d : Dev) (s : Nat) : Int :=
  let ss := d.stackSensors (s / 2 * 1024)
  effective ss 360 (ss.getD (s % 2) {})
def Dev.dieStacks (d : Dev) (die : Nat) : List Nat := [die / 512, die / 512 + 1].filter (! stackOut d.faults ·)

/-- R478: THERM_CAP of a region: it falls by one every 10 ms from 95 °C, or a stack of the die from 85 °C, and rises by one every 100 ms once all
lie below 92 °C and 82 °C. `hbm` says which kind of sensor was read. -/
def Dev.throttle (d : Dev) (hbm : Bool) (r : Nat) : Dev :=
  let die := r / 1024 * 1024
  let x := d.clock r
  let t := d.regionTemp r
  let hs := (d.dieStacks die).map d.stackTemp
  let cap := d.rd Reg.RCLOCK_THERM_CAP r
  let falling := decide (380 ≤ t) || hs.any fun h => decide (340 ≤ h)
  let rising := decide (t < 368) && hs.all fun h => decide (h < 328)
  let d := d.setClock r { x with falling := falling }
  let d := if falling ∧ ! x.falling then
      d.raise (pgThermal die) 0x0C0C 8 Sev.warn ((if hbm then celsius (hs.foldl max (-160)) else celsius t) + 256 * ofB hbm)
    else d
  let step := fun (d : Dev) c => (d.wr Reg.RCLOCK_THERM_CAP r c).setClock r { d.clock r with capAt := d.now }
  if falling then (if (x.falling = false ∨ x.capAt + ms 10 ≤ d.now) ∧ 0 < cap then step d (cap - 1) else d)
  else if rising ∧ cap < 15 ∧ x.capAt + ms 100 ≤ d.now then step d (cap + 1)
  else d

/-- R478: a cause of the forced shelf state comes or goes with a temperature. -/
def Dev.shelfAt (d : Dev) (die cause : Nat) (on : Bool) : Dev := if on then d.shelve die cause else d.unshelve die cause

/-- R482: a sensor's substitution begins. -/
def Dev.sensorEvent (d : Dev) (was now' : Bool) (detail : Nat) : Dev :=
  if ! was && now' then (d.count Reg.INPUT_COND_SUBST_COUNT 0).raise pgInputCond 0x0C0E 8 Sev.warn detail else d
def Dev.substBit (d : Dev) (row : Nat) (on : Bool) : Dev :=
  d.p Reg.INPUT_COND_SUBST (if on then setBit (d.g Reg.INPUT_COND_SUBST) row else clrBit (d.g Reg.INPUT_COND_SUBST) row)

/-- R482: readings of a row in range, and each of them judged against the others of its region: within 15 °C of their median. -/
def inRange (lo hi : Int) (t : Option (BitVec 16)) : Option Int :=
  match t with | some v => if lo ≤ v.toInt ∧ v.toInt ≤ hi then some v.toInt else none | none => none
def nearOthers (xs : List (Option Int)) (i : Nat) : Bool :=
  match (xs.getD i none), (xs.eraseIdx i).filterMap id with
  | some _, [] => true
  | some v, o => decide ((v - medianOf o).natAbs ≤ 60)
  | none, _ => false

/-- R484: the THERMAL page of a die follows its sensors. -/
def Dev.thermalView (d : Dev) (die : Nat) : Dev :=
  let rs := (regionsOf die).filter (! regionOut d.faults ·)
  let hot := (rs.map d.regionTemp).foldl max (-160)
  let bad := rs.foldl (fun a r => (List.range 4).foldl (fun a i => if ((d.regionSensors r).getD i {}).failed then setBit a (4 * (r / 256 % 4) + i) else a) a) 0
  let d := (d.wr Reg.THERMAL_TJ_MAX die (celsius hot)).wr Reg.THERMAL_SENSOR_FAILED die bad
  let hs := d.stackSensors die
  let show' := fun (s : SensorSt) => if s.last = [] ∧ ! s.failed then 0 else celsius (effective hs 360 s)
  (d.wr Reg.THERMAL_HBM0 die (show' (hs.getD 0 {}))).wr Reg.THERMAL_HBM1 die (show' (hs.getD 1 {}))

/-- JUNCTION_SENSOR_READ: the four sensors of a region, in 1/4 °C. -/
def Dev.junctionRead (r : Nat) (t : List (Option (BitVec 16))) (d : Dev) : Dev :=
  let die := r / 1024 * 1024
  let power := d.rd Reg.AVS_V die (r / 256 % 4) * d.rd Reg.AVS_I die (r / 256 % 4)
  let xs := (List.range 4).map fun i => inRange (-160) 600 (t.getD i none)
  let was := d.regionSensors r
  let d := (List.range 4).foldl (fun (d : Dev) i =>
    let s := (was.getD i {}).take d.now (ms 1) power (xs.getD i none) (nearOthers xs i)
    { d with power := { d.power with sensors := SMap.put d.power.sensors (r + i) s } }.sensorEvent (was.getD i {}).failed s.failed
      (i + 16 * (r / 256 % 4))) d
  let d := (d.substBit 0 (d.power.sensors.any fun x => x.2.failed)).thermalView die
  let d := d.throttle false r
  d.shelfAt die 1 ((regionsOf die).any fun r => ! regionOut d.faults r && decide (420 ≤ d.regionTemp r))

/-- HBM_TEMP_READ: the two stacks of a die, in 1/4 °C. -/
def Dev.hbmRead (die : Nat) (t : List (Option (BitVec 16))) (d : Dev) : Dev :=
  let xs := (List.range 2).map fun i => inRange (-160) 500 (t.getD i none)
  let was := d.stackSensors die
  let d := (List.range 2).foldl (fun (d : Dev) i =>
    let s := (was.getD i {}).take d.now (ms 5) 0 (xs.getD i none) true
    { d with power := { d.power with hbmTemps := SMap.put d.power.hbmTemps (die / 512 + i) s } }.sensorEvent (was.getD i {}).failed s.failed
      (die / 512 + i + 64)) d
  let d := (d.substBit 1 (d.power.hbmTemps.any fun x => x.2.failed)).thermalView die
  let d := ((regionsOf die).filter (! regionOut d.faults ·)).foldl (fun d r => d.throttle true r) d
  let hot := (d.dieStacks die).filter fun s => decide (380 ≤ d.stackTemp s)
  let d := { d with power := { d.power with selfRefresh := (d.power.selfRefresh ++ hot).eraseDups } }
  d.shelfAt die 2 (! hot.isEmpty)

/-! ## Alerts and losses (R479, R482, R483) -/

/-- REG_ALERT: REG_ALERT_N of a die has been low for 200 ns. -/
def Dev.regAlert (die : Nat) (d : Dev) : Dev := (d.wr Reg.AVS_REG_ALERT die 1).shelve die 3

/-- REG_ALERT_RELEASE: the pin has been high for 10 ms and every regulator reports a clear status. -/
def Dev.regAlertRelease (die : Nat) (d : Dev) : Dev := (d.wr Reg.AVS_REG_ALERT die 0).unshelve die 3

/-- REFCLK_LOSS: a die runs on its internal oscillator at 100 MHz; the beat is LOST. -/
def Dev.refclkLoss (die : Nat) (d : Dev) : Dev :=
  let d : Dev := { d with rst := { d.rst with refclk := false } }
  if d.rst.held then d
  else
  let d := (d.subst 7 true).shelve die 4
  if d.lockState = 4 then d else d.enterLost 1

/-- DIE_MANAGER_HUNG: the heartbeat of a die manager has been missed for 5 ms: the die's rails count as failed. -/
def Dev.managerHung (die : Nat) (d : Dev) : Dev :=
  let d := (List.range 7).foldl (fun (d : Dev) r => d.setRail (die + r) { d.rail (die + r) with failed := true }) d
  let d := ((d.wr Reg.AVS_RAIL_OK die 0).wr Reg.AVS_RAIL_FAILED die 0x7F).subst 2 true
  d.sourceFailed false

/-! ## The commands -/

def execJunctionSensorRead (r : BitVec 4) (t : List (Option (BitVec 16))) (s : State) : Host.Outcome State Fault Refusal :=
  runDev s fun d => d.whenUp (Dev.junctionRead (256 * r.toNat) t)
def execHbmTempRead (die : BitVec 2) (t : List (Option (BitVec 16))) (s : State) : Host.Outcome State Fault Refusal :=
  runDev s fun d => d.whenUp (Dev.hbmRead (1024 * die.toNat) t)
def execRegAlert (die : BitVec 2) (s : State) : Host.Outcome State Fault Refusal := runDev s fun d => d.whenUp (Dev.regAlert (1024 * die.toNat))
def execRegAlertRelease (die : BitVec 2) (s : State) : Host.Outcome State Fault Refusal := runDev s fun d => d.whenUp (Dev.regAlertRelease (1024 * die.toNat))
def execRefclkLoss (die : BitVec 2) (s : State) : Host.Outcome State Fault Refusal := runDev s (Dev.refclkLoss (1024 * die.toNat))
def execDieManagerHung (die : BitVec 2) (s : State) : Host.Outcome State Fault Refusal := runDev s fun d => d.whenKept (Dev.managerHung (1024 * die.toNat))

end Sys2Proof.Machine
end

