-- ==== Sys2Proof/Machine/Recovery.lean ====
section
/-! DEFINITION. Save points, the attic, external drains and restores (R486 to R505). -/

namespace Sys2Proof.Machine

def pgPartner : Nat := pageNum 0xD 0 0
def pgDrain : Nat := pageNum 0xD 0 1
def pgRestore : Nat := pageNum 0xD 0 2

/-- R491: the part number of the manifest on links. -/
def manifestNo : Nat := 0xFFFFFF

/-! ## Homes of committed state (R314, R364) -/

/-- Tensor indices of a kind before tensor `t`, in ascending id. -/
def kindBefore (b : List Byte) (kind t : Nat) : List Nat :=
  (List.range (Dr.nTensors b)).filter fun j => Dr.tKind b j == kind && decide (Dr.tId b j < t)

/-- R314: where an object of a save point lives: partition and byte offset; `buf` names the buffer of a STATE tensor. WEIGHTS holds the FP32
masters first; STATE holds the two buffers of each STATE tensor, then the remainders. -/
def Dev.objHome (d : Dev) (kind obj buf : Nat) : Option (Nat × Nat) :=
  let b := d.plan.draft
  let ts := List.range (Dr.nTensors b)
  if kind = 0 then some (0, ((kindBefore b 0 obj).map fun j => 4 * Dr.elems b d.coords j).sum)
  else if kind = 1 then
    some (1, ((kindBefore b 1 obj).map fun j => 2 * d.tensorBytes j).sum + buf * (((Dr.tensorIdx b obj).map d.tensorBytes).getD 0))
  else if kind = 2 then
    let rem := fun i => if Dr.rKeep b i < 4096 then 4 * ((Dr.tensorIdx b (Dr.rTensor b i)).map (Dr.elems b d.coords)).getD 0 else 0
    some (1, ((ts.filter fun j => Dr.tKind b j == 1).map fun j => 2 * d.tensorBytes j).sum +
      (((List.range (Dr.nReductions b)).filter fun i => decide (Dr.rId b i < obj)).map fun i => 2 * rem i).sum)
  else none

/-- R274: which buffer of a STATE tensor is live. -/
def Dev.liveBuf (d : Dev) (t : Nat) : Nat := ofB (d.plan.flipped.contains t)

/-- R486: a carry list as saved: each contribution after its length, its sender's group coordinate and its ARRIVAL. -/
def carryBytes (cs : List Carry) : List Byte :=
  cs.flatMap fun c => natLe 4 c.bytes.length ++ natLe 4 c.g ++ natLe 8 (match c.arrival with | some a => wrapI 32 a | none => 2 ^ 32) ++ c.bytes

/-- The carry lists that saved bytes hold; `n` bounds how many. -/
def carriesOf : Nat → List Byte → List Carry
  | 0, _ => []
  | n + 1, b =>
    let len := fld b 0 4
    if len = 0 ∨ b.length < 16 + len then []
    else
      let m := (b.drop 16).take len
      let a := fld b 8 8
      { red := fld m 4 4, shard := fld m 8 4, origin := fld m 16 8, g := fld b 4 4, sender := fld m 12 4,
        arrival := if a = 2 ^ 32 then none else some (sInt 32 a), bytes := m, live := true } :: carriesOf n (b.drop (16 + len))

/-- R486: the live bytes of a part, a multiple of 64. -/
def Dev.partBytes' (d : Dev) (m : Mem) (p : Nat × Nat × Nat × Nat) : List Byte :=
  let (k, o, off, n) := p
  let cut := fun (b : List Byte) => padTo 64 (((b.drop off).take n) ++ List.replicate (n - (b.drop off).length) 0)
  match d.objHome k o (d.liveBuf o) with
  | some (part, base) => padTo 64 (d.readStripe m part (base + off) n)
  | none =>
    if k = 3 then cut ((d.plan.scales.map fun x => x.2.record).flatten)
    else if k = 4 then cut (carryBytes (d.step.carries.filter fun c => c.live && c.red == o))
    else cut d.step.lastRecord

/-! ## Layout and manifest (R487, R492) -/

abbrev Parts := List (Nat × Nat × Nat × Nat)

/-- R486: the parts of a member's save point. -/
def Dev.partsOf (d : Dev) (member : Nat) : Parts := saveParts d.plan.draft d.plan.policy (d.g Reg.EXCH_CFG_CARRY_MIB) (Dr.coords d.plan.draft member)

def partLen (p : Nat × Nat × Nat × Nat) : Nat := (p.2.2.2 + 63) / 64 * 64

/-- R492: the attic offset of part `i`; of the manifest when `i` is the number of parts. -/
def atticAt (ps : Parts) (i : Nat) : Nat := ((ps.take i).map fun p => (partLen p + 511) / 512 * 512).sum

def manifestLen (ps : Parts) : Nat := 64 + 48 * ps.length

/-- R487: a manifest. -/
def Dev.manifest (d : Dev) (member step : Nat) (ext : Bool) (ps : Parts) (digests : List (List Byte)) : List Byte :=
  natLe 4 0x4E58434D ++ natLe 4 0x10000 ++ natLe 8 step ++ natLe 4 member ++ natLe 4 ps.length ++ natLe 8 (ofB ext) ++ shake256 d.plan.draft ++
    (ps.zip digests).flatMap fun (p, g) => natLe 4 p.1 ++ natLe 4 p.2.1 ++ natLe 4 (p.2.2.1 / 512) ++ natLe 4 (partLen p) ++ g

/-- R503: the first part of a manifest that does not match, by a reader of part bytes; 0xFFFF_FFFF stands for the manifest itself. -/
def Dev.badPart (d : Dev) (man : List Byte) (member : Nat) (ps : Parts) (read : Nat → List Byte) : Option Nat :=
  if fld man 0 4 ≠ 0x4E58434D ∨ fld man 4 4 / 65536 ≠ 1 ∨ fld man 0x10 4 ≠ member ∨ fld man 0x14 4 ≠ ps.length ∨ man.length ≠ manifestLen ps ∨
      (man.drop 0x20).take 32 ≠ shake256 d.plan.draft then some 0xFFFFFFFF
  else (ps.zipIdx.find? fun (p, i) =>
    let e := man.drop (64 + 48 * i)
    ! (fld e 0 4 == p.1 && fld e 4 4 == p.2.1 && fld e 8 4 == p.2.2.1 / 512 && fld e 0xC 4 == partLen p &&
      (e.drop 0x10).take 32 == shake256 (read i))).map (·.2)

/-! ## Sending (R489 to R491, R493, R495) -/

def Dev.setTransfers (d : Dev) (ts : List Transfer) : Dev := { d with recov := { d.recov with transfers := ts } }
def Dev.putTransfer (d : Dev) (t : Transfer) : Dev :=
  d.setTransfers (d.recov.transfers.map fun x => if x.dst = t.dst ∧ x.use = t.use then t else x)

/-- R489: a WEIGHTS part that flows of the live route table carry to the partner's attic. -/
def Dev.gathered (d : Dev) (dst off len : Nat) : Bool :=
  let t := d.route.live
  let rs := ((List.range (Rt.nFlows t)).filter fun i => Rt.fSrc t i == d.selfAddr && Rt.fDst t i == dst && Rt.fAttic t i != 0xFFFFFFFF).foldl
    (fun a i => addRange (512 * Rt.fAttic t i) (512 * Rt.fAttic t i + Rt.fBytes t i) a) []
  d.routeLive && rs.any fun x => decide (x.1 ≤ off ∧ off + len ≤ x.2)

/-- The member whose save point a transfer carries. -/
def Dev.transferMember (d : Dev) (t : Transfer) : Nat :=
  if t.use = 1 then (d.memberOf t.dst).getD 0 else d.self.getD 0

/-- The bytes of part `i` of a transfer, or of its manifest when `i` is the number of parts. -/
def Dev.transferBytes (d : Dev) (m : Mem) (t : Transfer) (ps : Parts) (i : Nat) : List Byte :=
  let len := if i < ps.length then partLen (ps.getD i (0, 0, 0, 0)) else manifestLen ps
  if t.use = 1 then d.readStripe m 3 (atticAt ps i) len
  else if i < ps.length then d.partBytes' m (ps.getD i (0, 0, 0, 0))
  else d.manifest (d.self.getD 0) t.step false ps t.digests

def piecesOf (n : Nat) : Nat := max 1 ((n + 4095) / 4096)

/-- R491: one piece leaves; after the last of its part the answer is awaited. -/
def Dev.sendPiece (d : Dev) (m : Mem) (t : Transfer) (ps : Parts) (i k : Nat) : Transfer × Dev :=
  let b := d.transferBytes m t ps i
  let n := piecesOf b.length
  let no := if i < ps.length then i else manifestNo
  let d := d.slackOwn (mkShuttle 5 t.dst d.selfAddr no k (n - 1) (t.step % 2 ^ 32) t.use ((b.drop (4096 * k)).take 4096))
  if k + 1 < n then (t, d)
  else ({ t with waits := (no, d.beatNum) :: t.waits.filter fun w => w.1 != no,
                 sentParts := if t.sentParts.contains no then t.sentParts else no :: t.sentParts }, d)

/-- DRAIN_SEND: the next piece of a transfer leaves in the slack window: one to send again first, then the parts that the gather does not carry in
order, then the manifest once they are acknowledged. -/
def Dev.drainSend (use : Nat) (m : Mem) (d : Dev) : Dev :=
  if ! d.slackOpen then d
  else
    match d.recov.transfers.find? fun t => t.use == use && ! t.bad with
    | none => d
    | some t =>
      let ps := d.partsOf (d.transferMember t)
      let idx := fun no => if no = manifestNo then ps.length else no
      match t.again with
      | (no, k) :: rest =>
        let r := d.sendPiece m t ps (idx no) k
        let n := piecesOf (if no = manifestNo then manifestLen ps else partLen (ps.getD no (0, 0, 0, 0)))
        r.2.putTransfer { r.1 with again := if k + 1 < n then (no, k + 1) :: rest else rest }
      | [] =>
        if t.next < ps.length then
          let p := ps.getD t.next (0, 0, 0, 0)
          let dig := if t.piece = 0 ∧ t.use ≠ 1 then t.digests ++ [shake256 (d.transferBytes m t ps t.next)] else t.digests
          let t := { t with digests := dig }
          if t.use = 0 ∧ p.1 = 0 ∧ d.gathered t.dst (atticAt ps t.next) (partLen p) then d.putTransfer { t with next := t.next + 1, piece := 0 }
          else
            let r := d.sendPiece m t ps t.next t.piece
            r.2.putTransfer (if t.piece + 1 < piecesOf (partLen p) then { r.1 with piece := t.piece + 1 } else { r.1 with next := t.next + 1, piece := 0 })
        else if t.next = ps.length ∧ t.sentParts.all (t.acked.contains ·) then
          let r := d.sendPiece m t ps ps.length t.piece
          r.2.putTransfer (if t.piece + 1 < piecesOf (manifestLen ps) then { r.1 with piece := t.piece + 1 } else { r.1 with next := t.next + 1, piece := 0 })
        else d

/-- R493, R495: a transfer is abandoned. -/
def Dev.abandon (d : Dev) (t : Transfer) : Dev :=
  let d := (d.setTransfers (d.recov.transfers.filter fun x => ! (x.dst == t.dst && x.use == t.use))).bump Reg.PARTNER_ABANDONED 0
  let d := if t.use = 0 then d.p Reg.PARTNER_OWN_COPY 3 else d
  d.raise pgPartner 0x0D04 11 Sev.warn 0

/-- R493: a part is sent again from a piece, at most three times. -/
def Dev.sendAgain (d : Dev) (t : Transfer) (part piece : Nat) : Dev :=
  let n := SMap.at t.tries part 0
  if 3 ≤ n then
    let d := d.abandon t
    if t.use = 0 then d.raise pgPartner 0x0D01 8 Sev.warn (t.dst + 2 ^ 19) else d
  else (d.bump Reg.PARTNER_RESENDS 0).putTransfer
    { t with tries := SMap.put t.tries part (n + 1), waits := t.waits.filter (fun w => w.1 != part), again := t.again ++ [(part, piece)] }

/-- PART_RETRY: no answer for RETRY_BEATS beats: the last piece is sent again. -/
def Dev.partRetry (use part : Nat) (d : Dev) : Dev :=
  match d.recov.transfers.find? fun t => t.use == use with
  | none => d
  | some t =>
    match t.waits.find? fun w => w.1 == part with
    | none => d
    | some w =>
      if d.beatNum < w.2 + d.g Reg.PARTNER_RETRY_BEATS then d
      else
        let ps := d.partsOf (d.transferMember t)
        let n := piecesOf (if part = manifestNo then manifestLen ps else partLen (ps.getD part (0, 0, 0, 0)))
        d.sendAgain t part (n - 1)

/-- R491: an answer from the receiver of a transfer. -/
def Dev.ctrlRecv (d : Dev) (p op : Nat) (s : Shuttle) (credit : Nat) (act : Dev → Transfer → Nat → Nat → Dev) : Dev :=
  d.slackRecv p 6 s credit fun d =>
    let m := s.payload
    if fld m 0 4 ≠ op then d
    else match d.recov.transfers.find? fun t => t.dst == s.src.toNat && t.step == fld m 0xC 8 with
      | some t => act d t (fld m 4 4) (fld m 8 2)
      | none => d

def Dev.partAck (d : Dev) (t : Transfer) (part _piece : Nat) : Dev :=
  d.putTransfer { t with acked := if t.acked.contains part then t.acked else part :: t.acked, waits := t.waits.filter fun w => w.1 != part }
def Dev.partNak (d : Dev) (t : Transfer) (part piece : Nat) : Dev := d.sendAgain t part piece
def Dev.manifestAck (d : Dev) (t : Transfer) (_part _piece : Nat) : Dev :=
  let d := d.setTransfers (d.recov.transfers.filter fun x => ! (x.dst == t.dst && x.use == t.use))
  if t.use = 0 then d.p Reg.PARTNER_OWN_COPY 2 else d
/-- R494: the receiver found the copy bad: it counts as none until the next save point. -/
def Dev.manifestBad (d : Dev) (t : Transfer) (_part _piece : Nat) : Dev :=
  let d := d.putTransfer { t with bad := true, waits := [], again := [] }
  if t.use = 0 then d.p Reg.PARTNER_OWN_COPY 3 else d

/-- R490, R496: save point `s` begins to leave. -/
def Dev.startDrain (d : Dev) (s : Nat) : Dev :=
  match d.self with
  | none => d
  | some me =>
    let d := match partnerOf d.plan.draft me with
      | some p =>
        (d.setTransfers ((d.recov.transfers.filter fun t => t.use != 0) ++ [({ dst := d.memberAddr p, use := 0, step := s } : Transfer)])).p
          Reg.PARTNER_OWN_COPY 1
      | none => d
    let n := d.g Reg.SPARES_DRAIN
    if n ≠ 0 ∧ s % n = 0 then { d with recov := { d.recov with ext := some { step := s } } }.p Reg.DRAIN_STATE 1 else d

/-- R495: what a vote waits for. -/
def Dev.drainHeld (d : Dev) : Bool := d.recov.transfers.any (fun t => t.use == 0) || d.recov.ext.isSome

/-- R495, R496: the wait has run out. -/
def Dev.abandonDrains (d : Dev) : Dev :=
  let d := match d.recov.transfers.find? fun t => t.use == 0 with | some t => d.abandon t | none => d
  match d.recov.ext with
  | some _ => (({ d with recov := { d.recov with ext := none } }.p Reg.DRAIN_STATE 3).bump Reg.PARTNER_ABANDONED 0).raise pgPartner 0x0D04 11 Sev.warn 1
  | none => d

/-! ## Receiving (R492, R493) -/

/-- R492: the member whose save point arrives under a use. -/
def Dev.recvMember (d : Dev) (use : Nat) : Option Nat := if use = 1 then d.self else d.self.bind (heldBy d.plan.draft)

/-- R492: the save point expected under a use: the last committed step's for a drain; what its first piece names for a refill. -/
def Dev.expected (d : Dev) (use s : Nat) : Nat := if use = 0 then (d.stepNo - 1) % 2 ^ 32 else SMap.at d.recov.gotStep use s

/-- R492: a piece is written where it belongs. -/
def Dev.placePiece (d : Dev) (m : Mem) (use : Nat) (ps : Parts) (s : Shuttle) : Dev :=
  let no := s.flow.toNat
  let off := 4096 * s.shuttle.toNat
  if use ≠ 1 then
    let sp := if use = 0 then d.stepNo - 1 else s.step.toNat
    d.atticPut sp (atticAt ps (if no = manifestNo then ps.length else no) + off) s.payload
  else
    let _ := m
    let p := ps.getD no (0, 0, 0, 0)
    match (if no = manifestNo then none else d.objHome p.1 p.2.1 0) with
    | some (part, base) => d.pokeStripe part (base + p.2.2.1 + off) (s.payload.take (p.2.2.2 - off))
    | none =>
      let len := if no = manifestNo then manifestLen ps else partLen p
      let old := SMap.at d.recov.held no (List.replicate len 0)
      { d with recov := { d.recov with held := SMap.put d.recov.held no ((old.take off ++ s.payload ++ old.drop (off + s.payload.length)).take len) } }

/-- R504: every piece of a save point sent with START = 1, and of its manifest, has landed: it is verified next. -/
def Dev.refilled (d : Dev) (ps : Parts) : Bool :=
  (List.range (ps.length + 1)).all fun i =>
    let (no, len) := if i < ps.length then (i, partLen (ps.getD i (0, 0, 0, 0))) else (manifestNo, manifestLen ps)
    (List.range (piecesOf len)).all fun k => d.recov.got.contains (1, no, k)

/-- A DRAIN shuttle of a use is received. -/
def Dev.drainRecv (use p : Nat) (s : Shuttle) (credit : Nat) (m : Mem) (d : Dev) : Dev :=
  d.slackRecv p 5 s credit fun d =>
    let st := s.step.toNat
    if s.start.toNat ≠ use then (if 2 < s.start.toNat then d.linkStale p else d)
    else
      match d.recvMember use with
      | none => d.linkStale p
      | some mem' =>
        let ps := d.partsOf mem'
        let no := s.flow.toNat
        let n := piecesOf (if no = manifestNo then manifestLen ps else partLen (ps.getD no (0, 0, 0, 0)))
        if st ≠ d.expected use st ∨ (no ≠ manifestNo ∧ ps.length ≤ no) ∨ n ≤ s.shuttle.toNat then d.linkStale p
        else if use = 0 ∧ d.g Reg.PARTNER_ATTIC_STATE = 2 ∧ d.g64 Reg.PARTNER_ATTIC_STEP_LO Reg.PARTNER_ATTIC_STEP_HI = d.stepNo - 1 then d
        else
          let fresh := SMap.at d.recov.gotStep use st ≠ st
          let got := if fresh then d.recov.got.filter (fun g => g.1 != use) else d.recov.got
          let key := (use, no, s.shuttle.toNat)
          let d := { d with recov := { d.recov with got := if got.contains key then got else key :: got, gotStep := SMap.put d.recov.gotStep use st,
                                                    gotFrom := SMap.put d.recov.gotFrom use s.src.toNat } }
          let d : Dev := d.placePiece m use ps s
          if use = 1 ∧ d.g Reg.RESTORE_STATE = 1 ∧ d.refilled ps then d.p Reg.RESTORE_STATE 2 else d

/-- R491: an answer. -/
def Dev.answer (d : Dev) (use op part piece : Nat) : Dev :=
  let step := if use = 0 then d.stepNo - 1 else SMap.at d.recov.gotStep use 0
  let dst := SMap.at d.recov.gotFrom use 0
  d.slackOwn (mkShuttle 6 dst d.selfAddr 0 0 0 (step % 2 ^ 32) 0
    (natLe 4 op ++ natLe 4 part ++ natLe 4 piece ++ natLe 8 step ++ natLe 44 0))

/-- The bytes that have arrived of part `i`, or of the manifest. -/
def Dev.arrived (d : Dev) (m : Mem) (use : Nat) (ps : Parts) (i : Nat) : List Byte :=
  let len := if i < ps.length then partLen (ps.getD i (0, 0, 0, 0)) else manifestLen ps
  if use ≠ 1 then d.readStripe m 3 (atticAt ps i) len
  else
    let p := ps.getD i (0, 0, 0, 0)
    match (if i < ps.length then d.objHome p.1 p.2.1 0 else none) with
    | some (part, base) => padTo 64 (d.readStripe m part (base + p.2.2.1) p.2.2.2)
    | none => SMap.at d.recov.held (if i < ps.length then i else manifestNo) (List.replicate len 0)

/-- PART_ANSWER: the last piece of a part has arrived in the slack window that ends. -/
def Dev.partAnswer (use part : Nat) (m : Mem) (d : Dev) : Dev :=
  match d.recvMember use with
  | none => d
  | some mem' =>
    let ps := d.partsOf mem'
    let n := piecesOf (if part = manifestNo then manifestLen ps else partLen (ps.getD part (0, 0, 0, 0)))
    let have' := fun k => d.recov.got.contains (use, part, k)
    if ! have' (n - 1) then d
    else
      match (List.range n).find? fun k => ! have' k with
      | some k => d.answer use 2 part k
      | none =>
        if part ≠ manifestNo then d.answer use 1 part 0
        else
          let sp := if use = 0 then d.stepNo - 1 else SMap.at d.recov.gotStep use 0
          match d.badPart (d.arrived m use ps ps.length) mem' ps (d.arrived m use ps) with
          | some i =>
            let d := if use = 1 then d else (d.p Reg.PARTNER_ATTIC_STATE 3).raise pgPartner 0x0D03 10 Sev.error i
            d.answer use 4 part 0
          | none =>
            let d := if use = 1 then d
              else ((d.p Reg.PARTNER_ATTIC_STATE 2).p64 Reg.PARTNER_ATTIC_STEP_LO Reg.PARTNER_ATTIC_STEP_HI sp).raise pgPartner 0x0D02 9 Sev.info
                (sp % 2 ^ 32)
            d.answer use 3 part 0

/-! ## External drains (R496, R497) -/

/-- R496: whether a DRAIN channel serves the external drain: front channels before control ones. -/
def Dev.drainServes (d : Dev) (c : Chan) : Bool := ! isControl c.port || (chansOf d Kd.drain).all fun x => isControl x.port

/-- R497: a message of the package. -/
def drainMsg (op part step off bytes : Nat) (data : List Byte) : List Byte :=
  natLe 4 op ++ natLe 4 part ++ natLe 8 step ++ natLe 4 off ++ natLe 4 bytes ++ natLe 8 0 ++ data

/-- EXTERNAL_DRAIN_SEND: the next message of the external drain on a channel, in the slack window. -/
def Dev.extSend (h : Nat) (m : Mem) (d : Dev) : Dev :=
  match d.chan h, d.recov.ext with
  | some c, some x =>
    if kindOf h ≠ Kd.drain ∨ ! d.slackOpen ∨ ! d.drainServes c then d
    else
      let me := d.self.getD 0
      let ps := d.partsOf me
      let put := fun (d : Dev) (x : ExtDrain) => { d with recov := { d.recov with ext := some x } }
      match (x.active.find? fun a => a.1 == h), decide (x.next < ps.length) with
      | none, true =>
        let b := d.partBytes' m (ps.getD x.next (0, 0, 0, 0))
        let x' := { x with next := x.next + 1, digests := x.digests ++ [shake256 b],
                           active := if 65536 < b.length then x.active ++ [(h, x.next, 65536)] else x.active }
        put (d.queueMsg c.sess h (drainMsg 1 x.next x.step 0 (min 65536 b.length) (b.take 65536))) x'
      | some (_, i, off), _ =>
        let b := (d.partBytes' m (ps.getD i (0, 0, 0, 0))).drop off
        let rest := x.active.filter fun a => a.1 != h
        let x' := { x with active := if 65536 < b.length then rest ++ [(h, i, off + 65536)] else rest }
        put (d.queueMsg c.sess h (drainMsg 1 i x.step off (min 65536 b.length) (b.take 65536))) x'
      | none, false =>
        if x.manifestSent ∨ x.active ≠ [] then d
        else
          let b := d.manifest me x.step true ps x.digests
          put ((pieces 65536 ((b.length + 65535) / 65536) b).zipIdx.foldl (fun (d : Dev) (p, k) =>
            d.queueMsg c.sess h (drainMsg 2 0xFFFFFFFF x.step (65536 * k) p.length p)) d) { x with manifestSent := true }
  | _, _ => d

/-- DRAIN_ACK: the host holds a part, or the manifest, whole. -/
def Dev.drainAck (h : Nat) (d : Dev) : Dev :=
  match d.takeMessage h Kd.drain with
  | none => d
  | some (_, m, d) =>
    match d.recov.ext with
    | none => d
    | some x =>
      let part := fld m 4 4
      if fld m 0 4 ≠ 3 ∨ fld m 8 8 ≠ x.step ∨ m.length ≠ 32 then d
      else if part = 0xFFFFFFFF then
        if ! x.manifestSent then d
        else
          let d := ({ d with recov := { d.recov with ext := none } }.p Reg.DRAIN_STATE 2).p64 Reg.DRAIN_LAST_STEP_LO Reg.DRAIN_LAST_STEP_HI x.step
          d.raise pgDrain 0x0D05 8 Sev.info (x.step % 2 ^ 32)
      else if x.acked.contains part ∨ x.next ≤ part then d
      else { d with recov := { d.recov with ext := some { x with acked := part :: x.acked } } }.bump Reg.DRAIN_PARTS_SENT 0

/-- DRAIN_LEDGER: the LEDGER_DIGEST of a supplied ledger. -/
def Dev.drainLedger (h : Nat) (d : Dev) : Dev :=
  match d.takeMessage h Kd.drain with
  | some (_, m, d) => if fld m 0 4 = 6 ∧ m.length = 64 then { d with recov := { d.recov with ledgerDigest := some (m.drop 32) } } else d
  | none => d

/-! ## Restores (R498 to R503) -/

/-- R501: the next FETCH: the manifest first, then the parts in order, 64 KiB at a time. -/
def Dev.fetchNext (d : Dev) (ps : Parts) : Dev :=
  match d.recov.fetch, (chansOf d Kd.drain).find? d.drainServes with
  | some (i, off), some c =>
    let len := if i < ps.length then partLen (ps.getD i (0, 0, 0, 0)) else manifestLen ps
    let s := d.g64 Reg.DRAIN_LAST_STEP_LO Reg.DRAIN_LAST_STEP_HI
    d.queueMsg c.sess c.handle (drainMsg 4 (if i < ps.length then i else 0xFFFFFFFF) s off (min 65536 (len - off)) [])
  | _, _ => d

/-- DRAIN_DATA: bytes of an external save point arrive. -/
def Dev.drainData (h : Nat) (d : Dev) : Dev :=
  match d.takeMessage h Kd.drain with
  | none => d
  | some (_, m, d) =>
    match d.recov.fetch, d.self with
    | some (i, off), some me =>
      let ps := d.partsOf me
      let len := if i < ps.length then partLen (ps.getD i (0, 0, 0, 0)) else manifestLen ps
      let no := if i < ps.length then i else manifestNo
      let n := fld m 0x14 4
      if fld m 0 4 ≠ 5 ∨ fld m 4 4 ≠ (if i < ps.length then i else 0xFFFFFFFF) ∨ fld m 0x10 4 ≠ off ∨ m.length ≠ 32 + n ∨ n ≠ min 65536 (len - off) then d
      else
        let d := { d with recov := { d.recov with held := SMap.put d.recov.held no (SMap.at d.recov.held no [] ++ m.drop 32) } }
        let d := if off + n < len then { d with recov := { d.recov with fetch := some (i, off + n) } }
          else
            let d := if i < ps.length then d.bump Reg.RESTORE_PARTS_DONE 0 else d
            let i' := if i = ps.length then 0 else i + 1
            let d : Dev := { d with recov := { d.recov with fetch := if i' < ps.length then some (i', 0) else none } }
            if i' < ps.length then d else d.p Reg.RESTORE_STATE 2
        d.fetchNext ps
    | _, _ => d

/-- R318, R500 step 1, R502: a failed package, by its address: a spare in use is marked failed, and a member gets the next spare. -/
def Dev.assignSpare (d : Dev) (addr : Nat) : Dev :=
  match d.memberOf addr with
  | none => { d with plan := { d.plan with lostSpares := d.plan.lostSpares ++ [addr] } }
  | some m =>
    let taken := d.plan.replaced.any fun x => x.2 == addr
    let d : Dev := { d with plan := { d.plan with lostSpares := if taken then d.plan.lostSpares ++ [addr] else d.plan.lostSpares,
                                                  replaced := d.plan.replaced.filter fun x => x.2 != addr } }
    match d.chooseSpare m with
    | some s => { d with plan := { d.plan with replaced := d.plan.replaced ++ [(m, s)] } }.raise pgSpares 0x070B 9 Sev.info s
    | none => d.raise pgSpares 0x070E 10 Sev.error addr

/-- R503: a restore fails. -/
def Dev.restoreFailed (d : Dev) (part : Nat) : Dev := (d.p Reg.RESTORE_STATE 4).raise pgRestore 0x0D07 9 Sev.error part

/-- RESTORE_START: a committed declaration is acted on. -/
def Dev.restoreStart (m : Mem) (d : Dev) : Dev :=
  if d.g Reg.RESTORE_EPOCH = d.recov.epoch ∨ d.plan.draft = [] then d
  else
    let list := d.srcBytes m 2 (d.g Reg.RESTORE_LIST_ADDR) (4 * d.g Reg.RESTORE_LIST_COUNT)
    let addrs := (List.range (d.g Reg.RESTORE_LIST_COUNT)).map fun i => fld list (4 * i) 3 % 2 ^ 18
    let ext := d.g Reg.RESTORE_SOURCE = 1
    let was := d.self
    let failed := sortBy (fun a b => decide (a ≤ b)) (addrs.filterMap d.memberOf)
    let byMember := sortBy (fun a b => decide ((d.memberOf a).getD (2 ^ 18) ≤ (d.memberOf b).getD (2 ^ 18))) addrs
    let d := byMember.foldl Dev.assignSpare d
    let d := { d with recov := { d.recov with epoch := d.g Reg.RESTORE_EPOCH, held := [], fetch := none, restored := none,
                                              got := d.recov.got.filter (fun g => g.1 = 0),
                                              transfers := if ext then [] else d.recov.transfers.filter fun t => t.use = 0 } }
    let d := d.sparesView.p Reg.RESTORE_PARTS_DONE 0
    let spare := decide (d.self ≠ none ∧ was ≠ d.self)
    let d := if spare then
        let d := (d.p Reg.SPARES_ROLE 3).raise pgRestore 0x0D08 10 Sev.info (d.self.getD 0)
        match d.place d.nextFaults (if d.g Reg.BRINGUP_LEVEL = 2 then 5 else Dr.opPlan d.plan.draft) with
        | .ok p => ({ d with plan := { d.plan with ready := some p, causes := [3], replanning := false } }.setParts p).p Reg.RESTORE_STATE 1
        | .reject _ _ _ => d.restoreFailed 0xFFFFFFFF
      else d
    match d.self with
    | none => d
    | some me =>
      if d.g Reg.RESTORE_STATE = 4 ∧ spare then d
      else if ext then
        let ps := d.partsOf me
        let d := { (d.p Reg.RESTORE_STATE 1).p Reg.PARTNER_ATTIC_STATE 0 with recov := { d.recov with fetch := some (ps.length, 0) } }
        d.fetchNext ps
      else
        let d := failed.foldl (fun (d : Dev) i =>
          let a := d.memberAddr i
          let add := fun (d : Dev) (use step : Nat) => d.setTransfers (d.recov.transfers ++ [({ dst := a, use := use, step := step } : Transfer)])
          let d := if partnerOf d.plan.draft i = some me then add d 1 (d.g64 Reg.PARTNER_ATTIC_STEP_LO Reg.PARTNER_ATTIC_STEP_HI) else d
          if partnerOf d.plan.draft me = some i then add d 2 (d.stepNo - 1) else d) d
        if spare then d else (d.p Reg.RESTORE_STATE 3).raise pgRestore 0x0D06 8 Sev.info 0

/-- R503: accepted bytes become live. -/
def Dev.makeLive (d : Dev) (ext : Bool) (ps : Parts) (read : Nat → List Byte) : Dev :=
  let d : Dev := { d with plan := { d.plan with flipped := [] } }
  let d := ps.zipIdx.foldl (fun (d : Dev) (p, i) =>
    match d.objHome p.1 p.2.1 0 with
    | some (part, base) => if ext then d.pokeStripe part (base + p.2.2.1) ((read i).take p.2.2.2) else d
    | none =>
      let b := read i
      if p.1 = 3 then
        (List.range (p.2.2.2 / 8)).foldl (fun (d : Dev) k =>
          let x := scaleOfRecord ((b.drop (8 * k)).take 8)
          { d with plan := { d.plan with scales := SMap.put d.plan.scales x.tensor x } }) d
      else if p.1 = 4 then d.setCarries (d.step.carries ++ carriesOf 4096 b)
      else { d with step := { d.step with lastRecord := b } }) (d.setCarries [])
  if ps.any (fun p => p.1 == 3) then d else (managed d.plan.policy).foldl Dev.warmStart d

/-- RESTORE_ACCEPT: everything is held: it is checked. -/
def Dev.restoreAccept (m : Mem) (d : Dev) : Dev :=
  match d.self with
  | none => d
  | some me =>
    let ext := d.g Reg.RESTORE_SOURCE = 1
    let ps := d.partsOf me
    let whole := if ext then d.recov.fetch.isNone && (SMap.find d.recov.held manifestNo).isSome else d.refilled ps
    if (d.g Reg.RESTORE_STATE ≠ 1 ∧ d.g Reg.RESTORE_STATE ≠ 2) ∨ ! whole then d
    else
      let read := fun i => if ext then SMap.at d.recov.held (if i < ps.length then i else manifestNo) [] else d.arrived m 1 ps i
      let man := read ps.length
      let wrong := decide (ext ∧ shake256 man ≠ ((List.range 8).flatMap fun i => natLe 4 (d.g Reg.RESTORE_MANIFEST_DIGEST i)))
      match d.badPart man me ps read with
      | some i => d.restoreFailed i
      | none =>
        if wrong then d.restoreFailed 0xFFFFFFFF
        else
          let d := d.makeLive ext ps read
          let d := { d with recov := { d.recov with restored := some (fld man 8 8), held := [] } }
          let d := if ext then d else d.p Reg.RESTORE_PARTS_DONE ps.length
          (d.p Reg.RESTORE_STATE 3).raise pgRestore 0x0D06 8 Sev.info (ofB ext)

/-- R498: peers toward which every port is FAILED or DOWN. -/
def Dev.peersGone (d : Dev) : Dev :=
  let gone := (List.range 8).filter fun b => d.routeLive && (List.range 4).all fun k => [1, 5].contains (d.phy (4 * b + k))
  let peers := gone.map fun b => neighbour d.topo d.selfAddr (b / 2) (b % 2)
  let new := peers.filter fun a => ! d.recov.suspects.contains a && a != d.selfAddr
  let d := { d with recov := { d.recov with suspects := peers } }
  new.foldl (fun d a => d.raise pgPartner 0x0D01 8 Sev.warn a) d

/-! ## The commands -/

def execDrainSend (use : BitVec 2) (s : State) : Host.Outcome State Fault Refusal := runDev s (Dev.drainSend use.toNat s.mem)
def execDrainPiece (port : BitVec 5) (sh : Shuttle) (credit : BitVec 32) (s : State) : Host.Outcome State Fault Refusal :=
  runMem s (Dev.drainRecv 0 port.toNat sh credit.toNat)
def execRefillPiece (port : BitVec 5) (sh : Shuttle) (credit : BitVec 32) (s : State) : Host.Outcome State Fault Refusal :=
  runMem s (Dev.drainRecv 1 port.toNat sh credit.toNat)
def execAtticRefillPiece (port : BitVec 5) (sh : Shuttle) (credit : BitVec 32) (s : State) : Host.Outcome State Fault Refusal :=
  runMem s (Dev.drainRecv 2 port.toNat sh credit.toNat)
def execPartAnswer (use : BitVec 2) (part : BitVec 24) (s : State) : Host.Outcome State Fault Refusal := runDev s (Dev.partAnswer use.toNat part.toNat s.mem)
def execPartAck (port : BitVec 5) (sh : Shuttle) (credit : BitVec 32) (s : State) : Host.Outcome State Fault Refusal :=
  runDev s fun d => d.ctrlRecv port.toNat 1 sh credit.toNat Dev.partAck
def execPartNak (port : BitVec 5) (sh : Shuttle) (credit : BitVec 32) (s : State) : Host.Outcome State Fault Refusal :=
  runDev s fun d => d.ctrlRecv port.toNat 2 sh credit.toNat Dev.partNak
def execManifestAck (port : BitVec 5) (sh : Shuttle) (credit : BitVec 32) (s : State) : Host.Outcome State Fault Refusal :=
  runDev s fun d => d.ctrlRecv port.toNat 3 sh credit.toNat Dev.manifestAck
def execManifestBad (port : BitVec 5) (sh : Shuttle) (credit : BitVec 32) (s : State) : Host.Outcome State Fault Refusal :=
  runDev s fun d => d.ctrlRecv port.toNat 4 sh credit.toNat Dev.manifestBad
def execPartRetry (use : BitVec 2) (part : BitVec 24) (s : State) : Host.Outcome State Fault Refusal := runDev s (Dev.partRetry use.toNat part.toNat)
def execExternalDrainSend (handle : BitVec 32) (s : State) : Host.Outcome State Fault Refusal := runDev s (Dev.extSend handle.toNat s.mem)
def execDrainAck (handle : BitVec 32) (s : State) : Host.Outcome State Fault Refusal := runDev s (Dev.drainAck handle.toNat)
def execDrainData (handle : BitVec 32) (s : State) : Host.Outcome State Fault Refusal := runDev s (Dev.drainData handle.toNat)
def execDrainLedger (handle : BitVec 32) (s : State) : Host.Outcome State Fault Refusal := runDev s (Dev.drainLedger handle.toNat)
def execRestoreStart (s : State) : Host.Outcome State Fault Refusal := runDev s (Dev.restoreStart s.mem)
def execRestoreAccept (s : State) : Host.Outcome State Fault Refusal := runMem s Dev.restoreAccept

end Sys2Proof.Machine
end

