-- ==== Sys2Proof/Machine/Quiesce.lean ====
section
/-! DEFINITION. Enabling, quiescing, faulting and resetting one block (R61 to R70, R557, R559). -/

namespace Sys2Proof.Machine

/-! ## Containment (R67, R559) -/

/-- The pages of an HBM, link or host instance. -/
def ioPages (cls inst : Nat) : List Nat :=
  ((List.range (Reg.pagesOf.getD cls 0)).map (pageNum cls inst)).filter fun pg => ! (cls == 7 && pgPage pg == 3 && inst % 32 == 0)

/-- The pages of a die's HBM, link and host instances (R25). -/
def dieIoPages (die : Nat) : List Nat :=
  ([die, die + 1].flatMap (ioPages 5)) ++ ((List.range 8).flatMap fun i => ioPages 6 (die + i)) ++ ([die, die + 1].flatMap (ioPages 7))

/-- The blocks that the quiesce of a top block reaches. -/
def containedPages (pg : Nat) : List Nat :=
  if pgPage pg ≠ 0 then []
  else
    let i := pgInst pg
    (match pgClass pg with
      | 1 => unitPages i
      | 2 => faultPages (2, i)
      | 3 => faultPages (3, i)
      | 4 => faultPages (4, i) ++ dieIoPages i
      | 5 => ioPages 5 i
      | 6 => ioPages 6 i
      | 7 => ioPages 7 i
      | _ => []).filter (· ≠ pg)

/-- The top blocks whose quiesce reaches a page, innermost first. -/
def containers (pg : Nat) : List Nat :=
  let i := pgInst pg
  let c := pgClass pg
  let own := if 1 ≤ c ∧ c ≤ 7 then [pageNum c i 0] else []
  let up := (if c = 1 then [pageNum 2 (clusterOf i) 0] else []) ++ (if 1 ≤ c ∧ c ≤ 2 then [pageNum 3 (regionOf i) 0] else []) ++
    (if c ≠ 4 ∧ 1 ≤ c ∧ c ≤ 7 then [pageNum 4 (dieOf i * 1024) 0] else [])
  (own ++ up).filter (· ≠ pg)

/-! ## What a block has open (R62) -/

/-- The requests a block has accepted and those it has issued that are still open: the shuttles of a link port, the descriptors that a store
or a compression engine serves, the kicks of a control core, and what the other blocks count as they go. -/
def Dev.openReqs (d : Dev) (pg : Nat) : Nat × Nat :=
  match pgClass pg, pgPage pg with
  | 6, 0 => ((d.port (dieOf (pgInst pg) * 8 + pgInst pg % 32)).held, 0)
  | 1, 3 | 3, 1 | 3, 3 | 5, 0 => (d.servedBy pg, 0)
  | 3, 0 => (0, (d.coreBlocks (pgInst pg)).length)
  | _, _ => ((d.info pg).reqIn, (d.info pg).reqOut)
def Dev.drained (d : Dev) (pg : Nat) : Bool := d.openReqs pg == (0, 0)

/-- R64, R70: a SEQ block whose program is cut: the program ends and its kicks are abandoned. -/
def Dev.seqForce (d : Dev) (u : Nat) : Dev :=
  let d := d.setUnit u { d.unit u with loops := [], bundle := [], ending := false, barWait := none, barDone := false }
  if [2, 3, 4].contains (d.seqState u) then (d.wr Reg.SEQ_STATE_SEQ u 0).wr Reg.SEQ_STATE_LOOPS u 0 else d

/-- R64, R70: every accepted request still open gets its terminal completion, `code`; requests of the block's own are abandoned
when `own` says so. -/
def Dev.force (d : Dev) (pg code : Nat) (own : Bool) : Dev :=
  let i := pgInst pg
  let p := dieOf i * 8 + i % 32
  let d := match pgClass pg, pgPage pg with
    | 1, 0 => d.seqForce i
    | 1, 1 => (d.recomputeForce i).matrixForce i
    | 1, 2 => d.vectorForce i
    | 1, 4 => d.istoreForce i
    | 2, 2 => d.engForce false i code
    | 3, 4 => d.engForce true i code
    | 1, 3 | 3, 1 | 3, 3 | 5, 0 => d.storeForce pg code
    | 3, 0 => if own then d.coreGiveUp (d.coreBlocks i) else d
    | 6, 0 => d.setPort p { d.port p with out := [], through := [], late := [], slack := [] }
    | _, _ => d
  let x := d.info pg
  if own then (d.setInfo pg { x with issued := [] }).setReqs pg 0 0 else d.setReqs pg 0 x.reqOut

/-! ## Block reset (R54, R69, R175) -/

/-- Whether a register key of a page survives every reset: a field in fuses or MRAM. -/
def keptKey (k : Nat) : Bool :=
  let pg := k / (4096 * 32)
  Reg.all.any fun f => f.keep && f.cls == pgClass pg && f.page == pgPage pg && (List.range f.n).any fun i => f.key pg i == k

/-- The offset of the word a key lies in. -/
def keyOff (k : Nat) : Nat := (k / 32) % 4096

/-- R69: PAGE_ID to PAGE_CAP, PAGE_EVT, PAGE_EVT_MASK, PAGE_CERR, PAGE_UERR and PAGE_TIMEOUT keep their values. -/
def keptOff (o : Nat) : Bool := decide (o < 0x010 ∨ 0x018 ≤ o ∧ o < 0x028 ∨ 0x040 ≤ o ∧ o < 0x044)

/-- R144: a unit whose MATRIX is reset no longer waits for its cluster's failing gang. -/
def Dev.dropFails (d : Dev) (u : Nat) : Dev :=
  let c := clusterOf u
  d.setCluster c { d.cluster c with mmQueue := (d.cluster c).mmQueue.filter (· != u) }

/-- What a block holds beside its registers, at its reset. -/
def Dev.clearBlock (d : Dev) (pg : Nat) : Dev :=
  let i := pgInst pg
  let p := dieOf i * 8 + i % 32
  let x := d.unit i
  match pgClass pg, pgPage pg with
  | 1, 0 => d.setUnit i { x with bundle := [], sregs := [], loops := [], srTensor := 0, srIndex := 0, ending := false, barWait := none, barDone := false,
                                 winBeat := 0, startAt := 0 }
  | 1, 1 => d.setUnit i { x with segs := [], accs := [], passQ0 := [], passQ1 := [], inFlight0 := none, inFlight1 := none, held := false,
                                 heldCycles := 0, mmWait := false, recomputing := false, lastMm := none, failLeader := 0, busyTo := 0 }
    |>.dropFails i
  | 1, 2 => d.vectorReset i
  | 1, 4 => d.setUnit i { x with fill := none }
  | 2, 0 => d.setCluster i { d.cluster i with bars := [] }
  | 2, 1 => d.setCluster i { d.cluster i with suspects := [], mmQueue := [] }
  | 2, 2 => d.putEng false i {}
  | 3, 4 => d.putEng true i {}
  | 6, 0 => { d with links := SMap.del d.links p }
  | 6, 2 => if i = 0 then { d with route := {} } else d
  | 7, 0 => ((d.portSessions (i / 1024 + 4 * (i % 2))).foldl (fun (d : Dev) s => d.failSession s.id) d).setHp (i / 1024 + 4 * (i % 2)) {}
    |>.ptpSelect
  | 8, 0 => { d with beat := { d.beat with pend := none } }
  | 8, 1 => { d with beat := { pend := d.beat.pend } }
  | 8, 2 => { d with step := { carries := d.step.carries, lastRecord := d.step.lastRecord } }
  | 9, 0 => d.dropDraft
  | _, _ => d

/-- R69: the block enters RESETTING with every register at its reset value, for 100 ns (assumption 44), and ends in OFF with 0x0108; a
pending arm is discarded (R54), a link port in service goes to DOWN (R389), and PANTRY begins at the host window again (R223). -/
def Dev.blockReset (d : Dev) (pg : Nat) : Dev :=
  let st := d.hd Hdr.STAT_STATUS pg
  let tag := d.hd Hdr.STAT_TAG pg
  let phy := if pgClass pg = 6 ∧ pgPage pg = 0 then d.rd Reg.LINK_PHY_STATE (pgInst pg) else 0
  let d := d.clearBlock pg
  let keep := fun (e : Nat × Word) => decide (e.1 / (4096 * 32) ≠ pg) || keptOff (keyOff e.1) || keptKey e.1
  let d := ({ d with regs := d.regs.filter keep, latch := SMap.cut d.latch (pageLo pg) (pageHi pg) }.reloadShadow pg).setInfo pg {}
  let d := if st = 1 ∨ st = 5 then ((d.hw Hdr.STAT_STATUS pg 4).hw Hdr.STAT_REASON pg 7).hw Hdr.STAT_TAG pg tag else d
  let d := if pgClass pg = 1 ∧ pgPage pg ≤ 2 then d.stoppedView (pgInst pg) else d
  let d := if phy ≠ 0 then d.wr Reg.LINK_PHY_STATE (pgInst pg) 1 else d
  let d := if pgClass pg = 5 ∧ pgPage pg = 1 then d.partView (dieOf (pgInst pg) * 2 + pgInst pg % 32) else d
  d.enterReset pg (d.now + 1) true

/-- R58: a member page that is reset discards its whole group. -/
def Dev.groupReset (d : Dev) (pg : Nat) (g : Option Nat) : Dev :=
  match g with
  | none => d
  | some g =>
    let ms := (List.range (d.g Reg.COMMIT_CG_SIZE_COUNT g)).map fun m => d.g Reg.COMMIT_CG_MEM_PAGE (32 * g + m)
    let d := (ms.filter (· ≠ pg)).foldl (fun (d : Dev) q =>
      if (d.info q).group = some g then
        (((d.hw Hdr.STAT_STATUS q 4).hw Hdr.STAT_REASON q 7).hw Hdr.STAT_WORD q 0).reloadShadow q |>.setInfo q { d.info q with group := none }
      else d) d
    ((d.p Reg.COMMIT_CG_STAT_STATUS 4 g).p Reg.COMMIT_CG_STAT_REASON 7 g).p Reg.COMMIT_CG_STAT_MEMBER 0 g

def Dev.resetPage (d : Dev) (pg : Nat) : Dev :=
  let g := (d.info pg).group
  (d.blockReset pg).groupReset pg g

/-! ## Quiesce (R63 to R68) -/

/-- R61: a block that holds work although nothing is outstanding: a host port whose link is up. -/
def Dev.working (d : Dev) (pg : Nat) : Bool := pgClass pg == 7 && pgPage pg == 0 && d.hostUp (dieOf (pgInst pg) + 4 * (pgInst pg % 2))

/-- R65, R68: a block leaves QUIESCED. -/
def Dev.leave (d : Dev) (pg : Nat) : Dev :=
  (d.hw Hdr.DROPS pg 0).setBs pg (if d.hd Hdr.CTL_EN pg ≠ 1 then Bs.off else if d.working pg then Bs.run else Bs.idle)

/-- R67, R68: something holds the block fenced: its own QREQ, or a top block that contains it and is asked to quiesce or still
drains with all it contains. -/
def Dev.fencedBy (d : Dev) (pg : Nat) : Bool :=
  d.hd Hdr.CTL_QREQ pg == 1 || (d.info pg).domAfter ||
    (containers pg).any fun q => d.hd Hdr.CTL_QREQ q == 1 || (d.info q).domAfter || (d.bs q == Bs.quiescing && ! (d.info q).resetAfter)

/-- R68: every block that the quiesce of `pg` reached and that nothing else fences is released with it. -/
def Dev.release (d : Dev) (pg : Nat) : Dev :=
  ((pg :: containedPages pg).filter fun q => d.bs q == Bs.quiesced && ! d.fencedBy q).foldl Dev.leave d

/-- R63 step 3, R64: the drain of a block has ended, by itself or forced; a reset or a release that waits for it follows. -/
def Dev.quiesced (d : Dev) (pg code sev detail : Nat) : Dev :=
  let d := (d.setBs pg Bs.quiesced).raise pg code 2 sev detail
  if (d.info pg).resetAfter then d.resetPage pg
  else if d.fencedBy pg then d
  else d.release pg

/-- R63 step 3, R67: a block whose requests and whose children's have drained. A contained block that is OFF, in FAULT, RETIRED or
RESETTING has nothing to drain and does not hold the parent up (DESIGN CHOICE, assumption 109). -/
def Dev.tryQuiesced (d : Dev) (pg : Nat) : Dev :=
  if d.bs pg = Bs.quiescing ∧ d.drained pg ∧ ((d.info pg).resetAfter || (containedPages pg).all fun q => d.bs q != Bs.quiescing) then
    d.quiesced pg 0x0106 Sev.info 0
  else d

/-- R64: the drain of one block is cut. -/
def Dev.cutOne (d : Dev) (pg : Nat) : Dev :=
  if d.bs pg ≠ Bs.quiescing then d
  else if d.drained pg then d.quiesced pg 0x0106 Sev.info 0
  else
    let n := d.openReqs pg
    (d.force pg Cc.timeout true).quiesced pg 0x0107 Sev.warn (sat 16 n.1 + 65536 * sat 16 n.2)

/-- R64, R67: a block's limit has passed: it cuts its children's drains and its own. -/
def Dev.cut (d : Dev) (pg : Nat) : Dev :=
  let kids := if (d.info pg).resetAfter then [] else containedPages pg
  let d := kids.reverse.foldl Dev.cutOne d
  (pg :: containers pg).foldl Dev.tryQuiesced (d.cutOne pg)

/-- R63: one block enters QUIESCING; a block that is fenced, resetting, in FAULT or retired does not. -/
def Dev.enter (d : Dev) (pg : Nat) : Dev :=
  if Bs.quiescing ≤ d.bs pg then d
  else
    (d.setBs pg Bs.quiescing).setInfo pg { d.info pg with quiesceAt := d.now, limit := d.hd Hdr.TIMEOUT_LIMIT pg, waitBoundary := false }

/-- R63, R64, R67: a block enters QUIESCING with all it contains; what has nothing open is QUIESCED at once, and with LIMIT = 0 the
drain is cut at entry. -/
def Dev.quiesceDown (d : Dev) (pg : Nat) : Dev :=
  let kids := if (d.info pg).resetAfter then [] else containedPages pg
  let d := kids.foldl Dev.enter (d.enter pg)
  let d := kids.reverse.foldl (fun (d : Dev) q => if (d.info q).limit = 0 then d.cutOne q else d.tryQuiesced q) d
  if (d.info pg).limit = 0 then d.cut pg else d.tryQuiesced pg
def Dev.quiesce (d : Dev) (pg : Nat) : Dev := if Bs.quiescing ≤ d.bs pg then d else d.quiesceDown pg

/-- R63 step 1: whether the running plan uses a block. -/
def Dev.planUses (d : Dev) (pg : Nat) : Bool :=
  let i := pgInst pg
  d.stepOpen &&
    (match d.plan.live with
     | none => false
     | some p =>
       match pgClass pg with
       | 1 => p.entries.any fun e => e.units.contains i
       | 2 => p.entries.any fun e => e.units.any fun u => clusterOf u == i
       | 3 => p.entries.any fun e => e.units.any fun u => regionOf u == i
       | 4 => p.entries.any fun e => e.units.any fun u => dieOf u * 1024 == i
       | 5 => p.parts.any fun x => hbmInst x.1 == i
       | 6 => d.routeLive
       | c => decide (8 ≤ c ∧ c ≤ 11))

/-- R63 step 1: a quiesce that software asks for, at once or at the next boundary. -/
def Dev.quiesceSoft (d : Dev) (pg : Nat) : Dev :=
  if d.planUses pg then d.setInfo pg { d.info pg with waitBoundary := true } else d.quiesce pg

/-- R69: RREQ: a block that is not yet QUIESCED quiesces first, without waiting for a boundary. On a RETIRED block, which only a cleared
fault map brings back (R21), it does nothing (DESIGN CHOICE, assumption 110). -/
def Dev.rreq (d : Dev) (pg : Nat) : Dev :=
  let b := d.bs pg
  if b = Bs.retired then d
  else if Bs.quiesced ≤ b then d.resetPage pg
  else if b = Bs.quiescing then (d.setInfo pg { d.info pg with resetAfter := true }).tryQuiesced pg
  else (d.setInfo pg { d.info pg with resetAfter := true, waitBoundary := false }).quiesce pg

/-! ## PAGE_CTL (R48, R63, R68, R69) -/

/-- R68: what follows PAGE_CTL.EN beside the block state: link and host ports leave or enter service. -/
def Dev.enHook (d : Dev) (pg : Nat) (en : Bool) : Dev :=
  let i := pgInst pg
  if pgPage pg ≠ 0 then d
  else if pgClass pg = 6 then d.linkEnable (dieOf i * 8 + i % 32) en
  else if pgClass pg = 7 then d.hostEnable (dieOf i + 4 * (i % 2)) en
  else d

/-- R68: EN takes a value. -/
def Dev.setEn (d : Dev) (pg : Nat) (en : Bool) : Dev :=
  let was := d.hd Hdr.CTL_EN pg
  let d := d.hw Hdr.CTL_EN pg (ofB en)
  if was = ofB en then d
  else
    let d := d.enHook pg en
    let b := d.bs pg
    if en then (if b = Bs.off then d.setBs pg Bs.idle else d)
    else if b = Bs.idle then d.setBs pg Bs.off
    else if b = Bs.run then d.quiesceSoft pg
    else d

/-- R63, R68: QREQ takes a value. -/
def Dev.setQreq (d : Dev) (pg : Nat) (q : Bool) : Dev :=
  let was := d.hd Hdr.CTL_QREQ pg
  let d := d.hw Hdr.CTL_QREQ pg (ofB q)
  if was = ofB q then d
  else if q then d.quiesceSoft pg
  else
    let d := d.setInfo pg { d.info pg with waitBoundary := false }
    if d.bs pg = Bs.quiescing ∨ d.fencedBy pg then d else d.release pg

/-- A write of PAGE_CTL. -/
def Dev.ctlWrite (d : Dev) (pg : Nat) (en q rreq view : Bool) : Nat × Dev :=
  if (q || rreq) && ! capQuiesce pg then (Cc.unsupported, d)
  else
    let d := d.hw Hdr.CTL_SHADOW_VIEW pg (ofB view)
    let d := (d.setQreq pg q).setEn pg en
    (Cc.done, if rreq then d.rreq pg else d)

/-! ## Errors and replies (R65, R66, R70) -/

/-- R19, R70: an uncorrectable error that the block cannot contain; a control core that fails takes its region with it, a die manager core
its die. -/
def Dev.blockError (d : Dev) (pg src : Nat) : Dev :=
  if ! pageOk pg ∨ d.bs pg = Bs.resetting ∨ d.bs pg = Bs.retired ∨ d.rst.held then d
  else
    let d := if d.bs pg = Bs.fault then d else d.force pg Cc.uerr false
    let d := (d.setBs pg Bs.fault).uncorrectable pg src
    if pgPage pg = 0 ∧ (pgClass pg = 3 ∨ pgClass pg = 4) then d.retire (pgClass pg, pgInst pg) else d

/-- R62, R66: when the requests that a block has open under a tag were issued, oldest first: a unit's kicks, the descriptor an engine runs,
the blocks CMOVE has passed on, and the kicks of a control core. -/
def Dev.issuedUnder (d : Dev) (pg tag : Nat) : List Nat :=
  let i := pgInst pg
  let run := fun (e : Engine) => match e.run with | some r => if e.desc.isSome ∧ r.block.tag = tag then [r.issuedAt] else [] | none => []
  match pgClass pg, pgPage pg with
  | 1, 0 => ((d.info pg).issued.filter (·.1 == tag)).map (·.2)
  | 2, 2 => run (d.eng false i) ++ ((d.passedBlocks i).filter (·.tag == tag)).map (·.sentAt)
  | 3, 4 => run (d.eng true i)
  | 3, 0 => ((d.coreBlocks i).filter (·.2.tag == tag)).map (·.2.heldAt)
  | _, _ => []
def Dev.awaits (d : Dev) (pg tag : Nat) : Bool := ! (d.issuedUnder pg tag).isEmpty

/-- R66: the oldest request a block has open under a tag has waited PAGE_TIMEOUT.LIMIT: the requester completes it itself with TIMEOUT. -/
def Dev.requestTimeout (d : Dev) (pg tag : Nat) : Dev :=
  let i := pgInst pg
  let limit := us (d.hd Hdr.TIMEOUT_LIMIT pg)
  match pgClass pg, pgPage pg with
  | 1, 0 =>
    match (d.info pg).issued.find? (·.1 == tag) with
    | some k => (d.passTo (k.2 + limit)).kickDone i tag Cc.timeout
    | none => d
  | 2, 2 =>
    match (d.passedBlocks i).find? (·.tag == tag) with
    | some b => (d.passTo (b.sentAt + limit)).giveUp i Cc.timeout (· == b)
    | none => d.descTimeout false i tag limit
  | 3, 4 => d.descTimeout true i tag limit
  | 3, 0 =>
    match (d.coreBlocks i).find? (·.2.tag == tag) with
    | some x => (d.passTo (x.2.heldAt + limit)).coreGiveUp [x]
    | none => d
  | _, _ => d

/-- R65, R66, R70: a reply to the request `tag` that reaches a block that is QUIESCED or in FAULT, or that awaits no such reply, is
discarded and counted. -/
def Dev.replyArrival (d : Dev) (pg tag : Nat) : Dev :=
  if ! pageOk pg then d
  else if d.bs pg = Bs.quiesced ∨ d.bs pg = Bs.fault ∨ ! d.awaits pg tag then d.dropReply pg
  else d

/-! ## The commands -/

def execPageCtlEn (r : Requester) (pg : BitVec 20) (en : Bool) (s : State) : Host.Outcome State Fault Refusal :=
  runDev s (fun d => d.action r pg.toNat 0x010 false (fun d => (Cc.done, d.setEn pg.toNat en)))

def execPageCtlQreqSet (r : Requester) (pg : BitVec 20) (s : State) : Host.Outcome State Fault Refusal :=
  runDev s (fun d => d.action r pg.toNat 0x010 false (fun d =>
    if capQuiesce pg.toNat then (Cc.done, d.setQreq pg.toNat true) else (Cc.unsupported, d)))

def execPageCtlQreqClear (r : Requester) (pg : BitVec 20) (s : State) : Host.Outcome State Fault Refusal :=
  runDev s (fun d => d.action r pg.toNat 0x010 false (fun d => (Cc.done, d.setQreq pg.toNat false)))

def execPageCtlRreq (r : Requester) (pg : BitVec 20) (s : State) : Host.Outcome State Fault Refusal :=
  runDev s (fun d => d.action r pg.toNat 0x010 false (fun d =>
    if capQuiesce pg.toNat then (Cc.done, d.rreq pg.toNat) else (Cc.unsupported, d)))

def execRequestTimeout (pg : BitVec 20) (tag : BitVec 4) (s : State) : Host.Outcome State Fault Refusal :=
  runDev s (fun d => if pageOk pg.toNat then d.requestTimeout pg.toNat tag.toNat else d)

def execReplyArrival (reply : ReplyTo) (s : State) : Host.Outcome State Fault Refusal :=
  runDev s (fun d => d.replyArrival reply.pg.toNat reply.tag.toNat)

end Sys2Proof.Machine
end

