-- ==== Sys2Proof/Machine/Pages.lean ====
section
/-! DEFINITION. Shadow sets, their checks, arms and commit groups (R48 to R58, R558), and the error and event words of the header
(R46, R72, R74). -/

namespace Sys2Proof.Machine

/-! R49: the status and reason codes. -/
def St.armed : Nat := 1
def St.committed : Nat := 2
def St.rejected : Nat := 3
def St.discarded : Nat := 4
def St.grouped : Nat := 5
def Rs.range : Nat := 1
def Rs.mismatch : Nat := 2
def Rs.dependency : Nat := 3
def Rs.noShadow : Nat := 4
def Rs.state : Nat := 5
def Rs.groupFail : Nat := 6
def Rs.reset : Nat := 7
def Rs.software : Nat := 8
def Rs.uerr : Nat := 9
def Rs.memberBusy : Nat := 11

/-- The SH fields of a page that exist at its instance (R409: the route fields stand on L0 only). -/
def shFields (pg : Nat) : List Field :=
  if pgClass pg = 6 ∧ pgPage pg = 2 ∧ pgInst pg ≠ 0 then []
  else Reg.all.filter fun f => f.acc == .sh && f.cls == pgClass pg && f.page == pgPage pg

/-! ## The consistency checks (R51, R558)

Each check gives the offsets of the shadow words that fail, stage by stage. -/

/-- What the three stages of a page's check find. -/
structure Findings where
  range : List Nat := []
  mismatch : List Nat := []
  dep : List Nat := []

/-- The offset where a rule fails. -/
def failIf (c : Bool) (off : Nat) : List Nat := if c then [off] else []

/-- R122: the gang of a GANG slot as the shadow set has it. -/
def Dev.shadowGang (d : Dev) (c n : Nat) : Option Gang :=
  if d.sh Reg.GANG_SHAPE_EN c n = 0 then none
  else some ⟨d.sh Reg.GANG_ORIGIN_ROW c n, d.sh Reg.GANG_ORIGIN_COL c n,
             2 ^ d.sh Reg.GANG_SHAPE_ROWS c n, 2 ^ d.sh Reg.GANG_SHAPE_COLS c n⟩

/-- R123, R144: an array of a unit holds a set that is not FREE, or takes part in a recompute. -/
def Dev.arrayHeld (d : Dev) (ua : Nat × Nat) : Bool :=
  ((List.range 2).any fun s => d.setState ua.1 ua.2 s != 0) ||
    (match d.gangOf ua.1 ua.2 with | some g => d.recomputeIn (clusterOf ua.1) g | none => false)

/-- R123: the GANG page. -/
def Dev.gangCheck (d : Dev) (c : Nat) : Findings :=
  let gs := (List.range 8).filterMap fun n => (d.shadowGang c n).map (n, ·)
  let range := gs.flatMap fun (n, g) =>
    if 2 < d.sh Reg.GANG_SHAPE_ROWS c n ∨ 3 < d.sh Reg.GANG_SHAPE_COLS c n then [0x080 + 8 * n]
    else failIf (decide (g.row % g.gr ≠ 0 ∨ g.col % g.gc ≠ 0 ∨ 4 < g.row + g.gr ∨ 8 < g.col + g.gc)) (0x084 + 8 * n)
  let hit := fun (a b : Gang) => decide (a.row < b.row + b.gr ∧ b.row < a.row + a.gr ∧ a.col < b.col + b.gc ∧ b.col < a.col + a.gc)
  let mismatch := gs.flatMap fun (n, g) => failIf (gs.any fun (k, h) => decide (n < k) && hit g h) (0x080 + 8 * n)
  let positions := (List.range 32).map fun k => (k / 8, k % 8)
  let newAt := fun (p : Nat × Nat) => (gs.find? fun (_, g) => g.covers p.1 p.2).map (·.2)
  let oldAt := fun (p : Nat × Nat) => ((List.range 8).filterMap (d.gangSlot c)).find? fun g => g.covers p.1 p.2
  let bad := positions.filter fun p =>
    (bit (d.rd Reg.GANG_EMPTY c) (8 * p.1 + p.2) && (newAt p).isSome) || (newAt p != oldAt p && d.arrayHeld (d.atPos c p.1 p.2))
  let dep := (List.range 8).flatMap fun n =>
    let covers := fun (g : Option Gang) => match g with | some g => bad.any fun p => g.covers p.1 p.2 | none => false
    failIf (covers (d.shadowGang c n) || covers (d.gangSlot c n)) (0x080 + 8 * n)
  { range := range, mismatch := mismatch, dep := dep }

/-- R207: the SEQ page. -/
def Dev.seqCheck (d : Dev) (u : Nat) : Findings :=
  let lo := d.sh Reg.SEQ_IMG_LO u
  let hi := d.sh Reg.SEQ_IMG_HI u
  let out := fun x => decide (x < lo ∨ hi < x)
  { range := failIf (out (d.sh Reg.SEQ_PROG_ENTRY u) || out (d.sh Reg.SEQ_PROG_SEG_BASE u)) 0x080 ++ failIf (decide (hi < lo)) 0x084 ++
      failIf (d.sh Reg.SEQ_BAR_LIMIT u == 0) 0x088
    dep := failIf (! [0, 5].contains (d.seqState u)) 0x080 ++ failIf ((d.unit u).unfit.any fun s => decide (lo ≤ s ∧ s ≤ hi)) 0x084 }

/-- R223: the HBM_PART page. -/
def Dev.partCheck (d : Dev) (i : Nat) : Findings :=
  let b := fun p => d.sh Reg.HBM_PART_BASE i p
  let n := fun p => d.sh Reg.HBM_PART_SIZE i p
  let ps := List.range 5
  let changed := fun p => b p != d.rd Reg.HBM_PART_BASE i p || n p != d.rd Reg.HBM_PART_SIZE i p
  { range := ps.flatMap fun p => failIf (decide (3048 < b p + n p)) (0x080 + 8 * p)
    mismatch := ps.flatMap fun p =>
      failIf (ps.any fun q => decide (p < q ∧ 0 < n p ∧ 0 < n q ∧ b p < b q + n q ∧ b q < b p + n p)) (0x080 + 8 * p)
    dep := ps.flatMap fun p => failIf (changed p && d.partInFlight (dieOf i * 2 + i % 2) p) (0x080 + 8 * p) }

/-- R250, R264: the BEAT_CFG page. -/
def Dev.beatCheck (d : Dev) : Findings :=
  let per := d.sh Reg.BEAT_CFG_PERIOD 0
  let p := 100 * per
  let tx := d.sh Reg.BEAT_CFG_T_X 0
  let ts := d.sh Reg.BEAT_CFG_T_S 0
  let slack := (p * d.g Reg.SIZE_TABLE_ST_BEAT_SLACK_MIN_PCT + 99) / 100
  let at' := d.sh Reg.BEAT_CFG_APPLY_BEAT_LO 0 + 2 ^ 32 * d.sh Reg.BEAT_CFG_APPLY_BEAT_HI 0
  { range := failIf (decide (per < d.g Reg.SIZE_TABLE_ST_BEAT_MIN ∨ d.g Reg.SIZE_TABLE_ST_BEAT_MAX < per)) 0x080 ++
      failIf (d.sh Reg.BEAT_CFG_LATE_LIMIT 0 == 0 || d.sh Reg.BEAT_CFG_VOTE_LIMIT 0 == 0) 0x094 ++
      failIf (decide (90 < d.sh Reg.BEAT_CFG_LATE_SHARE 0 ∨ 20 < d.sh Reg.BEAT_CFG_FIT_MARGIN 0)) 0x098
    mismatch := failIf (decide (p < ts + slack)) 0x080 ++ failIf (decide (ts < tx)) 0x084
    dep := failIf (decide (2500 < d.g Reg.BEAT_LOCK_HOLD_LIMIT * per)) 0x080 ++
      failIf (decide (at' ≠ 0 ∧ at' ≤ d.beatNum + 2 ∨ at' = 0 ∧ d.lockState ≠ 0)) 0x08C }

/-- R499: a restore source that the package's own partner data forbids. -/
def Dev.sourceForbidden (d : Dev) (m : Mem) : Bool :=
  if d.sh Reg.RESTORE_SOURCE 0 = 1 then false
  else
    let n := d.sh Reg.RESTORE_LIST_COUNT 0
    let list := d.srcBytes m 2 (d.sh Reg.RESTORE_LIST_ADDR 0) (4 * n)
    let failed := ((List.range n).map fun i => fld list (4 * i) 3 % 2 ^ 18).filterMap d.memberOf
    failed.any fun i =>
      match partnerOf d.plan.draft i with
      | none => true
      | some q => failed.contains q ||
          (d.self == some q && ! (d.g Reg.PARTNER_ATTIC_STATE == 2 &&
            d.g64 Reg.PARTNER_ATTIC_STEP_LO Reg.PARTNER_ATTIC_STEP_HI + 1 == d.stepNo))

/-- R449: the HOST_XPORT page: addresses that no node may use. -/
def badIpv6 (a : Nat) : Bool := decide (a / 2 ^ 120 = 0xFF ∨ a / 2 ^ 118 = 0x3FA ∨ a = 1)
def badIpv4 (a : Nat) : Bool := decide (224 ≤ a / 2 ^ 24 ∧ a / 2 ^ 24 < 240 ∨ a = 0xFFFFFFFF ∨ a / 2 ^ 24 = 127)
def Dev.xportCheck (d : Dev) (i : Nat) : Findings :=
  let ip6 := bytesBE 16 ((List.range 4).foldl (fun a k => a + 2 ^ (32 * k) * d.sh Reg.HOST_XPORT_IPV6 i k) 0)
  let port := dieOf i + 4 * (i % 2)
  let rto := d.sh Reg.HOST_XPORT_RTO_MIN_US i
  let try' := d.sh Reg.HOST_XPORT_RETRY_LIMIT i
  let dead := d.sh Reg.HOST_XPORT_DEAD_MS i
  let used := ! (d.portSessions port).isEmpty
  let moved := fun (f : Field) (k : Nat) => used && d.sh f i k != d.rd f i k
  { range := failIf (d.sh Reg.HOST_XPORT_UDP_PORT i == 0) 0x094 ++
      failIf (decide (rto < 50 ∨ 10000 < rto ∨ try' = 0)) 0x098 ++ failIf (decide (dead < 100 ∨ 60000 < dead)) 0x09C
    mismatch := failIf (badIpv6 ip6) 0x080 ++ failIf (badIpv4 (bytesBE 4 (d.sh Reg.HOST_XPORT_IPV4 i))) 0x090
    dep := ((List.range 4).flatMap fun k => failIf (moved Reg.HOST_XPORT_IPV6 k) (0x080 + 4 * k)) ++
      failIf (moved Reg.HOST_XPORT_IPV4 0) 0x090 ++ failIf (moved Reg.HOST_XPORT_UDP_PORT 0) 0x094 }

/-- R401: the LINK_ROUTE page of L0. -/
def Dev.routePageCheck (d : Dev) : Findings :=
  let at' := d.sh Reg.LINK_ROUTE_APPLY_BEAT_LO 0 + 2 ^ 32 * d.sh Reg.LINK_ROUTE_APPLY_BEAT_HI 0
  { range := failIf (d.sh Reg.LINK_ROUTE_SLACK_TTL 0 == 0) 0x0A4
    dep := failIf (d.g Reg.LINK_ROUTE_STATUS_STATE != 2 || decide (at' ≤ d.beatNum + 2) || d.stepOpen) 0x098 }

/-- R292: the DRAFT page. -/
def Dev.draftPageCheck (d : Dev) : Findings :=
  let st := d.g Reg.DRAFT_STATUS_STATE
  let at' := d.sh Reg.DRAFT_START_BEAT_LO 0 + 2 ^ 32 * d.sh Reg.DRAFT_START_BEAT_HI 0
  if d.sh Reg.DRAFT_RUN 0 = 0 then {}
  else
    { dep := failIf (decide (st = 3 ∧ at' ≤ d.beatNum + 2)) 0x0A0 ++
        failIf (! [3, 4].contains st || (! Dr.single d.plan.draft && d.lockState != 2)) 0x0A8 }

/-- A page's check over its shadow set. -/
def Dev.findings (d : Dev) (m : Mem) (pg : Nat) : Findings :=
  let i := pgInst pg
  let zero := fun (f : Field) => failIf (d.sh f i == 0) f.off
  match pgClass pg, pgPage pg with
  | 1, 0 => d.seqCheck i
  | 1, 1 => { range := zero Reg.MATRIX_RETIRE_WINDOW }
  | 1, 2 => { range := zero Reg.VECTOR_POP_LIMIT }
  | 2, 1 => d.gangCheck i
  | 3, 2 =>
    { range := failIf (decide (d.sh Reg.RCLOCK_THRESH_MV i < 20 ∨ 80 < d.sh Reg.RCLOCK_THRESH_MV i ∨ d.sh Reg.RCLOCK_LIMIT i = 0 ∨
        d.sh Reg.RCLOCK_RECOVER i = 0)) 0x084 }
  | 5, 1 => d.partCheck i
  | 6, 2 => if i = 0 then d.routePageCheck else {}
  | 7, 1 => { range := failIf (i % 2 == 1 && d.sh Reg.HOST_SEC_REQUIRE i == 0) 0x080 }
  | 7, 2 => d.xportCheck i
  | 7, 3 => { range := failIf (decide (239 < d.sh Reg.HOST_PTP_DOMAIN i ∨ d.sh Reg.HOST_PTP_TRANSPORT i = 3)) 0x080 }
  | 8, 0 => d.beatCheck
  | 8, 1 =>
    { range := failIf (d.sh Reg.BEAT_LOCK_MARKER_TIMEOUT i == 0) 0x090 ++
        failIf (d.sh Reg.BEAT_LOCK_SOURCE_TIMEOUT i == 0 || d.sh Reg.BEAT_LOCK_LOCK_COUNT i == 0) 0x094
      dep := failIf (decide (2500 < d.sh Reg.BEAT_LOCK_HOLD_LIMIT i * d.g Reg.BEAT_CFG_PERIOD)) 0x090 }
  | 8, 2 =>
    { range := zero Reg.STEP_REC_FORCE_WAIT ++ failIf (decide (16384 < d.sh Reg.STEP_REC_FORCE_COUNT i)) 0x0A8
      dep := failIf d.stepOpen 0x09C }
  | 9, 0 => d.draftPageCheck
  | 10, 0 =>
    { range := failIf (d.sh Reg.SCALE_POL_NR_LIMIT i == 0 || d.sh Reg.SCALE_POL_DIRTY_LIMIT i == 0) 0x08C
      dep := failIf d.stepOpen 0x08C }
  | 11, 0 =>
    let n := d.sh Reg.EXCH_CFG_CARRY_MIB i
    { range := failIf (decide (n = 0 ∨ 32 < n)) 0x080
      dep := failIf (d.stepOpen || decide (1024 * n < d.g Reg.EXCH_CFG_CARRY_USED_KIB)) 0x080 }
  | 12, 1 => { range := failIf (decide (400 < d.sh Reg.TRADE_KEEP_W i)) 0x084 }
  | 13, 0 =>
    { range := failIf (d.sh Reg.PARTNER_DRAIN_HOLD i == 0 || d.sh Reg.PARTNER_RETRY_BEATS i == 0) 0x08C
      mismatch := failIf (decide (d.g Reg.BEAT_CFG_VOTE_LIMIT ≤ d.sh Reg.PARTNER_DRAIN_HOLD i)) 0x08C }
  | 13, 2 =>
    let at' := d.sh Reg.RESTORE_RESUME_BEAT_LO i + 2 ^ 32 * d.sh Reg.RESTORE_RESUME_BEAT_HI i
    { dep := failIf d.stepOpen 0x080 ++ failIf (d.sourceForbidden m) 0x084 ++ failIf (decide (at' ≤ d.beatNum + 2)) 0x090 }
  | 14, 2 => { range := failIf (decide (d.sh Reg.ATTEST_RATE i = 0 ∨ 60 < d.sh Reg.ATTEST_RATE i)) 0x0A8 }
  | _, _ => {}

/-- The lowest offset of a list, as a word. -/
def lowestWord (os : List Nat) : Nat := (os.foldl min 4096) / 4

/-- R558: the reason of the first stage that fails, and the word. -/
def Findings.first (x : Findings) : Option (Nat × Nat) :=
  if x.range ≠ [] then some (Rs.range, lowestWord x.range)
  else if x.mismatch ≠ [] then some (Rs.mismatch, lowestWord x.mismatch)
  else if x.dep ≠ [] then some (Rs.dependency, lowestWord x.dep)
  else none

/-- R51, R54: the check at an arm: the block's state, an error of the shadow store, then the page's own check. -/
def Dev.armCheck (d : Dev) (m : Mem) (pg : Nat) (err : Option Nat) : Option (Nat × Nat) :=
  if Bs.resetting ≤ d.bs pg then some (Rs.state, 0)
  else match err with
    | some w => some (Rs.uerr, w)
    | none => (d.findings m pg).first

/-- R51 step 6: the check at the commit boundary. -/
def Dev.commitCheck (d : Dev) (m : Mem) (pg : Nat) : Option (Nat × Nat) :=
  if Bs.resetting ≤ d.bs pg then some (Rs.state, 0)
  else
    let x := (d.findings m pg).dep
    if x = [] then none else some (Rs.dependency, lowestWord x)

/-! ## Outcomes (R49, R52, R558) -/

/-- The four fields of PAGE_ARM_STAT written together. -/
def Dev.armStat (d : Dev) (pg status reason tag word : Nat) : Dev :=
  (((d.hw Hdr.STAT_STATUS pg status).hw Hdr.STAT_REASON pg reason).hw Hdr.STAT_TAG pg tag).hw Hdr.STAT_WORD pg word

/-- R51 step 3: a rejection. -/
def Dev.armReject (d : Dev) (pg reason tag word : Nat) : Dev :=
  (d.armStat pg St.rejected reason tag word).raise pg 0x0102 0 Sev.warn (St.rejected + 256 * reason + 65536 * tag + 2 ^ 22 * word)

/-- R50, R51 step 7: every SH field takes its shadow value; R248: PERIOD, T_X and T_S wait for APPLY_BEAT and stay shown in the
shadow set. -/
def Dev.applyShadow (d : Dev) (pg : Nat) : Dev :=
  let waits := pg = pgBeatCfg ∧ d.sh Reg.BEAT_CFG_APPLY_BEAT_LO 0 + d.sh Reg.BEAT_CFG_APPLY_BEAT_HI 0 ≠ 0
  let held := [Reg.BEAT_CFG_PERIOD, Reg.BEAT_CFG_T_X, Reg.BEAT_CFG_T_S]
  let vals := held.map fun f => d.sh f 0
  let fs := (shFields pg).filter fun f => ! (waits && held.contains f)
  let d1 := fs.foldl (fun (d : Dev) f => (List.range f.n).foldl (fun (d : Dev) i => d.set f pg i (d.shadowGet f pg i)) d) d
  let d1 := d1.reloadShadow pg
  if waits then
    let d1 := (held.zip vals).foldl (fun (d : Dev) (f, v) => d.shadowSet f pg 0 v) d1
    { d1 with beat := { d1.beat with pend := some (d1.g64 Reg.BEAT_CFG_APPLY_BEAT_LO Reg.BEAT_CFG_APPLY_BEAT_HI, vals.getD 0 0, vals.getD 1 0, vals.getD 2 0) } }.p
      Reg.BEAT_CFG_STATUS_PENDING 1
  else if pg = pgBeatCfg then { d1 with beat := { d1.beat with pend := none } }.p Reg.BEAT_CFG_STATUS_PENDING 0
  else d1

/-- What a commit of a page starts beside the new values (R122, R292, R401, R414). -/
def Dev.commitHook (d : Dev) (old : Dev) (pg : Nat) : Dev :=
  let i := pgInst pg
  match pgClass pg, pgPage pg with
  | 2, 1 => d.gangView i
  | 8, 0 =>
    if d.g Reg.BEAT_CFG_STATUS_PENDING = 1 then d
    else (d.p Reg.BEAT_CFG_STATUS_WINDOW (d.windowAt (d.g Reg.BEAT_CFG_PHASE))).raise pgBeatCfg 0x0607 8 Sev.info (d.g Reg.BEAT_CFG_PERIOD)
  | 6, 2 => if i = 0 then { d with route := { d.route with pend := true } } else d
  | 7, 2 =>
    let p := dieOf i + 4 * (i % 2)
    if d.ipv6 p = old.ipv6 p then d
    else
      let d := (d.setHp p { d.hp p with dad := (d.hp p).dad.filter (· ≠ 1) }).setAddrState p (clrBit (clrBit (d.addrState p) 1) 2)
      if d.ipv6 p ≠ 0 ∧ d.rd Reg.HOST_MAC_STATE i = 3 then d.dadStart p 1 else d
  | 7, 3 =>
    let p := dieOf i + 4 * (i % 2)
    if d.rd Reg.HOST_PTP_DOMAIN i = old.rd Reg.HOST_PTP_DOMAIN i then d else (d.setHp p { d.hp p with master := none, utc := [] }).ptpSelect
  | 9, 0 =>
    if d.g Reg.DRAFT_RUN = 1 ∧ d.g Reg.DRAFT_STATUS_STATE = 3 then
      let d := (d.p Reg.DRAFT_STATUS_STATE 4).p64 Reg.STEP_REC_STEP_LO Reg.STEP_REC_STEP_HI 0
      { d.p Reg.STEP_REC_ATTEMPT 0 with step := { d.step with next := some (d.g64 Reg.DRAFT_START_BEAT_LO Reg.DRAFT_START_BEAT_HI) } }
    else if d.g Reg.DRAFT_RUN = 0 ∧ d.g Reg.DRAFT_STATUS_STATE = 4 ∧ ! d.stepOpen then
      { d.p Reg.DRAFT_STATUS_STATE 3 with step := { d.step with next := none } }
    else d
  | _, _ => d

/-- A page's shadow set applied with all that follows. -/
def Dev.commitPage (d : Dev) (pg tag : Nat) : Dev :=
  (((d.applyShadow pg).commitHook d pg).armStat pg St.committed 0 tag 0).setInfo pg { d.info pg with group := none }

/-! ## PAGE_ARM (R48, R51, R53) -/

/-- R48: PAGE_ARM on a page without SH fields. -/
def Dev.noShadow (d : Dev) (pg tag : Nat) : Dev := d.armReject pg Rs.noShadow tag 0

/-- R51: ARM. `err` is the shadow word whose store gave an uncorrectable error, if any. -/
def Dev.arm (m : Mem) (pg tag : Nat) (err : Option Nat) (d : Dev) : Nat × Dev :=
  let st := d.hd Hdr.STAT_STATUS pg
  if ! capShadow pg then (Cc.done, d.noShadow pg tag)
  else if st = St.armed ∨ st = St.grouped then (Cc.armed, d)
  else match d.armCheck m pg err with
    | some (reason, word) => (Cc.done, d.armReject pg reason tag word)
    | none => (Cc.done, (d.armStat pg St.armed 0 tag 0).setInfo pg { d.info pg with armedAt := d.now })

/-- R51, R53: the boundary that an arm accepted at `t` waits for lies further ahead than `margin`. -/
def Dev.inTime (d : Dev) (t margin : Nat) : Bool := ! d.timerOn || decide (d.now + margin < d.boundaryAfter t margin)

/-- R53: DISCARD. -/
def Dev.discard (pg tag : Nat) (d : Dev) : Nat × Dev :=
  let st := d.hd Hdr.STAT_STATUS pg
  if ! capShadow pg then (Cc.done, d.noShadow pg tag)
  else if st = St.grouped ∨ (st = St.armed ∧ ! d.inTime (d.info pg).armedAt (us 2)) then (Cc.armed, d)
  else (Cc.done, (d.reloadShadow pg).armStat pg St.discarded Rs.software (d.hd Hdr.STAT_TAG pg) 0)

/-- R48: a write of PAGE_ARM. -/
def Dev.armWrite (m : Mem) (pg : Nat) (a dis : Bool) (tag : Nat) (err : Option Nat) (d : Dev) : Nat × Dev :=
  if a && dis then (Cc.unsupported, d)
  else if a then d.arm m pg tag err
  else if dis then d.discard pg tag
  else (Cc.done, d)

/-- R51, R57: the first boundary at least `margin` after `t` has come. -/
def Dev.boundaryDue (d : Dev) (t margin : Nat) : Bool := d.beatSeen && decide (t + margin ≤ d.boundary)

/-- SHADOW_COMMIT: the commit boundary of an ARMED page. -/
def Dev.shadowCommit (m : Mem) (pg : Nat) (d : Dev) : Dev :=
  if d.hd Hdr.STAT_STATUS pg ≠ St.armed ∨ ! d.boundaryDue (d.info pg).armedAt (us 2) then d
  else
    let tag := d.hd Hdr.STAT_TAG pg
    match d.commitCheck m pg with
    | some (reason, word) => d.armReject pg reason tag word
    | none => (d.commitPage pg tag).raise pg 0x0101 0 Sev.info (65536 * tag)

/-! ## Commit groups (R55 to R58) -/

def pgCommit : Nat := pageNum 0 0 3
def pgEventQ : Nat := pageNum 0 0 4

/-- The members of a group, with their index. -/
def Dev.members (d : Dev) (g : Nat) : List (Nat × Nat) :=
  (List.range (min 32 (d.g Reg.COMMIT_CG_SIZE_COUNT g))).map fun m => (m, d.g Reg.COMMIT_CG_MEM_PAGE (32 * g + m))

def Dev.groupArmed (d : Dev) (g : Nat) : Bool := d.g Reg.COMMIT_CG_STAT_STATUS g == St.armed

/-- The four fields of CG_STAT_g. -/
def Dev.groupStat (d : Dev) (g status reason tag member : Nat) : Dev :=
  (((d.p Reg.COMMIT_CG_STAT_STATUS status g).p Reg.COMMIT_CG_STAT_REASON reason g).p Reg.COMMIT_CG_STAT_TAG tag g).p Reg.COMMIT_CG_STAT_MEMBER
    member g

/-- R57: a group is rejected. -/
def Dev.groupReject (d : Dev) (g reason tag member : Nat) : Dev :=
  (d.groupStat g St.rejected reason tag member).raise pgCommit 0x0104 9 Sev.warn (g + 256 * reason + 65536 * tag + 2 ^ 22 * member)

/-- R57 step 1: the first member that breaks the membership rules. -/
def Dev.memberFault (d : Dev) (ms : List (Nat × Nat)) : Option (Nat × Nat) :=
  let bad := ms.find? fun (m, pg) => ! pageOk pg || ! capShadow pg || ms.any fun (k, q) => decide (k < m ∧ q = pg)
  match bad with
  | some (m, _) => some (Rs.range, m)
  | none =>
    (ms.find? fun (_, pg) => d.hd Hdr.STAT_STATUS pg == St.armed || d.hd Hdr.STAT_STATUS pg == St.grouped).map fun (m, _) => (Rs.memberBusy, m)

/-- R57 step 3: a failing member and what it does to the others. The group raises its own event and the members none (assumption 123). -/
def Dev.groupFail (d : Dev) (g tag : Nat) (ms : List (Nat × Nat)) (m reason word : Nat) : Dev :=
  let d := ms.foldl (fun (d : Dev) (k, pg) =>
    let d := d.setInfo pg { d.info pg with group := none }
    if k = m then d.armStat pg St.rejected reason (d.hd Hdr.STAT_TAG pg) word else d.armStat pg St.rejected Rs.groupFail (d.hd Hdr.STAT_TAG pg) 0) d
  d.groupReject g reason tag m

/-- R57 steps 1 to 3: CG_CTL.ARM. `err` names a member and the word of its shadow set whose store gave an uncorrectable error, if any. -/
def Dev.groupArm (m : Mem) (g tag : Nat) (err : Option (Nat × Nat)) (d : Dev) : Nat × Dev :=
  if d.groupArmed g then (Cc.armed, d)
  else
    let ms := d.members g
    match d.memberFault ms with
    | some (reason, k) => (Cc.done, d.groupReject g reason tag k)
    | none =>
      let checks := ms.map fun (k, pg) => (k, d.armCheck m pg ((err.filter (·.1 == k)).map (·.2)))
      let d := ms.foldl (fun (d : Dev) (_, pg) => (d.armStat pg St.grouped 0 tag 0).setInfo pg { d.info pg with group := some g, armedAt := d.now }) d
      match checks.find? (·.2.isSome) with
      | some (k, some (reason, word)) => (Cc.done, d.groupFail g tag ms k reason word)
      | _ => (Cc.done, d.groupStat g St.armed 0 tag 0 |> fun d => { d with groupAt := SMap.put d.groupAt g d.now })

/-- When group `g` was armed. -/
def Dev.groupTime (d : Dev) (g : Nat) : Nat := SMap.at d.groupAt g 0

/-- R58: every member of an armed group is discarded. -/
def Dev.groupDrop (d : Dev) (g reason : Nat) : Dev :=
  let d := (d.members g).foldl (fun (d : Dev) (_, pg) =>
    if (d.info pg).group = some g then
      ((d.reloadShadow pg).armStat pg St.discarded reason (d.hd Hdr.STAT_TAG pg) 0).setInfo pg { d.info pg with group := none }
    else d) d
  d.groupStat g St.discarded reason (d.g Reg.COMMIT_CG_STAT_TAG g) 0

/-- R58: CG_CTL.DISCARD, up to 20 µs before the group's commit boundary; a group that is not armed has nothing to discard. -/
def Dev.groupDiscard (g : Nat) (d : Dev) : Nat × Dev :=
  if ! d.groupArmed g then (Cc.done, d)
  else if d.timerOn && decide (d.boundaryAfter (d.groupTime g) (us 20) < d.now + us 20) then (Cc.armed, d)
  else (Cc.done, d.groupDrop g Rs.software)

/-- R56: a write of CG_CTL. -/
def Dev.groupWrite (m : Mem) (g : Nat) (a dis : Bool) (tag : Nat) (d : Dev) : Nat × Dev :=
  if a && dis then (Cc.unsupported, d)
  else if a then d.groupArm m g tag none
  else if dis then d.groupDiscard g
  else (Cc.done, d)

/-- GROUP_COMMIT: the commit boundary of an armed group (R57 step 4). -/
def Dev.groupCommit (m : Mem) (g : Nat) (d : Dev) : Dev :=
  if ! d.groupArmed g ∨ ! d.boundaryDue (d.groupTime g) (us 20) then d
  else
    let ms := d.members g
    let tag := d.g Reg.COMMIT_CG_STAT_TAG g
    let checks := ms.map fun (k, pg) => (k, d.commitCheck m pg)
    match checks.find? (·.2.isSome) with
    | some (k, some (reason, word)) => d.groupFail g tag ms k reason word
    | _ =>
      let d := ms.foldl (fun (d : Dev) (_, pg) => d.commitPage pg (d.hd Hdr.STAT_TAG pg)) d
      (d.groupStat g St.committed 0 tag 0).raise pgCommit 0x0103 8 Sev.info (g + 65536 * tag)

/-! ## Events and error counts (R46, R72, R74) -/

/-- R72: W1C writes of PAGE_EVT. -/
def Dev.evtClear (pg w : Nat) (d : Dev) : Dev :=
  let drop := fun (d : Dev) (f : Field) (lo : Nat) => d.hw f pg (d.hd f pg &&& (2 ^ f.width - 1 - bits w lo f.width))
  drop (drop (drop d Hdr.EVT_COMMON 0) Hdr.EVT_BLOCK 8) Hdr.EVT_OVERFLOW 31

def Dev.cerrClr (pg : Nat) (d : Dev) : Dev := (d.hw Hdr.CERR_COUNT pg 0).hw Hdr.CERR_SRC pg 0
def Dev.uerrClr (pg : Nat) (d : Dev) : Dev := (d.hw Hdr.UERR_COUNT pg 0).hw Hdr.UERR_SRC pg 0

/-- R74: a queue that lost records and has space again: EVENT_Q emits one record that says how many. While an earlier one is pending
(R72) the count stays. -/
def Dev.evtLost (q : Nat) (d : Dev) : Dev :=
  let e := SMap.at d.queues q {}
  if e.lost = 0 ∨ queueCap q ≤ e.recs.length ∨ bit (d.hd Hdr.EVT_BLOCK pgEventQ) 0 then d
  else { d with queues := SMap.put d.queues q { e with lost := 0 } }.raise pgEventQ 0x010B 8 Sev.warn e.lost

/-! ## The commands -/

def execPageArmArm (r : Requester) (pg : BitVec 20) (tag : BitVec 6) (err : Option (BitVec 10)) (s : State) :
    Host.Outcome State Fault Refusal :=
  runDev s (fun d => d.action r pg.toNat 0x030 false (Dev.arm s.mem pg.toNat tag.toNat (err.map BitVec.toNat)))

def execPageArmDiscard (r : Requester) (pg : BitVec 20) (tag : BitVec 6) (s : State) : Host.Outcome State Fault Refusal :=
  runDev s (fun d => d.action r pg.toNat 0x030 false (Dev.discard pg.toNat tag.toNat))

def execShadowCommit (pg : BitVec 20) (s : State) : Host.Outcome State Fault Refusal :=
  runDev s (Dev.shadowCommit s.mem pg.toNat)

def execCgCtlArm (r : Requester) (g : BitVec 3) (a : GroupArm) (s : State) :
    Host.Outcome State Fault Refusal :=
  runDev s (fun d => d.action r pgCommit 0x080 false (Dev.groupArm s.mem g.toNat a.tag.toNat (a.err.map fun x => (x.1.toNat, x.2.toNat))))

def execCgCtlDiscard (r : Requester) (g : BitVec 3) (s : State) : Host.Outcome State Fault Refusal :=
  runDev s (fun d => d.action r pgCommit 0x080 false (Dev.groupDiscard g.toNat))

def execGroupCommit (g : BitVec 3) (s : State) : Host.Outcome State Fault Refusal :=
  runDev s (Dev.groupCommit s.mem g.toNat)

def execPageEvtClear (r : Requester) (pg : BitVec 20) (w : BitVec 32) (s : State) : Host.Outcome State Fault Refusal :=
  runDev s (fun d => d.action r pg.toNat 0x018 false (fun d => (Cc.done, d.evtClear pg.toNat w.toNat)))

def execPageCerrClr (r : Requester) (pg : BitVec 20) (s : State) : Host.Outcome State Fault Refusal :=
  runDev s (fun d => d.action r pg.toNat 0x020 false (fun d => (Cc.done, d.cerrClr pg.toNat)))

def execPageUerrClr (r : Requester) (pg : BitVec 20) (s : State) : Host.Outcome State Fault Refusal :=
  runDev s (fun d => d.action r pg.toNat 0x024 false (fun d => (Cc.done, d.uerrClr pg.toNat)))

def execEvtLost (q : BitVec 6) (s : State) : Host.Outcome State Fault Refusal := runDev s (Dev.evtLost q.toNat)

end Sys2Proof.Machine
end

