-- ==== Sys2Proof/Machine/Xmss.lean ====
section
/-! DEFINITION. Verification under XMSS-SHAKE256_20_256 (R508, R512), which the spec names and does not restate: RFC 8391 and SP 800-208
(assumption 11). -/

namespace Sys2Proof.Machine

/-- The keyed hashes: 0 F, 1 H, 2 the message hash, 3 the pseudorandom function. -/
def xmssHash (kind : Nat) (key m : List Byte) : List Byte := shake256 ((natLe 32 kind).reverse ++ key ++ m)

/-- A hash address of layer 0 and tree 0: type, four words. -/
def xmssAdrs (ty a b c d : Nat) : List Byte := (([0, 0, 0, ty, a, b, c, d] : List Nat).map fun w => (natLe 4 w).reverse).flatten

def xmssXor (a b : List Byte) : List Byte := (a.zip b).map fun x => x.1 ^^^ x.2

/-- One chain of WOTS+: `n` steps from step `i` on. -/
def wotsChain (seed : List Byte) (idx ch : Nat) : Nat → Nat → List Byte → List Byte
  | 0, _, x => x
  | n + 1, i, x =>
    let prf := fun k => xmssHash 3 seed (xmssAdrs 0 idx ch i k)
    wotsChain seed idx ch n (i + 1) (xmssHash 0 (prf 0) (xmssXor x (prf 1)))

/-- The digits, base 16, of a digest and of its checksum. -/
def wotsDigits (m : List Byte) : List Nat :=
  let ds := m.flatMap fun b => [b.toNat / 16, b.toNat % 16]
  let c := 16 * (ds.map (15 - ·)).sum
  ds ++ [c / 4096 % 16, c / 256 % 16, c / 16 % 16]

/-- Two nodes hashed into their parent. -/
def xmssNode (seed : List Byte) (ty a height index : Nat) (l r : List Byte) : List Byte :=
  let prf := fun k => xmssHash 3 seed (xmssAdrs ty a height index k)
  xmssHash 1 (prf 0) (xmssXor l (prf 1) ++ xmssXor r (prf 2))

/-- One level of the tree over the parts of a one-time key; a last part without a partner goes up as it is. -/
def ltreeLevel (seed : List Byte) (idx height : Nat) : Nat → List (List Byte) → List (List Byte)
  | i, l :: r :: xs => xmssNode seed 1 idx height i l r :: ltreeLevel seed idx height (i + 1) xs
  | _, xs => xs
def ltree (seed : List Byte) (idx : Nat) : Nat → Nat → List (List Byte) → List Byte
  | 0, _, xs => xs.headD []
  | n + 1, h, xs => ltree seed idx n (h + 1) (ltreeLevel seed idx h 0 xs)

/-- The root that a path of `auth` gives from a leaf. -/
def xmssClimb (seed : List Byte) (idx : Nat) : Nat → List Byte → List (List Byte) → List Byte
  | _, node, [] => node
  | k, node, a :: as =>
    let i := idx / 2 ^ (k + 1)
    xmssClimb seed idx (k + 1) (if idx / 2 ^ k % 2 = 0 then xmssNode seed 2 0 k i node a else xmssNode seed 2 0 k i a node) as

/-- The `n` parts of 32 bytes of a list. -/
def parts32 (n : Nat) (b : List Byte) : List (List Byte) := (List.range n).map fun i => (b.drop (32 * i)).take 32

/-- Whether a signature of 2,820 bytes holds for a message under a public key of 68 bytes: identifier, root, seed. -/
def xmssValid (pk m sig : List Byte) : Bool :=
  let root := (pk.drop 4).take 32
  let seed := (pk.drop 36).take 32
  let idx := leNat (sig.take 4).reverse
  let dg := wotsDigits (xmssHash 2 ((sig.drop 4).take 32 ++ root ++ (natLe 32 idx).reverse) m)
  let ots := (parts32 67 (sig.drop 36)).zipIdx.map fun (x, i) => wotsChain seed idx i (15 - dg.getD i 0) (dg.getD i 0) x
  decide (sig.length = 2820 ∧ pk.length = 68 ∧ idx < 2 ^ 20) && xmssClimb seed idx 0 (ltree seed idx 7 0 ots) (parts32 20 (sig.drop 2180)) == root

end Sys2Proof.Machine
end

