-- ==== Sys2Proof/Machine/Security.lean ====
section
/-! DEFINITION. Firmware images, keys, attestation quotes and energy records (R506 to R526). -/

namespace Sys2Proof.Machine

def pgFuseKeys : Nat := pageNum 0xE 0 0
def pgIdent : Nat := pageNum 0xE 0 1
def pgAttest : Nat := pageNum 0xE 0 2
def pgEnergyRec : Nat := pageNum 0xE 0 3

/-! ## Firmware (R507 to R511) -/

/-- R507: ROOT of a slot, and whether the slot is usable. -/
def Dev.root (d : Dev) (k : Nat) : List Byte := ((List.range 8).map fun i => natLe 4 (d.g Reg.FUSE_KEYS_ROOT (8 * k + i))).flatten
def Dev.usable (d : Dev) (k : Nat) : Bool := bit (d.g Reg.FUSE_KEYS_SLOT_USED) k && ! bit (d.g Reg.FUSE_KEYS_SLOT_REVOKED) k

/-- R508: fields of an image. -/
def fwSvn (m : List Byte) : Nat := fld m 0xC 1 % 64
def fwKey (m : List Byte) : Nat := fld m 0xC 1 / 64
def fwRevoke (m : List Byte) : Nat := fld m 0xD 1 % 16
def fwLen (m : List Byte) : Nat := fld m 8 4

/-- R509: the code of an image; 0 for a pass. -/
def Dev.imageCode (d : Dev) (m : List Byte) : Nat :=
  let n := fwLen m
  let k := fwKey m
  let pk := (m.drop 0x38).take 68
  let left := (List.range 4).filter fun i => d.usable i && ! bit (fwRevoke m) i
  if m.length < 256 ∨ fld m 0 4 ≠ 0x4E584657 ∨ fld m 4 4 / 65536 ≠ 1 ∨ fld m 0xC 4 / 4096 ≠ 0 ∨ fld m 0x14 4 ≠ 0 ∨ ! allZero m 0x7C 0x100 then 1
  else if 1280 * 1024 < 256 + n + 2820 ∨ m.length ≠ 256 + n + 2820 then 2
  else if ! d.usable k then 3
  else if shake256 pk ≠ d.root k then 4
  else if ! xmssValid pk (m.take 256) (m.drop (256 + n)) then 5
  else if (m.drop 0x18).take 32 ≠ shake256 ((m.drop 256).take n) then 6
  else if fwSvn m < d.g Reg.FUSE_KEYS_SVN then 7
  else if bit (fwRevoke m) k || left.isEmpty then 8
  else 0

/-- FW_STAGE: FW.STAGE checks an image and copies it into the inactive slot. -/
def Dev.fwStage (mem : Mem) (d : Dev) : Nat × Dev :=
  let m := d.srcBytes mem (d.g Reg.FUSE_KEYS_STAGE_SPACE) (d.g Reg.FUSE_KEYS_STAGE_ADDR) (d.g Reg.FUSE_KEYS_STAGE_LEN)
  let code := d.imageCode m
  let d := d.p Reg.FUSE_KEYS_STAGE_CODE code
  if code ≠ 0 then (Cc.done, d.raise pgFuseKeys 0x0E02 9 Sev.error code)
  else
    let d := { d with sec := { d.sec with images := SMap.put d.sec.images (1 - d.g Reg.FUSE_KEYS_FW_ACTIVE) m, entered := false } }
    (Cc.done, (d.p Reg.FUSE_KEYS_FW_PENDING 1).raise pgFuseKeys 0x0E03 10 Sev.info 0)

/-- FW_CONFIRM: the running pending image is confirmed. -/
def Dev.fwConfirm (d : Dev) : Nat × Dev :=
  if d.g Reg.FUSE_KEYS_FW_CONFIRMED = 1 then (Cc.done, d)
  else
    let m := SMap.at d.sec.images (d.g Reg.FUSE_KEYS_FW_ACTIVE) []
    let old := d.g Reg.FUSE_KEYS_SLOT_REVOKED
    let new := (List.range 4).filter fun i => bit (fwRevoke m) i && ! bit old i
    let d := (d.p Reg.FUSE_KEYS_SVN (max (d.g Reg.FUSE_KEYS_SVN) (fwSvn m))).p Reg.FUSE_KEYS_SLOT_REVOKED (new.foldl setBit old)
    let d := { d with sec := { d.sec with confirmed := d.g Reg.FUSE_KEYS_FW_ACTIVE, entered := false } }
    let d := (d.p Reg.FUSE_KEYS_FW_CONFIRMED 1).p Reg.FUSE_KEYS_FW_PENDING 0
    (Cc.done, new.foldl (fun d i => d.raise pgFuseKeys 0x0E0B 13 Sev.info i) d)

/-! ## Key blocks (R515 to R517) -/

def Dev.keyBlock (d : Dev) : List Byte := ((List.range 24).map fun i => natLe 4 (d.g Reg.FUSE_KEYS_KEY_BLOCK i)).flatten

/-- R516: the current key of a kind; the lease key stands for FALLBACK. -/
def Dev.currentKey (d : Dev) (kind : Nat) : Option (List Byte) :=
  if kind = 2 then d.sec.resetKey else if kind = 3 then d.sec.cak.map (·.1) else d.sec.leaseKey

def xorBytes (a b : List Byte) : List Byte := a.zipWith (fun x y => x ^^^ y) b

/-- R462, R463: FALLBACK_CAP_W as it counts: an unprogrammed fuse stands for LEASE_MIN_W. -/
def Dev.capW (d : Dev) : Nat :=
  let c := d.g Reg.LEASE_FALLBACK_CAP_W
  if c = 0 then d.g Reg.SIZE_TABLE_ST_POWER_LEASE_MIN_W else c
def Dev.defaultFallback (d : Dev) : Nat := max (d.g Reg.SIZE_TABLE_ST_SHELF_MAX_W) (min d.capW (d.g Reg.SIZE_TABLE_ST_POWER_LEASE_MIN_W))

/-- R517: the code of a key block; 0 when it is accepted. -/
def Dev.keyCode (d : Dev) (m : List Byte) : Nat :=
  let kind := fld m 0 1 % 16
  let locked := d.g Reg.FUSE_KEYS_PROV_LOCK = 1
  let missing := d.sec.leaseKey.isNone || d.sec.resetKey.isNone || d.sec.cak.isNone
  let w := fld m 0x10 2
  if kind = 0 ∨ 5 < kind ∨ fld m 0 4 / 32 ≠ 0 ∨ fld m 4 4 ≠ 0 ∨ (kind ≠ 5 ∧ bit (fld m 0 1) 4) ∨ (kind ≠ 3 ∧ ! allZero m 0x30 0x40) ∨
      (kind = 4 ∧ ! allZero m 0x12 0x30) then 1
  else if kind = 5 then (if locked ∨ missing then 2 else 0)
  else
    let k := (d.currentKey kind).getD []
    if locked ∧ (d.currentKey kind).isNone then 3
    else if locked ∧ fld m 8 8 ≤ SMap.at d.sec.keyCtr kind 0 then 4
    else if locked ∧ kmac256 k (m.take 0x40) "NXU KEYCHG" ≠ m.drop 0x40 then 5
    else if kind = 4 ∧ (w < d.g Reg.SIZE_TABLE_ST_SHELF_MAX_W ∨ d.capW < w) then 6
    else 0

/-- KEY.GO: the key block is checked and takes effect. -/
def Dev.keyGo (d : Dev) : Nat × Dev :=
  let m := d.keyBlock
  let kind := fld m 0 1 % 16
  let code := d.keyCode m
  let d := d.p Reg.FUSE_KEYS_KEY_CODE code
  if code ≠ 0 then (Cc.done, d.raise pgFuseKeys 0x0E05 12 Sev.warn (kind + 256 * code))
  else
    let locked := d.g Reg.FUSE_KEYS_PROV_LOCK = 1
    let v := (m.drop 0x10).take 32
    let mask := kmac256 ((d.currentKey kind).getD []) (natLe 8 d.deviceId ++ natLe 8 (fld m 8 8) ++ natLe 1 kind) "NXU KEYWRAP"
    let key := if locked then xorBytes v mask else v
    let d := if locked ∧ kind ≠ 5 then { d with sec := { d.sec with keyCtr := SMap.put d.sec.keyCtr kind (fld m 8 8) } } else d
    let d := if kind = 1 then { d with sec := { d.sec with leaseKey := some key } }
      else if kind = 2 then { d with sec := { d.sec with resetKey := some key } }.xportAll Reg.HOST_XPORT_RESET_KEY 1
      else if kind = 3 then { d with sec := { d.sec with cak := some (key, (m.drop 0x30).take 16) } }
      else if kind = 4 then ({ d with sec := { d.sec with fallbackSet := true } }.p Reg.LEASE_FALLBACK_W (fld m 0x10 2)).leaseView
      else (d.p Reg.FUSE_KEYS_PROV_LOCK 1).p Reg.FUSE_KEYS_JTAG_LOCK (max (d.g Reg.FUSE_KEYS_JTAG_LOCK) (bits (fld m 0 1) 4 1))
    (Cc.done, d.raise pgFuseKeys 0x0E04 11 Sev.info kind)

/-- A write of KEY.GO with a block of a kind. -/
def Dev.keyGoKind (kind : Nat) (d : Dev) : Nat × Dev := if fld d.keyBlock 0 1 % 16 = kind then d.keyGo else (Cc.done, d)

/-! ## The signing index (R513, R514) -/

/-- R513: the next index is used up before its signature is released. -/
def Dev.takeIndex (d : Dev) : Nat × Dev :=
  let i := d.g Reg.IDENT_NEXT_INDEX
  (i, (d.p Reg.IDENT_NEXT_INDEX (i + 1)).p Reg.IDENT_REMAINING (1048576 - (i + 1)))

/-- SIG_BUDGET_LOW: once every 24 h. -/
def Dev.sigBudget (d : Dev) : Dev :=
  let n := d.g Reg.IDENT_REMAINING
  let due := match d.sec.budgetAt with | some t => decide (t + ms 86400000 ≤ d.now) | none => true
  if decide (n ≤ 65536) && due then { d with sec := { d.sec with budgetAt := some d.now } }.raise pgIdent 0x0E08 8 Sev.warn n else d

/-! ## Quotes (R519) -/

/-- R281: the digest of the fault map: its entries in order of level and instance. -/
def Dev.faultDigest (d : Dev) : List Byte :=
  shake256 ((sortBy (fun a b => decide (a.1 < b.1 ∨ a.1 = b.1 ∧ a.2 ≤ b.2)) d.faults).flatMap fun x => natLe 2 x.1 ++ natLe 2 x.2)
def Dev.draftDigest (d : Dev) : List Byte := if d.plan.draft = [] then natLe 32 0 else shake256 d.plan.draft
def Dev.headBytes (d : Dev) : List Byte := ((List.range 8).map fun i => natLe 4 (d.g Reg.ENERGY_REC_HEAD i)).flatten

/-- ATTEST_REQUEST. -/
def Dev.attestRequest (d : Dev) : Nat × Dev :=
  let refuse := fun (reason : Nat) =>
    (Cc.done, ((d.p Reg.ATTEST_STATE 3).p Reg.ATTEST_REASON reason).raise pgAttest 0x0E07 9 Sev.warn reason)
  if d.g Reg.ATTEST_RATE ≤ (d.sec.quotes.filter fun t => decide (d.now < t + ms 3600000)).length then refuse 1
  else if d.g Reg.IDENT_REMAINING ≤ 8192 then refuse 2
  else if d.sec.nonce.isSome then refuse 3
  else
    let n := ((List.range 8).map fun i => natLe 4 (d.g Reg.ATTEST_NONCE i)).flatten
    (Cc.done, (({ d with sec := { d.sec with nonce := some n } }).p Reg.ATTEST_STATE 1).p Reg.ATTEST_REASON 0)

/-- QUOTE_SIGNED: the quote that is being signed is sent. -/
def Dev.quoteSigned (d : Dev) : Dev :=
  match d.sec.nonce with
  | none => d
  | some n =>
    let x := d.takeIndex
    let d := x.2
    let fw := SMap.at d.sec.images (d.g Reg.FUSE_KEYS_FW_ACTIVE) []
    let w := d.g Reg.FUSE_KEYS_SVN + 2 ^ 6 * d.g Reg.FUSE_KEYS_FW_KEY_SLOT + 2 ^ 8 * d.g Reg.FUSE_KEYS_SLOT_REVOKED + 2 ^ 12 * d.g Reg.FUSE_KEYS_PROV_LOCK +
      2 ^ 13 * d.g Reg.FUSE_KEYS_JTAG_LOCK + 2 ^ 14 * d.g Reg.FUSE_KEYS_FW_CONFIRMED
    let q := natLe 4 0x4E584151 ++ natLe 4 0x10000 ++ natLe 8 d.deviceId ++ n ++ shake256 (fw.take 256) ++ natLe 4 w ++ natLe 4 x.1 ++
      natLe 8 (d.g64 Reg.ENERGY_REC_SEQ_LO Reg.ENERGY_REC_SEQ_HI) ++ d.headBytes ++ d.draftDigest ++ d.faultDigest ++ natLe 8 (d.wallNs / 10 ^ 9) ++ natLe 8 0
    let d := { d with sec := { d.sec with nonce := none, quotes := d.now :: d.sec.quotes.filter fun t => decide (d.now < t + ms 3600000) } }
    let d := ((d.p Reg.ATTEST_STATE 2).count Reg.ATTEST_QUOTES 0).record 3 (q ++ Config.xmssSign x.1 q)
    d.raise pgAttest 0x0E06 8 Sev.info x.1

/-! ## Energy records (R520 to R524) -/

/-- R520: the record of the minute that closes at a boundary. -/
def Dev.minuteRecord (d : Dev) (minute : Nat) (prev : List Byte) : List Byte :=
  let a := d.sec.acc
  let failed := bit a.flags 5
  let skip := decide (d.power.minute + 1 < minute ∧ d.power.minute ≠ 0)
  let flags := a.flags ||| ofB (decide (d.wallState ≤ 1)) ||| (8 * ofB skip)
  let st := d.g Reg.LEASE_STATE
  let avg := if st = 0 then d.g Reg.LEASE_FALLBACK_W else d.g Reg.LEASE_AVG_W
  let peak := if st = 0 then d.g Reg.LEASE_FALLBACK_W else d.g Reg.LEASE_PEAK_W
  natLe 4 0x4E584552 ++ natLe 4 1 ++ natLe 8 d.deviceId ++ natLe 8 d.sec.nextSeq ++ natLe 4 minute ++ natLe 4 ((d.now - a.since + a.extra) / 10000) ++
    natLe 4 (if failed then a.modelNj / 1000000 else a.uj / 1000) ++ natLe 4 (a.modelNj / 1000000) ++ natLe 2 (a.peak10 / 1000) ++ natLe 2 (a.max1s / 1000) ++
    natLe 2 avg ++ natLe 2 peak ++ natLe 2 a.lent ++ natLe 2 a.borrowed ++ natLe 2 (d.g Reg.LEASE_POOL) ++ natLe 2 (sat 16 (a.fallbackMs / 1000)) ++
    natLe 2 flags ++ natLe 2 (sat 16 (a.shelfMs / 1000)) ++ natLe 4 (if bit a.flags 4 then a.unmeasured else 0) ++
    natLe 8 (d.g64 Reg.LEASE_SEQ_LO Reg.LEASE_SEQ_HI) ++ natLe 8 0 ++ prev ++ natLe 16 0

/-- R523: the signature block after a record, when its turn has come and an index is left. -/
def Dev.signChain (d : Dev) (seq : Nat) : Dev :=
  if seq % 16 ≠ 15 then d
  else if d.g Reg.IDENT_REMAINING = 0 then d.raise pgIdent 0x0E09 9 Sev.fatal 0
  else
    let x := d.takeIndex
    let b := natLe 4 0x4E584552 ++ natLe 4 0x101 ++ natLe 8 d.deviceId ++ natLe 8 seq ++ natLe 4 x.1 ++ natLe 4 0 ++ d.headBytes
    let blk := b ++ Config.xmssSign x.1 b
    let d := x.2.p64 Reg.ENERGY_REC_SIGNED_LO Reg.ENERGY_REC_SIGNED_HI seq
    let bs := d.sec.blocks ++ [(seq, blk)]
    ({ d with sec := { d.sec with blocks := bs.drop (bs.length - 256) } }).record 2 blk

/-- R520 to R524: the minute closes: its record joins the chain, is kept and is queued. -/
def Dev.closeMinute (d : Dev) (minute : Nat) : Dev :=
  let seq := d.sec.nextSeq
  let prev := if seq = 0 then shake256 ([0x4E, 0x58, 0x55, 0x20, 0x45, 0x4E, 0x45, 0x52, 0x47, 0x59] ++ natLe 8 d.deviceId) else d.headBytes
  let r := d.minuteRecord minute prev
  let h := shake256 r
  let d := ((d.p64 Reg.ENERGY_REC_SEQ_LO Reg.ENERGY_REC_SEQ_HI seq).p Reg.ENERGY_REC_MINUTE minute)
  let d := (List.range 8).foldl (fun d i => d.p Reg.ENERGY_REC_HEAD (fld h (4 * i) 4) i) d
  let rs := d.sec.records ++ [(seq, r)]
  let old := rs.take (rs.length - 4096)
  let kept := rs.drop (rs.length - 4096)
  let lost := old.filter fun x => ! d.sec.delivered.contains x.1
  let d := d.p64 Reg.ENERGY_REC_OLDEST_LO Reg.ENERGY_REC_OLDEST_HI ((kept.head?.map (·.1)).getD seq)
  let d := { d with sec := { d.sec with nextSeq := seq + 1, records := kept, acc := { since := d.now }, saved := {},
                                        delivered := d.sec.delivered.filter fun q => ! old.any fun x => x.1 == q } }
  let d := if lost = [] then d
    else
      let d := d.bump Reg.ENERGY_REC_UNDELIVERED 0 lost.length
      d.raise pgEnergyRec 0x0E0A 8 Sev.warn (d.g Reg.ENERGY_REC_UNDELIVERED)
  (d.record 2 r).signChain seq

/-- MINUTE_BOUNDARY: wall time reaches a multiple of 60 s beyond the last boundary taken. -/
def Dev.minuteBoundary (d : Dev) : Dev :=
  let t := 60 * 10 ^ 9 * (d.power.minute + 1)
  let d := if d.wallNs < t then d.passTo (d.now + (t - d.wallNs + 99) / 100) else d
  let minute := d.wallNs / (60 * 10 ^ 9)
  (d.closeMinute minute).leaseMinute minute

/-- TOTALS_SAVE: once a second. -/
def Dev.totalsSave (d : Dev) : Dev :=
  let d := d.passTo (d.sec.savedAt + ms 1000)
  { d with sec := { d.sec with saved := { d.sec.acc with extra := d.sec.acc.extra + (d.now - d.sec.acc.since) }, savedAt := d.now } }

/-- ENERGY_REC_FETCH: retained records from FETCH_SEQ onward go again to the RECORD channels of the session that asked. -/
def Dev.energyFetch (session : Nat) (d : Dev) : Nat × Dev :=
  let q := d.g64 Reg.ENERGY_REC_FETCH_SEQ_LO Reg.ENERGY_REC_FETCH_SEQ_HI
  if d.sec.records = [] ∨ q < d.g64 Reg.ENERGY_REC_OLDEST_LO Reg.ENERGY_REC_OLDEST_HI ∨ d.g64 Reg.ENERGY_REC_SEQ_LO Reg.ENERGY_REC_SEQ_HI < q then (Cc.unsupported, d)
  else
    let objs := (d.sec.records.filter fun x => decide (q ≤ x.1)).flatMap fun x =>
      (2, x.2) :: ((d.sec.blocks.filter fun b => b.1 == x.1).map fun b => (2, b.2))
    let give := fun (c : Chan) =>
      if kindOf c.handle = Kd.record ∧ c.sess = session ∧ bit c.param 2 then takeWaiting { c with waiting := c.waiting ++ objs } objs.length else c
    (Cc.done, ({ d with host := { d.host with chans := d.host.chans.map give } }).pumpAll session)

/-! ## The commands -/

def execMinuteBoundary (s : State) : Host.Outcome State Fault Refusal := runDev s fun d => d.whenKept Dev.minuteBoundary
def execTotalsSave (s : State) : Host.Outcome State Fault Refusal := runDev s fun d => d.whenKept Dev.totalsSave
def execFwStage (r : Requester) (s : State) : Host.Outcome State Fault Refusal :=
  runDev s fun d => d.action r pgFuseKeys 0x088 true (Dev.fwStage s.mem)
def execFwConfirm (r : Requester) (s : State) : Host.Outcome State Fault Refusal := runDev s fun d => d.action r pgFuseKeys 0x088 true Dev.fwConfirm
def execLeaseKey (r : Requester) (s : State) : Host.Outcome State Fault Refusal := runDev s fun d => d.action r pgFuseKeys 0x088 true (Dev.keyGoKind 1)
def execResetKey (r : Requester) (s : State) : Host.Outcome State Fault Refusal := runDev s fun d => d.action r pgFuseKeys 0x088 true (Dev.keyGoKind 2)
def execCakKey (r : Requester) (s : State) : Host.Outcome State Fault Refusal := runDev s fun d => d.action r pgFuseKeys 0x088 true (Dev.keyGoKind 3)
def execFallbackKey (r : Requester) (s : State) : Host.Outcome State Fault Refusal := runDev s fun d => d.action r pgFuseKeys 0x088 true (Dev.keyGoKind 4)
def execLockKey (r : Requester) (s : State) : Host.Outcome State Fault Refusal := runDev s fun d => d.action r pgFuseKeys 0x088 true (Dev.keyGoKind 5)
def execAttestRequest (r : Requester) (s : State) : Host.Outcome State Fault Refusal := runDev s fun d => d.action r pgAttest 0x0A0 true Dev.attestRequest
def execQuoteSigned (s : State) : Host.Outcome State Fault Refusal := runDev s fun d => d.whenKept Dev.quoteSigned
def execSigBudgetLow (s : State) : Host.Outcome State Fault Refusal := runDev s fun d => d.whenKept Dev.sigBudget
def execEnergyRecFetch (r : Requester) (session : BitVec 32) (s : State) : Host.Outcome State Fault Refusal :=
  runDev s fun d => d.action r pgEnergyRec 0x0C0 true (Dev.energyFetch session.toNat)

end Sys2Proof.Machine
end

