-- ==== Sys2Proof/Machine/Reset.lean ====
section
/-! DEFINITION. Reset sources, domain resets, bring-up, takeover and the selvedge (R21 to R24, R445, R446, R527 to R544). -/

namespace Sys2Proof.Machine

def pgRstSrc : Nat := pageNum 0xF 0 0
def pgBringup : Nat := pageNum 0xF 0 1

def Dev.setRst (d : Dev) (x : RstSt) : Dev := { d with rst := x }

/-! R528: the sources. -/
def Src.powerOn : Nat := 1
def Src.resetN : Nat := 2
def Src.watchdog : Nat := 3
def Src.thermtrip : Nat := 4
def Src.lockstep : Nat := 5
def Src.register : Nat := 6
def Src.frame : Nat := 7

/-- R528, R543: a reset is recorded. -/
def Dev.recordReset (d : Dev) (src dom inst : Nat) : Dev :=
  (((d.p Reg.RST_SRC_LAST_SOURCE src).p Reg.RST_SRC_LAST_DOMAIN dom).p Reg.RST_SRC_LAST_INST inst).bump Reg.RST_SRC_COUNT 0 1 src

/-! ## The package reset (R510, R529 to R533, R539) -/

/-- R510: the code of a firmware slot. Slot A holds an image that passes until one has been staged into it; slot B starts empty. -/
def Dev.slotCode (d : Dev) (k : Nat) : Nat :=
  match SMap.find d.sec.images k with
  | some m => d.imageCode m
  | none => if k = 0 then 0 else 1

/-- R510: the check of slot `k` is shown. -/
def Dev.bootCheck (d : Dev) (k : Nat) : Dev := d.p (if k = 0 then Reg.FUSE_KEYS_BOOT_CODE_A else Reg.FUSE_KEYS_BOOT_CODE_B) (d.slotCode k)

/-- R510: slot `k` is entered. -/
def Dev.enterSlot (d : Dev) (k : Nat) (pending : Bool) : Dev :=
  let m := SMap.at d.sec.images k []
  let d := (d.p Reg.FUSE_KEYS_FW_ACTIVE k).p Reg.FUSE_KEYS_FW_CONFIRMED (ofB (k == d.sec.confirmed))
  let d := (d.p Reg.FUSE_KEYS_FW_KEY_SLOT (if m = [] then 0 else fwKey m)).p Reg.FUSE_KEYS_FW_SVN (if m = [] then 0 else fwSvn m)
  { d with sec := { d.sec with entered := d.sec.entered || pending }, rst := { d.rst with booted := true } }

/-- R510: the boot ROM's checks. -/
def Dev.boot (d : Dev) : Dev :=
  let asked := d.g Reg.FUSE_KEYS_FW_PENDING = 1
  let pending := asked ∧ ! d.sec.entered
  let first := if pending then 1 - d.g Reg.FUSE_KEYS_FW_ACTIVE else d.sec.confirmed
  let d := if asked ∧ d.sec.entered then d.p Reg.FUSE_KEYS_FW_PENDING 0 else d
  let d := { d with sec := { d.sec with entered := false } }
  let other := 1 - first
  let d := d.bootCheck first
  if d.slotCode first = 0 then d.enterSlot first pending
  else
    let d := d.bootCheck other
    if d.slotCode other = 0 then d.enterSlot other false else { d with rst := { d.rst with booted := false } }

/-- R531, R536: the package reset ends once no source holds it. -/
def Dev.tryRelease (d : Dev) : Dev :=
  let x := d.rst
  if x.held ∧ x.power ∧ ! x.low ∧ x.refclk ∧ ! x.trip then
    let d : Dev := { d with rst := { x with held := false, sensed := true, runsTo := d.now + 66 }, relAt := d.now }
    let d := if x.cause = 0 then d else d.recordReset x.cause 0 0
    ({ d with rst := { d.rst with cause := 0 } }).boot
  else d

/-- The end of the byte store. -/
def memEnd : Nat := hbmBase 8

/-- R529, R530: all that lies outside fuses and MRAM is lost. What was due for retirement is in the fault map by then (assumption 45), and without a
lease the fallback budget is in force (R10). -/
def Dev.clearAll (d : Dev) : Dev :=
  let s := d.sec
  let kept : Dev :=
    { regs := d.regs.filter fun e => keptKey e.1
      now := d.now, free := d.free, faults := d.nextFaults
      host := { wallBase := - (100 * d.now : Int) }
      sec := { s with quotes := [], nonce := none, budgetAt := none, acc := {} }
      rst := { power := d.rst.power, low := d.rst.low, refclk := d.rst.refclk, trip := d.rst.trip, held := true, cause := d.rst.cause
               sensed := d.rst.sensed, pinFuses := d.rst.pinFuses }
      writes := [.clear 0 memEnd], out := d.out }
  let d := kept.faults.foldl (fun (d : Dev) x => (faultPages x).foldl (fun (d : Dev) pg => d.setBs pg Bs.retired) d) kept
  ((List.range 8).foldl Dev.partView d.emptyView).leaseView

/-- R533, R539: a package reset begins. -/
def Dev.packageReset (d : Dev) : Dev :=
  let d := if d.rst.held ∨ d.level = 3 then d else d.bump Reg.BRINGUP_FAIL_RUN 0
  d.clearAll

/-- A package reset from a source that does not last. -/
def Dev.packageResetFrom (d : Dev) (src : Nat) : Dev := (d.recordReset src 0 0).packageReset.tryRelease

/-- R528: POWER_ON, RESET_N and THERMTRIP hold the reset; the reset pin that ends last is recorded. -/
def Dev.powerOn (d : Dev) : Dev :=
  let d := d.packageReset
  d.setRst { d.rst with power := false, trip := false, sensed := false, cause := Src.powerOn }
def Dev.powerGood (d : Dev) : Dev := if d.rst.power then d else (d.setRst { d.rst with power := true, cause := Src.powerOn }).tryRelease
def Dev.resetLow (d : Dev) : Dev :=
  let d := d.packageReset
  d.setRst { d.rst with low := true, cause := Src.resetN }
def Dev.resetRelease (d : Dev) : Dev := if ! d.rst.low then d else (d.setRst { d.rst with low := false, cause := Src.resetN }).tryRelease
def Dev.thermtrip (d : Dev) : Dev :=
  if d.rst.trip then d
  else
    let d := (d.recordReset Src.thermtrip 0 0).packageReset
    d.setRst { d.rst with trip := true }

/-- REFCLK_RETURN. -/
def Dev.refclkReturn (d : Dev) : Dev :=
  let d := d.setRst { d.rst with refclk := true }
  if d.rst.held then d.tryRelease else allDies.foldl (fun (d : Dev) die => d.unshelve die 4) (d.subst 7 false)

/-! ## Domains (R527, R530, R541) -/

/-- R445: whether a domain and an instance name a domain of the package. -/
def domOk (dom inst : Nat) : Bool :=
  if dom = 0 then inst == 0 else if 6 < dom then false else instOk ([0, 4, 3, 2, 6, 7, 5].getD dom 0) inst

/-- The pages of a domain, its top block first. -/
def domPages (dom inst : Nat) : List Nat :=
  match dom with
  | 1 => faultPages (4, inst) ++ dieIoPages inst
  | 2 => faultPages (3, inst)
  | 3 => faultPages (2, inst)
  | 4 => ioPages 6 inst
  | 5 => ioPages 7 inst
  | 6 => ioPages 5 inst
  | _ => []

/-- R533: domain `a` covers domain `b`. -/
def domCovers (a b : Nat × Nat) : Bool :=
  a == b || (a.1 == 1 && decide (1 < b.1) && b.2 / 1024 == a.2 / 1024) || (a.1 == 2 && b.1 == 3 && b.2 / 256 == a.2 / 256)

/-- The domain's own block is retired. -/
def Dev.domOut (d : Dev) (dom inst : Nat) : Bool :=
  match dom with
  | 1 => dieOut d.faults inst
  | 2 => regionOut d.faults inst
  | 3 => clusterOut d.faults inst
  | 6 => stackOut d.faults (dieOf inst * 2 + inst % 2)
  | _ => dieOut d.faults (dieOf inst * 1024)

/-- R541 step 3: the self-tests and trainings of a domain. -/
def Dev.domTests (d : Dev) (dom inst : Nat) : List (Nat × Nat) :=
  match dom with
  | 1 => ((regionsOf inst).filter (! regionOut d.faults ·)).map (3, ·) ++ ([inst / 512, inst / 512 + 1].filter (! stackOut d.faults ·)).map (5, ·)
  | 2 => [(3, inst)]
  | 3 => [(2, inst)]
  | 6 => [(5, dieOf inst * 2 + inst % 2)]
  | _ => []

/-- The stacks and the regions of a domain. -/
def domStacks (dom inst : Nat) : List Nat := if dom = 1 then [inst / 512, inst / 512 + 1] else if dom = 6 then [dieOf inst * 2 + inst % 2] else []
def domRegions (dom inst : Nat) : List Nat := if dom = 1 then regionsOf inst else if dom = 2 then [inst] else []
def domClusters (dom inst : Nat) : List Nat := if dom = 3 then [inst] else (domRegions dom inst).flatMap clustersOf

/-- R530: what a cluster, a region and a stack lose beside their registers. -/
def Dev.clearCluster (d : Dev) (c : Nat) : Dev :=
  let d := ({ d with units := SMap.cut d.units c (c + 32) }.setCluster c { ({} : ClusterSt) with standbyFor := (d.cluster c).standbyFor }).setEng false c {}
  (d.wipe (lsBase c) (lsBase (c + 32))).wipe (isBase c) (isBase (c + 32))
def Dev.clearRegion (d : Dev) (r : Nat) : Dev :=
  (({ d with power := { d.power with clocks := SMap.del d.power.clocks r } }.setEng true r {}).wipe (larderBase r) (larderBase (r + 256))).p
    Reg.BRINGUP_REGION_DONE (clrBit (d.g Reg.BRINGUP_REGION_DONE) (r / 256))
def Dev.clearStack (d : Dev) (s : Nat) : Dev :=
  let attic := d.g Reg.PARTNER_ATTIC_STATE ≠ 0 ∧ d.rd Reg.HBM_PART_SIZE (hbmInst s) 3 ≠ 0
  let d := if attic then d.p Reg.PARTNER_ATTIC_STATE 3 else d
  ((d.wipe (hbmBase s) (hbmBase (s + 1))).p Reg.BRINGUP_STACK_READY (clrBit (d.g Reg.BRINGUP_STACK_READY) s)).setRst
    { d.rst with tries := SMap.del d.rst.tries s }

/-- R530: every register of every page of a list returns to its value at reset. -/
def Dev.clearPages (d : Dev) (pgs : List Nat) : Dev :=
  let d := pgs.foldl Dev.clearBlock d
  let here := fun (k : Nat) => pgs.contains (k / (4096 * 32))
  let d := { d with regs := d.regs.filter (fun e => ! here e.1 || keptKey e.1), shadow := d.shadow.filter (fun e => ! here e.1), latch := d.latch.filter (fun e => ! here e.1),
                    pages := d.pages.filter fun e => ! pgs.contains e.1 }
  d

/-! ## Back in service (R536 to R541) -/

/-- R16: a page of a standby that no plan has given a position stays clock-gated. -/
def Dev.gated (d : Dev) (pg : Nat) : Bool := pgClass pg == 1 && pgInst pg % 32 == 16 && (d.cluster (clusterOf (pgInst pg))).standbyFor.isNone

/-- R557: the keeper writes EN = 1 on the blocks of a list that are brought into service. -/
def Dev.enable (d : Dev) (pgs : List Nat) : Dev :=
  (pgs.filter fun pg => d.bs pg ≠ Bs.retired && ! d.gated pg).foldl (fun (d : Dev) pg => d.setEn pg true) d

/-- R530, R531: the resets of a list of pages have run out. -/
def Dev.endOfResets (d : Dev) (pgs : List Nat) : Dev :=
  d.passTo (((d.resetting.filter fun x => pgs.contains x.1).map (·.2.1)).foldl max 0)

/-- The pages that bring-up has enabled at the present level: those of dies and control ports from SL1, of front and link ports from SL2. -/
def Dev.enabledHere (d : Dev) (pg : Nat) : Bool :=
  let c := pgClass pg
  if c = 4 then decide (1 ≤ d.level)
  else if c = 7 then decide ((if pgInst pg % 32 = 1 then 1 else 2) ≤ d.level)
  else c == 6 && decide (2 ≤ d.level)

/-- R541 step 3: a test or training has ended; a domain with none left is back in service. -/
def Dev.testEnded (d : Dev) (x : Nat × Nat) : Dev :=
  let bs := d.rst.back.map fun b => { b with left := b.left.filter (· ≠ x) }
  let d := d.setRst { d.rst with back := bs.filter fun b => ! b.left.isEmpty }
  (bs.filter fun b => b.left.isEmpty).foldl Dev.restoredEvent d

/-- R54: the arms of a list of pages that a reset discards, with their tags. -/
def Dev.pendingArms (d : Dev) (pgs : List Nat) : List (Nat × Nat) :=
  (pgs.filter fun pg => [1, 5].contains (d.hd Hdr.STAT_STATUS pg)).map fun pg => (pg, d.hd Hdr.STAT_TAG pg)
def Dev.discardArms (d : Dev) (xs : List (Nat × Nat)) : Dev :=
  xs.foldl (fun (d : Dev) x => ((d.hw Hdr.STAT_STATUS x.1 4).hw Hdr.STAT_REASON x.1 7).hw Hdr.STAT_TAG x.1 x.2) d

/-- R531, R533, R541 steps 2 and 3: a domain that has quiesced is RESETTING for the 1,024 REFCLK cycles of R531, is cleared, ends in OFF, and its
tests and trainings begin. -/
def Dev.domClear (d : Dev) (x : ResetReq) : Dev :=
  let pgs := domPages x.dom x.inst
  let arms := d.pendingArms pgs
  let grouped := pgs.filterMap fun pg => (d.info pg).group
  let d := grouped.eraseDups.foldl (fun (d : Dev) g => d.groupDrop g Rs.reset) d
  let d := d.clearPages pgs
  let d := (domClusters x.dom x.inst).foldl Dev.clearCluster d
  let d := (domRegions x.dom x.inst).foldl Dev.clearRegion d
  let d := (domStacks x.dom x.inst).foldl (fun (d : Dev) s => (d.clearStack s).partView s) d
  let d := d.faults.foldl (fun (d : Dev) f => (faultPages f).foldl (fun (d : Dev) pg => if pgs.contains pg then d.setBs pg Bs.retired else d) d) d
  let d := ((pgs.filter fun pg => d.bs pg ≠ Bs.retired).foldl (fun (d : Dev) pg => d.enterReset pg (d.now + 66) false) (d.discardArms arms)).emptyView
  let d := if x.dom = 1 ∧ (x.inst = 0 ∨ x.inst = 1024) ∧ ! dieOut d.faults x.inst then d.p Reg.BRINGUP_STANDBY_OK (ofB d.rst.booted) else d
  let d := d.enable (pgs.filter d.enabledHere)
  let d := ((domStacks x.dom x.inst).filter (! stackOut d.faults ·)).foldl (fun (d : Dev) s =>
    if 2 ≤ d.level then d.wr Reg.HBM_CTL_STATE (hbmInst s) 1 else d) d
  if d.domOut x.dom x.inst then d
  else
    d.setRst { d.rst with back := d.rst.back ++ [⟨x.dom, x.inst, x.src, d.domTests x.dom x.inst⟩] }

/-- R541: every domain whose quiesce has ended. -/
def Dev.domFinish (d : Dev) : Dev :=
  d.rst.drain.foldl (fun (d : Dev) x =>
    if (domPages x.dom x.inst).any fun pg => d.bs pg == Bs.quiescing then d
    else
      let d := d.setRst { d.rst with drain := d.rst.drain.filter (· ≠ x) }
      d.domClear x) d

/-! ## Takeover (R24, R540) -/

/-- The die whose manager core serves the package, and the standby's. -/
def Dev.managerDie (d : Dev) : Nat := 1024 * d.g Reg.RST_SRC_MANAGER
def Dev.standbyDie (d : Dev) : Nat := 1024 * (1 - d.g Reg.RST_SRC_MANAGER)
def Dev.standbyReady (d : Dev) : Bool :=
  d.g Reg.BRINGUP_STANDBY_OK == 1 && ! dieOut d.faults d.standbyDie && ! d.due.contains (4, d.standbyDie)

/-- R437: a REG message's requests, or none for a bad COUNT or a reserved field. -/
def regRequests (m : List Byte) : Option Nat :=
  let n := fld m 0 2
  let bad := fun k => let e := (m.drop (8 + 12 * k)).take 12
    decide (1 < fld e 4 1 ∨ 1 < fld e 5 1 ∨ fld e 6 2 ≠ 0 ∨ (fld e 4 1 = 0 ∧ fld e 8 4 ≠ 0))
  if n = 0 ∨ 512 < n ∨ fld m 4 4 ≠ 0 ∨ m.length ≠ 8 + 12 * n ∨ (List.range n).any bad then none else some n

/-- R438: the reply to a message: its tag, and an entry (value, code) for each request. -/
def regReply (m : List Byte) (es : List (Nat × Nat)) : List Byte :=
  natLe 2 es.length ++ natLe 2 (fld m 2 2) ++ natLe 4 0 ++ es.flatMap fun e => natLe 4 e.1 ++ natLe 4 e.2

/-- R435: the open REG requests complete with TIMEOUT. -/
def Dev.regTimeouts (d : Dev) : Dev :=
  (chansOf d Kd.reg).foldl (fun (d : Dev) c =>
    c.inbox.foldl (fun (d : Dev) m => d.queueMsg c.sess c.handle (regReply m (List.replicate ((regRequests m).getD 0) (0, Cc.timeout))))
      (d.setChan { c with inbox := [] })) d

/-- R289: the load larder is another one after a takeover; a draft held in the former one is dropped. -/
def Dev.larderLost (d : Dev) : Dev :=
  if d.g Reg.DRAFT_STATUS_STATE = 0 ∨ d.g Reg.DRAFT_SRC_SPACE ≠ 1 then d else d.dropDraft.p Reg.DRAFT_STATUS_STATE 0

/-- R540: the standby takes over, or the package is reset. `src` is the trigger's source, 0 for a retirement. -/
def Dev.takeover (d : Dev) (src : Nat) : Dev :=
  if ! d.standbyReady then d.packageResetFrom (if src = Src.lockstep then src else Src.watchdog)
  else
    let gs := (List.range 8).filter d.groupArmed
    let d := gs.foldl (fun (d : Dev) g => d.groupDrop g Rs.reset) d
    let d := (d.regTimeouts.voteFail.larderLost.markMinute 9).p Reg.RST_SRC_MANAGER (1 - d.g Reg.RST_SRC_MANAGER)
    let d := (d.p Reg.BRINGUP_STANDBY_OK (ofB (src == Src.watchdog && d.rst.booted))).bump Reg.RST_SRC_TAKEOVERS 0
    d.raise pgRstSrc 0x0F05 10 Sev.error src

/-- R540: the managing die has been retired. `old` is the device before. -/
def Dev.managerLost (d old : Dev) : Dev :=
  let die := old.managerDie
  if dieOut d.faults die ∧ ! dieOut old.faults die ∧ 1 ≤ d.level then d.takeover 0 else d

/-- WATCHDOG: no heartbeat of the package manager for 50 ms: the regions fall back to DENSITY 7 and the dies to the forced shelf state (R483). -/
def Dev.watchdog (d : Dev) : Dev :=
  if d.rst.held ∨ d.level = 0 then d
  else
    let d := d.inRegions.foldl (fun (d : Dev) r => d.wr Reg.RCLOCK_DENSITY r 7) d
    let d := d.inDies.foldl (fun (d : Dev) die => d.shelve die 6) d
    let n := d.g Reg.RST_SRC_MANAGER
    let d := if d.standbyReady then d.recordReset Src.watchdog 0 0 else d
    let d := d.takeover Src.watchdog
    if d.g Reg.RST_SRC_MANAGER = n then d else d.inDies.foldl (fun (d : Dev) die => d.unshelve die 6) d

/-! ## Domain resets (R533, R541, R543) -/

/-- A domain reset is issued: recorded and raised; the domain quiesces, a port's at once by force (R541). -/
def Dev.domStart (d : Dev) (dom inst src : Nat) : Dev :=
  let pgs := domPages dom inst
  let top := domTop dom inst
  let d := (d.recordReset src dom inst).raise pgRstSrc 0x0F03 9 Sev.warn (dom + 16 * inst + 65536 * src)
  let d := if dom ≤ 4 ∨ dom = 6 then (if pgs.any d.planUses then d.voteFail else d) else d
  let covered := fun (a b : Nat) => domCovers (dom, inst) (a, b)
  let d := d.setRst { d.rst with drain := (d.rst.drain.filter fun x => ! covered x.dom x.inst) ++ [⟨dom, inst, src, d.now⟩],
                                 back := d.rst.back.filter fun x => ! covered x.dom x.inst }
  let d := if dom = 1 ∧ inst = d.standbyDie then d.p Reg.BRINGUP_STANDBY_OK 0 else d
  let d := (d.setInfo top { d.info top with domAfter := true, resetAfter := false }).quiesceDown top
  let d := if dom = 4 ∨ dom = 5 then d.cut top else d
  d.domFinish

/-- R540, R541: a reset of a domain; one of the managing die brings a takeover first. -/
def Dev.domReset (d : Dev) (dom inst src : Nat) : Dev :=
  if dom = 0 then d.packageResetFrom src
  else if d.rst.held ∨ d.now < d.rst.runsTo then d
  else if dom = 1 ∧ inst = d.managerDie then
    if d.standbyReady then (d.takeover src).domStart dom inst src else d.takeover src
  else d.domStart dom inst src

/-- DOMAIN_RESET: the reset of a domain that a register write or a reset frame has asked for comes due. -/
def Dev.domainReset (dom inst : Nat) (d : Dev) : Dev :=
  match d.rst.due.find? fun x => x.dom == dom && x.inst == inst with
  | none => d
  | some x =>
    let d := (d.setRst { d.rst with due := d.rst.due.erase x }).passTo x.at'
    d.domReset dom inst x.src

/-- RST_SRC_REQ: a write of REQ; the reset is issued 100 µs later. -/
def Dev.resetReq (w : Nat) (d : Dev) : Nat × Dev :=
  let dom := bits w 0 4
  let inst := bits w 4 12
  if bits w 16 16 ≠ 0xA5C3 ∨ ! domOk dom inst then (Cc.unsupported, d)
  else (Cc.done, d.setRst { d.rst with due := d.rst.due ++ [⟨dom, inst, Src.register, d.now + us 100⟩] })

/-- LOCKSTEP: the safety-controller pair of a die disagrees: forced shelf state, takeover for the managing die, die reset. -/
def Dev.lockstep (die : Nat) (d : Dev) : Dev :=
  if d.rst.held ∨ dieOut d.faults die then d
  else
    let d := (d.shelve die 5).domReset 1 die Src.lockstep
    d.unshelve die 5

/-! ## Reset frames (R445, R446) -/

/-- R445: the header fields of a reset frame that must be zero. -/
def resetHeaderOk (g : Segment) : Bool :=
  ! g.isFirst && ! g.isLast && g.session == 0 && g.seq == 0 && g.ack == 0 && g.sack == 0 && g.channel == 0 && g.window == 0

/-- RESET_FRAME: a segment of TYPE RESET on a control port. -/
def Dev.resetFrame (p : Nat) (peer : Endpoint) (g : Segment) (d : Dev) : Dev :=
  if ! isControl p ∨ ! d.carries p then d
  else if ! segSound Seg.reset g || g.ver.toNat != 1 then d.badSegment p
  else
    let m := g.payload
    let ctr := d.rd Reg.HOST_XPORT_RESET_CTR_LO (hostInst p) + 2 ^ 32 * d.rd Reg.HOST_XPORT_RESET_CTR_HI (hostInst p)
    let w := fld m 0x10 4
    let dom := bits w 0 4
    let inst := bits w 16 12
    let ok := match d.sec.resetKey with
      | none => false
      | some k => resetHeaderOk g && m.length == 64 && fld m 0 8 == d.deviceId && decide (ctr < fld m 8 8) && domOk dom inst &&
          bits w 4 12 == 0 && bits w 28 4 == 0 && allZero m 0x14 0x20 && kmac256 k (m.take 0x20) "NXU RESET" == m.drop 0x20
    if ok then
      let d := (d.xportAll Reg.HOST_XPORT_RESET_CTR_LO (fld m 8 4)).xportAll Reg.HOST_XPORT_RESET_CTR_HI (fld m 12 4)
      let d := (d.send (.segment p peer Seg.reset false false 0 0 0 0 0 0 ((m.drop 8).take 8 ++ natLe 8 0))).txFrame p
      d.setRst { d.rst with due := d.rst.due ++ [⟨dom, inst, Src.frame, d.now + us 100⟩] }
    else
      let d := d.bump Reg.HOST_XPORT_RESET_REJECTED (hostInst p)
      let quiet := match d.rst.rejectAt with | some t => decide (d.now < t + ms 1000) | none => false
      if quiet then d
      else (d.setRst { d.rst with rejectAt := some d.now }).raise (pgXport p) 0x0B09 10 Sev.warn (d.rd Reg.HOST_XPORT_RESET_REJECTED (hostInst p))

/-! ## Service levels (R536 to R539) -/

/-- R28: the CRC of the size table. -/
def Dev.tableOk (d : Dev) : Bool :=
  let word := fun (o : Nat) => (Reg.all.filter fun f => f.cls == 0 && f.page == 1 && f.off == o).foldl (fun a f => a + d.g f * 2 ^ f.lo) 0
  crc32 (((List.range 17).map fun k => natLe 4 (word (0x080 + 4 * k))).flatten) == d.g Reg.SIZE_TABLE_ST_CRC_VALUE

/-- R537, R539: bring-up goes no further from the present level. -/
def Dev.stopped (d : Dev) : Bool :=
  (d.level == 1 && (d.g Reg.BRINGUP_HALTED == 1 || ! d.tableOk || d.g Reg.BRINGUP_STOP_AT == 1)) || (d.level == 2 && decide (d.g Reg.BRINGUP_STOP_AT ≤ 2))

/-- Whole ms since RESET_N was released. -/
def Dev.sinceRelease (d : Dev) : Nat := sat 16 ((d.now - d.relAt) / 10000)

/-- R544: a level is entered. -/
def Dev.levelReached (d : Dev) (n : Nat) : Dev :=
  let d := d.p Reg.BRINGUP_LEVEL n
  d.raise pgBringup 0x0F01 8 Sev.info (n + 65536 * d.sinceRelease)

/-- R539: bring-up stops at a level by STOP_AT. -/
def Dev.stopEvent (d : Dev) : Dev :=
  let s := d.g Reg.BRINGUP_STOP_AT
  if (d.level = 1 ∧ s = 1) ∨ (d.level = 2 ∧ s ≤ 2) then d.raise pgBringup 0x0F09 13 Sev.info s else d

/-- The blocks that the keeper enables at SL1: the package pages, the dies in service and their control ports. -/
def Dev.sl1Pages (d : Dev) : List Nat :=
  ([0, 8, 9, 10, 11, 12, 13, 14, 15].flatMap fun c => (List.range (Reg.pagesOf.getD c 0)).map (pageNum c 0)) ++ d.inDies.flatMap diePages ++
    (d.inDies.map (· + 1)).flatMap (ioPages 7)

/-- R520, R521: the open minute goes on from the totals saved before the reset. -/
def Dev.resumeTotals (d : Dev) : Dev :=
  { d with sec := { d.sec with acc := { d.sec.saved with since := d.now, flags := setBit d.sec.saved.flags 4 }, savedAt := d.now } }

/-- R526, R544: 0x0E01 and 0x0F02. -/
def Dev.bootEvents (d : Dev) : Dev :=
  let other := if d.g Reg.FUSE_KEYS_FW_ACTIVE = 0 then d.g Reg.FUSE_KEYS_BOOT_CODE_B else d.g Reg.FUSE_KEYS_BOOT_CODE_A
  let w := d.g Reg.FUSE_KEYS_FW_ACTIVE + 2 * d.g Reg.FUSE_KEYS_FW_KEY_SLOT + 8 * d.g Reg.FUSE_KEYS_FW_SVN + 512 * other
  let d := d.raise pgFuseKeys 0x0E01 8 Sev.info w
  d.raise pgRstSrc 0x0F02 8 Sev.info (d.g Reg.RST_SRC_LAST_SOURCE + 16 * d.g Reg.RST_SRC_LAST_DOMAIN)

/-- R537, R539: what keeps bring-up at SL1. -/
def Dev.sl1Stops (d : Dev) : Dev :=
  let d := if d.tableOk then d else d.raise pgBringup 0x0F06 10 Sev.error 0
  let n := d.g Reg.BRINGUP_FAIL_RUN
  let d := if 4 ≤ n then (d.p Reg.BRINGUP_HALTED 1).raise pgBringup 0x0F07 11 Sev.error n else d
  d.stopEvent

/-- R482: FEED_SEL: three equal samples, or 63. -/
def feedSel (f0 f1 f2 : Nat) : Nat := if f0 = f1 ∧ f1 = f2 then f0 else 63

/-- R560: the keeper runs: its blocks are enabled, the beat timer starts, and the open minute and the budget are taken up. -/
def Dev.keeperStarts (d : Dev) (strap : Nat) : Dev :=
  let d := (d.setRst { d.rst with strap := strap }).p Reg.SPARES_OWN_FEED strap
  let d := (d.enable d.sl1Pages).resumeTotals
  let d : Dev := { d with timerOn := true }
  let d := (d.p Reg.BRINGUP_STANDBY_OK (ofB (! dieOut d.faults d.standbyDie))).p Reg.BRINGUP_T_SL1_MS d.sinceRelease
  let d := if d.sec.fallbackSet then d else d.p Reg.LEASE_FALLBACK_W d.defaultFallback
  d.leaseView

/-- BRINGUP_SL1: the keeper runs and the control ports are enabled. FEED_SEL has been sampled three times. -/
def Dev.sl1 (msOp f0 f1 f2 : Nat) (d : Dev) : Dev :=
  if d.rst.held ∨ ! d.rst.booted ∨ d.level ≠ 0 then d
  else
    let strap := feedSel f0 f1 f2
    let d := (((d.passTo (max d.rst.runsTo (d.relAt + ms msOp))).keeperStarts strap).bootEvents).levelReached 1
    let d := if d.sec.fallbackSet then d else d.raise pgLease 0x0C03 10 Sev.warn (d.g Reg.LEASE_FALLBACK_W + 65536)
    let d := if f0 = f1 ∧ f1 = f2 then d else (d.subst 4 true).raise pgInputCond 0x0C10 9 Sev.warn strap
    d.sl1Stops

/-- BRINGUP_SL2: one region of each in-service die has passed its self-test. -/
def Dev.sl2 (msOp : Nat) (d : Dev) : Dev :=
  let tested := d.inDies.all fun die => (regionsOf die).all (regionOut d.faults) || bit (d.g Reg.BRINGUP_REGION_DONE) (d.sl2Region die / 256)
  if d.level ≠ 1 ∨ d.stopped ∨ ! tested then d
  else
    let d := d.passTo (d.relAt + ms msOp)
    let rs := d.inDies.map d.sl2Region
    let d := d.p Reg.BRINGUP_SL2_REGION (rs.foldl (fun a r => a + (r / 256 % 4) * 4 ^ (r / 1024)) 0)
    let d := rs.foldl (fun (d : Dev) r => (d.wr Reg.RCLOCK_OP r 5).wr Reg.RCLOCK_TARGET r 5) d
    let d := (d.p Reg.BRINGUP_T_SL2_MS d.sinceRelease).levelReached 2
    let d := d.setRst { d.rst with sl2At := d.now }
    let d := d.enable (d.inDies.flatMap (ioPages 7) ++ d.inDies.flatMap fun die => (List.range 8).flatMap fun i => ioPages 6 (die + i))
    let d := ((List.range 8).filter (! stackOut d.faults ·)).foldl (fun (d : Dev) s => d.wr Reg.HBM_CTL_STATE (hbmInst s) 1) d
    d.stopEvent

/-- BRINGUP_SL3: stacks, regions and link ports are as R538 asks. -/
def Dev.sl3 (msOp : Nat) (d : Dev) : Dev :=
  let d' := d.passTo (d.relAt + ms msOp)
  let trained := (List.range 8).all fun s => stackOut d.faults s || bit (d.g Reg.BRINGUP_STACK_READY) s
  let regions := d.inRegions.all fun r => bit (d.g Reg.BRINGUP_REGION_DONE) (r / 256)
  let links := (List.range 32).all (fun p => d.phy p != 2) || decide (d.rst.sl2At + ms 2000 ≤ d'.now)
  if d.level ≠ 2 ∨ d.stopped ∨ ! trained ∨ ! regions ∨ ! links then d
  else ((d'.p Reg.BRINGUP_T_SL3_MS d'.sinceRelease).p Reg.BRINGUP_FAIL_RUN 0).levelReached 3

/-- BRINGUP_STOP_AT: a write of STOP_AT. One that stops the present level raises 0x0F09 (R539). -/
def Dev.stopAt (v : Nat) (d : Dev) : Nat × Dev :=
  (Cc.done, if v = 0 then d else if d.stopped then d.p Reg.BRINGUP_STOP_AT v else (d.p Reg.BRINGUP_STOP_AT v).stopEvent)

/-- BRINGUP_RESUME. -/
def Dev.bringupResume (d : Dev) : Nat × Dev := (Cc.done, (d.p Reg.BRINGUP_HALTED 0).p Reg.BRINGUP_FAIL_RUN 0)

/-! ## Self-tests and training (R16 to R21, R538) -/

/-- R20, R21, R538: blocks fail; the managing die may be lost with them. -/
def Dev.failBlocks (d : Dev) (xs : List (Nat × Nat)) : Dev := (xs.foldl Dev.retire d).managerLost d

/-- The pages of a unit, a cluster or a region. -/
def scopePages (level inst : Nat) : List Nat := faultPages (level, inst)

/-- R538, R541: whether the self-test of a scope is due. -/
def Dev.testDue (d : Dev) (level inst : Nat) : Bool :=
  let top := (scopePages level inst).headD 0
  pageOk top && d.bs top == Bs.off && d.hd Hdr.CTL_EN top == 0 && decide (1 ≤ d.level) &&
    (if level = 3 then
      d.rst.back.any (fun b => b.left.contains (3, inst)) || (! d.stopped && (decide (2 ≤ d.level) || inst == d.sl2Region (inst / 1024 * 1024)))
    else if level = 2 then d.rst.back.any fun b => b.left.contains (2, inst)
    else level == 1 && d.hd Hdr.CTL_EN (pageNum 2 (clusterOf inst) 0) == 1)

/-- SELF_TEST_DONE: what has failed is retired, what has passed is enabled. -/
def Dev.selfTest (level inst : Nat) (failed : List (Nat × Nat)) (d : Dev) : Dev :=
  let pgs := scopePages level inst
  if ! (d.endOfResets pgs).testDue level inst then d
  else
    let d := d.endOfResets pgs
    let bad := failed.filter fun x => decide (1 ≤ x.1 ∧ x.1 ≤ level) && (match (faultPages x).head? with | some t => pgs.contains t | none => false)
    let d := d.failBlocks bad
    if d.rst.held ∨ d.level = 0 then d
    else
      let badPages := bad.flatMap faultPages
      let d := d.enable (pgs.filter fun pg => ! badPages.contains pg)
      let d := if level = 3 then d.p Reg.BRINGUP_REGION_DONE (setBit (d.g Reg.BRINGUP_REGION_DONE) (inst / 256)) else d
      d.testEnded (level, inst)

/-- HBM_TRAIN_DONE: a training attempt ends; three may fail. -/
def Dev.hbmTrain (s : Nat) (ok : Bool) (d : Dev) : Dev :=
  let i := hbmInst s
  if d.rd Reg.HBM_CTL_STATE i ≠ 1 then d
  else if ok then
    let d := ((d.endOfResets (ioPages 5 i)).wr Reg.HBM_CTL_STATE i 2).p Reg.BRINGUP_STACK_READY (setBit (d.g Reg.BRINGUP_STACK_READY) s)
    (d.enable (ioPages 5 i)).testEnded (5, s)
  else
    let n := SMap.at d.rst.tries s 0 + 1
    let d := d.setRst { d.rst with tries := SMap.put d.rst.tries s n }
    if n < 3 then d
    else
      let d := (d.wr Reg.HBM_CTL_STATE i 3).p Reg.BRINGUP_STACK_FAILED (setBit (d.g Reg.BRINGUP_STACK_FAILED) s)
      let d := (d.raise pgBringup 0x0F08 12 Sev.error s).failBlocks [(5, s)]
      if d.rst.held ∨ d.level = 0 then d else d.testEnded (5, s)

/-- FAULT_MAP_CLEAR: an authenticated clear removes entries; what no entry names any more is OFF. -/
def Dev.faultMapClear (auth : Bool) (xs : List (Nat × Nat)) (d : Dev) : Dev :=
  if ! auth ∨ d.rst.held then d
  else
    let gone := d.faults.filter xs.contains
    let d := { d with faults := d.faults.filter fun x => ! xs.contains x }
    let still := d.faults.flatMap faultPages
    ((gone.flatMap faultPages).foldl (fun (d : Dev) pg => if d.bs pg = Bs.retired ∧ ! still.contains pg then d.setBs pg Bs.off else d) d).emptyView

/-! ## The selvedge (R22 to R24) -/

/-- Edge `e` joins dies e and e + 1; `back` names the direction towards die e. The dies at the receiving and at the sending end. -/
def edgeTo (e : Nat) (back : Bool) : Nat := if back then e else (e + 1) % 4
def edgeFrom (e : Nat) (back : Bool) : Nat := if back then (e + 1) % 4 else e

/-- R23, R24: the edge over which a die sends a block to another: its neighbour's across their shared edge, the opposite die's by way of the next die, and the
other way around the ring where a failed edge lies on that way. -/
def Dev.edgeAhead (d : Dev) (a b : Nat) : Nat × Bool :=
  let back := (b + 4 - a) % 4 == 3
  if ((edgePath a b).any d.rst.edges.contains) != back then ((a + 3) % 4, true) else (a, false)

/-- R24: the dies that the managing die reaches over working edges. -/
def Dev.reached (d : Dev) : List Nat :=
  let m := d.g Reg.RST_SRC_MANAGER
  let up := fun n => (List.range n).all fun k => ! d.rst.edges.contains ((m + k) % 4)
  let down := fun n => (List.range n).all fun k => ! d.rst.edges.contains ((m + 3 - k) % 4)
  (List.range 4).filter fun die => up ((die + 4 - m) % 4) || down ((m + 4 - die) % 4)

/-- R24: an edge has failed: with two, the dies of the other part are retired. -/
def Dev.edgeFails (d : Dev) (e : Nat) : Dev :=
  let d := d.setRst { d.rst with edges := if d.rst.edges.contains e then d.rst.edges else d.rst.edges ++ [e] }
  if d.rst.edges.length < 2 then d.replanStart 2
  else
    let lost := ((List.range 4).filter fun x => ! d.reached.contains x).map fun x => (4, 1024 * x)
    (d.failBlocks lost).replanStart 2

/-- R541: an end of the edge lies in a die that is being reset. -/
def Dev.edgeSuspended (d : Dev) (e : Nat) : Bool :=
  [e, (e + 1) % 4].any fun die =>
    (d.rst.drain.any fun x => x.dom == 1 && x.inst == 1024 * die) || d.rst.back.any fun x => x.dom == 1 && x.inst == 1024 * die

/-- The place lies in a larder or a stack of a die, with room for a block. -/
def placeIn (die dest n : Nat) : Bool :=
  (regionsOf (1024 * die)).any (fun r => decide (larderBase r ≤ dest ∧ dest + n ≤ larderBase (r + 256))) ||
    [2 * die, 2 * die + 1].any fun s => decide (hbmBase s ≤ dest ∧ dest + n ≤ hbmBase (s + 1))

/-- R22: the key under which the failed resends of one block are counted. -/
def resendKey (e : Nat) (back : Bool) (dst dest : Nat) : Nat := 2 * e + ofB back + 8 * (dst + 4 * dest)

/-- SELVEDGE_BLOCK_RECEIVE: a whole block with its CRC has crossed an edge, on its way to a place of a die. A block that no die sends that way
(R23) does not arrive. -/
def Dev.selvedge (e : Nat) (back : Bool) (dst dest : Nat) (block : List Byte) (crc : Nat) (d : Dev) : Dev :=
  let k := resendKey e back dst dest
  let here := edgeTo e back
  if d.rst.held ∨ d.rst.edges.contains e ∨ d.edgeAhead (edgeFrom e back) dst ≠ (e, back) then d
  else if block.length ≠ 4096 ∨ crc32 block ≠ crc then
    if d.edgeSuspended e then d
    else
      let n := SMap.at d.rst.resends k 0
      if 3 ≤ n then (d.setRst { d.rst with resends := SMap.del d.rst.resends k }).edgeFails e
      else (d.setRst { d.rst with resends := SMap.put d.rst.resends k (n + 1) }).send (.selvedgeResend e back dst dest)
  else
    let d := d.setRst { d.rst with resends := SMap.del d.rst.resends k }
    if dst = here then (if placeIn dst dest 4096 then d.poke dest block else d)
    else
      let x := d.edgeAhead here dst
      d.send (.selvedge x.1 x.2 dst dest block)

/-! ## The commands -/

/-- R325: a plan that has just been committed goes to the RECORD channels that subscribe to plans. -/
def Dev.planRecord (d before : Dev) : Dev :=
  match before.plan.ready, d.plan.ready, d.plan.live with
  | some _, none, some p => d.record 1 (p.entries.flatMap PlanEntry.bytes)
  | _, _, _ => d

def execPlanCommit (lastMs : BitVec 16) (s : State) : Host.Outcome State Fault Refusal :=
  runMem s fun _ d => ((d.planCommit lastMs.toNat).planRecord d).managerLost d

def execUncorrectableError (pg : BitVec 20) (src : BitVec 8) (s : State) : Host.Outcome State Fault Refusal :=
  runMem s fun _ d => (d.blockError pg.toNat src.toNat).managerLost d

def execHbmCrcRetry (stack : BitVec 3) (block : BitVec 27) (data : List Byte) (s : State) : Host.Outcome State Fault Refusal :=
  runMem s fun m d => (d.hbmCrcRetry m stack.toNat block.toNat data).managerLost d

def execQuiesceDrainComplete (pg : BitVec 20) (s : State) : Host.Outcome State Fault Refusal :=
  runMem s fun _ d => ((pg.toNat :: containers pg.toNat).foldl Dev.tryQuiesced d).domFinish

def execQuiesceTimeout (pg : BitVec 20) (s : State) : Host.Outcome State Fault Refusal :=
  runMem s fun _ d =>
    if d.bs pg.toNat = Bs.quiescing then ((d.passTo ((d.info pg.toNat).quiesceAt + us (d.info pg.toNat).limit)).cut pg.toNat).domFinish else d

def execPowerOn (s : State) : Host.Outcome State Fault Refusal := runMem s fun _ d => d.powerOn
def execPowerGoodRise (s : State) : Host.Outcome State Fault Refusal := runDev s Dev.powerGood
def execResetN (s : State) : Host.Outcome State Fault Refusal := runMem s fun _ d => d.resetLow
def execResetNRelease (s : State) : Host.Outcome State Fault Refusal := runDev s Dev.resetRelease
def execThermtrip (s : State) : Host.Outcome State Fault Refusal := runMem s fun _ d => d.thermtrip
def execRefclkReturn (s : State) : Host.Outcome State Fault Refusal := runDev s Dev.refclkReturn
def execWatchdog (s : State) : Host.Outcome State Fault Refusal := runMem s fun _ d => d.watchdog
def execLockstep (die : BitVec 2) (s : State) : Host.Outcome State Fault Refusal := runMem s fun _ => Dev.lockstep (1024 * die.toNat)
def execRstSrcReq (r : Requester) (w : BitVec 32) (s : State) : Host.Outcome State Fault Refusal :=
  runDev s fun d => d.action r pgRstSrc 0x084 false (Dev.resetReq w.toNat)
def execDomainReset (dom : BitVec 4) (inst : BitVec 12) (s : State) : Host.Outcome State Fault Refusal :=
  runMem s fun _ => Dev.domainReset dom.toNat inst.toNat
def execResetFrame (port : BitVec 3) (peer : Endpoint) (g : Segment) (s : State) : Host.Outcome State Fault Refusal :=
  runDev s (Dev.resetFrame port.toNat peer g)
def execBringupSl1 (ms : BitVec 16) (f0 f1 f2 : BitVec 6) (s : State) : Host.Outcome State Fault Refusal :=
  runDev s (Dev.sl1 ms.toNat f0.toNat f1.toNat f2.toNat)
def execBringupSl2 (ms : BitVec 16) (s : State) : Host.Outcome State Fault Refusal := runDev s (Dev.sl2 ms.toNat)
def execBringupSl3 (ms : BitVec 16) (s : State) : Host.Outcome State Fault Refusal := runDev s (Dev.sl3 ms.toNat)
def execBringupStopAt (r : Requester) (v : BitVec 2) (s : State) : Host.Outcome State Fault Refusal :=
  runDev s fun d => d.action r pgBringup 0x080 false (Dev.stopAt v.toNat)
def execBringupResume (r : Requester) (s : State) : Host.Outcome State Fault Refusal := runDev s fun d => d.action r pgBringup 0x080 false Dev.bringupResume
def execSelfTestDone (level : BitVec 2) (inst : BitVec 12) (failed : List (BitVec 2 × BitVec 12)) (s : State) : Host.Outcome State Fault Refusal :=
  runMem s fun _ => Dev.selfTest level.toNat inst.toNat (failed.map fun x => (x.1.toNat, x.2.toNat))
def execHbmTrainDone (stack : BitVec 3) (ok : Bool) (s : State) : Host.Outcome State Fault Refusal := runMem s fun _ => Dev.hbmTrain stack.toNat ok
def execFaultMapClear (auth : Bool) (faults : List (BitVec 3 × BitVec 12)) (s : State) : Host.Outcome State Fault Refusal :=
  runDev s (Dev.faultMapClear auth (faults.map fun x => (x.1.toNat, x.2.toNat)))
def execSelvedgeBlockReceive (edge : BitVec 2) (back : Bool) (dst : BitVec 2) (dest : BitVec 48) (block : List Byte) (crc : BitVec 32) (s : State) :
    Host.Outcome State Fault Refusal :=
  runMem s fun _ => Dev.selvedge edge.toNat back dst.toNat dest.toNat block crc.toNat

end Sys2Proof.Machine
end

