-- ==== Sys2Proof/Machine/Steps.lean ====
section
/-! DEFINITION. Training steps: start, vote, decision, step record and resumption (R270 to R286, R292, R343, R495, R500). -/

namespace Sys2Proof.Machine

/-! ## Step records (R281, R383) -/

/-- R314, R383: the two places of step records, coded as DRAFT.SRC: behind the plan table, 2 MiB apart. -/
def Dev.recordSlots (d : Dev) : Nat × Nat × Nat :=
  let t := d.tablePlace
  if t.1 = 2 then (2, t.2 + 16 * 2048, t.2 + 18 * 2048) else (1, 12 * 2 ^ 14, 14 * 2 ^ 14)

/-- R383: the place that the running attempt's record takes: the one that the last decided attempt's does not hold. -/
def Dev.nextRecord (d : Dev) : Nat := if d.g Reg.LEDGER_LAST_ADDR = d.recordSlots.2.1 then d.recordSlots.2.2 else d.recordSlots.2.1

/-- R281: the header of a step record with a given RECORD_CRC. -/
def Dev.recordHead (d : Dev) (decision apply crc : Nat) : List Byte :=
  let hash := ((d.plan.live.map (·.hash)).getD (List.replicate 32 0))
  natLe 4 0x4E585352 ++ natLe 4 0x10000 ++ natLe 8 d.stepNo ++ natLe 4 d.selfAddr ++
    natLe 4 (d.g Reg.STEP_REC_ATTEMPT + 2 ^ 16 * decision + 2 ^ 18 * d.g Reg.STEP_REC_LEDGER_TRUNCATED + 2 ^ 19 * ofB d.forcedMode) ++
    natLe 8 d.stepStart ++ natLe 8 apply ++ natLe 4 d.step.ledger.length ++ natLe 4 (d.g Reg.SIZE_TABLE_ST_CRC_VALUE) ++
    hash ++ ledgerDigest d.step.ledger ++ d.faultDigest ++ d.draftDigest ++
    natLe 4 ((d.plan.live.map (·.timing)).getD 0) ++ natLe 4 (d.g Reg.BEAT_CFG_MAX_LATE) ++ natLe 4 0 ++ natLe 4 crc

/-- R281: the record of the running attempt: the header and the ledger's entries; RECORD_CRC covers both with itself taken as zero. -/
def Dev.stepRecord (d : Dev) (decision apply : Nat) : List Byte :=
  let entries := d.step.ledger.flatMap LedgerEntry.bytes
  d.recordHead decision apply (crc32 (d.recordHead decision apply 0 ++ entries)) ++ entries

/-! ## Start (R265, R270, R286) -/

/-- R283: entries in strictly ascending order of their keys, each range maximal. -/
def canonicalLedger (l : List LedgerEntry) : Bool := (l.zip (l.drop 1)).all (fun p => keyLt p.1.key p.2.key) && joinEntries l == l

/-- R279, R286: the ledger that a forced step is given, none where it is refused. -/
def Dev.suppliedLedger (d : Dev) (m : Mem) : Option (List LedgerEntry) :=
  let n := d.g Reg.STEP_REC_FORCE_COUNT
  let b := d.srcBytes m 2 (d.g Reg.STEP_REC_FORCE_BLOCK) (32 * n)
  let es := (List.range n).map fun i => (b.drop (32 * i)).take 32
  let l := es.map entryOf
  if canonicalLedger l && d.recov.ledgerDigest == some (shake256 (es.flatMap (zeroed · 24))) then some l else none

/-- The marks that a new attempt keeps: those of ports still in service (R272). -/
def Dev.dropStaleMarks (d : Dev) : Dev := { d with beat := { d.beat with marks := d.beat.marks.filter fun pk => d.portLive pk.1, lateSent := false } }

/-- R270, R383: the registers of an attempt that begins in beat `b`. -/
def Dev.attemptRegs (d : Dev) (b : Nat) : Dev :=
  let d := (d.p64 Reg.STEP_REC_START_LO Reg.STEP_REC_START_HI b).p Reg.STEP_REC_STATE_PHASE 1
  let d := (d.p Reg.STEP_REC_STATE_VOTE 0).p Reg.STEP_REC_STATE_AGG 0
  let d := (d.p Reg.STEP_REC_LEDGER_TRUNCATED 0).p Reg.BEAT_CFG_MAX_LATE 0
  d.p Reg.LEDGER_CUR_ADDR d.nextRecord

/-- R341, R344: the first attempt of a step begins with ROUND, DIRTY_RUN and the NAN rule's memory cleared. -/
def Dev.firstAttempt (d : Dev) : Dev :=
  if d.g Reg.STEP_REC_ATTEMPT ≠ 0 then d
  else { (d.p Reg.WATCH_STATE_ROUND 0).p Reg.WATCH_STATE_DIRTY_RUN 0 with plan := { d.plan with nanRound := none } }

/-- R265, R286, R292: an attempt of a draft of several packages begins only under lock, and a forced one only with its ledger. -/
def Dev.startVote (d : Dev) (m : Mem) : Dev :=
  let d := if ! Dr.single d.plan.draft && d.lockState != 2 then d.voteFail else d
  if ! d.forcedMode then d
  else match d.suppliedLedger m with
    | some l => { d with step := { d.step with forced := l } }
    | none => d.voteFail

/-- R291, R319: steps may begin: the draft runs, or a re-plan changes at most the timing part of its plan. -/
def Dev.mayRun (d : Dev) : Bool :=
  d.g Reg.DRAFT_STATUS_STATE == 4 || (d.g Reg.DRAFT_STATUS_STATE == 5 && d.plan.causes.all fun c => c == 4 || c == 5)

/-- STEP_START: the beat in which the next step begins has come, and its plan is live. -/
def Dev.stepBegin (m : Mem) (d : Dev) : Dev :=
  match d.step.next, d.plan.live, d.self with
  | some b, some _, some _ =>
    if ! d.beatSeen || d.stepOpen || decide (d.beatNum < b) || ! d.mayRun then d
    else
      let fresh : StepSt := { carries := d.step.carries, lastRecord := d.step.lastRecord }
      let d : Dev := { d with step := fresh, spoiled := false, route := { d.route with landed := [], sent := [], asked := [] } }
      (((d.dropStaleMarks.attemptRegs b).firstAttempt).ledgerView).startVote m
  | _, _, _ => d

/-! ## Vote (R271, R272, R342, R380, R495) -/

/-- R380: the decode of every shard the package owns has ended. -/
def Dev.decodesEnded (d : Dev) : Bool :=
  (List.range (Dr.nReductions d.plan.draft)).all fun i => ! d.ownsBlocks i || d.step.decoded.contains (Dr.rId d.plan.draft i)

/-- R339: the attempt has been evaluated where a policy table asks for it. -/
def Dev.evaluatedAll (d : Dev) : Bool := d.plan.policy.isEmpty || d.step.evaluated

/-- R143, R271: every tile of the package has passed its check: none is in a cloth queue, popped or recomputed. -/
def Dev.tilesChecked (d : Dev) : Bool :=
  d.units.all (fun x => x.2.pops == 0 && ! x.2.mmWait && ! x.2.recomputing && x.2.cq.all fun q => q.2.st == 0) &&
    d.clusters.all fun x => x.2.mmQueue.isEmpty

/-- STEP_VOTE: the step's work has ended, finished or not. An unfinished one is voted REPLAY at once; OK waits for every decode, evaluation, save point
and check. -/
def Dev.stepVote (finished : Bool) (d : Dev) : Dev :=
  if ! d.stepOpen then d
  else if d.g Reg.STEP_REC_STATE_VOTE ≠ 0 then
    { d with step := { d.step with dirty := d.step.dirty || d.spoiled || ! finished } }
  else if d.spoiled || ! finished then d.voteFor 2 true
  else if ! d.decodesEnded || ! d.evaluatedAll || d.drainHeld || ! d.tilesChecked then d
  else d.voteFor 1 false

/-- DRAIN_HOLD_EXPIRY: DRAIN_HOLD beats after the planned end the save point is no longer waited for. -/
def Dev.drainHoldExpiry (finished : Bool) (d : Dev) : Dev :=
  if d.stepOpen ∧ d.drainHeld ∧ d.stepStart + d.g Reg.PLAN_RB_N_BEATS + d.g Reg.PARTNER_DRAIN_HOLD ≤ d.beatNum then
    let d := d.abandonDrains
    if finished then d.stepVote true else d
  else d

/-! ## The tree (R259, R272) -/

/-- The low word of the running step's number, as markers carry it. -/
def Dev.markStep (d : Dev) : Nat := d.g Reg.STEP_REC_STEP_LO

/-- R259: a marker from a package whose upstream this one is: it carries the adopted claim one hop further on. -/
def Dev.isChild (d : Dev) (pk : Nat × Mark) : Bool :=
  pk.1 != d.g Reg.BEAT_LOCK_UPSTREAM && pk.2.claim == (d.g Reg.BEAT_LOCK_SOURCE_PRIO, d.g Reg.BEAT_LOCK_SOURCE) &&
    pk.2.m.hops.toNat == d.g Reg.BEAT_LOCK_HOPS + 1

/-- The latest marker of each downstream package. -/
def Dev.children (d : Dev) : List (Nat × Mark) :=
  (d.beat.marks.filter d.isChild).filter fun pk =>
    d.beat.marks.all fun q => q.2.m.self != pk.2.m.self || decide (q.2.heardAt < pk.2.heardAt) || (q.2.heardAt == pk.2.heardAt && decide (pk.1 ≤ q.1))

/-- R272: a downstream aggregate of the running step is complete. -/
def Dev.childComplete (d : Dev) (k : Mark) : Bool := k.m.complete && k.m.step.toNat == d.markStep

/-- VOTE_TIMEOUT: VOTE_LIMIT beats after the planned end a downstream aggregate that is not complete counts as FAIL. -/
def Dev.voteTimeout (port : Nat) (d : Dev) : Dev :=
  match SMap.find d.beat.marks port with
  | none => d
  | some k =>
    if ! d.stepOpen || d.step.dec.isSome || ! d.isChild (port, k) || d.childComplete k || d.step.silent.contains port ||
        decide (d.beatNum < d.stepStart + d.g Reg.PLAN_RB_N_BEATS + d.g Reg.BEAT_CFG_VOTE_LIMIT) then d
    else
      { d with step := { d.step with silent := d.step.silent ++ [port] } }.raise pgPartner 0x0D01 8 Sev.warn (k.m.self.toNat + 2 ^ 18)

/-! ## Decisions (R273, R274, R281, R343) -/

/-- R281, R377: the attempt closes: what is missing is entered, the record is written, saved and sent, and the decision is reported. -/
def Dev.closeAttempt (d : Dev) (decision apply : Nat) : Dev :=
  let d := d.settleMissing
  let r := d.stepRecord decision apply
  let cur := d.g Reg.LEDGER_CUR_ADDR
  let d := match d.srcAddr d.recordSlots.1 cur with | some a => d.poke a r | none => d
  let d := (d.p Reg.LEDGER_LAST_ADDR cur).record 0 r
  let d : Dev := if decision = 1 then { d with step := { d.step with lastRecord := r } } else d
  let d := (d.p Reg.STEP_REC_STATE_DECISION decision).p Reg.STEP_REC_STATE_PHASE 3
  d.raise pgStepRec 0x060A 8 Sev.info (decision + 4 * d.g Reg.STEP_REC_ATTEMPT)

/-- R292: the next attempt begins in beat `a`, unless RUN = 0 has stopped the draft. -/
def Dev.afterDecision (d : Dev) (a : Option Nat) : Dev :=
  if d.g Reg.DRAFT_RUN = 0 then
    let d := if d.g Reg.DRAFT_STATUS_STATE = 4 then d.p Reg.DRAFT_STATUS_STATE 3 else d
    { d with step := { d.step with next := none, dec := none } }
  else { d with step := { d.step with next := a, dec := none } }

/-- R347: whether a tensor belongs to a layer whose update is skipped: a slot entry names it with the layer. -/
def Dev.skipped (d : Dev) (t : Nat) : Bool :=
  let p := d.plan.policy
  (List.range (Pol.nSlots p)).any fun i => Pol.slTensor p i == t && d.plan.skips.contains (Pol.slLayer p i)

/-- R274, R343, R347: the second buffer of every WEIGHT and STATE tensor becomes its live one; a skipped layer's tensors keep the buffer they had. -/
def Dev.flipState (d : Dev) : Dev :=
  let b := d.plan.draft
  let ts := (((List.range (Dr.nTensors b)).filter fun i => decide (Dr.tKind b i ≤ 1)).map (Dr.tId b)).filter (! d.skipped ·)
  let f := ts.foldl (fun (f : List Nat) t => if f.contains t then f.filter (· != t) else f ++ [t]) d.plan.flipped
  { d with plan := { d.plan with flipped := f } }

/-- R274, R337, R379, R442, R443, R490: what a COMMIT makes live. -/
def Dev.commitStep (d : Dev) (a : Nat) : Dev :=
  let s := d.stepNo
  let d := if d.g Reg.PARTNER_ATTIC_STATE = 1 then d.p Reg.PARTNER_ATTIC_STATE 3 else d
  let d := (d.step.second.foldl (fun (d : Dev) x => d.poke x.1 x.2) { d with step := { d.step with second := [] } })
  let d := ((d.flipState.commitCarries).numericCommit).holdOutputs s
  let d : Dev := { d with host := { d.host with inputs := d.host.inputs.filter fun x => decide (s < x.step) } }
  let d := (d.p64 Reg.STEP_REC_STEP_LO Reg.STEP_REC_STEP_HI (s + 1)).p Reg.STEP_REC_ATTEMPT 0
  (d.startDrain s).afterDecision (some a)

/-- R343: an attempt is abandoned; `dirty` is the system DIRTY. -/
def Dev.replayStep (d : Dev) (dirty : Bool) (a : Nat) : Dev :=
  let d : Dev := { d with step := { d.step with second := [] } }
  let d := (d.replayCarries).numericReplay dirty
  (d.bump Reg.STEP_REC_ATTEMPT 0).afterDecision (some a)

/-- R274, R343: the step waits for the restore that the host declares. -/
def Dev.recoverStep (d : Dev) : Dev :=
  let d : Dev := { d with step := { d.step with second := [] } }
  let d := (d.replayCarries).numericRecover
  (d.bump Reg.STEP_REC_ATTEMPT 0).afterDecision none

/-- A decision of a code is due: its apply beat has begun. -/
def Dev.decisionDue (d : Dev) (code : Nat) : Option (Bool × Nat) :=
  match d.step.dec with
  | some (c, dirty, a) => if c = code ∧ a ≤ d.beatNum ∧ d.stepOpen then some (dirty, a) else none
  | none => none

def Dev.stepCommit (d : Dev) : Dev :=
  match d.decisionDue 1 with | some x => (d.closeAttempt 1 x.2).commitStep x.2 | none => d
def Dev.stepReplay (d : Dev) : Dev :=
  match d.decisionDue 2 with | some x => (d.closeAttempt 2 x.2).replayStep x.1 x.2 | none => d
def Dev.stepRecover (d : Dev) : Dev :=
  match d.decisionDue 3 with | some x => (d.closeAttempt 3 x.2).recoverStep | none => d

/-! ## Resumption (R500, R501) -/

/-- RESTORE_RESUME: RESUME_BEAT has come and the package is READY for it. -/
def Dev.restoreResume (m : Mem) (d : Dev) : Dev :=
  let b := d.g64 Reg.RESTORE_RESUME_BEAT_LO Reg.RESTORE_RESUME_BEAT_HI
  if d.g Reg.RESTORE_STATE ≠ 3 ∨ ! d.beatSeen ∨ d.beatNum < b ∨ d.stepOpen then d
  else
    let d := match d.recov.restored with
      | some s => (d.p64 Reg.STEP_REC_STEP_LO Reg.STEP_REC_STEP_HI (s + 1)).p Reg.STEP_REC_ATTEMPT 0
      | none => d
    let d : Dev := { d with recov := { d.recov with restored := none }, step := { d.step with next := some b } }
    ((d.p Reg.RESTORE_STATE 5).p Reg.DRAFT_STATUS_STATE 4).stepBegin m

/-! ## The commands -/

def execStepStart (s : State) : Host.Outcome State Fault Refusal := runDev s (Dev.stepBegin s.mem)
def execStepVote (finished : Bool) (s : State) : Host.Outcome State Fault Refusal := runDev s (Dev.stepVote finished)
def execDrainHoldExpiry (finished : Bool) (s : State) : Host.Outcome State Fault Refusal := runDev s (Dev.drainHoldExpiry finished)
def execVoteTimeout (port : BitVec 5) (s : State) : Host.Outcome State Fault Refusal := runDev s (Dev.voteTimeout port.toNat)
def execStepCommit (s : State) : Host.Outcome State Fault Refusal := runMem s fun _ => Dev.stepCommit
def execStepReplay (s : State) : Host.Outcome State Fault Refusal := runMem s fun _ => Dev.stepReplay
def execStepRecover (s : State) : Host.Outcome State Fault Refusal := runMem s fun _ => Dev.stepRecover
def execRestoreResume (s : State) : Host.Outcome State Fault Refusal := runDev s (Dev.restoreResume s.mem)

end Sys2Proof.Machine
end

