-- ==== Sys2Proof/Machine/Boundary.lean ====
section
/-! DEFINITION. What happens at a beat boundary (R73, R244, R248, R252, R255, R272, R273, R394). -/

namespace Sys2Proof.Machine

/-! ## The beat that begins (R63, R244, R248, R560) -/

/-- R560: the first boundary begins beat 0; every later one counts. -/
def Dev.nextBeat (d : Dev) : Dev :=
  let n := if d.beatSeen then d.beatNum + 1 else d.beatNum
  let d := { d.p64 Reg.BEAT_CFG_BEAT_NUM_LO Reg.BEAT_CFG_BEAT_NUM_HI n with beatSeen := true, boundary := d.now }
  (d.p Reg.BEAT_CFG_PHASE 0).p Reg.BEAT_CFG_STATUS_WINDOW (d.windowAt 0)

/-- R63: blocks of the running plan enter a quiesce that was asked for. -/
def Dev.quiesceWaiting (d : Dev) : Dev :=
  (d.pages.filter fun (x : Nat × PageInfo) => x.2.waitBoundary).foldl (fun (d : Dev) x => d.quiesce x.1) d

/-- A live value changes under a shadow set that keeps what it shows. -/
def Dev.setLive (d : Dev) (f : Field) (v : Nat) : Dev :=
  let keep := d.sh f 0
  (d.p f v).shadowSet f (f.pg 0) 0 keep

/-- R248: the waiting PERIOD, T_X and T_S apply at the boundary that begins APPLY_BEAT. -/
def Dev.applyBeat (d : Dev) : Dev :=
  match d.beat.pend with
  | none => d
  | some (b, per, tx, ts) =>
    if d.beatNum < b then d
    else
      let d := ((d.setLive Reg.BEAT_CFG_PERIOD per).setLive Reg.BEAT_CFG_T_X tx).setLive Reg.BEAT_CFG_T_S ts
      let d := { d.p Reg.BEAT_CFG_STATUS_PENDING 0 with beat := { d.beat with pend := none } }
      (d.p Reg.BEAT_CFG_STATUS_WINDOW (d.windowAt 0)).raise pgBeatCfg 0x0607 8 Sev.info per

/-! ## Lateness (R252, R255) -/

/-- R252: the lateness of a unit. -/
def Dev.unitLate (d : Dev) (u : Nat) (x : UnitSt) : Nat := if [2, 4].contains (d.rd Reg.SEQ_STATE_SEQ u) then d.beatNum - x.winBeat else 0

def Dev.lateness (d : Dev) : Dev :=
  let late := sat 16 ((d.units.map fun (u : Nat × UnitSt) => d.unitLate u.1 u.2).foldl max 0)
  let limit := d.g Reg.BEAT_CFG_LATE_LIMIT
  let was := d.g Reg.BEAT_CFG_LATE_BEATS
  let d := (d.p Reg.BEAT_CFG_LATE_BEATS late).p Reg.BEAT_CFG_MAX_LATE (max late (d.g Reg.BEAT_CFG_MAX_LATE))
  if late ≤ limit then d
  else (if was ≤ limit then d.raise pgBeatCfg 0x0609 10 Sev.error late else d).voteFail

/-! ## The aggregate and the decision (R272, R273, R342) -/

/-- An aggregate: the largest vote, whether it is complete, its DIRTY, the largest HOPS of its subtree. -/
structure Aggregate where
  vote : Nat
  complete : Bool
  dirty : Bool
  hops : Nat
  deriving DecidableEq, Repr

/-- A package's own share; one that runs no step of the draft holds nobody up. -/
def Dev.ownShare (d : Dev) : Aggregate :=
  let h := d.g Reg.BEAT_LOCK_HOPS
  if d.self.isNone then ⟨1, true, false, h⟩
  else if ! d.stepOpen then ⟨0, false, false, h⟩
  else
    let v := d.g Reg.STEP_REC_STATE_VOTE
    ⟨v, v != 0, d.step.dirty || d.spoiled, h⟩

/-- R272: the running step that the package's marker names; a package without one relays its upstream's. -/
def Dev.treeStep (d : Dev) : Nat :=
  if d.self.isNone then ((SMap.find d.beat.marks (d.g Reg.BEAT_LOCK_UPSTREAM)).map (·.m.step.toNat)).getD 0 else d.markStep

/-- R272: the share of a downstream package, by the port of its latest marker. -/
def Dev.childShare (d : Dev) (pk : Nat × Mark) : Aggregate :=
  let k := pk.2.m
  if d.step.silent.contains pk.1 then ⟨3, true, true, k.maxHops.toNat⟩
  else if k.step.toNat = d.treeStep then ⟨k.vote.toNat, k.complete, k.dirty, k.maxHops.toNat⟩
  else ⟨0, false, false, k.maxHops.toNat⟩

def Aggregate.join (a b : Aggregate) : Aggregate := ⟨max a.vote b.vote, a.complete && b.complete, a.dirty || b.dirty, max a.hops b.hops⟩

/-- R272: the aggregate that the package sends upstream. A draft of one package stands alone (R265). -/
def Dev.aggregate (d : Dev) : Aggregate :=
  if Dr.single d.plan.draft then { d.ownShare with hops := 0 }
  else (d.children.map d.childShare).foldl Aggregate.join d.ownShare

/-- R273: who decides: the source, a package alone under its draft, and one that follows nobody. -/
def Dev.isRoot (d : Dev) : Bool := Dr.single d.plan.draft || d.beat.source || d.lockState == 0

/-- R273: the source decides in the beat in which its aggregate is complete. -/
def Dev.decide' (d : Dev) (a : Aggregate) : Dev :=
  if d.stepOpen && d.isRoot && a.complete && d.step.dec.isNone then
    { d with step := { d.step with dec := some (a.vote, a.dirty, d.beatNum + a.hops + 2) } }
  else d

def Dev.voteTree (d : Dev) : Dev :=
  let a := d.aggregate
  let d := if d.stepOpen then d.p Reg.STEP_REC_STATE_AGG a.vote else d
  d.decide' a

/-! ## Markers (R394) -/

/-- R273: the decision that the package's marker carries down: code, DIRTY and apply beat. -/
def Dev.sentDecision (d : Dev) : Nat × Bool × Nat :=
  match d.self, d.step.dec with
  | some _, some x => x
  | some _, none => (0, false, 0)
  | none, _ =>
    match SMap.find d.beat.marks (d.g Reg.BEAT_LOCK_UPSTREAM) with
    | some k => (k.m.decision.toNat, k.m.decDirty, k.m.apply.toNat)
    | none => (0, false, 0)

/-- R394: the marker of a port. -/
def Dev.markerOf (d : Dev) (a : Aggregate) (p : Nat) : Marker :=
  let x := d.sentDecision
  { prio := BitVec.ofNat 8 d.sentClaim.1, hops := BitVec.ofNat 7 (d.g Reg.BEAT_LOCK_HOPS), port := BitVec.ofNat 6 p,
    source := BitVec.ofNat 18 d.sentClaim.2, beat := BitVec.ofNat 64 d.beatNum, period := BitVec.ofNat 8 (d.g Reg.BEAT_CFG_PERIOD),
    vote := BitVec.ofNat 2 a.vote, complete := a.complete, dirty := a.dirty, decision := BitVec.ofNat 2 x.1, decDirty := x.2.1,
    maxHops := BitVec.ofNat 7 a.hops, step := BitVec.ofNat 32 d.treeStep, apply := BitVec.ofNat 64 x.2.2, sendOffset := 0,
    self := BitVec.ofNat 18 d.selfAddr }

/-- R258, R394: every port in UP or DEGRADED sends one marker at the boundary. -/
def Dev.sendMarkers (d : Dev) : Dev :=
  let a := d.aggregate
  d.livePorts.foldl (fun (d : Dev) p => d.send (.marker p (d.markerOf a p))) d

/-! ## The boundary -/

/-- BEAT_BOUNDARY: the next beat boundary comes. -/
def Dev.beatBoundary (m : Mem) (d : Dev) : Dev :=
  if ! d.timerOn then d
  else
    let d := d.passTo d.nextBoundary
    let d := (if d.beatSeen then d.deliverEvents else d).nextBeat
    let d := (d.quiesceWaiting.applyBeat).lateness
    let d := d.sourceWithdraws.elect.voteTree.sendMarkers
    ((d.mapPositions.powerBoundary).peersGone.controlAreas m).startWays

def execBeatBoundary (s : State) : Host.Outcome State Fault Refusal := runMem s Dev.beatBoundary

end Sys2Proof.Machine
end

