-- ==== Sys2Proof/Machine/Scrub.lean ====
section
/-! DEFINITION. Scrubbing and patrol in the slack window (R217, R223, R256). -/

namespace Sys2Proof.Machine

/-- R217: one scrub read, in a slack window (R256), of a local store or a larder; a line that held a corrected word is written back with new check
bits, its bytes unchanged. -/
def Dev.scrubLine (larder : Bool) (inst line : Nat) (ecc : Ecc) (d : Dev) : Dev :=
  let en := if larder then d.rd Reg.LARDER_SCRUB_EN inst else d.rd Reg.LSTORE_SCRUB_EN inst
  let n := if larder then 262144 else 8192
  if en = 0 ∨ ! d.slackOpen ∨ n ≤ line then d
  else
    let d := if larder then d.larderEcc ecc inst line else d.lsEcc ecc inst line
    if line + 1 = n then
      (if larder then d.count Reg.LARDER_SCRUB_PASSES inst else d.count Reg.LSTORE_SCRUB_PASSES inst)
    else d

/-- R223: one patrol read of a block of the used partitions; `passEnd` says that it is the last of a pass. -/
def Dev.patrolRead (stack block : Nat) (passEnd : Bool) (d : Dev) : Dev :=
  let i := hbmInst stack
  if 8 ≤ stack ∨ d.rd Reg.HBM_CTL_PATROL_EN i = 0 ∨ d.rd Reg.HBM_CTL_STATE i ≠ 2 ∨ ! d.slackOpen ∨
      (d.partitionOf stack (block / 32768)).isNone then d
  else if passEnd then d.count Reg.HBM_CTL_PATROL_PASSES i else d

def execScrubLine (larder : Bool) (inst : BitVec 12) (line : BitVec 18) (ecc : Ecc) (s : State) :
    Host.Outcome State Fault Refusal :=
  runMem s (fun _ => Dev.scrubLine larder inst.toNat line.toNat ecc)

def execPatrolRead (stack : BitVec 3) (block : BitVec 27) (passEnd : Bool) (s : State) : Host.Outcome State Fault Refusal :=
  runDev s (Dev.patrolRead stack.toNat block.toNat passEnd)

end Sys2Proof.Machine
end

