-- ==== Sys2Proof/Machine/RegBus.lean ====
section
/-! DEFINITION. Register accesses by address: every read and write, REG messages and the test port (R37 to R50, R59, R437,
R438, R554). -/

namespace Sys2Proof.Machine

/-! ## Words and their fields (R39, R41, R42) -/

/-- Which copy of a field stands at an offset. -/
def Field.copyAt (f : Field) (off : Nat) : Option Nat :=
  if off < f.off then none
  else if f.n = 1 then (if off = f.off then some 0 else none)
  else if (off - f.off) % max 1 f.stride = 0 ∧ (off - f.off) / max 1 f.stride < f.n then some ((off - f.off) / max 1 f.stride)
  else none

/-- R409, R448: the words that stand on L0 or on H4 alone. -/
def wordHere (pg off : Nat) : Bool :=
  if pgClass pg = 6 ∧ pgPage pg = 2 ∧ off < 0x0C0 then pgInst pg == linkInst 0
  else if pgClass pg = 7 ∧ pgPage pg = 2 ∧ 0x0C0 ≤ off then pgInst pg == hostInst 4
  else true

/-- The fields of a word, with the copy that stands there. -/
def wordFields (pg off : Nat) : List (Field × Nat) :=
  let fs := if off < 128 then Hdr.all else if wordHere pg off then Reg.all.filter fun f => f.cls == pgClass pg && f.page == pgPage pg else []
  fs.filterMap fun f => (f.copyAt off).map fun i => (f, i)

/-! ## Reads (R44, R46, R50, R557) -/

/-- What some fields read, brought up to now: the wall time (R448), a port's MAC address (R414), the test word (R357). -/
def Dev.viewFor (d : Dev) (pg : Nat) : Dev :=
  let i := pgInst pg
  match pgClass pg, pgPage pg with
  | 7, 3 => d.wallView
  | 7, 0 =>
    let a := d.macOf (dieOf i + 4 * (i % 2))
    (d.wr Reg.HOST_MAC_MAC_LO i a).wr Reg.HOST_MAC_MAC_HI i (a / 2 ^ 32)
  | 10, 1 => d.p Reg.SR_SEED_TEST_WORD d.testWord
  | _, _ => d

/-- R41, R50: what a field reads. -/
def Dev.fieldRead (d : Dev) (pg : Nat) (fi : Field × Nat) : Nat :=
  match fi.1.acc with
  | .wo => 0
  | .sh => if d.hd Hdr.CTL_SHADOW_VIEW pg = 1 then d.shadowGet fi.1 pg fi.2 else d.get fi.1 pg fi.2
  | _ => match SMap.find d.latch (fi.1.key pg fi.2) with | some w => w.toNat | none => d.get fi.1 pg fi.2

/-- R46, R557: the header words that follow from the page number, and the bits of others that follow from the block. -/
def Dev.headerBits (d : Dev) (pg off : Nat) : Nat :=
  if off = 0x000 then 2 ^ 28 * pgClass pg + 2 ^ 16 * pgInst pg + 2 ^ 12 * pgPage pg + 16 * pgClass pg + pgPage pg
  else if off = 0x004 then 0x100
  else if off = 0x008 then ofB (capShadow pg) * 17 + ofB (capLock pg) * 2 + ofB (capQuiesce pg) * 12
  else if off = 0x014 then 2 ^ 16 * sat 16 ((d.openReqs pg).1 + (d.openReqs pg).2)
  else if off = 0x038 then ofB (capLock pg && ! [Bs.off, Bs.idle, Bs.quiesced].contains (d.bs pg))
  else 0

/-- The value of a word. -/
def Dev.wordRead (d : Dev) (pg off : Nat) : Nat :=
  let fs := (wordFields pg off).filter fun fi => ! (decide (off < 128) && (fi.1 == Hdr.ID_TYPE || fi.1 == Hdr.OUTSTANDING))
  d.headerBits pg off + (fs.map fun fi => d.fieldRead pg fi * 2 ^ fi.1.lo).sum

/-- R249, R448, R525: each .LO field and the fields that a read of it latches. -/
def latchPairs : List (Field × List Field) :=
  [(Reg.BEAT_CFG_BEAT_NUM_LO, [Reg.BEAT_CFG_BEAT_NUM_HI]),
   (Reg.HOST_PTP_TAI_SEC_LO, [Reg.HOST_PTP_TAI_SEC_HI, Reg.HOST_PTP_TAI_NS]),
   (Reg.ENERGY_REC_SEQ_LO, [Reg.ENERGY_REC_SEQ_HI]), (Reg.ENERGY_REC_OLDEST_LO, [Reg.ENERGY_REC_OLDEST_HI]),
   (Reg.ENERGY_REC_FETCH_SEQ_LO, [Reg.ENERGY_REC_FETCH_SEQ_HI]), (Reg.ENERGY_REC_SIGNED_LO, [Reg.ENERGY_REC_SIGNED_HI])]

/-- The fields that a read of a word latches. -/
def latchedBy (pg off : Nat) : List Field :=
  ((latchPairs.find? fun x => x.1.cls == pgClass pg && x.1.page == pgPage pg && x.1.off == off).map (·.2)).getD []

def Dev.latchWord (d : Dev) (pg off : Nat) : Dev :=
  { d with latch := (latchedBy pg off).foldl (fun l f => SMap.put l (f.key pg 0) (BitVec.ofNat 32 (d.get f pg 0))) d.latch }

/-- A register read: its completion code and its value. `uerr` says that it meets an uncorrectable error (R43). -/
def Dev.busRead (r : Requester) (addr : Nat) (uerr : Bool) (d : Dev) : Nat × Nat × Dev :=
  match d.refusal r addr false with
  | some c => (c, 0, d)
  | none =>
    if uerr then (Cc.uerr, 0, d)
    else
    let pg := addr / 4096
    let v := d.viewFor pg
    (Cc.done, v.wordRead pg (addr % 4096), v.latchWord pg (addr % 4096))

/-! ## Writes that ask for an action (R41) -/

/-- What an action is: whether it starts work of its block (R63), and what it does. -/
abbrev Act := Option (Bool × (Dev → Nat × Dev))

def act (work : Bool) (f : Dev → Nat × Dev) : Act := some (work, f)
def actDo (f : Dev → Dev) : Act := some (false, fun d => (Cc.done, f d))

/-- At most one of several action bits of a word may be written as 1 (R43). -/
def oneOf (w : Nat) (as : List (Nat × Bool × (Dev → Nat × Dev))) : Act :=
  match as.filter fun a => bit w a.1 with
  | [] => actDo id
  | [a] => some a.2
  | _ => act false fun d => (Cc.unsupported, d)

/-- Header words whose write acts (R46, R48, R72). -/
def headerAct (m : Mem) (pg off w : Nat) : Act :=
  if off = 0x010 then act false fun d => d.ctlWrite pg (bit w 0) (bit w 1) (bit w 2) (bit w 3)
  else if off = 0x018 then actDo (Dev.evtClear pg w)
  else if off = 0x020 then actDo fun d => if bit w 31 then d.cerrClr pg else d
  else if off = 0x024 then actDo fun d => if bit w 31 then d.uerrClr pg else d
  else if off = 0x030 then act false (Dev.armWrite m pg (bit w 0) (bit w 1) (bits w 8 6) none)
  else if off = 0x038 then actDo fun d => if bit w 1 then d.hw Hdr.LOCK_REFUSED pg 0 else d
  else none

/-- Words of units, clusters, regions whose write acts. -/
def unitAct (pg off w : Nat) : Act :=
  let i := pgInst pg
  let clr := fun f => if bit w 0 then actDo f else actDo id
  match pgClass pg, pgPage pg, off with
  | 1, 0, 0x08C => oneOf w [(0, true, Dev.seqStart i)]
  | 1, 0, 0x0B4 => clr fun d => d.seqCntClr i
  | 1, 1, 0x0F4 => clr fun d => d.clearFields i matrixCounters
  | 1, 1, 0x0F8 => act false fun d => d.matrixTestRun i (bit w 0)
  | 1, 2, 0x140 => actDo fun d =>
      let d := if bit w 0 then d.clearFields i vectorCounters else d
      if bit w 1 then d.clearFields i vectorStats else d
  | 1, 4, 0x08C => oneOf w [(0, true, Dev.fillGo i)]
  | 2, 2, 0x084 => oneOf w [(4, true, fun d => d.kickGo false i (bits w 0 4))]
  | 3, 4, 0x084 => oneOf w [(4, true, fun d => d.kickGo true i (bits w 0 4))]
  | 3, 3, 0x100 => clr fun d => d.compressCntClr i
  | _, _, _ => none

/-- Words of link and host ports whose write acts. -/
def portAct (m : Mem) (pg off w : Nat) : Act :=
  let i := pgInst pg
  let l := dieOf i * 8 + i % 32
  let h := dieOf i + 4 * (i % 2)
  let clr := fun f => if bit w 0 then actDo f else actDo id
  match pgClass pg, pgPage pg, off with
  | 6, 0, 0x088 => oneOf w [(0, true, fun d => (Cc.done, d.linkRetry l))]
  | 6, 2, 0x08C => if i = linkInst 0 then oneOf w [(0, true, Dev.routeLoad m)] else actDo id
  | 6, 3, 0x08C => clr fun d => d.linkErrClr l
  | 7, 0, 0x0A0 => clr fun d => d.hostMacClr h
  | 7, 1, 0x09C => clr fun d => d.hostSecClr h
  | 7, 2, 0x0B8 => clr fun d => d.hostXportClr h
  | _, _, _ => none

/-- Words of package pages whose write acts; `session` is that of the REG channel that asks. -/
def packageAct (m : Mem) (session pg off w : Nat) : Act :=
  let clr := fun f => if bit w 0 then actDo f else actDo id
  match pgClass pg, pgPage pg, off with
  | 0, 3, 0x080 => act false (Dev.groupWrite m (bits w 0 3) (bit w 8) (bit w 9) (bits w 16 6))
  | 9, 0, 0x090 => oneOf w [(0, true, Dev.draftLoad m), (1, false, Dev.draftAbort)]
  | 10, 2, 0x094 => clr Dev.watchCntClr
  | 11, 0, 0x0A0 => clr Dev.exchCntClr
  | 14, 0, 0x088 => oneOf w [(0, true, Dev.fwStage m), (1, true, Dev.fwConfirm), (2, true, Dev.keyGo)]
  | 14, 2, 0x0A0 => oneOf w [(0, true, Dev.attestRequest)]
  | 14, 3, 0x0C0 => oneOf w [(0, true, Dev.energyFetch session)]
  | 15, 0, 0x084 => act false (Dev.resetReq w)
  | 15, 1, 0x080 => act false fun d =>
      let d := (d.stopAt (bits w 2 2)).2
      if bit w 9 then d.bringupResume else (Cc.done, d)
  | _, _, _ => none

def actionOf (m : Mem) (session pg off w : Nat) : Act :=
  if off < 128 then headerAct m pg off w
  else match unitAct pg off w with
    | some a => some a
    | none => match portAct m pg off w with
      | some a => some a
      | none => packageAct m session pg off w

/-! ## Plain writes (R41, R50, R55, R59) -/

/-- R58: a word of an armed commit group. -/
def Dev.groupWord (d : Dev) (pg off : Nat) : Bool :=
  pg == pgCommit && ((decide (0x0C0 ≤ off ∧ off < 0x0E0) && d.groupArmed ((off - 0x0C0) / 4)) ||
    (decide (0x400 ≤ off ∧ off < 0x800) && d.groupArmed ((off - 0x400) / 128)))

/-- R41: a field takes its bits of a written word. -/
def Dev.fieldWrite (w pg : Nat) (d : Dev) (fi : Field × Nat) : Dev :=
  let v := bits w fi.1.lo fi.1.width
  match fi.1.acc with
  | .ro => d
  | .sh => d.shadowSet fi.1 pg fi.2 v
  | .w1c => d.set fi.1 pg fi.2 (d.get fi.1 pg fi.2 &&& (2 ^ fi.1.width - 1 - v))
  | _ => { d with latch := SMap.del d.latch (fi.1.key pg fi.2) }.set fi.1 pg fi.2 v

/-- R59: an LK word is open in OFF, IDLE and QUIESCED. -/
def Dev.lkOpen (d : Dev) (pg : Nat) : Bool := [Bs.off, Bs.idle, Bs.quiesced].contains (d.bs pg)

/-- A write to a word without an action, by the access codes of its fields. -/
def Dev.plainWrite (d : Dev) (pg off w : Nat) : Nat × Dev :=
  let fs := wordFields pg off
  let st := d.hd Hdr.STAT_STATUS pg
  if fs.any (fun fi => fi.1.acc == .lk) && ! d.lkOpen pg then (Cc.locked, d.lockRefused pg off)
  else if fs.any (fun fi => fi.1.acc == .sh) && (st == St.armed || st == St.grouped) then (Cc.armed, d)
  else if d.groupWord pg off then (Cc.armed, d)
  else (Cc.done, fs.foldl (Dev.fieldWrite w pg) d)

/-- A register write: its completion code. -/
def Dev.busWrite (m : Mem) (r : Requester) (session addr w : Nat) (d : Dev) : Nat × Dev :=
  let pg := addr / 4096
  let off := addr % 4096
  match d.refusal r addr true with
  | some c => (c, d)
  | none =>
    match actionOf m session pg off w with
    | some (work, f) => if work && d.refusesWork pg then (Cc.quiesced, d) else f d
    | none => d.plainWrite pg off w

/-! ## REG messages (R437, R438) -/

/-- One request of a message: what it reads and its completion code. -/
def Dev.regRequest (mem : Mem) (w : Bool) (session : Nat) (uerr : Bool) (e : List Byte) (d : Dev) : (Nat × Nat) × Dev :=
  if fld e 4 1 = 0 then let x := d.busRead (.host w) (fld e 0 4) uerr; ((x.2.1, x.1), x.2.2)
  else let x := d.busWrite mem (.host w) session (fld e 0 4) (fld e 8 4); ((0, x.1), x.2)

/-- REG_MESSAGE: the oldest message of a REG channel: its requests in order, then the reply. `uerrs` lists the reads that meet an uncorrectable
error. -/
def Dev.regMessage (h : Nat) (uerrs : List Nat) (mem : Mem) (d : Dev) : Dev :=
  match d.takeMessage h Kd.reg with
  | none => d
  | some (c, m, d) =>
    match regRequests m with
    | none => d.queueMsg c.sess h (regReply m [])
    | some n =>
      let x := (List.range n).foldl (fun (a : List (Nat × Nat) × Dev) k =>
        let r := a.2.regRequest mem (bit c.param 0) c.sess (uerrs.contains k) ((m.drop (8 + 12 * k)).take 12)
        (a.1 ++ [r.1], r.2)) ([], d)
      x.2.queueMsg c.sess h (regReply m x.1)

/-! ## The test port (R554) -/

/-- R554: IDCODE: version, part number, the manufacturer's code, which the spec does not state, and a 1. -/
def idcode : Nat := 2 ^ 28 + 2 ^ 12 * 0x7210 + 2 * Config.manufacturer.toNat + 1

/-- TEST_PORT_INSTRUCTION: the instruction is in force. IDCODE shifts the code out, BYPASS one bit that is 0. SAMPLE, PRELOAD and the
instructions that drive pins shift out what the boundary cells captured, which is a free value; the cells are no state of the model (assumption 94). -/
def Dev.testPort (t : TestInstr) (d : Dev) : Dev :=
  let d := { d with testInstr := t }
  match t with
  | .idcode => d.send (.testOut idcode)
  | .bypass => d.send (.testOut 0)
  | .sample | .drivePins => let x := d.draw; x.2.send (.testOut (Config.freeWord x.1).toNat)

/-! ## The commands -/

def execRegisterWrite (r : Requester) (session addr value : BitVec 32) (s : State) : Host.Outcome State Fault Refusal :=
  runDev s fun d => let x := d.busWrite s.mem r session.toNat addr.toNat value.toNat; x.2.done x.1
def execLatchedRead (r : Requester) (x : ReadAt) (s : State) : Host.Outcome State Fault Refusal :=
  runDev s fun d => let y := d.busRead r x.addr.toNat x.uerr; y.2.2.done y.1 y.2.1
def execRegMessage (m : RegMsg) (s : State) : Host.Outcome State Fault Refusal :=
  runDev s (Dev.regMessage m.handle.toNat (m.uerrs.map BitVec.toNat) s.mem)
def execTestPortInstruction (t : TestInstr) (s : State) : Host.Outcome State Fault Refusal := runDev s (Dev.testPort t)

end Sys2Proof.Machine
end

