-- ==== Sys2Proof/Machine/Dispatch.lean ====
section
/-! DEFINITION. One arm per command: the direct call of its meaning. -/

namespace Sys2Proof.Machine

/-- The effect of one command on everything but the queue of waiting commands. -/
def exec (i : Instr) (s : State) : Host.Outcome State Fault Refusal :=
  match i with
  | .registerWrite r session addr value => Sys2Proof.Machine.execRegisterWrite r session addr value s
  | .pageCtlEn r pg en => Sys2Proof.Machine.execPageCtlEn r pg en s
  | .pageCtlQreqSet r pg => Sys2Proof.Machine.execPageCtlQreqSet r pg s
  | .pageCtlQreqClear r pg => Sys2Proof.Machine.execPageCtlQreqClear r pg s
  | .pageCtlRreq r pg => Sys2Proof.Machine.execPageCtlRreq r pg s
  | .pageArmArm r pg tag err => Sys2Proof.Machine.execPageArmArm r pg tag err s
  | .pageArmDiscard r pg tag => Sys2Proof.Machine.execPageArmDiscard r pg tag s
  | .shadowCommit pg => Sys2Proof.Machine.execShadowCommit pg s
  | .cgCtlArm r g a => Sys2Proof.Machine.execCgCtlArm r g a s
  | .cgCtlDiscard r g => Sys2Proof.Machine.execCgCtlDiscard r g s
  | .groupCommit g => Sys2Proof.Machine.execGroupCommit g s
  | .quiesceDrainComplete pg => Sys2Proof.Machine.execQuiesceDrainComplete pg s
  | .quiesceTimeout pg => Sys2Proof.Machine.execQuiesceTimeout pg s
  | .requestTimeout pg tag => Sys2Proof.Machine.execRequestTimeout pg tag s
  | .replyArrival reply => Sys2Proof.Machine.execReplyArrival reply s
  | .uncorrectableError pg src => Sys2Proof.Machine.execUncorrectableError pg src s
  | .pageEvtClear r pg w => Sys2Proof.Machine.execPageEvtClear r pg w s
  | .pageCerrClr r pg => Sys2Proof.Machine.execPageCerrClr r pg s
  | .pageUerrClr r pg => Sys2Proof.Machine.execPageUerrClr r pg s
  | .evtLost q => Sys2Proof.Machine.execEvtLost q s
  | .selvedgeBlockReceive edge back dst dest block crc => Sys2Proof.Machine.execSelvedgeBlockReceive edge back dst dest block crc s
  | .faultMapClear auth faults => Sys2Proof.Machine.execFaultMapClear auth faults s
  | .mnop u last => Sys2Proof.Machine.execMnop u last s
  | .mpass u f ecc last => Sys2Proof.Machine.execMpass u f ecc last s
  | .mfence u f last => Sys2Proof.Machine.execMfence u f last s
  | .passEntry u arr ecc => Sys2Proof.Machine.execPassEntry u arr ecc s
  | .tileDrain u arr set eccBad => Sys2Proof.Machine.execTileDrain u arr set eccBad s
  | .tileCheckStart u => Sys2Proof.Machine.execTileCheckStart u s
  | .tileCheckDone u upset storeErr => Sys2Proof.Machine.execTileCheckDone u upset storeErr s
  | .recomputeStart u => Sys2Proof.Machine.execRecomputeStart u s
  | .recomputeDone u held => Sys2Proof.Machine.execRecomputeDone u held s
  | .matrixTestRun r u => Sys2Proof.Machine.execMatrixTestRun r u s
  | .arrayTestDone u fail0 fail1 => Sys2Proof.Machine.execArrayTestDone u fail0 fail1 s
  | .matrixCntClr r u => Sys2Proof.Machine.execMatrixCntClr r u s
  | .vnop u last => Sys2Proof.Machine.execVnop u last s
  | .vAdd u f last => Sys2Proof.Machine.execVAdd u f last s
  | .vSub u f last => Sys2Proof.Machine.execVSub u f last s
  | .vMul u f last => Sys2Proof.Machine.execVMul u f last s
  | .vFma u f last => Sys2Proof.Machine.execVFma u f last s
  | .vFms u f last => Sys2Proof.Machine.execVFms u f last s
  | .vFnma u f last => Sys2Proof.Machine.execVFnma u f last s
  | .vAbs u f last => Sys2Proof.Machine.execVAbs u f last s
  | .vNeg u f last => Sys2Proof.Machine.execVNeg u f last s
  | .vMinE u f last => Sys2Proof.Machine.execVMinE u f last s
  | .vMaxE u f last => Sys2Proof.Machine.execVMaxE u f last s
  | .vMaxaE u f last => Sys2Proof.Machine.execVMaxaE u f last s
  | .vClass u f last => Sys2Proof.Machine.execVClass u f last s
  | .vSel u f last => Sys2Proof.Machine.execVSel u f last s
  | .vMov u f last => Sys2Proof.Machine.execVMov u f last s
  | .cmpEq u f last => Sys2Proof.Machine.execCmpEq u f last s
  | .cmpNe u f last => Sys2Proof.Machine.execCmpNe u f last s
  | .cmpLt u f last => Sys2Proof.Machine.execCmpLt u f last s
  | .cmpLe u f last => Sys2Proof.Machine.execCmpLe u f last s
  | .cmpGt u f last => Sys2Proof.Machine.execCmpGt u f last s
  | .cmpGe u f last => Sys2Proof.Machine.execCmpGe u f last s
  | .vDiv u f last => Sys2Proof.Machine.execVDiv u f last s
  | .vRcp u f last => Sys2Proof.Machine.execVRcp u f last s
  | .vSqrt u f last => Sys2Proof.Machine.execVSqrt u f last s
  | .vRsqrt u f last => Sys2Proof.Machine.execVRsqrt u f last s
  | .vExp2 u f last => Sys2Proof.Machine.execVExp2 u f last s
  | .vLog2 u f last => Sys2Proof.Machine.execVLog2 u f last s
  | .vExp u f last => Sys2Proof.Machine.execVExp u f last s
  | .vLog u f last => Sys2Proof.Machine.execVLog u f last s
  | .vTanh u f last => Sys2Proof.Machine.execVTanh u f last s
  | .vSigmoid u f last => Sys2Proof.Machine.execVSigmoid u f last s
  | .vErf u f last => Sys2Proof.Machine.execVErf u f last s
  | .vSin u f last => Sys2Proof.Machine.execVSin u f last s
  | .vCos u f last => Sys2Proof.Machine.execVCos u f last s
  | .cvtF16f32 u f last => Sys2Proof.Machine.execCvtF16f32 u f last s
  | .cvtF32f16 u f last => Sys2Proof.Machine.execCvtF32f16 u f last s
  | .cvtI32f32 u f last => Sys2Proof.Machine.execCvtI32f32 u f last s
  | .cvtF32i32 u f last => Sys2Proof.Machine.execCvtF32i32 u f last s
  | .cvtTob u f last => Sys2Proof.Machine.execCvtTob u f last s
  | .cvtFromb u f last => Sys2Proof.Machine.execCvtFromb u f last s
  | .iadd u f last => Sys2Proof.Machine.execIadd u f last s
  | .isub u f last => Sys2Proof.Machine.execIsub u f last s
  | .imul u f last => Sys2Proof.Machine.execImul u f last s
  | .imin u f last => Sys2Proof.Machine.execImin u f last s
  | .imax u f last => Sys2Proof.Machine.execImax u f last s
  | .icmpEq u f last => Sys2Proof.Machine.execIcmpEq u f last s
  | .icmpNe u f last => Sys2Proof.Machine.execIcmpNe u f last s
  | .icmpLt u f last => Sys2Proof.Machine.execIcmpLt u f last s
  | .icmpLe u f last => Sys2Proof.Machine.execIcmpLe u f last s
  | .icmpGt u f last => Sys2Proof.Machine.execIcmpGt u f last s
  | .icmpGe u f last => Sys2Proof.Machine.execIcmpGe u f last s
  | .vAnd u f last => Sys2Proof.Machine.execVAnd u f last s
  | .vOr u f last => Sys2Proof.Machine.execVOr u f last s
  | .vXor u f last => Sys2Proof.Machine.execVXor u f last s
  | .vNot u f last => Sys2Proof.Machine.execVNot u f last s
  | .vShl u f last => Sys2Proof.Machine.execVShl u f last s
  | .vShr u f last => Sys2Proof.Machine.execVShr u f last s
  | .vSar u f last => Sys2Proof.Machine.execVSar u f last s
  | .vbcast u f last => Sys2Proof.Machine.execVbcast u f last s
  | .vrot u f last => Sys2Proof.Machine.execVrot u f last s
  | .vzip u f last => Sys2Proof.Machine.execVzip u f last s
  | .vunzip u f last => Sys2Proof.Machine.execVunzip u f last s
  | .vperm u f last => Sys2Proof.Machine.execVperm u f last s
  | .vsum u f last => Sys2Proof.Machine.execVsum u f last s
  | .vMaxR u f last => Sys2Proof.Machine.execVMaxR u f last s
  | .vMinR u f last => Sys2Proof.Machine.execVMinR u f last s
  | .vAmaxR u f last => Sys2Proof.Machine.execVAmaxR u f last s
  | .mand u f last => Sys2Proof.Machine.execMand u f last s
  | .mor u f last => Sys2Proof.Machine.execMor u f last s
  | .mxor u f last => Sys2Proof.Machine.execMxor u f last s
  | .mandn u f last => Sys2Proof.Machine.execMandn u f last s
  | .mnot u f last => Sys2Proof.Machine.execMnot u f last s
  | .mset u f last => Sys2Proof.Machine.execMset u f last s
  | .mcount u f last => Sys2Proof.Machine.execMcount u f last s
  | .msign u f last => Sys2Proof.Machine.execMsign u f last s
  | .vflags u f last => Sys2Proof.Machine.execVflags u f last s
  | .vstat u f last => Sys2Proof.Machine.execVstat u f last s
  | .vpop u f last => Sys2Proof.Machine.execVpop u f last s
  | .popTimeout u => Sys2Proof.Machine.execPopTimeout u s
  | .vectorCntClr r u => Sys2Proof.Machine.execVectorCntClr r u s
  | .vectorCstatClr r u => Sys2Proof.Machine.execVectorCstatClr r u s
  | .dnop u last => Sys2Proof.Machine.execDnop u last s
  | .dld u f ecc line last => Sys2Proof.Machine.execDld u f ecc line last s
  | .dst u f ecc word last => Sys2Proof.Machine.execDst u f ecc word last s
  | .dldm u f ecc last => Sys2Proof.Machine.execDldm u f ecc last s
  | .dstm u f last => Sys2Proof.Machine.execDstm u f last s
  | .dkick u f last => Sys2Proof.Machine.execDkick u f last s
  | .dwait u f last => Sys2Proof.Machine.execDwait u f last s
  | .cnop u last => Sys2Proof.Machine.execCnop u last s
  | .sli u f last => Sys2Proof.Machine.execSli u f last s
  | .sadd u f last => Sys2Proof.Machine.execSadd u f last s
  | .ssub u f last => Sys2Proof.Machine.execSsub u f last s
  | .saddi u f last => Sys2Proof.Machine.execSaddi u f last s
  | .sshli u f last => Sys2Proof.Machine.execSshli u f last s
  | .sshri u f last => Sys2Proof.Machine.execSshri u f last s
  | .sandi u f last => Sys2Proof.Machine.execSandi u f last s
  | .slidx u f last => Sys2Proof.Machine.execSlidx u f last s
  | .seqLoop u f last => Sys2Proof.Machine.execSeqLoop u f last s
  | .wbeat u f last => Sys2Proof.Machine.execWbeat u f last s
  | .seqBar u f last => Sys2Proof.Machine.execSeqBar u f last s
  | .barrierTimeout c n => Sys2Proof.Machine.execBarrierTimeout c n s
  | .srctx u f last => Sys2Proof.Machine.execSrctx u f last s
  | .sevt u f last => Sys2Proof.Machine.execSevt u f last s
  | .seqEnd u last => Sys2Proof.Machine.execSeqEnd u last s
  | .illegalBundle u ecc => Sys2Proof.Machine.execIllegalBundle u ecc s
  | .seqStart r u => Sys2Proof.Machine.execSeqStart r u s
  | .programStart u => Sys2Proof.Machine.execProgramStart u s
  | .seqCntClr r u => Sys2Proof.Machine.execSeqCntClr r u s
  | .fillGo r u => Sys2Proof.Machine.execFillGo r u s
  | .istoreFillComplete u ecc line => Sys2Proof.Machine.execIstoreFillComplete u ecc line s
  | .scrubLine larder inst line ecc => Sys2Proof.Machine.execScrubLine larder inst line ecc s
  | .patrolRead stack block passEnd => Sys2Proof.Machine.execPatrolRead stack block passEnd s
  | .hbmCrcRetry stack block data => Sys2Proof.Machine.execHbmCrcRetry stack block data s
  | .kickGo r rm inst tag => Sys2Proof.Machine.execKickGo r rm inst tag s
  | .cmovePassToRmove c => Sys2Proof.Machine.execCmovePassToRmove c s
  | .moveBlockStart rm inst e => Sys2Proof.Machine.execMoveBlockStart rm inst e s
  | .moveBlockComplete rm inst => Sys2Proof.Machine.execMoveBlockComplete rm inst s
  | .descNop rm inst => Sys2Proof.Machine.execDescNop rm inst s
  | .descCopy rm inst e row => Sys2Proof.Machine.execDescCopy rm inst e row s
  | .descZero rm inst => Sys2Proof.Machine.execDescZero rm inst s
  | .descCompress rm inst e row => Sys2Proof.Machine.execDescCompress rm inst e row s
  | .descDecompress rm inst e row => Sys2Proof.Machine.execDescDecompress rm inst e row s
  | .descToBlock rm inst e row => Sys2Proof.Machine.execDescToBlock rm inst e row s
  | .descFromBlock rm inst e row => Sys2Proof.Machine.execDescFromBlock rm inst e row s
  | .descExchEnc inst e row => Sys2Proof.Machine.execDescExchEnc inst e row s
  | .descExchDec inst e row => Sys2Proof.Machine.execDescExchDec inst e row s
  | .compressCntClr r inst => Sys2Proof.Machine.execCompressCntClr r inst s
  | .beatBoundary => Sys2Proof.Machine.execBeatBoundary s
  | .exchangeWindowStart => Sys2Proof.Machine.execExchangeWindowStart s
  | .slackWindowStart credit => Sys2Proof.Machine.execSlackWindowStart credit s
  | .beatMarker port crcOk m phase rate => Sys2Proof.Machine.execBeatMarker port crcOk m phase rate s
  | .markerTimeout => Sys2Proof.Machine.execMarkerTimeout s
  | .holdLimitExpiry => Sys2Proof.Machine.execHoldLimitExpiry s
  | .sourceTimeout => Sys2Proof.Machine.execSourceTimeout s
  | .delayRemeasure port delay => Sys2Proof.Machine.execDelayRemeasure port delay s
  | .voteTimeout port => Sys2Proof.Machine.execVoteTimeout port s
  | .stepStart => Sys2Proof.Machine.execStepStart s
  | .stepVote finished => Sys2Proof.Machine.execStepVote finished s
  | .stepCommit => Sys2Proof.Machine.execStepCommit s
  | .stepReplay => Sys2Proof.Machine.execStepReplay s
  | .stepRecover => Sys2Proof.Machine.execStepRecover s
  | .forceWaitExceeded red => Sys2Proof.Machine.execForceWaitExceeded red s
  | .draftCmdLoad r => Sys2Proof.Machine.execDraftCmdLoad r s
  | .draftCmdAbort r => Sys2Proof.Machine.execDraftCmdAbort r s
  | .placementDone => Sys2Proof.Machine.execPlacementDone s
  | .placeTimeout => Sys2Proof.Machine.execPlaceTimeout s
  | .replanStart cause => Sys2Proof.Machine.execReplanStart cause s
  | .replanDone => Sys2Proof.Machine.execReplanDone s
  | .replanTimeout => Sys2Proof.Machine.execReplanTimeout s
  | .planCommit lastMs => Sys2Proof.Machine.execPlanCommit lastMs s
  | .waySwapStart r swap lines => Sys2Proof.Machine.execWaySwapStart r swap lines s
  | .numericEvaluation obs => Sys2Proof.Machine.execNumericEvaluation obs s
  | .watchCntClr r => Sys2Proof.Machine.execWatchCntClr r s
  | .contributionLand r line => Sys2Proof.Machine.execContributionLand r line s
  | .deadlinePass red => Sys2Proof.Machine.execDeadlinePass red s
  | .exchCntClr r => Sys2Proof.Machine.execExchCntClr r s
  | .linkSignalDetect port => Sys2Proof.Machine.execLinkSignalDetect port s
  | .trainComplete port farAddr farPort => Sys2Proof.Machine.execTrainComplete port farAddr farPort s
  | .trainTimeout port => Sys2Proof.Machine.execTrainTimeout port s
  | .laneDegraded port lane => Sys2Proof.Machine.execLaneDegraded port lane s
  | .uncorrCwLimit port corrected codewords => Sys2Proof.Machine.execUncorrCwLimit port corrected codewords s
  | .linkDown port => Sys2Proof.Machine.execLinkDown port s
  | .linkPhyRetry r port => Sys2Proof.Machine.execLinkPhyRetry r port s
  | .shuttleFetch entry area => Sys2Proof.Machine.execShuttleFetch entry area s
  | .slotSend entry => Sys2Proof.Machine.execSlotSend entry s
  | .lateSend port credit => Sys2Proof.Machine.execLateSend port credit s
  | .schedShuttle port sh area => Sys2Proof.Machine.execSchedShuttle port sh area s
  | .lateShuttle port sh area credit => Sys2Proof.Machine.execLateShuttle port sh area credit s
  | .resendReqRecv port sh credit => Sys2Proof.Machine.execResendReqRecv port sh credit s
  | .resendNakRecv port sh credit => Sys2Proof.Machine.execResendNakRecv port sh credit s
  | .slackTtlExpiry port => Sys2Proof.Machine.execSlackTtlExpiry port s
  | .linkRouteCmdLoad r => Sys2Proof.Machine.execLinkRouteCmdLoad r s
  | .routeApplied => Sys2Proof.Machine.execRouteApplied s
  | .linkErrCntClr r port => Sys2Proof.Machine.execLinkErrCntClr r port s
  | .ethernetFrameReceive port f => Sys2Proof.Machine.execEthernetFrameReceive port f s
  | .mkaFrame port f => Sys2Proof.Machine.execMkaFrame port f s
  | .mkaPeerLost port => Sys2Proof.Machine.execMkaPeerLost port s
  | .arpRequest port ip => Sys2Proof.Machine.execArpRequest port ip s
  | .neighborSolicitation port ip advert => Sys2Proof.Machine.execNeighborSolicitation port ip advert s
  | .echoRequest port v6 payload => Sys2Proof.Machine.execEchoRequest port v6 payload s
  | .ptpAnnounce port a => Sys2Proof.Machine.execPtpAnnounce port a s
  | .ptpExchange port offset => Sys2Proof.Machine.execPtpExchange port offset s
  | .ptpTimeout port => Sys2Proof.Machine.execPtpTimeout port s
  | .hostOpen port peer g => Sys2Proof.Machine.execHostOpen port peer g s
  | .hostData port peer g => Sys2Proof.Machine.execHostData port peer g s
  | .hostAck port peer g => Sys2Proof.Machine.execHostAck port peer g s
  | .hostClose port peer g => Sys2Proof.Machine.execHostClose port peer g s
  | .ackTimer session => Sys2Proof.Machine.execAckTimer session s
  | .rtoExpiry session => Sys2Proof.Machine.execRtoExpiry session s
  | .sessionDead session => Sys2Proof.Machine.execSessionDead session s
  | .chanCreate session => Sys2Proof.Machine.execChanCreate session s
  | .chanDestroy session => Sys2Proof.Machine.execChanDestroy session s
  | .regMessage m => Sys2Proof.Machine.execRegMessage m s
  | .hostInData handle err => Sys2Proof.Machine.execHostInData handle err s
  | .hostOutRequest handle => Sys2Proof.Machine.execHostOutRequest handle s
  | .hostOutSend handle => Sys2Proof.Machine.execHostOutSend handle s
  | .resetFrame port peer g => Sys2Proof.Machine.execResetFrame port peer g s
  | .hostMacCntClr r port => Sys2Proof.Machine.execHostMacCntClr r port s
  | .hostSecCntClr r port => Sys2Proof.Machine.execHostSecCntClr r port s
  | .hostXportCntClr r port => Sys2Proof.Machine.execHostXportCntClr r port s
  | .leaseFrame handle => Sys2Proof.Machine.execLeaseFrame handle s
  | .minuteBoundary => Sys2Proof.Machine.execMinuteBoundary s
  | .leaseHoldoverLimit => Sys2Proof.Machine.execLeaseHoldoverLimit s
  | .totalsSave => Sys2Proof.Machine.execTotalsSave s
  | .rampStepDone r => Sys2Proof.Machine.execRampStepDone r s
  | .droopTrip r => Sys2Proof.Machine.execDroopTrip r s
  | .droopClear r cycles => Sys2Proof.Machine.execDroopClear r cycles s
  | .avsSample rails => Sys2Proof.Machine.execAvsSample rails s
  | .measLoop => Sys2Proof.Machine.execMeasLoop s
  | .recalibration => Sys2Proof.Machine.execRecalibration s
  | .powerLend => Sys2Proof.Machine.execPowerLend s
  | .offerSend => Sys2Proof.Machine.execOfferSend s
  | .powerBorrow => Sys2Proof.Machine.execPowerBorrow s
  | .needRecv port sh credit => Sys2Proof.Machine.execNeedRecv port sh credit s
  | .offerRecv port sh credit => Sys2Proof.Machine.execOfferRecv port sh credit s
  | .grantRecv port sh credit => Sys2Proof.Machine.execGrantRecv port sh credit s
  | .refuseRecv port sh credit => Sys2Proof.Machine.execRefuseRecv port sh credit s
  | .junctionSensorRead r t => Sys2Proof.Machine.execJunctionSensorRead r t s
  | .hbmTempRead die t => Sys2Proof.Machine.execHbmTempRead die t s
  | .regAlert die => Sys2Proof.Machine.execRegAlert die s
  | .regAlertRelease die => Sys2Proof.Machine.execRegAlertRelease die s
  | .shelfRelease die => Sys2Proof.Machine.execShelfRelease die s
  | .refclkLoss die => Sys2Proof.Machine.execRefclkLoss die s
  | .dieManagerHung die => Sys2Proof.Machine.execDieManagerHung die s
  | .drainSend use => Sys2Proof.Machine.execDrainSend use s
  | .drainPiece port sh credit => Sys2Proof.Machine.execDrainPiece port sh credit s
  | .refillPiece port sh credit => Sys2Proof.Machine.execRefillPiece port sh credit s
  | .atticRefillPiece port sh credit => Sys2Proof.Machine.execAtticRefillPiece port sh credit s
  | .partAnswer use part => Sys2Proof.Machine.execPartAnswer use part s
  | .partAck port sh credit => Sys2Proof.Machine.execPartAck port sh credit s
  | .partNak port sh credit => Sys2Proof.Machine.execPartNak port sh credit s
  | .manifestAck port sh credit => Sys2Proof.Machine.execManifestAck port sh credit s
  | .manifestBad port sh credit => Sys2Proof.Machine.execManifestBad port sh credit s
  | .partRetry use part => Sys2Proof.Machine.execPartRetry use part s
  | .drainHoldExpiry finished => Sys2Proof.Machine.execDrainHoldExpiry finished s
  | .externalDrainSend handle => Sys2Proof.Machine.execExternalDrainSend handle s
  | .drainAck handle => Sys2Proof.Machine.execDrainAck handle s
  | .drainData handle => Sys2Proof.Machine.execDrainData handle s
  | .drainLedger handle => Sys2Proof.Machine.execDrainLedger handle s
  | .restoreStart => Sys2Proof.Machine.execRestoreStart s
  | .restoreAccept => Sys2Proof.Machine.execRestoreAccept s
  | .restoreResume => Sys2Proof.Machine.execRestoreResume s
  | .fwStage r => Sys2Proof.Machine.execFwStage r s
  | .fwConfirm r => Sys2Proof.Machine.execFwConfirm r s
  | .leaseKey r => Sys2Proof.Machine.execLeaseKey r s
  | .resetKey r => Sys2Proof.Machine.execResetKey r s
  | .cakKey r => Sys2Proof.Machine.execCakKey r s
  | .fallbackKey r => Sys2Proof.Machine.execFallbackKey r s
  | .lockKey r => Sys2Proof.Machine.execLockKey r s
  | .attestRequest r => Sys2Proof.Machine.execAttestRequest r s
  | .quoteSigned => Sys2Proof.Machine.execQuoteSigned s
  | .sigBudgetLow => Sys2Proof.Machine.execSigBudgetLow s
  | .energyRecFetch r session => Sys2Proof.Machine.execEnergyRecFetch r session s
  | .powerOn => Sys2Proof.Machine.execPowerOn s
  | .resetN => Sys2Proof.Machine.execResetN s
  | .resetNRelease => Sys2Proof.Machine.execResetNRelease s
  | .bringupSl1 ms f0 f1 f2 => Sys2Proof.Machine.execBringupSl1 ms f0 f1 f2 s
  | .bringupSl2 ms => Sys2Proof.Machine.execBringupSl2 ms s
  | .bringupSl3 ms => Sys2Proof.Machine.execBringupSl3 ms s
  | .selfTestDone level inst failed => Sys2Proof.Machine.execSelfTestDone level inst failed s
  | .hbmTrainDone stack ok => Sys2Proof.Machine.execHbmTrainDone stack ok s
  | .watchdog => Sys2Proof.Machine.execWatchdog s
  | .thermtrip => Sys2Proof.Machine.execThermtrip s
  | .lockstep die => Sys2Proof.Machine.execLockstep die s
  | .rstSrcReq r w => Sys2Proof.Machine.execRstSrcReq r w s
  | .domainReset dom inst => Sys2Proof.Machine.execDomainReset dom inst s
  | .bringupStopAt r v => Sys2Proof.Machine.execBringupStopAt r v s
  | .bringupResume r => Sys2Proof.Machine.execBringupResume r s
  | .hostLinkUp port => Sys2Proof.Machine.execHostLinkUp port s
  | .hostLinkDown port => Sys2Proof.Machine.execHostLinkDown port s
  | .slackShuttleForward port sh credit => Sys2Proof.Machine.execSlackShuttleForward port sh credit s
  | .powerGoodRise => Sys2Proof.Machine.execPowerGoodRise s
  | .refclkReturn => Sys2Proof.Machine.execRefclkReturn s
  | .duplicateAddressDetectionEnd port link => Sys2Proof.Machine.execDuplicateAddressDetectionEnd port link s
  | .latchedRead r x => Sys2Proof.Machine.execLatchedRead r x s
  | .testPortInstruction t => Sys2Proof.Machine.execTestPortInstruction t s

end Sys2Proof.Machine
end

