-- ==== Sys2Proof/Machine/Step.lean ====
section
/-! DEFINITION. One step of the package: the oldest waiting command takes effect, or, with none waiting, time passes. -/

namespace Sys2Proof.Machine

/-- With no command waiting the package idles for 100 ns (assumption 1). -/
def State.idleTick (s : State) : State := { s with dev := s.dev.start.passTo (s.dev.now + 1) }

/-- One step: the command at the front of the queue takes effect with the rest of the queue left waiting. -/
def step (s : State) : Host.Outcome State Fault Refusal :=
  match s.pending with
  | [] => .next s.idleTick
  | c :: rest => exec c { s with pending := rest }

/-- The state with the command that a table word spells put at the front of the queue; unchanged when it spells none. -/
def State.withFetchWord (s : State) (nbits w : Nat) : State :=
  match Sys2Proof.decodeTableWord nbits w with
  | some c => { s with pending := c :: s.pending }
  | none => s

end Sys2Proof.Machine
end

