-- ==== Sys2Proof/Machine/Pins.lean ====
section
/-! DEFINITION. The pins from PWR_GOOD until the keeper takes them over (R531, R542, R547). -/

namespace Sys2Proof.Machine

/-- R542, R547: the pins that reset gives a state, `d` a die, `p` a port. -/
inductive Pin where
  | thermtripN
  | avsClk (d : BitVec 2)
  | avsMdata (d : BitVec 2)
  | tdo
  | linkTx (p : BitVec 5) (lane : BitVec 2)
  | hostTx (p : BitVec 3) (lane : BitVec 2)
  | feedSel (n : Fin 6)
  | resetN
  | pwrGood
  | tck
  | tms
  | tdi
  | trstN
  deriving DecidableEq, Repr

/-- R542: what a pin does. -/
inductive PinState where
  /-- No power, or before PWR_GOOD: the spec gives the pin no state. -/
  | unpowered
  /-- The four codes of the fuse map. -/
  | pullUp
  | hiZ
  | driveLow
  | driveHigh
  /-- An open-drain output, released or pulled low. -/
  | released
  | pulledLow
  /-- A transmitter in electrical idle. -/
  | idle
  /-- An input, with a weak pull-up or without. -/
  | input (pull : Bool)
  /-- The keeper or the block that owns the pin drives it. -/
  | inUse
  deriving DecidableEq, Repr

/-- R542: the codes of the fuse map. -/
def pinCode (c : Nat) : PinState :=
  match c with
  | 0 => .pullUp
  | 1 => .hiZ
  | 2 => .driveLow
  | _ => .driveHigh

/-- The place of a pin in the fuse map. -/
def Pin.fuse (p : Pin) : Nat :=
  match p with
  | .avsClk d => d.toNat
  | .avsMdata d => 4 + d.toNat
  | .feedSel n => 8 + n.val
  | .resetN => 14
  | .pwrGood => 15
  | .tck => 16
  | .tms => 17
  | .tdi => 18
  | .trstN => 19
  | _ => 20

/-- R531, R542: the fuse-map code of a pin; PULL_UP, the unprogrammed state, until the fuses have been sensed. -/
def Dev.pinFuse (d : Dev) (p : Pin) : Nat := if d.rst.sensed then SMap.at d.rst.pinFuses p.fuse 0 % 4 else 0

/-- R542: the keeper has taken the pins over, at SL1. -/
def Dev.pinsTaken (d : Dev) : Bool := d.level != 0

/-- R542: the state of a pin. TDO drives only while the test port shifts data out. -/
def Dev.pin (d : Dev) (p : Pin) : PinState :=
  if ! d.rst.power then .unpowered
  else
    match p with
    | .thermtripN => if d.rst.trip then .pulledLow else .released
    | .avsClk _ | .avsMdata _ => if d.pinsTaken then .inUse else pinCode (d.pinFuse p)
    | .tdo => .hiZ
    | .linkTx _ _ | .hostTx _ _ => if d.pinsTaken then .inUse else .idle
    | .feedSel _ | .resetN | .pwrGood | .tck | .tms | .tdi | .trstN => .input (d.pinFuse p == 0)

end Sys2Proof.Machine
end

