-- ==== Sys2Proof/Safety.lean ====
section
/-! DEFINITION. What counts as a safe run, and the words the statements use: the invariant of every state, and what it
means that a command leaves everything else alone. -/

namespace Sys2Proof.Machine

/-- The invariant of every state a step can give: the store is in its canonical form, and no store operation is left
over from an earlier command. -/
def State.Inv (s : State) : Prop := Mem.wf s.mem = true ∧ s.dev.writes = []

/-- The end of a command that leaves the store and the waiting commands alone and gives the device `d`. -/
def State.ends (s : State) (d : Dev) : Host.Outcome State Fault Refusal := .next { s with dev := { d with writes := [] } }

/-- The end of a command that leaves the waiting commands alone and gives the device `d`, its store operations applied. -/
def State.endsStore (s : State) (d : Dev) : Host.Outcome State Fault Refusal :=
  .next { s with mem := Mem.apply s.mem d.writes, dev := { d with writes := [] } }

/-- An access by a requester to a word of a page is performed (R43, R45). -/
abbrev State.accepts (s : State) (r : Requester) (pg off : Nat) (write : Bool) : Prop := s.dev.refusal r (pg * 4096 + off) write = none

/-- The commands that may change the store: the last slot operation of a bundle, quiesces that cut a mover, blocks and descriptors of the engines,
scrubs, fills, pieces, shuttles, inputs and contributions that land, beats and decisions of a step, plan commits, restores, selvedge blocks,
and what resets a store or loses the managing die. -/
def storing (c : Instr) : Bool :=
  match c with
  | .quiesceDrainComplete _ | .quiesceTimeout _ | .uncorrectableError _ _ | .selvedgeBlockReceive _ _ _ _ _ _ | .istoreFillComplete _ _ _
  | .scrubLine _ _ _ _ | .hbmCrcRetry _ _ _ | .moveBlockStart _ _ _ | .descCopy _ _ _ _ | .descZero _ _ | .descCompress _ _ _ _
  | .descDecompress _ _ _ _ | .descToBlock _ _ _ _ | .descFromBlock _ _ _ _ | .descExchEnc _ _ _ | .descExchDec _ _ _ | .planCommit _
  | .waySwapStart _ _ _ | .numericEvaluation _ | .schedShuttle _ _ _ | .lateShuttle _ _ _ _ | .hostInData _ _ | .beatBoundary
  | .stepCommit | .stepReplay | .stepRecover | .drainPiece _ _ _ | .refillPiece _ _ _ | .atticRefillPiece _ _ _ | .restoreAccept | .powerOn
  | .resetN | .selfTestDone _ _ _ | .hbmTrainDone _ _ | .watchdog | .thermtrip | .lockstep _ | .domainReset _ _ => true
  | .mnop _ last | .vnop _ last | .dnop _ last | .cnop _ last | .seqEnd _ last | .mfence _ _ last | .vAdd _ _ last | .vSub _ _ last | .vMul _ _ last
  | .vFma _ _ last | .vFms _ _ last | .vFnma _ _ last | .vAbs _ _ last | .vNeg _ _ last | .vMinE _ _ last | .vMaxE _ _ last | .vMaxaE _ _ last
  | .vClass _ _ last | .vSel _ _ last | .vMov _ _ last | .cmpEq _ _ last | .cmpNe _ _ last | .cmpLt _ _ last | .cmpLe _ _ last | .cmpGt _ _ last
  | .cmpGe _ _ last | .vDiv _ _ last | .vRcp _ _ last | .vSqrt _ _ last | .vRsqrt _ _ last | .vExp2 _ _ last | .vLog2 _ _ last | .vExp _ _ last
  | .vLog _ _ last | .vTanh _ _ last | .vSigmoid _ _ last | .vErf _ _ last | .vSin _ _ last | .vCos _ _ last | .cvtF16f32 _ _ last
  | .cvtF32f16 _ _ last | .cvtI32f32 _ _ last | .cvtF32i32 _ _ last | .cvtTob _ _ last | .cvtFromb _ _ last | .iadd _ _ last | .isub _ _ last
  | .imul _ _ last | .imin _ _ last | .imax _ _ last | .icmpEq _ _ last | .icmpNe _ _ last | .icmpLt _ _ last | .icmpLe _ _ last | .icmpGt _ _ last
  | .icmpGe _ _ last | .vAnd _ _ last | .vOr _ _ last | .vXor _ _ last | .vNot _ _ last | .vShl _ _ last | .vShr _ _ last | .vSar _ _ last
  | .vbcast _ _ last | .vrot _ _ last | .vzip _ _ last | .vunzip _ _ last | .vperm _ _ last | .vsum _ _ last | .vMaxR _ _ last | .vMinR _ _ last
  | .vAmaxR _ _ last | .mand _ _ last | .mor _ _ last | .mxor _ _ last | .mandn _ _ last | .mnot _ _ last | .mset _ _ last | .mcount _ _ last
  | .msign _ _ last | .vflags _ _ last | .vstat _ _ last | .vpop _ _ last | .dstm _ _ last | .dkick _ _ last | .dwait _ _ last | .sli _ _ last
  | .sadd _ _ last | .ssub _ _ last | .saddi _ _ last | .sshli _ _ last | .sshri _ _ last | .sandi _ _ last | .slidx _ _ last | .seqLoop _ _ last
  | .wbeat _ _ last | .seqBar _ _ last | .srctx _ _ last | .sevt _ _ last | .mpass _ _ _ last | .dldm _ _ _ last | .dld _ _ _ _ last
  | .dst _ _ _ _ last => last
  | _ => false

/-- A run is safe when no step of it stops: it ends neither in a fault nor in a refusal. -/
def Runs : Nat → State → Prop
  | 0, _ => True
  | n + 1, s => ∃ t, step s = .next t ∧ Runs n t

/-- Everything of the device but its registers, its event queues and the answers of the latest command. -/
def Dev.rest (d : Dev) : Dev := { d with regs := [], queues := [], out := [], writes := [] }

/-- The command left the store, the waiting commands, the event queues and the whole device alone, except the register
values kept under the keys `ks` and the answers of the command. -/
structure OnlyRegs (s t : State) (ks : List Nat) : Prop where
  mem : t.mem = s.mem
  pending : t.pending = s.pending
  rest : t.dev.rest = s.dev.rest
  queues : t.dev.queues = s.dev.queues
  regs : ∀ k, k ∉ ks → SMap.find t.dev.regs k = SMap.find s.dev.regs k

/-- The keys of the event bits of a page. -/
def evtKeys (pg : Nat) : List Nat := [Hdr.EVT_COMMON.key pg 0, Hdr.EVT_BLOCK.key pg 0, Hdr.EVT_OVERFLOW.key pg 0]

/-- The same for a command that may also raise an event on the page `pg`: its event bits and the event queues may change. -/
structure OnlyRegsEvt (s t : State) (pg : Nat) (ks : List Nat) : Prop where
  mem : t.mem = s.mem
  pending : t.pending = s.pending
  rest : t.dev.rest = s.dev.rest
  regs : ∀ k, k ∉ ks → k ∉ evtKeys pg → SMap.find t.dev.regs k = SMap.find s.dev.regs k

/-- The command changed nothing but what it answered. -/
def Unchanged (s t : State) : Prop :=
  t.mem = s.mem ∧ t.pending = s.pending ∧ { t.dev with out := [], writes := [] } = { s.dev with out := [], writes := [] }

/-- The command changed the store only where it stored: every byte outside `lo … hi − 1` reads as before. -/
def MemSameOutside (s t : State) (lo hi : Nat) : Prop := ∀ a, ¬ (lo ≤ a ∧ a < hi) → Mem.read t.mem a = Mem.read s.mem a

/-- The keys of every copy of a list of fields on an instance. -/
def fieldKeys (inst : Nat) (fs : List Field) : List Nat := fs.flatMap fun f => (List.range f.n).map fun i => f.key (f.pg inst) i

/-! ## Slot operations -/

/-- A bundle of one operation of a unit: its sequencer issues (R204, R206), no other slot of the bundle has been offered, and the operation names no
destination twice and not m0 (R199, R205). -/
structure SlotRuns (s : State) (u : BitVec 12) (o : SlotOp) : Prop where
  issuing : s.dev.issuing u.toNat [2] = true
  alone : (s.dev.unit u.toNat).bundle = []
  dests : o.dsts.Nodup ∧ 32 ∉ o.dsts

/-- R185, R199: the device after a bundle of one operation has issued: the cycles in which a register was pending and those in which the V slot was
busy are counted and passed; the operation acts, writes its registers, and the bundle ends. -/
def State.issued (s : State) (u : BitVec 12) (o : SlotOp) (ws : List RegWr) (act after : Dev → Dev) : Dev :=
  let x := s.dev.unit u.toNat
  let c := s.dev.cycleOf u.toNat
  let c1 := max c (x.readyBy (o.srcs ++ o.dsts))
  let c2 := if o.weight = 0 then c1 else max c1 x.vFree
  ((s.dev.start.count Reg.SEQ_STALL_DEP u.toNat (c1 - c)).count Reg.SEQ_STALL_VBUSY u.toNat (c2 - c1)).issueBundle u.toNat c2 [(o, .issue ws act after)]

/-- R199: the device after a bundle of one operation has been held once more for a cause that a counter of SEQ counts. -/
def State.heldBy (s : State) (u : BitVec 12) (o : SlotOp) (counter : Field) (act : Dev → Dev) : Dev :=
  let x := s.dev.unit u.toNat
  let c := s.dev.cycleOf u.toNat
  let c1 := max c (x.readyBy (o.srcs ++ o.dsts))
  let c2 := if o.weight = 0 then c1 else max c1 x.vFree
  let d := s.dev.start.count Reg.SEQ_STALL_DEP u.toNat (c1 - c)
  if o.weight = 0 then ((act (d.count Reg.SEQ_STALL_VBUSY u.toNat (c2 - c1))).count counter u.toNat).atCycle u.toNat (c2 + 1)
  else ((act d).count counter u.toNat).atCycle u.toNat (c1 + 1)

/-- R199: the device after a bundle of one operation that stops issue, or waits with no counter of SEQ. -/
def State.stopsBy (s : State) (u : BitVec 12) (o : SlotOp) (act : Dev → Dev) : Dev :=
  let c := s.dev.cycleOf u.toNat
  let c1 := max c ((s.dev.unit u.toNat).readyBy (o.srcs ++ o.dsts))
  (act (s.dev.start.count Reg.SEQ_STALL_DEP u.toNat (c1 - c))).atCycle u.toNat c1

/-- A vector operation with opcode `opc` that issues: it breaks no encoding rule (R194), and a read of the cloth queue has its tile (R172). -/
structure VectorRuns (s : State) (u : BitVec 12) (opc : Nat) (f : VSlot) : Prop where
  slot : SlotRuns s u (vOp u.toNat opc f)
  fits : vOk opc f = true
  source : f.cqa = true → (s.dev.currentEntry u.toNat).isSome = true

/-- The end of a vector operation: its writes and flags, the SR index, the busy counter and the release of the tile (`Dev.vopActs`), and the end of
its bundle. The store stays as it was. -/
def vEnds (s : State) (u : BitVec 12) (opc : Nat) (f : VSlot) (o : VOut) : Host.Outcome State Fault Refusal :=
  s.ends (s.issued u (vOp u.toNat opc f) o.ws (fun d => d.vopActs u.toNat f o) id)

/-- R153: whether mask index `j` is active in an operation of unit `u`. -/
def State.act (s : State) (u : BitVec 12) (f : VSlot) (j : Nat) : Bool := (s.dev.mask u.toNat f.mreg.toNat).getLsbD j != f.inv

/-- Source A of an operation, a register of the unit, and a mask register. -/
def State.a (s : State) (u : BitVec 12) (f : VSlot) : VReg := s.dev.srcA u.toNat f
def State.v (s : State) (u : BitVec 12) (r : BitVec 5) : VReg := s.dev.vreg u.toNat r.toNat
def State.m (s : State) (u : BitVec 12) (r : Nat) : MReg := s.dev.mask u.toNat r

/-- The flags of the active elements of an operation, together. -/
def State.flags (s : State) (u : BitVec 12) (f : VSlot) (fl : Nat → Nat) : Nat :=
  (List.range 64).foldl (fun a i => if s.act u f (halfBase f.view.toNat + i) then a ||| fl i else a) 0

/-! ## Descriptors -/

/-- An engine whose next descriptor is `w`, with operation code `op`, on a path that takes work (R226, R228, R229). -/
structure DescRuns (s : State) (rm : Bool) (inst op : Nat) (r : MRun) (w : Nat) : Prop where
  run : (s.dev.eng rm inst).run = some r
  clean : r.fault = none
  next : r.descs[r.next]? = some w
  op : Ds.op w = op
  path : ((descPages (regionOf inst) w).filter fun pg => s.dev.bs pg != Bs.quiescing).findSome? s.dev.stateCode = none

/-- The end of a descriptor: what it wrote is in the store, its lines are counted, and the engine issues the next one, or has the fault that
ended it. -/
def State.descEnds (s : State) (rm : Bool) (inst : Nat) (r : MRun) (x : DescRes) : Host.Outcome State Fault Refusal :=
  let d := x.d.count (engField rm Reg.CMOVE_LINES Reg.RMOVE_LINES) inst x.lines
  s.endsStore (d.putEng rm inst { s.dev.eng rm inst with
    run := some (d.issue inst { r with next := r.next + 1, fault := x.fault.map fun f => (f.1, r.next + 1, f.2) }) })

end Sys2Proof.Machine
end

