-- ==== Sys2Proof/Certificates/Slice0/Obligations.lean ====
section
/-! DEFINITION. The statements for the provers. Each docstring names the rule of spec/ it rests on; a clause that rests on a choice of the
model says so and names the log entry. -/

open Sys2Proof Sys2Proof.Machine

/-! ## The queue, the store, and how a command ends -/

/-- The block interface: one step takes the oldest waiting command and runs it with the rest of the queue left waiting. -/
def Obligations.StepTakesFront : Prop :=
  ∀ (s : State) (c : Instr) (rest : List Instr), step { s with pending := c :: rest } = exec c { s with pending := rest }

/-- With no command waiting, 100 ns pass (the model's choice, assumption 1). While no block reset runs out, the beat phase advances while the timer
runs, short of the next boundary, and everything else stays. A block whose reset runs out leaves RESETTING for OFF with 0x0108. -/
def Obligations.IdleStepPassesTime : Prop :=
  ∀ (s : State), s.pending = [] →
    step s = s.ends (s.dev.start.passTo (s.dev.now + 1)) ∧
    ((∀ x ∈ s.dev.resetting, s.dev.now + 1 < x.2.1) → ∃ t, step s = .next t ∧ t.pending = [] ∧ t.mem = s.mem ∧ t.dev.now = s.dev.now + 1 ∧
      { t.dev.rest with now := s.dev.now } = s.dev.rest ∧ t.dev.queues = s.dev.queues ∧
      (s.dev.timerOn = false → t.dev.regs = s.dev.regs) ∧
      (s.dev.timerOn = true → t.dev.g Reg.BEAT_CFG_PHASE = min (s.dev.g Reg.BEAT_CFG_PHASE + 1) (s.dev.period - 1) % 2 ^ 15) ∧
      ∀ k, k ∉ fieldKeys 0 [Reg.BEAT_CFG_PHASE, Reg.BEAT_CFG_STATUS_WINDOW] → SMap.find t.dev.regs k = SMap.find s.dev.regs k) ∧
    (∀ pg, s.dev.resetting = [(pg, s.dev.now + 1, true)] → s.dev.rst.back = [] → s.dev.timerOn = false → s.dev.bs pg = Bs.resetting →
      s.dev.hd Hdr.CTL_EN pg = 0 →
      step s = s.ends (({ s.dev.start with now := s.dev.now + 1, resetting := [] }.setBs pg Bs.off).raise pg 0x0108 3 Sev.info 0))

/-- The invariant is kept by every step from every state that has it: the store stays in canonical form, with no store operation left
over. -/
def Obligations.StepKeepsInvariant : Prop := ∀ (s t : State), s.Inv → step s = .next t → t.Inv

/-- Right after power-on the invariant holds, nothing waits, the store lists nothing, and the reset is still held (R530, R531). The values
of registers the spec gives none are the model's choice (assumption 5), and so is that the store reads 0 (assumption 3). -/
def Obligations.ResetState : Prop :=
  State.reset.Inv ∧ State.reset.pending = [] ∧ (∀ a, Mem.read State.reset.mem a = 0) ∧ State.reset.dev.rst.held = true ∧
  (∀ (f : Field) (pg i : Nat), State.reset.dev.get f pg i = f.rst i ∧ State.reset.dev.shadowGet f pg i = f.rst i)

/-- No command stops the machine, none touches the queue, and none leaves a store operation over. -/
def Obligations.EveryCommandCompletes : Prop :=
  ∀ (c : Instr) (s : State), ∃ t, exec c s = .next t ∧ t.pending = s.pending ∧ t.dev.writes = []

/-- Only these commands may change the store; every other command leaves every byte as it was. -/
def Obligations.OnlyStoringCommandsStore : Prop :=
  ∀ (c : Instr) (s t : State), storing c = false → exec c s = .next t → t.mem = s.mem

/-! ## Register accesses (R39 to R50) -/

/-- R43, R45: the codes of accesses that are not performed: such an access answers its code and changes nothing at all. A package in reset answers no
access, and its requester completes it with TIMEOUT (R66; the model's reading, assumption 126). R43, R44, R249: a read that is performed completes
with DONE and the value of its word, with what the word latches latched; one that meets an uncorrectable error completes with UERR and changes
nothing. A read of BEAT_NUM.LO answers its low word and latches BEAT_NUM.HI; nothing else changes. -/
def Obligations.AccessesAndLatches : Prop :=
  (∀ (s : State) (r : Requester) (session addr value : BitVec 32) (write uerr : Bool) (code : Nat),
    (let pg := addr.toNat / 4096
     let off := addr.toNat % 4096
     let up := s.dev.rst.held = false ∧ s.dev.rst.runsTo ≤ s.dev.now
     (¬ up ∧ code = 7) ∨
     (up ∧ pageOk pg = false ∧ code = 1) ∨
     (up ∧ pageOk pg = true ∧ pgClass pg ≠ 14 ∧ r = .host false ∧ write = true ∧ code = 12) ∨
     (up ∧ pageOk pg = true ∧ pgClass pg ≠ 14 ∧ r ≠ .host false ∧ off % 4 ≠ 0 ∧ code = 10) ∨
     (up ∧ pageOk pg = true ∧ pgClass pg ≠ 14 ∧ r ≠ .host false ∧ off % 4 = 0 ∧ 128 ≤ off ∧ s.dev.bs pg = 7 ∧ code = 2) ∨
     (up ∧ pageOk pg = true ∧ pgClass pg ≠ 14 ∧ r ≠ .host false ∧ off % 4 = 0 ∧ 128 ≤ off ∧ s.dev.bs pg = 5 ∧ code = 6)) →
    ∃ t, exec (if write then .registerWrite r session addr value else .latchedRead r ⟨addr, uerr⟩) s = .next t ∧
      Unchanged s t ∧ t.dev.out = [.completion code 0]) ∧
  (∀ (s : State) (r : Requester) (addr : BitVec 32),
    let pg := addr.toNat / 4096
    let off := addr.toNat % 4096
    (s.accepts r pg off false → exec (.latchedRead r ⟨addr, true⟩) s = s.ends (s.dev.start.done 8) ∧
      exec (.latchedRead r ⟨addr, false⟩) s = s.ends (((s.dev.start.viewFor pg).latchWord pg off).done 0 ((s.dev.start.viewFor pg).wordRead pg off))) ∧
    (s.accepts r (pageNum 8 0 0) 0x0A0 false →
      exec (.latchedRead r ⟨BitVec.ofNat 32 (pageNum 8 0 0 * 4096 + 0x0A0), false⟩) s =
        s.ends ({ s.dev.start with latch := SMap.put s.dev.latch (Reg.BEAT_CFG_BEAT_NUM_HI.key (pageNum 8 0 0) 0)
                                     (BitVec.ofNat 32 (s.dev.g Reg.BEAT_CFG_BEAT_NUM_HI)) }.done 0
                  (match SMap.find s.dev.latch (Reg.BEAT_CFG_BEAT_NUM_LO.key (pageNum 8 0 0) 0) with
                   | some w => w.toNat
                   | none => s.dev.g Reg.BEAT_CFG_BEAT_NUM_LO))))

/-- R45: the header of a page stays accessible in every block state: whether an access to it is performed does not depend on the state
of the block. -/
def Obligations.HeaderAlwaysAccessible : Prop :=
  ∀ (s : State) (r : Requester) (pg off v : Nat) (write : Bool), off < 128 → pg < 2 ^ 20 →
    (State.accepts { s with dev := s.dev.setBs pg v } r pg off write ↔ s.accepts r pg off write)

/-! ## Blocks: enable, quiesce, reset, errors (R61 to R70) -/

/-- R68: a write of EN completes with DONE on every page. The value that EN holds changes nothing more. EN from 0 to 1 takes a block that is OFF to
IDLE and leaves the state of any other; EN from 1 to 0 takes one that is IDLE to OFF, starts the quiesce of R63 in one in RUN, and leaves the
state of any other. A link port's page and a host port's page also follow EN: a link port that is DISABLED goes to DOWN (R389, while no route
table is live), a host port that is DISABLED goes to DOWN (R412); on every other page nothing else follows. R43, R69, R557: RREQ. On a page whose
block has no reset it completes with UNSUPPORTED; on a RETIRED block it completes with no effect (the model's choice, assumption 110). A block
that is QUIESCED, RESETTING or in FAULT is reset; one that is QUIESCING is reset once it has drained, any other quiesces first. A reset block is
in RESETTING with EN and QREQ at 0; the words R69 keeps are kept, and on a page of a store every other register has its reset value. -/
def Obligations.EnableAndReset : Prop :=
  (∀ (s : State) (r : Requester) (pg : BitVec 20) (en : Bool), s.accepts r pg.toNat 0x010 true →
    (s.dev.hd Hdr.CTL_EN pg.toNat = ofB en → exec (.pageCtlEn r pg en) s = s.ends ((s.dev.start.hw Hdr.CTL_EN pg.toNat (ofB en)).done 0)) ∧
    (let d := (s.dev.start.hw Hdr.CTL_EN pg.toNat (ofB en)).enHook pg.toNat en
     let b := d.bs pg.toNat
     s.dev.hd Hdr.CTL_EN pg.toNat ≠ ofB en → exec (.pageCtlEn r pg en) s = s.ends ((if en then (if b = Bs.off then d.setBs pg.toNat Bs.idle else d)
       else if b = Bs.idle then d.setBs pg.toNat Bs.off else if b = Bs.run then d.quiesceSoft pg.toNat else d).done 0)) ∧
    (pgPage pg.toNat ≠ 0 ∨ (pgClass pg.toNat ≠ 6 ∧ pgClass pg.toNat ≠ 7) → ∀ d : Dev, d.enHook pg.toNat en = d) ∧
    (∀ d : Dev, ∀ p < 32, pg.toNat = pgLinkPhy p → d.phy p = 0 → d.routeLive = false →
      d.enHook pg.toNat true = d.wr Reg.LINK_PHY_STATE (linkInst p) 1) ∧
    (∀ d : Dev, ∀ p < 8, pg.toNat = pageNum 7 (hostInst p) 0 → d.rd Reg.HOST_MAC_STATE (hostInst p) = 0 →
      d.enHook pg.toNat true = d.wr Reg.HOST_MAC_STATE (hostInst p) 1)) ∧
  (∀ (s : State) (r : Requester) (pg : BitVec 20), s.accepts r pg.toNat 0x010 true →
    let d := s.dev.start
    let i := s.dev.info pg.toNat
    (capQuiesce pg.toNat = false → exec (.pageCtlRreq r pg) s = s.ends (d.done 11)) ∧
    (capQuiesce pg.toNat = true →
      (s.dev.bs pg.toNat = Bs.retired → exec (.pageCtlRreq r pg) s = s.ends (d.done 0)) ∧
      (s.dev.bs pg.toNat = Bs.quiesced ∨ s.dev.bs pg.toNat = Bs.resetting ∨ s.dev.bs pg.toNat = Bs.fault →
        exec (.pageCtlRreq r pg) s = s.ends ((d.resetPage pg.toNat).done 0)) ∧
      (s.dev.bs pg.toNat = Bs.quiescing →
        exec (.pageCtlRreq r pg) s = s.ends (((d.setInfo pg.toNat { i with resetAfter := true }).tryQuiesced pg.toNat).done 0)) ∧
      (s.dev.bs pg.toNat < Bs.quiescing → exec (.pageCtlRreq r pg) s =
        s.ends (((d.setInfo pg.toNat { i with resetAfter := true, waitBoundary := false }).quiesce pg.toNat).done 0)) ∧
      (d.resetPage pg.toNat).bs pg.toNat = Bs.resetting) ∧
    ((pgClass pg.toNat = 1 ∧ pgPage pg.toNat = 3) ∨ (pgClass pg.toNat = 3 ∧ pgPage pg.toNat = 1) → i.group = none →
      let t := d.resetPage pg.toNat
      t.hd Hdr.CTL_EN pg.toNat = 0 ∧ t.hd Hdr.CTL_QREQ pg.toNat = 0 ∧
      (∀ f ∈ [Hdr.MASK_COMMON, Hdr.MASK_BLOCK, Hdr.CERR_COUNT, Hdr.CERR_SRC, Hdr.UERR_COUNT, Hdr.UERR_SRC, Hdr.TIMEOUT_LIMIT, Hdr.EVT_COMMON],
        t.hd f pg.toNat = s.dev.hd f pg.toNat) ∧
      (∀ f ∈ Reg.all, f.keep = false → ∀ n, 128 ≤ keyOff (f.key pg.toNat n) → f.key pg.toNat n / (4096 * 32) = pg.toNat →
        keptKey (f.key pg.toNat n) = false → t.get f pg.toNat n = f.rst n) ∧
      t.units = s.dev.units ∧ (∀ k, ¬ (pageLo pg.toNat ≤ k ∧ k < pageHi pg.toNat) → SMap.find t.regs k = SMap.find s.dev.regs k)))

/-- R63, R64: QREQ from 0 to 1 on a block that contains no other, that no running plan uses and that works: it is QUIESCING at once, with the limit
and the time it captured, while anything is open; with nothing open it is QUIESCED and 0x0106 is raised. A page whose block does not quiesce
refuses (R43, R557). R65, R68: QREQ from 1 to 0 on a QUIESCED block that nothing else fences: DROPS returns to 0 and the block to IDLE, or to OFF
with EN at 0; on a QUIESCING block it only waits. R63 step 3, R64: a QUIESCING block whose QREQ is still 1 becomes QUIESCED with 0x0106 once
nothing is open, and not before; when its limit passes, what is open gets its end (`Dev.force`), and the block is QUIESCED with 0x0107 and both
counts. A block that contains others or that a top block waits for does the same with them (R67: `Dev.tryQuiesced`, `Dev.cut`). -/
def Obligations.Quiesces : Prop :=
  (∀ (s : State) (r : Requester) (pg : BitVec 20), s.accepts r pg.toNat 0x010 true →
    (capQuiesce pg.toNat = false → exec (.pageCtlQreqSet r pg) s = s.ends (s.dev.start.done 11)) ∧
    (capQuiesce pg.toNat = true → pgPage pg.toNat ≠ 0 → s.dev.hd Hdr.CTL_QREQ pg.toNat = 0 → s.dev.stepOpen = false →
      s.dev.bs pg.toNat < Bs.quiescing → (s.dev.info pg.toNat).resetAfter = false → s.dev.hd Hdr.TIMEOUT_LIMIT pg.toNat ≠ 0 →
      let d := ((s.dev.start.hw Hdr.CTL_QREQ pg.toNat 1).setBs pg.toNat Bs.quiescing).setInfo pg.toNat
        { s.dev.info pg.toNat with quiesceAt := s.dev.now, limit := s.dev.hd Hdr.TIMEOUT_LIMIT pg.toNat, waitBoundary := false }
      (s.dev.openReqs pg.toNat ≠ (0, 0) → exec (.pageCtlQreqSet r pg) s = s.ends (d.done 0)) ∧
      (s.dev.openReqs pg.toNat = (0, 0) → exec (.pageCtlQreqSet r pg) s =
        s.ends (((d.setBs pg.toNat Bs.quiesced).raise pg.toNat 0x0106 2 Sev.info 0).done 0)))) ∧
  (∀ (s : State) (r : Requester) (pg : BitVec 20), s.accepts r pg.toNat 0x010 true → pgPage pg.toNat ≠ 0 →
    s.dev.hd Hdr.CTL_QREQ pg.toNat = 1 →
    let d := (s.dev.start.hw Hdr.CTL_QREQ pg.toNat 0).setInfo pg.toNat { s.dev.info pg.toNat with waitBoundary := false }
    (s.dev.bs pg.toNat = Bs.quiescing → exec (.pageCtlQreqClear r pg) s = s.ends (d.done 0)) ∧
    (s.dev.bs pg.toNat = Bs.quiesced → d.fencedBy pg.toNat = false → exec (.pageCtlQreqClear r pg) s =
      s.ends (((d.hw Hdr.DROPS pg.toNat 0).setBs pg.toNat (if s.dev.hd Hdr.CTL_EN pg.toNat = 1 then Bs.idle else Bs.off)).done 0))) ∧
  (∀ (s : State) (pg : BitVec 20),
    exec (.quiesceDrainComplete pg) s = s.endsStore ((pg.toNat :: containers pg.toNat).foldl Dev.tryQuiesced s.dev.start).domFinish ∧
    (s.dev.bs pg.toNat ≠ Bs.quiescing → exec (.quiesceTimeout pg) s = s.ends s.dev.start) ∧
    (s.dev.bs pg.toNat = Bs.quiescing → exec (.quiesceTimeout pg) s =
      s.endsStore ((s.dev.start.passTo ((s.dev.info pg.toNat).quiesceAt + us (s.dev.info pg.toNat).limit)).cut pg.toNat).domFinish) ∧
    (pgPage pg.toNat ≠ 0 → s.dev.rst.drain = [] → s.dev.bs pg.toNat = Bs.quiescing → (s.dev.info pg.toNat).resetAfter = false →
      s.dev.hd Hdr.CTL_QREQ pg.toNat = 1 → (∀ q ∈ containers pg.toNat, s.dev.bs q ≠ Bs.quiescing) →
      (s.dev.openReqs pg.toNat = (0, 0) → exec (.quiesceDrainComplete pg) s =
        s.ends ((s.dev.start.setBs pg.toNat Bs.quiesced).raise pg.toNat 0x0106 2 Sev.info 0)) ∧
      (s.dev.openReqs pg.toNat ≠ (0, 0) → exec (.quiesceDrainComplete pg) s = s.ends s.dev.start)) ∧
    (∀ d : Dev, d.bs pg.toNat = Bs.quiescing → d.openReqs pg.toNat ≠ (0, 0) →
      let n := d.openReqs pg.toNat
      let e := ((d.force pg.toNat 7 true).setBs pg.toNat Bs.quiesced).raise pg.toNat 0x0107 2 Sev.warn (sat 16 n.1 + 65536 * sat 16 n.2)
      (e.info pg.toNat).resetAfter = false → e.fencedBy pg.toNat = true → d.cutOne pg.toNat = e))

/-- R65, R66, R70: a reply that reaches a QUIESCED or faulted block, or that answers no request the block has open under its tag, is discarded and
counted in DROPS, which stops at 255, and nothing else changes; a block that awaits it takes it. R66: the oldest request that a block has open
under a tag is completed by the requester with TIMEOUT once LIMIT has passed since it was issued: a sequencer's kick, a block that CMOVE has
passed on, the descriptor an engine runs, a control core's kick. With none open under the tag, nothing happens. R46, R70: an uncorrectable error
that a block cannot contain: its accepted requests end with UERR, it is in FAULT, the error is counted with its source, and 0x010A is raised with
source and state; a block already in FAULT only counts it. A control core that fails takes its region with it, a die manager core its die (R19). A
block that is RESETTING or RETIRED, and a package in reset, are not touched. -/
def Obligations.RepliesAndErrors : Prop :=
  (∀ (s : State) (pg : BitVec 20) (tag : BitVec 4), pageOk pg.toNat = true →
    (s.dev.bs pg.toNat = Bs.quiesced ∨ s.dev.bs pg.toNat = Bs.fault ∨ s.dev.awaits pg.toNat tag.toNat = false →
      exec (.replyArrival ⟨pg, tag⟩) s = s.ends (s.dev.start.hw Hdr.DROPS pg.toNat (min 255 (s.dev.hd Hdr.DROPS pg.toNat + 1)))) ∧
    (s.dev.bs pg.toNat ≠ Bs.quiesced → s.dev.bs pg.toNat ≠ Bs.fault → s.dev.awaits pg.toNat tag.toNat = true →
      exec (.replyArrival ⟨pg, tag⟩) s = s.ends s.dev.start)) ∧
  (∀ (s : State) (pg : BitVec 20) (tag : BitVec 4), pageOk pg.toNat = true →
    let i := pgInst pg.toNat
    let limit := us (s.dev.hd Hdr.TIMEOUT_LIMIT pg.toNat)
    let d := s.dev.start
    (s.dev.awaits pg.toNat tag.toNat = false → exec (.requestTimeout pg tag) s = s.ends d) ∧
    (pgClass pg.toNat = 1 → pgPage pg.toNat = 0 → ∀ k, (s.dev.info pg.toNat).issued.find? (fun k => k.1 == tag.toNat) = some k →
      exec (.requestTimeout pg tag) s = s.ends ((d.passTo (k.2 + limit)).kickDone i tag.toNat 7)) ∧
    (pgClass pg.toNat = 2 → pgPage pg.toNat = 2 → ∀ b, (s.dev.passedBlocks i).find? (fun b => b.tag == tag.toNat) = some b →
      exec (.requestTimeout pg tag) s = s.ends ((d.passTo (b.sentAt + limit)).giveUp i 7 (· == b))) ∧
    (pgClass pg.toNat = 3 → pgPage pg.toNat = 4 → ∀ x, (s.dev.eng true i).run = some x → (s.dev.eng true i).desc.isSome = true →
      x.block.tag = tag.toNat → exec (.requestTimeout pg tag) s = s.ends ((d.passTo (x.issuedAt + limit)).putEng true i
        { s.dev.eng true i with run := some { x with fault := some (10, x.next + 1, 7) } })) ∧
    (pgClass pg.toNat = 3 → pgPage pg.toNat = 0 → ∀ x, (s.dev.coreBlocks i).find? (fun x => x.2.tag == tag.toNat) = some x →
      exec (.requestTimeout pg tag) s = s.ends ((d.passTo (x.2.heldAt + limit)).coreGiveUp [x]))) ∧
  (∀ (s : State) (pg : BitVec 20) (src : BitVec 8), pageOk pg.toNat = true →
    (s.dev.bs pg.toNat = Bs.resetting ∨ s.dev.bs pg.toNat = Bs.retired ∨ s.dev.rst.held = true → exec (.uncorrectableError pg src) s = s.ends s.dev.start) ∧
    (s.dev.bs pg.toNat ≠ Bs.resetting → s.dev.bs pg.toNat ≠ Bs.retired → s.dev.rst.held = false →
      let d := if s.dev.bs pg.toNat = Bs.fault then s.dev.start else s.dev.start.force pg.toNat 8 false
      let e := (d.setBs pg.toNat Bs.fault).uncorrectable pg.toNat src.toNat
      let core := pgPage pg.toNat = 0 ∧ (pgClass pg.toNat = 3 ∨ pgClass pg.toNat = 4)
      exec (.uncorrectableError pg src) s =
        s.endsStore ((if core then e.retire (pgClass pg.toNat, pgInst pg.toNat) else e).managerLost s.dev.start) ∧
      e.bs pg.toNat = Bs.fault ∧ e.hd Hdr.UERR_COUNT pg.toNat = min 65535 (d.hd Hdr.UERR_COUNT pg.toNat + 1) ∧
      e.hd Hdr.UERR_SRC pg.toNat = src.toNat ∧ bit (e.hd Hdr.EVT_COMMON pg.toNat) 5 = true))

/-! ## Register writes (R41, R42, R50, R56, R59) -/

/-- R41, R42, R50, R56, R59: what a register write does. A word whose fields are all RO, or that has none, takes the write and keeps its
value. A word with an LK field is refused with LOCKED outside OFF, IDLE and QUIESCED, and 0x0105 is raised. A word with an SH field is refused
with ARMED on an armed or grouped page. A write of an SH word lands in the shadow set only (shown by LATE_LIMIT and VOTE_LIMIT of
BEAT_CFG); a read returns the live value or, with SHADOW_VIEW, the shadow value. A write of an RW word takes effect at once (shown by the
event masks of every page and its limit). -/
def Obligations.RegisterWrites : Prop :=
  ∀ (s : State) (r : Requester) (session w : BitVec 32) (pg : BitVec 20) (off : BitVec 12), s.accepts r pg.toNat off.toNat true →
    let addr : BitVec 32 := pg ++ off
    let fs := wordFields pg.toNat off.toNat
    let st := s.dev.hd Hdr.STAT_STATUS pg.toNat
    (actionOf s.mem session.toNat pg.toNat off.toNat w.toNat = none →
      ((∀ x ∈ fs, x.1.acc = .ro) → s.dev.groupWord pg.toNat off.toNat = false →
        exec (.registerWrite r session addr w) s = s.ends (s.dev.start.done 0)) ∧
      ((∃ x ∈ fs, x.1.acc = .lk) → s.dev.bs pg.toNat ≠ Bs.off → s.dev.bs pg.toNat ≠ Bs.idle → s.dev.bs pg.toNat ≠ Bs.quiesced →
        exec (.registerWrite r session addr w) s = s.ends ((((s.dev.start.hw Hdr.LOCK_REFUSED pg.toNat 1).hw Hdr.LOCK_WORD pg.toNat
          (off.toNat / 4)).raise pg.toNat 0x0105 1 Sev.warn (off.toNat / 4)).done 3)) ∧
      ((∃ x ∈ fs, x.1.acc = .sh) → (∀ x ∈ fs, x.1.acc ≠ .lk) → (st = 1 ∨ st = 5) →
        exec (.registerWrite r session addr w) s = s.ends (s.dev.start.done 4)) ∧
      ((∀ x ∈ fs, x.1.acc = .sh ∨ x.1.acc = .ro) → s.dev.groupWord pg.toNat off.toNat = false → st ≠ 1 → st ≠ 5 → ∃ t,
        exec (.registerWrite r session addr w) s = .next t ∧ t.dev.out = [.completion 0 0] ∧ t.mem = s.mem ∧ t.pending = s.pending ∧
        t.dev.regs = s.dev.regs ∧ t.dev.queues = s.dev.queues ∧ { t.dev.rest with shadow := s.dev.shadow } = s.dev.rest)) ∧
    (pg.toNat = pageNum 8 0 0 → off.toNat = 0x094 → st ≠ 1 → st ≠ 5 → exec (.registerWrite r session addr w) s =
      s.ends (((s.dev.start.shadowSet Reg.BEAT_CFG_LATE_LIMIT pg.toNat 0 (w.toNat % 65536)).shadowSet Reg.BEAT_CFG_VOTE_LIMIT pg.toNat 0
        (w.toNat / 65536)).done 0)) ∧
    (pg.toNat = pageNum 8 0 0 → off.toNat = 0x080 → s.accepts r pg.toNat 0x080 false → exec (.latchedRead r ⟨addr, false⟩) s =
      s.ends (s.dev.start.done 0 (if s.dev.hd Hdr.CTL_SHADOW_VIEW pg.toNat = 1 then s.dev.sh Reg.BEAT_CFG_PERIOD 0
        else s.dev.g Reg.BEAT_CFG_PERIOD))) ∧
    (off.toNat = 0x01C → ∃ t, exec (.registerWrite r session addr w) s = .next t ∧ t.dev.out = [.completion 0 0] ∧
      t.dev.hd Hdr.MASK_COMMON pg.toNat = w.toNat % 256 ∧ t.dev.hd Hdr.MASK_BLOCK pg.toNat = w.toNat / 256 % 65536 ∧
      OnlyRegs { s with dev := { s.dev with latch := t.dev.latch } } t
        [Hdr.MASK_COMMON.key pg.toNat 0, Hdr.MASK_BLOCK.key pg.toNat 0]) ∧
    (off.toNat = 0x040 → ∃ t, exec (.registerWrite r session addr w) s = .next t ∧ t.dev.out = [.completion 0 0] ∧
      t.dev.hd Hdr.TIMEOUT_LIMIT pg.toNat = w.toNat % 2 ^ 20 ∧
      OnlyRegs { s with dev := { s.dev with latch := t.dev.latch } } t [Hdr.TIMEOUT_LIMIT.key pg.toNat 0])

/-- R56: while a group is armed, writes to its CG_SIZE and to its CG_MEM words are refused with ARMED. A write of CG_CTL with both ARM and
DISCARD set to 1 completes with UNSUPPORTED. -/
def Obligations.ArmedGroupWrites : Prop :=
  ∀ (s : State) (r : Requester) (session w : BitVec 32) (g : BitVec 3) (m : BitVec 5),
    (s.dev.groupArmed g.toNat = true →
      (s.accepts r pgCommit (0x0C0 + 4 * g.toNat) true →
        exec (.registerWrite r session (BitVec.ofNat 32 (pgCommit * 4096 + 0x0C0 + 4 * g.toNat)) w) s = s.ends (s.dev.start.done 4)) ∧
      (s.accepts r pgCommit (0x400 + 128 * g.toNat + 4 * m.toNat) true →
        exec (.registerWrite r session (BitVec.ofNat 32 (pgCommit * 4096 + 0x400 + 128 * g.toNat + 4 * m.toNat)) w) s =
          s.ends (s.dev.start.done 4))) ∧
    (s.accepts r pgCommit 0x080 true → w.getLsbD 8 = true → w.getLsbD 9 = true →
      exec (.registerWrite r session (BitVec.ofNat 32 (pgCommit * 4096 + 0x080)) w) s = s.ends (s.dev.start.done 11))

/-- R269: the check of R51 on BEAT_LOCK: an arm is rejected with RANGE when a timeout or LOCK_COUNT is 0, and, with none of them 0, with
DEPENDENCY when HOLD_LIMIT times the beat period exceeds 2,500; at the commit boundary it fails with DEPENDENCY in the same case. A
rejected set is kept. -/
def Obligations.BeatLockCheck : Prop :=
  ∀ (s : State) (r : Requester) (tag : BitVec 6) (pg : BitVec 20), pg.toNat = pageNum 8 0 1 → s.dev.bs pg.toNat < Bs.resetting →
    let some0 := s.dev.sh Reg.BEAT_LOCK_MARKER_TIMEOUT 0 = 0 ∨ s.dev.sh Reg.BEAT_LOCK_SOURCE_TIMEOUT 0 = 0 ∨
      s.dev.sh Reg.BEAT_LOCK_LOCK_COUNT 0 = 0
    let long := 2500 < s.dev.sh Reg.BEAT_LOCK_HOLD_LIMIT 0 * s.dev.g Reg.BEAT_CFG_PERIOD
    let st := s.dev.hd Hdr.STAT_STATUS pg.toNat
    (s.accepts r pg.toNat 0x030 true → st ≠ 1 → st ≠ 5 → ∃ t, exec (.pageArmArm r pg tag none) s = .next t ∧
      t.dev.out = [.completion 0 0] ∧ t.mem = s.mem ∧ t.pending = s.pending ∧ t.dev.shadow = s.dev.shadow ∧
      t.dev.hd Hdr.STAT_STATUS pg.toNat = (if some0 ∨ long then 3 else 1) ∧
      t.dev.hd Hdr.STAT_REASON pg.toNat = (if some0 then 1 else if long then 3 else 0)) ∧
    (st = 1 → s.dev.boundaryDue (s.dev.info pg.toNat).armedAt 20 = true → long → ∃ t, exec (.shadowCommit pg) s = .next t ∧
      t.mem = s.mem ∧ t.pending = s.pending ∧ t.dev.shadow = s.dev.shadow ∧ t.dev.hd Hdr.STAT_STATUS pg.toNat = 3 ∧
      t.dev.hd Hdr.STAT_REASON pg.toNat = 3)

/-! ## Events, error counts and counters -/

/-- R72: a W1C write of PAGE_EVT clears exactly the event bits written as 1. R46: CERR.CLR and UERR.CLR clear a count and its source. R74: a queue
that lost records and has space again emits one record 0x010B with the number lost and forgets it; with nothing lost, with no space, or while an
earlier 0x010B is pending (the model's choice, assumption 63), nothing happens. R72, R73, R74: an event whose pending bit is clear and whose mask
bit is 0 puts one record in each queue of its page that has room; one whose pending bit is set, or that is masked, puts none; either way its
pending bit is set after. (Shown by the corrected and uncorrectable errors of a local store, whose records go to its region's queue.) -/
def Obligations.Events : Prop :=
  ((∀ (s : State) (r : Requester) (pg : BitVec 20) (w : BitVec 32), s.accepts r pg.toNat 0x018 true →
    ∃ t, exec (.pageEvtClear r pg w) s = .next t ∧ t.dev.out = [.completion 0 0] ∧ OnlyRegs s t (evtKeys pg.toNat) ∧
      (∀ n, n < 8 → bit (t.dev.hd Hdr.EVT_COMMON pg.toNat) n = (bit (s.dev.hd Hdr.EVT_COMMON pg.toNat) n && ! w.getLsbD n)) ∧
      (∀ n, n < 16 → bit (t.dev.hd Hdr.EVT_BLOCK pg.toNat) n = (bit (s.dev.hd Hdr.EVT_BLOCK pg.toNat) n && ! w.getLsbD (8 + n)))) ∧
  (∀ (s : State) (r : Requester) (pg : BitVec 20), s.accepts r pg.toNat 0x020 true → exec (.pageCerrClr r pg) s =
    s.ends (((s.dev.start.hw Hdr.CERR_COUNT pg.toNat 0).hw Hdr.CERR_SRC pg.toNat 0).done 0)) ∧
  (∀ (s : State) (r : Requester) (pg : BitVec 20), s.accepts r pg.toNat 0x024 true → exec (.pageUerrClr r pg) s =
    s.ends (((s.dev.start.hw Hdr.UERR_COUNT pg.toNat 0).hw Hdr.UERR_SRC pg.toNat 0).done 0)) ∧
  (∀ (s : State) (q : BitVec 6), let e := SMap.at s.dev.queues q.toNat {}
    (e.lost = 0 ∨ queueCap q.toNat ≤ e.recs.length ∨ bit (s.dev.hd Hdr.EVT_BLOCK pgEventQ) 0 = true → exec (.evtLost q) s = s.ends s.dev.start) ∧
    (e.lost ≠ 0 → e.recs.length < queueCap q.toNat → bit (s.dev.hd Hdr.EVT_BLOCK pgEventQ) 0 = false → exec (.evtLost q) s =
      s.ends ({ s.dev.start with queues := SMap.put s.dev.queues q.toNat { e with lost := 0 } }.raise pgEventQ 0x010B 8 Sev.warn e.lost)))) ∧
  (∀ (d : Dev) (u code detail : Nat) (sev : Nat), u < 4096 →
    let pg := pgLstore u
    let q := u / 256
    let e := SMap.at d.queues q {}
    let r : EventRec := ⟨code, sev, pg, d.eventBeat, detail % 2 ^ 32⟩
    let after := d.raise pg code 5 sev detail
    bit (after.hd Hdr.EVT_COMMON pg) 5 = true ∧
    (bit (d.hd Hdr.EVT_COMMON pg) 5 = true ∨ bit (d.hd Hdr.MASK_COMMON pg) 5 = true → after.queues = d.queues) ∧
    (bit (d.hd Hdr.EVT_COMMON pg) 5 = false → bit (d.hd Hdr.MASK_COMMON pg) 5 = false → e.recs.length < 256 →
      after.queues = SMap.put d.queues q { e with recs := e.recs ++ [r] }) ∧
    (bit (d.hd Hdr.EVT_COMMON pg) 5 = false → bit (d.hd Hdr.MASK_COMMON pg) 5 = false → 256 ≤ e.recs.length →
      after.queues = SMap.put d.queues q { e with lost := e.lost + 1 } ∧ after.hd Hdr.EVT_OVERFLOW pg = 1))

/-- R146, R181, R206, R242, R358, R382, R409, R418, R448: a write of 1 to a CNT_CLR bit (R181: to CSTAT_CLR) clears exactly the counters its
table names, and changes nothing else; the access is done. -/
def Obligations.CountersCleared : Prop :=
  ∀ (s : State) (r : Requester) (u : BitVec 12) (l : BitVec 5) (h : BitVec 3),
    (∀ x ∈ [(pgMatrix u.toNat, 0x0F4, Instr.matrixCntClr r u, u.toNat,
        [Reg.MATRIX_MISMATCH_TOTAL, Reg.MATRIX_BUSY, Reg.MATRIX_FRONT_STALL, Reg.MATRIX_DRAIN_STALL, Reg.MATRIX_CQ_STALL,
         Reg.MATRIX_RECOMP_CYCLES, Reg.MATRIX_FLAG_CNT]),
      (pgVector u.toNat, 0x140, .vectorCntClr r u, u.toNat,
        [Reg.VECTOR_BUSY, Reg.VECTOR_POP_WAIT, Reg.VECTOR_CQ_READ_STALL, Reg.VECTOR_CHECK_BUSY, Reg.VECTOR_TILES_CHECKED,
         Reg.VECTOR_FLAG_CNT]),
      (pgVector u.toNat, 0x140, .vectorCstatClr r u, u.toNat,
        [Reg.VECTOR_CSTAT_SAT, Reg.VECTOR_CSTAT_CRUSH, Reg.VECTOR_CSTAT_ALL_ZERO, Reg.VECTOR_CSTAT_ALL_SAT]),
      (pgSeq u.toNat, 0x0B4, .seqCntClr r u, u.toNat,
        [Reg.SEQ_ISSUED, Reg.SEQ_STALL_DEP, Reg.SEQ_STALL_CQ, Reg.SEQ_STALL_VBUSY, Reg.SEQ_STALL_M, Reg.SEQ_STALL_D, Reg.SEQ_WAIT_SYNC,
         Reg.SEQ_LATE_CYCLES]),
      (pgCompress u.toNat, 0x100, .compressCntClr r u, u.toNat,
        [Reg.COMPRESS_RECORDS, Reg.COMPRESS_FALLBACK, Reg.COMPRESS_STORED, Reg.COMPRESS_RECORD_FAIL, Reg.COMPRESS_CSTAT_SAT,
         Reg.COMPRESS_CSTAT_CRUSH, Reg.COMPRESS_CSTAT_ALL_ZERO, Reg.COMPRESS_CSTAT_ALL_SAT]),
      (pgWatch, 0x094, .watchCntClr r, 0,
        [Reg.WATCH_REPLAYS, Reg.WATCH_DISCARDS, Reg.WATCH_LEVEL_UPS, Reg.WATCH_LEVEL_DOWNS, Reg.WATCH_SKIPS]),
      (pgExchCfg, 0x0A0, .exchCntClr r, 0,
        [Reg.EXCH_CFG_ON_TIME, Reg.EXCH_CFG_LATE, Reg.EXCH_CFG_CRC_FAIL, Reg.EXCH_CFG_STALE, Reg.EXCH_CFG_DUPLICATE,
         Reg.EXCH_CFG_AFTER_DECISION, Reg.EXCH_CFG_BLOCKS_ENCODED, Reg.EXCH_CFG_WIRE_BYTES]),
      (pgLinkErr l.toNat, 0x08C, .linkErrCntClr r l, linkInst l.toNat,
        [Reg.LINK_ERR_SHUTTLE_CRC, Reg.LINK_ERR_STALE, Reg.LINK_ERR_RESEND_REQ, Reg.LINK_ERR_RESEND_FAIL, Reg.LINK_ERR_SLACK_DISCARD]),
      (pgHostMac h.toNat, 0x0A0, .hostMacCntClr r h, hostInst h.toNat,
        [Reg.HOST_MAC_RX_FRAMES, Reg.HOST_MAC_TX_FRAMES, Reg.HOST_MAC_FCS_ERR, Reg.HOST_MAC_OVERSIZE, Reg.HOST_MAC_RX_DROP,
         Reg.HOST_MAC_OTHER, Reg.HOST_MAC_PAUSE_RX]),
      (pgHostSec h.toNat, 0x09C, .hostSecCntClr r h, hostInst h.toNat,
        [Reg.HOST_SEC_ICV_FAIL, Reg.HOST_SEC_REPLAY_DROP, Reg.HOST_SEC_UNPROTECTED_DROP, Reg.HOST_SEC_SAK_CHANGES]),
      (pgXport h.toNat, 0x0B8, .hostXportCntClr r h, hostInst h.toNat,
        [Reg.HOST_XPORT_SEGS_RX, Reg.HOST_XPORT_SEGS_TX, Reg.HOST_XPORT_RETRANSMITS, Reg.HOST_XPORT_DUP, Reg.HOST_XPORT_CRC_FAIL,
         Reg.HOST_XPORT_SESS_FAILED, Reg.HOST_XPORT_RESET_REJECTED])],
      s.accepts r x.1 x.2.1 true →
      ∃ t, exec x.2.2.1 s = .next t ∧ t.dev.out = [.completion 0 0] ∧ OnlyRegs s t (fieldKeys x.2.2.2.1 x.2.2.2.2) ∧
        ∀ f ∈ x.2.2.2.2, ∀ i, i < f.n → t.dev.rd f x.2.2.2.1 i = 0)

/-! ## Shadow sets and commit groups (R48 to R58) -/

/-- R48, R51, R53: ARM. A page without SH fields answers NO_SHADOW; an armed or grouped page refuses with ARMED and nothing changes; a set that fails
its check is REJECTED with reason and word and 0x0102 is raised, the shadow set kept (R52); a set that passes is ARMED. R54, R250, R558: what an
arm finds: STATE in RESETTING, FAULT and RETIRED; UERR with the word of a shadow store error; and, on BEAT_CFG, RANGE with word 0x080 ÷ 4 for a
period outside the table's bounds, else MISMATCH when the slack is too short. R48, R52, R53: DISCARD. A page without SH fields answers NO_SHADOW.
A GROUPED page, and an ARMED one whose commit boundary is 2 µs away or less, refuse with ARMED and the commit goes ahead. Otherwise the shadow set
is the live one again and the page is DISCARDED by software, a page that was not armed included (the model's choice, assumption 53). R51 steps 5
to 7, R52: the commit boundary of a page. A page that is not ARMED, or whose boundary has not come, is not touched. One whose check fails at the
boundary is REJECTED with reason and word, and 0x0102 is raised. One that passes commits: its shadow values become live with what follows from
them (`Dev.commitPage`), it is COMMITTED under its tag, and 0x0101 is raised. Shown by STEP_REC: with no step open all four SH fields take their
shadow values at once, and the shadow set reads as the live values; with a step open the page is REJECTED for a DEPENDENCY, its live values and
its shadow set as they were. -/
def Obligations.ShadowSets : Prop :=
  (∀ (s : State) (r : Requester) (pg : BitVec 20) (tag : BitVec 6) (err : Option (BitVec 10)), s.accepts r pg.toNat 0x030 true →
    let st := s.dev.hd Hdr.STAT_STATUS pg.toNat
    let reject := fun (reason word : Nat) => (((((s.dev.start.hw Hdr.STAT_STATUS pg.toNat 3).hw Hdr.STAT_REASON pg.toNat reason).hw Hdr.STAT_TAG
      pg.toNat tag.toNat).hw Hdr.STAT_WORD pg.toNat word).raise pg.toNat 0x0102 0 Sev.warn
        (3 + 256 * reason + 65536 * tag.toNat + 2 ^ 22 * word)).done 0
    (capShadow pg.toNat = false → exec (.pageArmArm r pg tag err) s = s.ends (reject 4 0)) ∧
    (capShadow pg.toNat = true → (st = 1 ∨ st = 5) → exec (.pageArmArm r pg tag err) s = s.ends (s.dev.start.done 4)) ∧
    (capShadow pg.toNat = true → st ≠ 1 → st ≠ 5 →
      (∀ reason word, s.dev.armCheck s.mem pg.toNat (err.map BitVec.toNat) = some (reason, word) →
        exec (.pageArmArm r pg tag err) s = s.ends (reject reason word)) ∧
      (s.dev.armCheck s.mem pg.toNat (err.map BitVec.toNat) = none → exec (.pageArmArm r pg tag err) s =
        s.ends ((((((s.dev.start.hw Hdr.STAT_STATUS pg.toNat 1).hw Hdr.STAT_REASON pg.toNat 0).hw Hdr.STAT_TAG pg.toNat tag.toNat).hw
          Hdr.STAT_WORD pg.toNat 0).setInfo pg.toNat { s.dev.info pg.toNat with armedAt := s.dev.now }).done 0)))) ∧
  (∀ (d : Dev) (m : Mem) (pg : Nat),
    (∀ err, 5 ≤ d.bs pg → d.armCheck m pg err = some (5, 0)) ∧
    (∀ w, d.bs pg < 5 → d.armCheck m pg (some w) = some (9, w)) ∧
    (d.bs (pageNum 8 0 0) < 5 →
      (d.sh Reg.BEAT_CFG_PERIOD 0 < d.g Reg.SIZE_TABLE_ST_BEAT_MIN ∨ d.g Reg.SIZE_TABLE_ST_BEAT_MAX < d.sh Reg.BEAT_CFG_PERIOD 0 →
        d.armCheck m (pageNum 8 0 0) none = some (1, 0x080 / 4)) ∧
      (d.g Reg.SIZE_TABLE_ST_BEAT_MIN ≤ d.sh Reg.BEAT_CFG_PERIOD 0 → d.sh Reg.BEAT_CFG_PERIOD 0 ≤ d.g Reg.SIZE_TABLE_ST_BEAT_MAX →
        d.sh Reg.BEAT_CFG_LATE_LIMIT 0 ≠ 0 → d.sh Reg.BEAT_CFG_VOTE_LIMIT 0 ≠ 0 → d.sh Reg.BEAT_CFG_LATE_SHARE 0 ≤ 90 →
        d.sh Reg.BEAT_CFG_FIT_MARGIN 0 ≤ 20 → 100 * d.sh Reg.BEAT_CFG_PERIOD 0 < d.sh Reg.BEAT_CFG_T_S 0 →
        d.armCheck m (pageNum 8 0 0) none = some (2, 0x080 / 4)))) ∧
  (∀ (s : State) (r : Requester) (pg : BitVec 20) (tag : BitVec 6), s.accepts r pg.toNat 0x030 true →
    let st := s.dev.hd Hdr.STAT_STATUS pg.toNat
    let near := s.dev.timerOn = true ∧ s.dev.boundaryAfter (s.dev.info pg.toNat).armedAt 20 ≤ s.dev.now + 20
    (capShadow pg.toNat = false → exec (.pageArmDiscard r pg tag) s = s.ends ((((((s.dev.start.hw Hdr.STAT_STATUS pg.toNat 3).hw Hdr.STAT_REASON
      pg.toNat 4).hw Hdr.STAT_TAG pg.toNat tag.toNat).hw Hdr.STAT_WORD pg.toNat 0).raise pg.toNat 0x0102 0 Sev.warn
        (3 + 256 * 4 + 65536 * tag.toNat)).done 0)) ∧
    (capShadow pg.toNat = true → st = 5 ∨ (st = 1 ∧ near) → exec (.pageArmDiscard r pg tag) s = s.ends (s.dev.start.done 4)) ∧
    (capShadow pg.toNat = true → st ≠ 5 → ¬ (st = 1 ∧ near) → exec (.pageArmDiscard r pg tag) s =
      s.ends ((((((s.dev.start.reloadShadow pg.toNat).hw Hdr.STAT_STATUS pg.toNat 4).hw Hdr.STAT_REASON pg.toNat 8).hw Hdr.STAT_TAG pg.toNat
        (s.dev.hd Hdr.STAT_TAG pg.toNat)).hw Hdr.STAT_WORD pg.toNat 0).done 0))) ∧
  (∀ (s : State) (pg : BitVec 20),
    let tag := s.dev.hd Hdr.STAT_TAG pg.toNat
    let due := s.dev.hd Hdr.STAT_STATUS pg.toNat = 1 ∧ s.dev.boundaryDue (s.dev.info pg.toNat).armedAt 20 = true
    (¬ due → exec (.shadowCommit pg) s = s.ends s.dev.start) ∧
    (due → ∀ reason word, s.dev.commitCheck s.mem pg.toNat = some (reason, word) → exec (.shadowCommit pg) s =
      s.ends (((((s.dev.start.hw Hdr.STAT_STATUS pg.toNat 3).hw Hdr.STAT_REASON pg.toNat reason).hw Hdr.STAT_TAG pg.toNat tag).hw Hdr.STAT_WORD
        pg.toNat word).raise pg.toNat 0x0102 0 Sev.warn (3 + 256 * reason + 65536 * tag + 2 ^ 22 * word))) ∧
    (due → s.dev.commitCheck s.mem pg.toNat = none → exec (.shadowCommit pg) s =
      s.ends ((s.dev.start.commitPage pg.toNat tag).raise pg.toNat 0x0101 0 Sev.info (65536 * tag))) ∧
    (pg.toNat = pageNum 8 0 2 → due → s.dev.bs pg.toNat < 5 → ∃ t, exec (.shadowCommit pg) s = .next t ∧
      (s.dev.stepOpen = false →
        t.dev.hd Hdr.STAT_STATUS pg.toNat = 2 ∧ t.dev.hd Hdr.STAT_REASON pg.toNat = 0 ∧
        (∀ f ∈ [Reg.STEP_REC_LEDGER_MODE, Reg.STEP_REC_FORCE_WAIT, Reg.STEP_REC_FORCE_BLOCK, Reg.STEP_REC_FORCE_COUNT],
          t.dev.g f = s.dev.sh f 0 % 2 ^ f.width ∧ t.dev.sh f 0 = t.dev.g f)) ∧
      (s.dev.stepOpen = true →
        t.dev.hd Hdr.STAT_STATUS pg.toNat = 3 ∧ t.dev.hd Hdr.STAT_REASON pg.toNat = 3 ∧
        (∀ f ∈ [Reg.STEP_REC_LEDGER_MODE, Reg.STEP_REC_FORCE_WAIT, Reg.STEP_REC_FORCE_BLOCK, Reg.STEP_REC_FORCE_COUNT],
          t.dev.g f = s.dev.g f) ∧ t.dev.shadow = s.dev.shadow) ∧
      bit (t.dev.hd Hdr.EVT_COMMON pg.toNat) 0 = true))

/-- R56, R57: ARM of a commit group. An armed group refuses a second ARM with ARMED. A member that breaks the membership rules rejects the group with its index
and touches no member. With none, every member is GROUPED under the tag; a member whose check fails then rejects the group and every member
(`Dev.groupFail`), and a group whose members all pass is ARMED. R57 step 4: at its commit boundary every member of an armed group commits, or none does;
before it, and without an armed group, nothing happens. R58: DISCARD refuses with ARMED within 20 µs of that boundary, does nothing to a group that is not
armed (the model's choice, assumption 53), and otherwise discards every member. -/
def Obligations.CommitGroups : Prop :=
  ∀ (s : State) (r : Requester) (g : BitVec 3) (tag : BitVec 6) (err : Option (BitVec 5 × BitVec 10)),
    let st := s.dev.g Reg.COMMIT_CG_STAT_STATUS g.toNat
    let d := s.dev.start
    let ms := s.dev.members g.toNat
    let stat := fun (d : Dev) (status reason tag member : Nat) => (((d.p Reg.COMMIT_CG_STAT_STATUS status g.toNat).p Reg.COMMIT_CG_STAT_REASON
      reason g.toNat).p Reg.COMMIT_CG_STAT_TAG tag g.toNat).p Reg.COMMIT_CG_STAT_MEMBER member g.toNat
    let wrong := fun (k : Nat) => (err.filter fun x => x.1.toNat == k).map fun x => x.2.toNat
    let grouped := ms.foldl (fun (d : Dev) x => (d.armStat x.2 5 0 tag.toNat 0).setInfo x.2
      { d.info x.2 with group := some g.toNat, armedAt := d.now }) d
    let checks := ms.map fun x => (x.1, s.dev.armCheck s.mem x.2 (wrong x.1))
    let near := s.dev.timerOn = true ∧ s.dev.boundaryAfter (s.dev.groupTime g.toNat) 200 < s.dev.now + 200
    let due := st = 1 ∧ s.dev.boundaryDue (s.dev.groupTime g.toNat) 200 = true
    let late := ms.map fun x => (x.1, s.dev.commitCheck s.mem x.2)
    (s.accepts r pgCommit 0x080 true →
      (st = 1 → exec (.cgCtlArm r g ⟨tag, err⟩) s = s.ends (d.done 4)) ∧
      (st ≠ 1 → ∀ reason k, s.dev.memberFault ms = some (reason, k) → exec (.cgCtlArm r g ⟨tag, err⟩) s =
        s.ends (((stat d 3 reason tag.toNat k).raise pgCommit 0x0104 9 Sev.warn (g.toNat + 256 * reason + 65536 * tag.toNat + 2 ^ 22 * k)).done 0)) ∧
      (st ≠ 1 → s.dev.memberFault ms = none →
        ((∀ x ∈ checks, x.2 = none) → exec (.cgCtlArm r g ⟨tag, err⟩) s =
            s.ends ({ stat grouped 1 0 tag.toNat 0 with groupAt := SMap.put s.dev.groupAt g.toNat s.dev.now }.done 0) ∧
          ∀ x ∈ ms, grouped.hd Hdr.STAT_STATUS x.2 = 5) ∧
        (∀ k reason word, checks.find? (fun x => x.2.isSome) = some (k, some (reason, word)) →
          exec (.cgCtlArm r g ⟨tag, err⟩) s = s.ends ((grouped.groupFail g.toNat tag.toNat ms k reason word).done 0))) ∧
      (st ≠ 1 → exec (.cgCtlDiscard r g) s = s.ends (d.done 0)) ∧
      (st = 1 → near → exec (.cgCtlDiscard r g) s = s.ends (d.done 4)) ∧
      (st = 1 → ¬ near → exec (.cgCtlDiscard r g) s = s.ends ((d.groupDrop g.toNat 8).done 0) ∧
        (d.groupDrop g.toNat 8).g Reg.COMMIT_CG_STAT_STATUS g.toNat = 4 ∧ (d.groupDrop g.toNat 8).g Reg.COMMIT_CG_STAT_REASON g.toNat = 8 ∧
        ∀ x ∈ ms, (s.dev.info x.2).group = some g.toNat → (d.groupDrop g.toNat 8).hd Hdr.STAT_STATUS x.2 = 4)) ∧
    (¬ due → exec (.groupCommit g) s = s.ends d) ∧
    (due → (∀ x ∈ late, x.2 = none) → exec (.groupCommit g) s =
      s.ends ((stat (ms.foldl (fun (d : Dev) x => d.commitPage x.2 (d.hd Hdr.STAT_TAG x.2)) d) 2 0 (s.dev.g Reg.COMMIT_CG_STAT_TAG g.toNat) 0).raise
        pgCommit 0x0103 8 Sev.info (g.toNat + 65536 * s.dev.g Reg.COMMIT_CG_STAT_TAG g.toNat))) ∧
    (due → ∀ k reason word, late.find? (fun x => x.2.isSome) = some (k, some (reason, word)) → exec (.groupCommit g) s =
      s.ends (d.groupFail g.toNat (s.dev.g Reg.COMMIT_CG_STAT_TAG g.toNat) ms k reason word)) ∧
    (∀ k reason word, let e := d.groupFail g.toNat tag.toNat ms k reason word
      e.g Reg.COMMIT_CG_STAT_STATUS g.toNat = 3 ∧ e.g Reg.COMMIT_CG_STAT_REASON g.toNat = reason % 256 ∧
      ∀ x ∈ ms, e.hd Hdr.STAT_STATUS x.2 = 3)

/-! ## The vector engine (R149 to R168, R191 to R194) -/

/-- R184, R185: a slot of a bundle that is not its last one takes its place in the bundle, for every slot operation, whatever its fields: it replaces
what the bundle held for that slot, and nothing else changes until the bundle is offered as a whole (the model's choice, assumption 14). R184,
R192, R195, R198: a bundle whose only slot does nothing issues: it writes no register and ends (`State.issued`). A unit that does not issue is not
touched by one. R184, R200, R204, R205: the end of a bundle, shown by one whose only slot is CNOP. One bundle more is counted and no slot waits;
issue goes on at the next bundle, at the first bundle of a loop that has iterations left, or, where the innermost loop has none left, behind it;
past the end of the image the bundle is illegal. R185, R199: a bundle issues whole or not at all, and every slot reads before any slot writes.
Shown by a bundle whose V slot copies one register to another, and whose D slot, offered last, waits for a kick of its tag or stores the copy's
destination. While the wait holds, no register is written. When the store issues, it stores the value from before the bundle. -/
def Obligations.NopsAndBundleEnd : Prop :=
  (∀ (s : State) (u : BitVec 12) (v : VSlot) (m : MSlot) (d : DSlot) (c : CSlot) (e : Ecc) (l : BitVec 2) (w : BitVec 6), s.dev.issuing u.toNat [2] = true →
    ∀ x ∈ [(SlotCmd.m 0 (mSlotOf 0) .ok, Instr.mnop u), (.m 1 m e, .mpass u m e), (.m 2 m .ok, .mfence u m),
        (.v 0 (vSlotOf 0), .vnop u), (.v 0x01 v, .vAdd u v), (.v 0x02 v, .vSub u v), (.v 0x03 v, .vMul u v), (.v 0x04 v, .vFma u v),
        (.v 0x05 v, .vFms u v), (.v 0x06 v, .vFnma u v), (.v 0x08 v, .vAbs u v), (.v 0x09 v, .vNeg u v), (.v 0x0A v, .vMinE u v),
        (.v 0x0B v, .vMaxE u v), (.v 0x0C v, .vMaxaE u v), (.v 0x0D v, .vClass u v), (.v 0x0E v, .vSel u v), (.v 0x0F v, .vMov u v),
        (.v 0x10 v, .cmpEq u v), (.v 0x11 v, .cmpNe u v), (.v 0x12 v, .cmpLt u v), (.v 0x13 v, .cmpLe u v), (.v 0x14 v, .cmpGt u v),
        (.v 0x15 v, .cmpGe u v), (.v 0x18 v, .vDiv u v), (.v 0x19 v, .vRcp u v), (.v 0x1A v, .vSqrt u v), (.v 0x1B v, .vRsqrt u v),
        (.v 0x1C v, .vExp2 u v), (.v 0x1D v, .vLog2 u v), (.v 0x20 v, .vExp u v), (.v 0x21 v, .vLog u v), (.v 0x22 v, .vTanh u v),
        (.v 0x23 v, .vSigmoid u v), (.v 0x24 v, .vErf u v), (.v 0x25 v, .vSin u v), (.v 0x26 v, .vCos u v), (.v 0x28 v, .cvtF16f32 u v),
        (.v 0x29 v, .cvtF32f16 u v), (.v 0x2A v, .cvtI32f32 u v), (.v 0x2B v, .cvtF32i32 u v), (.v 0x2C v, .cvtTob u v),
        (.v 0x2D v, .cvtFromb u v), (.v 0x30 v, .iadd u v), (.v 0x31 v, .isub u v), (.v 0x32 v, .imul u v), (.v 0x33 v, .imin u v),
        (.v 0x34 v, .imax u v), (.v 0x35 v, .icmpEq u v), (.v 0x36 v, .icmpNe u v), (.v 0x37 v, .icmpLt u v), (.v 0x38 v, .icmpLe u v),
        (.v 0x39 v, .icmpGt u v), (.v 0x3A v, .icmpGe u v), (.v 0x40 v, .vAnd u v), (.v 0x41 v, .vOr u v), (.v 0x42 v, .vXor u v),
        (.v 0x43 v, .vNot u v), (.v 0x44 v, .vShl u v), (.v 0x45 v, .vShr u v), (.v 0x46 v, .vSar u v), (.v 0x48 v, .vbcast u v),
        (.v 0x49 v, .vrot u v), (.v 0x4A v, .vzip u v), (.v 0x4B v, .vunzip u v), (.v 0x4C v, .vperm u v), (.v 0x50 v, .vsum u v),
        (.v 0x51 v, .vMaxR u v), (.v 0x52 v, .vMinR u v), (.v 0x53 v, .vAmaxR u v), (.v 0x58 v, .mand u v), (.v 0x59 v, .mor u v),
        (.v 0x5A v, .mxor u v), (.v 0x5B v, .mandn u v), (.v 0x5C v, .mnot u v), (.v 0x5D v, .mset u v), (.v 0x5E v, .mcount u v),
        (.v 0x5F v, .msign u v), (.v 0x60 v, .vflags u v), (.v 0x61 v, .vstat u v), (.v 0x68 v, .vpop u v),
        (.d 0 (dSlotOf 0) .ok 0, .dnop u), (.d 1 d e l.toNat, .dld u d e l), (.d 2 d e w.toNat, .dst u d e w), (.d 3 d e 0, .dldm u d e),
        (.d 4 d .ok 0, .dstm u d), (.d 5 d .ok 0, .dkick u d), (.d 6 d .ok 0, .dwait u d),
        (.c 0x00 (cSlotOf 0), .cnop u), (.c 0x01 c, .sli u c), (.c 0x02 c, .sadd u c), (.c 0x03 c, .ssub u c), (.c 0x04 c, .saddi u c),
        (.c 0x05 c, .sshli u c), (.c 0x06 c, .sshri u c), (.c 0x07 c, .sandi u c), (.c 0x08 c, .slidx u c), (.c 0x10 c, .seqLoop u c),
        (.c 0x18 c, .wbeat u c), (.c 0x19 c, .seqBar u c), (.c 0x1A c, .srctx u c), (.c 0x1B c, .sevt u c), (.c 0x1F (cSlotOf 0), .seqEnd u)],
      exec (x.2 false) s = s.ends (s.dev.start.setUnit u.toNat
        { s.dev.unit u.toNat with bundle := ((s.dev.unit u.toNat).bundle.filter fun y => y.kind != x.1.kind) ++ [x.1] })) ∧
  (∀ (s : State) (u : BitVec 12),
    (∀ x ∈ [(mOp s.mem u.toNat 0 (mSlotOf 0) .ok, Instr.mnop u true), (vOp u.toNat 0 (vSlotOf 0), .vnop u true),
        (dOp s.mem u.toNat 0 (dSlotOf 0) .ok 0, .dnop u true), (cOp u.toNat 0 (cSlotOf 0), .cnop u true)],
      SlotRuns s u x.1 → exec x.2 s = s.ends (s.issued u x.1 [] id id)) ∧
    (s.dev.issuing u.toNat [2] = false → (s.dev.unit u.toNat).bundle = [] → ∀ last, ∀ c ∈ [Instr.mnop u last, .vnop u last, .dnop u last, .cnop u last],
      exec c s = s.ends s.dev.start)) ∧
  (∀ (s : State) (u : BitVec 12), SlotRuns s u (cOp u.toNat 0 (cSlotOf 0)) → (s.dev.unit u.toNat).ending = false →
    let x := s.dev.unit u.toNat
    let pc := s.dev.rd Reg.SEQ_STATE_PC u.toNat
    ∃ t, exec (.cnop u true) s = .next t ∧ t.mem = s.mem ∧ t.pending = s.pending ∧ (t.dev.unit u.toNat).bundle = [] ∧
      t.dev.rd Reg.SEQ_ISSUED u.toNat = (s.dev.rd Reg.SEQ_ISSUED u.toNat + 1) % 2 ^ Reg.SEQ_ISSUED.width ∧
      (x.loops = [] → pc ≠ s.dev.rd Reg.SEQ_IMG_HI u.toNat →
        t.dev.rd Reg.SEQ_STATE_PC u.toNat = (pc + 1) % 2 ^ Reg.SEQ_STATE_PC.width ∧ (t.dev.unit u.toNat).loops = [] ∧
        t.dev.seqState u.toNat = s.dev.seqState u.toNat) ∧
      (x.loops = [] → pc = s.dev.rd Reg.SEQ_IMG_HI u.toNat → t.dev.seqState u.toNat = 6 ∧ t.dev.rd Reg.SEQ_STATE_STOP u.toNat = 4) ∧
      (∀ l ls, x.loops = l :: ls → l.last = pc → 0 < l.left → l.first ≤ pc →
        t.dev.rd Reg.SEQ_STATE_PC u.toNat = l.first % 2 ^ Reg.SEQ_STATE_PC.width ∧
        (t.dev.unit u.toNat).loops = { l with left := l.left - 1, idx := l.idx + 1 } :: ls) ∧
      (∀ l, x.loops = [l] → l.last = pc → l.left = 0 → pc ≠ s.dev.rd Reg.SEQ_IMG_HI u.toNat →
        t.dev.rd Reg.SEQ_STATE_PC u.toNat = (pc + 1) % 2 ^ Reg.SEQ_STATE_PC.width ∧ (t.dev.unit u.toNat).loops = [])) ∧
  (∀ (s : State) (u : BitVec 12) (f : VSlot) (g : DSlot), s.dev.issuing u.toNat [2] = true → vOk 0x0F f = true → f.cqa = false → f.attr.toNat = 0 →
    (s.dev.unit u.toNat).bundle = [.v 0x0F f] → f.view.toNat = 0 → f.mreg.toNat = 0 → f.inv = false →
    ((∃ k ∈ (s.dev.info (pgSeq u.toNat)).issued, k.1 = g.tag.toNat) → ∃ t, exec (.dwait u g true) s = .next t ∧ t.mem = s.mem ∧
      (t.dev.unit u.toNat).vregs = (s.dev.unit u.toNat).vregs ∧ (t.dev.unit u.toNat).sregs = (s.dev.unit u.toNat).sregs ∧
      (t.dev.unit u.toNat).bundle = [.v 0x0F f]) ∧
    (s.dev.storeWaits u.toNat = false → g.pinc = false → g.reg = f.vd → g.view.toNat = 0 → g.mreg.toNat = 0 → g.inv = false → ∃ t,
      exec (.dst u g .ok 0 true) s = .next t ∧
      (∀ i, i < 256 → Mem.read t.mem (u.toNat * 2 ^ 19 + (((s.dev.sreg u.toNat g.sb.toNat).toNat + 64 * g.off.toNat) % 2 ^ 19 / 64 * 64 + i) % 2 ^ 19) =
        BitVec.ofNat 8 (vElem 8 (s.dev.vreg u.toNat f.vd.toNat) i)) ∧
      t.dev.vreg u.toNat f.vd.toNat = s.dev.vreg u.toNat f.va.toNat))

/-- R149, R153: what a masked write leaves in a register, element by element, and in a mask register, bit by bit: an active element takes its result,
cut to its width; an inactive one is 0 where the operation zeroes and keeps its value where it merges; elements outside the operation's range keep
theirs. m0 reads as all ones. R149, R185, R203: what a vector operation writes and what it leaves alone, for every operation that gives the unit
register writes and flags and nothing more. The vector and mask registers it writes take their values; every other register of the unit, every
other unit, the store and the waiting commands stay as they were, and without the SR attribute so does the element index of the unit. (A tile that
REL releases is the unit's own.) -/
def Obligations.VectorWrites : Prop :=
  ((∀ (old : VReg) (w lo n : Nat) (act : Nat → Bool) (zm : Bool) (val : Nat → Nat) (e : Nat), w = 8 ∨ w = 16 ∨ w = 32 → e < 2048 / w →
    vElem w (mergeElems old w lo n act zm val) e =
      if lo ≤ e ∧ e < lo + n then (if act (e - lo) then val (e - lo) % 2 ^ w else if zm then 0 else vElem w old e) else vElem w old e) ∧
  (∀ (old : MReg) (lo n : Nat) (act : Nat → Bool) (zm : Bool) (val : Nat → Bool) (j : Nat), j < 256 →
    (mergeBits old lo n act zm val).getLsbD j =
      if lo ≤ j ∧ j < lo + n then (if act (j - lo) then val (j - lo) else if zm then false else old.getLsbD j) else old.getLsbD j) ∧
  (∀ (s : State) (u : BitVec 12), s.m u 0 = BitVec.allOnes 256)) ∧
  (∀ (s : State) (u : BitVec 12) (opc : Nat) (f : VSlot) (o : VOut), o.post = id →
    ∃ t, vEnds s u opc f o = .next t ∧ t.mem = s.mem ∧ t.pending = s.pending ∧
      (∀ r v, o.ws = [.v r v] → t.dev.vreg u.toNat r = v) ∧
      (∀ r v, r ≠ 0 → o.ws = [.m r v] → t.dev.mask u.toNat r = v) ∧
      (∀ r, (∀ v, RegWr.v r v ∉ o.ws) → t.dev.vreg u.toNat r = s.dev.vreg u.toNat r) ∧
      (∀ r, (∀ v, RegWr.m r v ∉ o.ws) → t.dev.mask u.toNat r = s.dev.mask u.toNat r) ∧
      (∀ r, (∀ v, RegWr.s r v ∉ o.ws) → t.dev.sreg u.toNat r = s.dev.sreg u.toNat r) ∧
      (∀ v, v ≠ u.toNat → t.dev.unit v = s.dev.unit v) ∧
      (f.attr.toNat ≠ 3 → (t.dev.unit u.toNat).srIndex = (s.dev.unit u.toNat).srIndex) ∧
      (f.attr.toNat = 3 → (t.dev.unit u.toNat).srIndex = ((s.dev.unit u.toNat).srIndex + 64) % 2 ^ 32))

/-- R155, R157: the I32 operations: sums, differences and products wrap; MIN and MAX compare as signed numbers. R155, R157: the six signed I32
comparisons write mask bits. R155, R192: bitwise operations and shifts over all 2,048 bits, element by element of the view; a shift count is an
element of B, or IMM itself, modulo the element's width. -/
def Obligations.VectorIntegers : Prop :=
  (∀ (s : State) (u : BitVec 12) (f : VSlot),
    let b := fun i => if f.imf then f.imm.toNat else vElem 32 (s.v u f.vb) i
    let w := fun (op : Nat → Nat → Nat) =>
      [RegWr.v f.vd.toNat (mergeElems (s.v u f.vd) 32 0 64 (s.act u f) f.zm fun i => op (vElem 32 (s.a u f) i) (b i))]
    (∀ x ∈ [(0x30, Instr.iadd u f true, fun a b => (a + b) % 2 ^ 32), (0x31, .isub u f true, fun a b => (a + 2 ^ 32 - b) % 2 ^ 32),
        (0x32, .imul u f true, fun a b => (a * b) % 2 ^ 32),
        (0x33, .imin u f true, fun a b => if sInt 32 a ≤ sInt 32 b then a else b),
        (0x34, .imax u f true, fun a b => if sInt 32 a ≤ sInt 32 b then b else a)],
      VectorRuns s u x.1 f → exec x.2.1 s = vEnds s u x.1 f { ws := w x.2.2 })) ∧
  (∀ (s : State) (u : BitVec 12) (f : VSlot),
    let b := fun i => sInt 32 (if f.imf then f.imm.toNat else vElem 32 (s.v u f.vb) i)
    let w := fun (op : Int → Int → Bool) =>
      [RegWr.m (f.vd.toNat % 8) (mergeBits (s.m u (f.vd.toNat % 8)) 0 64 (s.act u f) f.zm fun i => op (sInt 32 (vElem 32 (s.a u f) i)) (b i))]
    (∀ x ∈ [(0x35, Instr.icmpEq u f true, fun a b => a == b), (0x36, .icmpNe u f true, fun a b => a != b),
        (0x37, .icmpLt u f true, fun a b => decide (a < b)), (0x38, .icmpLe u f true, fun a b => decide (a ≤ b)),
        (0x39, .icmpGt u f true, fun a b => decide (b < a)), (0x3A, .icmpGe u f true, fun a b => decide (b ≤ a))],
      VectorRuns s u x.1 f → exec x.2.1 s = vEnds s u x.1 f { ws := w x.2.2 })) ∧
  (∀ (s : State) (u : BitVec 12) (f : VSlot),
    let k := viewBits f.view.toNat
    let b := fun j => if f.imf then immBits f else vElem k (s.v u f.vb) j
    let n := fun j => (if f.imf then f.imm.toNat else vElem k (s.v u f.vb) j) % k
    let a := fun j => vElem k (s.a u f) j
    let w := fun (val : Nat → Nat) => [RegWr.v f.vd.toNat (mergeElems (s.v u f.vd) k 0 (2048 / k) (s.act u f) f.zm val)]
    (∀ x ∈ [(0x40, Instr.vAnd u f true, fun j => a j &&& b j), (0x41, .vOr u f true, fun j => a j ||| b j),
        (0x42, .vXor u f true, fun j => a j ^^^ b j), (0x43, .vNot u f true, fun j => 2 ^ k - 1 - a j),
        (0x44, .vShl u f true, fun j => a j * 2 ^ n j % 2 ^ k), (0x45, .vShr u f true, fun j => a j / 2 ^ n j),
        (0x46, .vSar u f true, fun j => wrapI k (sInt k (a j) / 2 ^ n j))],
      VectorRuns s u x.1 f → exec x.2.1 s = vEnds s u x.1 f { ws := w x.2.2 }))

/-- R156: moves and permutations over the elements of the view: MOV, SEL by a mask, broadcast, rotation upward, interleaving, de-interleaving, and, in
the F32 and I32 views, VPERM by 32-bit indices modulo 64. The spec gives VPERM no result in another view: it is free there (the model's choice,
assumption 100). R156, R167, R182: mask operations over all 256 bits, the count of the set and active bits of a mask, the signs of the elements of
the view, and the sticky flags and a block-conversion counter read into a register; VSTAT's clear bit clears that counter after the read. -/
def Obligations.VectorMoves : Prop :=
  (∀ (s : State) (u : BitVec 12) (f : VSlot),
    let k := viewBits f.view.toNat
    let e := 2048 / k
    let a := fun j => vElem k (s.a u f) j
    let b := fun j => if f.imf then immBits f else vElem k (s.v u f.vb) j
    let w := fun (val : Nat → Nat) => [RegWr.v f.vd.toNat (mergeElems (s.v u f.vd) k 0 e (s.act u f) f.zm val)]
    (∀ x ∈ [(0x0F, Instr.vMov u f true, a),
        (0x0E, .vSel u f true, fun j => if (s.m u (f.vc.toNat % 8)).getLsbD j then a j else vElem k (s.v u f.vb) j),
        (0x48, .vbcast u f true, fun _ => a (f.imm.toNat % e)), (0x49, .vrot u f true, fun j => a ((j + e - f.imm.toNat % e) % e)),
        (0x4A, .vzip u f true, fun j => if j % 2 = 0 then a (j / 2) else b (j / 2)),
        (0x4B, .vunzip u f true, fun j => if j < e / 2 then a (2 * j) else a (2 * (j - e / 2) + 1)),
        (0x4C, .vperm u f true, fun j => if f.view.toNat ≤ 1 then a (b j % 64)
          else vElem k (Config.permuted f.view.toNat (s.a u f) (vOfElems k ((List.range e).map b))) j)],
      VectorRuns s u x.1 f → exec x.2.1 s = vEnds s u x.1 f { ws := w x.2.2 })) ∧
  (∀ (s : State) (u : BitVec 12) (f : VSlot),
    let k := viewBits f.view.toNat
    let d8 := f.vd.toNat % 8
    let a := fun j => (s.m u (f.va.toNat % 8)).getLsbD j
    let b := fun j => (s.m u (f.vb.toNat % 8)).getLsbD j
    let w := fun (n : Nat) (val : Nat → Bool) => [RegWr.m d8 (mergeBits (s.m u d8) 0 n (s.act u f) f.zm val)]
    let r := fun (val : Nat → Nat) => [RegWr.v f.vd.toNat (mergeElems (s.v u f.vd) 32 0 64 (s.act u f) f.zm val)]
    let c := [RegWr.v f.vd.toNat (vOfElems 32 ((List.range 64).map fun _ =>
      (List.range (2048 / k)).foldl (fun x i => x + ofB (a i && s.act u f i)) 0))]
    let stats := [Reg.VECTOR_CSTAT_SAT, Reg.VECTOR_CSTAT_CRUSH, Reg.VECTOR_CSTAT_ALL_ZERO, Reg.VECTOR_CSTAT_ALL_SAT]
    let stat := fun (i : Nat) => if i < 4 then s.dev.rd (stats.getD i Reg.VECTOR_CSTAT_SAT) u.toNat (f.imm.toNat % 8) else 0
    let clear := fun (d : Dev) => stats.foldl (fun (d : Dev) g => d.wr g u.toNat 0 (f.imm.toNat % 8)) d
    (∀ x ∈ [(0x58, Instr.mand u f true, w 256 fun j => a j && b j), (0x59, .mor u f true, w 256 fun j => a j || b j),
        (0x5A, .mxor u f true, w 256 fun j => a j != b j), (0x5B, .mandn u f true, w 256 fun j => a j && ! b j),
        (0x5C, .mnot u f true, w 256 fun j => ! a j), (0x5D, .mset u f true, w 256 fun j => decide (j < f.imm.toNat)),
        (0x5F, .msign u f true, w (2048 / k) fun j => (vElem k (s.a u f) j).testBit (k - 1)), (0x5E, .mcount u f true, c),
        (0x60, .vflags u f true, r fun _ => s.dev.rd Reg.VECTOR_STICKY u.toNat)],
      VectorRuns s u x.1 f → exec x.2.1 s = vEnds s u x.1 f { ws := x.2.2 }) ∧
    (VectorRuns s u 0x61 f → exec (.vstat u f true) s =
      vEnds s u 0x61 f { ws := r stat, post := if f.imm.getLsbD 3 then clear else id }))

/-- R77 to R82, R155, R162, R163, R168, R191: ADD, SUB, MUL, FMA, FMS and FNMA, element by element of the view: the result of each active element in
the attribute's arithmetic (strict, keeping subnormals, stochastically rounded or fast), the flags of the active elements together, the element's
place and mask by the view; the immediate form takes its immediate as B, and VD as C. R156, R157, R162: ABS, NEG, MIN, MAX and MAXA give values,
subnormals kept, and the canonical NaN with NAN for a NaN operand; CMP gives an order in which a NaN compares false but for NE; CLASS tests the
classes its immediate names. A strict selection or comparison of a signalling NaN sets IV. -/
def Obligations.VectorFloats : Prop :=
  (∀ (s : State) (u : BitVec 12) (f : VSlot),
    let m := if f.view.toNat = 2 ∨ f.view.toNat = 3 then FFmt.f16 else FFmt.f32
    let a := fElem f.view.toNat (s.a u f)
    let b := fun i => if f.imf then immF f else fElem f.view.toNat (s.v u f.vb) i
    let c := fElem f.view.toNat (if f.imf then s.v u f.vd else s.v u f.vc)
    let strict := f.attr.toNat = 1
    let keep := f.attr.toNat = 2
    let rnd := s.dev.vRnd u.toNat f
    let fmt := if f.view.toNat = 2 ∨ f.view.toNat = 3 then 1 else 0
    let w := fun (r : Nat → FR) => [s.dev.write64 u.toNat f fun i => (r i).w]
    (∀ x ∈ [(1, Instr.vAdd u f true, fun i => if strict then m.addStrict false (a i) (b i) else if keep then m.addKeep false (a i) (b i)
          else m.addFast (rnd i) false (a i) (b i)),
        (2, .vSub u f true, fun i => if strict then m.addStrict true (a i) (b i) else if keep then m.addKeep true (a i) (b i)
          else m.addFast (rnd i) true (a i) (b i)),
        (3, .vMul u f true, fun i => if strict then m.mulStrict (a i) (b i) else m.mulFast .rne (a i) (b i)),
        (4, .vFma u f true, fun i => if strict then m.fmaStrict false false (a i) (b i) (c i) else m.fmaFast (rnd i) false false (a i) (b i) (c i)),
        (5, .vFms u f true, fun i => if strict then m.fmaStrict false true (a i) (b i) (c i) else m.fmaFast (rnd i) false true (a i) (b i) (c i)),
        (6, .vFnma u f true, fun i => if strict then m.fmaStrict true false (a i) (b i) (c i) else m.fmaFast (rnd i) true false (a i) (b i) (c i))],
      VectorRuns s u x.1 f → exec x.2.1 s = vEnds s u x.1 f { ws := w x.2.2, fl := s.flags u f fun i => (x.2.2 i).fl, fmt := fmt })) ∧
  (∀ (s : State) (u : BitVec 12) (f : VSlot),
    let m := if f.view.toNat = 2 ∨ f.view.toNat = 3 then FFmt.f16 else FFmt.f32
    let a := fElem f.view.toNat (s.a u f)
    let b := fun i => if f.imf then immF f else fElem f.view.toNat (s.v u f.vb) i
    let fmt := if f.view.toNat = 2 ∨ f.view.toNat = 3 then 1 else 0
    let snan := fun (x y : FV) => f.attr.toNat = 1 ∧ (x.isSnan = true ∨ y.isSnan = true)
    let two := fun (pick : FV → FV → FV) (x y : FV) =>
      if x.isNan || y.isNan then (⟨m.cnan, Flag.nan ||| (if snan x y then Flag.iv else 0)⟩ : FR) else ⟨m.packKeep (pick x y), 0⟩
    let one := fun (sign : Bool) (x : FV) => if x.isNan then (⟨m.cnan, Flag.nan⟩ : FR) else ⟨m.packKeep (x.setSign sign), 0⟩
    let w := fun (r : Nat → FR) => [s.dev.write64 u.toNat f fun i => (r i).w]
    let wm := fun (p : Nat → Bool) => [s.dev.writeMask64 u.toNat f p]
    (∀ x ∈ [(8, Instr.vAbs u f true, fun i => one false (a i)),
        (9, .vNeg u f true, fun i => one (! (a i).sign) (a i)),
        (0x0A, .vMinE u f true, fun i => two fvMin (a i) (b i)), (0x0B, .vMaxE u f true, fun i => two fvMax (a i) (b i)),
        (0x0C, .vMaxaE u f true, fun i => two fvMaxa (a i) (b i))],
      VectorRuns s u x.1 f → exec x.2.1 s = vEnds s u x.1 f { ws := w x.2.2, fl := s.flags u f fun i => (x.2.2 i).fl, fmt := fmt }) ∧
    (∀ x ∈ [(0x10, Instr.cmpEq u f true, 0), (0x11, .cmpNe u f true, 1), (0x12, .cmpLt u f true, 2), (0x13, .cmpLe u f true, 3),
        (0x14, .cmpGt u f true, 4), (0x15, .cmpGe u f true, 5)],
      let p := fun i => fvCompare x.2.2 (a i) (b i)
      VectorRuns s u x.1 f → exec x.2.1 s =
        vEnds s u x.1 f { ws := wm p, fl := s.flags u f fun i => if snan (a i) (b i) then Flag.iv else 0 }) ∧
    (let p := fun i => fvClass f.imm.toNat (a i);
      VectorRuns s u 0x0D f → exec (.vClass u f true) s = vEnds s u 0x0D f { ws := wm p }))

/-- R156, R157: the values of the selections on the cases the table names: zeros, infinities, NaNs and the signs of MAXA. R157, R158: results the
tables fix whatever the part's own bits: fast division of a finite value by a zero, of a zero by a zero, roots of negative values and of zeros;
EXP2 and EXP beyond their ranges, the logarithms of zero and of a negative value, TANH, SIGMOID and ERF where they are constant, SIN and COS
beyond 2¹⁶, and the exact points at zero. Flags beside the named one come from the operand alone. -/
def Obligations.FloatCases : Prop :=
  ((∀ s t, fvMin (.num true Dy.zero s) (.num false Dy.zero t) = .num true Dy.zero s ∧
    fvMax (.num true Dy.zero s) (.num false Dy.zero t) = .num false Dy.zero t ∧
    fvCompare 0 (.num true Dy.zero s) (.num false Dy.zero t) = true) ∧
  (∀ (x : Dy) (s t : Bool), 0 ≤ x.m → fvMaxa (.num false x s) (.num true x.neg t) = .num false x s ∧
    fvMaxa (.num true x.neg t) (.num false x s) = .num false x s) ∧
  (∀ (a : FV) (q : Bool) (k : Nat), k ≤ 5 → fvCompare k (.nan q) a = decide (k = 1) ∧ fvCompare k a (.nan q) = decide (k = 1)) ∧
  (∀ (x : Dy) (n s : Bool), fvCompare 2 (.inf true) (.num n x s) = true ∧ fvCompare 2 (.num n x s) (.inf false) = true ∧
    fvCompare 4 (.inf false) (.inf true) = true) ∧
  (∀ (sel : Nat) (q : Bool), fvClass sel (.nan q) = sel.testBit 0) ∧
  (∀ (sel : Nat) (x : Dy) (n : Bool), x.m ≠ 0 → fvClass sel (.num n x true) = ((sel.testBit 3 && n) || sel.testBit 4))) ∧
  (∀ (f : VSlot) (w v : Nat) (x : Dy), f.attr.toNat = 0 → f.view.toNat = 0 → 0 < x.m →
    (∀ (sx sy : Bool), fvDiv 0 f w v (.num sx x false) (.num sy Dy.zero false) = ⟨FFmt.f32.inf (sx != sy), Flag.ovf⟩ ∧
      fvDiv 0 f w v (.num sx Dy.zero false) (.num sy Dy.zero false) = ⟨FFmt.f32.cnan, Flag.nan⟩) ∧
    fvRoot false f w (.num true x.neg false) = ⟨FFmt.f32.cnan, Flag.nan⟩ ∧ fvRoot true f w (.num true x.neg false) = ⟨FFmt.f32.cnan, Flag.nan⟩ ∧
    (∀ z, fvRoot false f w (.num z Dy.zero false) = ⟨FFmt.f32.signBit z, 0⟩ ∧ fvRoot true f w (.num z Dy.zero false) = ⟨FFmt.f32.inf z, Flag.ovf⟩) ∧
    (x.geRat 128 1 = true → fvTrans 0 f w (.num false x false) = ⟨FFmt.f32.inf false, Flag.ovf⟩) ∧
    (∀ n : Int, -126 ≤ n → n ≤ 127 → (fvTrans 0 f w (.num (decide (n < 0)) ⟨n, 0⟩ false)).w = (127 + n).toNat * 2 ^ 23) ∧
    (∀ z, fvTrans 1 f w (.num z Dy.zero false) = ⟨FFmt.f32.inf true, Flag.ovf⟩ ∧ fvTrans 3 f w (.num z Dy.zero false) = ⟨FFmt.f32.inf true, Flag.ovf⟩) ∧
    fvTrans 1 f w (.num true x.neg false) = ⟨FFmt.f32.cnan, Flag.nan⟩ ∧ fvTrans 3 f w (.num true x.neg false) = ⟨FFmt.f32.cnan, Flag.nan⟩ ∧
    (x.geRat 91 10 = true → (fvTrans 4 f w (.num false x false)).w = 0x3F800000) ∧
    (x.geRat 4 1 = true → (fvTrans 6 f w (.num false x false)).w = 0x3F800000) ∧
    (∀ k z, k = 4 ∨ k = 6 ∨ k = 7 → fvTrans k f w (.num z Dy.zero false) = ⟨FFmt.f32.signBit z, 0⟩) ∧
    (∀ k, k = 7 ∨ k = 8 → Dy.lt ⟨1, 16⟩ x = true → fvTrans k f w (.num false x false) = ⟨FFmt.f32.cnan, Flag.nan⟩))

/-- R100, R102, R157, R158, R162: the DQ and transcendental operations, element by element; their free bits are the part's own
(Config.fastQuotient, Config.transcendental; assumption 10), used where the rules fix no exact result. -/
def Obligations.VectorFunctions : Prop :=
  ∀ (s : State) (u : BitVec 12) (f : VSlot),
    let a := fElem f.view.toNat (s.a u f)
    let b := fun i => if f.imf then immF f else fElem f.view.toNat (s.v u f.vb) i
    let wa := fun i => FFmt.f32.packKeep (a i)
    let fmt := if f.view.toNat = 2 ∨ f.view.toNat = 3 then 1 else 0
    let w := fun (r : Nat → FR) => [s.dev.write64 u.toNat f fun i => (r i).w]
    (∀ x ∈ [(0x18, Instr.vDiv u f true, fun i => fvDiv 0 f (wa i) (FFmt.f32.packKeep (b i)) (a i) (b i)),
        (0x19, .vRcp u f true, fun i => fvDiv 1 f 0x3F800000 (wa i) (.num false ⟨1, 0⟩ false) (a i)),
        (0x1A, .vSqrt u f true, fun i => fvRoot false f (wa i) (a i)), (0x1B, .vRsqrt u f true, fun i => fvRoot true f (wa i) (a i)),
        (0x1C, .vExp2 u f true, fun i => fvTrans 0 f (wa i) (a i)), (0x1D, .vLog2 u f true, fun i => fvTrans 1 f (wa i) (a i)),
        (0x20, .vExp u f true, fun i => fvTrans 2 f (wa i) (a i)), (0x21, .vLog u f true, fun i => fvTrans 3 f (wa i) (a i)),
        (0x22, .vTanh u f true, fun i => fvTrans 4 f (wa i) (a i)), (0x23, .vSigmoid u f true, fun i => fvTrans 5 f (wa i) (a i)),
        (0x24, .vErf u f true, fun i => fvTrans 6 f (wa i) (a i)), (0x25, .vSin u f true, fun i => fvTrans 7 f (wa i) (a i)),
        (0x26, .vCos u f true, fun i => fvTrans 8 f (wa i) (a i))],
      VectorRuns s u x.1 f → exec x.2.1 s = vEnds s u x.1 f { ws := w x.2.2, fl := s.flags u f fun i => (x.2.2 i).fl, fmt := fmt })

/-- R83, R94, R157, R164 to R168: the conversions to and from F16 and I32 and from blocks write one register, element by element, with the flags of
the active elements together and their format codes (an I32 result has none of R77: code 0, the model's choice, assumption 127). The conversion to
blocks writes codes and scale words, to one register where VD and VB are the same, and adds the reports of both blocks to the counter that the
operation names. R157: F32 to I32: to nearest, ties to even; values beyond the range saturate with SAT; a NaN or an infinity gives 0 with NAN. -/
def Obligations.Conversions : Prop :=
  (∀ (s : State) (u : BitVec 12) (f : VSlot),
    let strict := f.attr.toNat == 1
    let half := f.view.toNat == 2 || f.view.toNat == 3
    let w := biWidth (opxFmt f)
    let word := fun i => vElem 32 (s.a u f) i
    let narrow := fun (r : Nat → FR) => (([s.dev.write64 u.toNat f fun i => (r i).w], s.flags u f fun i => (r i).fl) : List RegWr × Nat)
    let wide := fun (r : Nat → FR) => (([RegWr.v f.vd.toNat (mergeElems (s.v u f.vd) 32 0 64 (fun i => s.act u f (halfBase f.view.toNat + i)) f.zm
      fun i => (r i).w)], s.flags u f fun i => (r i).fl) : List RegWr × Nat)
    (∀ x ∈ [(0x28, Instr.cvtF16f32 u f true, if half then 1 else 0, 0,
          narrow fun i => fvToHalf strict (s.dev.vRnd u.toNat f i) (FFmt.f32.decode (word i))),
        (0x29, .cvtF32f16 u f true, 0, 0, wide fun i => fvFromHalf strict (fElem f.view.toNat (s.a u f) i)),
        (0x2A, .cvtI32f32 u f true, 0, 0, wide fun i => fvToInt (FFmt.f32.decode (word i))),
        (0x2B, .cvtF32i32 u f true, 0, 0, wide fun i => ⟨(FFmt.f32.packFast .rne false ⟨sInt 32 (word i), 0⟩).w, 0⟩),
        (0x2D, .cvtFromb u f true, if half then 1 else 0, opxFmt f, narrow fun i => fvFromCode half w
          (vElem 16 (s.v u f.vb) (2 * opxP f + i / 32)) (i % 32) (vElem w (s.a u f) (64 * opxP f + i)))],
      VectorRuns s u x.1 f → exec x.2.1 s = vEnds s u x.1 f { ws := x.2.2.2.2.1, fl := x.2.2.2.2.2, fmt := x.2.2.1, inFmt := x.2.2.2.1 }) ∧
    (let x := fun b => s.dev.tobBlock u.toNat f b
     let codes := mergeElems (s.v u f.vd) w (64 * opxP f) 64 (fun _ => true) false fun i => wrapI w (((x 0).codes ++ (x 1).codes).getD i 0)
     let scales := fun (r : VReg) => mergeElems r 16 (2 * opxP f) 2 (fun _ => true) false fun i => if i = 0 then (x 0).scale else (x 1).scale
     VectorRuns s u 0x2C f → exec (.cvtTob u f true) s = vEnds s u 0x2C f
       { ws := if f.vd = f.vb then [.v f.vd.toNat (scales codes)] else [.v f.vd.toNat codes, .v f.vb.toNat (scales (s.v u f.vb))]
         fl := (x 0).fl ||| (x 1).fl ||| s.dev.tobInFlags u.toNat f 0 ||| s.dev.tobInFlags u.toNat f 1
         fmt := opxFmt f
         post := fun d => (d.addStat vectorStat u.toNat (opxStat f) (x 0)).addStat vectorStat u.toNat (opxStat f) (x 1) })) ∧
  ((∀ n : Int, -(2 ^ 24) ≤ n → n ≤ 2 ^ 24 → fvToInt (.num (decide (n < 0)) ⟨n, 0⟩ false) = ⟨wrapI 32 n, 0⟩) ∧
  (∀ n : Int, (2 : Int) ^ 31 ≤ n → fvToInt (.num false ⟨n, 0⟩ false) = ⟨2 ^ 31 - 1, Flag.sat⟩) ∧
  (∀ n : Int, n < -(2 : Int) ^ 31 → fvToInt (.num true ⟨n, 0⟩ false) = ⟨2 ^ 31, Flag.sat⟩) ∧
  (∀ b, fvToInt (.nan b) = ⟨0, Flag.nan⟩ ∧ fvToInt (.inf b) = ⟨0, Flag.nan⟩) ∧
  (fvToInt (.num false ⟨5, -1⟩ false)).w = 2 ∧ (fvToInt (.num false ⟨7, -1⟩ false)).w = 4)

/-- R159, R161, R162: the reductions of one register over segments of W lanes: the result of the fixed tree (strict VSUM: of the ascending order)
in every lane of its segment, inactive lanes as +0. -/
def Obligations.VectorReductions : Prop :=
  ∀ (s : State) (u : BitVec 12) (f : VSlot),
    (∀ x ∈ [(0x50, Instr.vsum u f true, vSumOp u.toNat f s.dev), (0x51, .vMaxR u f true, vReduceOp fvMax u.toNat f s.dev),
        (0x52, .vMinR u f true, vReduceOp fvMin u.toNat f s.dev), (0x53, .vAmaxR u f true, vReduceOp fvMaxa u.toNat f s.dev)],
      VectorRuns s u x.1 f → exec x.2.1 s = vEnds s u x.1 f { ws := x.2.2.ws, fl := x.2.2.fl }) ∧
    (f.attr.toNat = 0 → f.view.toNat = 0 → f.imm.toNat = 8 →
      let x := fun j => (if s.act u f j then vElem 32 (s.a u f) j else 0 : Nat)
      let add := fun (p q : Nat) => (FFmt.f32.addFast .rne false (FFmt.f32.decode p) (FFmt.f32.decode q)).w
      let y := fun j => let i := 8 * (j / 8)
        add (add (add (x i) (x (i + 1))) (add (x (i + 2)) (x (i + 3)))) (add (add (x (i + 4)) (x (i + 5))) (add (x (i + 6)) (x (i + 7))))
      (vSumOp u.toNat f s.dev).ws = [.v f.vd.toNat (mergeElems (s.v u f.vd) 32 0 64 (s.act u f) f.zm y)])

/-- R171, R175: VPOP takes a place among the pops and issues while fewer than two are in progress or waiting, and holds its bundle otherwise, which
counts in STALL_CQ. R174: a pop that has waited its limit with no tile to check counts the cycles in POP_WAIT, raises 0x0303 with the limit and
the pops open, stops the sequencer with cause 3 (`Dev.stopUnit`), and spoils the step; with no pop waiting, or a tile that can be checked, nothing
happens. R172, R173, R185, R194, R199, R205: how a bundle goes that holds one vector operation, IADD for one. A slot that breaks an encoding rule
makes the bundle illegal, and so does an encoding of another operation that R194 forbids. A read of the cloth queue with no tile CURRENT holds the
bundle while a tile is to come, which counts in CQ_READ_STALL and STALL_CQ; with none to come it raises 0x0301, with REL also 0x0302, stops the
sequencer with cause 2 and spoils the step. A unit that does not issue is not touched. -/
def Obligations.PopsAndForms : Prop :=
  (∀ (s : State) (u : BitVec 12) (f : VSlot),
    let x := s.dev.unit u.toNat
    let o := vOp u.toNat 0x68 f
    let lim := s.dev.rd Reg.VECTOR_POP_LIMIT u.toNat
    let waited := s.dev.start.count Reg.VECTOR_POP_WAIT u.toNat (lim - x.popWaited)
    let late := waited.passTo (s.dev.now + waited.cyclesTime (regionOf u.toNat) (lim - x.popWaited))
    (SlotRuns s u o → vOk 0x68 f = true → x.pops < 2 → exec (.vpop u f true) s = s.ends (s.issued u o []
      (fun d => ((d.setUnit u.toNat { d.unit u.toNat with pops := (d.unit u.toNat).pops + 1 }).vectorView u.toNat).count Reg.VECTOR_BUSY u.toNat) id)) ∧
    (SlotRuns s u o → vOk 0x68 f = true → 2 ≤ x.pops → exec (.vpop u f true) s = s.ends (s.heldBy u o Reg.SEQ_STALL_CQ id)) ∧
    (x.pops = 0 ∨ x.inState 3 ≠ [] ∨ x.inState 2 ≠ [] → exec (.popTimeout u) s = s.ends s.dev.start) ∧
    (x.pops ≠ 0 → x.inState 3 = [] → x.inState 2 = [] → exec (.popTimeout u) s =
      s.ends ((((late.setUnit u.toNat { late.unit u.toNat with popWaited := lim }).raise (pgVector u.toNat) 0x0303 13 Sev.error
        (lim + 2 ^ 24 * x.pops)).stopUnit u.toNat 3).spoil))) ∧
  (∀ (s : State) (u : BitVec 12) (f : VSlot),
    let o := vOp u.toNat 0x30 f
    let pc := s.dev.rd Reg.SEQ_STATE_PC u.toNat
    (s.dev.issuing u.toNat [2] = false → (s.dev.unit u.toNat).bundle = [] → ∀ last, exec (.iadd u f last) s = s.ends s.dev.start) ∧
    (SlotRuns s u o → vOk 0x30 f = false → exec (.iadd u f true) s = s.ends (s.dev.start.illegalBundle u.toNat)) ∧
    (SlotRuns s u o → vOk 0x30 f = true → f.cqa = true → s.dev.currentEntry u.toNat = none →
      ((s.dev.unit u.toNat).pops ≠ 0 ∨ (s.dev.unit u.toNat).inState 4 ≠ [] → exec (.iadd u f true) s =
        s.ends (s.heldBy u o Reg.SEQ_STALL_CQ fun d => d.count Reg.VECTOR_CQ_READ_STALL u.toNat)) ∧
      ((s.dev.unit u.toNat).pops = 0 → (s.dev.unit u.toNat).inState 4 = [] → exec (.iadd u f true) s =
        s.ends (s.stopsBy u o fun d =>
          let e := d.raise (pgVector u.toNat) 0x0301 11 Sev.error pc
          ((if f.rel then e.raise (pgVector u.toNat) 0x0302 12 Sev.warn pc else e).stopUnit u.toNat 2).spoil))) ∧
    (∀ opc ≤ 0x68, 1 ≤ opc → (6 ≤ f.view.toNat ∨ (f.cqa = false ∧ f.rel = true) ∨ (f.imf = true ∧ f.imk.toNat ≠ 3 ∧ takesB opc = false) ∨
        (writesMask opc = true ∧ f.vd.toNat = 0) ∨ (0x50 ≤ opc ∧ opc ≤ 0x53 ∧ f.view.toNat ≠ 0)) → vOk opc f = false))

/-! ## Unit programs (R184 to R208) -/

/-- R198: the scalar operations: 32-bit arithmetic that wraps, shifts by the low five bits of the immediate, and the index of an open loop, the
innermost first; an index of a loop that is not open makes the bundle illegal. -/
def Obligations.ScalarOps : Prop :=
  ∀ (s : State) (u : BitVec 12) (f : CSlot),
    let a := s.dev.sreg u.toNat f.sa.toNat
    let b := s.dev.sreg u.toNat f.sb.toNat
    let o := fun opc => cOp u.toNat opc f
    (∀ x ∈ [(0x01, Instr.sli u f true, f.imm), (0x02, .sadd u f true, a + b), (0x03, .ssub u f true, a - b), (0x04, .saddi u f true, a + f.imm),
        (0x05, .sshli u f true, a <<< (f.imm.toNat % 32)), (0x06, .sshri u f true, a >>> (f.imm.toNat % 32)),
        (0x07, .sandi u f true, a &&& f.imm)],
      SlotRuns s u (o x.1) → exec x.2.1 s = s.ends (s.issued u (o x.1) [.s f.sd.toNat x.2.2] id id)) ∧
    (∀ l, (s.dev.unit u.toNat).loops[f.cx.toNat % 4]? = some l → SlotRuns s u (o 0x08) →
      exec (.slidx u f true) s = s.ends (s.issued u (o 0x08) [.s f.sd.toNat (BitVec.ofNat 32 l.idx)] id id)) ∧
    (SlotRuns s u (o 0x08) → (s.dev.unit u.toNat).loops[f.cx.toNat % 4]? = none →
      exec (.slidx u f true) s = s.ends (s.dev.start.illegalBundle u.toNat))

/-- R150, R195, R196, R213, R216: stores to the local store. The address is SB + 64 · OFF, cut to a line and wrapped at 512 KiB, taken before the
post-increment of SB. DST writes the active bytes of a whole register, but leaves a word that is covered only in part and whose read is
uncorrectable; DSTM writes a mask's 32 bytes; every other byte of the store is unchanged. DST in a reserved view is illegal. A store to a LSTORE
that refuses work or resets waits (the model's choice, assumption 124). R196, R213, R216: loads from the same address. DLD fills a register with
256 bytes, byte 0 lowest, DLDM a mask register other than m0 with 32; a corrected error is counted on the LSTORE page. An uncorrectable one is
counted and raised there, spoils the step, and the register takes a free value (Config.freeVReg, Config.freeMReg; assumption 2). DLDM to m0 is
illegal. A load from a LSTORE that refuses work or resets waits (the model's choice, assumption 124). The store stays as it was. -/
def Obligations.LocalMoves : Prop :=
  (∀ (s : State) (u : BitVec 12) (f : DSlot) (e : Ecc) (w : BitVec 6),
    let sb := (s.dev.sreg u.toNat f.sb.toNat).toNat
    let a := (sb + 64 * f.off.toNat) % 2 ^ 19 / 64 * 64
    let at' := fun i => u.toNat * 2 ^ 19 + (a + i) % 2 ^ 19
    let inc := if f.pinc then [RegWr.s f.sb.toNat (BitVec.ofInt 32 ((sb : Int) + 64 * f.inc.toInt))] else []
    let k := viewBits f.view.toNat / 8
    let act := fun i => (s.dev.mask u.toNat f.mreg.toNat).getLsbD (i / k) != f.inv
    let part := partWord act w.toNat
    let kept := fun i => part = true ∧ e = .uncorrectable ∧ i / 4 = w.toNat
    let v := s.dev.vreg u.toNat f.reg.toNat
    let m := s.dev.mask u.toNat (f.reg.toNat % 8)
    let o2 := dOp s.mem u.toNat 2 f e w.toNat
    let o4 := dOp s.mem u.toNat 4 f .ok 0
    (SlotRuns s u o2 → s.dev.storeWaits u.toNat = false → f.view.toNat ≤ 5 → ∃ t, exec (.dst u f e w true) s = .next t ∧ t.pending = s.pending ∧
      t.dev = { s.issued u o2 inc (fun d => (if part then d.lsEcc e u.toNat ((a / 64 + w.toNat / 16) % 8192) else d).lsWrite u.toNat a
        (fun b => act b && ! (part && e == .uncorrectable && b / 4 == w.toNat)) (natLe 256 v.toNat)) id with writes := [] } ∧
      (∀ i, i < 256 → act i = true → ¬ kept i → Mem.read t.mem (at' i) = BitVec.ofNat 8 (vElem 8 v i)) ∧
      (∀ i, i < 256 → act i = false ∨ kept i → Mem.read t.mem (at' i) = Mem.read s.mem (at' i)) ∧
      (∀ x, (∀ i, i < 256 → x ≠ at' i) → Mem.read t.mem x = Mem.read s.mem x)) ∧
    (SlotRuns s u o2 → 5 < f.view.toNat → exec (.dst u f e w true) s = s.ends (s.dev.start.illegalBundle u.toNat)) ∧
    (SlotRuns s u o4 → s.dev.storeWaits u.toNat = false → ∃ t, exec (.dstm u f true) s = .next t ∧ t.pending = s.pending ∧
      t.dev = { s.issued u o4 inc (fun d => d.lsWrite u.toNat a (fun _ => true) (natLe 32 m.toNat)) id with writes := [] } ∧
      (∀ i, i < 32 → Mem.read t.mem (at' i) = BitVec.ofNat 8 (m.toNat / 2 ^ (8 * i))) ∧
      (∀ x, (∀ i, i < 32 → x ≠ at' i) → Mem.read t.mem x = Mem.read s.mem x)) ∧
    (s.dev.storeWaits u.toNat = true → (SlotRuns s u o2 → f.view.toNat ≤ 5 → exec (.dst u f e w true) s = s.ends (s.stopsBy u o2 id)) ∧
      (SlotRuns s u o4 → exec (.dstm u f true) s = s.ends (s.stopsBy u o4 id)))) ∧
  (∀ (s : State) (u : BitVec 12) (f : DSlot) (e : Ecc) (line : BitVec 2),
    let sb := (s.dev.sreg u.toNat f.sb.toNat).toNat
    let a := (sb + 64 * f.off.toNat) % 2 ^ 19 / 64 * 64
    let byte := fun i => (Mem.read s.mem (u.toNat * 2 ^ 19 + (a + i) % 2 ^ 19)).toNat
    let inc := if f.pinc then [RegWr.s f.sb.toNat (BitVec.ofInt 32 ((sb : Int) + 64 * f.inc.toInt))] else []
    let r := f.reg.toNat
    let o1 := dOp s.mem u.toNat 1 f e line.toNat
    let o3 := dOp s.mem u.toNat 3 f e 0
    let at' := (a / 64 + line.toNat) % 8192
    (s.dev.storeWaits u.toNat = false → SlotRuns s u o1 →
      (∀ v : VReg, e ≠ .uncorrectable → (∀ i, i < 256 → vElem 8 v i = byte i) → exec (.dld u f e line true) s =
        s.ends (s.issued u o1 (.v r v :: inc) (fun d => d.lsEcc e u.toNat at') id)) ∧
      (e = .uncorrectable → exec (.dld u f e line true) s =
        s.ends (s.issued u o1 (.v r (Config.freeVReg s.dev.free) :: inc) (fun d => { d with free := d.free + 1 }.lsUerr u.toNat at') id))) ∧
    (s.dev.storeWaits u.toNat = false → SlotRuns s u o3 →
      (∀ v : MReg, e ≠ .uncorrectable → (∀ i, i < 32 → v.toNat / 2 ^ (8 * i) % 256 = byte i) → exec (.dldm u f e true) s =
        s.ends (s.issued u o3 (.m (r % 8) v :: inc) (fun d => d.lsEcc e u.toNat (a / 64)) id)) ∧
      (e = .uncorrectable → exec (.dldm u f e true) s =
        s.ends (s.issued u o3 (.m (r % 8) (Config.freeMReg s.dev.free) :: inc) (fun d => { d with free := d.free + 1 }.lsUerr u.toNat (a / 64)) id))) ∧
    (s.dev.issuing u.toNat [2] = true → (s.dev.unit u.toNat).bundle = [] → r % 8 = 0 →
      exec (.dldm u f e true) s = s.ends (s.dev.start.illegalBundle u.toNat)) ∧
    (s.dev.storeWaits u.toNat = true → (SlotRuns s u o1 → exec (.dld u f e line true) s = s.ends (s.stopsBy u o1 id)) ∧
      (SlotRuns s u o3 → exec (.dldm u f e true) s = s.ends (s.stopsBy u o3 id))))

/-- R198, R200, R203, R204: LOOP opens a loop over the following bundles, or makes its bundle illegal where its body does not fit; SRCTX sets tensor
and element index; SEVT raises 0x0404 with its immediate; END ends the program with its bundle: STATE.SEQ is ended and the sequencer's request is
over. R196, R197, R199, R228: DKICK hands the descriptor block at the address to the cluster's movement engine under its tag, with one request of
the sequencer more open, while the engine takes work and has room in its buffer. With the buffer full it holds the bundle, counted in STALL_D (the
model's reading, assumption 73); an engine that takes no work completes the kick with its code. DWAIT holds the bundle while a kick of its tag is
open, and then issues. -/
def Obligations.ControlAndKicks : Prop :=
  (∀ (s : State) (u : BitVec 12) (f : CSlot),
    let o := fun opc => cOp u.toNat opc f
    let pc := s.dev.rd Reg.SEQ_STATE_PC u.toNat
    let last := pc + f.cx.toNat % 2048 + 1
    let index := (s.dev.sreg u.toNat f.sa.toNat).toNat
    (SlotRuns s u (o 0x10) → s.dev.loopOk u.toNat pc last = true → exec (.seqLoop u f true) s =
      s.ends (s.issued u (o 0x10) [] (fun d => d.setUnit u.toNat
        { d.unit u.toNat with loops := ⟨pc + 1, last, f.imm.toNat % 2 ^ 20, 0⟩ :: (d.unit u.toNat).loops }) id)) ∧
    (SlotRuns s u (o 0x10) → s.dev.loopOk u.toNat pc last = false → exec (.seqLoop u f true) s = s.ends (s.dev.start.illegalBundle u.toNat)) ∧
    (SlotRuns s u (o 0x1A) → exec (.srctx u f true) s = s.ends (s.issued u (o 0x1A) [] (fun d => d.setUnit u.toNat
      { d.unit u.toNat with srTensor := f.imm.toNat % 2 ^ 24, srIndex := index }) id)) ∧
    (SlotRuns s u (o 0x1B) → exec (.sevt u f true) s =
      s.ends (s.issued u (o 0x1B) [] (fun d => d.raise (pgSeq u.toNat) 0x0404 11 Sev.info f.imm.toNat) id)) ∧
    (SlotRuns s u (cOp u.toNat 0x1F (cSlotOf 0)) → ∃ t, exec (.seqEnd u true) s = .next t ∧
      t = { s with dev := { s.issued u (cOp u.toNat 0x1F (cSlotOf 0)) [] (fun d => d.setUnit u.toNat { d.unit u.toNat with ending := true }) id with
        writes := [] } } ∧
      t.dev.seqState u.toNat = 5 ∧ (t.dev.info (pgSeq u.toNat)).reqIn = 0)) ∧
  (∀ (s : State) (u : BitVec 12) (f : DSlot),
    let sb := (s.dev.sreg u.toNat f.sb.toNat).toNat
    let a := (sb + 64 * f.off.toNat) % 2 ^ 19 / 64 * 64
    let inc := if f.pinc then [RegWr.s f.sb.toNat (BitVec.ofInt 32 ((sb : Int) + 64 * f.inc.toInt))] else []
    let c := u.toNat - u.toNat % 32
    let t := f.tag.toNat
    let i := s.dev.info (pgSeq u.toNat)
    let kick := fun (d : Dev) => (d.setInfo (pgSeq u.toNat) { i with issued := i.issued ++ [(t, s.dev.now)] }).setReqs (pgSeq u.toNat) i.reqIn (i.reqOut + 1)
    let block : MBlock := { addr := u.toNat * 2 ^ 19 + a, kicker := some u.toNat, tag := t, home := c, atRegion := false, heldAt := s.dev.now }
    let o5 := dOp s.mem u.toNat 5 f .ok 0
    let o6 := dOp s.mem u.toNat 6 f .ok 0
    (SlotRuns s u o5 →
      (s.dev.stateCode (pgCmove c) = none → (s.dev.eng false c).queue.length < 16 → exec (.dkick u f true) s =
        s.ends (s.issued u o5 inc (fun d => (kick d).accept false c block) id)) ∧
      (s.dev.stateCode (pgCmove c) = none → 16 ≤ (s.dev.eng false c).queue.length → exec (.dkick u f true) s =
        s.ends (s.heldBy u o5 Reg.SEQ_STALL_D id)) ∧
      (∀ code, s.dev.stateCode (pgCmove c) = some code → exec (.dkick u f true) s =
        s.ends (s.issued u o5 inc kick fun d => d.kickDone u.toNat t code))) ∧
    (SlotRuns s u o6 →
      ((∃ k ∈ i.issued, k.1 = t) → exec (.dwait u f true) s = s.ends (s.heldBy u o6 Reg.SEQ_STALL_D id)) ∧
      ((∀ k ∈ i.issued, k.1 ≠ t) → exec (.dwait u f true) s = s.ends (s.issued u o6 inc id id))))

/-- R201, R206: WBEAT of a unit that issues, or that waits there: before its window has begun it holds the bundle and the unit waits; in its first
moment it issues, and so does a unit that waits; later it issues late, its cycles counted, with 0x0405. Window 3 is illegal. R202, R206: BAR. The
first arrival at a barrier opens it with its mask and waits; a unit that is not in the mask, or whose mask is another than the open barrier's,
stops every unit that has arrived and itself; a unit that waits goes on waiting; the last arrival releases every unit of the mask; a released unit
issues. An open barrier whose limit passes stops every unit that waits at it with cause 5 and 0x0406, and is reset. R202: an open barrier whose
limit has passed stops every unit that waits at it with cause 5, raises 0x0406 for each, and is reset; without one, nothing happens. -/
def Obligations.BeatsAndBarriers : Prop :=
  (∀ (s : State) (u : BitVec 12) (f : CSlot), s.dev.issuing u.toNat [2, 3] = true → (s.dev.unit u.toNat).bundle = [] →
    let w := f.cx.toNat % 4
    let b := (s.dev.stepStart + f.imm.toNat) % 2 ^ 64
    let o := cOp u.toNat 0x18 f
    let on := fun (st : Nat) (d : Dev) => (d.setUnit u.toNat { d.unit u.toNat with winBeat := b }).wr Reg.SEQ_STATE_SEQ u.toNat st
    (w = 3 → exec (.wbeat u f true) s = s.ends (s.dev.start.illegalBundle u.toNat)) ∧
    (w ≠ 3 → s.dev.windowAge b w = none → exec (.wbeat u f true) s = s.ends (s.heldBy u o Reg.SEQ_WAIT_SYNC (on 3))) ∧
    (∀ t, w ≠ 3 → s.dev.windowAge b w = some t → s.dev.seqState u.toNat = 3 ∨ t = 0 →
      exec (.wbeat u f true) s = s.ends (s.issued u o [] (on 2) id)) ∧
    (∀ t, w ≠ 3 → s.dev.windowAge b w = some t → s.dev.seqState u.toNat ≠ 3 → t ≠ 0 →
      let c := t * opMhz (s.dev.rd Reg.RCLOCK_OP (u.toNat - u.toNat % 256)) / 10
      exec (.wbeat u f true) s = s.ends (s.issued u o [] (fun d =>
        ((on 2 d).count Reg.SEQ_LATE_CYCLES u.toNat c).raise (pgSeq u.toNat) 0x0405 12 Sev.warn (sat 24 c)) id))) ∧
  (∀ (s : State) (u : BitVec 12) (f : CSlot), s.dev.issuing u.toNat [2, 4] = true → (s.dev.unit u.toNat).bundle = [] →
    let n := f.cx.toNat % 8
    let mask := f.imm.toNat % 2 ^ 17
    let c := u.toNat - u.toNat % 32
    let x := s.dev.unit u.toNat
    let b := SMap.at (s.dev.cluster c).bars n ⟨mask, [], s.dev.now, s.dev.rd Reg.SEQ_BAR_LIMIT u.toNat⟩
    let o := cOp u.toNat 0x19 f
    let waits := fun (d : Dev) => (d.setUnit u.toNat { d.unit u.toNat with barWait := some n }).wr Reg.SEQ_STATE_SEQ u.toNat 4
    let arrived := b.arrived ++ [u.toNat]
    let all := (List.range 17).all fun i => ! bit mask i || arrived.contains (c + i)
    (x.barDone = true → exec (.seqBar u f true) s = s.ends (s.issued u o [] (fun d =>
      (d.setUnit u.toNat { d.unit u.toNat with barDone := false, barWait := none }).wr Reg.SEQ_STATE_SEQ u.toNat 2) id)) ∧
    (x.barDone = false → x.barWait ≠ none → exec (.seqBar u f true) s = s.ends (s.heldBy u o Reg.SEQ_WAIT_SYNC id)) ∧
    (x.barDone = false → x.barWait = none → bit mask (u.toNat % 32) = false ∨ b.mask ≠ mask → exec (.seqBar u f true) s =
      s.ends (s.stopsBy u o fun d => d.barrierFail c n 0 arrived)) ∧
    (x.barDone = false → x.barWait = none → bit mask (u.toNat % 32) = true → b.mask = mask → all = false → exec (.seqBar u f true) s =
      s.ends (s.heldBy u o Reg.SEQ_WAIT_SYNC fun d =>
        (waits d).setCluster c { d.cluster c with bars := SMap.put (d.cluster c).bars n { b with arrived := arrived } })) ∧
    (x.barDone = false → x.barWait = none → bit mask (u.toNat % 32) = true → b.mask = mask → all = true → exec (.seqBar u f true) s =
      s.ends (s.heldBy u o Reg.SEQ_WAIT_SYNC fun d => arrived.foldl (fun (d : Dev) v => d.setUnit v { d.unit v with barDone := true })
        ((waits d).setCluster c { d.cluster c with bars := SMap.del (d.cluster c).bars n })))) ∧
  (∀ (s : State) (c : BitVec 12) (n : BitVec 3),
    (SMap.find (s.dev.cluster c.toNat).bars n.toNat = none → exec (.barrierTimeout c n) s = s.ends s.dev.start) ∧
    (∀ b, SMap.find (s.dev.cluster c.toNat).bars n.toNat = some b →
      let d := s.dev.start.passTo (b.since + s.dev.cyclesTime (c.toNat - c.toNat % 256) b.limit)
      let stop := fun (d : Dev) (u : Nat) => (d.raise (pgSeq u) 0x0406 13 Sev.error (n.toNat + 8)).stopUnit u 5
      exec (.barrierTimeout c n) s =
        s.ends (b.arrived.foldl stop (d.setCluster c.toNat { d.cluster c.toNat with bars := SMap.del (d.cluster c.toNat).bars n.toNat }))))

/-- R205, R213: the sequencer reaches a bundle. One that breaks a rule of the image check raises 0x0408 with its address and stops issue with cause 4
(`Dev.stopUnit`); an uncorrectable read of it stops issue with cause 7, puts the SEQ block into FAULT, and is counted on the pages of SEQ and
ISTORE; a corrected read is counted on the page of ISTORE; a legal bundle changes nothing when it is reached, and a unit that does not issue
reaches none. R204, R206: START asks an idle or ended sequencer to start, does nothing more to one that has been asked, and is refused with LOCKED
while one runs and with QUIESCED while its block takes no work; the program begins at ENTRY in the first compute window after it, and not before.
R206: what a stop does, for every cause: STATE.SEQ is stopped with its first cause, the offered slots are forgotten, and the unit's registers, its
loops and the store are left alone. -/
def Obligations.ProgramStarts : Prop :=
  (∀ (s : State) (u : BitVec 12) (e : Ecc),
    let pc := s.dev.rd Reg.SEQ_STATE_PC u.toNat
    let w := istoreSlot s.mem u.toNat pc
    let read := if e = .corrected then s.dev.start.correctedError (pgIstore u.toNat) 0 else s.dev.start
    (s.dev.issuing u.toNat [2] = false → exec (.illegalBundle u e) s = s.ends s.dev.start) ∧
    (s.dev.issuing u.toNat [2] = true → e ≠ .uncorrectable →
      (bundleOk w = true → read.loopRule u.toNat (bits w 192 64) = true → exec (.illegalBundle u e) s = s.ends read) ∧
      (bundleOk w = false ∨ read.loopRule u.toNat (bits w 192 64) = false → exec (.illegalBundle u e) s =
        s.ends ((read.raise (pgSeq u.toNat) 0x0408 15 Sev.error (read.rd Reg.SEQ_STATE_PC u.toNat)).stopUnit u.toNat 4))) ∧
    (s.dev.issuing u.toNat [2] = true → e = .uncorrectable → exec (.illegalBundle u e) s =
      s.ends ((((s.dev.start.stopUnit u.toNat 7).setBs (pgSeq u.toNat) Bs.fault).uncorrectable (pgSeq u.toNat) 0).uerrCount (pgIstore u.toNat) 0))) ∧
  (∀ (s : State) (r : Requester) (u : BitVec 12),
    let st := s.dev.seqState u.toNat
    let x := s.dev.unit u.toNat
    let begins := unitOk u.toNat = true ∧ st = 1 ∧ s.dev.beatSeen = true ∧ x.startAt < s.dev.boundary ∧
      (s.dev.bs (pgSeq u.toNat) = Bs.idle ∨ s.dev.bs (pgSeq u.toNat) = Bs.run)
    (s.accepts r (pgSeq u.toNat) 0x08C true →
      (s.dev.refusesWork (pgSeq u.toNat) = true → exec (.seqStart r u) s = s.ends (s.dev.start.done 5)) ∧
      (s.dev.refusesWork (pgSeq u.toNat) = false →
        (st = 0 ∨ st = 5 → exec (.seqStart r u) s =
          s.ends (((s.dev.start.wr Reg.SEQ_STATE_SEQ u.toNat 1).setUnit u.toNat { x with startAt := s.dev.now }).done 0)) ∧
        (st = 1 → exec (.seqStart r u) s = s.ends (s.dev.start.done 0)) ∧
        (2 ≤ st → st ≠ 5 → exec (.seqStart r u) s = s.ends (s.dev.start.done 3)))) ∧
    (¬ begins → exec (.programStart u) s = s.ends s.dev.start) ∧
    (begins → ∃ t, exec (.programStart u) s = .next t ∧ t.mem = s.mem ∧ t.pending = s.pending ∧
      t.dev.seqState u.toNat = 2 ∧ t.dev.rd Reg.SEQ_STATE_PC u.toNat = s.dev.rd Reg.SEQ_PROG_ENTRY u.toNat % 2 ^ Reg.SEQ_STATE_PC.width ∧
      (t.dev.unit u.toNat).loops = [] ∧ (t.dev.unit u.toNat).bundle = [] ∧ t.dev.bs (pgSeq u.toNat) = Bs.run ∧
      (t.dev.unit u.toNat).vregs = x.vregs ∧ (t.dev.unit u.toNat).sregs = x.sregs ∧ (t.dev.unit u.toNat).mregs = x.mregs)) ∧
  (∀ (d : Dev) (u cause : Nat), cause < 8 →
    (d.seqState u = 6 → d.stopUnit u cause = d) ∧
    (d.seqState u ≠ 6 → (d.stopUnit u cause).seqState u = 6 ∧ (d.stopUnit u cause).rd Reg.SEQ_STATE_STOP u = cause ∧
      ((d.stopUnit u cause).unit u).bundle = []) ∧
    ((d.stopUnit u cause).unit u).vregs = (d.unit u).vregs ∧ ((d.stopUnit u cause).unit u).sregs = (d.unit u).sregs ∧
    ((d.stopUnit u cause).unit u).mregs = (d.unit u).mregs ∧ ((d.stopUnit u cause).unit u).loops = (d.unit u).loops ∧
    (∀ v, v ≠ u → (d.stopUnit u cause).unit v = d.unit v) ∧ (d.stopUnit u cause).writes = d.writes)

/-- R208: FILL_GO. A second fill is refused with QUIESCED. A fill of no slot, of slots that do not exist or from larder bytes that do not exist fails with
reason 2, one of slots that a program runs in with reason 1. Any other begins: its slots are unfit until it ends, and R62 counts one request. A fill that
ends without error and with the CRC the host gave copies the larder's bytes to the slots, makes them fit, is DONE and raises 0x0409; with another CRC it
fails with reason 3; an uncorrectable line leaves the slots from there on as they were and fails it with reason 4. -/
def Obligations.InstructionFill : Prop :=
  ∀ (s : State) (r : Requester) (u : BitVec 12) (e : Ecc) (line : BitVec 10),
    let src := s.dev.rd Reg.ISTORE_FILL_SRC u.toNat
    let dst := s.dev.rd Reg.ISTORE_FILL_DST u.toNat
    let n := s.dev.rd Reg.ISTORE_FILL_SLOTS u.toNat
    let x := s.dev.unit u.toNat
    let used := s.dev.seqState u.toNat ≠ 0 ∧ s.dev.seqState u.toNat ≠ 5 ∧ dst ≤ s.dev.rd Reg.SEQ_IMG_HI u.toNat ∧ s.dev.rd Reg.SEQ_IMG_LO u.toNat < dst + n
    let slots := (List.range n).map (dst + ·)
    let rg := u.toNat - u.toNat % 256
    (s.accepts r (pgIstore u.toNat) 0x08C true → s.dev.refusesWork (pgIstore u.toNat) = false →
      (s.dev.rd Reg.ISTORE_FILL_STAT_STATE u.toNat = 1 → exec (.fillGo r u) s = s.ends (s.dev.start.done 5)) ∧
      (s.dev.rd Reg.ISTORE_FILL_STAT_STATE u.toNat ≠ 1 →
        (n = 0 ∨ 2048 < dst + n ∨ 2 ^ 24 < 64 * src + 32 * n → exec (.fillGo r u) s = s.ends ((s.dev.start.fillFail u.toNat 2).done 0)) ∧
        (n ≠ 0 → dst + n ≤ 2048 → 64 * src + 32 * n ≤ 2 ^ 24 →
          (used → exec (.fillGo r u) s = s.ends ((s.dev.start.fillFail u.toNat 1).done 0)) ∧
          (¬ used → exec (.fillGo r u) s = s.ends ((((((s.dev.start.setUnit u.toNat { x with
            fill := some (src, dst, n, s.dev.rd Reg.ISTORE_FILL_CRC u.toNat), unfit := x.unfit.filter (! slots.contains ·) ++ slots }).wr
            Reg.ISTORE_FILL_STAT_STATE u.toNat 1).wr Reg.ISTORE_FILL_STAT_REASON u.toNat 0).setReqs (pgIstore u.toNat) 1 0).busy
            (pgIstore u.toNat)).done 0))))) ∧
    (x.fill = none → exec (.istoreFillComplete u e line) s = s.ends s.dev.start) ∧
    (∀ a b m crc, x.fill = some (a, b, m, crc) →
      let bs := Mem.bytes s.mem (larderBase rg + 64 * a) (32 * m)
      let left := fun (d : Dev) => ((d.setUnit u.toNat { d.unit u.toNat with fill := none }).setReqs (pgIstore u.toNat) 0 0).idle (pgIstore u.toNat)
      let read := s.dev.start.larderEcc e rg (a + line.toNat)
      (e ≠ .uncorrectable → ∃ t, exec (.istoreFillComplete u e line) s = .next t ∧ t.pending = s.pending ∧
        t.mem = Mem.writeAll s.mem (2 ^ 32 + u.toNat * 2 ^ 16 + 32 * b) bs ∧
        (crc32 bs ≠ crc → t.dev = { (left read).fillFail u.toNat 3 with writes := [] }) ∧
        (crc32 bs = crc → t.dev = { (((left read).setUnit u.toNat { (left read).unit u.toNat with
          unfit := ((left read).unit u.toNat).unfit.filter fun k => ! decide (b ≤ k ∧ k < b + m) }).wr Reg.ISTORE_FILL_STAT_STATE u.toNat 2).raise
          (pgIstore u.toNat) 0x0409 8 Sev.info b with writes := [] })) ∧
      (e = .uncorrectable → ∃ t, exec (.istoreFillComplete u e line) s = .next t ∧ t.pending = s.pending ∧
        t.mem = Mem.writeAll s.mem (2 ^ 32 + u.toNat * 2 ^ 16 + 32 * b) (bs.take (64 * line.toNat)) ∧
        t.dev = { (left read).fillFail u.toNat 4 with writes := [] })) ∧
    (∀ (d : Dev) (why : Nat), d.fillFail u.toNat why = ((d.wr Reg.ISTORE_FILL_STAT_STATE u.toNat 3).wr Reg.ISTORE_FILL_STAT_REASON u.toNat why).raise
      (pgIstore u.toNat) 0x040A 9 Sev.error why)

/-- R115, R120, R188, R199, R205: MPASS in a unit that leads a gang takes a place in the array's queue of two with its segment, set, OPEN and CLOSE; with the
queue full it holds the bundle, counted in STALL_M; a pass of a set that is not open, or that is open for another segment, does nothing but raise
0x0401 or 0x0403; a segment descriptor outside the image, or reserved, makes the bundle illegal, and an uncorrectable read of it stops issue
with cause 7. MFENCE holds until the array's queue is empty and both its sets are free. In a unit that leads no gang both do nothing but raise 0x0402, and both
hold while the MATRIX block refuses work or resets. -/
def Obligations.MatrixSlots : Prop :=
  ∀ (s : State) (u : BitVec 12) (f : MSlot) (e : Ecc),
    let arr := ofB f.arr
    let set := ofB f.set
    let x := s.dev.unit u.toNat
    let pc := s.dev.rd Reg.SEQ_STATE_PC u.toNat
    let seg := s.dev.rd Reg.SEQ_PROG_SEG_BASE u.toNat + f.seg.toNat
    let inImage := s.dev.rd Reg.SEQ_IMG_LO u.toNat ≤ seg ∧ seg ≤ s.dev.rd Reg.SEQ_IMG_HI u.toNat ∧ Sd.ok (segDesc s.mem u.toNat seg) = true
    let read := fun (d : Dev) => if e = .corrected then d.correctedError (pgIstore u.toNat) 0 else d
    let warn := fun (code bit arg : Nat) (d : Dev) => d.raise (pgSeq u.toNat) code bit Sev.warn (d.rd Reg.SEQ_STATE_PC u.toNat + 65536 * arg)
    let o1 := mOp s.mem u.toNat 1 f e
    let o2 := mOp s.mem u.toNat 2 f .ok
    (SlotRuns s u o1 → s.dev.matrixWaits u.toNat = false → s.dev.isOrigin u.toNat arr = true → e ≠ .uncorrectable → inImage →
      ((x.passQ arr).length < 2 → f.isOpen = true ∨ x.openSeg arr set = some seg → exec (.mpass u f e true) s =
        s.ends (s.issued u o1 [] (fun d => (read d).setUnit u.toNat (((read d).unit u.toNat).setPassQ arr
          (x.passQ arr ++ [⟨seg, set, f.isOpen, f.isClose, x.srTensor, x.srIndex⟩]))) id)) ∧
      ((x.passQ arr).length < 2 → f.isOpen = false → x.openSeg arr set = none → exec (.mpass u f e true) s =
        s.ends (s.issued u o1 [] (fun d => warn 0x0401 8 (arr + 2 * set) (read d)) id)) ∧
      (∀ other, (x.passQ arr).length < 2 → f.isOpen = false → x.openSeg arr set = some other → other ≠ seg → exec (.mpass u f e true) s =
        s.ends (s.issued u o1 [] (fun d => (read d).raise (pgSeq u.toNat) 0x0403 10 Sev.warn (pc + 65536 * (seg % 65536))) id)) ∧
      (2 ≤ (x.passQ arr).length → exec (.mpass u f e true) s = s.ends (s.heldBy u o1 Reg.SEQ_STALL_M id))) ∧
    (SlotRuns s u o1 → s.dev.matrixWaits u.toNat = false → s.dev.isOrigin u.toNat arr = true →
      (e = .uncorrectable → exec (.mpass u f e true) s = s.ends (s.stopsBy u o1 fun d => d.istoreUerr u.toNat)) ∧
      (e ≠ .uncorrectable → ¬ inImage → exec (.mpass u f e true) s = s.ends (s.dev.start.illegalBundle u.toNat))) ∧
    (SlotRuns s u o2 → s.dev.matrixWaits u.toNat = false → s.dev.isOrigin u.toNat arr = true →
      (x.passQ arr = [] → (x.seg arr 0).st = 0 → (x.seg arr 1).st = 0 → exec (.mfence u f true) s =
        s.ends (s.issued u o2 [] (fun d => d.setUnit u.toNat ((d.unit u.toNat).setInFlight arr none)) id)) ∧
      (x.passQ arr ≠ [] ∨ (x.seg arr 0).st ≠ 0 ∨ (x.seg arr 1).st ≠ 0 → exec (.mfence u f true) s =
        s.ends (s.heldBy u o2 Reg.SEQ_STALL_M id))) ∧
    (∀ x ∈ [(o1, Instr.mpass u f e true), (o2, .mfence u f true)], SlotRuns s u x.1 →
      (s.dev.matrixWaits u.toNat = true → exec x.2 s = s.ends (s.heldBy u x.1 Reg.SEQ_STALL_M id)) ∧
      (s.dev.matrixWaits u.toNat = false → s.dev.isOrigin u.toNat arr = false → exec x.2 s =
        s.ends (s.issued u x.1 [] (warn 0x0402 9 (arr + 2 * set)) id)))

/-! ## Passes, tiles, checks, recomputes (R112 to R148, R169 to R179) -/

/-- R115, R116, R120, R139: PASS_ENTRY. Without a waiting pass, or a gang, nothing happens. While the unit is held for a mismatch, or a mismatch of
the gang waits, none enters. A pass whose set still drains, or that would open a set that is closed or closing, waits, counted in DRAIN_STALL. A
pass of a set that is not open leaves the queue and only raises 0x0401. Any other enters its gang (`Dev.passGo`): it leaves the queue, and its
segment has one pass more; one that opens takes its descriptor from the instruction store. In a gang of one column the accumulator set of the
bottom array holds the rows of the pass, and a pass that closes makes it DRAINING; no byte of the store changes. R116, R169: TILE_DRAIN. A set
that does not drain is not touched. The set's next tile takes a FREE entry, which is then FILLING, when no tile of the array is being filled; with
no FREE entry it waits, counted in CQ_STALL. The tile that the set fills becomes WHOLE, in queue order, with the words that R134 gives it; the set
goes on with its next tile, or, after its last one, drains no more. -/
def Obligations.PassesAndDrains : Prop :=
  (∀ (s : State) (u : BitVec 12) (arr : Bool) (e : Ecc) (p : PassReq) (rest : List PassReq) (g : Gang),
    let a := ofB arr
    let x := s.dev.unit u.toNat
    let sg := x.seg a p.set
    let c := clusterOf u.toNat
    let draining := (s.dev.bottoms c g).any fun b => ((s.dev.unit b.1).acc b.2 p.set).draining
    let free := x.held = false ∧ s.dev.gangHeld u.toNat a = false
    let waits := draining = true ∨ (p.isOpen = true ∧ (sg.st = 2 ∨ sg.closing = true))
    let enters := free ∧ ¬ waits ∧ (p.isOpen = true ∨ sg.st = 1)
    (x.passQ a = [] ∨ s.dev.gangOf u.toNat a = none → exec (.passEntry u arr e) s = s.ends s.dev.start) ∧
    (x.passQ a = p :: rest → s.dev.gangOf u.toNat a = some g →
      (¬ free → exec (.passEntry u arr e) s = s.ends s.dev.start) ∧
      (free → waits → exec (.passEntry u arr e) s = s.ends (s.dev.start.count Reg.MATRIX_DRAIN_STALL u.toNat)) ∧
      (free → ¬ waits → p.isOpen = false → sg.st ≠ 1 →
        exec (.passEntry u arr e) s = s.ends ((s.dev.start.setUnit u.toNat (x.setPassQ a rest)).raise (pgSeq u.toNat) 0x0401 8 Sev.warn
          (s.dev.rd Reg.SEQ_STATE_PC u.toNat + 65536 * (a + 2 * p.set)))) ∧
      (enters → exec (.passEntry u arr e) s = s.ends (s.dev.start.passGo s.mem u.toNat a e g p rest)) ∧
      (enters → e = .ok →
        let y := (s.dev.start.passGo s.mem u.toNat a e g p rest).unit u.toNat
        y.passQ a = rest ∧
        (p.isOpen = true → y.seg a p.set = ⟨if p.isClose then 2 else 1, p.seg, segDesc s.mem u.toNat p.seg, 1, false, p.srTensor, p.srIndex⟩) ∧
        (p.isOpen = false → y.seg a p.set = { sg with j := sg.j + 1, st := if p.isClose then 2 else 1 })) ∧
      (enters → e = .ok → g.gc = 1 →
        let b := s.dev.atPos c (g.row + g.gr - 1) g.col
        let desc := if p.isOpen then segDesc s.mem u.toNat p.seg else sg.desc
        let z := ((s.dev.start.passGo s.mem u.toNat a e g p rest).unit b.1).acc b.2 p.set
        z.rows = Sd.rows desc ∧ z.seg = p.seg ∧ z.nextTile = 0 ∧ z.draining = (p.isClose || Sd.mode desc == 3)))) ∧
  (∀ (s : State) (u : BitVec 12) (arr set bad : Bool),
    let a := ofB arr
    let x := s.dev.unit u.toNat
    let c := x.acc a (ofB set)
    let mine := (x.inState 1).find? fun e => (x.entry e).arr == a && (x.entry e).set == ofB set
    let filling := (x.inState 1).any fun e => (x.entry e).arr == a
    (c.draining = false → exec (.tileDrain u arr set bad) s = s.ends s.dev.start) ∧
    (c.draining = true → mine = none →
      (filling = true → exec (.tileDrain u arr set bad) s = s.ends s.dev.start) ∧
      (filling = false → x.inState 0 = [] → exec (.tileDrain u arr set bad) s = s.ends (s.dev.start.count Reg.MATRIX_CQ_STALL u.toNat)) ∧
      (∀ e es, filling = false → x.inState 0 = e :: es → exec (.tileDrain u arr set bad) s =
        s.ends ((s.dev.start.setUnit u.toNat (x.setEntry e
          { st := 1, arr := a, set := ofB set, tile := c.nextTile, seg := c.seg, leader := c.leader, lArr := c.lArr })).matrixView u.toNat))) ∧
    (∀ e, c.draining = true → mine = some e → ∃ t, exec (.tileDrain u arr set bad) s = .next t ∧ t.mem = s.mem ∧ t.pending = s.pending ∧
      (t.dev.unit u.toNat).entry e = { c.tile c.nextTile a x.cqSeq false with eccBad := bad, set := ofB set } ∧
      ((t.dev.unit u.toNat).entry e).st = 2 ∧ (t.dev.unit u.toNat).cqSeq = x.cqSeq + 1 ∧
      (t.dev.unit u.toNat).acc a (ofB set) =
        if (c.rows + 31) / 32 ≤ c.nextTile + 1 then { c with draining := false } else { c with nextTile := c.nextTile + 1 }))

/-- R171, R176, R178: a pop takes the oldest WHOLE tile into CHECKING, or waits a cycle, counted in POP_WAIT; without a pop, or while a tile is
CHECKING, nothing is taken. The check of a tile ends, 40 cycles counted: one that passes verifies the tile, and with no tile READY or CURRENT it
becomes CURRENT and its pop ends; one that fails is a mismatch (`Dev.mismatch`). A tile that waits for its recompute is not checked again. R139,
R141 to R144: a first mismatch is counted and recorded with its detail, holds the unit with 0x0210, and waits in the cluster's queue. A mismatch
of a recomputed tile, or of a unit whose latest one lies less than RETIRE_WINDOW beats back, stops the unit with cause 1, spoils the step, and
raises 0x0212. The oldest mismatch of a gang is recomputed into set X, one at a time; the recomputed tile replaces the failing one in its entry
and waits for a new check, the cycles counted; nothing happens without one. A recomputed tile that passes ends the hold with 0x0211. R59, R63,
R142, R146: a write of TEST.RUN starts the array test of a block that is idle or off; it is refused with LOCKED, counted and reported, in a block
that runs, drains, resets or has failed, and with QUIESCED in a quiesced one. The test ends with its result and the arrays that failed: a failed
one raises 0x0214 and makes its unit due for retirement. With no suspects in the cluster that is all; without a test, nothing happens. -/
def Obligations.TileAndArrayTests : Prop :=
  (∀ (s : State) (u : BitVec 12) (upset : List (BitVec 11 × BitVec 32)) (bad : Bool),
    let x := s.dev.unit u.toNat
    (x.pops ≠ 0 → x.inState 3 = [] →
      (∀ e, x.oldestWhole = some e → exec (.tileCheckStart u) s =
        s.ends ((s.dev.start.setUnit u.toNat { x.setEntry e { x.entry e with st := 3, verified := false } with popWaited := 0 }).vectorView u.toNat)) ∧
      (x.oldestWhole = none → exec (.tileCheckStart u) s =
        s.ends ((s.dev.start.setUnit u.toNat { x with popWaited := x.popWaited + 1 }).count Reg.VECTOR_POP_WAIT u.toNat))) ∧
    (x.pops = 0 ∨ x.inState 3 ≠ [] → exec (.tileCheckStart u) s = s.ends s.dev.start) ∧
    ((x.inState 3).find? (fun e => ! (x.entry e).verified) = none ∨ x.mmWait = true → exec (.tileCheckDone u upset bad) s = s.ends s.dev.start) ∧
    (∀ e, (x.inState 3).find? (fun e => ! (x.entry e).verified) = some e → x.mmWait = false →
      let k := { x.entry e with
        words := upset.foldl (fun w p => SMap.putD w p.1.toNat (SMap.at w p.1.toNat 0 ^^^ p.2) 0) (x.entry e).words
        eccBad := (x.entry e).eccBad || bad }
      let d := (s.dev.start.setUnit u.toNat (x.setEntry e k)).count Reg.VECTOR_CHECK_BUSY u.toNat 40
      let v := d.setUnit u.toNat (x.setEntry e { k with verified := true })
      (∀ f, k.check = some f → exec (.tileCheckDone u upset bad) s = s.ends ((d.mismatch u.toNat k f).vectorView u.toNat)) ∧
      (k.check = none → ∃ t, exec (.tileCheckDone u upset bad) s = .next t ∧ t.mem = s.mem ∧ t.pending = s.pending ∧
        (k.recomp = true → t = { s with dev := { (v.tileRecovered u.toNat).promote u.toNat with writes := [] } }) ∧
        (k.recomp = false → t = { s with dev := { v.promote u.toNat with writes := [] } }) ∧
        (k.recomp = false → x.inState 3 = [e] → x.inState 4 = [] → x.inState 5 = [] →
          (t.dev.unit u.toNat).entry e = { k with st := 5, verified := false } ∧ (t.dev.unit u.toNat).pops = x.pops - 1)))) ∧
  ((∀ (d : Dev) (u : Nat) (k : CqEntry) (f : Nat × Nat × Nat),
    let detail := mismatchDetail k f
    let again := match (d.unit u).lastMm with | some b => d.beatNum < b + d.rd Reg.MATRIX_RETIRE_WINDOW u | none => False
    let t := d.mismatch u k f
    (k.recomp = false → ¬ again →
      t.rd Reg.MATRIX_LAST_MM_BEAT u = d.beatNum % 2 ^ Reg.MATRIX_LAST_MM_BEAT.width ∧ (t.unit u).held = true ∧ (t.unit u).mmWait = true ∧ (t.unit u).lastMm = some d.beatNum ∧
      t.rd Reg.MATRIX_LAST_MM u = detail % 2 ^ Reg.MATRIX_LAST_MM.width ∧
      (t.cluster (clusterOf u)).mmQueue = (d.cluster (clusterOf u)).mmQueue ++ [u] ∧ bit (t.hd Hdr.EVT_BLOCK (pgMatrix u)) 3 = true) ∧
    (k.recomp = true ∨ again →
      let e := (d.bump Reg.MATRIX_MISMATCH_TOTAL u).wr Reg.MATRIX_LAST_MM_BEAT u d.beatNum
      t = (e.setUnit u { e.unit u with lastMm := some d.beatNum }).secondMismatch u k detail)) ∧
  (∀ (d : Dev) (u : Nat) (k : CqEntry) (detail : Nat), (d.secondMismatch u k detail).spoiled = true) ∧
  (∀ (s : State) (u : BitVec 12) (cycles : BitVec 32),
    let x := s.dev.unit u.toNat
    let c := clusterOf u.toNat
    (x.inState 3 = [] → exec (.recomputeStart u) s = s.ends s.dev.start ∧ exec (.recomputeDone u cycles) s = s.ends s.dev.start) ∧
    (x.recomputing = false → exec (.recomputeDone u cycles) s = s.ends s.dev.start) ∧
    (∀ e es, x.inState 3 = e :: es →
      let k := x.entry e
      let mine := x.mmWait = true ∧ x.recomputing = false ∧ (s.dev.gangQueue c k.leader k.lArr).head? = some u.toNat
      (¬ mine ∨ s.dev.gangOf k.leader k.lArr = none → exec (.recomputeStart u) s = s.ends s.dev.start) ∧
      (∀ g, mine → s.dev.gangOf k.leader k.lArr = some g → exec (.recomputeStart u) s =
        s.ends ((s.dev.start.setUnit u.toNat { x.setAcc k.arr 2 (s.dev.recomputeSet s.mem k g) with recomputing := true }).matrixView u.toNat)) ∧
      (x.recomputing = true → exec (.recomputeDone u cycles) s =
        s.ends ((((s.dev.start.setUnit u.toNat { (x.setEntry e { (x.acc k.arr 2).tile k.tile k.arr k.seq true with st := 3 }).setAcc k.arr 2 {} with
          recomputing := false, mmWait := false, heldCycles := cycles.toNat }).setCluster c
            { s.dev.cluster c with mmQueue := (s.dev.cluster c).mmQueue.filter (· != u.toNat) }).count
          Reg.MATRIX_RECOMP_CYCLES u.toNat cycles.toNat).matrixView u.toNat))) ∧
    (∀ d : Dev, (d.unit u.toNat).held = true → d.tileRecovered u.toNat =
      (d.setUnit u.toNat { d.unit u.toNat with held := false, mmWait := false }).raise (pgMatrix u.toNat) 0x0211 12 Sev.info
        (sat 24 (d.unit u.toNat).heldCycles)))) ∧
  (∀ (s : State) (r : Requester) (u : BitVec 12) (f0 f1 : Bool),
    let pg := pgMatrix u.toNat
    let c := clusterOf u.toNat
    let f := ofB f0 + 2 * ofB f1
    let begun := (s.dev.start.wr Reg.MATRIX_TEST_RUN u.toNat 1).wr Reg.MATRIX_TEST_STAT_RESULT u.toNat 1
    let ended := ((((s.dev.start.wr Reg.MATRIX_TEST_STAT_RESULT u.toNat (if f = 0 then 2 else 3)).wr Reg.MATRIX_TEST_STAT_FAILED u.toNat f).idle
      pg).matrixView u.toNat)
    (s.accepts r pg 0x0F8 true →
      (s.dev.bs pg = Bs.idle → exec (.matrixTestRun r u) s = s.ends ((begun.setBs pg Bs.run).done 0)) ∧
      (s.dev.bs pg = Bs.off → exec (.matrixTestRun r u) s = s.ends (begun.done 0)) ∧
      (s.dev.bs pg = Bs.quiesced → exec (.matrixTestRun r u) s = s.ends (s.dev.start.done 5)) ∧
      (s.dev.bs pg ≠ Bs.off → s.dev.bs pg ≠ Bs.idle → s.dev.bs pg ≠ Bs.quiesced → exec (.matrixTestRun r u) s =
        s.ends ((s.dev.start.lockRefused pg 0x0F8).done 3))) ∧
    (s.dev.rd Reg.MATRIX_TEST_STAT_RESULT u.toNat ≠ 1 → exec (.arrayTestDone u f0 f1) s = s.ends s.dev.start) ∧
    (s.dev.rd Reg.MATRIX_TEST_STAT_RESULT u.toNat = 1 → exec (.arrayTestDone u f0 f1) s =
      s.ends ((if f = 0 then ended else ended.raise pg 0x0214 14 Sev.error f).suspectTested u.toNat (decide (f ≠ 0)))) ∧
    (∀ d : Dev, (d.cluster c).suspects = [] → ∀ failed : Bool,
      let e := (d.setCluster c { d.cluster c with suspects := [] }).suspectView c
      d.suspectTested u.toNat failed = if failed then e.retireDue 1 u.toNat else e))

/-! ## Stores (R213 to R223) -/

/-- R213, R216, R217, R256: a scrub read in the slack of a store that scrubs itself does what the store's code says of the line, writes nothing else,
and counts the pass at its last line; an uncorrectable line spoils the step, and a larder replaces it by its next spare. R223: a patrol read
counts its pass at the last one. Outside the slack, with scrubbing or the patrol off, or of a line that does not exist, nothing happens. R219,
R220: a block of a stack whose CRC holds on the second read is counted and reported with 0x0504; one whose CRC fails again is counted, recorded,
reported with 0x0505, and listed once while the list has room, and a failure in STATE or CELLAR spoils the step. A block beyond the stack does
nothing. -/
def Obligations.ScrubAndBlocks : Prop :=
  (∀ (s : State),
    (∀ (la : Bool) (u : BitVec 12) (line : BitVec 18) (e : Ecc),
      let on := s.dev.rd (if la then Reg.LARDER_SCRUB_EN else Reg.LSTORE_SCRUB_EN) u.toNat ≠ 0 ∧ s.dev.slackOpen = true
      let n := if la then 262144 else 8192
      let x := if la then s.dev.start.larderEcc e u.toNat line.toNat else s.dev.start.lsEcc e u.toNat line.toNat
      let passes := if la then Reg.LARDER_SCRUB_PASSES else Reg.LSTORE_SCRUB_PASSES
      (¬ on ∨ n ≤ line.toNat → exec (.scrubLine la u line e) s = s.ends s.dev.start) ∧
      (on → line.toNat + 1 < n → exec (.scrubLine la u line e) s = s.endsStore x) ∧
      (on → line.toNat + 1 = n → exec (.scrubLine la u line e) s = s.endsStore (x.count passes u.toNat)) ∧
      (e = .ok → x = s.dev.start) ∧
      (e = .corrected → x = s.dev.start.correctedError (if la then pgLarder u.toNat else pgLstore u.toNat) (if la then 0 else line.toNat % 4)) ∧
      (e = .uncorrectable → x.spoiled = true) ∧
      (e = .uncorrectable → la = true → s.dev.rd Reg.LARDER_SPARES_USED u.toNat < 64 →
        x.rd Reg.LARDER_SPARES_USED u.toNat = s.dev.rd Reg.LARDER_SPARES_USED u.toNat + 1 ∧
        x.rd Reg.LARDER_REMAP_LINE u.toNat (s.dev.rd Reg.LARDER_SPARES_USED u.toNat) = line.toNat)) ∧
    (∀ (k : BitVec 3) (b : BitVec 27) (last : Bool),
      let i := hbmInst k.toNat
      let reads := s.dev.rd Reg.HBM_CTL_PATROL_EN i ≠ 0 ∧ s.dev.rd Reg.HBM_CTL_STATE i = 2 ∧ s.dev.slackOpen = true ∧
        (s.dev.partitionOf k.toNat (b.toNat / 32768)).isSome = true
      (reads → exec (.patrolRead k b last) s = s.ends (if last then s.dev.start.count Reg.HBM_CTL_PATROL_PASSES i else s.dev.start)) ∧
      (¬ reads → exec (.patrolRead k b last) s = s.ends s.dev.start))) ∧
  (∀ (s : State) (k : BitVec 3) (b : BitVec 27) (data : List Byte),
    let i := hbmInst k.toNat
    let pg := pageNum 5 i 2
    let n := s.dev.rd Reg.HBM_ERR_BAD_COUNT i
    let part := s.dev.partitionOf k.toNat (b.toNat / 32768)
    (stackBlocks ≤ b.toNat → exec (.hbmCrcRetry k b data) s = s.ends s.dev.start) ∧
    (b.toNat < stackBlocks →
      (blockPasses s.mem k.toNat b.toNat data = true → exec (.hbmCrcRetry k b data) s =
        s.ends ((s.dev.start.bump Reg.HBM_ERR_CRC_RETRY i).raise pg 0x0504 8 Sev.info b.toNat)) ∧
      (blockPasses s.mem k.toNat b.toNat data = false → n < 64 → (∀ j, j < n → s.dev.rd Reg.HBM_ERR_BAD_BLOCK i j ≠ b.toNat) →
        ∃ t, exec (.hbmCrcRetry k b data) s = .next t ∧
        t.mem = s.mem ∧ t.pending = s.pending ∧ t.dev.rd Reg.HBM_ERR_LAST_FAIL i = b.toNat ∧
        t.dev.rd Reg.HBM_ERR_CRC_FAIL i = sat Reg.HBM_ERR_CRC_FAIL.width (s.dev.rd Reg.HBM_ERR_CRC_FAIL i + 1) ∧
        t.dev.rd Reg.HBM_ERR_BAD_BLOCK i n = b.toNat ∧ t.dev.rd Reg.HBM_ERR_BAD_VALID i n = 1 ∧ t.dev.rd Reg.HBM_ERR_BAD_COUNT i = n + 1 ∧
        bit (t.dev.hd Hdr.EVT_BLOCK pg) 1 = true ∧
        (part = some 0 ∨ part = some 1 → t.dev.spoiled = true) ∧ (part ≠ some 0 → part ≠ some 1 → t.dev.spoiled = s.dev.spoiled)) ∧
      (blockPasses s.mem k.toNat b.toNat data = false → (∃ j, j < n ∧ s.dev.rd Reg.HBM_ERR_BAD_BLOCK i j = b.toNat) →
        ∃ t, exec (.hbmCrcRetry k b data) s = .next t ∧ t.mem = s.mem ∧ t.dev.rd Reg.HBM_ERR_BAD_COUNT i = n ∧
        t.dev.rd Reg.HBM_ERR_LAST_FAIL i = b.toNat)))

/-! ## Movement (R224 to R242, R365 to R376) -/

/-- R227, R228, R229, R232: KICK.GO takes a place in an engine's queue, or is refused with QUIESCED when it is full. CMOVE passes a block that it
cannot serve to its RMOVE once that has room; an RMOVE that takes no work ends the block with code 10. R213, R228, R229, R254, R256: an idle
engine takes the next block that may start and checks it. One without a fault has its descriptors to run, one with a fault none, and the corrected
and uncorrectable words of the block count at their store; a block that reads a landing area for which shuttles are still to land waits. A block
leaves its engine once its descriptors have run or a fault has ended it: it is counted, a fault recorded, its tag completed. -/
def Obligations.MoveBlocks : Prop :=
  (∀ (s : State) (rm : Bool) (i : BitVec 12),
    (∀ (r : Requester) (tag : BitVec 4), s.accepts r (pgEng rm i.toNat) 0x084 true → s.dev.refusesWork (pgEng rm i.toNat) = false →
      let e := s.dev.eng rm i.toNat
      let tags := engField rm Reg.CMOVE_OPEN_TAGS Reg.RMOVE_OPEN_TAGS
      let addr := s.dev.rd (engField rm Reg.CMOVE_KICK_ADDR Reg.RMOVE_KICK_ADDR) i.toNat
      let b : MBlock := { addr := larderBase (regionOf i.toNat) + 64 * addr, kicker := none, tag := tag.toNat, home := i.toNat, atRegion := rm,
                          heldAt := s.dev.now }
      (e.queue.length < engCap rm → exec (.kickGo r rm i tag) s =
        s.ends ((((s.dev.start.wr tags i.toNat (setBit (s.dev.rd tags i.toNat) tag.toNat)).setEng rm i.toNat { e with
          queue := e.queue ++ [b] }).engView rm i.toNat).done 0)) ∧
      (engCap rm ≤ e.queue.length → exec (.kickGo r rm i tag) s = s.ends (s.dev.start.done 5))) ∧
    (let e := s.dev.eng false i.toNat
     let r := regionOf i.toNat
     let idle := [Bs.quiesced, Bs.resetting, Bs.fault, Bs.retired].contains (s.dev.bs (pgCmove i.toNat)) = true
     (e.run ≠ none ∨ e.queue = [] → exec (.cmovePassToRmove i) s = s.ends s.dev.start) ∧
     (∀ b q, e.run = none → e.queue = b :: q →
       (cmoveServes s.mem i.toNat b = true ∨ idle → exec (.cmovePassToRmove i) s = s.ends s.dev.start) ∧
       (cmoveServes s.mem i.toNat b = false → ¬ idle →
         (∀ code, s.dev.stateCode (pgRmove r) = some code →
           exec (.cmovePassToRmove i) s = s.ends (s.dev.start.finishBlock false i.toNat b (some (10, 0, code)))) ∧
         (s.dev.stateCode (pgRmove r) = none → (s.dev.eng true r).queue.length < engCap true → exec (.cmovePassToRmove i) s =
           s.ends (((s.dev.start.setEng false i.toNat { e with queue := q }).accept true r { b with sentAt := s.dev.now }).engView false i.toNat)) ∧
         (s.dev.stateCode (pgRmove r) = none → engCap true ≤ (s.dev.eng true r).queue.length →
           exec (.cmovePassToRmove i) s = s.ends s.dev.start))))) ∧
  (∀ (s : State) (rm : Bool) (i : BitVec 12),
    let e := s.dev.eng rm i.toNat
    (∀ (ec : Ecc) (line : BitVec 17), e.run ≠ none ∨ s.dev.nextBlocks rm e.queue = [] → exec (.moveBlockStart rm i ⟨ec, line⟩) s = s.ends s.dev.start) ∧
    (∀ (ec : Ecc) (line : BitVec 17) (b : MBlock) (bs : List MBlock), e.run = none → s.dev.nextBlocks rm e.queue = b :: bs →
      let ecc := if line.toNat < blockLines s.mem b.addr then ec else .ok
      let f := s.dev.blockFault s.mem rm i.toNat b (ecc == .uncorrectable)
      let takes := [Bs.quiesced, Bs.resetting, Bs.fault, Bs.retired].contains (s.dev.bs (pgEng rm i.toNat)) = false ∧
        (rm = true ∨ ecc = .uncorrectable ∨ cmoveServes s.mem i.toNat b = true)
      let waits := f = none ∧ (blockDescs s.mem b.addr).any s.dev.awaitsLanding = true
      let d := s.dev.start.blockEcc b.addr line.toNat ecc
      (¬ takes ∨ waits → exec (.moveBlockStart rm i ⟨ec, line⟩) s = s.ends s.dev.start) ∧
      (takes → ¬ waits → exec (.moveBlockStart rm i ⟨ec, line⟩) s = s.endsStore (d.putEng rm i.toNat ⟨b :: bs,
        some (d.issue i.toNat { block := b, descs := if f.isSome then [] else blockDescs s.mem b.addr, next := 0, fault := f })⟩))) ∧
    (e.run = none → exec (.moveBlockComplete rm i) s = s.ends s.dev.start) ∧
    (∀ x : MRun, e.run = some x →
      let y := s.dev.start.putEng rm i.toNat { queue := e.queue.drop 1, run := none }
      let z := (if rm && ! x.block.atRegion then y.engView false x.block.home else y).count
        (engField rm Reg.CMOVE_BLOCKS_DONE Reg.RMOVE_BLOCKS_DONE) i.toNat
      (x.fault = none → x.next ≠ x.descs.length → exec (.moveBlockComplete rm i) s = s.ends s.dev.start) ∧
      (x.fault = none → x.next = x.descs.length → exec (.moveBlockComplete rm i) s = s.ends (z.tagDone x.block 0)) ∧
      (∀ f, x.fault = some f → exec (.moveBlockComplete rm i) s = s.ends ((z.recordFail rm i.toNat x.block f).tagDone x.block f.2.2))))

/-- R225, R226, R229, R233, R363: descriptors. NOP does nothing; COPY writes each destination row with the bytes of its source row, ZERO clears each destination
row; an uncorrectable word ends a COPY with the rows, and the whole 4 KiB pieces of its row, before it written. The conversions, the compression
and the exchange operations write what their rules compute, and nothing else of the store; EXCH_ENC waits for the exchange start, EXCH_DEC for the
contributions. Each advances its engine and counts its lines; with no block run, nothing happens. -/
def Obligations.Descriptors : Prop :=
  ∀ (s : State) (rm : Bool) (i : BitVec 12) (r : MRun) (w : Nat) (e : Ecc) (k : BitVec 16) (l : BitVec 17),
    let d := s.dev.start.srcCorrected e w k.toNat l.toNat
    let bad := badAt e k.toNat l.toNat
    let part := l.toNat / 64 * 64
    let cleared := (List.range (Ds.rows w)).map fun j => MemOp.clear (s.dev.dstRow w j) (s.dev.dstRow w j + Ds.rowLen w * 64)
    let rows := fun (n : Nat) => (List.range n).map fun j =>
      MemOp.write (s.dev.dstRow w j) (s.mem.bytes (s.dev.srcRow w j) (Ds.rowLen w * 64))
    let hit := e = .uncorrectable ∧ k.toNat < Ds.rows w ∧ l.toNat < Ds.rowLen w
    (DescRuns s rm i.toNat 0 r w → exec (.descNop rm i) s = s.descEnds rm i.toNat r ⟨s.dev.start, 0, none⟩) ∧
    (DescRuns s rm i.toNat 2 r w → exec (.descZero rm i) s =
      s.descEnds rm i.toNat r ⟨{ s.dev.start with writes := cleared }, Ds.rows w * Ds.rowLen w, none⟩) ∧
    (DescRuns s rm i.toNat 1 r w → hit →
      let x := ({ d with writes := rows k.toNat ++ [MemOp.write (s.dev.dstRow w k.toNat) (s.mem.bytes (s.dev.srcRow w k.toNat) (part * 64))] } : Dev).srcFail
        w k.toNat l.toNat
      exec (.descCopy rm i ⟨e, l⟩ k) s = s.descEnds rm i.toNat r ⟨x.1, k.toNat * Ds.rowLen w + part, some (x.2, 8)⟩) ∧
    (DescRuns s rm i.toNat 1 r w → ¬ hit → exec (.descCopy rm i ⟨e, l⟩ k) s =
      s.descEnds rm i.toNat r ⟨{ d with writes := rows (Ds.rows w) }, Ds.rows w * Ds.rowLen w, none⟩) ∧
    (DescRuns s rm i.toNat 3 r w → exec (.descCompress rm i ⟨e, l⟩ k) s = s.descEnds rm i.toNat r (compressDesc s.mem rm i.toNat bad d w)) ∧
    (DescRuns s rm i.toNat 4 r w → exec (.descDecompress rm i ⟨e, l⟩ k) s = s.descEnds rm i.toNat r (decompressDesc s.mem rm i.toNat bad d w)) ∧
    (DescRuns s rm i.toNat 5 r w → exec (.descToBlock rm i ⟨e, l⟩ k) s = s.descEnds rm i.toNat r (toBlockDesc s.mem rm i.toNat bad d w)) ∧
    (DescRuns s rm i.toNat 6 r w → exec (.descFromBlock rm i ⟨e, l⟩ k) s = s.descEnds rm i.toNat r (fromBlockDesc s.mem rm i.toNat bad d w)) ∧
    (DescRuns s true i.toNat 7 r w → s.dev.encodeReady = true → exec (.descExchEnc i ⟨e, l⟩ k) s =
      s.descEnds true i.toNat r (exchEncDesc s.mem i.toNat bad d w)) ∧
    (DescRuns s true i.toNat 7 r w → s.dev.encodeReady = false → exec (.descExchEnc i ⟨e, l⟩ k) s = s.ends s.dev.start) ∧
    (DescRuns s true i.toNat 8 r w → s.dev.decodeReady w = true → exec (.descExchDec i ⟨e, l⟩ k) s =
      s.descEnds true i.toNat r (exchDecDesc s.mem i.toNat bad d w)) ∧
    (DescRuns s true i.toNat 8 r w → s.dev.decodeReady w = false → exec (.descExchDec i ⟨e, l⟩ k) s = s.ends s.dev.start) ∧
    ((s.dev.eng rm i.toNat).run = none → ∀ c ∈ [Instr.descNop rm i, .descCopy rm i ⟨e, l⟩ k, .descZero rm i, .descCompress rm i ⟨e, l⟩ k,
      .descDecompress rm i ⟨e, l⟩ k, .descToBlock rm i ⟨e, l⟩ k, .descFromBlock rm i ⟨e, l⟩ k], exec c s = s.ends s.dev.start) ∧
    ((s.dev.eng true i.toNat).run = none → ∀ c ∈ [Instr.descExchEnc i ⟨e, l⟩ k, .descExchDec i ⟨e, l⟩ k], exec c s = s.ends s.dev.start)

/-- R238: the LOSSLESS coding loses nothing: decoding the coded groups of FP32 or FP16 elements gives every element back. -/
def Obligations.LosslessRoundTrip : Prop :=
  ∀ (fmt : Nat) (gs : List (List Nat)), fmt ≤ 1 → (∀ g ∈ gs, g.length = 32 ∧ ∀ x ∈ g, x < 2 ^ (8 * elemBytes fmt)) →
    llDecode fmt (gs.length + 1) gs.length (llEncode fmt gs 0) = some gs.flatten

/-! ## The beat (R244 to R268) -/

/-- R244, R245, R248, R256, R258, R261, R267, R394, R560: the beat. A boundary comes only while the timer runs; it is the time the phase returns to 0, it
delivers the events of the beat that ends, begins the next one (the first begins the beat held), applies PERIOD, T_X and T_S that wait for it, measures
lateness, elects the source, runs the vote tree, and sends one marker on every port in UP or DEGRADED. The exchange and slack windows begin at
T_X and at the slack window's start, once a beat; in slack what waits is forwarded, and missing shuttles are asked for. A remeasured delay of at most 10 µs
is held, and a live entry that it makes late is reported; a longer one is rejected with 0x0605. -/
def Obligations.Beats : Prop :=
  (∀ s : State, s.dev.timerOn = false → exec .beatBoundary s = s.ends s.dev.start ∧ exec .exchangeWindowStart s = s.ends s.dev.start ∧
    ∀ credit, exec (.slackWindowStart credit) s = s.ends s.dev.start) ∧
  (∀ s : State, s.dev.timerOn = true →
    let d := s.dev.start.passTo s.dev.nextBoundary
    let d := (if d.beatSeen then d.deliverEvents else d).nextBeat
    let d := (d.quiesceWaiting.applyBeat).lateness
    let d := d.sourceWithdraws.elect.voteTree.sendMarkers
    exec .beatBoundary s = s.endsStore ((((d.mapPositions.powerBoundary).peersGone).controlAreas s.mem).startWays)) ∧
  (∀ d : Dev, d.nextBeat.beatSeen = true ∧ d.nextBeat.boundary = d.now ∧ d.nextBeat.g Reg.BEAT_CFG_PHASE = 0 ∧
    d.nextBeat.beatNum = (if d.beatSeen then d.beatNum + 1 else d.beatNum) % 2 ^ 64 ∧ d.nextBeat.units = d.units ∧ d.nextBeat.step = d.step) ∧
  (∀ d : Dev, d.beat.pend = none → d.applyBeat = d) ∧
  (∀ (d : Dev) (b per tx ts : Nat), d.beat.pend = some (b, per, tx, ts) →
    (d.beatNum < b → d.applyBeat = d) ∧
    (b ≤ d.beatNum → d.applyBeat.beat.pend = none ∧ d.applyBeat.g Reg.BEAT_CFG_STATUS_PENDING = 0 ∧
      d.applyBeat.g Reg.BEAT_CFG_PERIOD = per % 2 ^ Reg.BEAT_CFG_PERIOD.width ∧ d.applyBeat.g Reg.BEAT_CFG_T_X = tx % 2 ^ Reg.BEAT_CFG_T_X.width ∧
      d.applyBeat.g Reg.BEAT_CFG_T_S = ts % 2 ^ Reg.BEAT_CFG_T_S.width ∧ bit (d.applyBeat.hd Hdr.EVT_BLOCK (pageNum 8 0 0)) 0 = true)) ∧
  (∀ d : Dev, d.sendMarkers = { d with out := d.out ++ d.livePorts.map fun p => .marker p (d.markerOf d.aggregate p) }) ∧
  (∀ s : State, s.dev.timerOn = true →
    let ph := s.dev.g Reg.BEAT_CFG_PHASE
    let tx := s.dev.g Reg.BEAT_CFG_T_X
    (ph < tx → exec .exchangeWindowStart s = s.ends (s.dev.start.passTo (s.dev.now + (tx - ph)))) ∧
    (tx ≤ ph → exec .exchangeWindowStart s = s.ends s.dev.start)) ∧
  (∀ (s : State) (credit : BitVec 32), s.dev.timerOn = true →
    (s.dev.slackFrom ≤ s.dev.g Reg.BEAT_CFG_PHASE → exec (.slackWindowStart credit) s = s.ends s.dev.start) ∧
    (s.dev.g Reg.BEAT_CFG_PHASE < s.dev.slackFrom →
      let d := (s.dev.start.passTo (s.dev.now + (s.dev.slackFrom - s.dev.g Reg.BEAT_CFG_PHASE))).drainPrio credit.toNat 1
      let e := if d.stepOpen then d.missing.foldl (Dev.ask credit.toNat) d else d
      exec (.slackWindowStart credit) s = s.ends ((e.drainPrio credit.toNat 2).drainPrio credit.toNat 3))) ∧
  (∀ (s : State) (p : BitVec 5) (v : BitVec 24),
    let d := (s.dev.start.p Reg.BEAT_LOCK_DELAY_VALUE v.toNat p.toNat).p Reg.BEAT_LOCK_DELAY_VALID 1 p.toNat
    let late := fun (x : Nat × Nat) => Rt.role x.1 == 1 && Rt.inBundle x.1 == p.toNat / 4 && ! d.throughOk x.1
    (20000 < v.toNat → exec (.delayRemeasure p v) s = s.ends (s.dev.start.raise pgBeatLock 0x0605 12 Sev.warn (p.toNat + 256))) ∧
    (v.toNat ≤ 20000 → (Rt.entries s.dev.route.live).zipIdx.find? late = none → exec (.delayRemeasure p v) s = s.ends d) ∧
    (∀ x, v.toNat ≤ 20000 → (Rt.entries s.dev.route.live).zipIdx.find? late = some x → exec (.delayRemeasure p v) s =
      s.ends (d.raise pgLinkRoute 0x0A0C 9 Sev.error (8 + 256 * sat 24 x.2))))

/-- R258 to R267: the beat lock. A marker that fails its CRC, or comes on a port that is not in service, is nothing; one with more than 64 hops
is rejected with 0x060D; a valid one is kept with its time, and the election runs on it. A candidate without a port in service, that hears no claim,
becomes the LOCKED source. A locked follower takes a sample that passes and
rejects one that does not. MARKER_TIMEOUT beats without one are holdover, HOLD_LIMIT beats of holdover are LOST with the vote at FAIL, and a
claim not refreshed for SOURCE_TIMEOUT beats is dropped and the election runs again. -/
def Obligations.BeatLock : Prop :=
  (∀ (s : State) (p : BitVec 5) (ok : Bool) (m : Marker) (e r : BitVec 32),
    (ok = false ∨ s.dev.portLive p.toNat = false ∨ s.dev.timerOn = false → exec (.beatMarker p ok m e r) s = s.ends s.dev.start) ∧
    (ok = true → s.dev.portLive p.toNat = true → s.dev.timerOn = true → 64 < m.hops.toNat →
      exec (.beatMarker p ok m e r) s = s.ends (s.dev.start.raise pgBeatLock 0x060D 14 Sev.error p.toNat)) ∧
    (ok = true → s.dev.portLive p.toNat = true → s.dev.timerOn = true → m.hops.toNat ≤ 64 → ∃ t, exec (.beatMarker p ok m e r) s = .next t ∧
      t.mem = s.mem ∧ t.pending = s.pending ∧ t.dev.units = s.dev.units ∧ t.dev.now = s.dev.now ∧
      t.dev.beat.marks = SMap.put s.dev.beat.marks p.toNat
        ⟨m, s.dev.now, m.beat.toNat != s.dev.beatNum || m.period.toNat != s.dev.g Reg.BEAT_CFG_PERIOD || decide (2000 < e.toInt.natAbs)⟩)) ∧
  (∀ (d : Dev) (c : Nat × Nat), d.ownClaim = some c → bestHeard d.heard = none → d.livePorts = [] → d.lockState ≠ 4 →
    d.elect.g Reg.BEAT_LOCK_SOURCE = c.2 % 2 ^ 18 ∧ d.elect.lockState = 2 ∧ (d.lockState ≠ 2 → d.elect.beat.source = true)) ∧
  (∀ (d : Dev) (p : Nat) (m : Marker) (e : Int) (r : Nat), d.lockState = 2 →
    (m.period.toNat = d.g Reg.BEAT_CFG_PERIOD → m.beat.toNat = d.beatNum → e.natAbs ≤ 2000 → d.discipline p m e r =
      (({ d with beat := { d.beat with samples := (e :: d.beat.samples).take 3, lastOk := d.now } } : Dev).p Reg.BEAT_LOCK_PHASE_ERR
        (wrapI 16 (median ((e :: d.beat.samples).take 3)))).p Reg.BEAT_LOCK_RATE_PPB r) ∧
    (m.period.toNat = d.g Reg.BEAT_CFG_PERIOD → m.beat.toNat = d.beatNum → 2000 < e.natAbs →
      d.discipline p m e r = d.raise pgBeatLock 0x0605 12 Sev.warn p) ∧
    (m.period.toNat = d.g Reg.BEAT_CFG_PERIOD → m.beat.toNat ≠ d.beatNum →
      d.discipline p m e r = d.raise pgBeatLock 0x0605 12 Sev.warn (p + 64)) ∧
    (m.period.toNat ≠ d.g Reg.BEAT_CFG_PERIOD → (d.discipline p m e r).lockState = 1)) ∧
  (∀ s : State,
    (s.dev.lockState = 2 → s.dev.beat.source = false →
      let d := s.dev.start.passTo (s.dev.beat.lastOk + s.dev.g Reg.BEAT_LOCK_MARKER_TIMEOUT * s.dev.period)
      exec .markerTimeout s = s.ends ((({ d with beat := { d.beat with holdAt := d.now, source := false } } : Dev).p Reg.BEAT_LOCK_STATE 3).raise
        pgBeatLock 0x0602 9 Sev.warn (d.g Reg.BEAT_LOCK_UPSTREAM))) ∧
    (s.dev.lockState ≠ 2 ∨ s.dev.beat.source = true → exec .markerTimeout s = s.ends s.dev.start) ∧
    (s.dev.lockState = 3 → exec .holdLimitExpiry s =
      s.ends ((s.dev.start.passTo (s.dev.beat.holdAt + s.dev.g Reg.BEAT_LOCK_HOLD_LIMIT * s.dev.period)).enterLost 0)) ∧
    (s.dev.lockState ≠ 3 → exec .holdLimitExpiry s = s.ends s.dev.start) ∧
    (s.dev.beat.source = true ∨ s.dev.g Reg.BEAT_LOCK_UPSTREAM = 63 → exec .sourceTimeout s = s.ends s.dev.start) ∧
    (s.dev.beat.source = false → s.dev.g Reg.BEAT_LOCK_UPSTREAM ≠ 63 →
      let d := s.dev.start.passTo (s.dev.beat.lastClaim + s.dev.g Reg.BEAT_LOCK_SOURCE_TIMEOUT * s.dev.period)
      let d := { d with beat := { d.beat with marks := d.beat.marks.filter fun pk => pk.2.m.source.toNat != s.dev.g Reg.BEAT_LOCK_SOURCE } }
      let d := if d.lockState = 2 then d.enterHoldover (d.g Reg.BEAT_LOCK_UPSTREAM) else d
      exec .sourceTimeout s = s.ends ((d.p Reg.BEAT_LOCK_UPSTREAM 63).elect))) ∧
  (∀ (d : Dev) (why : Nat), (d.enterLost why).lockState = 4 ∧ (d.enterLost why).beat.source = false ∧
    (d.enterLost why).g Reg.BEAT_LOCK_LOCK_LOSSES = sat 16 (d.g Reg.BEAT_LOCK_LOCK_LOSSES + 1) ∧
    bit ((d.enterLost why).hd Hdr.EVT_BLOCK pgBeatLock) 2 = true ∧
    (d.stepOpen = true → (d.enterLost why).g Reg.STEP_REC_STATE_VOTE = max 3 (d.g Reg.STEP_REC_STATE_VOTE) % 4))

/-! ## Steps (R270 to R286, R341 to R343, R495) -/

/-- R270, R271, R272, R286: a step. In the beat it begins, with its plan live and the package free to run, its registers start afresh and what its
attempt gathers is empty, its carries kept; one of several packages that is not LOCKED votes FAIL. Work that ended, with nothing to wait for and
every tile checked, votes OK; unfinished or spoiled work votes REPLAY at once, dirty. A downstream port whose aggregate is not complete in time
counts as silent, with 0x0D01. A decision due at this beat closes the attempt and commits it, replays it or leaves it to a restore; with none due
nothing happens. R279, R495, R496, R500: the ends of waits. DRAIN_HOLD beats after the planned end the save point in hand is abandoned and the
vote is set; FORCE_WAIT beats after a deadline a forced step that still misses a contribution fails, with 0x060C; a READY package resumes at
RESUME_BEAT with the step after its save point. -/
def Obligations.StepsAndWaits : Prop :=
  ((∀ s : State, s.dev.step.next = none ∨ s.dev.plan.live = none ∨ s.dev.self = none → exec .stepStart s = s.ends s.dev.start) ∧
  (∀ (s : State) (b : Nat) (p : Plan) (i : Nat), s.dev.step.next = some b → s.dev.plan.live = some p → s.dev.self = some i →
    (s.dev.beatSeen = false ∨ s.dev.stepOpen = true ∨ s.dev.beatNum < b ∨ s.dev.mayRun = false → exec .stepStart s = s.ends s.dev.start) ∧
    (s.dev.beatSeen = true → s.dev.stepOpen = false → b ≤ s.dev.beatNum → s.dev.mayRun = true → s.dev.forcedMode = false →
      Dr.single s.dev.plan.draft = true ∨ s.dev.lockState = 2 → ∃ t, exec .stepStart s = .next t ∧ t.mem = s.mem ∧ t.pending = s.pending ∧
        t.dev.stepStart = b % 2 ^ 64 ∧ t.dev.g Reg.STEP_REC_STATE_PHASE = 1 ∧ t.dev.g Reg.STEP_REC_STATE_VOTE = 0 ∧
        t.dev.g Reg.STEP_REC_STATE_AGG = 0 ∧ t.dev.g Reg.BEAT_CFG_MAX_LATE = 0 ∧ t.dev.g Reg.STEP_REC_LEDGER_TRUNCATED = 0 ∧
        t.dev.step = { carries := s.dev.step.carries, lastRecord := s.dev.step.lastRecord } ∧ t.dev.spoiled = false ∧
        t.dev.units = s.dev.units) ∧
    (s.dev.beatSeen = true → s.dev.stepOpen = false → b ≤ s.dev.beatNum → s.dev.mayRun = true → s.dev.forcedMode = false →
      Dr.single s.dev.plan.draft = false → s.dev.lockState ≠ 2 → ∃ t, exec .stepStart s = .next t ∧ t.mem = s.mem ∧
        t.dev.g Reg.STEP_REC_STATE_PHASE = 2 ∧ t.dev.g Reg.STEP_REC_STATE_VOTE = 3)) ∧
  (∀ s : State,
    let vote := fun (v : Nat) (dirty : Bool) => (s.ends { (s.dev.start.p Reg.STEP_REC_STATE_PHASE 2).p Reg.STEP_REC_STATE_VOTE v with
      step := { s.dev.step with dirty := s.dev.step.dirty || dirty } })
    let ended := s.dev.decodesEnded = true ∧ s.dev.evaluatedAll = true ∧ s.dev.drainHeld = false ∧ s.dev.tilesChecked = true
    (s.dev.stepOpen = false → ∀ fin, exec (.stepVote fin) s = s.ends s.dev.start) ∧
    (s.dev.stepOpen = true → s.dev.g Reg.STEP_REC_STATE_VOTE ≠ 0 → ∀ fin, exec (.stepVote fin) s =
      s.ends { s.dev.start with step := { s.dev.step with dirty := s.dev.step.dirty || s.dev.spoiled || ! fin } }) ∧
    (s.dev.stepOpen = true → s.dev.g Reg.STEP_REC_STATE_VOTE = 0 →
      exec (.stepVote false) s = vote 2 true ∧ (s.dev.spoiled = true → exec (.stepVote true) s = vote 2 true) ∧
      (s.dev.spoiled = false → ended → exec (.stepVote true) s = vote 1 false) ∧
      (s.dev.spoiled = false → ¬ ended → exec (.stepVote true) s = s.ends s.dev.start))) ∧
  (∀ (s : State) (p : BitVec 5), (SMap.find s.dev.beat.marks p.toNat = none → exec (.voteTimeout p) s = s.ends s.dev.start) ∧
    (∀ k, SMap.find s.dev.beat.marks p.toNat = some k → s.dev.stepOpen = true → s.dev.step.dec = none → s.dev.isChild (p.toNat, k) = true →
      s.dev.childComplete k = false → s.dev.step.silent.contains p.toNat = false →
      s.dev.stepStart + s.dev.g Reg.PLAN_RB_N_BEATS + s.dev.g Reg.BEAT_CFG_VOTE_LIMIT ≤ s.dev.beatNum → exec (.voteTimeout p) s =
        s.ends ({ s.dev.start with step := { s.dev.step with silent := s.dev.step.silent ++ [p.toNat] } }.raise pgPartner 0x0D01 8 Sev.warn
          (k.m.self.toNat + 2 ^ 18))) ∧
    (s.dev.stepOpen = false ∨ s.dev.step.dec ≠ none ∨ s.dev.beatNum < s.dev.stepStart + s.dev.g Reg.PLAN_RB_N_BEATS + s.dev.g Reg.BEAT_CFG_VOTE_LIMIT →
      exec (.voteTimeout p) s = s.ends s.dev.start)) ∧
  (∀ (s : State) (code : Nat) (dirty : Bool) (a : Nat), s.dev.step.dec = some (code, dirty, a) → a ≤ s.dev.beatNum → s.dev.stepOpen = true →
    (code = 1 → exec .stepCommit s = s.endsStore ((s.dev.start.closeAttempt 1 a).commitStep a)) ∧
    (code = 2 → exec .stepReplay s = s.endsStore ((s.dev.start.closeAttempt 2 a).replayStep dirty a)) ∧
    (code = 3 → exec .stepRecover s = s.endsStore ((s.dev.start.closeAttempt 3 a).recoverStep))) ∧
  (∀ s : State,
    let due := fun (code : Nat) => ∃ x : Bool × Nat, s.dev.step.dec = some (code, x) ∧ x.2 ≤ s.dev.beatNum ∧ s.dev.stepOpen = true
    (¬ due 1 → exec .stepCommit s = s.ends s.dev.start) ∧ (¬ due 2 → exec .stepReplay s = s.ends s.dev.start) ∧
    (¬ due 3 → exec .stepRecover s = s.ends s.dev.start)) ∧
  (∀ (d : Dev) (a : Option Nat), (d.afterDecision a).step.dec = none ∧
    (d.afterDecision a).step.next = (if d.g Reg.DRAFT_RUN = 0 then none else a)) ∧
  (∀ (d : Dev) (code a : Nat), (d.closeAttempt code a).g Reg.STEP_REC_STATE_DECISION = code % 4 ∧
    (d.closeAttempt code a).g Reg.STEP_REC_STATE_PHASE = 3 ∧ bit ((d.closeAttempt code a).hd Hdr.EVT_BLOCK pgStepRec) 0 = true)) ∧
  (∀ (s : State),
    (s.dev.stepOpen = false ∨ s.dev.drainHeld = false → ∀ fin, exec (.drainHoldExpiry fin) s = s.ends s.dev.start) ∧
    (s.dev.stepOpen = true → s.dev.drainHeld = true →
      (s.dev.stepStart + s.dev.g Reg.PLAN_RB_N_BEATS + s.dev.g Reg.PARTNER_DRAIN_HOLD ≤ s.dev.beatNum →
        exec (.drainHoldExpiry false) s = s.ends s.dev.start.abandonDrains ∧
        exec (.drainHoldExpiry true) s = s.ends (s.dev.start.abandonDrains.stepVote true)) ∧
      (s.dev.beatNum < s.dev.stepStart + s.dev.g Reg.PLAN_RB_N_BEATS + s.dev.g Reg.PARTNER_DRAIN_HOLD →
        ∀ fin, exec (.drainHoldExpiry fin) s = s.ends s.dev.start)) ∧
    (∀ (red : BitVec 24), s.dev.stepOpen = false ∨ s.dev.forcedMode = false → exec (.forceWaitExceeded red) s = s.ends s.dev.start) ∧
    (∀ (red : BitVec 24) (i : Nat), Dr.redIdx s.dev.plan.draft red.toNat = some i → s.dev.stepOpen = true → s.dev.forcedMode = true →
      s.dev.ownsBlocks i = true → s.dev.forcedMissing i = true →
      (s.dev.deadlineBeat i + s.dev.g Reg.STEP_REC_FORCE_WAIT ≤ s.dev.beatNum → exec (.forceWaitExceeded red) s =
        s.ends ((s.dev.start.raise pgStepRec 0x060C 10 Sev.error red.toNat).voteFail)) ∧
      (s.dev.beatNum < s.dev.deadlineBeat i + s.dev.g Reg.STEP_REC_FORCE_WAIT → exec (.forceWaitExceeded red) s = s.ends s.dev.start)) ∧
    (let b := s.dev.g64 Reg.RESTORE_RESUME_BEAT_LO Reg.RESTORE_RESUME_BEAT_HI
     (s.dev.g Reg.RESTORE_STATE ≠ 3 ∨ s.dev.beatSeen = false ∨ s.dev.beatNum < b ∨ s.dev.stepOpen = true → exec .restoreResume s = s.ends s.dev.start) ∧
     (s.dev.g Reg.RESTORE_STATE = 3 → s.dev.beatSeen = true → b ≤ s.dev.beatNum → s.dev.stepOpen = false →
       let d := match s.dev.recov.restored with
         | some sp => (s.dev.start.p64 Reg.STEP_REC_STEP_LO Reg.STEP_REC_STEP_HI (sp + 1)).p Reg.STEP_REC_ATTEMPT 0
         | none => s.dev.start
       let d : Dev := { d with recov := { d.recov with restored := none }, step := { d.step with next := some b } }
       exec .restoreResume s = s.ends (((d.p Reg.RESTORE_STATE 5).p Reg.DRAFT_STATUS_STATE 4).stepBegin s.mem))))

/-! ## Drafts, plans, numerics and the exchange (R291 to R325, R339, R371 to R379) -/

/-- R291, R302: the draft commands and the end of checking. CMD.LOAD while a draft is checked, placed, run or re-planned, and CMD.ABORT outside
READY and REJECTED, complete with LOCKED and change nothing; an accepted LOAD drops what is held, reads the draft and begins the check, or the placement where only its kernels are left to check (assumption 120); an
accepted ABORT leaves the page EMPTY. A plan found is READY with 0x0701, and a failure, or the limit PLACE_MS, rejects the draft. -/
def Obligations.DraftCommands : Prop :=
  ∀ (s : State) (r : Requester), let st := s.dev.g Reg.DRAFT_STATUS_STATE
    (s.accepts r pgDraft 0x090 true →
      (s.dev.refusesWork pgDraft = false → st ∈ [1, 2, 4, 5] → exec (.draftCmdLoad r) s = s.ends (s.dev.start.done 3)) ∧
      (s.dev.refusesWork pgDraft = false → st ∉ [1, 2, 4, 5] →
        let b := s.dev.start.srcBytes s.mem (s.dev.g Reg.DRAFT_SRC_SPACE) (s.dev.g Reg.DRAFT_SRC_ADDR) (s.dev.g Reg.DRAFT_LEN)
        let p := s.dev.start.srcBytes s.mem (s.dev.g Reg.SCALE_POL_TABLE_SPACE) (s.dev.g Reg.SCALE_POL_TABLE_ADDR) (s.dev.g Reg.SCALE_POL_TABLE_LEN)
        let e := s.dev.start.dropDraft
        let e : Dev := { e with plan := { e.plan with draft := b, policy := p, loadAt := s.dev.now } }
        ∃ t, exec (.draftCmdLoad r) s = .next t ∧ t.mem = s.mem ∧ t.pending = s.pending ∧
        t.dev.out = [.completion 0 0] ∧ t.dev.g Reg.DRAFT_STATUS_STATE = (if e.draftChecks = none then 2 else 1) ∧
        t.dev.g Reg.DRAFT_STATUS_REASON = 0 ∧ t.dev.plan.live = none ∧ t.dev.plan.ready = none ∧ t.dev.plan.draft = b ∧ t.dev.plan.policy = p ∧
        t.dev.plan.loadAt = s.dev.now ∧ t.dev.units = s.dev.units ∧ t.dev.step = s.dev.step) ∧
      (st ≠ 3 → st ≠ 6 → exec (.draftCmdAbort r) s = s.ends (s.dev.start.done 3)) ∧
      (st = 3 ∨ st = 6 → exec (.draftCmdAbort r) s = s.ends ((s.dev.start.dropDraft.p Reg.DRAFT_STATUS_STATE 0).done 0))) ∧
    (st ≠ 1 → st ≠ 2 → exec .placementDone s = s.ends s.dev.start ∧ exec .placeTimeout s = s.ends s.dev.start) ∧
    (st = 1 ∨ st = 2 →
      (let d := if s.dev.start.draftHead = none then s.dev.start.policyStatus else s.dev.start
       match d.checkAndPlace with
       | .reject reason i k => exec .placementDone s = s.ends (d.rejectDraft reason i k)
       | .ok p => ∃ t, exec .placementDone s = .next t ∧ t.mem = s.mem ∧
           t.pending = s.pending ∧ t.dev.g Reg.DRAFT_STATUS_STATE = 3 ∧ t.dev.plan.ready = some p ∧ t.dev.plan.live = s.dev.plan.live ∧
           t.dev.g Reg.SR_SEED_JOB_SEED_LO = fld s.dev.plan.draft 0x10 4 % 2 ^ 32 ∧
           bit (t.dev.hd Hdr.EVT_BLOCK pgDraft) 0 = true) ∧
      exec .placeTimeout s = s.ends ((s.dev.start.passTo (s.dev.plan.loadAt + ms (s.dev.g Reg.DRAFT_LIMIT_PLACE_MS))).rejectDraft 13 0 0)) ∧
    (∀ (d : Dev) (reason i k : Nat), (d.rejectDraft reason i k).g Reg.DRAFT_STATUS_STATE = 6 ∧
      (d.rejectDraft reason i k).g Reg.DRAFT_STATUS_REASON = reason % 2 ^ Reg.DRAFT_STATUS_REASON.width ∧
      (d.rejectDraft reason i k).g Reg.DRAFT_INDEX = i % 2 ^ Reg.DRAFT_INDEX.width ∧
      bit ((d.rejectDraft reason i k).hd Hdr.EVT_BLOCK pgDraft) 1 = true ∧
      (reason = 8 → bit ((d.rejectDraft reason i k).hd Hdr.EVT_BLOCK pgDraft) 2 = true))

/-- R223, R293, R319 to R323, R335: re-plans. A cause that changes fit joins the pending ones and the placement starts again with all of them; one that finishes is ready,
one that fails, or takes longer than REPLAN_MS, is given up with the plan in force kept. At its re-plan point a ready plan takes effect: it is
the plan in force, PLAN_RB describes it, and 0x0704 is raised; before it, or while a descriptor uses a partition that moves, nothing happens. A way
swap harvests the ways that end, and its blocks enter RMOVE at T_S less the swap time. -/
def Obligations.Replans : Prop :=
  ∀ (s : State),
    (∀ c : BitVec 3, (s.dev.plan.draft = [] ∨ s.dev.plan.live = none ∨ (c.toNat = 4 ∧ s.dev.fitChanged = false) → exec (.replanStart c) s = s.ends s.dev.start) ∧
      (s.dev.plan.draft ≠ [] → s.dev.plan.live ≠ none → (c.toNat = 4 → s.dev.fitChanged = true) → ∃ t, exec (.replanStart c) s = .next t ∧ t.mem = s.mem ∧ t.pending = s.pending ∧
        t.dev.plan.causes = (if c.toNat ∈ s.dev.plan.causes then s.dev.plan.causes else s.dev.plan.causes ++ [c.toNat]) ∧
        t.dev.plan.ready = none ∧ t.dev.plan.replanning = true ∧ t.dev.plan.live = s.dev.plan.live ∧
        (s.dev.plan.causes = [] → t.dev.plan.causeAt = s.dev.now) ∧ (s.dev.plan.causes ≠ [] → t.dev.plan.causeAt = s.dev.plan.causeAt) ∧
        (s.dev.g Reg.DRAFT_STATUS_STATE = 3 ∨ s.dev.g Reg.DRAFT_STATUS_STATE = 4 → t.dev.g Reg.DRAFT_STATUS_STATE = 5))) ∧
    (s.dev.plan.replanning = false → exec .replanDone s = s.ends s.dev.start ∧ exec .replanTimeout s = s.ends s.dev.start) ∧
    (s.dev.plan.replanning = true →
      (match s.dev.start.place s.dev.start.nextFaults s.dev.start.replanOp with
        | .ok p => exec .replanDone s =
            if (∀ c ∈ s.dev.plan.causes, c = 4 ∨ c = 5) ∧ s.dev.plan.live.map (·.hash) ≠ some p.hash then s.ends (s.dev.start.replanFails 12)
            else s.ends { s.dev.start.planEvents p with plan := { s.dev.plan with ready := some p, replanning := false } }
        | .reject code _ _ => exec .replanDone s = s.ends (s.dev.start.replanFails code)) ∧
      (∀ code, s.dev.start.replanFails code = if s.dev.plan.causes = [4]
        then s.dev.start.replanStops.raise pgPlanRb 0x070C 11 Sev.warn (s.dev.g Reg.LEASE_LEASE_OP + 16 * s.dev.g Reg.PLAN_RB_FIT_OP)
        else (s.dev.start.replanStops.raise pgDraft 0x070D 14 Sev.error code).voteFail) ∧
      exec .replanTimeout s = s.ends ((((s.dev.start.passTo (s.dev.plan.causeAt + ms (s.dev.g Reg.DRAFT_LIMIT_REPLAN_MS))).replanStops).raise
        pgDraft 0x070D 14 Sev.error 13).voteFail)) ∧
    (∀ n : BitVec 16, (s.dev.plan.ready = none ∨ s.dev.start.replanPoint = false → exec (.planCommit n) s = s.ends s.dev.start) ∧
      (∀ p, s.dev.plan.ready = some p → s.dev.start.partsBusy p = true → exec (.planCommit n) s = s.ends s.dev.start) ∧
      (∀ p, s.dev.plan.ready = some p → s.dev.start.replanPoint = true → s.dev.start.partsBusy p = false → (∀ x ∈ p.faults, x ∈ s.dev.faults) →
        closeFaults s.dev.faults = s.dev.faults →
        let u := s.dev.start.planCommit n.toNat
        exec (.planCommit n) s = s.endsStore (u.planRecord s.dev.start) ∧ u.plan.live = some p ∧ u.plan.ready = none ∧
          u.plan.causes = [] ∧ u.plan.replanning = false ∧ u.faults = s.dev.faults ∧
          u.g Reg.PLAN_RB_TIMING_ID = p.timing % 2 ^ 32 ∧ u.g Reg.PLAN_RB_N_BEATS = Dr.stepBeats s.dev.plan.draft % 2 ^ 16 ∧
          u.g Reg.PLAN_RB_FIT_OP = p.fitOp % 16 ∧ u.g Reg.PLAN_RB_PLAN_OP = p.planOp % 16 ∧ u.g Reg.PLAN_RB_LAST_MS = n.toNat ∧
          u.g Reg.PLAN_RB_TABLE_COUNT = p.entries.length % 2 ^ 32 ∧ bit (u.hd Hdr.EVT_BLOCK pgDraft) 3 = true)) ∧
    (∀ (r : BitVec 12) (swap : BitVec 15) (lines : List (BitVec 18)), s.dev.timerOn = false → s.dev.plan.live = none →
      exec (.waySwapStart r swap lines) s = s.ends s.dev.start) ∧
    (∀ (r : BitVec 12) (swap : BitVec 15) (l : BitVec 18) (p : Plan), s.dev.plan.live = some p → s.dev.timerOn = true →
      s.dev.g Reg.BEAT_CFG_PHASE = s.dev.g Reg.BEAT_CFG_T_S - swap.toNat →
      let us := p.slicedUnitList.filter fun u => regionOf u == r.toNat
      let b := s.dev.beatNum - s.dev.stepStart
      let ending := p.entries.filter fun (e : PlanEntry) => decide (1 < e.ways ∧ e.start + e.span = b ∧ regionOf e.leader = r.toNat)
      let h := if s.dev.stepOpen then ending.foldl (Dev.harvest s.mem) s.dev.start else s.dev.start
      (us = [] → exec (.waySwapStart r swap [l]) s = s.endsStore h) ∧
      (us ≠ [] → (s.dev.eng true r.toNat).queue.length < engCap true → s.dev.stateCode (pgRmove r.toNat) = none →
        let d := (h.wr Reg.RMOVE_OPEN_TAGS r.toNat (setBit (h.rd Reg.RMOVE_OPEN_TAGS r.toNat) 0)).accept true r.toNat
          { addr := larderBase r.toNat + 64 * l.toNat, kicker := none, tag := 0, home := r.toNat, atRegion := true, heldAt := h.now, planned := true }
        exec (.waySwapStart r swap [l]) s =
          s.endsStore (if s.dev.stepOpen then us.foldl (fun (d : Dev) u => d.refillWay p (d.beatNum + 1 - d.stepStart) u) d else d)))

/-- R335, R339, R341, R347, R371, R374, R377: a step's numbers. The evaluation happens once in an attempt, on the observation lines, which it
harvests; one that is lost to an uncorrectable error spoils the step (assumption 128); triggers vote REPLAY, not dirty, and a failure votes FAIL with
0x0805. A contribution that fails its checks is discarded and counted by its kind; one from a sender that has already landed counts as a duplicate; one
that lands in time is recorded with its beat, a late one also with its ledger entry. In beat DEADLINE + 1 the contributions are counted as on time or
late, once. -/
def Obligations.StepNumbers : Prop :=
  ∀ (s : State),
    (∀ o : ObsRead, s.dev.stepOpen = false ∨ s.dev.step.evaluated = true → exec (.numericEvaluation o) s = s.ends s.dev.start) ∧
    (∀ o : ObsRead, s.dev.stepOpen = true → s.dev.step.evaluated = false →
      let ls := s.dev.start.obsLines s.mem
      let os := (managed s.dev.plan.policy).map (observed s.dev.plan.policy ls)
      let h := ((s.dev.plan.live.map (·.entries)).getD []).foldl (Dev.harvest s.mem) s.dev.start
      let place := s.dev.obsPlace o.entry.toNat o.slot.toNat
      let d := match place with | some a => h.larderRead o.ecc a | none => h
      let v := d.evaluation ls os
      (o.ecc = .uncorrectable → place ≠ none → exec (.numericEvaluation o) s = s.endsStore { d with step := { d.step with evaluated := true } }) ∧
      (o.ecc ≠ .uncorrectable ∨ place = none → ∃ t, exec (.numericEvaluation o) s = .next t ∧ t.mem = Mem.apply s.mem h.writes ∧
        t.pending = s.pending ∧ t.dev.step.evaluated = true ∧
        t.dev.plan.obs = os ∧ t.dev.plan.staged = v.staged ∧ t.dev.plan.skips = v.skips ∧ t.dev.plan.scales = s.dev.plan.scales ∧
        t.dev.g Reg.WATCH_STATE_CAUSES = (v.causes + 16 * ofB s.dev.step.dirty) % 2 ^ Reg.WATCH_STATE_CAUSES.width ∧
        (v.fail ≠ none → t.dev.g Reg.STEP_REC_STATE_VOTE = max 3 (s.dev.g Reg.STEP_REC_STATE_VOTE) % 4 ∧
          bit (t.dev.hd Hdr.EVT_BLOCK pgWatch) 4 = true) ∧
        (v.fail = none → v.causes % 16 ≠ 0 → t.dev.g Reg.STEP_REC_STATE_VOTE = max 2 (s.dev.g Reg.STEP_REC_STATE_VOTE) % 4 ∧
          t.dev.step.dirty = s.dev.step.dirty) ∧
        (v.fail = none → v.causes % 16 = 0 → t.dev.g Reg.STEP_REC_STATE_VOTE = s.dev.g Reg.STEP_REC_STATE_VOTE))) ∧
    (∀ (r : BitVec 12) (line : BitVec 18),
      let a := larderBase (regionOf r.toNat) + 64 * line.toNat
      let head := s.mem.bytes a 48
      let len := fld head 0x1C 4
      let sender := fld head 0xC 3 % 2 ^ 18
      let all := s.mem.bytes a (48 + len)
      let stepNo := s.dev.g64 Reg.STEP_REC_STEP_LO Reg.STEP_REC_STEP_HI
      let bad := storeEnd a < a + 48 + len ∨ crc32 (zeroed all 0x2C) ≠ fld head 0x2C 4
      let stale := exec (.contributionLand r line) s = s.ends ((s.dev.start.count Reg.EXCH_CFG_STALE 0).raise pgExchCfg 0x0904 9 Sev.warn sender)
      (bad → exec (.contributionLand r line) s = s.ends (s.dev.start.contribBad sender)) ∧
      (¬ bad → fld head 0x10 8 < stepNo ∨ (fld head 0x10 8 = stepNo ∧ s.dev.stepOpen = false) → exec (.contributionLand r line) s =
        s.ends ((s.dev.start.count Reg.EXCH_CFG_AFTER_DECISION 0).raise pgExchCfg 0x0906 11 Sev.info sender)) ∧
      (¬ bad → stepNo < fld head 0x10 8 → stale) ∧
      (¬ bad → fld head 0x10 8 = stepNo → s.dev.stepOpen = true →
        (fld head 0x18 4 ≠ s.dev.stepStart % 2 ^ 32 ∨ Dr.redIdx s.dev.plan.draft (fld head 4 3) = none → stale) ∧
        (∀ i, fld head 0x18 4 = s.dev.stepStart % 2 ^ 32 → Dr.redIdx s.dev.plan.draft (fld head 4 3) = some i →
          (s.dev.start.groupCoord i sender = none ∨ fld head 8 4 ≠ s.dev.start.ownShard i ∨ s.dev.start.ownsBlocks i = false → stale) ∧
          (∀ g, s.dev.start.groupCoord i sender = some g → fld head 8 4 = s.dev.start.ownShard i → s.dev.start.ownsBlocks i = true →
            let x : Landed := ⟨Dr.rId s.dev.plan.draft i, g, s.dev.beatNum, false⟩
            let dup := s.dev.step.landed.any fun y => y.red == x.red && y.g == x.g
            let d : Dev := { s.dev.start with step := { s.dev.step with landed := s.dev.step.landed ++ [x] } }
            (dup = true → exec (.contributionLand r line) s = s.ends (s.dev.start.count Reg.EXCH_CFG_DUPLICATE 0)) ∧
            (dup = false → s.dev.forcedMode = false → s.dev.beatNum ≤ s.dev.start.deadlineBeat i → exec (.contributionLand r line) s = s.ends d) ∧
            (dup = false → s.dev.forcedMode = false → s.dev.start.deadlineBeat i < s.dev.beatNum → exec (.contributionLand r line) s =
              s.ends ((d.lateEvent (Dr.rId s.dev.plan.draft i)).settle i g sender (if Dr.rDrop s.dev.plan.draft i then 1 else 2)
                (some ((s.dev.beatNum : Int) - s.dev.start.deadlineBeat i)) all)))))) ∧
    (∀ (red : BitVec 24), Dr.redIdx s.dev.plan.draft red.toNat = none ∨ s.dev.stepOpen = false ∨ s.dev.step.classed.contains red.toNat = true →
      exec (.deadlinePass red) s = s.ends s.dev.start) ∧
    (∀ (red : BitVec 24) (i : Nat), Dr.redIdx s.dev.plan.draft red.toNat = some i →
      (s.dev.start.ownsBlocks i = false ∨ s.dev.beatNum ≤ s.dev.start.deadlineBeat i → exec (.deadlinePass red) s = s.ends s.dev.start) ∧
      (s.dev.stepOpen = true → s.dev.start.ownsBlocks i = true → s.dev.step.classed.contains red.toNat = false →
        s.dev.start.deadlineBeat i < s.dev.beatNum → s.dev.forcedMode = false →
        let n := s.dev.start.groupSize i
        let on := ((List.range n).filter (s.dev.start.onTime i)).length
        let d := ({ s.dev.start with step := { s.dev.step with classed := s.dev.step.classed ++ [red.toNat] } } : Dev)
        let d := (d.count Reg.EXCH_CFG_ON_TIME 0 on).count Reg.EXCH_CFG_LATE 0 (n - on)
        exec (.deadlinePass red) s = s.ends (if on < n then d.lateEvent red.toNat else d)))

/-! ## Links (R389 to R408) -/

/-- R389, R390: the states of a port. Signal in DOWN begins training; a passed identity check makes it UP with 0x0A01, a failed one FAILED
with 0x0A05; a training timeout returns it to DOWN, or to FAILED after ATTEMPTS; a failed lane makes an UP port DEGRADED with 0x0A03, and a
failed lane of a DEGRADED port's pair makes it FAILED with 0x0A04; more than ten uncorrectable codewords in a second retrain it, and loss of
signal takes it DOWN, both with 0x0A02; RETRY takes a FAILED port to DOWN. A port that leaves service carries nothing: what it held for its
slots waits for slack windows. -/
def Obligations.LinkPorts : Prop :=
  (∀ (d : Dev) (p : Nat), p < 32 → (d.train p).phy p = 2 ∧ ((d.train p).port p).trainAt = d.now) ∧
  (∀ (d : Dev) (p st why : Nat), p < 32 → st < 8 → (d.portStops p st why).phy p = st ∧
    (d.portStops p st why).rd Reg.LINK_PHY_ACTIVE (linkInst p) = 0 ∧ ((d.portStops p st why).port p).out = [] ∧
    ((d.portStops p st why).port p).late = (d.port p).late ++ (d.port p).out.map (·.sh)) ∧
  (∀ (s : State) (q : BitVec 5), let p := q.toNat
    let i := linkInst p
    let d := s.dev.start
    (exec (.linkSignalDetect q) s = s.ends (if d.phy p = 1 ∧ d.hd Hdr.CTL_EN (pgLinkPhy p) = 1 then d.train p else d)) ∧
    (∀ (a : BitVec 18) (f : BitVec 6),
      (d.phy p ≠ 2 → exec (.trainComplete q a f) s = s.ends d) ∧
      (d.phy p = 2 → ∃ t, exec (.trainComplete q a f) s = .next t ∧ t.mem = s.mem ∧ t.pending = s.pending ∧
        t.dev.rd Reg.LINK_PHY_FAR_ADDR i = a.toNat ∧ t.dev.rd Reg.LINK_PHY_FAR_PORT i = f.toNat % 2 ^ Reg.LINK_PHY_FAR_PORT.width ∧
        (d.identityOk p a.toNat f.toNat = true → t.dev.phy p = 3 ∧ t.dev.rd Reg.LINK_PHY_LANES_OK i = 15 ∧
          t.dev.rd Reg.LINK_PHY_ACTIVE i = 15 ∧ bit (t.dev.hd Hdr.EVT_BLOCK (pgLinkPhy p)) 0 = true) ∧
        (d.identityOk p a.toNat f.toNat = false → t.dev.phy p = 5 ∧ t.dev.rd Reg.LINK_PHY_REASON i = 3 ∧
          bit (t.dev.hd Hdr.EVT_BLOCK (pgLinkPhy p)) 4 = true))) ∧
    (d.phy p ≠ 2 → exec (.trainTimeout q) s = s.ends d) ∧
    (d.phy p = 2 →
      let e := d.passTo ((d.port p).trainAt + ms (d.rd Reg.LINK_PHY_TRAIN_LIMIT_MS i))
      let f := e.setPort p { d.port p with timeouts := (d.port p).timeouts + 1 }
      ((d.port p).timeouts + 1 < e.rd Reg.LINK_PHY_ATTEMPTS i → exec (.trainTimeout q) s = s.ends (f.portStops p 1 2)) ∧
      (e.rd Reg.LINK_PHY_ATTEMPTS i ≤ (d.port p).timeouts + 1 → exec (.trainTimeout q) s =
        s.ends ((f.setPort p { d.port p with timeouts := 0 }).portStops p 5 2))) ∧
    (∀ lane : BitVec 2, let ok := clrBit (d.rd Reg.LINK_PHY_LANES_OK i) lane.toNat
      (d.phy p = 3 → exec (.laneDegraded q lane) s =
        s.ends ((((d.portStops p 4 4).wr Reg.LINK_PHY_LANES_OK i ok).wr Reg.LINK_PHY_ACTIVE i (if lane.toNat < 2 then 12 else 3)).raise
          (pgLinkPhy p) 0x0A03 10 Sev.warn ok)) ∧
      (d.phy p = 4 → bit (d.rd Reg.LINK_PHY_ACTIVE i) lane.toNat = true → exec (.laneDegraded q lane) s =
        s.ends (((d.wr Reg.LINK_PHY_LANES_OK i ok).portStops p 5 4).raise (pgLinkPhy p) 0x0A04 11 Sev.error 4)) ∧
      (d.phy p ≠ 3 → d.phy p ≠ 4 → exec (.laneDegraded q lane) s = s.ends d)) ∧
    (∀ c n : BitVec 32, let e := (d.count Reg.LINK_PHY_CORR_SYMBOLS i c.toNat).count Reg.LINK_PHY_UNCORR_CW i n.toNat
      (d.phy p ≠ 3 → d.phy p ≠ 4 → exec (.uncorrCwLimit q c n) s = s.ends d) ∧
      (d.phy p = 3 ∨ d.phy p = 4 → n.toNat ≤ 10 → exec (.uncorrCwLimit q c n) s = s.ends e) ∧
      (d.phy p = 3 ∨ d.phy p = 4 → 10 < n.toNat → exec (.uncorrCwLimit q c n) s =
        s.ends ((((e.portStops p 2 5).train p).bump Reg.LINK_PHY_RETRAINS i).raise (pgLinkPhy p) 0x0A02 9 Sev.warn 5))) ∧
    (exec (.linkDown q) s = s.ends (if d.phy p = 0 then d else
      ((d.portStops p 1 1).wr Reg.LINK_PHY_LANES_OK i 0).raise (pgLinkPhy p) 0x0A02 9 Sev.warn 1)) ∧
    (∀ r, s.accepts r (pgLinkPhy p) 0x088 true → d.refusesWork (pgLinkPhy p) = false → exec (.linkPhyRetry r q) s =
      s.ends ((if d.phy p = 5 then d.wr Reg.LINK_PHY_STATE i 1 else d).done 0)))

/-- R260, R389, R398, R401 to R405: route tables and scheduled shuttles. LOAD reads a table and checks it: one that passes is READY with 0x0A0B, one
that fails FAILED with the reason of R398 and 0x0A0C. A READY table is live from the boundary of APPLY_BEAT on, with 0x0A0D. A fetched shuttle
waits whole in its port for its slot, or, past it, for a slack window; its slot sends it on the port that carries its position, or counts as empty; under no
lock, or with no port, the shuttle misses its slot. A received shuttle that matches a LAND entry is
written to the bound area and counted; one for a THROUGH entry waits for its slot; one that fails its CRC, is stale or matches nothing is
discarded and counted. -/
def Obligations.ScheduledShuttles : Prop :=
  ∀ (s : State), let d := s.dev.start
    let t := d.route.live
    (∀ r, s.accepts r pgLinkRoute 0x08C true → d.refusesWork pgLinkRoute = false →
      let b := d.srcBytes s.mem (d.g Reg.LINK_ROUTE_TABLE_SPACE) (d.g Reg.LINK_ROUTE_TABLE_ADDR) (d.g Reg.LINK_ROUTE_TABLE_LEN)
      (d.g Reg.LINK_ROUTE_STATUS_STATE = 1 → exec (.linkRouteCmdLoad r) s = s.ends (d.done 3)) ∧
      (d.g Reg.LINK_ROUTE_STATUS_STATE ≠ 1 → d.routeCheck b = none → ∃ u, exec (.linkRouteCmdLoad r) s = .next u ∧ u.mem = s.mem ∧
        u.pending = s.pending ∧ u.dev.route.ready = b ∧ u.dev.route.live = t ∧ u.dev.g Reg.LINK_ROUTE_STATUS_STATE = 2 ∧
        bit (u.dev.hd Hdr.EVT_BLOCK pgLinkRoute) 0 = true) ∧
      (∀ c i, d.g Reg.LINK_ROUTE_STATUS_STATE ≠ 1 → d.routeCheck b = some (c, i) → ∃ u, exec (.linkRouteCmdLoad r) s = .next u ∧
        u.mem = s.mem ∧ u.pending = s.pending ∧ u.dev.route.ready = [] ∧ u.dev.route.live = t ∧ u.dev.g Reg.LINK_ROUTE_STATUS_STATE = 3 ∧
        u.dev.g Reg.LINK_ROUTE_STATUS_REASON = c % 2 ^ Reg.LINK_ROUTE_STATUS_REASON.width ∧ bit (u.dev.hd Hdr.EVT_BLOCK pgLinkRoute) 1 = true)) ∧
    (let due := d.route.pend = true ∧ d.beatSeen = true ∧ d.g64 Reg.LINK_ROUTE_APPLY_BEAT_LO Reg.LINK_ROUTE_APPLY_BEAT_HI ≤ d.beatNum;
      (¬ due → exec .routeApplied s = s.ends d) ∧
      (due → ∃ u, exec .routeApplied s = .next u ∧ u.mem = s.mem ∧ u.pending = s.pending ∧ u.dev.route.live = d.route.ready ∧
        u.dev.route.ready = [] ∧ u.dev.route.pend = false ∧ u.dev.g Reg.LINK_ROUTE_LIVE = 1 ∧ u.dev.g Reg.LINK_ROUTE_STATUS_STATE = 0 ∧
        u.dev.g Reg.LINK_ROUTE_TOPO = Rt.topo d.route.ready % 2 ^ Reg.LINK_ROUTE_TOPO.width ∧
        bit (u.dev.hd Hdr.EVT_BLOCK pgLinkRoute) 2 = true)) ∧
    (∀ (n : BitVec 32) (area : BitVec 48), let e := Rt.slot t n.toNat
      (Rt.flowIdx t (Rt.eFlow e) = none → exec (.shuttleFetch n area) s = s.ends d) ∧
      (∀ f, Rt.flowIdx t (Rt.eFlow e) = some f →
        let p := (d.carrier (Rt.bundle e) (Rt.pos e)).getD (4 * Rt.bundle e + Rt.pos e)
        let len := if Rt.fVar t f then min (48 + s.mem.nat (area.toNat + 0x1C) 4) (Rt.fBytes t f) else Rt.fBytes t f
        let fetches := d.routeLive = true ∧ n.toNat < Rt.nEntries t ∧ Rt.role e = 0 ∧ d.stepOpen = true ∧ Rt.shuttle e < (len + 4095) / 4096 ∧
          (d.port p).out.length < 8 ∧ (d.route.sent.any fun x => x.flow.toNat == Rt.eFlow e && x.shuttle.toNat == Rt.shuttle e) = false ∧
          ((d.port p).out.any fun y => y.entry == n.toNat) = false
        let sh := mkShuttle 0 (Rt.fDst t f) d.selfAddr (Rt.eFlow e) (Rt.shuttle e) ((len + 4095) / 4096 - 1) d.stepNo d.stepStart
          (s.mem.bytes (area.toNat + 4096 * Rt.shuttle e) (min 4096 (len - 4096 * Rt.shuttle e)))
        (¬ fetches → exec (.shuttleFetch n area) s = s.ends d) ∧
        (fetches → exec (.shuttleFetch n area) s = s.ends (if d.slotPast (Rt.pbeat e) (Rt.outSlot e) then d.missed p sh
          else d.setPort p { d.port p with out := (d.port p).out ++ [⟨n.toNat, p, sh⟩] })))) ∧
    (∀ (n : BitVec 32), let e := Rt.slot t n.toNat
      let due := d.routeLive = true ∧ n.toNat < Rt.nEntries t ∧ Rt.role e < 2 ∧ d.stepOpen = true ∧ d.beatNum = d.stepStart + Rt.pbeat e
      let f := d.passTo (d.boundary + d.g Reg.BEAT_CFG_T_X + Rt.outSlot e / 2)
      let c := f.carrier (Rt.bundle e) (Rt.pos e)
      let own := 4 * Rt.bundle e + Rt.pos e
      let held := (List.range 32).findSome? fun p =>
        ((if Rt.role e = 0 then (f.port p).out else (f.port p).through).find? fun y => y.entry == n.toNat).map fun y => (p, y)
      (¬ due → exec (.slotSend n) s = s.ends d) ∧
      (due → held = none → exec (.slotSend n) s =
        s.ends (if Rt.role e = 0 ∧ f.beyondTotal e then f else f.count Reg.LINK_SLOT_EMPTY (linkInst (c.getD own)))) ∧
      (∀ p y, due → held = some (p, y) →
        let g := f.setPort p { f.port p with out := (f.port p).out.filter (fun z => z.entry != n.toNat || Rt.role e != 0),
                                             through := (f.port p).through.filter (fun z => z.entry != n.toNat || Rt.role e != 1) }
        (c = none → exec (.slotSend n) s = s.ends ((g.count Reg.LINK_SLOT_EMPTY (linkInst own)).missed p y.sh)) ∧
        (∀ q, c = some q →
          let free := g.portSched q = true ∧ (g.lockState = 2 ∨ g.lockState = 3)
          let k := g.count Reg.LINK_SLOT_SENT (linkInst q)
          (¬ free → exec (.slotSend n) s = s.ends ((g.count Reg.LINK_SLOT_EMPTY (linkInst q)).missed p y.sh)) ∧
          (free → Rt.role e = 0 → exec (.slotSend n) s = s.ends (({ k with route := { k.route with sent := k.route.sent ++ [y.sh] } } : Dev).send
            (.shuttle q (shSealed y.sh)))) ∧
          (free → Rt.role e = 1 → exec (.slotSend n) s = s.ends ((k.count Reg.LINK_ROUTE_THROUGH (linkInst y.port)).send
            (.shuttle q (shSealed { y.sh with hops := y.sh.hops + 1 }))))))) ∧
    (∀ (q : BitVec 5) (sh : Shuttle) (area : BitVec 48), let p := q.toNat
      (sh.kind.toNat ≠ 0 ∨ d.portTakes p = false → exec (.schedShuttle q sh area) s = s.ends d) ∧
      (sh.kind.toNat = 0 → d.portTakes p = true →
        (crc32 (shCovered sh) ≠ sh.crc.toNat → exec (.schedShuttle q sh area) s =
          s.ends ((d.bump Reg.LINK_ERR_SHUTTLE_CRC (linkInst p)).raise (pgLinkErr p) 0x0A08 8 Sev.warn (16 * sh.flow.toNat))) ∧
        (crc32 (shCovered sh) = sh.crc.toNat →
          (d.stepOpen = false ∨ sh.step.toNat ≠ d.stepNo % 2 ^ 32 ∨ sh.start.toNat ≠ d.stepStart % 2 ^ 32 ∨
            d.matchEntry sh (some (p / 4)) = none ∨ Rt.flowIdx t sh.flow.toNat = none → exec (.schedShuttle q sh area) s = s.ends (d.linkStale p)) ∧
          (∀ e i f, d.stepOpen = true → sh.step.toNat = d.stepNo % 2 ^ 32 → sh.start.toNat = d.stepStart % 2 ^ 32 →
            d.matchEntry sh (some (p / 4)) = some (e, i) → Rt.flowIdx t sh.flow.toNat = some f →
            (Rt.role e = 2 → exec (.schedShuttle q sh area) s = s.endsStore (d.land p f (d.boundArea sh.flow.toNat area.toNat) sh)) ∧
            (Rt.role e ≠ 2 → exec (.schedShuttle q sh area) s = s.ends (if d.slotPast (Rt.pbeat e) (Rt.outSlot e) then d.missed p sh
              else d.setPort p { d.port p with through := (d.port p).through ++ [⟨i, p, sh⟩] })))))) ∧
    (∀ (p f area : Nat) (sh : Shuttle), Rt.fAttic t f = 0xFFFFFFFF →
      (d.land p f area sh).writes = [.write (area + 4096 * sh.shuttle.toNat) sh.payload] ∧
      (sh.flow.toNat, sh.shuttle.toNat, sh.total.toNat) ∈ (d.land p f area sh).route.landed ∧
      (d.land p f area sh).rd Reg.LINK_ROUTE_LANDED (linkInst p) =
        (d.rd Reg.LINK_ROUTE_LANDED (linkInst p) + 1) % 2 ^ Reg.LINK_ROUTE_LANDED.width)

/-- R253, R256, R257, R393, R406 to R408: slack shuttles. A port's oldest late shuttle goes in the slack window as kind LATE, against a credit, within its
share, and what has lower priority follows. A received slack shuttle for another package joins the buffers of its class and is forwarded in its turn, or
is discarded when they are full; one of a reserved kind is stale; one that has waited SLACK_TTL beats is discarded. A late shuttle for this package
lands; a RESEND_REQ is answered with the shuttle, or with a NAK, and a NAK ends the request for this window. A kind that is not its own, or a port that
takes nothing, is nothing. -/
def Obligations.SlackShuttles : Prop :=
  ∀ (s : State) (q : BitVec 5) (sh : Shuttle) (cr : BitVec 32), let p := q.toNat
    let d := s.dev.start
    let good := d.portTakes p = true ∧ crc32 (shCovered sh) = sh.crc.toNat
    let now' := sh.step.toNat = d.stepNo % 2 ^ 32 ∧ sh.start.toNat = d.stepStart % 2 ^ 32 ∧ d.stepOpen = true
    ((d.port p).late = [] → exec (.lateSend q cr) s = s.ends d) ∧
    (∀ x xs, (d.port p).late = x :: xs →
      let d1 := d.setPort p { d.port p with late := xs }
      (d.hop none cr.toNat { x with kind := 1 } = .wait → exec (.lateSend q cr) s = s.ends d) ∧
      (d.hop none cr.toNat { x with kind := 1 } = .drop → exec (.lateSend q cr) s = s.ends (d1.slackDiscard p { x with kind := 1 })) ∧
      (∀ r y, d.hop none cr.toNat { x with kind := 1 } = .send r y →
        let own := x.src.toNat = d.selfAddr ∧ (d1.route.sent.any fun z => z.flow == x.flow && z.shuttle == x.shuttle) = false
        let d2 : Dev := if own then { d1 with route := { d1.route with sent := d1.route.sent ++ [x] } } else d1
        let d3 := (d2.count Reg.LINK_SLOT_LATE_SENT (linkInst r)).slackEmit r y
        let d4 := if d3.beat.lateSent then d3
          else ({ d3 with beat := { d3.beat with lateSent := true } } : Dev).raise pgBeatCfg 0x0608 9 Sev.info (d3.g Reg.BEAT_CFG_LATE_BEATS)
        (d.slackGo r y = false → exec (.lateSend q cr) s = s.ends d) ∧
        (d.slackGo r y = true → exec (.lateSend q cr) s = s.ends (d4.drainAll cr.toNat)))) ∧
    (sh.kind.toNat < 2 ∨ (sh.dst.toNat = d.selfAddr ∧ sh.kind.toNat < 7) ∨ d.portTakes p = false →
      exec (.slackShuttleForward q sh cr) s = s.ends d) ∧
    (7 ≤ sh.kind.toNat → good → exec (.slackShuttleForward q sh cr) s = s.ends (d.linkStale p)) ∧
    (2 ≤ sh.kind.toNat → sh.kind.toNat < 7 → sh.dst.toNat ≠ d.selfAddr → good →
      (16 ≤ ((d.port p).slack.filter fun y => y.sh.cls == sh.cls).length → exec (.slackShuttleForward q sh cr) s = s.ends (d.slackDiscard p sh)) ∧
      (((d.port p).slack.filter fun y => y.sh.cls == sh.cls).length < 16 → exec (.slackShuttleForward q sh cr) s =
        s.ends ((d.setPort p { d.port p with slack := (d.port p).slack ++ [⟨sh, d.beatNum⟩] }).drainAll cr.toNat))) ∧
    (let old := fun (x : SlackSh) => decide (x.since + d.g Reg.LINK_ROUTE_SLACK_TTL ≤ d.beatNum);
      exec (.slackTtlExpiry q) s = s.ends (((d.port p).slack.filter old).foldl (fun d y => d.slackDiscard p y.sh)
        (d.setPort p { d.port p with slack := (d.port p).slack.filter fun y => ! old y }))) ∧
    (∀ area : BitVec 48, (sh.kind.toNat ≠ 1 ∨ d.portTakes p = false → exec (.lateShuttle q sh area cr) s = s.ends d) ∧
      (sh.kind.toNat = 1 → good → ¬ now' → exec (.lateShuttle q sh area cr) s = s.ends (d.linkStale p)) ∧
      (sh.kind.toNat = 1 → good → now' → sh.dst.toNat ≠ d.selfAddr → exec (.lateShuttle q sh area cr) s = s.endsStore (d.slackForward p sh cr.toNat)) ∧
      (∀ e f, sh.kind.toNat = 1 → good → now' → sh.dst.toNat = d.selfAddr → d.matchEntry sh none = some e →
        Rt.flowIdx d.route.live sh.flow.toNat = some f →
        exec (.lateShuttle q sh area cr) s = s.endsStore (d.land p f (d.boundArea sh.flow.toNat area.toNat) sh))) ∧
    (sh.kind.toNat ≠ 2 ∨ d.portTakes p = false → exec (.resendReqRecv q sh cr) s = s.ends d) ∧
    (sh.kind.toNat = 2 → good → sh.dst.toNat ≠ d.selfAddr → exec (.resendReqRecv q sh cr) s = s.ends (d.slackForward p sh cr.toNat)) ∧
    (sh.kind.toNat = 2 → good → sh.dst.toNat = d.selfAddr →
      let named := fun (x : Shuttle) => x.flow.toNat == fld sh.payload 0 3 && x.shuttle.toNat == fld sh.payload 4 2
      (∀ x, d.route.sent.find? named = some x → exec (.resendReqRecv q sh cr) s = s.ends (d.missed p x)) ∧
      (d.route.sent.find? named = none → exec (.resendReqRecv q sh cr) s = s.ends (d.slackOwn (mkShuttle 3 sh.src.toNat d.selfAddr
        (fld sh.payload 0 3) (fld sh.payload 4 2) 0 d.stepNo d.stepStart sh.payload)))) ∧
    (sh.kind.toNat ≠ 3 ∨ d.portTakes p = false → exec (.resendNakRecv q sh cr) s = s.ends d) ∧
    (sh.kind.toNat = 3 → good → sh.dst.toNat ≠ d.selfAddr → exec (.resendNakRecv q sh cr) s = s.ends (d.slackForward p sh cr.toNat)) ∧
    (sh.kind.toNat = 3 → good → sh.dst.toNat = d.selfAddr →
      let told := fun (a : Asked) => if a.flow = fld sh.payload 0 3 ∧ a.shuttle = fld sh.payload 4 2 ∧ ! a.nak then
        { a with count := a.count - 1, nak := true } else a
      exec (.resendNakRecv q sh cr) s = s.ends { d with route := { d.route with asked := d.route.asked.map told } })

/-! ## Host ports, sessions and channels (R412 to R449) -/

/-- R61, R63, R412 to R416: host ports. A port that is not up, or takes no work, takes no frame. A frame that fails a check is counted by its kind and
goes no further; a protected frame that passes moves the packet number on. MKA begins where a key is provisioned, installs a SAK, and drops a lost
peer. ARP, neighbour solicitations and echo requests (up to 1,024 bytes, 64 in a second) are answered on a port that carries frames. Link up
raises 0x0B01 and begins duplicate address detection, whose end puts the address in use; link down raises 0x0B02 and takes the addresses and the
association away. R417, R418, R447: wall time. An announce on the active control port sets GM_ID and begins ACQUIRE; exchanges on other ports do
nothing; five that stay within 1 ms of their median lock the time, with a step (assumption 30 says why of their median); three beyond 1 ms in a
row step it; others slew it by at most 100 ppm of the time since the last. When no port hears a master any more, the time is in HOLDOVER with
0x0B0B, or UNSET where it has tracked none since reset. -/
def Obligations.HostPortsAndTime : Prop :=
  (∀ (s : State) (q : BitVec 3), let p := q.toNat
    let i := hostInst p
    let d := s.dev.start
    (∀ f : EthFrame, (d.hostTakes p = false → exec (.ethernetFrameReceive q f) s = s.ends d) ∧
      (d.hostTakes p = true →
        (f.room = false → exec (.ethernetFrameReceive q f) s = s.ends (d.bump Reg.HOST_MAC_RX_DROP i)) ∧
        (f.room = true → f.fcsOk = false → exec (.ethernetFrameReceive q f) s = s.ends (d.bump Reg.HOST_MAC_FCS_ERR i)) ∧
        (f.room = true → f.fcsOk = true → 9216 < f.len.toNat → exec (.ethernetFrameReceive q f) s = s.ends (d.bump Reg.HOST_MAC_OVERSIZE i)) ∧
        (f.room = true → f.fcsOk = true → f.len.toNat ≤ 9216 →
          (f.tagged = true → exec (.ethernetFrameReceive q f) s = s.ends (d.bump Reg.HOST_MAC_OTHER i)) ∧
          (f.tagged = false → f.pause = true → exec (.ethernetFrameReceive q f) s = s.ends (d.bump Reg.HOST_MAC_PAUSE_RX i)) ∧
          (f.tagged = false → f.pause = false → f.eapol = true → exec (.ethernetFrameReceive q f) s = s.ends (d.count Reg.HOST_MAC_RX_FRAMES i))) ∧
        (f.room = true → f.fcsOk = true → f.len.toNat ≤ 9216 → f.tagged = false → f.pause = false → f.eapol = false →
          let late := (d.hp p).rxPn < f.pn.toNat + d.rd Reg.HOST_SEC_REPLAY_WINDOW i
          let e := d.setHp p { d.hp p with rxPn := max (d.hp p).rxPn f.pn.toNat }
          let served := f.served = true ∧ f.headerOk = true
          (f.isSecured = true → f.icvOk = false → exec (.ethernetFrameReceive q f) s = s.ends (d.bump Reg.HOST_SEC_ICV_FAIL i)) ∧
          ((f.isSecured = true ∧ f.icvOk = true ∧ d.secured p = false) ∨ (f.isSecured = false ∧ (d.secRequired p = true ∨ (d.hp p).lost = true)) →
            exec (.ethernetFrameReceive q f) s = s.ends (d.bump Reg.HOST_SEC_UNPROTECTED_DROP i)) ∧
          (f.isSecured = true → f.icvOk = true → d.secured p = true →
            (¬ late → exec (.ethernetFrameReceive q f) s = s.ends (d.bump Reg.HOST_SEC_REPLAY_DROP i)) ∧
            (late → served → exec (.ethernetFrameReceive q f) s = s.ends (e.count Reg.HOST_MAC_RX_FRAMES i)) ∧
            (late → ¬ served → exec (.ethernetFrameReceive q f) s = s.ends (e.bump Reg.HOST_MAC_OTHER i))) ∧
          (f.isSecured = false → d.secRequired p = false → (d.hp p).lost = false →
            (served → exec (.ethernetFrameReceive q f) s = s.ends (d.count Reg.HOST_MAC_RX_FRAMES i)) ∧
            (¬ served → exec (.ethernetFrameReceive q f) s = s.ends (d.bump Reg.HOST_MAC_OTHER i)))))) ∧
    (∀ f, d.hostTakes p = false ∨ d.sec.cak = none ∨ f.icvOk = false → exec (.mkaFrame q f) s = s.ends d) ∧
    (∀ (an : BitVec 2), d.hostTakes p = true → d.sec.cak.isSome = true →
      ∃ t, exec (.mkaFrame q ⟨true, true, some an⟩) s = .next t ∧ t.mem = s.mem ∧ t.pending = s.pending ∧ t.dev.out = [.mkaReply p] ∧
        t.dev.secured p = true ∧ t.dev.rd Reg.HOST_SEC_TX_AN i = an.toNat ∧ t.dev.rd Reg.HOST_SEC_RX_AN i = an.toNat ∧
        t.dev.rd Reg.HOST_SEC_TX_PN_LO i = 0 ∧ t.dev.rd Reg.HOST_SEC_TX_PN_HI i = 0 ∧ (t.dev.hp p).rxPn = 0) ∧
    (exec (.mkaPeerLost q) s = s.ends (if d.rd Reg.HOST_SEC_MKA_STATE i < 2 then d else
      ((d.setHp p { d.hp p with lost := true }).wr Reg.HOST_SEC_MKA_STATE i 1).ptpSelect.raise (pgHostSec p) 0x0B04 9 Sev.warn 0)) ∧
    (∀ ip : BitVec 32, (d.carries p = false ∨ ip.toNat ≠ d.ipv4 p → exec (.arpRequest q ip) s = s.ends d) ∧
      (d.carries p = true → ip.toNat = d.ipv4 p → ip ≠ 0 → exec (.arpRequest q ip) s = s.ends ((d.txFrame p).send (.arpReply p)))) ∧
    (∀ (ip : BitVec 128) (adv : Bool), ip.toNat = d.linkLocal p →
      (d.carries p = false → exec (.neighborSolicitation q ip adv) s = s.ends d) ∧
      (d.carries p = true → (d.hp p).dad.contains 0 = true → exec (.neighborSolicitation q ip adv) s = s.ends (d.dadFail p 0)) ∧
      (d.carries p = true → (d.hp p).dad.contains 0 = false → bit (d.addrState p) 0 = true → exec (.neighborSolicitation q ip false) s =
        s.ends ((d.txFrame p).send (.neighborAdvert p true)))) ∧
    (∀ (v6 : Bool) (b : List Byte), let recent := (d.hp p).echoes.filter fun t => decide (d.now < t + ms 1000)
      (d.carries p = false ∨ 1024 < b.length ∨ 64 ≤ recent.length → exec (.echoRequest q v6 b) s = s.ends d) ∧
      (d.carries p = true → b.length ≤ 1024 → recent.length < 64 → exec (.echoRequest q v6 b) s =
        s.ends (((d.setHp p { d.hp p with echoes := d.now :: recent }).txFrame p).send (.echoReply p v6 b)))) ∧
    (d.rd Reg.HOST_MAC_STATE i = 0 ∨ d.rd Reg.HOST_MAC_STATE i = 3 → exec (.hostLinkUp q) s = s.ends d) ∧
    (d.rd Reg.HOST_MAC_STATE i ≠ 0 → d.rd Reg.HOST_MAC_STATE i ≠ 3 → ∃ t, exec (.hostLinkUp q) s = .next t ∧ t.mem = s.mem ∧
      t.pending = s.pending ∧ t.dev.hostUp p = true ∧ (t.dev.hp p).dad.contains 0 = true ∧ bit (t.dev.addrState p) 0 = false ∧
      (d.sec.cak.isSome = true → t.dev.rd Reg.HOST_SEC_MKA_STATE i = 1) ∧ bit (t.dev.hd Hdr.EVT_BLOCK (pgHostMac p)) 0 = true) ∧
    (d.rd Reg.HOST_MAC_STATE i < 2 → exec (.hostLinkDown q) s = s.ends d) ∧
    (2 ≤ d.rd Reg.HOST_MAC_STATE i → ∃ t, exec (.hostLinkDown q) s = .next t ∧ t.mem = s.mem ∧ t.pending = s.pending ∧
      t.dev.rd Reg.HOST_MAC_STATE i = 1 ∧ t.dev.rd Reg.HOST_SEC_MKA_STATE i = 0 ∧ t.dev.addrState p = 0 ∧ (t.dev.hp p).dad = [] ∧
      bit (t.dev.hd Hdr.EVT_BLOCK (pgHostMac p)) 1 = true) ∧
    (∀ link : Bool, let k := if link then 0 else 1
      ((d.hp p).dad.contains k = false → exec (.duplicateAddressDetectionEnd q link) s = s.ends d) ∧
      ((d.hp p).dad.contains k = true → exec (.duplicateAddressDetectionEnd q link) s =
        s.ends ((d.setHp p { d.hp p with dad := (d.hp p).dad.filter (· ≠ k) }).setAddrState p (setBit (d.addrState p) k))))) ∧
  (∀ (s : State) (q : BitVec 3), let p := q.toNat
    let d := s.dev.start
    (∀ a : Announce, (isControl p = false ∨ d.hostTakes p = false ∨ d.secured p = false ∨ a.domain.toNat ≠ d.rd Reg.HOST_PTP_DOMAIN (hostInst p) ∨
        255 ≤ a.stepsRemoved.toNat → exec (.ptpAnnounce q a) s = s.ends d) ∧
      (isControl p = true → d.hostTakes p = true → d.secured p = true → a.domain.toNat = d.rd Reg.HOST_PTP_DOMAIN (hostInst p) →
        a.stepsRemoved.toNat < 255 → (d.hp p).master = none → ∃ t, exec (.ptpAnnounce q a) s = .next t ∧ t.mem = s.mem ∧
          t.pending = s.pending ∧ (t.dev.hp p).master = some a ∧ t.dev.ptpActive ≠ none)) ∧
    (∀ off : BitVec 64, let o := off.toInt
      (d.ptpActive ≠ some p → exec (.ptpExchange q off) s = s.ends d) ∧
      (d.ptpActive = some p →
        (d.wallState = 1 → offsetSteady ((o :: d.host.offsets).take 5) = true → ∃ t, exec (.ptpExchange q off) s = .next t ∧ t.mem = s.mem ∧
          t.pending = s.pending ∧ t.dev.wallState = 2 ∧ t.dev.host.wallBase = d.host.wallBase - o ∧
          bit (t.dev.hd Hdr.EVT_BLOCK (pgPtp p)) 0 = true ∧ (0 < o → bit t.dev.sec.acc.flags 2 = true)) ∧
        (d.wallState = 2 → 1000000 < o.natAbs → 2 ≤ d.host.beyond → ∃ t, exec (.ptpExchange q off) s = .next t ∧ t.mem = s.mem ∧
          t.pending = s.pending ∧ t.dev.host.wallBase = d.host.wallBase - o ∧ t.dev.host.beyond = 0 ∧
          bit (t.dev.hd Hdr.EVT_BLOCK (pgPtp p)) 2 = true) ∧
        (d.wallState = 2 → o.natAbs ≤ 1000000 → ∃ t, exec (.ptpExchange q off) s = .next t ∧ t.mem = s.mem ∧ t.pending = s.pending ∧
          t.dev.wallState = 2 ∧ t.dev.host.lastSync = d.now ∧
          (t.dev.host.wallBase - d.host.wallBase).natAbs ≤ (d.now - d.host.lastSync) * 100 / 10000))) ∧
    (let e := (d.setHp p { d.hp p with master := none }).ptpSelect
     (e.ptpActive ≠ none ∨ (e.wallState ≠ 1 ∧ e.wallState ≠ 2) → exec (.ptpTimeout q) s = s.ends e) ∧
     (e.ptpActive = none → e.wallState = 1 ∨ e.wallState = 2 →
       (e.rd Reg.HOST_PTP_STEPS (hostInst 4) = 0 → exec (.ptpTimeout q) s = s.ends (e.ptpAll Reg.HOST_PTP_WALL_STATE 0)) ∧
       (e.rd Reg.HOST_PTP_STEPS (hostInst 4) ≠ 0 → exec (.ptpTimeout q) s =
         s.ends ((({ e with host := { e.host with holdAt := e.now } } : Dev).ptpAll Reg.HOST_PTP_WALL_STATE 3).raise (pgPtp p) 0x0B0B 9 Sev.warn 0)))))

/-- R420, R423 to R427, R446: sessions. An OPEN is refused by version, level or number of sessions, and otherwise granted; a segment that is not
sound is counted and dropped; one for no session of its port is answered with REFUSE 4; an expected DATA segment is delivered and a repeated one
counted and acknowledged. The timers acknowledge, send the oldest segment again, doubling the timeout up to 100 ms, and end the session after
RETRY_LIMIT tries or DEAD_MS of silence. A reset frame that fails a check is counted, and one that passes is answered and due 100 µs later. -/
def Obligations.Sessions : Prop :=
  ∀ (s : State) (q : BitVec 3) (peer : Endpoint) (g : Segment), let p := q.toNat
    let d := s.dev.start
    (d.carries p = false → exec (.hostOpen q peer g) s = s.ends d ∧ exec (.hostData q peer g) s = s.ends d ∧
      exec (.hostAck q peer g) s = s.ends d ∧ exec (.hostClose q peer g) s = s.ends d ∧ exec (.resetFrame q peer g) s = s.ends d) ∧
    (d.carries p = true →
      (segSound 1 g = false → exec (.hostOpen q peer g) s = s.ends (d.badSegment p)) ∧
      (segSound 1 g = true → g.payload.length = 16 → leNat (g.payload.drop 8) = 0 →
        (g.ver.toNat ≠ 1 → exec (.hostOpen q peer g) s = s.ends (d.refuse p peer 0 2)) ∧
        (g.ver.toNat = 1 → isControl p = false → d.level < 2 → exec (.hostOpen q peer g) s = s.ends (d.refuse p peer 0 3)) ∧
        (g.ver.toNat = 1 → isControl p = true ∨ 2 ≤ d.level → ((d.portSessions p).find? fun x => samePeer x.peer peer) = none →
          (64 ≤ (d.portSessions p).length → exec (.hostOpen q peer g) s = s.ends (d.refuse p peer 0 1)) ∧
          ((d.portSessions p).length < 64 → exec (.hostOpen q peer g) s = s.ends (d.grant p peer g))) ∧
        (∀ x, g.ver.toNat = 1 → isControl p = true ∨ 2 ≤ d.level → ((d.portSessions p).find? fun x => samePeer x.peer peer) = some x →
          x.nonce ≠ g.payload.take 8 → exec (.hostOpen q peer g) s = s.ends ((d.endSession x.id).grant p peer g))) ∧
      (∀ x ∈ [(3, Instr.hostData q peer g), (4, .hostAck q peer g), (5, .hostClose q peer g)],
        (segSound x.1 g = false → exec x.2 s = s.ends (d.badSegment p)) ∧
        (segSound x.1 g = true → g.ver.toNat = 1 → d.sess g.session.toNat = none →
          exec x.2 s = s.ends (d.refuseUnknown p peer g.session.toNat))) ∧
      (∀ x : Sess, d.sess g.session.toNat = some x → x.port = p → g.ver.toNat = 1 →
        let e := (((d.count Reg.HOST_XPORT_SEGS_RX (hostInst p)).setSess { x with peer := peer, lastRx := d.now }).takeAck x.id g.ack.toNat
          g.sack.toNat g.window.toNat).fastResend x.id
        (segSound 4 g = true → e.sess x.id = none → exec (.hostAck q peer g) s = s.ends e) ∧
        (∀ y, e.sess x.id = some y →
          let f := e.holdSeg y ⟨g.seq.toNat, 5, false, false, 0, []⟩
          let f := match f.sess y.id with | some z => if 0 < z.pend then f.ackOut z else f | none => f
          (segSound 4 g = true → exec (.hostAck q peer g) s = s.ends (e.closeDone y.id)) ∧
          (segSound 3 g = true → exec (.hostData q peer g) s =
            s.ends ((e.holdSeg y ⟨g.seq.toNat, 3, g.isFirst, g.isLast, g.channel.toNat, g.payload⟩).closeDone y.id)) ∧
          (segSound 5 g = true → exec (.hostClose q peer g) s = s.ends (f.closeDone y.id))))) ∧
    (∀ x : Sess, d.host.sessions = [x] → x.id = g.session.toNat → x.port = p → d.carries p = true → g.ver.toNat = 1 → x.una = [] →
      x.queue = [] → x.held = [] → x.closed = false → d.host.chans = [] →
      (segSound 4 g = true → ∃ t, exec (.hostAck q peer g) s = .next t ∧ t.mem = s.mem ∧ t.pending = s.pending ∧ t.dev.out = [] ∧
        t.dev.host.sessions = [{ x with peer := peer, lastRx := d.now, window := g.window.toNat }]) ∧
      (segSound 3 g = true → 256 ≤ serial g.seq.toNat x.rcv → ∃ t, exec (.hostData q peer g) s = .next t ∧ t.mem = s.mem ∧
        t.pending = s.pending ∧
        t.dev.rd Reg.HOST_XPORT_DUP (hostInst p) = sat 16 (d.rd Reg.HOST_XPORT_DUP (hostInst p) + 1) ∧
        t.dev.out.length = 1 ∧ t.dev.host.sessions.map (·.rcv) = [x.rcv]) ∧
      (segSound 3 g = true → g.seq.toNat = x.rcv → g.channel = 0 → g.isFirst = true → g.isLast = true → x.pend < 15 →
        controlOk g.payload = true → ∃ t, exec (.hostData q peer g) s = .next t ∧ t.mem = s.mem ∧ t.pending = s.pending ∧ t.dev.out = [] ∧
          t.dev.host.sessions.map (fun y => (y.rcv, y.ctl, y.held)) = [((x.rcv + 1) % 2 ^ 32, x.ctl ++ [g.payload], [])]) ∧
      (segSound 5 g = true → g.seq.toNat = x.rcv → g.window.toNat ≠ 0 → ∃ t, exec (.hostClose q peer g) s = .next t ∧
        t.mem = s.mem ∧ t.pending = s.pending ∧
        t.dev.host.sessions.map (fun y => (y.peerClosed, y.closed, y.rcv)) = [(true, true, (x.rcv + 1) % 2 ^ 32)])) ∧
    (∀ id : BitVec 32,
      (d.sess id.toNat = none → exec (.ackTimer id) s = s.ends d ∧ exec (.rtoExpiry id) s = s.ends d ∧ exec (.sessionDead id) s = s.ends d) ∧
      (∀ x, d.sess id.toNat = some x →
        exec (.ackTimer id) s = s.ends ((d.passTo (x.ackDue.getD (x.lastTx + ms 100))).ackOut x) ∧
        (let dead := ms (d.rd Reg.HOST_XPORT_DEAD_MS (hostInst x.port));
         (x.closed = false → exec (.sessionDead id) s = s.ends ((d.passTo (x.lastRx + dead)).failSession id.toNat)) ∧
         (x.closed = true → exec (.sessionDead id) s = s.ends ((d.passTo (x.closeAt + dead)).endSession id.toNat))) ∧
        (x.una = [] → exec (.rtoExpiry id) s = s.ends d) ∧
        (∀ y ys, x.una = y :: ys → let e := d.passTo (y.sentAt + x.rto)
          (e.rd Reg.HOST_XPORT_RETRY_LIMIT (hostInst x.port) ≤ y.tries → exec (.rtoExpiry id) s = s.ends (e.failSession id.toNat)) ∧
          (y.tries < e.rd Reg.HOST_XPORT_RETRY_LIMIT (hostInst x.port) → exec (.rtoExpiry id) s =
            s.ends (e.resend { x with rto := min (ms 100) (2 * x.rto) } y false))))) ∧
    (isControl p = false → exec (.resetFrame q peer g) s = s.ends d) ∧
    (isControl p = true → d.carries p = true →
      let m := g.payload
      let i := hostInst p
      let w := fld m 0x10 4
      let sound := segSound 7 g = true ∧ g.ver.toNat = 1
      let ok := ∃ k, d.sec.resetKey = some k ∧ resetHeaderOk g = true ∧ m.length = 64 ∧ fld m 0 8 = d.deviceId ∧
        d.rd Reg.HOST_XPORT_RESET_CTR_LO i + 2 ^ 32 * d.rd Reg.HOST_XPORT_RESET_CTR_HI i < fld m 8 8 ∧ domOk (bits w 0 4) (bits w 16 12) = true ∧
        bits w 4 12 = 0 ∧ bits w 28 4 = 0 ∧ allZero m 0x14 0x20 = true ∧ kmac256 k (m.take 0x20) "NXU RESET" = m.drop 0x20
      let quiet := ∃ t, d.rst.rejectAt = some t ∧ d.now < t + ms 1000
      let e := d.bump Reg.HOST_XPORT_RESET_REJECTED i
      let a := (((d.xportAll Reg.HOST_XPORT_RESET_CTR_LO (fld m 8 4)).xportAll Reg.HOST_XPORT_RESET_CTR_HI (fld m 12 4)).send
        (.segment p peer 7 false false 0 0 0 0 0 0 ((m.drop 8).take 8 ++ natLe 8 0))).txFrame p
      (¬ sound → exec (.resetFrame q peer g) s = s.ends (d.badSegment p)) ∧
      (sound → ok → exec (.resetFrame q peer g) s =
        s.ends (a.setRst { a.rst with due := a.rst.due ++ [⟨bits w 0 4, bits w 16 12, Src.frame, a.now + us 100⟩] })) ∧
      (sound → ¬ ok → quiet → exec (.resetFrame q peer g) s = s.ends e) ∧
      (sound → ¬ ok → ¬ quiet → exec (.resetFrame q peer g) s = s.ends ((e.setRst { e.rst with rejectAt := some e.now }).raise (pgXport p) 0x0B09 10
        Sev.warn (e.rd Reg.HOST_XPORT_RESET_REJECTED i))))

/-- R429 to R443: channels. A CREATE or DESTROY that waits on a session is acted on: refused with the first code of R430 to R433 that holds, or
granted under a handle of the lowest free index and its next generation; a DESTROY of a channel of the session drops it. The oldest message of a
channel is taken: a REG message's requests run in order and are answered together, input data is stored or answered with its status, and a STORE
request is answered with the header and the bytes. An output leaves in the slack window only. Without a waiting message nothing happens. -/
def Obligations.ChannelCommands : Prop :=
  ∀ (s : State), let d := s.dev.start
    (∀ id : BitVec 32, (d.takeControl id.toNat 1 = none → exec (.chanCreate id) s = s.ends d) ∧
      (d.takeControl id.toNat 3 = none → exec (.chanDestroy id) s = s.ends d) ∧
      (∀ x m e, d.takeControl id.toNat 1 = some (x, m, e) →
        (∀ code, e.createRefusal x.port (fld m 4 4) (fld m 8 8) = some code → exec (.chanCreate id) s =
          s.ends (e.refuseChan x code (fld m 2 2) (fld m 4 4))) ∧
        (e.createRefusal x.port (fld m 4 4) (fld m 8 8) = none →
          let r := e.newHandle (kindOf (fld m 4 4))
          let c : Chan := { handle := r.1, sess := id.toNat, port := x.port, param := fld m 8 8 }
          let f : Dev := { r.2 with host := { r.2.host with chans := r.2.host.chans ++ [c] } }
          exec (.chanCreate id) s =
            s.ends ((f.wr Reg.HOST_XPORT_CHANNELS_OPEN (hostInst 4) f.host.chans.length).control id.toNat 2 0 (fld m 2 2) r.1))) ∧
      (∀ x m e, d.takeControl id.toNat 3 = some (x, m, e) → let h := fld m 4 4
        ((e.host.chans.any fun c => c.handle == h && c.sess == id.toNat) = true → exec (.chanDestroy id) s =
          s.ends (e.dropChan h 0 (fld m 2 2) true)) ∧
        ((e.host.chans.any fun c => c.handle == h && c.sess == id.toNat) = false → exec (.chanDestroy id) s =
          s.ends (e.refuseChan x 1 (fld m 2 2) h)))) ∧
    (∀ h : BitVec 32,
      (∀ us, (d.takeMessage h.toNat Kd.reg = none → exec (.regMessage ⟨h, us⟩) s = s.ends d) ∧
        (∀ c m e, d.takeMessage h.toNat Kd.reg = some (c, m, e) →
          (regRequests m = none → exec (.regMessage ⟨h, us⟩) s = s.ends (e.queueMsg c.sess h.toNat (regReply m []))) ∧
          (∀ n, regRequests m = some n →
            let one := fun (a : List (Nat × Nat) × Dev) (k : Nat) =>
              let r := a.2.regRequest s.mem (bit c.param 0) c.sess ((us.map BitVec.toNat).contains k) ((m.drop (8 + 12 * k)).take 12)
              (a.1 ++ [r.1], r.2)
            let x := (List.range n).foldl one ([], e)
            exec (.regMessage ⟨h, us⟩) s = s.ends (x.2.queueMsg c.sess h.toNat (regReply m x.1))))) ∧
      (∀ err, (d.takeMessage h.toNat Kd.hostIn = none → exec (.hostInData h err) s = s.ends d) ∧
        (∀ c m e, d.takeMessage h.toNat Kd.hostIn = some (c, m, e) →
          let step := fld m 8 8
          let off := fld m 0x10 4
          let n := fld m 0x14 4
          let fin := bit (fld m 0 4) 0
          let status := fun (d : Dev) (code : Nat) => s.endsStore (d.inStatus c step code off)
          (headOk (isStore c.param) m true = false → exec (.hostInData h err) s = status e 4) ∧
          (isStore c.param = true → headOk true m true = true →
            (∀ code, e.storeSpan m = .error code → exec (.hostInData h err) s = status e code) ∧
            (∀ a, e.storeSpan m = .ok a → exec (.hostInData h false) s =
              if fin then status (e.poke a (m.drop 32)) 0 else s.endsStore (e.poke a (m.drop 32))) ∧
            (∀ a, e.storeSpan m = .ok a → exec (.hostInData h true) s =
              status ((e.landed true (m.drop 32)).2.poke a (e.landed true (m.drop 32)).1) 5)) ∧
          (isStore c.param = false → headOk false m true = true →
            (e.pantryHome (c.param % 2 ^ 24) (step % 2) = none → exec (.hostInData h err) s = status e 4) ∧
            (∀ home size, e.pantryHome (c.param % 2 ^ 24) (step % 2) = some (home, size) →
              let x := e.inBuf (c.param % 2 ^ 24) step
              let now' := step = e.inputStep ∨ step = e.inputStep + 1
              let bad := off % 64 ≠ 0 ∨ size < off + n
              let rs := if n = 0 then x.ranges else addRange off (off + n) x.ranges
              let whole := decide (size = 0) || rs == [(0, size)]
              let f := (e.pokeStripe 4 (home + off) (m.drop 32)).setInBuf { x with ranges := rs, ended := fin && whole }
              (¬ now' → exec (.hostInData h err) s = status e 1) ∧
              (now' → x.ended = true → exec (.hostInData h err) s = status e 3) ∧
              (now' → x.ended = false → bad → exec (.hostInData h err) s = status e 4) ∧
              (now' → x.ended = false → ¬ bad → exec (.hostInData h false) s =
                if fin then status f (if whole then 0 else 2) else s.endsStore f))))) ∧
      (d.takeMessage h.toNat Kd.hostOut = none → exec (.hostOutRequest h) s = s.ends d) ∧
      (∀ c m e, d.takeMessage h.toNat Kd.hostOut = some (c, m, e) →
        (∀ a, isStore c.param = true → headOk true m false = true → e.storeSpan m = .ok a → exec (.hostOutRequest h) s =
          s.ends (e.queueMsg c.sess h.toNat (m ++ s.mem.bytes a (fld m 0x14 4)))) ∧
        (isStore c.param = false ∨ headOk true m false = false → exec (.hostOutRequest h) s = s.ends e)) ∧
      (d.slackOpen = false ∨ d.chan h.toNat = none → exec (.hostOutSend h) s = s.ends d) ∧
      (∀ c x home size, d.chan h.toNat = some c → kindOf h.toNat = Kd.hostOut → isStore c.param = false → d.slackOpen = true →
        (d.host.outputs.find? fun x => x.tensor == c.param % 2 ^ 24 && x.upTo.isNone) = some x →
        d.pantryHome (c.param % 2 ^ 24) (x.step % 3) = some (home, size) →
        let n := min 65536 (size - x.off)
        let e := d.queueMsg c.sess h.toNat (natLe 4 (ofB (decide (size ≤ x.off + n))) ++ natLe 4 0 ++ natLe 8 x.step ++ natLe 4 x.off ++
          natLe 4 n ++ natLe 8 0 ++ d.readStripe s.mem 4 (home + x.off) n)
        let x' : OutBuf := { x with off := x.off + n, upTo := if size ≤ x.off + n then some (((e.chan h.toNat).map (·.segs)).getD 0) else none }
        exec (.hostOutSend h) s = s.ends { e with host := { e.host with outputs := e.host.outputs.map fun y => if y = x then x' else y } }))

/-! ## Power, temperature and leases (R452 to R484) -/

/-- R5, R453, R455, R467 to R470, R478, R479, R481 to R483: clocks, rails and temperatures, while the package is out of reset, and with it the managers
from SL1 on. A ramp step that no droop holds, nor the 10 µs after one, ends at its operating point, and the next begins while the target lies further; a
droop trips once until it clears. A reading of the rails takes a millisecond and joins the last thousand; the loop runs every 10 ms; a recalibration
with factors out of their bounds fails the model. A junction at 105 °C, a stack at 95 °C, an alert and a lost reference clock force a die into the
shelf state with their cause; without a cause for 1 s it may leave. A hung die manager counts its rails as failed, and with them the measured source. -/
def Obligations.PowerControl : Prop :=
  ∀ (s : State), let d := s.dev.start
    (d.rst.held = true ∨ d.now < d.rst.runsTo → ∀ (q : BitVec 4) (n : BitVec 32) (e : BitVec 2) (ts : List (Option (BitVec 16))),
      ∀ c ∈ [Instr.rampStepDone q, .droopTrip q, .droopClear q n, .junctionSensorRead q ts, .hbmTempRead e ts, .regAlert e, .regAlertRelease e,
        .shelfRelease e], exec c s = s.ends d) ∧
    (d.level = 0 → ∀ (xs : List (BitVec 2 × BitVec 3 × BitVec 16 × BitVec 16)) (e : BitVec 2),
      ∀ c ∈ [Instr.avsSample xs, .measLoop, .recalibration, .dieManagerHung e], exec c s = s.ends d) ∧
    (d.rst.held = false → d.rst.runsTo ≤ d.now → ∀ q : BitVec 4, let r := 256 * q.toNat
      let x := d.clock r
      let tg := d.rd Reg.RCLOCK_TARGET r
      let e := d.wr Reg.RCLOCK_OP r x.stepTo
      (d.rd Reg.RCLOCK_RAMPING r = 0 ∨ x.stretched = true ∨ (∃ t, x.clearAt = some t ∧ d.now < t + us 10) → exec (.rampStepDone q) s = s.ends d) ∧
      (d.rd Reg.RCLOCK_RAMPING r ≠ 0 → x.stretched = false → (∀ t, x.clearAt = some t → t + us 10 ≤ d.now) → x.stepTo < 16 →
        (x.stepTo = tg → exec (.rampStepDone q) s = s.ends (e.wr Reg.RCLOCK_RAMPING r 0)) ∧
        (x.stepTo ≠ tg → exec (.rampStepDone q) s = s.ends ((e.setClock r { x with stepTo := if x.stepTo < tg then x.stepTo + 1 else x.stepTo - 1 }).wr
          Reg.RCLOCK_RAMPING r 1))) ∧
      (exec (.droopTrip q) s = s.ends (if x.stretched then d else
        (d.setClock r { x with stretched := true, trips := x.trips + 1 }).count Reg.RCLOCK_DROOP_EVENTS r)) ∧
      (∀ n : BitVec 32, exec (.droopClear q n) s = s.ends (if x.stretched then
        (d.setClock r { x with stretched := false, clearAt := some d.now }).count Reg.RCLOCK_STRETCH_CYCLES r (max 64 n.toNat) else d)) ∧
      (∀ ts, ∃ u, exec (.junctionSensorRead q ts) s = .next u ∧ u.mem = s.mem ∧ u.pending = s.pending ∧ u.dev.units = s.dev.units ∧
        u.dev.now = s.dev.now ∧
        (regionOut d.faults r = false → 420 ≤ u.dev.regionTemp r → u.dev.rd Reg.THERMAL_SHELF_FORCED (r / 1024 * 1024) = 1 ∧
          1 ∈ (u.dev.shelfOf (r / 1024 * 1024)).causes))) ∧
    (d.rst.held = false → d.rst.runsTo ≤ d.now → ∀ q : BitVec 2, let die := 1024 * q.toNat
      let x := d.shelfOf die
      (∀ ts, ∃ u, exec (.hbmTempRead q ts) s = .next u ∧ u.mem = s.mem ∧ u.pending = s.pending ∧ u.dev.units = s.dev.units ∧
        u.dev.now = s.dev.now ∧
        (∀ k ∈ u.dev.dieStacks die, 380 ≤ u.dev.stackTemp k → u.dev.rd Reg.THERMAL_SHELF_FORCED die = 1 ∧ k ∈ u.dev.power.selfRefresh)) ∧
      (exec (.regAlert q) s = s.ends ((d.wr Reg.AVS_REG_ALERT die 1).shelve die 3)) ∧
      (exec (.regAlertRelease q) s = s.ends ((d.wr Reg.AVS_REG_ALERT die 0).unshelve die 3)) ∧
      (exec (.shelfRelease q) s = s.ends (if d.rd Reg.THERMAL_SHELF_FORCED die = 1 ∧ x.causes = [] ∧ x.clearAt + ms 1000 ≤ d.now then
        d.setShelf die { x with release := true } else d))) ∧
    (∀ q : BitVec 2, let die := 1024 * q.toNat
      (d.rst.held = true → exec (.refclkLoss q) s = s.ends { d with rst := { d.rst with refclk := false } }) ∧
      (d.rst.held = false → ∃ t, exec (.refclkLoss q) s = .next t ∧ t.mem = s.mem ∧ t.pending = s.pending ∧ t.dev.rst.refclk = false ∧
        t.dev.lockState = 4 ∧ 4 ∈ (t.dev.shelfOf die).causes ∧ t.dev.rd Reg.THERMAL_SHELF_FORCED die = 1)) ∧
    (d.level ≠ 0 →
      (∀ q : BitVec 2, ∃ t, exec (.dieManagerHung q) s = .next t ∧ t.mem = s.mem ∧ t.pending = s.pending ∧ t.dev.units = s.dev.units ∧
        t.dev.rd Reg.AVS_RAIL_OK (1024 * q.toNat) = 0 ∧ t.dev.rd Reg.AVS_RAIL_FAILED (1024 * q.toNat) = 127 ∧ t.dev.g Reg.MEASURE_FAILED = 1 ∧
        bit (t.dev.g Reg.INPUT_COND_SUBST) 2 = true) ∧
      (∀ xs, ∃ t, exec (.avsSample xs) s = .next t ∧ t.mem = s.mem ∧ t.pending = s.pending ∧ t.dev.units = s.dev.units ∧
        t.dev.now = max d.now (d.power.sampledAt + ms 1) ∧ t.dev.power.sampledAt = t.dev.now ∧ t.dev.power.readings.length ≤ 1000 ∧
        t.dev.power.readings.drop 1 = d.power.readings.take 999 ∧
        t.dev.g Reg.MEASURE_M10_W = sat 16 (meanOf (t.dev.power.readings.take 10) / 1000) ∧
        t.dev.g Reg.MEASURE_M1S_W = sat 16 (meanOf t.dev.power.readings / 1000)) ∧
      (∃ t, exec .measLoop s = .next t ∧ t.mem = s.mem ∧ t.pending = s.pending ∧ t.dev.units = s.dev.units ∧
        t.dev.now = max d.now (d.power.loopAt + ms 10) ∧ t.dev.power.loopAt = t.dev.now ∧ t.dev.power.loops.length ≤ 100 ∧
        t.dev.power.loops.drop 1 = d.power.loops.take 99 ∧ t.dev.power.readings = d.power.readings ∧
        (d.g Reg.MEASURE_FAILED = 1 → t.dev.g Reg.MEASURE_MEAS_CAP = d.g Reg.MEASURE_MEAS_CAP)) ∧
      (d.quietBeat = false ∨ (d.g Reg.MODEL_SUSPECT = 0 ∧ d.power.calHour = d.wallHour) → exec .recalibration s = s.ends d) ∧
      (d.quietBeat = true → d.g Reg.MODEL_SUSPECT = 1 ∨ d.power.calHour ≠ d.wallHour → ∃ t, exec .recalibration s = .next t ∧ t.mem = s.mem ∧
        t.pending = s.pending ∧ t.dev.units = s.dev.units ∧ t.dev.power.calHour = d.wallHour ∧
        (t.dev.g Reg.MODEL_FAILED = 1 ∨
          (80 * 16384 ≤ 100 * t.dev.g Reg.MODEL_K_ST ∧ 100 * t.dev.g Reg.MODEL_K_ST ≤ 125 * 16384 ∧
            80 * 16384 ≤ 100 * t.dev.g Reg.MODEL_K_DYN ∧ 100 * t.dev.g Reg.MODEL_K_DYN ≤ 125 * 16384 ∧ t.dev.g Reg.MODEL_FAILED = 0 ∧
            t.dev.g Reg.MODEL_CALIBRATIONS = (d.g Reg.MODEL_CALIBRATIONS + 1) % 2 ^ Reg.MODEL_CALIBRATIONS.width))) ∧
      (d.quietBeat = true → d.g Reg.MODEL_SUSPECT = 1 → d.power.readings = [] → d.g Reg.MODEL_FAILED = 0 → d.g Reg.MEASURE_FAILED = 0 →
        exec .recalibration s = s.ends ((({ d with power := { d.power with calHour := d.wallHour } } : Dev).p Reg.MODEL_FAILED 1).raise pgModel 0x0C09 10
          Sev.error 1))) ∧
    (∀ (e : Dev) (die cause : Nat), die ∈ allDies → e.rd Reg.THERMAL_SHELF_FORCED die ≠ 1 → (e.shelve die cause).rd Reg.THERMAL_SHELF_FORCED die = 1 ∧
      (e.shelve die cause).rd Reg.THERMAL_CAUSE die = min 7 cause ∧ cause ∈ ((e.shelve die cause).shelfOf die).causes ∧
      (e.stepOpen = true → (e.shelve die cause).g Reg.STEP_REC_STATE_VOTE = max 3 (e.g Reg.STEP_REC_STATE_VOTE) % 4) ∧
      bit ((e.shelve die cause).hd Hdr.EVT_BLOCK (pgThermal die)) 1 = true)

/-- R456 to R464, R471 to R477: leases and trades. A lease frame that fails its checks changes no window and is answered with its code; an accepted
one raises 0x0C01 and moves SEQ. 600 s of holdover end the trades of the window in force and drop every window, with 0x0C03. LEND raises LENT_W and
0x0C04; its OFFER goes exactly 1 s later; a BORROW sends one NEED at a time, none within 1 s of a refusal; the broker answers with a GRANT of what the
pool still holds, or a REFUSE; a GRANT for the open NEED raises BORROWED_W, another is discarded; a REFUSE closes its NEED and raises 0x0C06. Before
SL1 the package neither lends nor borrows; a message for another package goes on in its slack. -/
def Obligations.LeasesAndTrades : Prop :=
  ∀ (s : State), let d := s.dev.start
    (∀ h : BitVec 32, (d.takeMessage h.toNat Kd.lease = none → exec (.leaseFrame h) s = s.ends d) ∧
      (∀ c m e, d.takeMessage h.toNat Kd.lease = some (c, m, e) →
        let answer := fun (x : Dev) => x.queueMsg c.sess h.toNat (natLe 8 (fld m 0x10 8) ++ natLe 1 (e.leaseCode m) ++ natLe 3 0 ++
          natLe 2 (x.g Reg.LEASE_B_EFF) ++ natLe 2 (x.g Reg.LEASE_P_EFF) ++ natLe 4 (x.g Reg.LEASE_END_MIN) ++ natLe 12 0)
        (if e.leaseCode m ≠ 0 then exec (.leaseFrame h) s = s.ends (answer ((e.p Reg.LEASE_LAST_CODE (e.leaseCode m)).raise pgLease 0x0C02 9
            Sev.warn (e.leaseCode m)))
        else
          let x := (e.p Reg.LEASE_LAST_CODE 0).p64 Reg.LEASE_SEQ_LO Reg.LEASE_SEQ_HI (fld m 0x10 8)
          let x := { x with power := { x.power with windows := mergeWins x.power.minute x.power.windows (frameWins m) } }
          let x := ((x.p Reg.LEASE_POOL (fld m 0x18 2)).p Reg.LEASE_BROKER (fld m 0x1C 4)).leaseView
          exec (.leaseFrame h) s = s.ends (answer (x.raise pgLease 0x0C01 8 Sev.info (x.g Reg.LEASE_B_EFF)))))) ∧
    (d.level = 0 → ∀ c ∈ [Instr.leaseHoldoverLimit, .powerLend, .powerBorrow, .offerSend], exec c s = s.ends d) ∧
    (d.level ≠ 0 →
      (d.wallState ≠ 3 → exec .leaseHoldoverLimit s = s.ends d) ∧
      (d.wallState = 3 → ∃ t, exec .leaseHoldoverLimit s = .next t ∧ t.mem = s.mem ∧ t.pending = s.pending ∧ t.dev.power.windows = [] ∧
        t.dev.now = max d.now (d.host.holdAt + ms 600000) ∧
        (d.power.windows ≠ [] → t.dev.g Reg.LEASE_STATE = 0 ∧ t.dev.g Reg.LEASE_B_EFF = t.dev.g Reg.LEASE_FALLBACK_W ∧
          bit (t.dev.hd Hdr.EVT_BLOCK pgLease) 2 = true) ∧
        (d.windowNow.isSome = true → t.dev.g Reg.TRADE_LENT_W = 0 ∧ t.dev.g Reg.TRADE_BORROWED_W = 0 ∧ t.dev.power.lentAt = none ∧
          t.dev.power.need = none)) ∧
      (d.tradeWindow = none → exec .powerLend s = s.ends d ∧ exec .powerBorrow s = s.ends d) ∧
      (∀ w, d.tradeWindow = some w →
        let l := min ((10 * w.avg - d.fitTenths - 10 * d.g Reg.TRADE_KEEP_W) / 100 * 10) (w.lend / 10 * 10)
        let n := min ((d.fitTenths - 10 * w.avg - 10 * d.borrowed + 99) / 100 * 10) ((w.borrow - d.borrowed) / 10 * 10)
        let waits := ∃ t, d.power.refusedAt = some t ∧ d.now < t + ms 1000
        (d.g Reg.TRADE_LEND_EN = 0 ∨ d.lent ≠ 0 ∨ d.plainOp ≤ d.g Reg.PLAN_RB_FIT_OP ∨ l < 10 → exec .powerLend s = s.ends d) ∧
        (d.g Reg.TRADE_LEND_EN ≠ 0 → d.lent = 0 → d.g Reg.PLAN_RB_FIT_OP < d.plainOp → 10 ≤ l → exec .powerLend s =
          s.ends (((({ d with power := { d.power with lentAt := some d.now, traded := true } } : Dev).p Reg.TRADE_LENT_W l).leaseView).raise pgTrade
            0x0C04 8 Sev.info l)) ∧
        (d.g Reg.TRADE_BORROW_EN = 0 ∨ d.g Reg.PLAN_RB_FIT_OP ≤ d.plainOp ∨ n = 0 ∨ d.power.need.isSome = true ∨ waits →
          exec .powerBorrow s = s.ends d) ∧
        (d.g Reg.TRADE_BORROW_EN ≠ 0 → d.plainOp < d.g Reg.PLAN_RB_FIT_OP → n ≠ 0 → d.power.need = none → ¬ waits →
          exec .powerBorrow s = s.ends (d.toBroker 1 w.start n))) ∧
      (d.power.lentAt = none ∨ d.windowNow = none → exec .offerSend s = s.ends d) ∧
      (∀ t w, d.power.lentAt = some t → d.windowNow = some w → exec .offerSend s =
        s.ends ((({ d with power := { d.power with lentAt := none } } : Dev).passTo (t + ms 1000)).toBroker 2 w.start d.lent))) ∧
    (∀ (q : BitVec 5) (sh : Shuttle) (cr : BitVec 32), let p := q.toNat; let m := sh.payload
      (sh.kind.toNat ≠ 4 ∨ d.portTakes p = false → ∀ c ∈ [Instr.needRecv q sh cr, .offerRecv q sh cr, .grantRecv q sh cr, .refuseRecv q sh cr],
        exec c s = s.ends d) ∧
      (sh.kind.toNat = 4 → d.portTakes p = true → crc32 (shCovered sh) = sh.crc.toNat → sh.dst.toNat ≠ d.selfAddr →
        ∀ c ∈ [Instr.needRecv q sh cr, .offerRecv q sh cr, .grantRecv q sh cr, .refuseRecv q sh cr],
          exec c s = s.ends (d.slackForward p sh cr.toNat)) ∧
      (sh.kind.toNat = 4 → d.portTakes p = true → crc32 (shCovered sh) = sh.crc.toNat → sh.dst.toNat = d.selfAddr →
        let refuse := d.tradeAnswer (fld m 0x10 4) 4 (fld m 2 2) (fld m 4 4) 0 (fld m 0xC 4)
        (tradeOk m 1 = false → exec (.needRecv q sh cr) s = s.ends d) ∧
        (tradeOk m 1 = true →
          (d.brokerFor (fld m 2 2) (fld m 4 4) = none → exec (.needRecv q sh cr) s = s.ends refuse) ∧
          (∀ w, let n := min (fld m 8 2) (d.g Reg.TRADE_POOL_LEFT_W)
            d.brokerFor (fld m 2 2) (fld m 4 4) = some w →
              (n = 0 ∨ d.winLeft w ≤ ms 1000 → exec (.needRecv q sh cr) s = s.ends refuse) ∧
              (n ≠ 0 → ms 1000 < d.winLeft w → exec (.needRecv q sh cr) s =
                s.ends ((({ d with power := { d.power with traded := true, grantsTx := d.power.grantsTx + n } } : Dev).p Reg.TRADE_POOL_LEFT_W
                  (d.g Reg.TRADE_POOL_LEFT_W - n)).tradeAnswer (fld m 0x10 4) 3 (fld m 2 2) (fld m 4 4) n (fld m 0xC 4))))) ∧
        (tradeOk m 2 = false → exec (.offerRecv q sh cr) s = s.ends d) ∧
        (tradeOk m 2 = true →
          (d.brokerFor (fld m 2 2) (fld m 4 4) = none → exec (.offerRecv q sh cr) s = s.ends refuse) ∧
          (∀ w, d.brokerFor (fld m 2 2) (fld m 4 4) = some w → exec (.offerRecv q sh cr) s =
            s.ends (({ d with power := { d.power with traded := true, offersRx := d.power.offersRx + fld m 8 2 } } : Dev).p Reg.TRADE_POOL_LEFT_W
              (sat 16 (d.g Reg.TRADE_POOL_LEFT_W + fld m 8 2))))) ∧
        (∀ w, tradeOk m 3 = true → d.windowNow = some w → w.start = fld m 4 4 → fld m 0x14 4 = d.selfAddr →
          d.power.need = some (fld m 0xC 4) → ms 1000 ≤ d.winLeft w → exec (.grantRecv q sh cr) s =
            s.ends ((({ d with power := { d.power with need := none, traded := true } } : Dev).p Reg.TRADE_BORROWED_W (d.borrowed + fld m 8 2)).leaseView.raise
              pgTrade 0x0C05 9 Sev.info (fld m 8 2))) ∧
        (tradeOk m 3 = false ∨ d.power.need ≠ some (fld m 0xC 4) ∨ fld m 0x14 4 ≠ d.selfAddr ∨
            (∀ w, d.windowNow = some w → w.start = fld m 4 4 → d.winLeft w < ms 1000) → exec (.grantRecv q sh cr) s = s.ends d) ∧
        (tradeOk m 4 = false → exec (.refuseRecv q sh cr) s = s.ends d) ∧
        (tradeOk m 4 = true →
          let e := if d.power.need = some (fld m 0xC 4) then
            ({ d with power := { d.power with need := none, refusedAt := some d.now } } : Dev) else d
          exec (.refuseRecv q sh cr) s = s.ends ((e.bump Reg.TRADE_REFUSED 0).raise pgTrade 0x0C06 10 Sev.warn (fld m 0x10 4)))))

/-! ## Firmware, keys, quotes and energy records (R507 to R524) -/

/-- R507 to R524: the keeper. FW.STAGE puts an image that passes into the inactive slot, and reports the code of one that fails; FW.CONFIRM confirms the
running image; KEY.GO with an accepted block sets its key, or the lock, with 0x0E04, and changes nothing but KEY_CODE with 0x0E05 otherwise. Quotes are
limited in number, and each takes a signing index, sent with its signature; a refused one ends in STATE 3 with its reason. A minute closes with one
record that joins the chain and is kept. Before SL1 the keeper does none of these of itself. -/
def Obligations.Keeper : Prop :=
  ∀ (s : State) (r : Requester), let d := s.dev.start
    (s.accepts r pgFuseKeys 0x088 true → d.refusesWork pgFuseKeys = false →
      let m := d.srcBytes s.mem (d.g Reg.FUSE_KEYS_STAGE_SPACE) (d.g Reg.FUSE_KEYS_STAGE_ADDR) (d.g Reg.FUSE_KEYS_STAGE_LEN)
      (if d.imageCode m = 0 then ∃ t, exec (.fwStage r) s = .next t ∧ t.mem = s.mem ∧ t.pending = s.pending ∧ t.dev.out = [.completion 0 0] ∧
          t.dev.g Reg.FUSE_KEYS_STAGE_CODE = 0 ∧ t.dev.g Reg.FUSE_KEYS_FW_PENDING = 1 ∧
          SMap.find t.dev.sec.images (1 - d.g Reg.FUSE_KEYS_FW_ACTIVE) = some m ∧ bit (t.dev.hd Hdr.EVT_BLOCK pgFuseKeys) 2 = true
        else exec (.fwStage r) s =
          s.ends (((d.p Reg.FUSE_KEYS_STAGE_CODE (d.imageCode m)).raise pgFuseKeys 0x0E02 9 Sev.error (d.imageCode m)).done 0)) ∧
      (d.g Reg.FUSE_KEYS_FW_CONFIRMED = 1 → exec (.fwConfirm r) s = s.ends (d.done 0)) ∧
      (d.g Reg.FUSE_KEYS_FW_CONFIRMED ≠ 1 → ∃ t, exec (.fwConfirm r) s = .next t ∧ t.mem = s.mem ∧ t.pending = s.pending ∧
        t.dev.out = [.completion 0 0] ∧ t.dev.g Reg.FUSE_KEYS_FW_CONFIRMED = 1 ∧ t.dev.g Reg.FUSE_KEYS_FW_PENDING = 0 ∧
        t.dev.sec.confirmed = d.g Reg.FUSE_KEYS_FW_ACTIVE ∧
        t.dev.g Reg.FUSE_KEYS_SVN = max (d.g Reg.FUSE_KEYS_SVN) (fwSvn (SMap.at d.sec.images (d.g Reg.FUSE_KEYS_FW_ACTIVE) [])) %
          2 ^ Reg.FUSE_KEYS_SVN.width) ∧
      (let b := d.keyBlock
       ∀ x ∈ [(1, Instr.leaseKey r), (2, .resetKey r), (3, .cakKey r), (4, .fallbackKey r), (5, .lockKey r)],
        (fld b 0 1 % 16 ≠ x.1 → exec x.2 s = s.ends (d.done 0)) ∧
        (fld b 0 1 % 16 = x.1 → d.keyCode b ≠ 0 → exec x.2 s = s.ends (((d.p Reg.FUSE_KEYS_KEY_CODE (d.keyCode b)).raise pgFuseKeys 0x0E05 12 Sev.warn
          (x.1 + 256 * d.keyCode b)).done 0)) ∧
        (fld b 0 1 % 16 = x.1 → d.keyCode b = 0 → d.g Reg.FUSE_KEYS_PROV_LOCK ≠ 1 → ∃ t, exec x.2 s = .next t ∧ t.mem = s.mem ∧
          t.pending = s.pending ∧ t.dev.out = [.completion 0 0] ∧ bit (t.dev.hd Hdr.EVT_BLOCK pgFuseKeys) 3 = true ∧
          t.dev.sec.leaseKey = (if x.1 = 1 then some ((b.drop 0x10).take 32) else d.sec.leaseKey) ∧
          t.dev.sec.resetKey = (if x.1 = 2 then some ((b.drop 0x10).take 32) else d.sec.resetKey) ∧
          t.dev.sec.cak = (if x.1 = 3 then some ((b.drop 0x10).take 32, (b.drop 0x30).take 16) else d.sec.cak) ∧
          (x.1 = 4 → t.dev.g Reg.LEASE_FALLBACK_W = fld b 0x10 2) ∧
          t.dev.g Reg.FUSE_KEYS_PROV_LOCK = (if x.1 = 5 then 1 else d.g Reg.FUSE_KEYS_PROV_LOCK)))) ∧
    (s.accepts r pgAttest 0x0A0 true → d.refusesWork pgAttest = false →
      let signed := (d.sec.quotes.filter fun t => decide (d.now < t + ms 3600000)).length
      let refuse := fun (e : Dev) (n : Nat) => s.ends (((e.p Reg.ATTEST_REASON n).raise pgAttest 0x0E07 9 Sev.warn n).done 0)
      (d.g Reg.ATTEST_RATE ≤ signed → exec (.attestRequest r) s = refuse (d.p Reg.ATTEST_STATE 3) 1) ∧
      (signed < d.g Reg.ATTEST_RATE → d.g Reg.IDENT_REMAINING ≤ 8192 → exec (.attestRequest r) s = refuse (d.p Reg.ATTEST_STATE 3) 2) ∧
      (signed < d.g Reg.ATTEST_RATE → 8192 < d.g Reg.IDENT_REMAINING → d.sec.nonce ≠ none → exec (.attestRequest r) s = refuse (d.p Reg.ATTEST_STATE 3) 3) ∧
      (signed < d.g Reg.ATTEST_RATE → 8192 < d.g Reg.IDENT_REMAINING → d.sec.nonce = none → exec (.attestRequest r) s =
        s.ends (((({ d with sec := { d.sec with nonce := some ((List.range 8).map fun i => natLe 4 (d.g Reg.ATTEST_NONCE i)).flatten } } : Dev).p
          Reg.ATTEST_STATE 1).p Reg.ATTEST_REASON 0).done 0))) ∧
    (d.level = 0 → ∀ c ∈ [Instr.quoteSigned, .sigBudgetLow, .minuteBoundary, .totalsSave], exec c s = s.ends d) ∧
    (d.level ≠ 0 →
      (d.sec.nonce = none → exec .quoteSigned s = s.ends d) ∧
      (d.sec.nonce ≠ none → ∃ t, exec .quoteSigned s = .next t ∧ t.mem = s.mem ∧ t.pending = s.pending ∧ t.dev.sec.nonce = none ∧
        t.dev.g Reg.ATTEST_STATE = 2 ∧ t.dev.g Reg.IDENT_NEXT_INDEX = (d.g Reg.IDENT_NEXT_INDEX + 1) % 2 ^ Reg.IDENT_NEXT_INDEX.width ∧
        t.dev.sec.quotes = d.now :: d.sec.quotes.filter (fun t => decide (d.now < t + ms 3600000)) ∧ bit (t.dev.hd Hdr.EVT_BLOCK pgAttest) 0 = true) ∧
      (65536 < d.g Reg.IDENT_REMAINING ∨ (∃ t, d.sec.budgetAt = some t ∧ d.now < t + ms 86400000) → exec .sigBudgetLow s = s.ends d) ∧
      (d.g Reg.IDENT_REMAINING ≤ 65536 → (∀ t, d.sec.budgetAt = some t → t + ms 86400000 ≤ d.now) → exec .sigBudgetLow s =
        s.ends (({ d with sec := { d.sec with budgetAt := some d.now } } : Dev).raise pgIdent 0x0E08 8 Sev.warn (d.g Reg.IDENT_REMAINING))) ∧
      (∃ t, exec .minuteBoundary s = .next t ∧ t.mem = s.mem ∧ t.pending = s.pending ∧ d.now ≤ t.dev.now ∧ t.dev.sec.nextSeq = d.sec.nextSeq + 1 ∧
        t.dev.power.minute = t.dev.wallNs / (60 * 10 ^ 9) ∧ t.dev.sec.records.length = min 4096 (d.sec.records.length + 1) ∧
        (t.dev.sec.records.getLast?.map (·.1)) = some d.sec.nextSeq ∧
        t.dev.g64 Reg.ENERGY_REC_SEQ_LO Reg.ENERGY_REC_SEQ_HI = d.sec.nextSeq % 2 ^ 64) ∧
      (∃ t, exec .totalsSave s = .next t ∧ t.mem = s.mem ∧ t.pending = s.pending ∧ t.dev.now = max d.now (d.sec.savedAt + ms 1000) ∧
        t.dev.sec.savedAt = t.dev.now ∧ t.dev.sec.saved.uj = d.sec.acc.uj ∧ t.dev.sec.acc = d.sec.acc)) ∧
    (∀ ses : BitVec 32, s.accepts r pgEnergyRec 0x0C0 true → d.refusesWork pgEnergyRec = false →
      (d.sec.records = [] → exec (.energyRecFetch r ses) s = s.ends (d.done 11)) ∧
      (∀ q x, d.g64 Reg.ENERGY_REC_FETCH_SEQ_LO Reg.ENERGY_REC_FETCH_SEQ_HI = q → d.g64 Reg.ENERGY_REC_OLDEST_LO Reg.ENERGY_REC_OLDEST_HI = q →
        d.g64 Reg.ENERGY_REC_SEQ_LO Reg.ENERGY_REC_SEQ_HI = q → d.sec.records = [(q, x)] → d.sec.blocks = [] →
        let give := fun (c : Chan) => if kindOf c.handle = Kd.record ∧ c.sess = ses.toNat ∧ bit c.param 2 then
          takeWaiting { c with waiting := c.waiting ++ [(2, x)] } 1 else c
        exec (.energyRecFetch r ses) s = s.ends ((({ d with host := { d.host with chans := d.host.chans.map give } } : Dev).pumpAll ses.toNat).done 0)))
/-! ## Save points and restores (R486 to R503) -/

/-- R489 to R495: save points between packages. Pieces leave in the slack window only: one to send again first, then the parts that the gather does
not carry, in order, then the manifest once they are acknowledged. A received piece of the expected save point is written where it belongs and noted;
another is counted as stale, and pieces of an attic that is VALID already change nothing. The answer to a part is NAK with its first missing piece,
ACK, or, for the manifest, MANIFEST_ACK with the attic VALID and 0x0D02, or MANIFEST_BAD with 0x0D03. An ACK clears the wait; a NAK, and RETRY_BEATS
without an answer, send again, at most three times, and the transfer is abandoned after that; a MANIFEST_ACK makes the copy HELD. -/
def Obligations.SavePoints : Prop :=
  ∀ (s : State), let d := s.dev.start
    (∀ use : BitVec 2, (d.slackOpen = false ∨ (d.recov.transfers.find? fun t => t.use == use.toNat && ! t.bad) = none → exec (.drainSend use) s = s.ends d) ∧
      (∀ t, let ps := d.partsOf (d.transferMember t)
        let len := fun (i : Nat) => if i < ps.length then partLen (ps.getD i (0, 0, 0, 0)) else manifestLen ps
        d.slackOpen = true → (d.recov.transfers.find? fun t => t.use == use.toNat && ! t.bad) = some t →
        (∀ no k rest, t.again = (no, k) :: rest →
          let i := if no = manifestNo then ps.length else no
          let r := d.sendPiece s.mem t ps i k
          let n := piecesOf (if no = manifestNo then manifestLen ps else partLen (ps.getD no (0, 0, 0, 0)))
          exec (.drainSend use) s = s.ends (r.2.putTransfer { r.1 with again := if k + 1 < n then (no, k + 1) :: rest else rest })) ∧
        (t.again = [] → t.next < ps.length →
          let p := ps.getD t.next (0, 0, 0, 0)
          let u := { t with digests := if t.piece = 0 ∧ t.use ≠ 1 then t.digests ++ [shake256 (d.transferBytes s.mem t ps t.next)] else t.digests }
          let carried := t.use = 0 ∧ p.1 = 0 ∧ d.gathered t.dst (atticAt ps t.next) (partLen p) = true
          (carried → exec (.drainSend use) s = s.ends (d.putTransfer { u with next := t.next + 1, piece := 0 })) ∧
          (¬ carried → let r := d.sendPiece s.mem u ps t.next t.piece
            exec (.drainSend use) s = s.ends (r.2.putTransfer (if t.piece + 1 < piecesOf (len t.next) then { r.1 with piece := t.piece + 1 } else
              { r.1 with next := t.next + 1, piece := 0 })))) ∧
        (t.again = [] → t.next = ps.length → (∀ x ∈ t.sentParts, x ∈ t.acked) → let r := d.sendPiece s.mem t ps ps.length t.piece
          exec (.drainSend use) s = s.ends (r.2.putTransfer (if t.piece + 1 < piecesOf (manifestLen ps) then { r.1 with piece := t.piece + 1 } else
            { r.1 with next := t.next + 1, piece := 0 }))) ∧
        (t.again = [] → ps.length < t.next ∨ (t.next = ps.length ∧ ∃ x ∈ t.sentParts, x ∉ t.acked) → exec (.drainSend use) s = s.ends d))) ∧
    (∀ (q : BitVec 5) (sh : Shuttle) (cr : BitVec 32), let p := q.toNat
      let good := d.portTakes p = true ∧ crc32 (shCovered sh) = sh.crc.toNat
      (∀ x ∈ [(0, Instr.drainPiece q sh cr), (1, .refillPiece q sh cr), (2, .atticRefillPiece q sh cr)],
        (sh.kind.toNat ≠ 5 ∨ d.portTakes p = false → exec x.2 s = s.ends d) ∧
        (sh.kind.toNat = 5 → good →
          (sh.dst.toNat ≠ d.selfAddr → exec x.2 s = s.endsStore (d.slackForward p sh cr.toNat)) ∧
          (sh.dst.toNat = d.selfAddr → sh.start.toNat ≠ x.1 → exec x.2 s = s.ends (if 2 < sh.start.toNat then d.linkStale p else d)) ∧
          (sh.dst.toNat = d.selfAddr → sh.start.toNat = x.1 → d.recvMember x.1 = none → exec x.2 s = s.ends (d.linkStale p)) ∧
          (∀ mem', sh.dst.toNat = d.selfAddr → sh.start.toNat = x.1 → d.recvMember x.1 = some mem' →
            let ps := d.partsOf mem'
            let no := sh.flow.toNat
            let n := piecesOf (if no = manifestNo then manifestLen ps else partLen (ps.getD no (0, 0, 0, 0)))
            let bad := sh.step.toNat ≠ d.expected x.1 sh.step.toNat ∨ (no ≠ manifestNo ∧ ps.length ≤ no) ∨ n ≤ sh.shuttle.toNat
            let full := x.1 = 0 ∧ d.g Reg.PARTNER_ATTIC_STATE = 2 ∧ d.g64 Reg.PARTNER_ATTIC_STEP_LO Reg.PARTNER_ATTIC_STEP_HI = d.stepNo - 1
            let got := if SMap.at d.recov.gotStep x.1 sh.step.toNat = sh.step.toNat then d.recov.got else d.recov.got.filter fun g => g.1 != x.1
            let key := (x.1, no, sh.shuttle.toNat)
            let noted : RecSt := { d.recov with
              got := if got.contains key then got else key :: got
              gotStep := SMap.put d.recov.gotStep x.1 sh.step.toNat
              gotFrom := SMap.put d.recov.gotFrom x.1 sh.src.toNat }
            let e := ({ d with recov := noted } : Dev).placePiece s.mem x.1 ps sh
            (bad → exec x.2 s = s.ends (d.linkStale p)) ∧
            (¬ bad → full → exec x.2 s = s.ends d) ∧
            (¬ bad → ¬ full → exec x.2 s =
              s.endsStore (if x.1 = 1 ∧ e.g Reg.RESTORE_STATE = 1 ∧ e.refilled ps = true then e.p Reg.RESTORE_STATE 2 else e))))) ∧
      (∀ x ∈ [(1, Instr.partAck q sh cr), (2, .partNak q sh cr), (3, .manifestAck q sh cr), (4, .manifestBad q sh cr)],
        (sh.kind.toNat ≠ 6 ∨ d.portTakes p = false → exec x.2 s = s.ends d) ∧
        (sh.kind.toNat = 6 → good → sh.dst.toNat ≠ d.selfAddr → exec x.2 s = s.ends (d.slackForward p sh cr.toNat)) ∧
        (sh.kind.toNat = 6 → good → sh.dst.toNat = d.selfAddr → fld sh.payload 0 4 ≠ x.1 ∨
          (d.recov.transfers.find? fun t => t.dst == sh.src.toNat && t.step == fld sh.payload 0xC 8) = none → exec x.2 s = s.ends d)) ∧
      (∀ t, sh.kind.toNat = 6 → good → sh.dst.toNat = d.selfAddr →
        (d.recov.transfers.find? fun t => t.dst == sh.src.toNat && t.step == fld sh.payload 0xC 8) = some t →
        let part := fld sh.payload 4 4
        let others := d.recov.transfers.filter fun x => ! (x.dst == t.dst && x.use == t.use)
        (fld sh.payload 0 4 = 1 → exec (.partAck q sh cr) s = s.ends (d.putTransfer { t with
          acked := if t.acked.contains part then t.acked else part :: t.acked
          waits := t.waits.filter fun w => w.1 != part })) ∧
        (fld sh.payload 0 4 = 2 → SMap.at t.tries part 0 < 3 → exec (.partNak q sh cr) s =
          s.ends ((d.bump Reg.PARTNER_RESENDS 0).putTransfer { t with
            tries := SMap.put t.tries part (SMap.at t.tries part 0 + 1)
            waits := t.waits.filter fun w => w.1 != part
            again := t.again ++ [(part, fld sh.payload 8 2)] })) ∧
        (fld sh.payload 0 4 = 2 → 3 ≤ SMap.at t.tries part 0 → exec (.partNak q sh cr) s =
          s.ends (if t.use = 0 then (d.abandon t).raise pgPartner 0x0D01 8 Sev.warn (t.dst + 2 ^ 19) else d.abandon t)) ∧
        (fld sh.payload 0 4 = 3 → exec (.manifestAck q sh cr) s =
          s.ends (if t.use = 0 then (d.setTransfers others).p Reg.PARTNER_OWN_COPY 2 else d.setTransfers others)) ∧
        (fld sh.payload 0 4 = 4 → let e := d.putTransfer { t with bad := true, waits := [], again := [] }
          exec (.manifestBad q sh cr) s = s.ends (if t.use = 0 then e.p Reg.PARTNER_OWN_COPY 3 else e)))) ∧
    (∀ (use : BitVec 2) (part : BitVec 24),
      (d.recvMember use.toNat = none → exec (.partAnswer use part) s = s.ends d) ∧
      (∀ mem', d.recvMember use.toNat = some mem' →
        let ps := d.partsOf mem'
        let n := piecesOf (if part.toNat = manifestNo then manifestLen ps else partLen (ps.getD part.toNat (0, 0, 0, 0)))
        let held := fun k => d.recov.got.contains (use.toNat, part.toNat, k)
        let sp := if use = 0 then d.stepNo - 1 else SMap.at d.recov.gotStep use.toNat 0
        (held (n - 1) = false → exec (.partAnswer use part) s = s.ends d) ∧
        (∀ k, held (n - 1) = true → k < n → held k = false → (∀ j, j < k → held j = true) →
          exec (.partAnswer use part) s = s.ends (d.answer use.toNat 2 part.toNat k)) ∧
        ((∀ j, j < n → held j = true) → part.toNat ≠ manifestNo → exec (.partAnswer use part) s = s.ends (d.answer use.toNat 1 part.toNat 0)) ∧
        ((∀ j, j < n → held j = true) → part.toNat = manifestNo → exec (.partAnswer use part) s =
          match d.badPart (d.arrived s.mem use.toNat ps ps.length) mem' ps (d.arrived s.mem use.toNat ps) with
          | some i => s.ends ((if use = 1 then d else
              (d.p Reg.PARTNER_ATTIC_STATE 3).raise pgPartner 0x0D03 10 Sev.error i).answer use.toNat 4 part.toNat 0)
          | none =>
            s.ends ((if use = 1 then d else ((d.p Reg.PARTNER_ATTIC_STATE 2).p64 Reg.PARTNER_ATTIC_STEP_LO Reg.PARTNER_ATTIC_STEP_HI sp).raise
              pgPartner 0x0D02 9 Sev.info (sp % 2 ^ 32)).answer use.toNat 3 part.toNat 0))) ∧
      ((d.recov.transfers.find? fun t => t.use == use.toNat) = none → exec (.partRetry use part) s = s.ends d) ∧
      (∀ t, (d.recov.transfers.find? fun t => t.use == use.toNat) = some t →
        ((t.waits.find? fun w => w.1 == part.toNat) = none → exec (.partRetry use part) s = s.ends d) ∧
        (∀ w, (t.waits.find? fun w => w.1 == part.toNat) = some w →
          (d.beatNum < w.2 + d.g Reg.PARTNER_RETRY_BEATS → exec (.partRetry use part) s = s.ends d) ∧
          (w.2 + d.g Reg.PARTNER_RETRY_BEATS ≤ d.beatNum →
            let ps := d.partsOf (d.transferMember t)
            exec (.partRetry use part) s = s.ends (d.sendAgain t part.toNat
              (piecesOf (if part.toNat = manifestNo then manifestLen ps else partLen (ps.getD part.toNat (0, 0, 0, 0))) - 1))))))

/-- R496 to R503: external drains and restores. A DRAIN channel that serves sends the parts, 64 KiB at a time, in the slack window and the manifest
once all are sent; an ACK of the manifest ends the drain with 0x0D05. Data of the fetch in progress is kept, and the next is asked for until all is
held; other messages change nothing; a supplied ledger digest is kept. A restore whose epoch was acted on does nothing; one acted on begins: a package
that stays what it was fetches from outside, or is ready with 0x0D06; a spare taken into use raises 0x0D08. What is held whole is checked: it becomes
live, READY with 0x0D06, or the restore FAILS with 0x0D07 and the first part that does not match. -/
def Obligations.DrainsAndRestores : Prop :=
  ∀ (s : State), let d := s.dev.start
    (∀ h : BitVec 32,
      (d.slackOpen = false ∨ d.recov.ext = none ∨ d.chan h.toNat = none ∨ kindOf h.toNat ≠ Kd.drain → exec (.externalDrainSend h) s = s.ends d) ∧
      (∀ c x, d.chan h.toNat = some c → d.recov.ext = some x → kindOf h.toNat = Kd.drain → d.slackOpen = true →
        let me := d.self.getD 0
        let ps := d.partsOf me
        let bytes := fun i => d.partBytes' s.mem (ps.getD i (0, 0, 0, 0))
        let put := fun (e : Dev) (x' : ExtDrain) => ({ e with recov := { e.recov with ext := some x' } } : Dev)
        (d.drainServes c = false → exec (.externalDrainSend h) s = s.ends d) ∧
        (∀ i off, d.drainServes c = true → (x.active.find? fun a => a.1 == h.toNat) = some (h.toNat, i, off) →
          let b := (bytes i).drop off
          let rest := x.active.filter fun a => a.1 != h.toNat
          exec (.externalDrainSend h) s = s.ends (put (d.queueMsg c.sess h.toNat (drainMsg 1 i x.step off (min 65536 b.length) (b.take 65536)))
            { x with active := if 65536 < b.length then rest ++ [(h.toNat, i, off + 65536)] else rest })) ∧
        (d.drainServes c = true → (x.active.find? fun a => a.1 == h.toNat) = none →
          (x.next < ps.length → let b := bytes x.next
            exec (.externalDrainSend h) s = s.ends (put (d.queueMsg c.sess h.toNat (drainMsg 1 x.next x.step 0 (min 65536 b.length) (b.take 65536)))
              { x with
                next := x.next + 1
                digests := x.digests ++ [shake256 b]
                active := if 65536 < b.length then x.active ++ [(h.toNat, x.next, 65536)] else x.active })) ∧
          (ps.length ≤ x.next → x.manifestSent = true ∨ x.active ≠ [] → exec (.externalDrainSend h) s = s.ends d) ∧
          (ps.length ≤ x.next → x.manifestSent = false → x.active = [] → let b := d.manifest me x.step true ps x.digests
            exec (.externalDrainSend h) s = s.ends (put ((pieces 65536 ((b.length + 65535) / 65536) b).zipIdx.foldl (fun (d : Dev) y =>
              d.queueMsg c.sess h.toNat (drainMsg 2 0xFFFFFFFF x.step (65536 * y.2) y.1.length y.1)) d) { x with manifestSent := true })))) ∧
      (d.takeMessage h.toNat Kd.drain = none → exec (.drainAck h) s = s.ends d ∧ exec (.drainData h) s = s.ends d ∧
        exec (.drainLedger h) s = s.ends d) ∧
      (∀ c m e, d.takeMessage h.toNat Kd.drain = some (c, m, e) →
        (e.recov.ext = none → exec (.drainAck h) s = s.ends e) ∧
        (∀ x, e.recov.ext = some x →
          let mine := fld m 0 4 = 3 ∧ fld m 8 8 = x.step ∧ m.length = 32
          let part := fld m 4 4
          (¬ mine ∨ (part = 0xFFFFFFFF ∧ x.manifestSent = false) ∨ (part ≠ 0xFFFFFFFF ∧ (part ∈ x.acked ∨ x.next ≤ part)) →
            exec (.drainAck h) s = s.ends e) ∧
          (mine → part = 0xFFFFFFFF → x.manifestSent = true → exec (.drainAck h) s =
            s.ends (((({ e with recov := { e.recov with ext := none } } : Dev).p Reg.DRAIN_STATE 2).p64 Reg.DRAIN_LAST_STEP_LO
              Reg.DRAIN_LAST_STEP_HI x.step).raise pgDrain 0x0D05 8 Sev.info (x.step % 2 ^ 32))) ∧
          (mine → part < x.next → part ≠ 0xFFFFFFFF → part ∉ x.acked → exec (.drainAck h) s =
            s.ends (({ e with recov := { e.recov with ext := some { x with acked := part :: x.acked } } } : Dev).bump Reg.DRAIN_PARTS_SENT 0))) ∧
        (exec (.drainLedger h) s =
          s.ends (if fld m 0 4 = 6 ∧ m.length = 64 then { e with recov := { e.recov with ledgerDigest := some (m.drop 32) } } else e)) ∧
        (e.recov.fetch = none ∨ e.self = none → exec (.drainData h) s = s.ends e) ∧
        (∀ i off me, e.recov.fetch = some (i, off) → e.self = some me →
          let ps := e.partsOf me
          let len := if i < ps.length then partLen (ps.getD i (0, 0, 0, 0)) else manifestLen ps
          let no := if i < ps.length then i else manifestNo
          let n := fld m 0x14 4
          let asked := fld m 0 4 = 5 ∧ fld m 4 4 = (if i < ps.length then i else 0xFFFFFFFF) ∧ fld m 0x10 4 = off ∧ m.length = 32 + n ∧
            n = min 65536 (len - off)
          let next := if i = ps.length then 0 else i + 1
          let kept : RecSt := { e.recov with
            held := SMap.put e.recov.held no (SMap.at e.recov.held no [] ++ m.drop 32)
            fetch := if off + n < len then some (i, off + n) else if next < ps.length then some (next, 0) else none }
          (¬ asked → exec (.drainData h) s = s.ends e) ∧
          (asked → off + n < len → exec (.drainData h) s = s.ends (({ e with recov := kept } : Dev).fetchNext ps)) ∧
          (asked → len ≤ off + n → let f := if i < ps.length then ({ e with recov := kept } : Dev).bump Reg.RESTORE_PARTS_DONE 0 else { e with recov := kept }
            exec (.drainData h) s = s.ends ((if next < ps.length then f else f.p Reg.RESTORE_STATE 2).fetchNext ps))))) ∧
    (d.g Reg.RESTORE_EPOCH = d.recov.epoch ∨ d.plan.draft = [] → exec .restoreStart s = s.ends d) ∧
    (d.g Reg.RESTORE_EPOCH ≠ d.recov.epoch → d.plan.draft ≠ [] → ∃ t, exec .restoreStart s = .next t ∧
      t.mem = s.mem ∧ t.pending = s.pending ∧ t.dev.recov.epoch = d.g Reg.RESTORE_EPOCH ∧ t.dev.recov.restored = none ∧ t.dev.recov.held = [] ∧
      t.dev.g Reg.RESTORE_PARTS_DONE = 0 ∧ (d.g Reg.RESTORE_LIST_COUNT = 0 → t.dev.plan.replaced = d.plan.replaced) ∧
      (∀ me, d.self = some me → t.dev.self = d.self →
        (d.g Reg.RESTORE_SOURCE = 1 → t.dev.g Reg.RESTORE_STATE = 1 ∧ t.dev.g Reg.PARTNER_ATTIC_STATE = 0 ∧
          t.dev.recov.fetch = some ((d.partsOf me).length, 0)) ∧
        (d.g Reg.RESTORE_SOURCE = 0 → t.dev.g Reg.RESTORE_STATE = 3 ∧ bit (t.dev.hd Hdr.EVT_BLOCK pgRestore) 0 = true)) ∧
      (t.dev.self ≠ none → t.dev.self ≠ d.self → t.dev.g Reg.SPARES_ROLE = 3 ∧ bit (t.dev.hd Hdr.EVT_BLOCK pgRestore) 2 = true)) ∧
    (d.self = none ∨ (d.g Reg.RESTORE_STATE ≠ 1 ∧ d.g Reg.RESTORE_STATE ≠ 2) → exec .restoreAccept s = s.ends d) ∧
    (∀ me, d.self = some me → d.g Reg.RESTORE_STATE = 1 ∨ d.g Reg.RESTORE_STATE = 2 →
      let ps := d.partsOf me
      let ext := decide (d.g Reg.RESTORE_SOURCE = 1)
      let whole := if ext then d.recov.fetch.isNone && (SMap.find d.recov.held manifestNo).isSome else d.refilled ps
      let read := fun i => if ext then SMap.at d.recov.held (if i < ps.length then i else manifestNo) [] else d.arrived s.mem 1 ps i
      let man := read ps.length
      let digest := (List.range 8).flatMap fun i => natLe 4 (d.g Reg.RESTORE_MANIFEST_DIGEST i)
      let fails := fun (i : Nat) => s.ends ((d.p Reg.RESTORE_STATE 4).raise pgRestore 0x0D07 9 Sev.error i)
      (whole = false → exec .restoreAccept s = s.ends d) ∧
      (∀ i, whole = true → d.badPart man me ps read = some i → exec .restoreAccept s = fails i) ∧
      (whole = true → d.badPart man me ps read = none → ext = true → shake256 man ≠ digest → exec .restoreAccept s = fails 0xFFFFFFFF) ∧
      (whole = true → d.badPart man me ps read = none → (ext = true → shake256 man = digest) → ∃ t, exec .restoreAccept s = .next t ∧
        t.pending = s.pending ∧ t.dev.recov.restored = some (fld man 8 8) ∧ t.dev.recov.held = [] ∧ t.dev.g Reg.RESTORE_STATE = 3 ∧
        bit (t.dev.hd Hdr.EVT_BLOCK pgRestore) 0 = true ∧ t.mem = Mem.apply s.mem (d.makeLive ext ps read).writes))

/-! ## Resets, pins, bring-up and the selvedge (R21 to R24, R527 to R544, R554) -/

/-- R5, R21, R528 to R533, R541, R543: resets. A package reset keeps fuses, MRAM, the keys, and the fault map with what was due for it; everything
else is lost, and the fallback budget is in force. POWER_ON, RESET_N and THERMTRIP hold the package in reset; the reset ends once no source holds
it, its last source recorded and the fuses sensed, and lasts 6.6 µs more. A reset request needs the key and an existing domain and is due 100 µs
later; a domain reset that is not due does nothing; one that is due is recorded and raises 0x0F03. R24, R483, R533, R540, R542: managers and pins.
A watchdog counts only while the keeper runs: every region falls back to DENSITY 7, and a ready standby takes over, which is recorded and raises
0x0F05; without one the package is reset. A die whose safety pair disagrees is forced into the shelf state and reset. Pins have no state without
power; THERMTRIP_N is pulled low after a trip; the AVS pins follow their fuse-map code, PULL_UP until the fuses are sensed, until the keeper takes
the pins over at SL1; TDO does not drive at rest, and transmitters stay in electrical idle until then. -/
def Obligations.ResetsAndPins : Prop :=
  ((∀ d : Dev, let e := d.clearAll
    e.writes = [.clear 0 memEnd] ∧ e.rst.held = true ∧ e.faults = d.nextFaults ∧ e.due = [] ∧ e.now = d.now ∧ e.units = [] ∧ e.queues = [] ∧
    e.shadow = [] ∧ e.timerOn = false ∧ e.step = {} ∧ e.plan = {} ∧ e.route = {} ∧ e.links = [] ∧ e.recov = {} ∧ e.power = {} ∧
    e.host.sessions = [] ∧ e.sec.leaseKey = d.sec.leaseKey ∧ e.sec.resetKey = d.sec.resetKey ∧ e.sec.cak = d.sec.cak ∧
    e.sec.records = d.sec.records ∧ e.g Reg.LEASE_B_EFF = e.g Reg.LEASE_FALLBACK_W ∧ e.g Reg.LEASE_P_EFF = e.g Reg.LEASE_FALLBACK_W ∧
    (∀ k, keptKey k = true → k ∉ fieldKeys 0 [Reg.LEASE_B_EFF, Reg.LEASE_P_EFF] → SMap.find e.regs k = SMap.find d.regs k)) ∧
  (∀ s : State, let d := s.dev.start
    (exec .powerOn s = s.endsStore d.powerOn ∧ d.powerOn.rst.held = true ∧ d.powerOn.rst.power = false ∧ d.powerOn.rst.trip = false ∧
      d.powerOn.rst.sensed = false ∧ d.powerOn.rst.cause = 1) ∧
    (exec .resetN s = s.endsStore d.resetLow ∧ d.resetLow.rst.held = true ∧ d.resetLow.rst.low = true ∧ d.resetLow.rst.cause = 2) ∧
    (d.rst.trip = false → exec .thermtrip s = s.endsStore d.thermtrip ∧ d.thermtrip.rst.held = true ∧ d.thermtrip.rst.trip = true ∧
      d.thermtrip.g Reg.RST_SRC_LAST_SOURCE = 4) ∧
    (d.rst.trip = true → exec .thermtrip s = s.ends d) ∧
    (∀ x ∈ [(Instr.powerGoodRise, d.rst.power, { d.rst with power := true, cause := 1 }),
        (.resetNRelease, ! d.rst.low, { d.rst with low := false, cause := 2 })],
      let free := x.2.2.held = true ∧ x.2.2.power = true ∧ x.2.2.low = false ∧ x.2.2.refclk = true ∧ x.2.2.trip = false
      (x.2.1 = true → exec x.1 s = s.ends d) ∧
      (x.2.1 = false → ¬ free → exec x.1 s = s.ends (d.setRst x.2.2)) ∧
      (x.2.1 = false → free → ∃ t, exec x.1 s = .next t ∧ t.mem = s.mem ∧ t.pending = s.pending ∧ t.dev.rst.held = false ∧
        t.dev.rst.power = true ∧ t.dev.rst.low = false ∧ t.dev.rst.sensed = true ∧ t.dev.rst.runsTo = d.now + 66 ∧ t.dev.relAt = d.now ∧
        t.dev.g Reg.RST_SRC_LAST_SOURCE = x.2.2.cause ∧ t.dev.g Reg.RST_SRC_LAST_DOMAIN = 0 ∧
        (d.sec.images = [] → d.sec.confirmed = 0 → d.g Reg.FUSE_KEYS_FW_PENDING = 0 → t.dev.rst.booted = true ∧ t.dev.g Reg.FUSE_KEYS_FW_ACTIVE = 0 ∧
          t.dev.g Reg.FUSE_KEYS_BOOT_CODE_A = 0))) ∧
    (∃ t, exec .refclkReturn s = .next t ∧ t.mem = s.mem ∧ t.pending = s.pending ∧ t.dev.rst.refclk = true ∧
      (d.rst.held = false → t.dev.now = d.now ∧ ∀ die ∈ allDies, 4 ∉ (t.dev.shelfOf die).causes)) ∧
    (∀ (r : Requester) (w : BitVec 32), s.accepts r pgRstSrc 0x084 true → let dom := bits w.toNat 0 4; let inst := bits w.toNat 4 12
      (bits w.toNat 16 16 ≠ 0xA5C3 ∨ domOk dom inst = false → exec (.rstSrcReq r w) s = s.ends (d.done 11)) ∧
      (bits w.toNat 16 16 = 0xA5C3 → domOk dom inst = true → exec (.rstSrcReq r w) s =
        s.ends ((d.setRst { d.rst with due := d.rst.due ++ [⟨dom, inst, 6, d.now + us 100⟩] }).done 0))) ∧
    (∀ (dom : BitVec 4) (inst : BitVec 12), let due := d.rst.due.find? fun x => x.dom == dom.toNat && x.inst == inst.toNat
      (due = none → exec (.domainReset dom inst) s = s.ends d) ∧
      (∀ x, due = some x → let e := (d.setRst { d.rst with due := d.rst.due.erase x }).passTo x.at'
        exec (.domainReset dom inst) s = s.endsStore (e.domReset dom.toNat inst.toNat x.src) ∧
        (dom = 0 → e.domReset dom.toNat inst.toNat x.src = e.packageResetFrom x.src) ∧
        (dom ≠ 0 → e.rst.held = true ∨ e.now < e.rst.runsTo → e.domReset dom.toNat inst.toNat x.src = e) ∧
        (domOk dom.toNat inst.toNat = true → dom ≠ 0 → e.rst.drain = [] → e.rst.held = false → e.rst.runsTo ≤ e.now → ¬ (dom = 1 ∧ inst.toNat = e.managerDie) →
          let f := e.domReset dom.toNat inst.toNat x.src
          f.g Reg.RST_SRC_LAST_SOURCE = x.src % 2 ^ Reg.RST_SRC_LAST_SOURCE.width ∧ f.g Reg.RST_SRC_LAST_DOMAIN = dom.toNat ∧
            f.g Reg.RST_SRC_LAST_INST = inst.toNat ∧ bit (f.hd Hdr.EVT_BLOCK pgRstSrc) 1 = true))))) ∧
  ((∀ s : State, let d := s.dev.start
    (d.rst.held = true ∨ d.level = 0 → exec .watchdog s = s.ends d) ∧
    (d.rst.held = false → d.level ≠ 0 → d.standbyReady = true → ∃ t, exec .watchdog s = .next t ∧ t.mem = s.mem ∧ t.pending = s.pending ∧
      t.dev.g Reg.RST_SRC_MANAGER = 1 - d.g Reg.RST_SRC_MANAGER ∧ t.dev.g Reg.RST_SRC_LAST_SOURCE = 3 ∧ t.dev.level = d.level ∧
      (∀ r ∈ d.inRegions, t.dev.rd Reg.RCLOCK_DENSITY r = 7) ∧ bit (t.dev.hd Hdr.EVT_BLOCK pgRstSrc) 2 = true) ∧
    (d.rst.held = false → d.level ≠ 0 → d.standbyReady = false → d.rst.power = true → d.rst.low = false → d.rst.refclk = true →
      d.rst.trip = false → d.rst.cause = 0 → ∃ t, exec .watchdog s = .next t ∧ t.pending = s.pending ∧ (∀ a, a < memEnd → Mem.read t.mem a = 0) ∧
        t.dev.g Reg.RST_SRC_LAST_SOURCE = 3 ∧ t.dev.level = 0 ∧ t.dev.rst.held = false) ∧
    (∀ q : BitVec 2, let die := 1024 * q.toNat
      (d.rst.held = true ∨ dieOut d.faults die = true → exec (.lockstep q) s = s.ends d) ∧
      (d.rst.held = false → dieOut d.faults die = false → exec (.lockstep q) s =
        s.endsStore (((d.shelve die 5).domReset 1 die 5).unshelve die 5)))) ∧
  (∀ d : Dev,
    (d.rst.power = false → ∀ p, d.pin p = .unpowered) ∧
    (d.rst.power = true → d.pin .thermtripN = (if d.rst.trip then .pulledLow else .released) ∧ d.pin .tdo = .hiZ ∧
      (∀ p ∈ [Pin.resetN, .pwrGood, .tck, .tms, .tdi, .trstN], d.pin p = .input (d.pinFuse p == 0)) ∧
      (∀ n, d.pin (.feedSel n) = .input (d.pinFuse (.feedSel n) == 0)) ∧
      (d.level = 0 →
        (∀ q, d.pin (.avsClk q) = pinCode (d.pinFuse (.avsClk q)) ∧ d.pin (.avsMdata q) = pinCode (d.pinFuse (.avsMdata q))) ∧
        (∀ q l, d.pin (.linkTx q l) = .idle) ∧ (∀ q l, d.pin (.hostTx q l) = .idle)) ∧
      (d.level ≠ 0 → (∀ q, d.pin (.avsClk q) = .inUse ∧ d.pin (.avsMdata q) = .inUse) ∧ (∀ q l, d.pin (.linkTx q l) = .inUse) ∧
        (∀ q l, d.pin (.hostTx q l) = .inUse))) ∧
    (d.rst.sensed = false → ∀ p, d.pinFuse p = 0)))

/-- R21 to R24, R28, R536 to R539, R544: bring-up. SL1 is entered from level 0 with an image entered, starts the beat timer and raises 0x0F01; SL2 and
SL3 wait for self-tests, trainings and STOP_AT. What fails a self-test that is due joins the fault map or what is due for it; a self-test that is
not due, and a training of a stack that is not training, do nothing; a third failed training fails the stack. STOP_AT and RESUME write their
fields; an authenticated clear takes entries out of the fault map. R22 to R24, R541, R554: the selvedge and the test port. A block that no die
sends that way, or one over a failed edge, does not arrive; one whose CRC fails is asked for again three times, and then its edge has failed;
while an end of the edge is being reset it is dropped. A sound one is written where its die ends the way, within a larder or a stack of it, and
goes on over the next edge otherwise. The test port's instruction is held; IDCODE shifts the code out, BYPASS a 0, and the boundary instructions a
free value (assumption 94). -/
def Obligations.BringUpAndSelvedge : Prop :=
  (∀ (s : State), let d := s.dev.start
    (∀ (m : BitVec 16) (f0 f1 f2 : BitVec 6),
      (d.rst.held = true ∨ d.rst.booted = false ∨ d.level ≠ 0 → exec (.bringupSl1 m f0 f1 f2) s = s.ends d) ∧
      (d.rst.held = false → d.rst.booted = true → d.level = 0 → ∃ t, exec (.bringupSl1 m f0 f1 f2) s = .next t ∧ t.mem = s.mem ∧
        t.pending = s.pending ∧ t.dev.level = 1 ∧ t.dev.timerOn = true ∧ t.dev.now = max d.now (max d.rst.runsTo (d.relAt + ms m.toNat)) ∧
        t.dev.rst.strap = (if f0 = f1 ∧ f1 = f2 then f0.toNat else 63) ∧ t.dev.faults = d.faults ∧
        bit (t.dev.hd Hdr.EVT_BLOCK pgBringup) 0 = true)) ∧
    (∀ m : BitVec 16,
      let tested := ∀ die ∈ d.inDies, (∀ r ∈ regionsOf die, regionOut d.faults r = true) ∨ bit (d.g Reg.BRINGUP_REGION_DONE) (d.sl2Region die / 256) = true
      let ready := (∀ k, k < 8 → stackOut d.faults k = true ∨ bit (d.g Reg.BRINGUP_STACK_READY) k = true) ∧
        (∀ r ∈ d.inRegions, bit (d.g Reg.BRINGUP_REGION_DONE) (r / 256) = true) ∧
        ((∀ p, p < 32 → d.phy p ≠ 2) ∨ d.rst.sl2At + ms 2000 ≤ max d.now (d.relAt + ms m.toNat))
      (d.level ≠ 1 ∨ d.stopped = true ∨ ¬ tested → exec (.bringupSl2 m) s = s.ends d) ∧
      (d.level = 1 → d.stopped = false → tested → ∃ t, exec (.bringupSl2 m) s = .next t ∧ t.mem = s.mem ∧ t.pending = s.pending ∧
        t.dev.level = 2 ∧ t.dev.now = max d.now (d.relAt + ms m.toNat) ∧ t.dev.rst.sl2At = t.dev.now ∧
        bit (t.dev.hd Hdr.EVT_BLOCK pgBringup) 0 = true) ∧
      (d.level ≠ 2 ∨ d.stopped = true ∨ ¬ ready → exec (.bringupSl3 m) s = s.ends d) ∧
      (d.level = 2 → d.stopped = false → ready → ∃ t, exec (.bringupSl3 m) s = .next t ∧ t.mem = s.mem ∧ t.pending = s.pending ∧ t.dev.level = 3 ∧
        t.dev.g Reg.BRINGUP_FAIL_RUN = 0 ∧ bit (t.dev.hd Hdr.EVT_BLOCK pgBringup) 0 = true)) ∧
    (∀ r : Requester, s.accepts r pgBringup 0x080 true →
      (∀ v : BitVec 2, let e := d.p Reg.BRINGUP_STOP_AT v.toNat
        let stops := (d.level = 1 ∧ v = 1) ∨ (d.level = 2 ∧ v ≠ 3)
        (v = 0 → exec (.bringupStopAt r v) s = s.ends (d.done 0)) ∧
        (v ≠ 0 → d.stopped = true ∨ ¬ stops → exec (.bringupStopAt r v) s = s.ends (e.done 0)) ∧
        (v ≠ 0 → d.stopped = false → stops → exec (.bringupStopAt r v) s = s.ends ((e.raise pgBringup 0x0F09 13 Sev.info v.toNat).done 0))) ∧
      exec (.bringupResume r) s = s.ends (((d.p Reg.BRINGUP_HALTED 0).p Reg.BRINGUP_FAIL_RUN 0).done 0)) ∧
    (∀ (l : BitVec 2) (i : BitVec 12) (xs : List (BitVec 2 × BitVec 12)), let e := d.endOfResets (scopePages l.toNat i.toNat)
      (e.testDue l.toNat i.toNat = false → exec (.selfTestDone l i xs) s = s.ends d) ∧
      (e.testDue l.toNat i.toNat = true → d.rst.held = false → ∃ t, exec (.selfTestDone l i xs) s = .next t ∧ t.pending = s.pending ∧
        (∀ x ∈ xs, 1 ≤ x.1.toNat → x.1.toNat ≤ l.toNat → (faultPages (x.1.toNat, x.2.toNat)).headD 0 ∈ scopePages l.toNat i.toNat →
          (x.1.toNat, x.2.toNat) ∈ t.dev.faults ∨ (x.1.toNat, x.2.toNat) ∈ t.dev.due) ∧
        (xs = [] → t.mem = s.mem ∧ t.dev.faults = d.faults ∧ (l = 3 → bit (t.dev.g Reg.BRINGUP_REGION_DONE) (i.toNat / 256) = true)))) ∧
    (∀ q : BitVec 3, let k := q.toNat; let i := hbmInst k
      (d.rd Reg.HBM_CTL_STATE i ≠ 1 → ∀ ok, exec (.hbmTrainDone q ok) s = s.ends d) ∧
      (d.rd Reg.HBM_CTL_STATE i = 1 →
        (∃ t, exec (.hbmTrainDone q true) s = .next t ∧ t.mem = s.mem ∧ t.pending = s.pending ∧ t.dev.rd Reg.HBM_CTL_STATE i = 2 ∧
          bit (t.dev.g Reg.BRINGUP_STACK_READY) k = true) ∧
        (SMap.at d.rst.tries k 0 < 2 → exec (.hbmTrainDone q false) s =
          s.ends (d.setRst { d.rst with tries := SMap.put d.rst.tries k (SMap.at d.rst.tries k 0 + 1) })) ∧
        (2 ≤ SMap.at d.rst.tries k 0 → ∃ t, exec (.hbmTrainDone q false) s = .next t ∧ t.pending = s.pending ∧
          ((5, k) ∈ t.dev.faults ∨ (5, k) ∈ t.dev.due) ∧
          (d.plan.live ≠ none → t.mem = s.mem ∧ t.dev.rd Reg.HBM_CTL_STATE i = 3 ∧
            bit (t.dev.g Reg.BRINGUP_STACK_FAILED) k = true ∧ bit (t.dev.hd Hdr.EVT_BLOCK pgBringup) 4 = true)))) ∧
    (∀ (xs : List (BitVec 3 × BitVec 12)) (auth : Bool),
      (auth = false ∨ d.rst.held = true → exec (.faultMapClear auth xs) s = s.ends d) ∧
      (auth = true → d.rst.held = false → ∃ t, exec (.faultMapClear auth xs) s = .next t ∧ t.mem = s.mem ∧ t.pending = s.pending ∧
        t.dev.faults = d.faults.filter fun x => ! (xs.map fun y => (y.1.toNat, y.2.toNat)).contains x))) ∧
  (∀ (s : State), let d := s.dev.start
    (∀ (e : BitVec 2) (back : Bool) (dst : BitVec 2) (dest : BitVec 48) (b : List Byte) (c : BitVec 32),
      let k := resendKey e.toNat back dst.toNat dest.toNat
      let n := SMap.at d.rst.resends k 0
      let here := edgeTo e.toNat back
      let kept := d.setRst { d.rst with resends := SMap.del d.rst.resends k }
      let run := exec (.selvedgeBlockReceive e back dst dest b c) s
      let way := d.edgeAhead (edgeFrom e.toNat back) dst.toNat = (e.toNat, back)
      (d.rst.held = true ∨ d.rst.edges.contains e.toNat = true ∨ ¬ way → run = s.ends d) ∧
      (d.rst.held = false → d.rst.edges.contains e.toNat = false → way →
        (b.length ≠ 4096 ∨ crc32 b ≠ c.toNat → d.edgeSuspended e.toNat = true → run = s.ends d) ∧
        (b.length ≠ 4096 ∨ crc32 b ≠ c.toNat → d.edgeSuspended e.toNat = false → n < 3 → run =
          s.ends ((d.setRst { d.rst with resends := SMap.put d.rst.resends k (n + 1) }).send (.selvedgeResend e.toNat back dst.toNat dest.toNat))) ∧
        (b.length ≠ 4096 ∨ crc32 b ≠ c.toNat → d.edgeSuspended e.toNat = false → 3 ≤ n → run = s.endsStore (kept.edgeFails e.toNat)) ∧
        (b.length = 4096 → crc32 b = c.toNat → dst.toNat = here → run =
          s.endsStore (if placeIn dst.toNat dest.toNat 4096 then kept.poke dest.toNat b else kept)) ∧
        (b.length = 4096 → crc32 b = c.toNat → dst.toNat ≠ here → let x := d.edgeAhead here dst.toNat
          run = s.ends (kept.send (.selvedge x.1 x.2 dst.toNat dest.toNat b))))) ∧
    (exec (.testPortInstruction .idcode) s = s.ends (({ d with testInstr := .idcode } : Dev).send (.testOut idcode)) ∧
      exec (.testPortInstruction .bypass) s = s.ends (({ d with testInstr := .bypass } : Dev).send (.testOut 0)) ∧
      ∀ x ∈ [TestInstr.sample, .drivePins], ∃ t v, exec (.testPortInstruction x) s = .next t ∧ t.mem = s.mem ∧ t.pending = s.pending ∧
        t.dev.testInstr = x ∧ t.dev.regs = s.dev.regs ∧ t.dev.out = [.testOut v]))
end

