-- ==== Sys2Proof/Laws/Store.lean ====
section
/-! SUPPORT. The laws of the sparse tables and of the byte store (read after write, and the canonical form), and the size of a CRC. -/

namespace Sys2Proof.Machine

theorem SMap.find_put_same {β : Type} (m : SMap β) (q : Nat) (x : β) : SMap.find (SMap.put m q x) q = some x := by
  induction m with
  | nil => simp [SMap.put, SMap.find]
  | cons e m ih =>
    obtain ⟨k, v⟩ := e
    simp only [SMap.put]
    split
    · simp [SMap.find]
    · split
      · simp [SMap.find]
      · simp_all [SMap.find]

theorem SMap.find_put_ne {β : Type} (m : SMap β) {q p : Nat} (x : β) (h : p ≠ q) :
    SMap.find (SMap.put m q x) p = SMap.find m p := by
  induction m with
  | nil => simp [SMap.put, SMap.find, h]
  | cons e m ih =>
    obtain ⟨k, v⟩ := e
    simp only [SMap.put]
    split
    · simp [SMap.find, h]
    · split
      · subst_vars; simp [SMap.find, h]
      · simp only [SMap.find, ih]

theorem SMap.find_filter {β : Type} (m : SMap β) (p : Nat → Bool) (q : Nat) :
    SMap.find (m.filter fun e => p e.1) q = if p q then SMap.find m q else none := by
  induction m with
  | nil => simp [SMap.find]
  | cons e m ih =>
    obtain ⟨k, v⟩ := e
    by_cases hk : p k = true
    · rw [List.filter_cons_of_pos (by simpa using hk), SMap.find, ih, SMap.find]
      by_cases hq : q = k
      · subst hq; simp [hk]
      · simp [hq]
    · rw [List.filter_cons_of_neg (by simpa using hk), ih]
      by_cases hq : q = k
      · subst hq; simp [hk]
      · simp [SMap.find, hq]

theorem SMap.find_del {β : Type} (m : SMap β) (q p : Nat) :
    SMap.find (SMap.del m q) p = if p = q then none else SMap.find m p := by
  rw [SMap.del, SMap.find_filter m (fun k => decide (k ≠ q)) p]
  by_cases h : p = q <;> simp [h]

theorem SMap.find_cut {β : Type} (m : SMap β) (lo hi p : Nat) :
    SMap.find (SMap.cut m lo hi) p = if p < lo ∨ hi ≤ p then SMap.find m p else none := by
  rw [SMap.cut, SMap.find_filter m (fun k => decide (k < lo ∨ hi ≤ k)) p]
  by_cases h : p < lo ∨ hi ≤ p <;> simp [h]

theorem SMap.find_putD_same {β : Type} [DecidableEq β] (m : SMap β) (q : Nat) (x d : β) :
    SMap.find (SMap.putD m q x d) q = if x = d then none else some x := by
  unfold SMap.putD
  split
  · simp [SMap.find_del]
  · exact SMap.find_put_same m q x

theorem SMap.find_putD_ne {β : Type} [DecidableEq β] (m : SMap β) {q p : Nat} (x d : β) (h : p ≠ q) :
    SMap.find (SMap.putD m q x d) p = SMap.find m p := by
  unfold SMap.putD
  split
  · simp [SMap.find_del, h]
  · exact SMap.find_put_ne m x h

@[simp] theorem SMap.at_putD_same {β : Type} [DecidableEq β] (m : SMap β) (q : Nat) (x d : β) :
    SMap.at (SMap.putD m q x d) q d = x := by
  simp only [SMap.at, SMap.find_putD_same]
  split <;> simp_all

theorem SMap.at_putD_ne {β : Type} [DecidableEq β] (m : SMap β) {q p : Nat} (x d e : β) (h : p ≠ q) :
    SMap.at (SMap.putD m q x d) p e = SMap.at m p e := by simp [SMap.at, SMap.find_putD_ne m x d h]

@[simp] theorem SMap.at_put_same {β : Type} (m : SMap β) (q : Nat) (x d : β) : SMap.at (SMap.put m q x) q d = x := by
  simp [SMap.at, SMap.find_put_same]

theorem SMap.at_put_ne {β : Type} (m : SMap β) {q p : Nat} (x d : β) (h : p ≠ q) :
    SMap.at (SMap.put m q x) p d = SMap.at m p d := by simp [SMap.at, SMap.find_put_ne m x h]

/-! ## The byte store -/

@[simp] theorem Mem.read_write_same (m : Mem) (a : Nat) (b : Byte) : Mem.read (Mem.write m a b) a = b := by
  simp [Mem.read, Mem.write]

theorem Mem.read_write_ne (m : Mem) {a c : Nat} (b : Byte) (h : c ≠ a) : Mem.read (Mem.write m a b) c = Mem.read m c := by
  simp [Mem.read, Mem.write, SMap.at_putD_ne m b Mem.unlisted Mem.unlisted h]

/-- Bytes outside the ones written read as before. -/
theorem Mem.read_writeAll_out (bs : List Byte) : ∀ (m : Mem) (a c : Nat), ¬ (a ≤ c ∧ c < a + bs.length) →
    Mem.read (Mem.writeAll m a bs) c = Mem.read m c := by
  induction bs with
  | nil => intros; rfl
  | cons b bs ih =>
    intro m a c h
    simp only [Mem.writeAll]
    rw [ih, Mem.read_write_ne]
    · intro hc; apply h; simp [hc]
    · simp only [List.length_cons] at h; omega

/-- The byte at place `i` of the ones written reads as written. -/
theorem Mem.read_writeAll_in (bs : List Byte) : ∀ (m : Mem) (a i : Nat) (h : i < bs.length),
    Mem.read (Mem.writeAll m a bs) (a + i) = bs[i] := by
  induction bs with
  | nil => intro _ _ i h; simp at h
  | cons b bs ih =>
    intro m a i h
    simp only [Mem.writeAll]
    cases i with
    | zero => rw [Mem.read_writeAll_out]; simp; omega
    | succ i =>
      have := ih (Mem.write m a b) (a + 1) i (by simpa using h)
      rw [show a + (i + 1) = a + 1 + i by omega, this]
      rfl

theorem Mem.read_cut (m : Mem) (lo hi a : Nat) :
    Mem.read (SMap.cut m lo hi) a = if a < lo ∨ hi ≤ a then Mem.read m a else Mem.unlisted := by
  simp only [Mem.read, SMap.at, SMap.find_cut]
  split <;> simp

/-! ## The canonical form -/

/-- The canonical form, as a statement about pairs. -/
theorem Mem.wf_iff (m : Mem) :
    Mem.wf m = true ↔ m.Pairwise (fun x y => x.1 < y.1) ∧ ∀ e ∈ m, e.2 ≠ Mem.unlisted := by
  induction m with
  | nil => simp [Mem.wf]
  | cons e m ih =>
    cases m with
    | nil => simp [Mem.wf]
    | cons e' m =>
      simp only [Mem.wf, Bool.and_eq_true, decide_eq_true_eq, ih]
      constructor
      · rintro ⟨⟨h1, h2⟩, h3, h4⟩
        refine ⟨List.pairwise_cons.2 ⟨?_, h3⟩, ?_⟩
        · intro x hx
          rcases List.mem_cons.1 hx with rfl | hx
          · exact h1
          · exact Nat.lt_trans h1 ((List.pairwise_cons.1 h3).1 x hx)
        · intro x hx
          rcases List.mem_cons.1 hx with rfl | hx
          · exact h2
          · exact h4 x hx
      · rintro ⟨h1, h2⟩
        have hp := List.pairwise_cons.1 h1
        exact ⟨⟨hp.1 e' (by simp), h2 e (by simp)⟩, hp.2, fun x hx => h2 x (List.mem_cons_of_mem _ hx)⟩

theorem Mem.wf_filter (m : Mem) (p : Nat × Byte → Bool) (h : Mem.wf m = true) : Mem.wf (m.filter p) = true := by
  rw [Mem.wf_iff] at h ⊢
  exact ⟨h.1.filter p, fun e he => h.2 e (List.mem_of_mem_filter he)⟩

theorem SMap.mem_put {β : Type} (m : SMap β) (q : Nat) (x : β) (e : Nat × β) (h : e ∈ SMap.put m q x) : e = (q, x) ∨ e ∈ m := by
  induction m with
  | nil => simpa [SMap.put] using h
  | cons k m ih =>
    obtain ⟨k, v⟩ := k
    simp only [SMap.put] at h
    split at h
    · simpa using h
    · split at h
      · rcases List.mem_cons.1 h with h | h
        · exact .inl h
        · exact .inr (List.mem_cons_of_mem _ h)
      · rcases List.mem_cons.1 h with h | h
        · exact .inr (by simp [h])
        · rcases ih h with h | h
          · exact .inl h
          · exact .inr (List.mem_cons_of_mem _ h)

theorem SMap.pairwise_put {β : Type} (m : SMap β) (q : Nat) (x : β) (h : m.Pairwise (fun a b => a.1 < b.1)) :
    (SMap.put m q x).Pairwise (fun a b => a.1 < b.1) := by
  induction m with
  | nil => simp [SMap.put]
  | cons k m ih =>
    obtain ⟨k, v⟩ := k
    have hp := List.pairwise_cons.1 h
    simp only [SMap.put]
    split
    · rename_i hq
      refine List.pairwise_cons.2 ⟨?_, h⟩
      intro e he
      rcases List.mem_cons.1 he with rfl | he
      · exact hq
      · exact Nat.lt_trans hq (hp.1 e he)
    · split
      · subst_vars
        exact List.pairwise_cons.2 ⟨hp.1, hp.2⟩
      · rename_i h1 h2
        refine List.pairwise_cons.2 ⟨?_, ih hp.2⟩
        intro e he
        rcases SMap.mem_put m q x e he with rfl | he
        · simp only; omega
        · exact hp.1 e he

theorem Mem.wf_write (m : Mem) (a : Nat) (b : Byte) (h : Mem.wf m = true) : Mem.wf (Mem.write m a b) = true := by
  unfold Mem.write SMap.putD
  split
  · exact Mem.wf_filter m _ h
  · rename_i hb
    rw [Mem.wf_iff] at h ⊢
    refine ⟨SMap.pairwise_put m a b h.1, fun e he => ?_⟩
    rcases SMap.mem_put m a b e he with rfl | he
    · exact hb
    · exact h.2 e he

theorem Mem.wf_writeAll (bs : List Byte) : ∀ (m : Mem) (a : Nat), Mem.wf m = true → Mem.wf (Mem.writeAll m a bs) = true := by
  induction bs with
  | nil => intro m a h; exact h
  | cons b bs ih => intro m a h; exact ih _ _ (Mem.wf_write m a b h)

theorem Mem.wf_cut (m : Mem) (lo hi : Nat) (h : Mem.wf m = true) : Mem.wf (SMap.cut m lo hi) = true := Mem.wf_filter m _ h

/-- Every store operation keeps the canonical form. -/
theorem Mem.wf_apply (os : List MemOp) : ∀ m : Mem, Mem.wf m = true → Mem.wf (Mem.apply m os) = true := by
  induction os with
  | nil => intro m h; exact h
  | cons o os ih =>
    intro m h
    refine ih _ ?_
    cases o with
    | write a bs => exact Mem.wf_writeAll bs m a h
    | clear lo hi => exact Mem.wf_cut m lo hi h

/-! ## The CRC -/

theorem crcBits_lt : ∀ n c, c < 2 ^ 32 → crcBits n c < 2 ^ 32
  | 0, _, h => h
  | n + 1, c, h => crcBits_lt n _ (by split; exact Nat.xor_lt_two_pow (by omega) (by decide); omega)
theorem crcFold_lt : ∀ bs c, c < 2 ^ 32 → crcFold c bs < 2 ^ 32
  | [], _, h => h
  | b :: bs, c, h => crcFold_lt bs _ (crcBits_lt 8 _ (Nat.xor_lt_two_pow h (Nat.lt_of_lt_of_le b.isLt (by decide))))
/-- A CRC is a 32-bit word. -/
theorem crc32_lt (bs : List Byte) : crc32 bs < 2 ^ 32 := Nat.xor_lt_two_pow (crcFold_lt bs _ (by decide)) (by decide)

end Sys2Proof.Machine
end

