-- ==== Sys2Proof/Laws/Exec.lean ====
section
/-! SUPPORT. What a command can do at all: it ends as `runMem` or `runDev` say. -/

namespace Sys2Proof.Machine

/-- How a command can end: a next state with the queue as it was and no store operation left over, whose store is the old one with store
operations applied, or, for a command that is none of those that store, the old one. -/
inductive Ends (s : State) : Bool → Host.Outcome State Fault Refusal → Prop
  | store (os : List MemOp) (d : Dev) : Ends s true (.next { s with mem := Mem.apply s.mem os, dev := { d with writes := [] } })
  | keep (b : Bool) (d : Dev) : Ends s b (.next { s with dev := { d with writes := [] } })

theorem ends_runMem (s : State) (f : Mem → Dev → Dev) : Ends s true (runMem s f) := Ends.store _ _

theorem ends_runDev (s : State) (b : Bool) (f : Dev → Dev) : Ends s b (runDev s f) := Ends.keep _ _

/-- A slot operation stores only with the bundle it ends. -/
theorem ends_runSlot (s : State) (u : BitVec 12) (last : Bool) (c : SlotCmd) : Ends s last (runSlot s u last c) := by
  cases last with
  | true => exact ends_runMem _ _
  | false =>
    have h : (Dev.slot s.mem u.toNat false c s.dev.start).writes = [] := by
      unfold Dev.slot
      simp only [Bool.false_eq_true, if_false]
      split <;> rfl
    unfold runSlot runMem
    rw [h]
    exact Ends.keep _ _

/-- Every command ends so. -/
theorem exec_ends (i : Instr) (s : State) : Ends s (storing i) (exec i s) := by
  cases i with
  | registerWrite r session addr value => change Ends s false (execRegisterWrite r session addr value s); unfold execRegisterWrite; exact ends_runDev _ _ _
  | pageCtlEn r pg en => change Ends s false (execPageCtlEn r pg en s); unfold execPageCtlEn; exact ends_runDev _ _ _
  | pageCtlQreqSet r pg => change Ends s false (execPageCtlQreqSet r pg s); unfold execPageCtlQreqSet; exact ends_runDev _ _ _
  | pageCtlQreqClear r pg => change Ends s false (execPageCtlQreqClear r pg s); unfold execPageCtlQreqClear; exact ends_runDev _ _ _
  | pageCtlRreq r pg => change Ends s false (execPageCtlRreq r pg s); unfold execPageCtlRreq; exact ends_runDev _ _ _
  | pageArmArm r pg tag err => change Ends s false (execPageArmArm r pg tag err s); unfold execPageArmArm; exact ends_runDev _ _ _
  | pageArmDiscard r pg tag => change Ends s false (execPageArmDiscard r pg tag s); unfold execPageArmDiscard; exact ends_runDev _ _ _
  | shadowCommit pg => change Ends s false (execShadowCommit pg s); unfold execShadowCommit; exact ends_runDev _ _ _
  | cgCtlArm r g a => change Ends s false (execCgCtlArm r g a s); unfold execCgCtlArm; exact ends_runDev _ _ _
  | cgCtlDiscard r g => change Ends s false (execCgCtlDiscard r g s); unfold execCgCtlDiscard; exact ends_runDev _ _ _
  | groupCommit g => change Ends s false (execGroupCommit g s); unfold execGroupCommit; exact ends_runDev _ _ _
  | quiesceDrainComplete pg => change Ends s true (execQuiesceDrainComplete pg s); unfold execQuiesceDrainComplete; exact ends_runMem _ _
  | quiesceTimeout pg => change Ends s true (execQuiesceTimeout pg s); unfold execQuiesceTimeout; exact ends_runMem _ _
  | requestTimeout pg tag => change Ends s false (execRequestTimeout pg tag s); unfold execRequestTimeout; exact ends_runDev _ _ _
  | replyArrival reply => change Ends s false (execReplyArrival reply s); unfold execReplyArrival; exact ends_runDev _ _ _
  | uncorrectableError pg src => change Ends s true (execUncorrectableError pg src s); unfold execUncorrectableError; exact ends_runMem _ _
  | pageEvtClear r pg w => change Ends s false (execPageEvtClear r pg w s); unfold execPageEvtClear; exact ends_runDev _ _ _
  | pageCerrClr r pg => change Ends s false (execPageCerrClr r pg s); unfold execPageCerrClr; exact ends_runDev _ _ _
  | pageUerrClr r pg => change Ends s false (execPageUerrClr r pg s); unfold execPageUerrClr; exact ends_runDev _ _ _
  | evtLost q => change Ends s false (execEvtLost q s); unfold execEvtLost; exact ends_runDev _ _ _
  | selvedgeBlockReceive edge back dst dest block crc => change Ends s true (execSelvedgeBlockReceive edge back dst dest block crc s); unfold execSelvedgeBlockReceive; exact ends_runMem _ _
  | faultMapClear auth faults => change Ends s false (execFaultMapClear auth faults s); unfold execFaultMapClear; exact ends_runDev _ _ _
  | mnop u last => change Ends s last (execMnop u last s); unfold execMnop; exact ends_runSlot _ _ _ _
  | mpass u f ecc last => change Ends s last (execMpass u f ecc last s); unfold execMpass; exact ends_runSlot _ _ _ _
  | mfence u f last => change Ends s last (execMfence u f last s); unfold execMfence; exact ends_runSlot _ _ _ _
  | passEntry u arr ecc => change Ends s false (execPassEntry u arr ecc s); unfold execPassEntry; exact ends_runDev _ _ _
  | tileDrain u arr set eccBad => change Ends s false (execTileDrain u arr set eccBad s); unfold execTileDrain; exact ends_runDev _ _ _
  | tileCheckStart u => change Ends s false (execTileCheckStart u s); unfold execTileCheckStart; exact ends_runDev _ _ _
  | tileCheckDone u upset storeErr => change Ends s false (execTileCheckDone u upset storeErr s); unfold execTileCheckDone; exact ends_runDev _ _ _
  | recomputeStart u => change Ends s false (execRecomputeStart u s); unfold execRecomputeStart; exact ends_runDev _ _ _
  | recomputeDone u held => change Ends s false (execRecomputeDone u held s); unfold execRecomputeDone; exact ends_runDev _ _ _
  | matrixTestRun r u => change Ends s false (execMatrixTestRun r u s); unfold execMatrixTestRun; exact ends_runDev _ _ _
  | arrayTestDone u fail0 fail1 => change Ends s false (execArrayTestDone u fail0 fail1 s); unfold execArrayTestDone; exact ends_runDev _ _ _
  | matrixCntClr r u => change Ends s false (execMatrixCntClr r u s); unfold execMatrixCntClr; exact ends_runDev _ _ _
  | vnop u last => change Ends s last (execVnop u last s); unfold execVnop; exact ends_runSlot _ _ _ _
  | vAdd u f last => change Ends s last (execVAdd u f last s); unfold execVAdd; exact ends_runSlot _ _ _ _
  | vSub u f last => change Ends s last (execVSub u f last s); unfold execVSub; exact ends_runSlot _ _ _ _
  | vMul u f last => change Ends s last (execVMul u f last s); unfold execVMul; exact ends_runSlot _ _ _ _
  | vFma u f last => change Ends s last (execVFma u f last s); unfold execVFma; exact ends_runSlot _ _ _ _
  | vFms u f last => change Ends s last (execVFms u f last s); unfold execVFms; exact ends_runSlot _ _ _ _
  | vFnma u f last => change Ends s last (execVFnma u f last s); unfold execVFnma; exact ends_runSlot _ _ _ _
  | vAbs u f last => change Ends s last (execVAbs u f last s); unfold execVAbs; exact ends_runSlot _ _ _ _
  | vNeg u f last => change Ends s last (execVNeg u f last s); unfold execVNeg; exact ends_runSlot _ _ _ _
  | vMinE u f last => change Ends s last (execVMinE u f last s); unfold execVMinE; exact ends_runSlot _ _ _ _
  | vMaxE u f last => change Ends s last (execVMaxE u f last s); unfold execVMaxE; exact ends_runSlot _ _ _ _
  | vMaxaE u f last => change Ends s last (execVMaxaE u f last s); unfold execVMaxaE; exact ends_runSlot _ _ _ _
  | vClass u f last => change Ends s last (execVClass u f last s); unfold execVClass; exact ends_runSlot _ _ _ _
  | vSel u f last => change Ends s last (execVSel u f last s); unfold execVSel; exact ends_runSlot _ _ _ _
  | vMov u f last => change Ends s last (execVMov u f last s); unfold execVMov; exact ends_runSlot _ _ _ _
  | cmpEq u f last => change Ends s last (execCmpEq u f last s); unfold execCmpEq; exact ends_runSlot _ _ _ _
  | cmpNe u f last => change Ends s last (execCmpNe u f last s); unfold execCmpNe; exact ends_runSlot _ _ _ _
  | cmpLt u f last => change Ends s last (execCmpLt u f last s); unfold execCmpLt; exact ends_runSlot _ _ _ _
  | cmpLe u f last => change Ends s last (execCmpLe u f last s); unfold execCmpLe; exact ends_runSlot _ _ _ _
  | cmpGt u f last => change Ends s last (execCmpGt u f last s); unfold execCmpGt; exact ends_runSlot _ _ _ _
  | cmpGe u f last => change Ends s last (execCmpGe u f last s); unfold execCmpGe; exact ends_runSlot _ _ _ _
  | vDiv u f last => change Ends s last (execVDiv u f last s); unfold execVDiv; exact ends_runSlot _ _ _ _
  | vRcp u f last => change Ends s last (execVRcp u f last s); unfold execVRcp; exact ends_runSlot _ _ _ _
  | vSqrt u f last => change Ends s last (execVSqrt u f last s); unfold execVSqrt; exact ends_runSlot _ _ _ _
  | vRsqrt u f last => change Ends s last (execVRsqrt u f last s); unfold execVRsqrt; exact ends_runSlot _ _ _ _
  | vExp2 u f last => change Ends s last (execVExp2 u f last s); unfold execVExp2; exact ends_runSlot _ _ _ _
  | vLog2 u f last => change Ends s last (execVLog2 u f last s); unfold execVLog2; exact ends_runSlot _ _ _ _
  | vExp u f last => change Ends s last (execVExp u f last s); unfold execVExp; exact ends_runSlot _ _ _ _
  | vLog u f last => change Ends s last (execVLog u f last s); unfold execVLog; exact ends_runSlot _ _ _ _
  | vTanh u f last => change Ends s last (execVTanh u f last s); unfold execVTanh; exact ends_runSlot _ _ _ _
  | vSigmoid u f last => change Ends s last (execVSigmoid u f last s); unfold execVSigmoid; exact ends_runSlot _ _ _ _
  | vErf u f last => change Ends s last (execVErf u f last s); unfold execVErf; exact ends_runSlot _ _ _ _
  | vSin u f last => change Ends s last (execVSin u f last s); unfold execVSin; exact ends_runSlot _ _ _ _
  | vCos u f last => change Ends s last (execVCos u f last s); unfold execVCos; exact ends_runSlot _ _ _ _
  | cvtF16f32 u f last => change Ends s last (execCvtF16f32 u f last s); unfold execCvtF16f32; exact ends_runSlot _ _ _ _
  | cvtF32f16 u f last => change Ends s last (execCvtF32f16 u f last s); unfold execCvtF32f16; exact ends_runSlot _ _ _ _
  | cvtI32f32 u f last => change Ends s last (execCvtI32f32 u f last s); unfold execCvtI32f32; exact ends_runSlot _ _ _ _
  | cvtF32i32 u f last => change Ends s last (execCvtF32i32 u f last s); unfold execCvtF32i32; exact ends_runSlot _ _ _ _
  | cvtTob u f last => change Ends s last (execCvtTob u f last s); unfold execCvtTob; exact ends_runSlot _ _ _ _
  | cvtFromb u f last => change Ends s last (execCvtFromb u f last s); unfold execCvtFromb; exact ends_runSlot _ _ _ _
  | iadd u f last => change Ends s last (execIadd u f last s); unfold execIadd; exact ends_runSlot _ _ _ _
  | isub u f last => change Ends s last (execIsub u f last s); unfold execIsub; exact ends_runSlot _ _ _ _
  | imul u f last => change Ends s last (execImul u f last s); unfold execImul; exact ends_runSlot _ _ _ _
  | imin u f last => change Ends s last (execImin u f last s); unfold execImin; exact ends_runSlot _ _ _ _
  | imax u f last => change Ends s last (execImax u f last s); unfold execImax; exact ends_runSlot _ _ _ _
  | icmpEq u f last => change Ends s last (execIcmpEq u f last s); unfold execIcmpEq; exact ends_runSlot _ _ _ _
  | icmpNe u f last => change Ends s last (execIcmpNe u f last s); unfold execIcmpNe; exact ends_runSlot _ _ _ _
  | icmpLt u f last => change Ends s last (execIcmpLt u f last s); unfold execIcmpLt; exact ends_runSlot _ _ _ _
  | icmpLe u f last => change Ends s last (execIcmpLe u f last s); unfold execIcmpLe; exact ends_runSlot _ _ _ _
  | icmpGt u f last => change Ends s last (execIcmpGt u f last s); unfold execIcmpGt; exact ends_runSlot _ _ _ _
  | icmpGe u f last => change Ends s last (execIcmpGe u f last s); unfold execIcmpGe; exact ends_runSlot _ _ _ _
  | vAnd u f last => change Ends s last (execVAnd u f last s); unfold execVAnd; exact ends_runSlot _ _ _ _
  | vOr u f last => change Ends s last (execVOr u f last s); unfold execVOr; exact ends_runSlot _ _ _ _
  | vXor u f last => change Ends s last (execVXor u f last s); unfold execVXor; exact ends_runSlot _ _ _ _
  | vNot u f last => change Ends s last (execVNot u f last s); unfold execVNot; exact ends_runSlot _ _ _ _
  | vShl u f last => change Ends s last (execVShl u f last s); unfold execVShl; exact ends_runSlot _ _ _ _
  | vShr u f last => change Ends s last (execVShr u f last s); unfold execVShr; exact ends_runSlot _ _ _ _
  | vSar u f last => change Ends s last (execVSar u f last s); unfold execVSar; exact ends_runSlot _ _ _ _
  | vbcast u f last => change Ends s last (execVbcast u f last s); unfold execVbcast; exact ends_runSlot _ _ _ _
  | vrot u f last => change Ends s last (execVrot u f last s); unfold execVrot; exact ends_runSlot _ _ _ _
  | vzip u f last => change Ends s last (execVzip u f last s); unfold execVzip; exact ends_runSlot _ _ _ _
  | vunzip u f last => change Ends s last (execVunzip u f last s); unfold execVunzip; exact ends_runSlot _ _ _ _
  | vperm u f last => change Ends s last (execVperm u f last s); unfold execVperm; exact ends_runSlot _ _ _ _
  | vsum u f last => change Ends s last (execVsum u f last s); unfold execVsum; exact ends_runSlot _ _ _ _
  | vMaxR u f last => change Ends s last (execVMaxR u f last s); unfold execVMaxR; exact ends_runSlot _ _ _ _
  | vMinR u f last => change Ends s last (execVMinR u f last s); unfold execVMinR; exact ends_runSlot _ _ _ _
  | vAmaxR u f last => change Ends s last (execVAmaxR u f last s); unfold execVAmaxR; exact ends_runSlot _ _ _ _
  | mand u f last => change Ends s last (execMand u f last s); unfold execMand; exact ends_runSlot _ _ _ _
  | mor u f last => change Ends s last (execMor u f last s); unfold execMor; exact ends_runSlot _ _ _ _
  | mxor u f last => change Ends s last (execMxor u f last s); unfold execMxor; exact ends_runSlot _ _ _ _
  | mandn u f last => change Ends s last (execMandn u f last s); unfold execMandn; exact ends_runSlot _ _ _ _
  | mnot u f last => change Ends s last (execMnot u f last s); unfold execMnot; exact ends_runSlot _ _ _ _
  | mset u f last => change Ends s last (execMset u f last s); unfold execMset; exact ends_runSlot _ _ _ _
  | mcount u f last => change Ends s last (execMcount u f last s); unfold execMcount; exact ends_runSlot _ _ _ _
  | msign u f last => change Ends s last (execMsign u f last s); unfold execMsign; exact ends_runSlot _ _ _ _
  | vflags u f last => change Ends s last (execVflags u f last s); unfold execVflags; exact ends_runSlot _ _ _ _
  | vstat u f last => change Ends s last (execVstat u f last s); unfold execVstat; exact ends_runSlot _ _ _ _
  | vpop u f last => change Ends s last (execVpop u f last s); unfold execVpop; exact ends_runSlot _ _ _ _
  | popTimeout u => change Ends s false (execPopTimeout u s); unfold execPopTimeout; exact ends_runDev _ _ _
  | vectorCntClr r u => change Ends s false (execVectorCntClr r u s); unfold execVectorCntClr; exact ends_runDev _ _ _
  | vectorCstatClr r u => change Ends s false (execVectorCstatClr r u s); unfold execVectorCstatClr; exact ends_runDev _ _ _
  | dnop u last => change Ends s last (execDnop u last s); unfold execDnop; exact ends_runSlot _ _ _ _
  | dld u f ecc line last => change Ends s last (execDld u f ecc line last s); unfold execDld; exact ends_runSlot _ _ _ _
  | dst u f ecc word last => change Ends s last (execDst u f ecc word last s); unfold execDst; exact ends_runSlot _ _ _ _
  | dldm u f ecc last => change Ends s last (execDldm u f ecc last s); unfold execDldm; exact ends_runSlot _ _ _ _
  | dstm u f last => change Ends s last (execDstm u f last s); unfold execDstm; exact ends_runSlot _ _ _ _
  | dkick u f last => change Ends s last (execDkick u f last s); unfold execDkick; exact ends_runSlot _ _ _ _
  | dwait u f last => change Ends s last (execDwait u f last s); unfold execDwait; exact ends_runSlot _ _ _ _
  | cnop u last => change Ends s last (execCnop u last s); unfold execCnop; exact ends_runSlot _ _ _ _
  | sli u f last => change Ends s last (execSli u f last s); unfold execSli; exact ends_runSlot _ _ _ _
  | sadd u f last => change Ends s last (execSadd u f last s); unfold execSadd; exact ends_runSlot _ _ _ _
  | ssub u f last => change Ends s last (execSsub u f last s); unfold execSsub; exact ends_runSlot _ _ _ _
  | saddi u f last => change Ends s last (execSaddi u f last s); unfold execSaddi; exact ends_runSlot _ _ _ _
  | sshli u f last => change Ends s last (execSshli u f last s); unfold execSshli; exact ends_runSlot _ _ _ _
  | sshri u f last => change Ends s last (execSshri u f last s); unfold execSshri; exact ends_runSlot _ _ _ _
  | sandi u f last => change Ends s last (execSandi u f last s); unfold execSandi; exact ends_runSlot _ _ _ _
  | slidx u f last => change Ends s last (execSlidx u f last s); unfold execSlidx; exact ends_runSlot _ _ _ _
  | seqLoop u f last => change Ends s last (execSeqLoop u f last s); unfold execSeqLoop; exact ends_runSlot _ _ _ _
  | wbeat u f last => change Ends s last (execWbeat u f last s); unfold execWbeat; exact ends_runSlot _ _ _ _
  | seqBar u f last => change Ends s last (execSeqBar u f last s); unfold execSeqBar; exact ends_runSlot _ _ _ _
  | barrierTimeout c n => change Ends s false (execBarrierTimeout c n s); unfold execBarrierTimeout; exact ends_runDev _ _ _
  | srctx u f last => change Ends s last (execSrctx u f last s); unfold execSrctx; exact ends_runSlot _ _ _ _
  | sevt u f last => change Ends s last (execSevt u f last s); unfold execSevt; exact ends_runSlot _ _ _ _
  | seqEnd u last => change Ends s last (execSeqEnd u last s); unfold execSeqEnd; exact ends_runSlot _ _ _ _
  | illegalBundle u ecc => change Ends s false (execIllegalBundle u ecc s); unfold execIllegalBundle; exact ends_runDev _ _ _
  | seqStart r u => change Ends s false (execSeqStart r u s); unfold execSeqStart; exact ends_runDev _ _ _
  | programStart u => change Ends s false (execProgramStart u s); unfold execProgramStart; exact ends_runDev _ _ _
  | seqCntClr r u => change Ends s false (execSeqCntClr r u s); unfold execSeqCntClr; exact ends_runDev _ _ _
  | fillGo r u => change Ends s false (execFillGo r u s); unfold execFillGo; exact ends_runDev _ _ _
  | istoreFillComplete u ecc line => change Ends s true (execIstoreFillComplete u ecc line s); unfold execIstoreFillComplete; exact ends_runMem _ _
  | scrubLine larder inst line ecc => change Ends s true (execScrubLine larder inst line ecc s); unfold execScrubLine; exact ends_runMem _ _
  | patrolRead stack block passEnd => change Ends s false (execPatrolRead stack block passEnd s); unfold execPatrolRead; exact ends_runDev _ _ _
  | hbmCrcRetry stack block data => change Ends s true (execHbmCrcRetry stack block data s); unfold execHbmCrcRetry; exact ends_runMem _ _
  | kickGo r rm inst tag => change Ends s false (execKickGo r rm inst tag s); unfold execKickGo; exact ends_runDev _ _ _
  | cmovePassToRmove c => change Ends s false (execCmovePassToRmove c s); unfold execCmovePassToRmove; exact ends_runDev _ _ _
  | moveBlockStart rm inst e => change Ends s true (execMoveBlockStart rm inst e s); unfold execMoveBlockStart; exact ends_runMem _ _
  | moveBlockComplete rm inst => change Ends s false (execMoveBlockComplete rm inst s); unfold execMoveBlockComplete; exact ends_runDev _ _ _
  | descNop rm inst => change Ends s false (execDescNop rm inst s); unfold execDescNop; exact ends_runDev _ _ _
  | descCopy rm inst e row => change Ends s true (execDescCopy rm inst e row s); unfold execDescCopy; exact ends_runMem _ _
  | descZero rm inst => change Ends s true (execDescZero rm inst s); unfold execDescZero; exact ends_runMem _ _
  | descCompress rm inst e row => change Ends s true (execDescCompress rm inst e row s); unfold execDescCompress; exact ends_runMem _ _
  | descDecompress rm inst e row => change Ends s true (execDescDecompress rm inst e row s); unfold execDescDecompress; exact ends_runMem _ _
  | descToBlock rm inst e row => change Ends s true (execDescToBlock rm inst e row s); unfold execDescToBlock; exact ends_runMem _ _
  | descFromBlock rm inst e row => change Ends s true (execDescFromBlock rm inst e row s); unfold execDescFromBlock; exact ends_runMem _ _
  | descExchEnc inst e row => change Ends s true (execDescExchEnc inst e row s); unfold execDescExchEnc; exact ends_runMem _ _
  | descExchDec inst e row => change Ends s true (execDescExchDec inst e row s); unfold execDescExchDec; exact ends_runMem _ _
  | compressCntClr r inst => change Ends s false (execCompressCntClr r inst s); unfold execCompressCntClr; exact ends_runDev _ _ _
  | beatBoundary => change Ends s true (execBeatBoundary s); unfold execBeatBoundary; exact ends_runMem _ _
  | exchangeWindowStart => change Ends s false (execExchangeWindowStart s); unfold execExchangeWindowStart; exact ends_runDev _ _ _
  | slackWindowStart credit => change Ends s false (execSlackWindowStart credit s); unfold execSlackWindowStart; exact ends_runDev _ _ _
  | beatMarker port crcOk m phase rate => change Ends s false (execBeatMarker port crcOk m phase rate s); unfold execBeatMarker; exact ends_runDev _ _ _
  | markerTimeout => change Ends s false (execMarkerTimeout s); unfold execMarkerTimeout; exact ends_runDev _ _ _
  | holdLimitExpiry => change Ends s false (execHoldLimitExpiry s); unfold execHoldLimitExpiry; exact ends_runDev _ _ _
  | sourceTimeout => change Ends s false (execSourceTimeout s); unfold execSourceTimeout; exact ends_runDev _ _ _
  | delayRemeasure port delay => change Ends s false (execDelayRemeasure port delay s); unfold execDelayRemeasure; exact ends_runDev _ _ _
  | voteTimeout port => change Ends s false (execVoteTimeout port s); unfold execVoteTimeout; exact ends_runDev _ _ _
  | stepStart => change Ends s false (execStepStart s); unfold execStepStart; exact ends_runDev _ _ _
  | stepVote finished => change Ends s false (execStepVote finished s); unfold execStepVote; exact ends_runDev _ _ _
  | stepCommit => change Ends s true (execStepCommit s); unfold execStepCommit; exact ends_runMem _ _
  | stepReplay => change Ends s true (execStepReplay s); unfold execStepReplay; exact ends_runMem _ _
  | stepRecover => change Ends s true (execStepRecover s); unfold execStepRecover; exact ends_runMem _ _
  | forceWaitExceeded red => change Ends s false (execForceWaitExceeded red s); unfold execForceWaitExceeded; exact ends_runDev _ _ _
  | draftCmdLoad r => change Ends s false (execDraftCmdLoad r s); unfold execDraftCmdLoad; exact ends_runDev _ _ _
  | draftCmdAbort r => change Ends s false (execDraftCmdAbort r s); unfold execDraftCmdAbort; exact ends_runDev _ _ _
  | placementDone => change Ends s false (execPlacementDone s); unfold execPlacementDone; exact ends_runDev _ _ _
  | placeTimeout => change Ends s false (execPlaceTimeout s); unfold execPlaceTimeout; exact ends_runDev _ _ _
  | replanStart cause => change Ends s false (execReplanStart cause s); unfold execReplanStart; exact ends_runDev _ _ _
  | replanDone => change Ends s false (execReplanDone s); unfold execReplanDone; exact ends_runDev _ _ _
  | replanTimeout => change Ends s false (execReplanTimeout s); unfold execReplanTimeout; exact ends_runDev _ _ _
  | planCommit lastMs => change Ends s true (execPlanCommit lastMs s); unfold execPlanCommit; exact ends_runMem _ _
  | waySwapStart r swap lines => change Ends s true (execWaySwapStart r swap lines s); unfold execWaySwapStart; exact ends_runMem _ _
  | numericEvaluation obs => change Ends s true (execNumericEvaluation obs s); unfold execNumericEvaluation; exact ends_runMem _ _
  | watchCntClr r => change Ends s false (execWatchCntClr r s); unfold execWatchCntClr; exact ends_runDev _ _ _
  | contributionLand r line => change Ends s false (execContributionLand r line s); unfold execContributionLand; exact ends_runDev _ _ _
  | deadlinePass red => change Ends s false (execDeadlinePass red s); unfold execDeadlinePass; exact ends_runDev _ _ _
  | exchCntClr r => change Ends s false (execExchCntClr r s); unfold execExchCntClr; exact ends_runDev _ _ _
  | linkSignalDetect port => change Ends s false (execLinkSignalDetect port s); unfold execLinkSignalDetect; exact ends_runDev _ _ _
  | trainComplete port farAddr farPort => change Ends s false (execTrainComplete port farAddr farPort s); unfold execTrainComplete; exact ends_runDev _ _ _
  | trainTimeout port => change Ends s false (execTrainTimeout port s); unfold execTrainTimeout; exact ends_runDev _ _ _
  | laneDegraded port lane => change Ends s false (execLaneDegraded port lane s); unfold execLaneDegraded; exact ends_runDev _ _ _
  | uncorrCwLimit port corrected codewords => change Ends s false (execUncorrCwLimit port corrected codewords s); unfold execUncorrCwLimit; exact ends_runDev _ _ _
  | linkDown port => change Ends s false (execLinkDown port s); unfold execLinkDown; exact ends_runDev _ _ _
  | linkPhyRetry r port => change Ends s false (execLinkPhyRetry r port s); unfold execLinkPhyRetry; exact ends_runDev _ _ _
  | shuttleFetch entry area => change Ends s false (execShuttleFetch entry area s); unfold execShuttleFetch; exact ends_runDev _ _ _
  | slotSend entry => change Ends s false (execSlotSend entry s); unfold execSlotSend; exact ends_runDev _ _ _
  | lateSend port credit => change Ends s false (execLateSend port credit s); unfold execLateSend; exact ends_runDev _ _ _
  | schedShuttle port sh area => change Ends s true (execSchedShuttle port sh area s); unfold execSchedShuttle; exact ends_runMem _ _
  | lateShuttle port sh area credit => change Ends s true (execLateShuttle port sh area credit s); unfold execLateShuttle; exact ends_runMem _ _
  | resendReqRecv port sh credit => change Ends s false (execResendReqRecv port sh credit s); unfold execResendReqRecv; exact ends_runDev _ _ _
  | resendNakRecv port sh credit => change Ends s false (execResendNakRecv port sh credit s); unfold execResendNakRecv; exact ends_runDev _ _ _
  | slackTtlExpiry port => change Ends s false (execSlackTtlExpiry port s); unfold execSlackTtlExpiry; exact ends_runDev _ _ _
  | linkRouteCmdLoad r => change Ends s false (execLinkRouteCmdLoad r s); unfold execLinkRouteCmdLoad; exact ends_runDev _ _ _
  | routeApplied => change Ends s false (execRouteApplied s); unfold execRouteApplied; exact ends_runDev _ _ _
  | linkErrCntClr r port => change Ends s false (execLinkErrCntClr r port s); unfold execLinkErrCntClr; exact ends_runDev _ _ _
  | ethernetFrameReceive port f => change Ends s false (execEthernetFrameReceive port f s); unfold execEthernetFrameReceive; exact ends_runDev _ _ _
  | mkaFrame port f => change Ends s false (execMkaFrame port f s); unfold execMkaFrame; exact ends_runDev _ _ _
  | mkaPeerLost port => change Ends s false (execMkaPeerLost port s); unfold execMkaPeerLost; exact ends_runDev _ _ _
  | arpRequest port ip => change Ends s false (execArpRequest port ip s); unfold execArpRequest; exact ends_runDev _ _ _
  | neighborSolicitation port ip advert => change Ends s false (execNeighborSolicitation port ip advert s); unfold execNeighborSolicitation; exact ends_runDev _ _ _
  | echoRequest port v6 payload => change Ends s false (execEchoRequest port v6 payload s); unfold execEchoRequest; exact ends_runDev _ _ _
  | ptpAnnounce port a => change Ends s false (execPtpAnnounce port a s); unfold execPtpAnnounce; exact ends_runDev _ _ _
  | ptpExchange port offset => change Ends s false (execPtpExchange port offset s); unfold execPtpExchange; exact ends_runDev _ _ _
  | ptpTimeout port => change Ends s false (execPtpTimeout port s); unfold execPtpTimeout; exact ends_runDev _ _ _
  | hostOpen port peer g => change Ends s false (execHostOpen port peer g s); unfold execHostOpen; exact ends_runDev _ _ _
  | hostData port peer g => change Ends s false (execHostData port peer g s); unfold execHostData; exact ends_runDev _ _ _
  | hostAck port peer g => change Ends s false (execHostAck port peer g s); unfold execHostAck; exact ends_runDev _ _ _
  | hostClose port peer g => change Ends s false (execHostClose port peer g s); unfold execHostClose; exact ends_runDev _ _ _
  | ackTimer session => change Ends s false (execAckTimer session s); unfold execAckTimer; exact ends_runDev _ _ _
  | rtoExpiry session => change Ends s false (execRtoExpiry session s); unfold execRtoExpiry; exact ends_runDev _ _ _
  | sessionDead session => change Ends s false (execSessionDead session s); unfold execSessionDead; exact ends_runDev _ _ _
  | chanCreate session => change Ends s false (execChanCreate session s); unfold execChanCreate; exact ends_runDev _ _ _
  | chanDestroy session => change Ends s false (execChanDestroy session s); unfold execChanDestroy; exact ends_runDev _ _ _
  | regMessage m => change Ends s false (execRegMessage m s); unfold execRegMessage; exact ends_runDev _ _ _
  | hostInData handle err => change Ends s true (execHostInData handle err s); unfold execHostInData; exact ends_runMem _ _
  | hostOutRequest handle => change Ends s false (execHostOutRequest handle s); unfold execHostOutRequest; exact ends_runDev _ _ _
  | hostOutSend handle => change Ends s false (execHostOutSend handle s); unfold execHostOutSend; exact ends_runDev _ _ _
  | resetFrame port peer g => change Ends s false (execResetFrame port peer g s); unfold execResetFrame; exact ends_runDev _ _ _
  | hostMacCntClr r port => change Ends s false (execHostMacCntClr r port s); unfold execHostMacCntClr; exact ends_runDev _ _ _
  | hostSecCntClr r port => change Ends s false (execHostSecCntClr r port s); unfold execHostSecCntClr; exact ends_runDev _ _ _
  | hostXportCntClr r port => change Ends s false (execHostXportCntClr r port s); unfold execHostXportCntClr; exact ends_runDev _ _ _
  | leaseFrame handle => change Ends s false (execLeaseFrame handle s); unfold execLeaseFrame; exact ends_runDev _ _ _
  | minuteBoundary => change Ends s false (execMinuteBoundary s); unfold execMinuteBoundary; exact ends_runDev _ _ _
  | leaseHoldoverLimit => change Ends s false (execLeaseHoldoverLimit s); unfold execLeaseHoldoverLimit; exact ends_runDev _ _ _
  | totalsSave => change Ends s false (execTotalsSave s); unfold execTotalsSave; exact ends_runDev _ _ _
  | rampStepDone r => change Ends s false (execRampStepDone r s); unfold execRampStepDone; exact ends_runDev _ _ _
  | droopTrip r => change Ends s false (execDroopTrip r s); unfold execDroopTrip; exact ends_runDev _ _ _
  | droopClear r cycles => change Ends s false (execDroopClear r cycles s); unfold execDroopClear; exact ends_runDev _ _ _
  | avsSample rails => change Ends s false (execAvsSample rails s); unfold execAvsSample; exact ends_runDev _ _ _
  | measLoop => change Ends s false (execMeasLoop s); unfold execMeasLoop; exact ends_runDev _ _ _
  | recalibration => change Ends s false (execRecalibration s); unfold execRecalibration; exact ends_runDev _ _ _
  | powerLend => change Ends s false (execPowerLend s); unfold execPowerLend; exact ends_runDev _ _ _
  | offerSend => change Ends s false (execOfferSend s); unfold execOfferSend; exact ends_runDev _ _ _
  | powerBorrow => change Ends s false (execPowerBorrow s); unfold execPowerBorrow; exact ends_runDev _ _ _
  | needRecv port sh credit => change Ends s false (execNeedRecv port sh credit s); unfold execNeedRecv; exact ends_runDev _ _ _
  | offerRecv port sh credit => change Ends s false (execOfferRecv port sh credit s); unfold execOfferRecv; exact ends_runDev _ _ _
  | grantRecv port sh credit => change Ends s false (execGrantRecv port sh credit s); unfold execGrantRecv; exact ends_runDev _ _ _
  | refuseRecv port sh credit => change Ends s false (execRefuseRecv port sh credit s); unfold execRefuseRecv; exact ends_runDev _ _ _
  | junctionSensorRead r t => change Ends s false (execJunctionSensorRead r t s); unfold execJunctionSensorRead; exact ends_runDev _ _ _
  | hbmTempRead die t => change Ends s false (execHbmTempRead die t s); unfold execHbmTempRead; exact ends_runDev _ _ _
  | regAlert die => change Ends s false (execRegAlert die s); unfold execRegAlert; exact ends_runDev _ _ _
  | regAlertRelease die => change Ends s false (execRegAlertRelease die s); unfold execRegAlertRelease; exact ends_runDev _ _ _
  | shelfRelease die => change Ends s false (execShelfRelease die s); unfold execShelfRelease; exact ends_runDev _ _ _
  | refclkLoss die => change Ends s false (execRefclkLoss die s); unfold execRefclkLoss; exact ends_runDev _ _ _
  | dieManagerHung die => change Ends s false (execDieManagerHung die s); unfold execDieManagerHung; exact ends_runDev _ _ _
  | drainSend use => change Ends s false (execDrainSend use s); unfold execDrainSend; exact ends_runDev _ _ _
  | drainPiece port sh credit => change Ends s true (execDrainPiece port sh credit s); unfold execDrainPiece; exact ends_runMem _ _
  | refillPiece port sh credit => change Ends s true (execRefillPiece port sh credit s); unfold execRefillPiece; exact ends_runMem _ _
  | atticRefillPiece port sh credit => change Ends s true (execAtticRefillPiece port sh credit s); unfold execAtticRefillPiece; exact ends_runMem _ _
  | partAnswer use part => change Ends s false (execPartAnswer use part s); unfold execPartAnswer; exact ends_runDev _ _ _
  | partAck port sh credit => change Ends s false (execPartAck port sh credit s); unfold execPartAck; exact ends_runDev _ _ _
  | partNak port sh credit => change Ends s false (execPartNak port sh credit s); unfold execPartNak; exact ends_runDev _ _ _
  | manifestAck port sh credit => change Ends s false (execManifestAck port sh credit s); unfold execManifestAck; exact ends_runDev _ _ _
  | manifestBad port sh credit => change Ends s false (execManifestBad port sh credit s); unfold execManifestBad; exact ends_runDev _ _ _
  | partRetry use part => change Ends s false (execPartRetry use part s); unfold execPartRetry; exact ends_runDev _ _ _
  | drainHoldExpiry finished => change Ends s false (execDrainHoldExpiry finished s); unfold execDrainHoldExpiry; exact ends_runDev _ _ _
  | externalDrainSend handle => change Ends s false (execExternalDrainSend handle s); unfold execExternalDrainSend; exact ends_runDev _ _ _
  | drainAck handle => change Ends s false (execDrainAck handle s); unfold execDrainAck; exact ends_runDev _ _ _
  | drainData handle => change Ends s false (execDrainData handle s); unfold execDrainData; exact ends_runDev _ _ _
  | drainLedger handle => change Ends s false (execDrainLedger handle s); unfold execDrainLedger; exact ends_runDev _ _ _
  | restoreStart => change Ends s false (execRestoreStart s); unfold execRestoreStart; exact ends_runDev _ _ _
  | restoreAccept => change Ends s true (execRestoreAccept s); unfold execRestoreAccept; exact ends_runMem _ _
  | restoreResume => change Ends s false (execRestoreResume s); unfold execRestoreResume; exact ends_runDev _ _ _
  | fwStage r => change Ends s false (execFwStage r s); unfold execFwStage; exact ends_runDev _ _ _
  | fwConfirm r => change Ends s false (execFwConfirm r s); unfold execFwConfirm; exact ends_runDev _ _ _
  | leaseKey r => change Ends s false (execLeaseKey r s); unfold execLeaseKey; exact ends_runDev _ _ _
  | resetKey r => change Ends s false (execResetKey r s); unfold execResetKey; exact ends_runDev _ _ _
  | cakKey r => change Ends s false (execCakKey r s); unfold execCakKey; exact ends_runDev _ _ _
  | fallbackKey r => change Ends s false (execFallbackKey r s); unfold execFallbackKey; exact ends_runDev _ _ _
  | lockKey r => change Ends s false (execLockKey r s); unfold execLockKey; exact ends_runDev _ _ _
  | attestRequest r => change Ends s false (execAttestRequest r s); unfold execAttestRequest; exact ends_runDev _ _ _
  | quoteSigned => change Ends s false (execQuoteSigned s); unfold execQuoteSigned; exact ends_runDev _ _ _
  | sigBudgetLow => change Ends s false (execSigBudgetLow s); unfold execSigBudgetLow; exact ends_runDev _ _ _
  | energyRecFetch r session => change Ends s false (execEnergyRecFetch r session s); unfold execEnergyRecFetch; exact ends_runDev _ _ _
  | powerOn => change Ends s true (execPowerOn s); unfold execPowerOn; exact ends_runMem _ _
  | resetN => change Ends s true (execResetN s); unfold execResetN; exact ends_runMem _ _
  | resetNRelease => change Ends s false (execResetNRelease s); unfold execResetNRelease; exact ends_runDev _ _ _
  | bringupSl1 ms f0 f1 f2 => change Ends s false (execBringupSl1 ms f0 f1 f2 s); unfold execBringupSl1; exact ends_runDev _ _ _
  | bringupSl2 ms => change Ends s false (execBringupSl2 ms s); unfold execBringupSl2; exact ends_runDev _ _ _
  | bringupSl3 ms => change Ends s false (execBringupSl3 ms s); unfold execBringupSl3; exact ends_runDev _ _ _
  | selfTestDone level inst failed => change Ends s true (execSelfTestDone level inst failed s); unfold execSelfTestDone; exact ends_runMem _ _
  | hbmTrainDone stack ok => change Ends s true (execHbmTrainDone stack ok s); unfold execHbmTrainDone; exact ends_runMem _ _
  | watchdog => change Ends s true (execWatchdog s); unfold execWatchdog; exact ends_runMem _ _
  | thermtrip => change Ends s true (execThermtrip s); unfold execThermtrip; exact ends_runMem _ _
  | lockstep die => change Ends s true (execLockstep die s); unfold execLockstep; exact ends_runMem _ _
  | rstSrcReq r w => change Ends s false (execRstSrcReq r w s); unfold execRstSrcReq; exact ends_runDev _ _ _
  | domainReset dom inst => change Ends s true (execDomainReset dom inst s); unfold execDomainReset; exact ends_runMem _ _
  | bringupStopAt r v => change Ends s false (execBringupStopAt r v s); unfold execBringupStopAt; exact ends_runDev _ _ _
  | bringupResume r => change Ends s false (execBringupResume r s); unfold execBringupResume; exact ends_runDev _ _ _
  | hostLinkUp port => change Ends s false (execHostLinkUp port s); unfold execHostLinkUp; exact ends_runDev _ _ _
  | hostLinkDown port => change Ends s false (execHostLinkDown port s); unfold execHostLinkDown; exact ends_runDev _ _ _
  | slackShuttleForward port sh credit => change Ends s false (execSlackShuttleForward port sh credit s); unfold execSlackShuttleForward; exact ends_runDev _ _ _
  | powerGoodRise => change Ends s false (execPowerGoodRise s); unfold execPowerGoodRise; exact ends_runDev _ _ _
  | refclkReturn => change Ends s false (execRefclkReturn s); unfold execRefclkReturn; exact ends_runDev _ _ _
  | duplicateAddressDetectionEnd port link => change Ends s false (execDuplicateAddressDetectionEnd port link s); unfold execDuplicateAddressDetectionEnd; exact ends_runDev _ _ _
  | latchedRead r x => change Ends s false (execLatchedRead r x s); unfold execLatchedRead; exact ends_runDev _ _ _
  | testPortInstruction t => change Ends s false (execTestPortInstruction t s); unfold execTestPortInstruction; exact ends_runDev _ _ _

end Sys2Proof.Machine
end

