-- ==== Sys2Proof/Laws/PerInstr.lean ====
section
/-! SUPPORT. Statements made per command: none. The table gives no row any bits, so there is no encoding to state one about. -/
end

