-- ==== Sys2Proof/Laws/State.lean ====
section
/-! SUPPORT. What each named update of the device leaves alone, field by field: every lemma is true by `rfl`. -/

namespace Sys2Proof.Machine

/-! `set` -/
@[simp] theorem Dev.set_shadow (d : Dev) (f : Field) (pg i v : Nat) : (d.set f pg i v).shadow = d.shadow := rfl
@[simp] theorem Dev.set_latch (d : Dev) (f : Field) (pg i v : Nat) : (d.set f pg i v).latch = d.latch := rfl
@[simp] theorem Dev.set_pages (d : Dev) (f : Field) (pg i v : Nat) : (d.set f pg i v).pages = d.pages := rfl
@[simp] theorem Dev.set_groupAt (d : Dev) (f : Field) (pg i v : Nat) : (d.set f pg i v).groupAt = d.groupAt := rfl
@[simp] theorem Dev.set_now (d : Dev) (f : Field) (pg i v : Nat) : (d.set f pg i v).now = d.now := rfl
@[simp] theorem Dev.set_timerOn (d : Dev) (f : Field) (pg i v : Nat) : (d.set f pg i v).timerOn = d.timerOn := rfl
@[simp] theorem Dev.set_beatSeen (d : Dev) (f : Field) (pg i v : Nat) : (d.set f pg i v).beatSeen = d.beatSeen := rfl
@[simp] theorem Dev.set_boundary (d : Dev) (f : Field) (pg i v : Nat) : (d.set f pg i v).boundary = d.boundary := rfl
@[simp] theorem Dev.set_relAt (d : Dev) (f : Field) (pg i v : Nat) : (d.set f pg i v).relAt = d.relAt := rfl
@[simp] theorem Dev.set_free (d : Dev) (f : Field) (pg i v : Nat) : (d.set f pg i v).free = d.free := rfl
@[simp] theorem Dev.set_queues (d : Dev) (f : Field) (pg i v : Nat) : (d.set f pg i v).queues = d.queues := rfl
@[simp] theorem Dev.set_units (d : Dev) (f : Field) (pg i v : Nat) : (d.set f pg i v).units = d.units := rfl
@[simp] theorem Dev.set_clusters (d : Dev) (f : Field) (pg i v : Nat) : (d.set f pg i v).clusters = d.clusters := rfl
@[simp] theorem Dev.set_cmove (d : Dev) (f : Field) (pg i v : Nat) : (d.set f pg i v).cmove = d.cmove := rfl
@[simp] theorem Dev.set_rmove (d : Dev) (f : Field) (pg i v : Nat) : (d.set f pg i v).rmove = d.rmove := rfl
@[simp] theorem Dev.set_beat (d : Dev) (f : Field) (pg i v : Nat) : (d.set f pg i v).beat = d.beat := rfl
@[simp] theorem Dev.set_step (d : Dev) (f : Field) (pg i v : Nat) : (d.set f pg i v).step = d.step := rfl
@[simp] theorem Dev.set_plan (d : Dev) (f : Field) (pg i v : Nat) : (d.set f pg i v).plan = d.plan := rfl
@[simp] theorem Dev.set_links (d : Dev) (f : Field) (pg i v : Nat) : (d.set f pg i v).links = d.links := rfl
@[simp] theorem Dev.set_route (d : Dev) (f : Field) (pg i v : Nat) : (d.set f pg i v).route = d.route := rfl
@[simp] theorem Dev.set_host (d : Dev) (f : Field) (pg i v : Nat) : (d.set f pg i v).host = d.host := rfl
@[simp] theorem Dev.set_power (d : Dev) (f : Field) (pg i v : Nat) : (d.set f pg i v).power = d.power := rfl
@[simp] theorem Dev.set_recov (d : Dev) (f : Field) (pg i v : Nat) : (d.set f pg i v).recov = d.recov := rfl
@[simp] theorem Dev.set_sec (d : Dev) (f : Field) (pg i v : Nat) : (d.set f pg i v).sec = d.sec := rfl
@[simp] theorem Dev.set_rst (d : Dev) (f : Field) (pg i v : Nat) : (d.set f pg i v).rst = d.rst := rfl
@[simp] theorem Dev.set_resetting (d : Dev) (f : Field) (pg i v : Nat) : (d.set f pg i v).resetting = d.resetting := rfl
@[simp] theorem Dev.set_testInstr (d : Dev) (f : Field) (pg i v : Nat) : (d.set f pg i v).testInstr = d.testInstr := rfl
@[simp] theorem Dev.set_faults (d : Dev) (f : Field) (pg i v : Nat) : (d.set f pg i v).faults = d.faults := rfl
@[simp] theorem Dev.set_due (d : Dev) (f : Field) (pg i v : Nat) : (d.set f pg i v).due = d.due := rfl
@[simp] theorem Dev.set_spoiled (d : Dev) (f : Field) (pg i v : Nat) : (d.set f pg i v).spoiled = d.spoiled := rfl
@[simp] theorem Dev.set_writes (d : Dev) (f : Field) (pg i v : Nat) : (d.set f pg i v).writes = d.writes := rfl
@[simp] theorem Dev.set_out (d : Dev) (f : Field) (pg i v : Nat) : (d.set f pg i v).out = d.out := rfl

/-! `wr` -/
@[simp] theorem Dev.wr_shadow (d : Dev) (f : Field) (inst v i : Nat) : (d.wr f inst v i).shadow = d.shadow := rfl
@[simp] theorem Dev.wr_latch (d : Dev) (f : Field) (inst v i : Nat) : (d.wr f inst v i).latch = d.latch := rfl
@[simp] theorem Dev.wr_pages (d : Dev) (f : Field) (inst v i : Nat) : (d.wr f inst v i).pages = d.pages := rfl
@[simp] theorem Dev.wr_groupAt (d : Dev) (f : Field) (inst v i : Nat) : (d.wr f inst v i).groupAt = d.groupAt := rfl
@[simp] theorem Dev.wr_now (d : Dev) (f : Field) (inst v i : Nat) : (d.wr f inst v i).now = d.now := rfl
@[simp] theorem Dev.wr_timerOn (d : Dev) (f : Field) (inst v i : Nat) : (d.wr f inst v i).timerOn = d.timerOn := rfl
@[simp] theorem Dev.wr_beatSeen (d : Dev) (f : Field) (inst v i : Nat) : (d.wr f inst v i).beatSeen = d.beatSeen := rfl
@[simp] theorem Dev.wr_boundary (d : Dev) (f : Field) (inst v i : Nat) : (d.wr f inst v i).boundary = d.boundary := rfl
@[simp] theorem Dev.wr_relAt (d : Dev) (f : Field) (inst v i : Nat) : (d.wr f inst v i).relAt = d.relAt := rfl
@[simp] theorem Dev.wr_free (d : Dev) (f : Field) (inst v i : Nat) : (d.wr f inst v i).free = d.free := rfl
@[simp] theorem Dev.wr_queues (d : Dev) (f : Field) (inst v i : Nat) : (d.wr f inst v i).queues = d.queues := rfl
@[simp] theorem Dev.wr_units (d : Dev) (f : Field) (inst v i : Nat) : (d.wr f inst v i).units = d.units := rfl
@[simp] theorem Dev.wr_clusters (d : Dev) (f : Field) (inst v i : Nat) : (d.wr f inst v i).clusters = d.clusters := rfl
@[simp] theorem Dev.wr_cmove (d : Dev) (f : Field) (inst v i : Nat) : (d.wr f inst v i).cmove = d.cmove := rfl
@[simp] theorem Dev.wr_rmove (d : Dev) (f : Field) (inst v i : Nat) : (d.wr f inst v i).rmove = d.rmove := rfl
@[simp] theorem Dev.wr_beat (d : Dev) (f : Field) (inst v i : Nat) : (d.wr f inst v i).beat = d.beat := rfl
@[simp] theorem Dev.wr_step (d : Dev) (f : Field) (inst v i : Nat) : (d.wr f inst v i).step = d.step := rfl
@[simp] theorem Dev.wr_plan (d : Dev) (f : Field) (inst v i : Nat) : (d.wr f inst v i).plan = d.plan := rfl
@[simp] theorem Dev.wr_links (d : Dev) (f : Field) (inst v i : Nat) : (d.wr f inst v i).links = d.links := rfl
@[simp] theorem Dev.wr_route (d : Dev) (f : Field) (inst v i : Nat) : (d.wr f inst v i).route = d.route := rfl
@[simp] theorem Dev.wr_host (d : Dev) (f : Field) (inst v i : Nat) : (d.wr f inst v i).host = d.host := rfl
@[simp] theorem Dev.wr_power (d : Dev) (f : Field) (inst v i : Nat) : (d.wr f inst v i).power = d.power := rfl
@[simp] theorem Dev.wr_recov (d : Dev) (f : Field) (inst v i : Nat) : (d.wr f inst v i).recov = d.recov := rfl
@[simp] theorem Dev.wr_sec (d : Dev) (f : Field) (inst v i : Nat) : (d.wr f inst v i).sec = d.sec := rfl
@[simp] theorem Dev.wr_rst (d : Dev) (f : Field) (inst v i : Nat) : (d.wr f inst v i).rst = d.rst := rfl
@[simp] theorem Dev.wr_resetting (d : Dev) (f : Field) (inst v i : Nat) : (d.wr f inst v i).resetting = d.resetting := rfl
@[simp] theorem Dev.wr_testInstr (d : Dev) (f : Field) (inst v i : Nat) : (d.wr f inst v i).testInstr = d.testInstr := rfl
@[simp] theorem Dev.wr_faults (d : Dev) (f : Field) (inst v i : Nat) : (d.wr f inst v i).faults = d.faults := rfl
@[simp] theorem Dev.wr_due (d : Dev) (f : Field) (inst v i : Nat) : (d.wr f inst v i).due = d.due := rfl
@[simp] theorem Dev.wr_spoiled (d : Dev) (f : Field) (inst v i : Nat) : (d.wr f inst v i).spoiled = d.spoiled := rfl
@[simp] theorem Dev.wr_writes (d : Dev) (f : Field) (inst v i : Nat) : (d.wr f inst v i).writes = d.writes := rfl
@[simp] theorem Dev.wr_out (d : Dev) (f : Field) (inst v i : Nat) : (d.wr f inst v i).out = d.out := rfl

/-! `p` -/
@[simp] theorem Dev.p_shadow (d : Dev) (f : Field) (v i : Nat) : (d.p f v i).shadow = d.shadow := rfl
@[simp] theorem Dev.p_latch (d : Dev) (f : Field) (v i : Nat) : (d.p f v i).latch = d.latch := rfl
@[simp] theorem Dev.p_pages (d : Dev) (f : Field) (v i : Nat) : (d.p f v i).pages = d.pages := rfl
@[simp] theorem Dev.p_groupAt (d : Dev) (f : Field) (v i : Nat) : (d.p f v i).groupAt = d.groupAt := rfl
@[simp] theorem Dev.p_now (d : Dev) (f : Field) (v i : Nat) : (d.p f v i).now = d.now := rfl
@[simp] theorem Dev.p_timerOn (d : Dev) (f : Field) (v i : Nat) : (d.p f v i).timerOn = d.timerOn := rfl
@[simp] theorem Dev.p_beatSeen (d : Dev) (f : Field) (v i : Nat) : (d.p f v i).beatSeen = d.beatSeen := rfl
@[simp] theorem Dev.p_boundary (d : Dev) (f : Field) (v i : Nat) : (d.p f v i).boundary = d.boundary := rfl
@[simp] theorem Dev.p_relAt (d : Dev) (f : Field) (v i : Nat) : (d.p f v i).relAt = d.relAt := rfl
@[simp] theorem Dev.p_free (d : Dev) (f : Field) (v i : Nat) : (d.p f v i).free = d.free := rfl
@[simp] theorem Dev.p_queues (d : Dev) (f : Field) (v i : Nat) : (d.p f v i).queues = d.queues := rfl
@[simp] theorem Dev.p_units (d : Dev) (f : Field) (v i : Nat) : (d.p f v i).units = d.units := rfl
@[simp] theorem Dev.p_clusters (d : Dev) (f : Field) (v i : Nat) : (d.p f v i).clusters = d.clusters := rfl
@[simp] theorem Dev.p_cmove (d : Dev) (f : Field) (v i : Nat) : (d.p f v i).cmove = d.cmove := rfl
@[simp] theorem Dev.p_rmove (d : Dev) (f : Field) (v i : Nat) : (d.p f v i).rmove = d.rmove := rfl
@[simp] theorem Dev.p_beat (d : Dev) (f : Field) (v i : Nat) : (d.p f v i).beat = d.beat := rfl
@[simp] theorem Dev.p_step (d : Dev) (f : Field) (v i : Nat) : (d.p f v i).step = d.step := rfl
@[simp] theorem Dev.p_plan (d : Dev) (f : Field) (v i : Nat) : (d.p f v i).plan = d.plan := rfl
@[simp] theorem Dev.p_links (d : Dev) (f : Field) (v i : Nat) : (d.p f v i).links = d.links := rfl
@[simp] theorem Dev.p_route (d : Dev) (f : Field) (v i : Nat) : (d.p f v i).route = d.route := rfl
@[simp] theorem Dev.p_host (d : Dev) (f : Field) (v i : Nat) : (d.p f v i).host = d.host := rfl
@[simp] theorem Dev.p_power (d : Dev) (f : Field) (v i : Nat) : (d.p f v i).power = d.power := rfl
@[simp] theorem Dev.p_recov (d : Dev) (f : Field) (v i : Nat) : (d.p f v i).recov = d.recov := rfl
@[simp] theorem Dev.p_sec (d : Dev) (f : Field) (v i : Nat) : (d.p f v i).sec = d.sec := rfl
@[simp] theorem Dev.p_rst (d : Dev) (f : Field) (v i : Nat) : (d.p f v i).rst = d.rst := rfl
@[simp] theorem Dev.p_resetting (d : Dev) (f : Field) (v i : Nat) : (d.p f v i).resetting = d.resetting := rfl
@[simp] theorem Dev.p_testInstr (d : Dev) (f : Field) (v i : Nat) : (d.p f v i).testInstr = d.testInstr := rfl
@[simp] theorem Dev.p_faults (d : Dev) (f : Field) (v i : Nat) : (d.p f v i).faults = d.faults := rfl
@[simp] theorem Dev.p_due (d : Dev) (f : Field) (v i : Nat) : (d.p f v i).due = d.due := rfl
@[simp] theorem Dev.p_spoiled (d : Dev) (f : Field) (v i : Nat) : (d.p f v i).spoiled = d.spoiled := rfl
@[simp] theorem Dev.p_writes (d : Dev) (f : Field) (v i : Nat) : (d.p f v i).writes = d.writes := rfl
@[simp] theorem Dev.p_out (d : Dev) (f : Field) (v i : Nat) : (d.p f v i).out = d.out := rfl

/-! `hw` -/
@[simp] theorem Dev.hw_shadow (d : Dev) (f : Field) (pg v : Nat) : (d.hw f pg v).shadow = d.shadow := rfl
@[simp] theorem Dev.hw_latch (d : Dev) (f : Field) (pg v : Nat) : (d.hw f pg v).latch = d.latch := rfl
@[simp] theorem Dev.hw_pages (d : Dev) (f : Field) (pg v : Nat) : (d.hw f pg v).pages = d.pages := rfl
@[simp] theorem Dev.hw_groupAt (d : Dev) (f : Field) (pg v : Nat) : (d.hw f pg v).groupAt = d.groupAt := rfl
@[simp] theorem Dev.hw_now (d : Dev) (f : Field) (pg v : Nat) : (d.hw f pg v).now = d.now := rfl
@[simp] theorem Dev.hw_timerOn (d : Dev) (f : Field) (pg v : Nat) : (d.hw f pg v).timerOn = d.timerOn := rfl
@[simp] theorem Dev.hw_beatSeen (d : Dev) (f : Field) (pg v : Nat) : (d.hw f pg v).beatSeen = d.beatSeen := rfl
@[simp] theorem Dev.hw_boundary (d : Dev) (f : Field) (pg v : Nat) : (d.hw f pg v).boundary = d.boundary := rfl
@[simp] theorem Dev.hw_relAt (d : Dev) (f : Field) (pg v : Nat) : (d.hw f pg v).relAt = d.relAt := rfl
@[simp] theorem Dev.hw_free (d : Dev) (f : Field) (pg v : Nat) : (d.hw f pg v).free = d.free := rfl
@[simp] theorem Dev.hw_queues (d : Dev) (f : Field) (pg v : Nat) : (d.hw f pg v).queues = d.queues := rfl
@[simp] theorem Dev.hw_units (d : Dev) (f : Field) (pg v : Nat) : (d.hw f pg v).units = d.units := rfl
@[simp] theorem Dev.hw_clusters (d : Dev) (f : Field) (pg v : Nat) : (d.hw f pg v).clusters = d.clusters := rfl
@[simp] theorem Dev.hw_cmove (d : Dev) (f : Field) (pg v : Nat) : (d.hw f pg v).cmove = d.cmove := rfl
@[simp] theorem Dev.hw_rmove (d : Dev) (f : Field) (pg v : Nat) : (d.hw f pg v).rmove = d.rmove := rfl
@[simp] theorem Dev.hw_beat (d : Dev) (f : Field) (pg v : Nat) : (d.hw f pg v).beat = d.beat := rfl
@[simp] theorem Dev.hw_step (d : Dev) (f : Field) (pg v : Nat) : (d.hw f pg v).step = d.step := rfl
@[simp] theorem Dev.hw_plan (d : Dev) (f : Field) (pg v : Nat) : (d.hw f pg v).plan = d.plan := rfl
@[simp] theorem Dev.hw_links (d : Dev) (f : Field) (pg v : Nat) : (d.hw f pg v).links = d.links := rfl
@[simp] theorem Dev.hw_route (d : Dev) (f : Field) (pg v : Nat) : (d.hw f pg v).route = d.route := rfl
@[simp] theorem Dev.hw_host (d : Dev) (f : Field) (pg v : Nat) : (d.hw f pg v).host = d.host := rfl
@[simp] theorem Dev.hw_power (d : Dev) (f : Field) (pg v : Nat) : (d.hw f pg v).power = d.power := rfl
@[simp] theorem Dev.hw_recov (d : Dev) (f : Field) (pg v : Nat) : (d.hw f pg v).recov = d.recov := rfl
@[simp] theorem Dev.hw_sec (d : Dev) (f : Field) (pg v : Nat) : (d.hw f pg v).sec = d.sec := rfl
@[simp] theorem Dev.hw_rst (d : Dev) (f : Field) (pg v : Nat) : (d.hw f pg v).rst = d.rst := rfl
@[simp] theorem Dev.hw_resetting (d : Dev) (f : Field) (pg v : Nat) : (d.hw f pg v).resetting = d.resetting := rfl
@[simp] theorem Dev.hw_testInstr (d : Dev) (f : Field) (pg v : Nat) : (d.hw f pg v).testInstr = d.testInstr := rfl
@[simp] theorem Dev.hw_faults (d : Dev) (f : Field) (pg v : Nat) : (d.hw f pg v).faults = d.faults := rfl
@[simp] theorem Dev.hw_due (d : Dev) (f : Field) (pg v : Nat) : (d.hw f pg v).due = d.due := rfl
@[simp] theorem Dev.hw_spoiled (d : Dev) (f : Field) (pg v : Nat) : (d.hw f pg v).spoiled = d.spoiled := rfl
@[simp] theorem Dev.hw_writes (d : Dev) (f : Field) (pg v : Nat) : (d.hw f pg v).writes = d.writes := rfl
@[simp] theorem Dev.hw_out (d : Dev) (f : Field) (pg v : Nat) : (d.hw f pg v).out = d.out := rfl

/-! `bump` -/
@[simp] theorem Dev.bump_shadow (d : Dev) (f : Field) (inst n i : Nat) : (d.bump f inst n i).shadow = d.shadow := rfl
@[simp] theorem Dev.bump_latch (d : Dev) (f : Field) (inst n i : Nat) : (d.bump f inst n i).latch = d.latch := rfl
@[simp] theorem Dev.bump_pages (d : Dev) (f : Field) (inst n i : Nat) : (d.bump f inst n i).pages = d.pages := rfl
@[simp] theorem Dev.bump_groupAt (d : Dev) (f : Field) (inst n i : Nat) : (d.bump f inst n i).groupAt = d.groupAt := rfl
@[simp] theorem Dev.bump_now (d : Dev) (f : Field) (inst n i : Nat) : (d.bump f inst n i).now = d.now := rfl
@[simp] theorem Dev.bump_timerOn (d : Dev) (f : Field) (inst n i : Nat) : (d.bump f inst n i).timerOn = d.timerOn := rfl
@[simp] theorem Dev.bump_beatSeen (d : Dev) (f : Field) (inst n i : Nat) : (d.bump f inst n i).beatSeen = d.beatSeen := rfl
@[simp] theorem Dev.bump_boundary (d : Dev) (f : Field) (inst n i : Nat) : (d.bump f inst n i).boundary = d.boundary := rfl
@[simp] theorem Dev.bump_relAt (d : Dev) (f : Field) (inst n i : Nat) : (d.bump f inst n i).relAt = d.relAt := rfl
@[simp] theorem Dev.bump_free (d : Dev) (f : Field) (inst n i : Nat) : (d.bump f inst n i).free = d.free := rfl
@[simp] theorem Dev.bump_queues (d : Dev) (f : Field) (inst n i : Nat) : (d.bump f inst n i).queues = d.queues := rfl
@[simp] theorem Dev.bump_units (d : Dev) (f : Field) (inst n i : Nat) : (d.bump f inst n i).units = d.units := rfl
@[simp] theorem Dev.bump_clusters (d : Dev) (f : Field) (inst n i : Nat) : (d.bump f inst n i).clusters = d.clusters := rfl
@[simp] theorem Dev.bump_cmove (d : Dev) (f : Field) (inst n i : Nat) : (d.bump f inst n i).cmove = d.cmove := rfl
@[simp] theorem Dev.bump_rmove (d : Dev) (f : Field) (inst n i : Nat) : (d.bump f inst n i).rmove = d.rmove := rfl
@[simp] theorem Dev.bump_beat (d : Dev) (f : Field) (inst n i : Nat) : (d.bump f inst n i).beat = d.beat := rfl
@[simp] theorem Dev.bump_step (d : Dev) (f : Field) (inst n i : Nat) : (d.bump f inst n i).step = d.step := rfl
@[simp] theorem Dev.bump_plan (d : Dev) (f : Field) (inst n i : Nat) : (d.bump f inst n i).plan = d.plan := rfl
@[simp] theorem Dev.bump_links (d : Dev) (f : Field) (inst n i : Nat) : (d.bump f inst n i).links = d.links := rfl
@[simp] theorem Dev.bump_route (d : Dev) (f : Field) (inst n i : Nat) : (d.bump f inst n i).route = d.route := rfl
@[simp] theorem Dev.bump_host (d : Dev) (f : Field) (inst n i : Nat) : (d.bump f inst n i).host = d.host := rfl
@[simp] theorem Dev.bump_power (d : Dev) (f : Field) (inst n i : Nat) : (d.bump f inst n i).power = d.power := rfl
@[simp] theorem Dev.bump_recov (d : Dev) (f : Field) (inst n i : Nat) : (d.bump f inst n i).recov = d.recov := rfl
@[simp] theorem Dev.bump_sec (d : Dev) (f : Field) (inst n i : Nat) : (d.bump f inst n i).sec = d.sec := rfl
@[simp] theorem Dev.bump_rst (d : Dev) (f : Field) (inst n i : Nat) : (d.bump f inst n i).rst = d.rst := rfl
@[simp] theorem Dev.bump_resetting (d : Dev) (f : Field) (inst n i : Nat) : (d.bump f inst n i).resetting = d.resetting := rfl
@[simp] theorem Dev.bump_testInstr (d : Dev) (f : Field) (inst n i : Nat) : (d.bump f inst n i).testInstr = d.testInstr := rfl
@[simp] theorem Dev.bump_faults (d : Dev) (f : Field) (inst n i : Nat) : (d.bump f inst n i).faults = d.faults := rfl
@[simp] theorem Dev.bump_due (d : Dev) (f : Field) (inst n i : Nat) : (d.bump f inst n i).due = d.due := rfl
@[simp] theorem Dev.bump_spoiled (d : Dev) (f : Field) (inst n i : Nat) : (d.bump f inst n i).spoiled = d.spoiled := rfl
@[simp] theorem Dev.bump_writes (d : Dev) (f : Field) (inst n i : Nat) : (d.bump f inst n i).writes = d.writes := rfl
@[simp] theorem Dev.bump_out (d : Dev) (f : Field) (inst n i : Nat) : (d.bump f inst n i).out = d.out := rfl

/-! `count` -/
@[simp] theorem Dev.count_shadow (d : Dev) (f : Field) (inst n i : Nat) : (d.count f inst n i).shadow = d.shadow := rfl
@[simp] theorem Dev.count_latch (d : Dev) (f : Field) (inst n i : Nat) : (d.count f inst n i).latch = d.latch := rfl
@[simp] theorem Dev.count_pages (d : Dev) (f : Field) (inst n i : Nat) : (d.count f inst n i).pages = d.pages := rfl
@[simp] theorem Dev.count_groupAt (d : Dev) (f : Field) (inst n i : Nat) : (d.count f inst n i).groupAt = d.groupAt := rfl
@[simp] theorem Dev.count_now (d : Dev) (f : Field) (inst n i : Nat) : (d.count f inst n i).now = d.now := rfl
@[simp] theorem Dev.count_timerOn (d : Dev) (f : Field) (inst n i : Nat) : (d.count f inst n i).timerOn = d.timerOn := rfl
@[simp] theorem Dev.count_beatSeen (d : Dev) (f : Field) (inst n i : Nat) : (d.count f inst n i).beatSeen = d.beatSeen := rfl
@[simp] theorem Dev.count_boundary (d : Dev) (f : Field) (inst n i : Nat) : (d.count f inst n i).boundary = d.boundary := rfl
@[simp] theorem Dev.count_relAt (d : Dev) (f : Field) (inst n i : Nat) : (d.count f inst n i).relAt = d.relAt := rfl
@[simp] theorem Dev.count_free (d : Dev) (f : Field) (inst n i : Nat) : (d.count f inst n i).free = d.free := rfl
@[simp] theorem Dev.count_queues (d : Dev) (f : Field) (inst n i : Nat) : (d.count f inst n i).queues = d.queues := rfl
@[simp] theorem Dev.count_units (d : Dev) (f : Field) (inst n i : Nat) : (d.count f inst n i).units = d.units := rfl
@[simp] theorem Dev.count_clusters (d : Dev) (f : Field) (inst n i : Nat) : (d.count f inst n i).clusters = d.clusters := rfl
@[simp] theorem Dev.count_cmove (d : Dev) (f : Field) (inst n i : Nat) : (d.count f inst n i).cmove = d.cmove := rfl
@[simp] theorem Dev.count_rmove (d : Dev) (f : Field) (inst n i : Nat) : (d.count f inst n i).rmove = d.rmove := rfl
@[simp] theorem Dev.count_beat (d : Dev) (f : Field) (inst n i : Nat) : (d.count f inst n i).beat = d.beat := rfl
@[simp] theorem Dev.count_step (d : Dev) (f : Field) (inst n i : Nat) : (d.count f inst n i).step = d.step := rfl
@[simp] theorem Dev.count_plan (d : Dev) (f : Field) (inst n i : Nat) : (d.count f inst n i).plan = d.plan := rfl
@[simp] theorem Dev.count_links (d : Dev) (f : Field) (inst n i : Nat) : (d.count f inst n i).links = d.links := rfl
@[simp] theorem Dev.count_route (d : Dev) (f : Field) (inst n i : Nat) : (d.count f inst n i).route = d.route := rfl
@[simp] theorem Dev.count_host (d : Dev) (f : Field) (inst n i : Nat) : (d.count f inst n i).host = d.host := rfl
@[simp] theorem Dev.count_power (d : Dev) (f : Field) (inst n i : Nat) : (d.count f inst n i).power = d.power := rfl
@[simp] theorem Dev.count_recov (d : Dev) (f : Field) (inst n i : Nat) : (d.count f inst n i).recov = d.recov := rfl
@[simp] theorem Dev.count_sec (d : Dev) (f : Field) (inst n i : Nat) : (d.count f inst n i).sec = d.sec := rfl
@[simp] theorem Dev.count_rst (d : Dev) (f : Field) (inst n i : Nat) : (d.count f inst n i).rst = d.rst := rfl
@[simp] theorem Dev.count_resetting (d : Dev) (f : Field) (inst n i : Nat) : (d.count f inst n i).resetting = d.resetting := rfl
@[simp] theorem Dev.count_testInstr (d : Dev) (f : Field) (inst n i : Nat) : (d.count f inst n i).testInstr = d.testInstr := rfl
@[simp] theorem Dev.count_faults (d : Dev) (f : Field) (inst n i : Nat) : (d.count f inst n i).faults = d.faults := rfl
@[simp] theorem Dev.count_due (d : Dev) (f : Field) (inst n i : Nat) : (d.count f inst n i).due = d.due := rfl
@[simp] theorem Dev.count_spoiled (d : Dev) (f : Field) (inst n i : Nat) : (d.count f inst n i).spoiled = d.spoiled := rfl
@[simp] theorem Dev.count_writes (d : Dev) (f : Field) (inst n i : Nat) : (d.count f inst n i).writes = d.writes := rfl
@[simp] theorem Dev.count_out (d : Dev) (f : Field) (inst n i : Nat) : (d.count f inst n i).out = d.out := rfl

/-! `setBs` -/
@[simp] theorem Dev.setBs_shadow (d : Dev) (pg v : Nat) : (d.setBs pg v).shadow = d.shadow := rfl
@[simp] theorem Dev.setBs_latch (d : Dev) (pg v : Nat) : (d.setBs pg v).latch = d.latch := rfl
@[simp] theorem Dev.setBs_pages (d : Dev) (pg v : Nat) : (d.setBs pg v).pages = d.pages := rfl
@[simp] theorem Dev.setBs_groupAt (d : Dev) (pg v : Nat) : (d.setBs pg v).groupAt = d.groupAt := rfl
@[simp] theorem Dev.setBs_now (d : Dev) (pg v : Nat) : (d.setBs pg v).now = d.now := rfl
@[simp] theorem Dev.setBs_timerOn (d : Dev) (pg v : Nat) : (d.setBs pg v).timerOn = d.timerOn := rfl
@[simp] theorem Dev.setBs_beatSeen (d : Dev) (pg v : Nat) : (d.setBs pg v).beatSeen = d.beatSeen := rfl
@[simp] theorem Dev.setBs_boundary (d : Dev) (pg v : Nat) : (d.setBs pg v).boundary = d.boundary := rfl
@[simp] theorem Dev.setBs_relAt (d : Dev) (pg v : Nat) : (d.setBs pg v).relAt = d.relAt := rfl
@[simp] theorem Dev.setBs_free (d : Dev) (pg v : Nat) : (d.setBs pg v).free = d.free := rfl
@[simp] theorem Dev.setBs_queues (d : Dev) (pg v : Nat) : (d.setBs pg v).queues = d.queues := rfl
@[simp] theorem Dev.setBs_units (d : Dev) (pg v : Nat) : (d.setBs pg v).units = d.units := rfl
@[simp] theorem Dev.setBs_clusters (d : Dev) (pg v : Nat) : (d.setBs pg v).clusters = d.clusters := rfl
@[simp] theorem Dev.setBs_cmove (d : Dev) (pg v : Nat) : (d.setBs pg v).cmove = d.cmove := rfl
@[simp] theorem Dev.setBs_rmove (d : Dev) (pg v : Nat) : (d.setBs pg v).rmove = d.rmove := rfl
@[simp] theorem Dev.setBs_beat (d : Dev) (pg v : Nat) : (d.setBs pg v).beat = d.beat := rfl
@[simp] theorem Dev.setBs_step (d : Dev) (pg v : Nat) : (d.setBs pg v).step = d.step := rfl
@[simp] theorem Dev.setBs_plan (d : Dev) (pg v : Nat) : (d.setBs pg v).plan = d.plan := rfl
@[simp] theorem Dev.setBs_links (d : Dev) (pg v : Nat) : (d.setBs pg v).links = d.links := rfl
@[simp] theorem Dev.setBs_route (d : Dev) (pg v : Nat) : (d.setBs pg v).route = d.route := rfl
@[simp] theorem Dev.setBs_host (d : Dev) (pg v : Nat) : (d.setBs pg v).host = d.host := rfl
@[simp] theorem Dev.setBs_power (d : Dev) (pg v : Nat) : (d.setBs pg v).power = d.power := rfl
@[simp] theorem Dev.setBs_recov (d : Dev) (pg v : Nat) : (d.setBs pg v).recov = d.recov := rfl
@[simp] theorem Dev.setBs_sec (d : Dev) (pg v : Nat) : (d.setBs pg v).sec = d.sec := rfl
@[simp] theorem Dev.setBs_rst (d : Dev) (pg v : Nat) : (d.setBs pg v).rst = d.rst := rfl
@[simp] theorem Dev.setBs_resetting (d : Dev) (pg v : Nat) : (d.setBs pg v).resetting = d.resetting := rfl
@[simp] theorem Dev.setBs_testInstr (d : Dev) (pg v : Nat) : (d.setBs pg v).testInstr = d.testInstr := rfl
@[simp] theorem Dev.setBs_faults (d : Dev) (pg v : Nat) : (d.setBs pg v).faults = d.faults := rfl
@[simp] theorem Dev.setBs_due (d : Dev) (pg v : Nat) : (d.setBs pg v).due = d.due := rfl
@[simp] theorem Dev.setBs_spoiled (d : Dev) (pg v : Nat) : (d.setBs pg v).spoiled = d.spoiled := rfl
@[simp] theorem Dev.setBs_writes (d : Dev) (pg v : Nat) : (d.setBs pg v).writes = d.writes := rfl
@[simp] theorem Dev.setBs_out (d : Dev) (pg v : Nat) : (d.setBs pg v).out = d.out := rfl

/-! `shadowSet` -/
@[simp] theorem Dev.shadowSet_regs (d : Dev) (f : Field) (pg i v : Nat) : (d.shadowSet f pg i v).regs = d.regs := rfl
@[simp] theorem Dev.shadowSet_latch (d : Dev) (f : Field) (pg i v : Nat) : (d.shadowSet f pg i v).latch = d.latch := rfl
@[simp] theorem Dev.shadowSet_pages (d : Dev) (f : Field) (pg i v : Nat) : (d.shadowSet f pg i v).pages = d.pages := rfl
@[simp] theorem Dev.shadowSet_groupAt (d : Dev) (f : Field) (pg i v : Nat) : (d.shadowSet f pg i v).groupAt = d.groupAt := rfl
@[simp] theorem Dev.shadowSet_now (d : Dev) (f : Field) (pg i v : Nat) : (d.shadowSet f pg i v).now = d.now := rfl
@[simp] theorem Dev.shadowSet_timerOn (d : Dev) (f : Field) (pg i v : Nat) : (d.shadowSet f pg i v).timerOn = d.timerOn := rfl
@[simp] theorem Dev.shadowSet_beatSeen (d : Dev) (f : Field) (pg i v : Nat) : (d.shadowSet f pg i v).beatSeen = d.beatSeen := rfl
@[simp] theorem Dev.shadowSet_boundary (d : Dev) (f : Field) (pg i v : Nat) : (d.shadowSet f pg i v).boundary = d.boundary := rfl
@[simp] theorem Dev.shadowSet_relAt (d : Dev) (f : Field) (pg i v : Nat) : (d.shadowSet f pg i v).relAt = d.relAt := rfl
@[simp] theorem Dev.shadowSet_free (d : Dev) (f : Field) (pg i v : Nat) : (d.shadowSet f pg i v).free = d.free := rfl
@[simp] theorem Dev.shadowSet_queues (d : Dev) (f : Field) (pg i v : Nat) : (d.shadowSet f pg i v).queues = d.queues := rfl
@[simp] theorem Dev.shadowSet_units (d : Dev) (f : Field) (pg i v : Nat) : (d.shadowSet f pg i v).units = d.units := rfl
@[simp] theorem Dev.shadowSet_clusters (d : Dev) (f : Field) (pg i v : Nat) : (d.shadowSet f pg i v).clusters = d.clusters := rfl
@[simp] theorem Dev.shadowSet_cmove (d : Dev) (f : Field) (pg i v : Nat) : (d.shadowSet f pg i v).cmove = d.cmove := rfl
@[simp] theorem Dev.shadowSet_rmove (d : Dev) (f : Field) (pg i v : Nat) : (d.shadowSet f pg i v).rmove = d.rmove := rfl
@[simp] theorem Dev.shadowSet_beat (d : Dev) (f : Field) (pg i v : Nat) : (d.shadowSet f pg i v).beat = d.beat := rfl
@[simp] theorem Dev.shadowSet_step (d : Dev) (f : Field) (pg i v : Nat) : (d.shadowSet f pg i v).step = d.step := rfl
@[simp] theorem Dev.shadowSet_plan (d : Dev) (f : Field) (pg i v : Nat) : (d.shadowSet f pg i v).plan = d.plan := rfl
@[simp] theorem Dev.shadowSet_links (d : Dev) (f : Field) (pg i v : Nat) : (d.shadowSet f pg i v).links = d.links := rfl
@[simp] theorem Dev.shadowSet_route (d : Dev) (f : Field) (pg i v : Nat) : (d.shadowSet f pg i v).route = d.route := rfl
@[simp] theorem Dev.shadowSet_host (d : Dev) (f : Field) (pg i v : Nat) : (d.shadowSet f pg i v).host = d.host := rfl
@[simp] theorem Dev.shadowSet_power (d : Dev) (f : Field) (pg i v : Nat) : (d.shadowSet f pg i v).power = d.power := rfl
@[simp] theorem Dev.shadowSet_recov (d : Dev) (f : Field) (pg i v : Nat) : (d.shadowSet f pg i v).recov = d.recov := rfl
@[simp] theorem Dev.shadowSet_sec (d : Dev) (f : Field) (pg i v : Nat) : (d.shadowSet f pg i v).sec = d.sec := rfl
@[simp] theorem Dev.shadowSet_rst (d : Dev) (f : Field) (pg i v : Nat) : (d.shadowSet f pg i v).rst = d.rst := rfl
@[simp] theorem Dev.shadowSet_resetting (d : Dev) (f : Field) (pg i v : Nat) : (d.shadowSet f pg i v).resetting = d.resetting := rfl
@[simp] theorem Dev.shadowSet_testInstr (d : Dev) (f : Field) (pg i v : Nat) : (d.shadowSet f pg i v).testInstr = d.testInstr := rfl
@[simp] theorem Dev.shadowSet_faults (d : Dev) (f : Field) (pg i v : Nat) : (d.shadowSet f pg i v).faults = d.faults := rfl
@[simp] theorem Dev.shadowSet_due (d : Dev) (f : Field) (pg i v : Nat) : (d.shadowSet f pg i v).due = d.due := rfl
@[simp] theorem Dev.shadowSet_spoiled (d : Dev) (f : Field) (pg i v : Nat) : (d.shadowSet f pg i v).spoiled = d.spoiled := rfl
@[simp] theorem Dev.shadowSet_writes (d : Dev) (f : Field) (pg i v : Nat) : (d.shadowSet f pg i v).writes = d.writes := rfl
@[simp] theorem Dev.shadowSet_out (d : Dev) (f : Field) (pg i v : Nat) : (d.shadowSet f pg i v).out = d.out := rfl

/-! `reloadShadow` -/
@[simp] theorem Dev.reloadShadow_regs (d : Dev) (pg : Nat) : (d.reloadShadow pg).regs = d.regs := rfl
@[simp] theorem Dev.reloadShadow_latch (d : Dev) (pg : Nat) : (d.reloadShadow pg).latch = d.latch := rfl
@[simp] theorem Dev.reloadShadow_pages (d : Dev) (pg : Nat) : (d.reloadShadow pg).pages = d.pages := rfl
@[simp] theorem Dev.reloadShadow_groupAt (d : Dev) (pg : Nat) : (d.reloadShadow pg).groupAt = d.groupAt := rfl
@[simp] theorem Dev.reloadShadow_now (d : Dev) (pg : Nat) : (d.reloadShadow pg).now = d.now := rfl
@[simp] theorem Dev.reloadShadow_timerOn (d : Dev) (pg : Nat) : (d.reloadShadow pg).timerOn = d.timerOn := rfl
@[simp] theorem Dev.reloadShadow_beatSeen (d : Dev) (pg : Nat) : (d.reloadShadow pg).beatSeen = d.beatSeen := rfl
@[simp] theorem Dev.reloadShadow_boundary (d : Dev) (pg : Nat) : (d.reloadShadow pg).boundary = d.boundary := rfl
@[simp] theorem Dev.reloadShadow_relAt (d : Dev) (pg : Nat) : (d.reloadShadow pg).relAt = d.relAt := rfl
@[simp] theorem Dev.reloadShadow_free (d : Dev) (pg : Nat) : (d.reloadShadow pg).free = d.free := rfl
@[simp] theorem Dev.reloadShadow_queues (d : Dev) (pg : Nat) : (d.reloadShadow pg).queues = d.queues := rfl
@[simp] theorem Dev.reloadShadow_units (d : Dev) (pg : Nat) : (d.reloadShadow pg).units = d.units := rfl
@[simp] theorem Dev.reloadShadow_clusters (d : Dev) (pg : Nat) : (d.reloadShadow pg).clusters = d.clusters := rfl
@[simp] theorem Dev.reloadShadow_cmove (d : Dev) (pg : Nat) : (d.reloadShadow pg).cmove = d.cmove := rfl
@[simp] theorem Dev.reloadShadow_rmove (d : Dev) (pg : Nat) : (d.reloadShadow pg).rmove = d.rmove := rfl
@[simp] theorem Dev.reloadShadow_beat (d : Dev) (pg : Nat) : (d.reloadShadow pg).beat = d.beat := rfl
@[simp] theorem Dev.reloadShadow_step (d : Dev) (pg : Nat) : (d.reloadShadow pg).step = d.step := rfl
@[simp] theorem Dev.reloadShadow_plan (d : Dev) (pg : Nat) : (d.reloadShadow pg).plan = d.plan := rfl
@[simp] theorem Dev.reloadShadow_links (d : Dev) (pg : Nat) : (d.reloadShadow pg).links = d.links := rfl
@[simp] theorem Dev.reloadShadow_route (d : Dev) (pg : Nat) : (d.reloadShadow pg).route = d.route := rfl
@[simp] theorem Dev.reloadShadow_host (d : Dev) (pg : Nat) : (d.reloadShadow pg).host = d.host := rfl
@[simp] theorem Dev.reloadShadow_power (d : Dev) (pg : Nat) : (d.reloadShadow pg).power = d.power := rfl
@[simp] theorem Dev.reloadShadow_recov (d : Dev) (pg : Nat) : (d.reloadShadow pg).recov = d.recov := rfl
@[simp] theorem Dev.reloadShadow_sec (d : Dev) (pg : Nat) : (d.reloadShadow pg).sec = d.sec := rfl
@[simp] theorem Dev.reloadShadow_rst (d : Dev) (pg : Nat) : (d.reloadShadow pg).rst = d.rst := rfl
@[simp] theorem Dev.reloadShadow_resetting (d : Dev) (pg : Nat) : (d.reloadShadow pg).resetting = d.resetting := rfl
@[simp] theorem Dev.reloadShadow_testInstr (d : Dev) (pg : Nat) : (d.reloadShadow pg).testInstr = d.testInstr := rfl
@[simp] theorem Dev.reloadShadow_faults (d : Dev) (pg : Nat) : (d.reloadShadow pg).faults = d.faults := rfl
@[simp] theorem Dev.reloadShadow_due (d : Dev) (pg : Nat) : (d.reloadShadow pg).due = d.due := rfl
@[simp] theorem Dev.reloadShadow_spoiled (d : Dev) (pg : Nat) : (d.reloadShadow pg).spoiled = d.spoiled := rfl
@[simp] theorem Dev.reloadShadow_writes (d : Dev) (pg : Nat) : (d.reloadShadow pg).writes = d.writes := rfl
@[simp] theorem Dev.reloadShadow_out (d : Dev) (pg : Nat) : (d.reloadShadow pg).out = d.out := rfl

/-! `setInfo` -/
@[simp] theorem Dev.setInfo_regs (d : Dev) (pg : Nat) (x : PageInfo) : (d.setInfo pg x).regs = d.regs := rfl
@[simp] theorem Dev.setInfo_shadow (d : Dev) (pg : Nat) (x : PageInfo) : (d.setInfo pg x).shadow = d.shadow := rfl
@[simp] theorem Dev.setInfo_latch (d : Dev) (pg : Nat) (x : PageInfo) : (d.setInfo pg x).latch = d.latch := rfl
@[simp] theorem Dev.setInfo_groupAt (d : Dev) (pg : Nat) (x : PageInfo) : (d.setInfo pg x).groupAt = d.groupAt := rfl
@[simp] theorem Dev.setInfo_now (d : Dev) (pg : Nat) (x : PageInfo) : (d.setInfo pg x).now = d.now := rfl
@[simp] theorem Dev.setInfo_timerOn (d : Dev) (pg : Nat) (x : PageInfo) : (d.setInfo pg x).timerOn = d.timerOn := rfl
@[simp] theorem Dev.setInfo_beatSeen (d : Dev) (pg : Nat) (x : PageInfo) : (d.setInfo pg x).beatSeen = d.beatSeen := rfl
@[simp] theorem Dev.setInfo_boundary (d : Dev) (pg : Nat) (x : PageInfo) : (d.setInfo pg x).boundary = d.boundary := rfl
@[simp] theorem Dev.setInfo_relAt (d : Dev) (pg : Nat) (x : PageInfo) : (d.setInfo pg x).relAt = d.relAt := rfl
@[simp] theorem Dev.setInfo_free (d : Dev) (pg : Nat) (x : PageInfo) : (d.setInfo pg x).free = d.free := rfl
@[simp] theorem Dev.setInfo_queues (d : Dev) (pg : Nat) (x : PageInfo) : (d.setInfo pg x).queues = d.queues := rfl
@[simp] theorem Dev.setInfo_units (d : Dev) (pg : Nat) (x : PageInfo) : (d.setInfo pg x).units = d.units := rfl
@[simp] theorem Dev.setInfo_clusters (d : Dev) (pg : Nat) (x : PageInfo) : (d.setInfo pg x).clusters = d.clusters := rfl
@[simp] theorem Dev.setInfo_cmove (d : Dev) (pg : Nat) (x : PageInfo) : (d.setInfo pg x).cmove = d.cmove := rfl
@[simp] theorem Dev.setInfo_rmove (d : Dev) (pg : Nat) (x : PageInfo) : (d.setInfo pg x).rmove = d.rmove := rfl
@[simp] theorem Dev.setInfo_beat (d : Dev) (pg : Nat) (x : PageInfo) : (d.setInfo pg x).beat = d.beat := rfl
@[simp] theorem Dev.setInfo_step (d : Dev) (pg : Nat) (x : PageInfo) : (d.setInfo pg x).step = d.step := rfl
@[simp] theorem Dev.setInfo_plan (d : Dev) (pg : Nat) (x : PageInfo) : (d.setInfo pg x).plan = d.plan := rfl
@[simp] theorem Dev.setInfo_links (d : Dev) (pg : Nat) (x : PageInfo) : (d.setInfo pg x).links = d.links := rfl
@[simp] theorem Dev.setInfo_route (d : Dev) (pg : Nat) (x : PageInfo) : (d.setInfo pg x).route = d.route := rfl
@[simp] theorem Dev.setInfo_host (d : Dev) (pg : Nat) (x : PageInfo) : (d.setInfo pg x).host = d.host := rfl
@[simp] theorem Dev.setInfo_power (d : Dev) (pg : Nat) (x : PageInfo) : (d.setInfo pg x).power = d.power := rfl
@[simp] theorem Dev.setInfo_recov (d : Dev) (pg : Nat) (x : PageInfo) : (d.setInfo pg x).recov = d.recov := rfl
@[simp] theorem Dev.setInfo_sec (d : Dev) (pg : Nat) (x : PageInfo) : (d.setInfo pg x).sec = d.sec := rfl
@[simp] theorem Dev.setInfo_rst (d : Dev) (pg : Nat) (x : PageInfo) : (d.setInfo pg x).rst = d.rst := rfl
@[simp] theorem Dev.setInfo_resetting (d : Dev) (pg : Nat) (x : PageInfo) : (d.setInfo pg x).resetting = d.resetting := rfl
@[simp] theorem Dev.setInfo_testInstr (d : Dev) (pg : Nat) (x : PageInfo) : (d.setInfo pg x).testInstr = d.testInstr := rfl
@[simp] theorem Dev.setInfo_faults (d : Dev) (pg : Nat) (x : PageInfo) : (d.setInfo pg x).faults = d.faults := rfl
@[simp] theorem Dev.setInfo_due (d : Dev) (pg : Nat) (x : PageInfo) : (d.setInfo pg x).due = d.due := rfl
@[simp] theorem Dev.setInfo_spoiled (d : Dev) (pg : Nat) (x : PageInfo) : (d.setInfo pg x).spoiled = d.spoiled := rfl
@[simp] theorem Dev.setInfo_writes (d : Dev) (pg : Nat) (x : PageInfo) : (d.setInfo pg x).writes = d.writes := rfl
@[simp] theorem Dev.setInfo_out (d : Dev) (pg : Nat) (x : PageInfo) : (d.setInfo pg x).out = d.out := rfl

/-! `setUnit` -/
@[simp] theorem Dev.setUnit_regs (d : Dev) (u : Nat) (x : UnitSt) : (d.setUnit u x).regs = d.regs := rfl
@[simp] theorem Dev.setUnit_shadow (d : Dev) (u : Nat) (x : UnitSt) : (d.setUnit u x).shadow = d.shadow := rfl
@[simp] theorem Dev.setUnit_latch (d : Dev) (u : Nat) (x : UnitSt) : (d.setUnit u x).latch = d.latch := rfl
@[simp] theorem Dev.setUnit_pages (d : Dev) (u : Nat) (x : UnitSt) : (d.setUnit u x).pages = d.pages := rfl
@[simp] theorem Dev.setUnit_groupAt (d : Dev) (u : Nat) (x : UnitSt) : (d.setUnit u x).groupAt = d.groupAt := rfl
@[simp] theorem Dev.setUnit_now (d : Dev) (u : Nat) (x : UnitSt) : (d.setUnit u x).now = d.now := rfl
@[simp] theorem Dev.setUnit_timerOn (d : Dev) (u : Nat) (x : UnitSt) : (d.setUnit u x).timerOn = d.timerOn := rfl
@[simp] theorem Dev.setUnit_beatSeen (d : Dev) (u : Nat) (x : UnitSt) : (d.setUnit u x).beatSeen = d.beatSeen := rfl
@[simp] theorem Dev.setUnit_boundary (d : Dev) (u : Nat) (x : UnitSt) : (d.setUnit u x).boundary = d.boundary := rfl
@[simp] theorem Dev.setUnit_relAt (d : Dev) (u : Nat) (x : UnitSt) : (d.setUnit u x).relAt = d.relAt := rfl
@[simp] theorem Dev.setUnit_free (d : Dev) (u : Nat) (x : UnitSt) : (d.setUnit u x).free = d.free := rfl
@[simp] theorem Dev.setUnit_queues (d : Dev) (u : Nat) (x : UnitSt) : (d.setUnit u x).queues = d.queues := rfl
@[simp] theorem Dev.setUnit_clusters (d : Dev) (u : Nat) (x : UnitSt) : (d.setUnit u x).clusters = d.clusters := rfl
@[simp] theorem Dev.setUnit_cmove (d : Dev) (u : Nat) (x : UnitSt) : (d.setUnit u x).cmove = d.cmove := rfl
@[simp] theorem Dev.setUnit_rmove (d : Dev) (u : Nat) (x : UnitSt) : (d.setUnit u x).rmove = d.rmove := rfl
@[simp] theorem Dev.setUnit_beat (d : Dev) (u : Nat) (x : UnitSt) : (d.setUnit u x).beat = d.beat := rfl
@[simp] theorem Dev.setUnit_step (d : Dev) (u : Nat) (x : UnitSt) : (d.setUnit u x).step = d.step := rfl
@[simp] theorem Dev.setUnit_plan (d : Dev) (u : Nat) (x : UnitSt) : (d.setUnit u x).plan = d.plan := rfl
@[simp] theorem Dev.setUnit_links (d : Dev) (u : Nat) (x : UnitSt) : (d.setUnit u x).links = d.links := rfl
@[simp] theorem Dev.setUnit_route (d : Dev) (u : Nat) (x : UnitSt) : (d.setUnit u x).route = d.route := rfl
@[simp] theorem Dev.setUnit_host (d : Dev) (u : Nat) (x : UnitSt) : (d.setUnit u x).host = d.host := rfl
@[simp] theorem Dev.setUnit_power (d : Dev) (u : Nat) (x : UnitSt) : (d.setUnit u x).power = d.power := rfl
@[simp] theorem Dev.setUnit_recov (d : Dev) (u : Nat) (x : UnitSt) : (d.setUnit u x).recov = d.recov := rfl
@[simp] theorem Dev.setUnit_sec (d : Dev) (u : Nat) (x : UnitSt) : (d.setUnit u x).sec = d.sec := rfl
@[simp] theorem Dev.setUnit_rst (d : Dev) (u : Nat) (x : UnitSt) : (d.setUnit u x).rst = d.rst := rfl
@[simp] theorem Dev.setUnit_resetting (d : Dev) (u : Nat) (x : UnitSt) : (d.setUnit u x).resetting = d.resetting := rfl
@[simp] theorem Dev.setUnit_testInstr (d : Dev) (u : Nat) (x : UnitSt) : (d.setUnit u x).testInstr = d.testInstr := rfl
@[simp] theorem Dev.setUnit_faults (d : Dev) (u : Nat) (x : UnitSt) : (d.setUnit u x).faults = d.faults := rfl
@[simp] theorem Dev.setUnit_due (d : Dev) (u : Nat) (x : UnitSt) : (d.setUnit u x).due = d.due := rfl
@[simp] theorem Dev.setUnit_spoiled (d : Dev) (u : Nat) (x : UnitSt) : (d.setUnit u x).spoiled = d.spoiled := rfl
@[simp] theorem Dev.setUnit_writes (d : Dev) (u : Nat) (x : UnitSt) : (d.setUnit u x).writes = d.writes := rfl
@[simp] theorem Dev.setUnit_out (d : Dev) (u : Nat) (x : UnitSt) : (d.setUnit u x).out = d.out := rfl

/-! `setCluster` -/
@[simp] theorem Dev.setCluster_regs (d : Dev) (c : Nat) (x : ClusterSt) : (d.setCluster c x).regs = d.regs := rfl
@[simp] theorem Dev.setCluster_shadow (d : Dev) (c : Nat) (x : ClusterSt) : (d.setCluster c x).shadow = d.shadow := rfl
@[simp] theorem Dev.setCluster_latch (d : Dev) (c : Nat) (x : ClusterSt) : (d.setCluster c x).latch = d.latch := rfl
@[simp] theorem Dev.setCluster_pages (d : Dev) (c : Nat) (x : ClusterSt) : (d.setCluster c x).pages = d.pages := rfl
@[simp] theorem Dev.setCluster_groupAt (d : Dev) (c : Nat) (x : ClusterSt) : (d.setCluster c x).groupAt = d.groupAt := rfl
@[simp] theorem Dev.setCluster_now (d : Dev) (c : Nat) (x : ClusterSt) : (d.setCluster c x).now = d.now := rfl
@[simp] theorem Dev.setCluster_timerOn (d : Dev) (c : Nat) (x : ClusterSt) : (d.setCluster c x).timerOn = d.timerOn := rfl
@[simp] theorem Dev.setCluster_beatSeen (d : Dev) (c : Nat) (x : ClusterSt) : (d.setCluster c x).beatSeen = d.beatSeen := rfl
@[simp] theorem Dev.setCluster_boundary (d : Dev) (c : Nat) (x : ClusterSt) : (d.setCluster c x).boundary = d.boundary := rfl
@[simp] theorem Dev.setCluster_relAt (d : Dev) (c : Nat) (x : ClusterSt) : (d.setCluster c x).relAt = d.relAt := rfl
@[simp] theorem Dev.setCluster_free (d : Dev) (c : Nat) (x : ClusterSt) : (d.setCluster c x).free = d.free := rfl
@[simp] theorem Dev.setCluster_queues (d : Dev) (c : Nat) (x : ClusterSt) : (d.setCluster c x).queues = d.queues := rfl
@[simp] theorem Dev.setCluster_units (d : Dev) (c : Nat) (x : ClusterSt) : (d.setCluster c x).units = d.units := rfl
@[simp] theorem Dev.setCluster_cmove (d : Dev) (c : Nat) (x : ClusterSt) : (d.setCluster c x).cmove = d.cmove := rfl
@[simp] theorem Dev.setCluster_rmove (d : Dev) (c : Nat) (x : ClusterSt) : (d.setCluster c x).rmove = d.rmove := rfl
@[simp] theorem Dev.setCluster_beat (d : Dev) (c : Nat) (x : ClusterSt) : (d.setCluster c x).beat = d.beat := rfl
@[simp] theorem Dev.setCluster_step (d : Dev) (c : Nat) (x : ClusterSt) : (d.setCluster c x).step = d.step := rfl
@[simp] theorem Dev.setCluster_plan (d : Dev) (c : Nat) (x : ClusterSt) : (d.setCluster c x).plan = d.plan := rfl
@[simp] theorem Dev.setCluster_links (d : Dev) (c : Nat) (x : ClusterSt) : (d.setCluster c x).links = d.links := rfl
@[simp] theorem Dev.setCluster_route (d : Dev) (c : Nat) (x : ClusterSt) : (d.setCluster c x).route = d.route := rfl
@[simp] theorem Dev.setCluster_host (d : Dev) (c : Nat) (x : ClusterSt) : (d.setCluster c x).host = d.host := rfl
@[simp] theorem Dev.setCluster_power (d : Dev) (c : Nat) (x : ClusterSt) : (d.setCluster c x).power = d.power := rfl
@[simp] theorem Dev.setCluster_recov (d : Dev) (c : Nat) (x : ClusterSt) : (d.setCluster c x).recov = d.recov := rfl
@[simp] theorem Dev.setCluster_sec (d : Dev) (c : Nat) (x : ClusterSt) : (d.setCluster c x).sec = d.sec := rfl
@[simp] theorem Dev.setCluster_rst (d : Dev) (c : Nat) (x : ClusterSt) : (d.setCluster c x).rst = d.rst := rfl
@[simp] theorem Dev.setCluster_resetting (d : Dev) (c : Nat) (x : ClusterSt) : (d.setCluster c x).resetting = d.resetting := rfl
@[simp] theorem Dev.setCluster_testInstr (d : Dev) (c : Nat) (x : ClusterSt) : (d.setCluster c x).testInstr = d.testInstr := rfl
@[simp] theorem Dev.setCluster_faults (d : Dev) (c : Nat) (x : ClusterSt) : (d.setCluster c x).faults = d.faults := rfl
@[simp] theorem Dev.setCluster_due (d : Dev) (c : Nat) (x : ClusterSt) : (d.setCluster c x).due = d.due := rfl
@[simp] theorem Dev.setCluster_spoiled (d : Dev) (c : Nat) (x : ClusterSt) : (d.setCluster c x).spoiled = d.spoiled := rfl
@[simp] theorem Dev.setCluster_writes (d : Dev) (c : Nat) (x : ClusterSt) : (d.setCluster c x).writes = d.writes := rfl
@[simp] theorem Dev.setCluster_out (d : Dev) (c : Nat) (x : ClusterSt) : (d.setCluster c x).out = d.out := rfl

/-! `poke` -/
@[simp] theorem Dev.poke_regs (d : Dev) (a : Nat) (bs : List Byte) : (d.poke a bs).regs = d.regs := rfl
@[simp] theorem Dev.poke_shadow (d : Dev) (a : Nat) (bs : List Byte) : (d.poke a bs).shadow = d.shadow := rfl
@[simp] theorem Dev.poke_latch (d : Dev) (a : Nat) (bs : List Byte) : (d.poke a bs).latch = d.latch := rfl
@[simp] theorem Dev.poke_pages (d : Dev) (a : Nat) (bs : List Byte) : (d.poke a bs).pages = d.pages := rfl
@[simp] theorem Dev.poke_groupAt (d : Dev) (a : Nat) (bs : List Byte) : (d.poke a bs).groupAt = d.groupAt := rfl
@[simp] theorem Dev.poke_now (d : Dev) (a : Nat) (bs : List Byte) : (d.poke a bs).now = d.now := rfl
@[simp] theorem Dev.poke_timerOn (d : Dev) (a : Nat) (bs : List Byte) : (d.poke a bs).timerOn = d.timerOn := rfl
@[simp] theorem Dev.poke_beatSeen (d : Dev) (a : Nat) (bs : List Byte) : (d.poke a bs).beatSeen = d.beatSeen := rfl
@[simp] theorem Dev.poke_boundary (d : Dev) (a : Nat) (bs : List Byte) : (d.poke a bs).boundary = d.boundary := rfl
@[simp] theorem Dev.poke_relAt (d : Dev) (a : Nat) (bs : List Byte) : (d.poke a bs).relAt = d.relAt := rfl
@[simp] theorem Dev.poke_free (d : Dev) (a : Nat) (bs : List Byte) : (d.poke a bs).free = d.free := rfl
@[simp] theorem Dev.poke_queues (d : Dev) (a : Nat) (bs : List Byte) : (d.poke a bs).queues = d.queues := rfl
@[simp] theorem Dev.poke_units (d : Dev) (a : Nat) (bs : List Byte) : (d.poke a bs).units = d.units := rfl
@[simp] theorem Dev.poke_clusters (d : Dev) (a : Nat) (bs : List Byte) : (d.poke a bs).clusters = d.clusters := rfl
@[simp] theorem Dev.poke_cmove (d : Dev) (a : Nat) (bs : List Byte) : (d.poke a bs).cmove = d.cmove := rfl
@[simp] theorem Dev.poke_rmove (d : Dev) (a : Nat) (bs : List Byte) : (d.poke a bs).rmove = d.rmove := rfl
@[simp] theorem Dev.poke_beat (d : Dev) (a : Nat) (bs : List Byte) : (d.poke a bs).beat = d.beat := rfl
@[simp] theorem Dev.poke_step (d : Dev) (a : Nat) (bs : List Byte) : (d.poke a bs).step = d.step := rfl
@[simp] theorem Dev.poke_plan (d : Dev) (a : Nat) (bs : List Byte) : (d.poke a bs).plan = d.plan := rfl
@[simp] theorem Dev.poke_links (d : Dev) (a : Nat) (bs : List Byte) : (d.poke a bs).links = d.links := rfl
@[simp] theorem Dev.poke_route (d : Dev) (a : Nat) (bs : List Byte) : (d.poke a bs).route = d.route := rfl
@[simp] theorem Dev.poke_host (d : Dev) (a : Nat) (bs : List Byte) : (d.poke a bs).host = d.host := rfl
@[simp] theorem Dev.poke_power (d : Dev) (a : Nat) (bs : List Byte) : (d.poke a bs).power = d.power := rfl
@[simp] theorem Dev.poke_recov (d : Dev) (a : Nat) (bs : List Byte) : (d.poke a bs).recov = d.recov := rfl
@[simp] theorem Dev.poke_sec (d : Dev) (a : Nat) (bs : List Byte) : (d.poke a bs).sec = d.sec := rfl
@[simp] theorem Dev.poke_rst (d : Dev) (a : Nat) (bs : List Byte) : (d.poke a bs).rst = d.rst := rfl
@[simp] theorem Dev.poke_resetting (d : Dev) (a : Nat) (bs : List Byte) : (d.poke a bs).resetting = d.resetting := rfl
@[simp] theorem Dev.poke_testInstr (d : Dev) (a : Nat) (bs : List Byte) : (d.poke a bs).testInstr = d.testInstr := rfl
@[simp] theorem Dev.poke_faults (d : Dev) (a : Nat) (bs : List Byte) : (d.poke a bs).faults = d.faults := rfl
@[simp] theorem Dev.poke_due (d : Dev) (a : Nat) (bs : List Byte) : (d.poke a bs).due = d.due := rfl
@[simp] theorem Dev.poke_spoiled (d : Dev) (a : Nat) (bs : List Byte) : (d.poke a bs).spoiled = d.spoiled := rfl
@[simp] theorem Dev.poke_out (d : Dev) (a : Nat) (bs : List Byte) : (d.poke a bs).out = d.out := rfl

/-! `wipe` -/
@[simp] theorem Dev.wipe_regs (d : Dev) (lo hi : Nat) : (d.wipe lo hi).regs = d.regs := rfl
@[simp] theorem Dev.wipe_shadow (d : Dev) (lo hi : Nat) : (d.wipe lo hi).shadow = d.shadow := rfl
@[simp] theorem Dev.wipe_latch (d : Dev) (lo hi : Nat) : (d.wipe lo hi).latch = d.latch := rfl
@[simp] theorem Dev.wipe_pages (d : Dev) (lo hi : Nat) : (d.wipe lo hi).pages = d.pages := rfl
@[simp] theorem Dev.wipe_groupAt (d : Dev) (lo hi : Nat) : (d.wipe lo hi).groupAt = d.groupAt := rfl
@[simp] theorem Dev.wipe_now (d : Dev) (lo hi : Nat) : (d.wipe lo hi).now = d.now := rfl
@[simp] theorem Dev.wipe_timerOn (d : Dev) (lo hi : Nat) : (d.wipe lo hi).timerOn = d.timerOn := rfl
@[simp] theorem Dev.wipe_beatSeen (d : Dev) (lo hi : Nat) : (d.wipe lo hi).beatSeen = d.beatSeen := rfl
@[simp] theorem Dev.wipe_boundary (d : Dev) (lo hi : Nat) : (d.wipe lo hi).boundary = d.boundary := rfl
@[simp] theorem Dev.wipe_relAt (d : Dev) (lo hi : Nat) : (d.wipe lo hi).relAt = d.relAt := rfl
@[simp] theorem Dev.wipe_free (d : Dev) (lo hi : Nat) : (d.wipe lo hi).free = d.free := rfl
@[simp] theorem Dev.wipe_queues (d : Dev) (lo hi : Nat) : (d.wipe lo hi).queues = d.queues := rfl
@[simp] theorem Dev.wipe_units (d : Dev) (lo hi : Nat) : (d.wipe lo hi).units = d.units := rfl
@[simp] theorem Dev.wipe_clusters (d : Dev) (lo hi : Nat) : (d.wipe lo hi).clusters = d.clusters := rfl
@[simp] theorem Dev.wipe_cmove (d : Dev) (lo hi : Nat) : (d.wipe lo hi).cmove = d.cmove := rfl
@[simp] theorem Dev.wipe_rmove (d : Dev) (lo hi : Nat) : (d.wipe lo hi).rmove = d.rmove := rfl
@[simp] theorem Dev.wipe_beat (d : Dev) (lo hi : Nat) : (d.wipe lo hi).beat = d.beat := rfl
@[simp] theorem Dev.wipe_step (d : Dev) (lo hi : Nat) : (d.wipe lo hi).step = d.step := rfl
@[simp] theorem Dev.wipe_plan (d : Dev) (lo hi : Nat) : (d.wipe lo hi).plan = d.plan := rfl
@[simp] theorem Dev.wipe_links (d : Dev) (lo hi : Nat) : (d.wipe lo hi).links = d.links := rfl
@[simp] theorem Dev.wipe_route (d : Dev) (lo hi : Nat) : (d.wipe lo hi).route = d.route := rfl
@[simp] theorem Dev.wipe_host (d : Dev) (lo hi : Nat) : (d.wipe lo hi).host = d.host := rfl
@[simp] theorem Dev.wipe_power (d : Dev) (lo hi : Nat) : (d.wipe lo hi).power = d.power := rfl
@[simp] theorem Dev.wipe_recov (d : Dev) (lo hi : Nat) : (d.wipe lo hi).recov = d.recov := rfl
@[simp] theorem Dev.wipe_sec (d : Dev) (lo hi : Nat) : (d.wipe lo hi).sec = d.sec := rfl
@[simp] theorem Dev.wipe_rst (d : Dev) (lo hi : Nat) : (d.wipe lo hi).rst = d.rst := rfl
@[simp] theorem Dev.wipe_resetting (d : Dev) (lo hi : Nat) : (d.wipe lo hi).resetting = d.resetting := rfl
@[simp] theorem Dev.wipe_testInstr (d : Dev) (lo hi : Nat) : (d.wipe lo hi).testInstr = d.testInstr := rfl
@[simp] theorem Dev.wipe_faults (d : Dev) (lo hi : Nat) : (d.wipe lo hi).faults = d.faults := rfl
@[simp] theorem Dev.wipe_due (d : Dev) (lo hi : Nat) : (d.wipe lo hi).due = d.due := rfl
@[simp] theorem Dev.wipe_spoiled (d : Dev) (lo hi : Nat) : (d.wipe lo hi).spoiled = d.spoiled := rfl
@[simp] theorem Dev.wipe_out (d : Dev) (lo hi : Nat) : (d.wipe lo hi).out = d.out := rfl

/-! `send` -/
@[simp] theorem Dev.send_regs (d : Dev) (o : Output) : (d.send o).regs = d.regs := rfl
@[simp] theorem Dev.send_shadow (d : Dev) (o : Output) : (d.send o).shadow = d.shadow := rfl
@[simp] theorem Dev.send_latch (d : Dev) (o : Output) : (d.send o).latch = d.latch := rfl
@[simp] theorem Dev.send_pages (d : Dev) (o : Output) : (d.send o).pages = d.pages := rfl
@[simp] theorem Dev.send_groupAt (d : Dev) (o : Output) : (d.send o).groupAt = d.groupAt := rfl
@[simp] theorem Dev.send_now (d : Dev) (o : Output) : (d.send o).now = d.now := rfl
@[simp] theorem Dev.send_timerOn (d : Dev) (o : Output) : (d.send o).timerOn = d.timerOn := rfl
@[simp] theorem Dev.send_beatSeen (d : Dev) (o : Output) : (d.send o).beatSeen = d.beatSeen := rfl
@[simp] theorem Dev.send_boundary (d : Dev) (o : Output) : (d.send o).boundary = d.boundary := rfl
@[simp] theorem Dev.send_relAt (d : Dev) (o : Output) : (d.send o).relAt = d.relAt := rfl
@[simp] theorem Dev.send_free (d : Dev) (o : Output) : (d.send o).free = d.free := rfl
@[simp] theorem Dev.send_queues (d : Dev) (o : Output) : (d.send o).queues = d.queues := rfl
@[simp] theorem Dev.send_units (d : Dev) (o : Output) : (d.send o).units = d.units := rfl
@[simp] theorem Dev.send_clusters (d : Dev) (o : Output) : (d.send o).clusters = d.clusters := rfl
@[simp] theorem Dev.send_cmove (d : Dev) (o : Output) : (d.send o).cmove = d.cmove := rfl
@[simp] theorem Dev.send_rmove (d : Dev) (o : Output) : (d.send o).rmove = d.rmove := rfl
@[simp] theorem Dev.send_beat (d : Dev) (o : Output) : (d.send o).beat = d.beat := rfl
@[simp] theorem Dev.send_step (d : Dev) (o : Output) : (d.send o).step = d.step := rfl
@[simp] theorem Dev.send_plan (d : Dev) (o : Output) : (d.send o).plan = d.plan := rfl
@[simp] theorem Dev.send_links (d : Dev) (o : Output) : (d.send o).links = d.links := rfl
@[simp] theorem Dev.send_route (d : Dev) (o : Output) : (d.send o).route = d.route := rfl
@[simp] theorem Dev.send_host (d : Dev) (o : Output) : (d.send o).host = d.host := rfl
@[simp] theorem Dev.send_power (d : Dev) (o : Output) : (d.send o).power = d.power := rfl
@[simp] theorem Dev.send_recov (d : Dev) (o : Output) : (d.send o).recov = d.recov := rfl
@[simp] theorem Dev.send_sec (d : Dev) (o : Output) : (d.send o).sec = d.sec := rfl
@[simp] theorem Dev.send_rst (d : Dev) (o : Output) : (d.send o).rst = d.rst := rfl
@[simp] theorem Dev.send_resetting (d : Dev) (o : Output) : (d.send o).resetting = d.resetting := rfl
@[simp] theorem Dev.send_testInstr (d : Dev) (o : Output) : (d.send o).testInstr = d.testInstr := rfl
@[simp] theorem Dev.send_faults (d : Dev) (o : Output) : (d.send o).faults = d.faults := rfl
@[simp] theorem Dev.send_due (d : Dev) (o : Output) : (d.send o).due = d.due := rfl
@[simp] theorem Dev.send_spoiled (d : Dev) (o : Output) : (d.send o).spoiled = d.spoiled := rfl
@[simp] theorem Dev.send_writes (d : Dev) (o : Output) : (d.send o).writes = d.writes := rfl

/-! `done` -/
@[simp] theorem Dev.done_regs (d : Dev) (c v : Nat) : (d.done c v).regs = d.regs := rfl
@[simp] theorem Dev.done_shadow (d : Dev) (c v : Nat) : (d.done c v).shadow = d.shadow := rfl
@[simp] theorem Dev.done_latch (d : Dev) (c v : Nat) : (d.done c v).latch = d.latch := rfl
@[simp] theorem Dev.done_pages (d : Dev) (c v : Nat) : (d.done c v).pages = d.pages := rfl
@[simp] theorem Dev.done_groupAt (d : Dev) (c v : Nat) : (d.done c v).groupAt = d.groupAt := rfl
@[simp] theorem Dev.done_now (d : Dev) (c v : Nat) : (d.done c v).now = d.now := rfl
@[simp] theorem Dev.done_timerOn (d : Dev) (c v : Nat) : (d.done c v).timerOn = d.timerOn := rfl
@[simp] theorem Dev.done_beatSeen (d : Dev) (c v : Nat) : (d.done c v).beatSeen = d.beatSeen := rfl
@[simp] theorem Dev.done_boundary (d : Dev) (c v : Nat) : (d.done c v).boundary = d.boundary := rfl
@[simp] theorem Dev.done_relAt (d : Dev) (c v : Nat) : (d.done c v).relAt = d.relAt := rfl
@[simp] theorem Dev.done_free (d : Dev) (c v : Nat) : (d.done c v).free = d.free := rfl
@[simp] theorem Dev.done_queues (d : Dev) (c v : Nat) : (d.done c v).queues = d.queues := rfl
@[simp] theorem Dev.done_units (d : Dev) (c v : Nat) : (d.done c v).units = d.units := rfl
@[simp] theorem Dev.done_clusters (d : Dev) (c v : Nat) : (d.done c v).clusters = d.clusters := rfl
@[simp] theorem Dev.done_cmove (d : Dev) (c v : Nat) : (d.done c v).cmove = d.cmove := rfl
@[simp] theorem Dev.done_rmove (d : Dev) (c v : Nat) : (d.done c v).rmove = d.rmove := rfl
@[simp] theorem Dev.done_beat (d : Dev) (c v : Nat) : (d.done c v).beat = d.beat := rfl
@[simp] theorem Dev.done_step (d : Dev) (c v : Nat) : (d.done c v).step = d.step := rfl
@[simp] theorem Dev.done_plan (d : Dev) (c v : Nat) : (d.done c v).plan = d.plan := rfl
@[simp] theorem Dev.done_links (d : Dev) (c v : Nat) : (d.done c v).links = d.links := rfl
@[simp] theorem Dev.done_route (d : Dev) (c v : Nat) : (d.done c v).route = d.route := rfl
@[simp] theorem Dev.done_host (d : Dev) (c v : Nat) : (d.done c v).host = d.host := rfl
@[simp] theorem Dev.done_power (d : Dev) (c v : Nat) : (d.done c v).power = d.power := rfl
@[simp] theorem Dev.done_recov (d : Dev) (c v : Nat) : (d.done c v).recov = d.recov := rfl
@[simp] theorem Dev.done_sec (d : Dev) (c v : Nat) : (d.done c v).sec = d.sec := rfl
@[simp] theorem Dev.done_rst (d : Dev) (c v : Nat) : (d.done c v).rst = d.rst := rfl
@[simp] theorem Dev.done_resetting (d : Dev) (c v : Nat) : (d.done c v).resetting = d.resetting := rfl
@[simp] theorem Dev.done_testInstr (d : Dev) (c v : Nat) : (d.done c v).testInstr = d.testInstr := rfl
@[simp] theorem Dev.done_faults (d : Dev) (c v : Nat) : (d.done c v).faults = d.faults := rfl
@[simp] theorem Dev.done_due (d : Dev) (c v : Nat) : (d.done c v).due = d.due := rfl
@[simp] theorem Dev.done_spoiled (d : Dev) (c v : Nat) : (d.done c v).spoiled = d.spoiled := rfl
@[simp] theorem Dev.done_writes (d : Dev) (c v : Nat) : (d.done c v).writes = d.writes := rfl

/-! `start` -/
@[simp] theorem Dev.start_regs (d : Dev) : (d.start).regs = d.regs := rfl
@[simp] theorem Dev.start_shadow (d : Dev) : (d.start).shadow = d.shadow := rfl
@[simp] theorem Dev.start_latch (d : Dev) : (d.start).latch = d.latch := rfl
@[simp] theorem Dev.start_pages (d : Dev) : (d.start).pages = d.pages := rfl
@[simp] theorem Dev.start_groupAt (d : Dev) : (d.start).groupAt = d.groupAt := rfl
@[simp] theorem Dev.start_now (d : Dev) : (d.start).now = d.now := rfl
@[simp] theorem Dev.start_timerOn (d : Dev) : (d.start).timerOn = d.timerOn := rfl
@[simp] theorem Dev.start_beatSeen (d : Dev) : (d.start).beatSeen = d.beatSeen := rfl
@[simp] theorem Dev.start_boundary (d : Dev) : (d.start).boundary = d.boundary := rfl
@[simp] theorem Dev.start_relAt (d : Dev) : (d.start).relAt = d.relAt := rfl
@[simp] theorem Dev.start_free (d : Dev) : (d.start).free = d.free := rfl
@[simp] theorem Dev.start_queues (d : Dev) : (d.start).queues = d.queues := rfl
@[simp] theorem Dev.start_units (d : Dev) : (d.start).units = d.units := rfl
@[simp] theorem Dev.start_clusters (d : Dev) : (d.start).clusters = d.clusters := rfl
@[simp] theorem Dev.start_cmove (d : Dev) : (d.start).cmove = d.cmove := rfl
@[simp] theorem Dev.start_rmove (d : Dev) : (d.start).rmove = d.rmove := rfl
@[simp] theorem Dev.start_beat (d : Dev) : (d.start).beat = d.beat := rfl
@[simp] theorem Dev.start_step (d : Dev) : (d.start).step = d.step := rfl
@[simp] theorem Dev.start_plan (d : Dev) : (d.start).plan = d.plan := rfl
@[simp] theorem Dev.start_links (d : Dev) : (d.start).links = d.links := rfl
@[simp] theorem Dev.start_route (d : Dev) : (d.start).route = d.route := rfl
@[simp] theorem Dev.start_host (d : Dev) : (d.start).host = d.host := rfl
@[simp] theorem Dev.start_power (d : Dev) : (d.start).power = d.power := rfl
@[simp] theorem Dev.start_recov (d : Dev) : (d.start).recov = d.recov := rfl
@[simp] theorem Dev.start_sec (d : Dev) : (d.start).sec = d.sec := rfl
@[simp] theorem Dev.start_rst (d : Dev) : (d.start).rst = d.rst := rfl
@[simp] theorem Dev.start_resetting (d : Dev) : (d.start).resetting = d.resetting := rfl
@[simp] theorem Dev.start_testInstr (d : Dev) : (d.start).testInstr = d.testInstr := rfl
@[simp] theorem Dev.start_faults (d : Dev) : (d.start).faults = d.faults := rfl
@[simp] theorem Dev.start_due (d : Dev) : (d.start).due = d.due := rfl
@[simp] theorem Dev.start_spoiled (d : Dev) : (d.start).spoiled = d.spoiled := rfl

end Sys2Proof.Machine
end

