-- ==== Sys2Proof/Laws/Regs.lean ====
section
/-! SUPPORT. The laws of register fields: what a write of a field changes, and what counter clears, answers and events leave
alone. -/

namespace Sys2Proof.Machine

/-- A register field's value after it is given one. -/
theorem Dev.get_set_same (d : Dev) (f : Field) (pg i v : Nat) (hw : f.width ≤ 32) (hr : f.rst i < 2 ^ 32) :
    (d.set f pg i v).get f pg i = v % 2 ^ f.width := by
  have hv : v % 2 ^ f.width < 2 ^ 32 :=
    Nat.lt_of_lt_of_le (Nat.mod_lt _ (Nat.two_pow_pos _)) (Nat.pow_le_pow_right (by decide) hw)
  unfold Dev.get Dev.set
  simp only [SMap.find_putD_same]
  by_cases h : (BitVec.ofNat 32 (v % 2 ^ f.width)) = BitVec.ofNat 32 (f.rst i)
  · simp only [h, if_true]
    have h2 := congrArg BitVec.toNat h
    simp only [BitVec.toNat_ofNat, Nat.mod_eq_of_lt hv, Nat.mod_eq_of_lt hr] at h2
    exact h2.symm
  · simp only [h, if_false, BitVec.toNat_ofNat, Nat.mod_eq_of_lt hv]

/-- The value kept under another key stays. -/
theorem Dev.find_set_ne (d : Dev) (f : Field) (pg i v k : Nat) (h : k ≠ f.key pg i) :
    SMap.find (d.set f pg i v).regs k = SMap.find d.regs k := SMap.find_putD_ne _ _ _ h

theorem Dev.find_hw_ne (d : Dev) (f : Field) (pg v k : Nat) (h : k ≠ f.key pg 0) :
    SMap.find (d.hw f pg v).regs k = SMap.find d.regs k := Dev.find_set_ne d f pg 0 v k h

theorem Dev.find_wr_ne (d : Dev) (f : Field) (inst v i k : Nat) (h : k ≠ f.key (f.pg inst) i) :
    SMap.find (d.wr f inst v i).regs k = SMap.find d.regs k := Dev.find_set_ne d f _ i v k h

theorem Dev.find_p_ne (d : Dev) (f : Field) (v i k : Nat) (h : k ≠ f.key (f.pg 0) i) :
    SMap.find (d.p f v i).regs k = SMap.find d.regs k := Dev.find_set_ne d f _ i v k h

/-- A field kept under another key reads as before. -/
theorem Dev.get_set_ne (d : Dev) (f g : Field) (pg i v pg' j : Nat) (h : g.key pg' j ≠ f.key pg i) :
    (d.set f pg i v).get g pg' j = d.get g pg' j := by
  unfold Dev.get
  rw [Dev.find_set_ne d f pg i v _ h]

theorem Dev.get_congr (d e : Dev) (f : Field) (pg i : Nat) (h : SMap.find d.regs (f.key pg i) = SMap.find e.regs (f.key pg i)) :
    d.get f pg i = e.get f pg i := by unfold Dev.get; rw [h]

theorem Dev.rest_set (d : Dev) (f : Field) (pg i v : Nat) : (d.set f pg i v).rest = d.rest := rfl
theorem Dev.rest_wr (d : Dev) (f : Field) (inst v i : Nat) : (d.wr f inst v i).rest = d.rest := rfl
theorem Dev.rest_hw (d : Dev) (f : Field) (pg v : Nat) : (d.hw f pg v).rest = d.rest := rfl
theorem Dev.rest_p (d : Dev) (f : Field) (v i : Nat) : (d.p f v i).rest = d.rest := rfl
theorem Dev.rest_start (d : Dev) : d.start.rest = d.rest := rfl
theorem Dev.rest_done (d : Dev) (c v : Nat) : (d.done c v).rest = d.rest := rfl
theorem Dev.rest_bump (d : Dev) (f : Field) (inst n i : Nat) : (d.bump f inst n i).rest = d.rest := rfl
theorem Dev.rest_count (d : Dev) (f : Field) (inst n i : Nat) : (d.count f inst n i).rest = d.rest := rfl

/-! ## Clearing fields -/

theorem Dev.clearCopies_rest (f : Field) (inst : Nat) (is : List Nat) (d : Dev) :
    (is.foldl (fun (d : Dev) i => d.wr f inst 0 i) d).rest = d.rest ∧
    (is.foldl (fun (d : Dev) i => d.wr f inst 0 i) d).queues = d.queues ∧
    (is.foldl (fun (d : Dev) i => d.wr f inst 0 i) d).out = d.out := by
  induction is generalizing d with
  | nil => exact ⟨rfl, rfl, rfl⟩
  | cons i is ih =>
    obtain ⟨h1, h2, h3⟩ := ih (d.wr f inst 0 i)
    exact ⟨h1.trans rfl, h2.trans rfl, h3.trans rfl⟩

theorem Dev.clearCopies_find (f : Field) (inst : Nat) (is : List Nat) (d : Dev) (k : Nat)
    (h : k ∉ is.map fun i => f.key (f.pg inst) i) :
    SMap.find (is.foldl (fun (d : Dev) i => d.wr f inst 0 i) d).regs k = SMap.find d.regs k := by
  induction is generalizing d with
  | nil => rfl
  | cons i is ih =>
    simp only [List.map_cons, List.mem_cons, not_or] at h
    exact (ih _ h.2).trans (Dev.find_wr_ne _ _ _ _ _ _ h.1)

/-- What a counter clear leaves alone. -/
theorem Dev.clearFields_frame (inst : Nat) (fs : List Field) (d : Dev) :
    (d.clearFields inst fs).rest = d.rest ∧ (d.clearFields inst fs).queues = d.queues ∧ (d.clearFields inst fs).out = d.out ∧
    ∀ k, k ∉ fieldKeys inst fs → SMap.find (d.clearFields inst fs).regs k = SMap.find d.regs k := by
  unfold Dev.clearFields
  induction fs generalizing d with
  | nil => exact ⟨rfl, rfl, rfl, fun _ _ => rfl⟩
  | cons f fs ih =>
    obtain ⟨h1, h2, h3, h4⟩ := ih ((List.range f.n).foldl (fun (d : Dev) i => d.wr f inst 0 i) d)
    obtain ⟨g1, g2, g3⟩ := Dev.clearCopies_rest f inst (List.range f.n) d
    refine ⟨h1.trans g1, h2.trans g2, h3.trans g3, fun k hk => ?_⟩
    simp only [fieldKeys, List.flatMap_cons, List.mem_append, not_or] at hk
    exact (h4 k hk.2).trans (Dev.clearCopies_find f inst _ d k hk.1)

/-- A field that reads 0 under a key. -/
def Dev.zeroAt (d : Dev) (f : Field) (inst i : Nat) : Prop := d.rd f inst i = 0

theorem Dev.rd_wr_zero (d : Dev) (f : Field) (inst i : Nat) (hw : f.width ≤ 32) (hr : f.rst i < 2 ^ 32) :
    (d.wr f inst 0 i).rd f inst i = 0 := by
  unfold Dev.rd Dev.wr
  rw [Dev.get_set_same _ _ _ _ _ hw hr]
  simp

/-- A cleared value stays cleared while other fields of the list are cleared. -/
theorem Dev.rd_wr_keeps_zero (d : Dev) (f g : Field) (inst i j : Nat) (hw : g.width ≤ 32) (hr : g.rst j < 2 ^ 32)
    (hreset : f.rst i = g.rst j ∨ f.key (f.pg inst) i ≠ g.key (g.pg inst) j) (h : d.rd f inst i = 0) : (d.wr g inst 0 j).rd f inst i = 0 := by
  by_cases hk : f.key (f.pg inst) i = g.key (g.pg inst) j
  · have hrr : f.rst i = g.rst j := by rcases hreset with h | h; exact h; exact absurd hk h
    have h0 := Dev.get_set_same d g (g.pg inst) j 0 hw hr
    unfold Dev.rd Dev.wr Dev.get at *
    rw [hk, hrr]
    simpa using h0
  · unfold Dev.rd Dev.wr
    rw [Dev.get_set_ne _ _ _ _ _ _ _ _ hk]
    exact h

/-- Every cleared field reads 0: for lists of fields of at most 32 bits whose reset value is 0. -/
theorem Dev.clearFields_zero (inst : Nat) (fs : List Field) (d : Dev)
    (hfs : ∀ f ∈ fs, f.width ≤ 32 ∧ ∀ i, f.rst i = 0) (f : Field) (hf : f ∈ fs) (i : Nat) (hi : i < f.n) :
    (d.clearFields inst fs).rd f inst i = 0 := by
  have copies : ∀ (g : Field), (g.width ≤ 32 ∧ ∀ i, g.rst i = 0) → ∀ (is : List Nat) (d : Dev), (∀ i, f.rst i = 0) →
      d.rd f inst i = 0 → (is.foldl (fun (d : Dev) i => d.wr g inst 0 i) d).rd f inst i = 0 := by
    intro g hg is
    induction is with
    | nil => intro d _ h; exact h
    | cons j is ih =>
      intro d hz h
      exact ih _ hz (Dev.rd_wr_keeps_zero d f g inst i j hg.1 (by rw [hg.2]; decide) (.inl (by rw [hg.2, hz])) h)
  have own : ∀ (is : List Nat) (d : Dev), i ∈ is → (is.foldl (fun (d : Dev) i => d.wr f inst 0 i) d).rd f inst i = 0 := by
    intro is
    induction is with
    | nil => intro _ h; cases h
    | cons j is ih =>
      intro d h
      rcases List.mem_cons.1 h with rfl | h
      · exact copies f (hfs f hf) is _ (hfs f hf).2 (Dev.rd_wr_zero d f inst i (hfs f hf).1 (by rw [(hfs f hf).2]; decide))
      · exact ih _ h
  have rest : ∀ (gs : List Field) (d : Dev), (∀ g ∈ gs, g.width ≤ 32 ∧ ∀ i, g.rst i = 0) → d.rd f inst i = 0 →
      (d.clearFields inst gs).rd f inst i = 0 := by
    intro gs
    induction gs with
    | nil => intro d _ h; exact h
    | cons g gs ih =>
      intro d hg h
      exact ih _ (fun x hx => hg x (List.mem_cons_of_mem _ hx)) (copies g (hg g (by simp)) _ d (hfs f hf).2 h)
  revert d
  induction fs with
  | nil => cases hf
  | cons g gs ih =>
    intro d
    rcases List.mem_cons.1 hf with rfl | hf'
    · exact rest gs _ (fun x hx => hfs x (List.mem_cons_of_mem _ hx)) (own _ d (List.mem_range.2 hi))
    · by_cases hg : f ∈ gs
      · exact ih (fun x hx => hfs x (List.mem_cons_of_mem _ hx)) hf' _
      · exact absurd hf' hg

/-! ## Events -/

theorem Dev.rest_offer (d : Dev) (r : EventRec) (q : Nat) : (d.offer r q).rest = d.rest := by
  unfold Dev.offer; simp only; split <;> rfl

theorem Dev.find_offer (d : Dev) (r : EventRec) (q k : Nat) (h : k ∉ evtKeys r.source) :
    SMap.find (d.offer r q).regs k = SMap.find d.regs k := by
  unfold Dev.offer
  simp only
  split
  · rfl
  · simp only [evtKeys, List.mem_cons, not_or] at h
    exact Dev.find_hw_ne _ _ _ _ _ h.2.2.1

theorem Dev.offers_rest (qs : List Nat) (d : Dev) (r : EventRec) : (qs.foldl (fun d q => d.offer r q) d).rest = d.rest := by
  induction qs generalizing d with
  | nil => rfl
  | cons q qs ih => exact (ih _).trans (Dev.rest_offer d r q)

theorem Dev.offers_find (qs : List Nat) (d : Dev) (r : EventRec) (k : Nat) (h : k ∉ evtKeys r.source) :
    SMap.find (qs.foldl (fun d q => d.offer r q) d).regs k = SMap.find d.regs k := by
  induction qs generalizing d with
  | nil => rfl
  | cons q qs ih => exact (ih _).trans (Dev.find_offer d r q k h)

/-- The shape of an event: one event bit of the page set, then the records. -/
theorem Dev.raise_shape (d : Dev) (pg code pos sev detail : Nat) :
    ∃ f v qs r, (f = Hdr.EVT_COMMON ∨ f = Hdr.EVT_BLOCK) ∧ r.source = pg ∧
      d.raise pg code pos sev detail = List.foldl (fun (d : Dev) q => d.offer r q) (d.hw f pg v) qs := by
  by_cases hp : pos < 8
  · by_cases hc : (bit (d.hd Hdr.EVT_COMMON pg) pos || bit (d.hd Hdr.MASK_COMMON pg) pos) = true
    · exact ⟨Hdr.EVT_COMMON, setBit (d.hd Hdr.EVT_COMMON pg) pos, [], ⟨code, sev, pg, d.eventBeat, detail⟩, .inl rfl, rfl,
        by unfold Dev.raise; simp only [hp, if_true, hc]; rfl⟩
    · exact ⟨Hdr.EVT_COMMON, setBit (d.hd Hdr.EVT_COMMON pg) pos, queuesOf pg, ⟨code, sev, pg, d.eventBeat, detail % 2 ^ 32⟩, .inl rfl, rfl,
        by unfold Dev.raise; simp [hp, hc]⟩
  · by_cases hc : (bit (d.hd Hdr.EVT_BLOCK pg) (pos - 8) || bit (d.hd Hdr.MASK_BLOCK pg) (pos - 8)) = true
    · exact ⟨Hdr.EVT_BLOCK, setBit (d.hd Hdr.EVT_BLOCK pg) (pos - 8), [], ⟨code, sev, pg, d.eventBeat, detail⟩, .inr rfl, rfl,
        by unfold Dev.raise; simp only [hp, if_false, hc, if_true]; rfl⟩
    · exact ⟨Hdr.EVT_BLOCK, setBit (d.hd Hdr.EVT_BLOCK pg) (pos - 8), queuesOf pg, ⟨code, sev, pg, d.eventBeat, detail % 2 ^ 32⟩, .inr rfl, rfl,
        by unfold Dev.raise; simp [hp, hc]⟩

/-- What raising an event leaves alone. -/
theorem Dev.rest_raise (d : Dev) (pg code pos sev detail : Nat) : (d.raise pg code pos sev detail).rest = d.rest := by
  obtain ⟨f, v, qs, r, _, _, h⟩ := Dev.raise_shape d pg code pos sev detail
  rw [h]
  exact (Dev.offers_rest qs _ r).trans rfl

theorem Dev.find_raise (d : Dev) (pg code pos sev detail k : Nat) (h : k ∉ evtKeys pg) :
    SMap.find (d.raise pg code pos sev detail).regs k = SMap.find d.regs k := by
  obtain ⟨f, v, qs, r, hf, hr, hs⟩ := Dev.raise_shape d pg code pos sev detail
  rw [hs, Dev.offers_find qs _ r k (by rw [hr]; exact h)]
  simp only [evtKeys, List.mem_cons, not_or] at h
  rcases hf with rfl | rfl
  · exact Dev.find_hw_ne _ _ _ _ _ h.1
  · exact Dev.find_hw_ne _ _ _ _ _ h.2.1

/-- What raising an event leaves alone, value by value. -/
theorem Dev.get_raise (d : Dev) (pg code pos sev detail : Nat) (f : Field) (pg' i : Nat) (h : f.key pg' i ∉ evtKeys pg) :
    (d.raise pg code pos sev detail).get f pg' i = d.get f pg' i :=
  Dev.get_congr _ _ _ _ _ (Dev.find_raise d pg code pos sev detail _ h)

/-! ## Header fields and block states -/

theorem Dev.hd_hw_ne (d : Dev) (f g : Field) (pg v pg' : Nat) (h : g.key pg' 0 ≠ f.key pg 0) : (d.hw f pg v).hd g pg' = d.hd g pg' :=
  Dev.get_set_ne _ _ _ _ _ _ _ _ h

theorem Dev.hd_hw_same (d : Dev) (f : Field) (pg v : Nat) (hw : f.width ≤ 32) (hr : f.rst 0 < 2 ^ 32) :
    (d.hw f pg v).hd f pg = v % 2 ^ f.width := Dev.get_set_same _ _ _ _ _ hw hr

theorem Dev.hd_setBs_ne (d : Dev) (g : Field) (pg v pg' : Nat) (h : g.key pg' 0 ≠ Hdr.STATE.key pg 0) (h' : g.key pg' 0 ≠ Hdr.DROPS.key pg 0) :
    (d.setBs pg v).hd g pg' = d.hd g pg' :=
  (Dev.get_set_ne _ _ _ _ _ _ _ _ h).trans (Dev.get_set_ne _ _ _ _ _ _ _ _ h')

@[simp] theorem Dev.bs_setBs (d : Dev) (pg v : Nat) : (d.setBs pg v).bs pg = v % 16 :=
  Dev.get_set_same _ _ _ _ _ (by decide) (by decide)

/-- R65: DROPS returns to 0 when its block leaves QUIESCED. -/
theorem Dev.drops_setBs (d : Dev) (pg v : Nat) (h : d.bs pg = Bs.quiesced) (hv : v ≠ Bs.quiesced) : (d.setBs pg v).hd Hdr.DROPS pg = 0 := by
  unfold Dev.setBs
  rw [if_pos ⟨h, hv⟩, Dev.hd_hw_ne _ _ _ _ _ _ (by unfold Field.key; simp [Hdr.DROPS, Hdr.STATE]), Dev.hd_hw_same _ _ _ _ (by decide) (by decide)]
  rfl

theorem Dev.bs_hw_ne (d : Dev) (f : Field) (pg v pg' : Nat) (h : Hdr.STATE.key pg' 0 ≠ f.key pg 0) : (d.hw f pg v).bs pg' = d.bs pg' :=
  Dev.get_set_ne _ _ _ _ _ _ _ _ h

@[simp] theorem Dev.info_setInfo (d : Dev) (pg : Nat) (x : PageInfo) : (d.setInfo pg x).info pg = x := by
  unfold Dev.setInfo Dev.info; simp

@[simp] theorem Dev.unit_setUnit (d : Dev) (u : Nat) (x : UnitSt) : (d.setUnit u x).unit u = x := by
  unfold Dev.setUnit Dev.unit; simp

@[simp] theorem Dev.cluster_setCluster (d : Dev) (c : Nat) (x : ClusterSt) : (d.setCluster c x).cluster c = x := by
  unfold Dev.setCluster Dev.cluster; simp

/-- A write that asks for an action and is performed. -/
theorem action_ok (s : State) (r : Requester) (pg off : Nat) (f : Dev → Nat × Dev) (h : s.accepts r pg off true) :
    runDev s (fun d => d.action r pg off false f) = s.ends ((f s.dev.start).2.done (f s.dev.start).1) := by
  have h' : s.dev.start.refusal r (pg * 4096 + off) true = none := h
  simp [runDev, State.ends, Dev.action, h']

/-- A write that asks a block that takes work for work. -/
theorem work_ok (s : State) (r : Requester) (pg off : Nat) (f : Dev → Nat × Dev) (h : s.accepts r pg off true)
    (hw : s.dev.refusesWork pg = false) :
    runDev s (fun d => d.action r pg off true f) = s.ends ((f s.dev.start).2.done (f s.dev.start).1) := by
  have h' : s.dev.start.refusal r (pg * 4096 + off) true = none := h
  have hw' : s.dev.start.refusesWork pg = false := hw
  simp [runDev, State.ends, Dev.action, h', hw']

end Sys2Proof.Machine
end

