-- ==== Sys2Proof/Laws/Raise.lean ====
section
/-! SUPPORT. What raising an event leaves alone, field by field. -/

namespace Sys2Proof.Machine

theorem Dev.offer_out (d : Dev) (r : EventRec) (q : Nat) : (d.offer r q).out = d.out ∧ (d.offer r q).writes = d.writes := by
  unfold Dev.offer; simp only; split <;> exact ⟨rfl, rfl⟩

theorem Dev.offers_out (qs : List Nat) (d : Dev) (r : EventRec) :
    (qs.foldl (fun d q => d.offer r q) d).out = d.out ∧ (qs.foldl (fun d q => d.offer r q) d).writes = d.writes := by
  induction qs generalizing d with
  | nil => exact ⟨rfl, rfl⟩
  | cons q qs ih => exact ⟨(ih _).1.trans (Dev.offer_out d r q).1, (ih _).2.trans (Dev.offer_out d r q).2⟩

@[simp] theorem Dev.raise_out (d : Dev) (pg code pos sev detail : Nat) : (d.raise pg code pos sev detail).out = d.out := by
  obtain ⟨f, v, qs, r, _, _, h⟩ := Dev.raise_shape d pg code pos sev detail
  rw [h]
  exact (Dev.offers_out qs _ r).1.trans rfl

@[simp] theorem Dev.raise_writes (d : Dev) (pg code pos sev detail : Nat) : (d.raise pg code pos sev detail).writes = d.writes := by
  obtain ⟨f, v, qs, r, _, _, h⟩ := Dev.raise_shape d pg code pos sev detail
  rw [h]
  exact (Dev.offers_out qs _ r).2.trans rfl

@[simp] theorem Dev.raise_shadow (d : Dev) (pg code pos sev detail : Nat) : (d.raise pg code pos sev detail).shadow = d.shadow := by
  have h := congrArg (fun x : Dev => x.shadow) (Dev.rest_raise d pg code pos sev detail); exact h
@[simp] theorem Dev.raise_latch (d : Dev) (pg code pos sev detail : Nat) : (d.raise pg code pos sev detail).latch = d.latch := by
  have h := congrArg (fun x : Dev => x.latch) (Dev.rest_raise d pg code pos sev detail); exact h
@[simp] theorem Dev.raise_pages (d : Dev) (pg code pos sev detail : Nat) : (d.raise pg code pos sev detail).pages = d.pages := by
  have h := congrArg (fun x : Dev => x.pages) (Dev.rest_raise d pg code pos sev detail); exact h
@[simp] theorem Dev.raise_groupAt (d : Dev) (pg code pos sev detail : Nat) : (d.raise pg code pos sev detail).groupAt = d.groupAt := by
  have h := congrArg (fun x : Dev => x.groupAt) (Dev.rest_raise d pg code pos sev detail); exact h
@[simp] theorem Dev.raise_now (d : Dev) (pg code pos sev detail : Nat) : (d.raise pg code pos sev detail).now = d.now := by
  have h := congrArg (fun x : Dev => x.now) (Dev.rest_raise d pg code pos sev detail); exact h
@[simp] theorem Dev.raise_timerOn (d : Dev) (pg code pos sev detail : Nat) : (d.raise pg code pos sev detail).timerOn = d.timerOn := by
  have h := congrArg (fun x : Dev => x.timerOn) (Dev.rest_raise d pg code pos sev detail); exact h
@[simp] theorem Dev.raise_beatSeen (d : Dev) (pg code pos sev detail : Nat) : (d.raise pg code pos sev detail).beatSeen = d.beatSeen := by
  have h := congrArg (fun x : Dev => x.beatSeen) (Dev.rest_raise d pg code pos sev detail); exact h
@[simp] theorem Dev.raise_boundary (d : Dev) (pg code pos sev detail : Nat) : (d.raise pg code pos sev detail).boundary = d.boundary := by
  have h := congrArg (fun x : Dev => x.boundary) (Dev.rest_raise d pg code pos sev detail); exact h
@[simp] theorem Dev.raise_relAt (d : Dev) (pg code pos sev detail : Nat) : (d.raise pg code pos sev detail).relAt = d.relAt := by
  have h := congrArg (fun x : Dev => x.relAt) (Dev.rest_raise d pg code pos sev detail); exact h
@[simp] theorem Dev.raise_free (d : Dev) (pg code pos sev detail : Nat) : (d.raise pg code pos sev detail).free = d.free := by
  have h := congrArg (fun x : Dev => x.free) (Dev.rest_raise d pg code pos sev detail); exact h
@[simp] theorem Dev.raise_units (d : Dev) (pg code pos sev detail : Nat) : (d.raise pg code pos sev detail).units = d.units := by
  have h := congrArg (fun x : Dev => x.units) (Dev.rest_raise d pg code pos sev detail); exact h
@[simp] theorem Dev.raise_clusters (d : Dev) (pg code pos sev detail : Nat) : (d.raise pg code pos sev detail).clusters = d.clusters := by
  have h := congrArg (fun x : Dev => x.clusters) (Dev.rest_raise d pg code pos sev detail); exact h
@[simp] theorem Dev.raise_cmove (d : Dev) (pg code pos sev detail : Nat) : (d.raise pg code pos sev detail).cmove = d.cmove := by
  have h := congrArg (fun x : Dev => x.cmove) (Dev.rest_raise d pg code pos sev detail); exact h
@[simp] theorem Dev.raise_rmove (d : Dev) (pg code pos sev detail : Nat) : (d.raise pg code pos sev detail).rmove = d.rmove := by
  have h := congrArg (fun x : Dev => x.rmove) (Dev.rest_raise d pg code pos sev detail); exact h
@[simp] theorem Dev.raise_beat (d : Dev) (pg code pos sev detail : Nat) : (d.raise pg code pos sev detail).beat = d.beat := by
  have h := congrArg (fun x : Dev => x.beat) (Dev.rest_raise d pg code pos sev detail); exact h
@[simp] theorem Dev.raise_step (d : Dev) (pg code pos sev detail : Nat) : (d.raise pg code pos sev detail).step = d.step := by
  have h := congrArg (fun x : Dev => x.step) (Dev.rest_raise d pg code pos sev detail); exact h
@[simp] theorem Dev.raise_plan (d : Dev) (pg code pos sev detail : Nat) : (d.raise pg code pos sev detail).plan = d.plan := by
  have h := congrArg (fun x : Dev => x.plan) (Dev.rest_raise d pg code pos sev detail); exact h
@[simp] theorem Dev.raise_links (d : Dev) (pg code pos sev detail : Nat) : (d.raise pg code pos sev detail).links = d.links := by
  have h := congrArg (fun x : Dev => x.links) (Dev.rest_raise d pg code pos sev detail); exact h
@[simp] theorem Dev.raise_route (d : Dev) (pg code pos sev detail : Nat) : (d.raise pg code pos sev detail).route = d.route := by
  have h := congrArg (fun x : Dev => x.route) (Dev.rest_raise d pg code pos sev detail); exact h
@[simp] theorem Dev.raise_host (d : Dev) (pg code pos sev detail : Nat) : (d.raise pg code pos sev detail).host = d.host := by
  have h := congrArg (fun x : Dev => x.host) (Dev.rest_raise d pg code pos sev detail); exact h
@[simp] theorem Dev.raise_power (d : Dev) (pg code pos sev detail : Nat) : (d.raise pg code pos sev detail).power = d.power := by
  have h := congrArg (fun x : Dev => x.power) (Dev.rest_raise d pg code pos sev detail); exact h
@[simp] theorem Dev.raise_recov (d : Dev) (pg code pos sev detail : Nat) : (d.raise pg code pos sev detail).recov = d.recov := by
  have h := congrArg (fun x : Dev => x.recov) (Dev.rest_raise d pg code pos sev detail); exact h
@[simp] theorem Dev.raise_sec (d : Dev) (pg code pos sev detail : Nat) : (d.raise pg code pos sev detail).sec = d.sec := by
  have h := congrArg (fun x : Dev => x.sec) (Dev.rest_raise d pg code pos sev detail); exact h
@[simp] theorem Dev.raise_rst (d : Dev) (pg code pos sev detail : Nat) : (d.raise pg code pos sev detail).rst = d.rst := by
  have h := congrArg (fun x : Dev => x.rst) (Dev.rest_raise d pg code pos sev detail); exact h
@[simp] theorem Dev.raise_resetting (d : Dev) (pg code pos sev detail : Nat) : (d.raise pg code pos sev detail).resetting = d.resetting := by
  have h := congrArg (fun x : Dev => x.resetting) (Dev.rest_raise d pg code pos sev detail); exact h
@[simp] theorem Dev.raise_testInstr (d : Dev) (pg code pos sev detail : Nat) : (d.raise pg code pos sev detail).testInstr = d.testInstr := by
  have h := congrArg (fun x : Dev => x.testInstr) (Dev.rest_raise d pg code pos sev detail); exact h
@[simp] theorem Dev.raise_faults (d : Dev) (pg code pos sev detail : Nat) : (d.raise pg code pos sev detail).faults = d.faults := by
  have h := congrArg (fun x : Dev => x.faults) (Dev.rest_raise d pg code pos sev detail); exact h
@[simp] theorem Dev.raise_due (d : Dev) (pg code pos sev detail : Nat) : (d.raise pg code pos sev detail).due = d.due := by
  have h := congrArg (fun x : Dev => x.due) (Dev.rest_raise d pg code pos sev detail); exact h
@[simp] theorem Dev.raise_spoiled (d : Dev) (pg code pos sev detail : Nat) : (d.raise pg code pos sev detail).spoiled = d.spoiled := by
  have h := congrArg (fun x : Dev => x.spoiled) (Dev.rest_raise d pg code pos sev detail); exact h

end Sys2Proof.Machine
end

