-- ==== Sys2Proof/Laws/Slot.lean ====
section
/-! SUPPORT. What a slot operation does, said once for all of them: one that is not the last of its bundle joins it; a bundle of one operation that
issues ends as `State.issues` says. -/

namespace Sys2Proof.Machine

/-! ## Store operations are left alone -/

@[simp] theorem Dev.setReqs_writes (d : Dev) (pg a b : Nat) : (d.setReqs pg a b).writes = d.writes := rfl
@[simp] theorem Dev.atCycle_writes (d : Dev) (u c : Nat) : (d.atCycle u c).writes = d.writes := rfl
@[simp] theorem Dev.stoppedView_writes (d : Dev) (u : Nat) : (d.stoppedView u).writes = d.writes := rfl

@[simp] theorem Dev.idle_writes (d : Dev) (pg : Nat) : (d.idle pg).writes = d.writes := by
  unfold Dev.idle
  split <;> simp

@[simp] theorem Dev.stopUnit_writes (d : Dev) (u cause : Nat) : (d.stopUnit u cause).writes = d.writes := by
  unfold Dev.stopUnit
  split <;> simp

@[simp] theorem Dev.illegalBundle_writes (d : Dev) (u : Nat) : (d.illegalBundle u).writes = d.writes := by
  unfold Dev.illegalBundle; simp

@[simp] theorem Dev.endBundle_writes (d : Dev) (u : Nat) : (d.endBundle u).writes = d.writes := by
  unfold Dev.endBundle
  simp only
  repeat' split
  all_goals simp

/-- A bundle of one operation leaves over the store operations of its operation. -/
theorem Dev.issueBundle_writes (d : Dev) (u c : Nat) (o : SlotOp) (ws : List RegWr) (act after : Dev → Dev)
    (ha : ∀ e : Dev, (act e).writes = e.writes) (hb : ∀ e : Dev, (after e).writes = e.writes) :
    (d.issueBundle u c [(o, .issue ws act after)]).writes = d.writes := by
  unfold Dev.issueBundle
  simp only [List.foldl_cons, List.foldl_nil, SlotRes.act, SlotRes.after, hb, Dev.endBundle_writes, Dev.atCycle_writes, Dev.setUnit_writes, ha]

theorem Dev.formatEvents_writes (d : Dev) (pg fl fmt i v : Nat) : (d.formatEvents pg fl fmt i v).writes = d.writes := by
  unfold Dev.formatEvents
  simp only
  repeat' split
  all_goals simp

theorem Dev.vectorFlags_writes (d : Dev) (u fl fmt i : Nat) : (d.vectorFlags u fl fmt i).writes = d.writes := by
  have h : ∀ (n : List Nat) (d : Dev),
      (n.foldl (fun (d : Dev) f => if bit fl f then d.bump Reg.VECTOR_FLAG_CNT u 1 f else d) d).writes = d.writes := by
    intro n
    induction n with
    | nil => intro d; rfl
    | cons a n ih =>
      intro d
      refine (ih _).trans ?_
      show (if bit fl a = true then d.bump Reg.VECTOR_FLAG_CNT u 1 a else d).writes = d.writes
      split <;> rfl
  unfold Dev.vectorFlags
  split
  · rfl
  · simp only [Dev.formatEvents_writes, h, Dev.wr_writes]

theorem Dev.tileFlags_writes (d : Dev) (u : Nat) (t : CqEntry) : (d.tileFlags u t).writes = d.writes := by
  unfold Dev.tileFlags
  simp [Dev.formatEvents_writes]

@[simp] theorem Dev.busy_writes (d : Dev) (pg : Nat) : (d.busy pg).writes = d.writes := by
  unfold Dev.busy
  split <;> simp

@[simp] theorem Dev.vectorView_writes (d : Dev) (u : Nat) : (d.vectorView u).writes = d.writes := by
  unfold Dev.vectorView
  simp only
  split <;> simp

theorem Dev.makeReady_writes (d : Dev) (u e : Nat) : (d.makeReady u e).writes = d.writes := by
  unfold Dev.makeReady
  simp [Dev.tileFlags_writes]

theorem Dev.readyToCurrent_writes (d : Dev) (u : Nat) : (d.readyToCurrent u).writes = d.writes := by
  unfold Dev.readyToCurrent
  simp only
  split <;> rfl

theorem Dev.verifiedToReady_writes (d : Dev) (u : Nat) : (d.verifiedToReady u).writes = d.writes := by
  unfold Dev.verifiedToReady
  simp only
  split <;> simp [Dev.makeReady_writes]

theorem Dev.promote_writes (d : Dev) (u : Nat) : (d.promote u).writes = d.writes := by
  unfold Dev.promote
  simp only [Dev.vectorView_writes, Dev.readyToCurrent_writes, Dev.verifiedToReady_writes]

theorem Dev.releaseTile_writes (d : Dev) (u : Nat) : (d.releaseTile u).writes = d.writes := by
  unfold Dev.releaseTile
  split <;> simp [Dev.promote_writes]

theorem Dev.vopActs_writes (d : Dev) (u : Nat) (f : VSlot) (o : VOut) (hp : ∀ e : Dev, (o.post e).writes = e.writes) :
    (d.vopActs u f o).writes = d.writes := by
  unfold Dev.vopActs
  simp only
  split <;> split <;> simp [Dev.releaseTile_writes, hp, Dev.vectorFlags_writes]

/-! ## Slots -/

/-- A bundle of one operation. -/
theorem bundleOps_one (m : Mem) (u : Nat) (c : SlotCmd) : bundleOps m u [c] = [c.op m u] := by
  cases c <;> rfl

/-- A slot operation that is not the last of its bundle joins it, and nothing of it acts (R185). -/
theorem slot_joins (s : State) (u : BitVec 12) (c : SlotCmd) (h : s.dev.issuing u.toNat [2] = true) :
    runSlot s u false c = s.ends (s.dev.start.setUnit u.toNat { s.dev.unit u.toNat with bundle := joinSlot (s.dev.unit u.toNat).bundle c }) := by
  have hi : s.dev.start.issuing u.toNat [2] = true := h
  simp only [runSlot, runMem, Dev.slot, hi]
  rfl

/-- A slot operation that is its whole bundle, of a unit in a state in which it can be offered, is offered alone. -/
theorem slot_offers (s : State) (u : BitVec 12) (c : SlotCmd) (h : (s.dev.unit u.toNat).bundle = [])
    (hi : s.dev.issuing u.toNat (if c.states.length = 1 then [2] else c.states) = true) :
    runSlot s u true c = s.endsStore (s.dev.start.offerBundle u.toNat [c.op s.mem u.toNat]) := by
  have hj : joinSlot (s.dev.start.unit u.toNat).bundle c = [c] := by
    have hb : (s.dev.start.unit u.toNat).bundle = [] := h
    rw [hb]; rfl
  have hi' : s.dev.start.issuing u.toNat (if c.states.length = 1 then [2] else c.states) = true := hi
  simp only [runSlot, runMem, State.endsStore, Dev.slot, hj, List.foldl_cons, List.foldl_nil, if_true, hi', bundleOps_one]

/-- A slot that can be offered only by a unit that issues. -/
theorem slot_offered (s : State) (u : BitVec 12) (c : SlotCmd) (o : SlotOp) (hst : c.states = [2]) (h : SlotRuns s u o) :
    runSlot s u true c = s.endsStore (s.dev.start.offerBundle u.toNat [c.op s.mem u.toNat]) :=
  slot_offers s u c h.alone (by rw [hst]; exact h.issuing)

/-- What a bundle of one operation with distinct destinations does when it issues. -/
theorem offer_issues (s : State) (u : BitVec 12) (o : SlotOp) (ws : List RegWr) (act after : Dev → Dev) (hd : o.dsts.Nodup ∧ 32 ∉ o.dsts)
    (hr : o.run s.dev.start = .issue ws act after) : s.dev.start.offerBundle u.toNat [o] = s.issued u o ws act after := by
  have hd1 : decide o.dsts.Nodup = true := decide_eq_true hd.1
  have hd2 : o.dsts.contains 32 = false := by simpa using hd.2
  simp only [State.issued, Dev.offerBundle, List.map_cons, List.map_nil, List.flatMap_cons, List.flatMap_nil, List.append_nil, hr, hd1, hd2,
    List.any_cons, List.any_nil, SlotRes.isIllegal, Bool.or_false, Bool.not_true, firstHold]
  by_cases hw : o.weight = 0
  · simp only [hw, if_true]; rfl
  · have hw' : (o.weight != 0) = true := by simpa using hw
    simp only [hw, if_false, hw', if_true]; rfl

/-- What it does when a counter of SEQ counts its hold. -/
theorem offer_holds (s : State) (u : BitVec 12) (o : SlotOp) (counter : Field) (act : Dev → Dev) (hd : o.dsts.Nodup ∧ 32 ∉ o.dsts)
    (hr : o.run s.dev.start = .hold counter act) : s.dev.start.offerBundle u.toNat [o] = s.heldBy u o counter act := by
  have hd1 : decide o.dsts.Nodup = true := decide_eq_true hd.1
  have hd2 : o.dsts.contains 32 = false := by simpa using hd.2
  simp only [State.heldBy, Dev.offerBundle, List.map_cons, List.map_nil, List.flatMap_cons, List.flatMap_nil, List.append_nil, hr, hd1, hd2,
    List.any_cons, List.any_nil, SlotRes.isIllegal, Bool.or_false, Bool.not_true, firstHold]
  by_cases hw : o.weight = 0
  · simp only [hw, if_true]; rfl
  · have hw' : (o.weight != 0) = true := by simpa using hw
    simp only [hw, if_false, hw']; rfl

/-- What it does when it stops issue, or waits uncounted. -/
theorem offer_stops (s : State) (u : BitVec 12) (o : SlotOp) (act : Dev → Dev) (hd : o.dsts.Nodup ∧ 32 ∉ o.dsts)
    (hr : o.run s.dev.start = .stop act) : s.dev.start.offerBundle u.toNat [o] = s.stopsBy u o act := by
  have hd1 : decide o.dsts.Nodup = true := decide_eq_true hd.1
  have hd2 : o.dsts.contains 32 = false := by simpa using hd.2
  simp only [State.stopsBy, Dev.offerBundle, List.map_cons, List.map_nil, List.flatMap_cons, List.flatMap_nil, List.append_nil, hr, hd1, hd2,
    List.any_cons, List.any_nil, SlotRes.isIllegal, Bool.or_false, Bool.not_true, firstHold]
  cases o.weight != 0 <;> rfl

/-- What it does when it breaks an encoding rule, or writes m0. -/
theorem offer_illegal (d : Dev) (u : Nat) (o : SlotOp) (h : o.run d = .illegal ∨ 32 ∈ o.dsts) : d.offerBundle u [o] = d.illegalBundle u := by
  rcases h with h | h
  · simp only [Dev.offerBundle, List.map_cons, List.map_nil, h, List.any_cons, SlotRes.isIllegal, Bool.true_or, if_true]
  · have hd : ([o].flatMap (·.dsts)).contains 32 = true := by simpa using h
    simp only [Dev.offerBundle, hd, Bool.or_true, if_true]

/-- An end that stores nothing. -/
theorem endsStore_ends (s : State) (d : Dev) (h : d.writes = []) : s.endsStore d = s.ends d := by
  unfold State.endsStore State.ends
  rw [h]
  rfl

/-- None of the three leaves a store operation over, unless its effects do. -/
theorem State.issued_writes (s : State) (u : BitVec 12) (o : SlotOp) (ws : List RegWr) (act after : Dev → Dev)
    (ha : ∀ e : Dev, (act e).writes = e.writes) (hb : ∀ e : Dev, (after e).writes = e.writes) : (s.issued u o ws act after).writes = [] :=
  Dev.issueBundle_writes _ _ _ _ _ _ _ ha hb

theorem State.heldBy_writes (s : State) (u : BitVec 12) (o : SlotOp) (counter : Field) (act : Dev → Dev)
    (ha : ∀ e : Dev, (act e).writes = e.writes) : (s.heldBy u o counter act).writes = [] := by
  unfold State.heldBy
  simp only
  split <;> simp [ha, Dev.start]

theorem State.stopsBy_writes (s : State) (u : BitVec 12) (o : SlotOp) (act : Dev → Dev)
    (ha : ∀ e : Dev, (act e).writes = e.writes) : (s.stopsBy u o act).writes = [] := by
  unfold State.stopsBy
  simp [ha, Dev.start]

/-- A bundle of one operation that issues. -/
theorem slot_issues_store (s : State) (u : BitVec 12) (c : SlotCmd) (ws : List RegWr) (act after : Dev → Dev)
    (hst : c.states = [2]) (h : SlotRuns s u (c.op s.mem u.toNat)) (hr : (c.op s.mem u.toNat).run s.dev.start = .issue ws act after) :
    runSlot s u true c = s.endsStore (s.issued u (c.op s.mem u.toNat) ws act after) := by
  rw [slot_offered s u c _ hst h, offer_issues s u _ ws act after h.dests hr]

/-- The same for an operation that stores nothing: the store stays as it was. -/
theorem slot_issues (s : State) (u : BitVec 12) (c : SlotCmd) (ws : List RegWr) (act after : Dev → Dev)
    (hst : c.states = [2]) (h : SlotRuns s u (c.op s.mem u.toNat)) (hr : (c.op s.mem u.toNat).run s.dev.start = .issue ws act after)
    (ha : ∀ e : Dev, (act e).writes = e.writes) (hb : ∀ e : Dev, (after e).writes = e.writes) :
    runSlot s u true c = s.ends (s.issued u (c.op s.mem u.toNat) ws act after) := by
  rw [slot_issues_store s u c ws act after hst h hr]
  exact endsStore_ends s _ (s.issued_writes u _ ws act after ha hb)

/-- A bundle of one operation that a counter of SEQ holds. -/
theorem slot_holds (s : State) (u : BitVec 12) (c : SlotCmd) (counter : Field) (act : Dev → Dev)
    (hst : c.states = [2]) (h : SlotRuns s u (c.op s.mem u.toNat)) (hr : (c.op s.mem u.toNat).run s.dev.start = .hold counter act)
    (ha : ∀ e : Dev, (act e).writes = e.writes) : runSlot s u true c = s.ends (s.heldBy u (c.op s.mem u.toNat) counter act) := by
  rw [slot_offered s u c _ hst h, offer_holds s u _ counter act h.dests hr]
  exact endsStore_ends s _ (s.heldBy_writes u _ counter act ha)

/-- A bundle of one operation that stops issue, or waits uncounted. -/
theorem slot_stops (s : State) (u : BitVec 12) (c : SlotCmd) (act : Dev → Dev)
    (hst : c.states = [2]) (h : SlotRuns s u (c.op s.mem u.toNat)) (hr : (c.op s.mem u.toNat).run s.dev.start = .stop act)
    (ha : ∀ e : Dev, (act e).writes = e.writes) : runSlot s u true c = s.ends (s.stopsBy u (c.op s.mem u.toNat) act) := by
  rw [slot_offered s u c _ hst h, offer_stops s u _ act h.dests hr]
  exact endsStore_ends s _ (s.stopsBy_writes u _ act ha)

/-- A bundle of one operation that breaks an encoding rule, or writes m0. -/
theorem slot_illegal (s : State) (u : BitVec 12) (c : SlotCmd) (h : (s.dev.unit u.toNat).bundle = [])
    (hi : s.dev.issuing u.toNat (if c.states.length = 1 then [2] else c.states) = true)
    (hr : (c.op s.mem u.toNat).run s.dev.start = .illegal ∨ 32 ∈ (c.op s.mem u.toNat).dsts) :
    runSlot s u true c = s.ends (s.dev.start.illegalBundle u.toNat) := by
  rw [slot_offers s u c h hi, offer_illegal _ _ _ hr]
  exact endsStore_ends s _ (by simp [Dev.start])

/-- A vector operation that issues. -/
theorem vop_ends (s : State) (u : BitVec 12) (opc : Nat) (f : VSlot) (op : Nat → VSlot → Dev → VOut) (o : VOut)
    (h : VectorRuns s u opc f) (h0 : opc ≠ 0) (h1 : opc ≠ 0x68) (hop : vOut opc = some op) (ho : op u.toNat f s.dev.start = o)
    (hp : ∀ e : Dev, (o.post e).writes = e.writes) : runSlot s u true (.v opc f) = vEnds s u opc f o := by
  obtain ⟨hs, hf, hc⟩ := h
  have hcq : (f.cqa && (s.dev.start.currentEntry u.toNat).isNone) = false := by
    cases hq : f.cqa with
    | false => rfl
    | true =>
      have := hc hq
      have e : s.dev.start.currentEntry u.toNat = s.dev.currentEntry u.toNat := rfl
      rw [e]
      cases h : s.dev.currentEntry u.toNat with
      | none => rw [h] at this; simp at this
      | some _ => rfl
  refine slot_issues s u (.v opc f) o.ws (fun d => d.vopActs u.toNat f o) id rfl hs ?_ ?_ fun _ => rfl
  · show (vOp u.toNat opc f).run s.dev.start = _
    simp only [vOp, h0, h1, if_false, hop, Dev.vop, hf, hcq, ho]
    rfl
  · intro e
    exact Dev.vopActs_writes e u.toNat f o hp

end Sys2Proof.Machine
end

