-- ==== Sys2Proof/WellFormed.lean ====
section
/-! DEFINITION. Which commands name things that the package has: pages, units, clusters, regions, domains, and lists of the right
length (R25, R33, R38, R40). A command's meaning is total: one that is not well formed names nothing the package holds. -/

namespace Sys2Proof

/-- R33: a cluster and a region by coordinate. -/
def clusterOk (c : Nat) : Bool := decide (c < 4096) && c % 32 == 0
def regionOk (r : Nat) : Bool := decide (r < 4096) && r % 256 == 0

/-- R21: a fault-map entry names a unit, cluster, region, die or stack. -/
def faultOk (level inst : Nat) : Bool :=
  match level with
  | 1 => Machine.unitOk inst
  | 2 => clusterOk inst
  | 3 => regionOk inst
  | 4 => decide (inst < 4096) && inst % 1024 == 0
  | 5 => decide (inst < 8)
  | _ => false

/-- R527: a domain and its instance. -/
def domainOk (dom inst : Nat) : Bool :=
  if dom = 0 then inst == 0 else decide (dom ≤ 6) && Machine.instOk ([0, 4, 3, 2, 6, 7, 5].getD dom 0) inst

/-- The end of the byte store. -/
def storeEnd : Nat := Machine.hbmBase 8

open Machine in
/-- The operands of a command name things of the package. -/
def Instr.wf : Instr → Bool
  | .registerWrite _ _ _ _ => true
  | .pageCtlEn _ pg _ => pageOk pg.toNat
  | .pageCtlQreqSet _ pg => pageOk pg.toNat
  | .pageCtlQreqClear _ pg => pageOk pg.toNat
  | .pageCtlRreq _ pg => pageOk pg.toNat
  | .pageArmArm _ pg _ _ => pageOk pg.toNat
  | .pageArmDiscard _ pg _ => pageOk pg.toNat
  | .shadowCommit pg => pageOk pg.toNat
  | .cgCtlArm _ _ _ => true
  | .cgCtlDiscard _ _ => true
  | .groupCommit _ => true
  | .quiesceDrainComplete pg => pageOk pg.toNat
  | .quiesceTimeout pg => pageOk pg.toNat
  | .requestTimeout pg _ => pageOk pg.toNat
  | .replyArrival reply => pageOk reply.pg.toNat
  | .uncorrectableError pg _ => pageOk pg.toNat
  | .pageEvtClear _ pg _ => pageOk pg.toNat
  | .pageCerrClr _ pg => pageOk pg.toNat
  | .pageUerrClr _ pg => pageOk pg.toNat
  | .evtLost q => decide (q.toNat < 20 ∨ q.toNat = 32)
  | .selvedgeBlockReceive _ _ _ _ block _ => block.length == 4096
  | .faultMapClear _ faults => faults.all fun x => faultOk x.1.toNat x.2.toNat
  | .mnop u _ => unitOk u.toNat
  | .mpass u _ _ _ => unitOk u.toNat
  | .mfence u _ _ => unitOk u.toNat
  | .passEntry u _ _ => unitOk u.toNat
  | .tileDrain u _ _ _ => unitOk u.toNat
  | .tileCheckStart u => unitOk u.toNat
  | .tileCheckDone u upset _ => unitOk u.toNat && upset.all fun x => decide (x.1.toNat < 1024)
  | .recomputeStart u => unitOk u.toNat
  | .recomputeDone u _ => unitOk u.toNat
  | .matrixTestRun _ u => unitOk u.toNat
  | .arrayTestDone u _ _ => unitOk u.toNat
  | .matrixCntClr _ u => unitOk u.toNat
  | .vnop u _ => unitOk u.toNat
  | .vAdd u _ _ => unitOk u.toNat
  | .vSub u _ _ => unitOk u.toNat
  | .vMul u _ _ => unitOk u.toNat
  | .vFma u _ _ => unitOk u.toNat
  | .vFms u _ _ => unitOk u.toNat
  | .vFnma u _ _ => unitOk u.toNat
  | .vAbs u _ _ => unitOk u.toNat
  | .vNeg u _ _ => unitOk u.toNat
  | .vMinE u _ _ => unitOk u.toNat
  | .vMaxE u _ _ => unitOk u.toNat
  | .vMaxaE u _ _ => unitOk u.toNat
  | .vClass u _ _ => unitOk u.toNat
  | .vSel u _ _ => unitOk u.toNat
  | .vMov u _ _ => unitOk u.toNat
  | .cmpEq u _ _ => unitOk u.toNat
  | .cmpNe u _ _ => unitOk u.toNat
  | .cmpLt u _ _ => unitOk u.toNat
  | .cmpLe u _ _ => unitOk u.toNat
  | .cmpGt u _ _ => unitOk u.toNat
  | .cmpGe u _ _ => unitOk u.toNat
  | .vDiv u _ _ => unitOk u.toNat
  | .vRcp u _ _ => unitOk u.toNat
  | .vSqrt u _ _ => unitOk u.toNat
  | .vRsqrt u _ _ => unitOk u.toNat
  | .vExp2 u _ _ => unitOk u.toNat
  | .vLog2 u _ _ => unitOk u.toNat
  | .vExp u _ _ => unitOk u.toNat
  | .vLog u _ _ => unitOk u.toNat
  | .vTanh u _ _ => unitOk u.toNat
  | .vSigmoid u _ _ => unitOk u.toNat
  | .vErf u _ _ => unitOk u.toNat
  | .vSin u _ _ => unitOk u.toNat
  | .vCos u _ _ => unitOk u.toNat
  | .cvtF16f32 u _ _ => unitOk u.toNat
  | .cvtF32f16 u _ _ => unitOk u.toNat
  | .cvtI32f32 u _ _ => unitOk u.toNat
  | .cvtF32i32 u _ _ => unitOk u.toNat
  | .cvtTob u _ _ => unitOk u.toNat
  | .cvtFromb u _ _ => unitOk u.toNat
  | .iadd u _ _ => unitOk u.toNat
  | .isub u _ _ => unitOk u.toNat
  | .imul u _ _ => unitOk u.toNat
  | .imin u _ _ => unitOk u.toNat
  | .imax u _ _ => unitOk u.toNat
  | .icmpEq u _ _ => unitOk u.toNat
  | .icmpNe u _ _ => unitOk u.toNat
  | .icmpLt u _ _ => unitOk u.toNat
  | .icmpLe u _ _ => unitOk u.toNat
  | .icmpGt u _ _ => unitOk u.toNat
  | .icmpGe u _ _ => unitOk u.toNat
  | .vAnd u _ _ => unitOk u.toNat
  | .vOr u _ _ => unitOk u.toNat
  | .vXor u _ _ => unitOk u.toNat
  | .vNot u _ _ => unitOk u.toNat
  | .vShl u _ _ => unitOk u.toNat
  | .vShr u _ _ => unitOk u.toNat
  | .vSar u _ _ => unitOk u.toNat
  | .vbcast u _ _ => unitOk u.toNat
  | .vrot u _ _ => unitOk u.toNat
  | .vzip u _ _ => unitOk u.toNat
  | .vunzip u _ _ => unitOk u.toNat
  | .vperm u _ _ => unitOk u.toNat
  | .vsum u _ _ => unitOk u.toNat
  | .vMaxR u _ _ => unitOk u.toNat
  | .vMinR u _ _ => unitOk u.toNat
  | .vAmaxR u _ _ => unitOk u.toNat
  | .mand u _ _ => unitOk u.toNat
  | .mor u _ _ => unitOk u.toNat
  | .mxor u _ _ => unitOk u.toNat
  | .mandn u _ _ => unitOk u.toNat
  | .mnot u _ _ => unitOk u.toNat
  | .mset u _ _ => unitOk u.toNat
  | .mcount u _ _ => unitOk u.toNat
  | .msign u _ _ => unitOk u.toNat
  | .vflags u _ _ => unitOk u.toNat
  | .vstat u _ _ => unitOk u.toNat
  | .vpop u _ _ => unitOk u.toNat
  | .popTimeout u => unitOk u.toNat
  | .vectorCntClr _ u => unitOk u.toNat
  | .vectorCstatClr _ u => unitOk u.toNat
  | .dnop u _ => unitOk u.toNat
  | .dld u _ _ _ _ => unitOk u.toNat
  | .dst u _ _ _ _ => unitOk u.toNat
  | .dldm u _ _ _ => unitOk u.toNat
  | .dstm u _ _ => unitOk u.toNat
  | .dkick u _ _ => unitOk u.toNat
  | .dwait u _ _ => unitOk u.toNat
  | .cnop u _ => unitOk u.toNat
  | .sli u _ _ => unitOk u.toNat
  | .sadd u _ _ => unitOk u.toNat
  | .ssub u _ _ => unitOk u.toNat
  | .saddi u _ _ => unitOk u.toNat
  | .sshli u _ _ => unitOk u.toNat
  | .sshri u _ _ => unitOk u.toNat
  | .sandi u _ _ => unitOk u.toNat
  | .slidx u _ _ => unitOk u.toNat
  | .seqLoop u _ _ => unitOk u.toNat
  | .wbeat u _ _ => unitOk u.toNat
  | .seqBar u _ _ => unitOk u.toNat
  | .barrierTimeout c _ => clusterOk c.toNat
  | .srctx u _ _ => unitOk u.toNat
  | .sevt u _ _ => unitOk u.toNat
  | .seqEnd u _ => unitOk u.toNat
  | .illegalBundle u _ => unitOk u.toNat
  | .seqStart _ u => unitOk u.toNat
  | .programStart u => unitOk u.toNat
  | .seqCntClr _ u => unitOk u.toNat
  | .fillGo _ u => unitOk u.toNat
  | .istoreFillComplete u _ _ => unitOk u.toNat
  | .scrubLine larder inst line _ => if larder then regionOk inst.toNat else unitOk inst.toNat && decide (line.toNat < 8192)
  | .patrolRead _ _ _ => true
  | .hbmCrcRetry _ _ _ => true
  | .kickGo _ rm inst _ => if rm then regionOk inst.toNat else clusterOk inst.toNat
  | .cmovePassToRmove c => clusterOk c.toNat
  | .moveBlockStart rm inst _ => if rm then regionOk inst.toNat else clusterOk inst.toNat
  | .moveBlockComplete rm inst => if rm then regionOk inst.toNat else clusterOk inst.toNat
  | .descNop rm inst => if rm then regionOk inst.toNat else clusterOk inst.toNat
  | .descCopy rm inst _ _ => if rm then regionOk inst.toNat else clusterOk inst.toNat
  | .descZero rm inst => if rm then regionOk inst.toNat else clusterOk inst.toNat
  | .descCompress rm inst _ _ => if rm then regionOk inst.toNat else clusterOk inst.toNat
  | .descDecompress rm inst _ _ => if rm then regionOk inst.toNat else clusterOk inst.toNat
  | .descToBlock rm inst _ _ => if rm then regionOk inst.toNat else clusterOk inst.toNat
  | .descFromBlock rm inst _ _ => if rm then regionOk inst.toNat else clusterOk inst.toNat
  | .descExchEnc inst _ _ => regionOk inst.toNat
  | .descExchDec inst _ _ => regionOk inst.toNat
  | .compressCntClr _ inst => regionOk inst.toNat
  | .beatBoundary => true
  | .exchangeWindowStart => true
  | .slackWindowStart _ => true
  | .beatMarker _ _ _ _ _ => true
  | .markerTimeout => true
  | .holdLimitExpiry => true
  | .sourceTimeout => true
  | .delayRemeasure _ _ => true
  | .voteTimeout _ => true
  | .stepStart => true
  | .stepVote _ => true
  | .stepCommit => true
  | .stepReplay => true
  | .stepRecover => true
  | .forceWaitExceeded _ => true
  | .draftCmdLoad _ => true
  | .draftCmdAbort _ => true
  | .placementDone => true
  | .placeTimeout => true
  | .replanStart _ => true
  | .replanDone => true
  | .replanTimeout => true
  | .planCommit _ => true
  | .waySwapStart r _ _ => regionOk r.toNat
  | .numericEvaluation _ => true
  | .watchCntClr _ => true
  | .contributionLand r _ => regionOk r.toNat
  | .deadlinePass _ => true
  | .exchCntClr _ => true
  | .linkSignalDetect _ => true
  | .trainComplete _ _ _ => true
  | .trainTimeout _ => true
  | .laneDegraded _ _ => true
  | .uncorrCwLimit _ _ _ => true
  | .linkDown _ => true
  | .linkPhyRetry _ _ => true
  | .shuttleFetch _ area => decide (area.toNat < storeEnd)
  | .slotSend _ => true
  | .lateSend _ _ => true
  | .schedShuttle _ _ area => decide (area.toNat < storeEnd)
  | .lateShuttle _ _ area _ => decide (area.toNat < storeEnd)
  | .resendReqRecv _ _ _ => true
  | .resendNakRecv _ _ _ => true
  | .slackTtlExpiry _ => true
  | .linkRouteCmdLoad _ => true
  | .routeApplied => true
  | .linkErrCntClr _ _ => true
  | .ethernetFrameReceive _ _ => true
  | .mkaFrame _ _ => true
  | .mkaPeerLost _ => true
  | .arpRequest _ _ => true
  | .neighborSolicitation _ _ _ => true
  | .echoRequest _ _ _ => true
  | .ptpAnnounce _ _ => true
  | .ptpExchange _ _ => true
  | .ptpTimeout _ => true
  | .hostOpen _ _ _ => true
  | .hostData _ _ _ => true
  | .hostAck _ _ _ => true
  | .hostClose _ _ _ => true
  | .ackTimer _ => true
  | .rtoExpiry _ => true
  | .sessionDead _ => true
  | .chanCreate _ => true
  | .chanDestroy _ => true
  | .regMessage _ => true
  | .hostInData _ _ => true
  | .hostOutRequest _ => true
  | .hostOutSend _ => true
  | .resetFrame _ _ _ => true
  | .hostMacCntClr _ _ => true
  | .hostSecCntClr _ _ => true
  | .hostXportCntClr _ _ => true
  | .leaseFrame _ => true
  | .minuteBoundary => true
  | .leaseHoldoverLimit => true
  | .totalsSave => true
  | .rampStepDone _ => true
  | .droopTrip _ => true
  | .droopClear _ _ => true
  | .avsSample rails => rails.all fun x => decide (x.2.1.toNat < 7)
  | .measLoop => true
  | .recalibration => true
  | .powerLend => true
  | .offerSend => true
  | .powerBorrow => true
  | .needRecv _ _ _ => true
  | .offerRecv _ _ _ => true
  | .grantRecv _ _ _ => true
  | .refuseRecv _ _ _ => true
  | .junctionSensorRead _ t => t.length == 4
  | .hbmTempRead _ t => t.length == 2
  | .regAlert _ => true
  | .regAlertRelease _ => true
  | .shelfRelease _ => true
  | .refclkLoss _ => true
  | .dieManagerHung _ => true
  | .drainSend use => decide (use.toNat < 3)
  | .drainPiece _ _ _ => true
  | .refillPiece _ _ _ => true
  | .atticRefillPiece _ _ _ => true
  | .partAnswer use _ => decide (use.toNat < 3)
  | .partAck _ _ _ => true
  | .partNak _ _ _ => true
  | .manifestAck _ _ _ => true
  | .manifestBad _ _ _ => true
  | .partRetry use _ => decide (use.toNat < 3)
  | .drainHoldExpiry _ => true
  | .externalDrainSend _ => true
  | .drainAck _ => true
  | .drainData _ => true
  | .drainLedger _ => true
  | .restoreStart => true
  | .restoreAccept => true
  | .restoreResume => true
  | .fwStage _ => true
  | .fwConfirm _ => true
  | .leaseKey _ => true
  | .resetKey _ => true
  | .cakKey _ => true
  | .fallbackKey _ => true
  | .lockKey _ => true
  | .attestRequest _ => true
  | .quoteSigned => true
  | .sigBudgetLow => true
  | .energyRecFetch _ _ => true
  | .powerOn => true
  | .resetN => true
  | .resetNRelease => true
  | .bringupSl1 _ _ _ _ => true
  | .bringupSl2 _ => true
  | .bringupSl3 _ => true
  | .selfTestDone level inst failed => domainOk level.toNat inst.toNat && failed.all fun x => faultOk x.1.toNat x.2.toNat
  | .hbmTrainDone _ _ => true
  | .watchdog => true
  | .thermtrip => true
  | .lockstep _ => true
  | .rstSrcReq _ _ => true
  | .domainReset dom inst => domainOk dom.toNat inst.toNat
  | .bringupStopAt _ v => decide (0 < v.toNat)
  | .bringupResume _ => true
  | .hostLinkUp _ => true
  | .hostLinkDown _ => true
  | .slackShuttleForward _ _ _ => true
  | .powerGoodRise => true
  | .refclkReturn => true
  | .duplicateAddressDetectionEnd _ _ => true
  | .latchedRead _ _ => true
  | .testPortInstruction _ => true

end Sys2Proof
end

