-- ==== Sys2Proof/Tests/Slice0.lean ====
section
/-! SUPPORT. The package's own tests: the refusals of WellFormed, and for each statement with hypotheses a state and operands that meet the
hypotheses of each of its clauses (test_witness_…). -/

namespace Sys2Proof.Tests

open Sys2Proof.Machine

-- One test at a time: each kernel evaluation waits for the one before it, and a waiting test holds a thread.
set_option Elab.async false

/-! ## States -/

/-- The package out of reset, its image entered. -/
def upDev : Dev := { rst := { held := false, low := false, cause := 0, booted := true } }
def st (d : Dev) : State := { dev := d }
def up : State := st upDev
/-- The beat timer runs. -/
def ticking : Dev := { upDev with timerOn := true, beatSeen := true }
abbrev pm : Requester := .packageManager

/-! ## The queue, the store, register accesses -/

theorem test_witness_IdleStepPassesTime : up.pending = [] ∧ up.dev.timerOn = false ∧ (st ticking).pending = [] ∧ (st ticking).dev.timerOn = true ∧
    (let pg := pageNum 1 5 3
     let d : Dev := { upDev with resetting := [(pg, 1, true)] }.setBs pg Bs.resetting
     let e : Dev := { upDev with resetting := [(pg, 2, true)] }.setBs pg Bs.resetting
     d.resetting = [(pg, d.now + 1, true)] ∧ d.rst.back = [] ∧ d.timerOn = false ∧ d.bs pg = Bs.resetting ∧ d.hd Hdr.CTL_EN pg = 0 ∧
     (∀ x ∈ e.resetting, e.now + 1 < x.2.1)) := by decide +kernel

theorem test_witness_StepKeepsInvariant : State.reset.Inv ∧ ∃ t, step State.reset = .next t := ⟨⟨by decide, rfl⟩, _, rfl⟩

theorem test_witness_OnlyStoringCommandsStore : storing .minuteBoundary = false ∧ ∃ t, exec .minuteBoundary up = .next t := ⟨rfl, _, rfl⟩

theorem test_witness_AccessesAndLatches : up.dev.rst.held = false ∧ up.dev.rst.runsTo ≤ up.dev.now ∧ State.reset.dev.rst.held = true ∧
    pageOk ((0xFFFFFFFF : BitVec 32).toNat / 4096) = false ∧ pageOk 0x10000 = true ∧ pgClass 0x10000 ≠ 14 ∧ pm ≠ .host false ∧
    3 % 4 ≠ 0 ∧ 4092 % 4 = 0 ∧ (upDev.setBs 0x10000 7).bs 0x10000 = 7 ∧ (upDev.setBs 0x10000 5).bs 0x10000 = 5 ∧
    up.accepts pm (pageNum 8 0 0) 0x0A0 false := by decide +kernel

theorem test_witness_HeaderAlwaysAccessible : 127 < 128 ∧ (0x10000 : Nat) < 2 ^ 20 := by decide

/-! ## Blocks -/

theorem test_witness_EnableAndReset :
    (let pg := pageNum 1 5 1
     let d := upDev.setBs pg Bs.idle |>.hw Hdr.CTL_EN pg 1
     up.accepts pm pg 0x010 true ∧ up.dev.hd Hdr.CTL_EN pg = ofB false ∧ up.dev.hd Hdr.CTL_EN pg ≠ ofB true ∧ (st d).accepts pm pg 0x010 true ∧
     d.hd Hdr.CTL_EN pg ≠ ofB false ∧ pgPage pg ≠ 0) ∧
    (let pg := pgLinkPhy 31
     pg < 2 ^ 20 ∧ upDev.phy 31 = 0 ∧ upDev.routeLive = false ∧ up.accepts pm pg 0x010 true) ∧
    (let pg := pageNum 7 (hostInst 7) 0
     pg < 2 ^ 20 ∧ upDev.rd Reg.HOST_MAC_STATE (hostInst 7) = 0 ∧ up.accepts pm pg 0x010 true) ∧
    (let pg := pageNum 1 5 3
     let at' := fun b => upDev.setBs pg b
     capQuiesce pg = true ∧ (∀ b ∈ [0, 1, 2, 3, 4, 5, 6, 7], (at' b).bs pg = b ∧ (st (at' b)).accepts pm pg 0x010 true) ∧
     (upDev.info pg).group = none ∧ pgClass pg = 1 ∧ pgPage pg = 3 ∧ pgClass (pageNum 3 256 1) = 3 ∧ pgPage (pageNum 3 256 1) = 1 ∧
     capQuiesce (pageNum 12 0 0) = false ∧ up.accepts pm (pageNum 12 0 0) 0x010 true) := by decide +kernel

theorem test_witness_Quiesces :
    (let pc := pageNum 0xC 0 0
     up.accepts pm pc 0x010 true ∧ capQuiesce pc = false) ∧
    (let pg := pageNum 1 5 1
     let d := upDev.setReqs pg 1 0
     up.accepts pm pg 0x010 true ∧ (st d).accepts pm pg 0x010 true ∧ capQuiesce pg = true ∧ pgPage pg ≠ 0 ∧ d.hd Hdr.CTL_QREQ pg = 0 ∧
     d.stepOpen = false ∧ d.bs pg < Bs.quiescing ∧ (d.info pg).resetAfter = false ∧ d.hd Hdr.TIMEOUT_LIMIT pg ≠ 0 ∧
     d.openReqs pg ≠ (0, 0) ∧ upDev.openReqs pg = (0, 0)) ∧
    (let pg := pageNum 1 5 1
     let d := (upDev.hw Hdr.CTL_QREQ pg 1).setBs pg Bs.quiescing
     let e := (upDev.hw Hdr.CTL_QREQ pg 1).setBs pg Bs.quiesced
     let r := d.setReqs pg 1 0
     let f := ((r.force pg 7 true).setBs pg Bs.quiesced).raise pg 0x0107 2 Sev.warn (1 + 65536 * 0)
     (st d).accepts pm pg 0x010 true ∧ (st e).accepts pm pg 0x010 true ∧ d.hd Hdr.CTL_QREQ pg = 1 ∧ d.bs pg = Bs.quiescing ∧
     e.bs pg = Bs.quiesced ∧ ((e.start.hw Hdr.CTL_QREQ pg 0).setInfo pg { e.info pg with waitBoundary := false }).fencedBy pg = false ∧
     d.rst.drain = [] ∧ (d.info pg).resetAfter = false ∧ (∀ q ∈ containers pg, d.bs q ≠ Bs.quiescing) ∧ d.openReqs pg = (0, 0) ∧
     r.openReqs pg = (1, 0) ∧ r.bs pg = Bs.quiescing ∧ (f.info pg).resetAfter = false ∧ f.fencedBy pg = true ∧
     upDev.bs pg ≠ Bs.quiescing) := by decide +kernel

theorem test_witness_RepliesAndErrors :
    (let pg := pageNum 1 5 3
     pageOk pg = true ∧ (∀ b ∈ [0, 1, 2, 3, 4, 5, 6, 7], (upDev.setBs pg b).bs pg = b) ∧ upDev.awaits pg 2 = false ∧ upDev.rst.held = false) ∧
    (let d := upDev.setInfo (pgSeq 5) { issued := [(2, 7)] }
     d.awaits (pgSeq 5) 2 = true ∧ d.bs (pgSeq 5) ≠ Bs.quiesced ∧ d.bs (pgSeq 5) ≠ Bs.fault ∧ pgInst (pgSeq 5) = 5 ∧
     (d.info (pgSeq 5)).issued.find? (fun k => k.1 == 2) = some (2, 7)) ∧
    (let b : MBlock := { addr := 64, kicker := some 293, tag := 2, home := 288, atRegion := false }
     let run : MRun := { block := b, descs := [0], next := 0, fault := none }
     let core : MBlock := { addr := 64, kicker := none, tag := 3, home := 256, atRegion := true }
     let c := upDev.setEng true 256 { queue := [core] }
     let d := upDev.setEng true 256 { queue := [b] }
     let e := upDev.setEng true 256 { run := some run }
     (d.passedBlocks 288).find? (fun b => b.tag == 2) = some b ∧ pgClass (pgCmove 288) = 2 ∧ pgPage (pgCmove 288) = 2 ∧ pageOk (pgCmove 288) = true ∧
     (c.coreBlocks 256).find? (fun x => x.2.tag == 3) = some ((true, 256), core) ∧ (e.eng true 256).run = some run ∧ (e.eng true 256).desc.isSome = true ∧ pgClass (pgRmove 256) = 3 ∧ pgPage (pgRmove 256) = 4 ∧
     pageOk (pgRmove 256) = true) ∧
    (let pg := pageNum 3 256 0
     pageOk pg = true ∧ pgClass pg = 3 ∧ pgPage pg = 0 ∧ upDev.bs pg ≠ Bs.resetting ∧ upDev.bs pg ≠ Bs.retired) := by decide +kernel

theorem test_witness_RegisterWrites :
    (let pg := pageNum 8 0 0
     up.accepts pm pg 0x000 true ∧ actionOf [] 0 pg 0x000 0 = none ∧ (∀ x ∈ wordFields pg 0x000, x.1.acc = .ro) ∧
       up.dev.groupWord pg 0x000 = false) ∧
    (let pg := pageNum 7 0 0
     let d := upDev.setBs pg Bs.run
     (st d).accepts pm pg 0x080 true ∧ actionOf [] 0 pg 0x080 0 = none ∧ (∃ x ∈ wordFields pg 0x080, x.1.acc = .lk) ∧
       d.bs pg ≠ Bs.off ∧ d.bs pg ≠ Bs.idle ∧ d.bs pg ≠ Bs.quiesced) ∧
    (let pg := pageNum 8 0 0
     let d := upDev.hw Hdr.STAT_STATUS pg 1
     let e := upDev.hw Hdr.STAT_STATUS pg 5
     (st d).accepts pm pg 0x094 true ∧ actionOf [] 0 pg 0x094 0 = none ∧ (∃ x ∈ wordFields pg 0x094, x.1.acc = .sh) ∧
       (∀ x ∈ wordFields pg 0x094, x.1.acc ≠ .lk) ∧ d.hd Hdr.STAT_STATUS pg = 1 ∧ e.hd Hdr.STAT_STATUS pg = 5 ∧
       (∀ x ∈ wordFields pg 0x094, x.1.acc = .sh ∨ x.1.acc = .ro) ∧ up.dev.groupWord pg 0x094 = false ∧
       up.dev.hd Hdr.STAT_STATUS pg ≠ 1 ∧ up.dev.hd Hdr.STAT_STATUS pg ≠ 5 ∧ up.accepts pm pg 0x080 true ∧ up.accepts pm pg 0x080 false ∧
       up.accepts pm pg 0x01C true ∧ up.accepts pm pg 0x040 true) := by decide +kernel

theorem test_witness_ArmedGroupWrites :
    (let d := upDev.p Reg.COMMIT_CG_STAT_STATUS 1 7
     d.groupArmed 7 = true ∧ (st d).accepts pm pgCommit (0x0C0 + 4 * 7) true ∧ (st d).accepts pm pgCommit (0x400 + 128 * 7 + 4 * 31) true) ∧
    up.accepts pm pgCommit 0x080 true ∧ (0x300 : BitVec 32).getLsbD 8 = true ∧ (0x300 : BitVec 32).getLsbD 9 = true := by decide +kernel

theorem test_witness_BeatLockCheck :
    (let pg := pageNum 8 0 1
     let d := { (ticking.hw Hdr.STAT_STATUS pg 1).shadowSet Reg.BEAT_LOCK_HOLD_LIMIT pg 0 101 with boundary := 20 }
     up.dev.bs pg < Bs.resetting ∧ up.accepts pm pg 0x030 true ∧ up.dev.hd Hdr.STAT_STATUS pg ≠ 1 ∧ up.dev.hd Hdr.STAT_STATUS pg ≠ 5 ∧
     d.bs pg < Bs.resetting ∧ d.hd Hdr.STAT_STATUS pg = 1 ∧ d.boundaryDue (d.info pg).armedAt 20 = true ∧
     2500 < d.sh Reg.BEAT_LOCK_HOLD_LIMIT 0 * d.g Reg.BEAT_CFG_PERIOD) := by decide +kernel

theorem test_witness_Events :
    (let pg := pageNum 1 5 3
     let full := List.replicate 256 (⟨0, 0, 0, 0, 0⟩ : EventRec)
     let d : Dev := { upDev with queues := [(3, { lost := 2 })] }
     let e : Dev := { upDev with queues := [(3, { recs := full, lost := 2 })] }
     let b := upDev.hw Hdr.EVT_COMMON (pgLstore 5) 32
     let k := upDev.hw Hdr.MASK_COMMON (pgLstore 5) 32
     let f : Dev := { upDev with queues := [(0, { recs := full })] }
     up.accepts pm pg 0x018 true ∧ up.accepts pm pg 0x020 true ∧ up.accepts pm pg 0x024 true ∧ (SMap.at upDev.queues 3 {}).lost = 0 ∧
     queueCap 3 ≤ (SMap.at e.queues 3 {}).recs.length ∧ (SMap.at d.queues 3 {}).lost ≠ 0 ∧ (SMap.at d.queues 3 {}).recs.length < queueCap 3 ∧
     bit (d.hd Hdr.EVT_BLOCK pgEventQ) 0 = false ∧ bit (b.hd Hdr.EVT_COMMON (pgLstore 5)) 5 = true ∧
     bit (k.hd Hdr.MASK_COMMON (pgLstore 5)) 5 = true ∧ bit (f.hd Hdr.EVT_COMMON (pgLstore 5)) 5 = false ∧
     bit (f.hd Hdr.MASK_COMMON (pgLstore 5)) 5 = false ∧ 256 ≤ (SMap.at f.queues 0 {}).recs.length ∧
     (SMap.at upDev.queues 0 {}).recs.length < 256) := by decide +kernel

theorem test_witness_CountersCleared :
    ∀ x ∈ [(pgMatrix 5, 0x0F4), (pgVector 5, 0x140), (pgSeq 5, 0x0B4), (pgCompress 256, 0x100), (pgWatch, 0x094), (pgExchCfg, 0x0A0),
      (pgLinkErr 9, 0x08C), (pgHostMac 5, 0x0A0), (pgHostSec 5, 0x09C), (pgXport 5, 0x0B8)], up.accepts pm x.1 x.2 true := by decide +kernel

/-! ## Shadow sets and groups -/

theorem test_witness_ShadowSets :
    (let pg := pageNum 1 5 3
     up.accepts pm pg 0x030 true ∧ capShadow pg = false) ∧
    (let pg := pageNum 8 0 0
     let a := upDev.hw Hdr.STAT_STATUS pg 1
     let g := upDev.hw Hdr.STAT_STATUS pg 5
     let d := upDev.shadowSet Reg.BEAT_CFG_PERIOD pg 0 0
     let w := upDev.shadowSet Reg.BEAT_CFG_T_S pg 0 2501
     capShadow pg = true ∧ (st a).accepts pm pg 0x030 true ∧ (st g).accepts pm pg 0x030 true ∧ a.hd Hdr.STAT_STATUS pg = 1 ∧
     g.hd Hdr.STAT_STATUS pg = 5 ∧ upDev.hd Hdr.STAT_STATUS pg ≠ 1 ∧ upDev.hd Hdr.STAT_STATUS pg ≠ 5 ∧
     upDev.armCheck [] pg none = none ∧ d.armCheck [] pg none = some (1, 0x20) ∧
     5 ≤ (upDev.setBs pg 6).bs pg ∧ upDev.bs pg < 5 ∧ d.sh Reg.BEAT_CFG_PERIOD 0 < d.g Reg.SIZE_TABLE_ST_BEAT_MIN ∧
     w.g Reg.SIZE_TABLE_ST_BEAT_MIN ≤ w.sh Reg.BEAT_CFG_PERIOD 0 ∧ w.sh Reg.BEAT_CFG_PERIOD 0 ≤ w.g Reg.SIZE_TABLE_ST_BEAT_MAX ∧
     w.sh Reg.BEAT_CFG_LATE_LIMIT 0 ≠ 0 ∧ w.sh Reg.BEAT_CFG_VOTE_LIMIT 0 ≠ 0 ∧ w.sh Reg.BEAT_CFG_LATE_SHARE 0 ≤ 90 ∧
     w.sh Reg.BEAT_CFG_FIT_MARGIN 0 ≤ 20 ∧ 100 * w.sh Reg.BEAT_CFG_PERIOD 0 < w.sh Reg.BEAT_CFG_T_S 0) ∧
    (let pg := pageNum 8 0 0
     let far : Dev := ticking.hw Hdr.STAT_STATUS pg 1
     let near : Dev := (ticking.hw Hdr.STAT_STATUS pg 1).p Reg.BEAT_CFG_PHASE 2480
     let near := { near with now := 2480 }
     far.timerOn = true ∧ far.now + 20 < far.boundaryAfter (far.info pg).armedAt 20 ∧ near.hd Hdr.STAT_STATUS pg = 1 ∧
     near.boundaryAfter (near.info pg).armedAt 20 ≤ near.now + 20) ∧
    (let pg := pageNum 8 0 2
     let d : Dev := { ticking.hw Hdr.STAT_STATUS pg 1 with boundary := 19 }
     let e := { d with boundary := 20 }
     let o := e.p Reg.STEP_REC_STATE_PHASE 1
     d.hd Hdr.STAT_STATUS pg = 1 ∧ d.bs pg < 5 ∧ d.boundaryDue (d.info pg).armedAt 20 = false ∧ e.boundaryDue (e.info pg).armedAt 20 = true ∧
     e.stepOpen = false ∧ o.stepOpen = true) := by decide +kernel

theorem test_witness_CommitGroups :
    (let a := upDev.p Reg.COMMIT_CG_STAT_STATUS 1 2
     let one := (upDev.p Reg.COMMIT_CG_SIZE_COUNT 1 2).p Reg.COMMIT_CG_MEM_PAGE (pageNum 8 0 0) 64
     let dup := (one.p Reg.COMMIT_CG_SIZE_COUNT 2 2).p Reg.COMMIT_CG_MEM_PAGE (pageNum 8 0 0) 65
     let far : Dev := ticking.p Reg.COMMIT_CG_STAT_STATUS 1 2
     let near : Dev := { far.p Reg.BEAT_CFG_PHASE 2400 with now := 2400 }
     let due : Dev := { far with boundary := 200 }
     let bad := (due.p Reg.COMMIT_CG_SIZE_COUNT 1 2).p Reg.COMMIT_CG_MEM_PAGE (pageNum 8 0 2) 64 |>.p Reg.STEP_REC_STATE_PHASE 1
     up.accepts pm pgCommit 0x080 true ∧ (st a).accepts pm pgCommit 0x080 true ∧ a.g Reg.COMMIT_CG_STAT_STATUS 2 = 1 ∧
     upDev.g Reg.COMMIT_CG_STAT_STATUS 2 ≠ 1 ∧ dup.memberFault (dup.members 2) = some (1, 1) ∧ (st dup).accepts pm pgCommit 0x080 true ∧
     one.memberFault (one.members 2) = none ∧ one.members 2 = [(0, pageNum 8 0 0)] ∧ one.armCheck [] (pageNum 8 0 0) none = none ∧
     one.armCheck [] (pageNum 8 0 0) (some 5) = some (9, 5) ∧
     near.timerOn = true ∧ near.boundaryAfter (near.groupTime 2) 200 < near.now + 200 ∧ far.now + 200 ≤ far.boundaryAfter (far.groupTime 2) 200 ∧
     far.boundaryDue (far.groupTime 2) 200 = false ∧ due.boundaryDue (due.groupTime 2) 200 = true ∧
     (∀ x ∈ due.members 2, due.commitCheck [] x.2 = none) ∧ bad.boundaryDue (bad.groupTime 2) 200 = true ∧
     (∃ x ∈ bad.members 2, bad.commitCheck [] x.2 ≠ none)) := by decide +kernel

/-! ## Units -/

/-- Unit 5's sequencer issues, at bundle 0 of an image of eight bundles. -/
def issuingDev : Dev := ((ticking.wr Reg.SEQ_STATE_SEQ 5 2).setBs (pgSeq 5) Bs.run).wr Reg.SEQ_IMG_HI 5 7
def withUnit (x : UnitSt) : Dev := issuingDev.setUnit 5 x
def vslot : VSlot := ⟨1, 2, false, 0, false, true, 0, false, 0, false, 0, 3, 4, 0, 0⟩
def dslot : DSlot := ⟨1, 2, 3, 0, false, 0, -1, true, 4⟩
def cslot : CSlot := ⟨1, 2, 3, 0, 0⟩

/-- An operation that names no destination twice runs alone in its bundle. -/
theorem slot_runs (o : SlotOp) (h : o.dsts.Nodup ∧ 32 ∉ o.dsts) : SlotRuns (st issuingDev) 5 o := ⟨by decide +kernel, by decide +kernel, h⟩

/-- A vector operation, with the form it takes here, that issues. -/
def goes (x : Nat × VSlot) : Bool := vOk x.1 x.2 && ! x.2.cqa && decide ((vOp 5 x.1 x.2).dsts.Nodup ∧ 32 ∉ (vOp 5 x.1 x.2).dsts)
theorem v_runs (x : Nat × VSlot) (h : goes x = true) : VectorRuns (st issuingDev) 5 x.1 x.2 := by
  simp only [goes, Bool.and_eq_true, Bool.not_eq_true', decide_eq_true_eq] at h
  exact ⟨slot_runs _ h.2, h.1.1, fun hc => by simp [h.1.2] at hc⟩

def ctlSlot (imm : BitVec 32) : VSlot := { vslot with imf := true, imk := 3, imm := imm }
/-- Every operation of the V slot in one form or more: registers, masks, immediates, the F16 view, STRICT, KS and SR. -/
def forms : List (Nat × VSlot) :=
  [1, 2, 3, 4, 5, 6, 8, 9, 0x0A, 0x0B, 0x0C, 0x0E, 0x0F, 0x10, 0x11, 0x12, 0x13, 0x14, 0x15, 0x18, 0x19, 0x1A, 0x1B, 0x1C, 0x1D, 0x20, 0x21, 0x22,
    0x23, 0x24, 0x25, 0x26, 0x2A, 0x2B, 0x30, 0x31, 0x32, 0x33, 0x34, 0x35, 0x36, 0x37, 0x38, 0x39, 0x3A, 0x40, 0x41, 0x42, 0x43, 0x44, 0x45,
    0x46, 0x4A, 0x4B, 0x4C, 0x58, 0x59, 0x5A, 0x5B, 0x5C, 0x5E, 0x5F, 0x60].map (·, vslot) ++
  [0x28, 0x29].map (·, { vslot with view := 3 }) ++ [0x2C, 0x2D].map (·, { vslot with opx := 0x14 }) ++ [(0x2C, { vslot with opx := 0x14, vb := 1 })] ++
  [0x0D, 0x48, 0x49, 0x50, 0x51, 0x52, 0x53, 0x5D, 0x61].map (·, ctlSlot 8) ++ [(0x61, ctlSlot 7)] ++
  [1, 2, 3, 4, 5, 6].map (·, { vslot with attr := 1 }) ++ [1, 2].map (·, { vslot with attr := 2 }) ++ [1, 2, 4].map (·, { vslot with attr := 3 })

theorem forms_go : forms.all goes = true := by decide +kernel

/-- Every operation of the V slot has operands with which it runs (VectorIntegers, VectorMoves, VectorFloats, VectorFunctions, Conversions,
VectorReductions, PopsAndForms). -/
theorem test_witness_VectorOperations : ∀ x ∈ forms, VectorRuns (st issuingDev) 5 x.1 x.2 :=
  fun x h => v_runs x (List.all_eq_true.mp forms_go x h)

theorem test_witness_VectorReductions : vslot.attr.toNat = 0 ∧ vslot.view.toNat = 0 ∧ (ctlSlot 8).imm.toNat = 8 := by decide

theorem test_witness_FloatCases : 0 < (⟨1, 7⟩ : Dy).m ∧ (⟨1, 7⟩ : Dy).geRat 128 1 = true ∧ (⟨91, 0⟩ : Dy).geRat 91 10 = true ∧
    (⟨1, 2⟩ : Dy).geRat 4 1 = true ∧ Dy.lt ⟨1, 16⟩ ⟨1, 17⟩ = true ∧ (⟨1, 0⟩ : Dy).m ≠ 0 ∧ 0 ≤ (⟨0, 0⟩ : Dy).m ∧ vslot.attr.toNat = 0 ∧
    vslot.view.toNat = 0 := by decide

theorem test_witness_VectorWrites : (255 : Nat) < 2048 / 8 ∧ (127 : Nat) < 2048 / 16 ∧ (63 : Nat) < 2048 / 32 ∧ vslot.attr.toNat ≠ 3 ∧
    ({ vslot with attr := 3 } : VSlot).attr.toNat = 3 ∧ [RegWr.v 1 0] = [.v 1 0] ∧ [RegWr.m 2 0] = [.m 2 0] ∧ (2 : Nat) ≠ 0 ∧
    (∀ v, RegWr.v 0 v ∉ [RegWr.v 1 0]) ∧ (∀ v, RegWr.m 1 v ∉ [RegWr.v 1 0]) ∧ (∀ v, RegWr.s 1 v ∉ [RegWr.v 1 0]) := by simp [vslot]

/-- Slots with nothing to write, the end of a bundle (past no loop, at the end of the image, at the last bundle of a loop with and without iterations
left), and a bundle that waits or stores after a copy. -/
theorem test_witness_NopsAndBundleEnd : (∀ o ∈ [mOp [] 5 0 (mSlotOf 0) .ok, vOp 5 0 (vSlotOf 0), dOp [] 5 0 (dSlotOf 0) .ok 0, cOp 5 0 (cSlotOf 0)],
      SlotRuns (st issuingDev) 5 o) ∧
    upDev.issuing 5 [2] = false ∧ (upDev.unit 5).bundle = [] ∧ (issuingDev.unit 5).ending = false ∧ (issuingDev.unit 5).loops = [] ∧
    issuingDev.rd Reg.SEQ_STATE_PC 5 ≠ issuingDev.rd Reg.SEQ_IMG_HI 5 ∧
    (issuingDev.wr Reg.SEQ_STATE_PC 5 7).rd Reg.SEQ_STATE_PC 5 = issuingDev.rd Reg.SEQ_IMG_HI 5 ∧
    (let d := withUnit { loops := [⟨0, 0, 1, 0⟩] }; d.issuing 5 [2] = true ∧ (d.unit 5).loops = [⟨0, 0, 1, 0⟩]) ∧
    (let d := withUnit { loops := [⟨0, 0, 0, 1⟩] }; d.issuing 5 [2] = true ∧ (d.unit 5).loops = [⟨0, 0, 0, 1⟩]) ∧
    (let f : VSlot := { vslot with mreg := 0, inv := false }
     let d := withUnit { bundle := [.v 0x0F f] }
     let w := d.setInfo (pgSeq 5) { issued := [(4, 0)] }
     let g : DSlot := { dslot with reg := f.vd, view := 0, mreg := 0, inv := false, pinc := false }
     d.issuing 5 [2] = true ∧ vOk 0x0F f = true ∧ f.cqa = false ∧ f.attr.toNat = 0 ∧ (d.unit 5).bundle = [.v 0x0F f] ∧ f.view.toNat = 0 ∧
     f.mreg.toNat = 0 ∧ f.inv = false ∧ w.issuing 5 [2] = true ∧ (w.unit 5).bundle = [.v 0x0F f] ∧
     (∃ k ∈ (w.info (pgSeq 5)).issued, k.1 = g.tag.toNat) ∧ d.storeWaits 5 = false ∧ g.pinc = false ∧ g.reg = f.vd ∧ g.view.toNat = 0 ∧
     g.mreg.toNat = 0 ∧ g.inv = false) :=
  ⟨by intro o h; refine slot_runs o ?_; revert o; decide +kernel, by decide +kernel, by decide +kernel, by decide +kernel, by decide +kernel,
    by decide +kernel, by decide +kernel, by decide +kernel, by decide +kernel, by decide +kernel⟩

theorem test_witness_PopsAndForms : SlotRuns (st issuingDev) 5 (vOp 5 0x68 vslot) ∧ vOk 0x68 vslot = true ∧ (issuingDev.unit 5).pops < 2 ∧
    (issuingDev.unit 5).pops = 0 ∧
    (let x : UnitSt := { pops := 2 }
     2 ≤ x.pops ∧ x.inState 3 = [] ∧ x.inState 2 = [] ∧ SlotRuns (st (withUnit x)) 5 (vOp 5 0x68 vslot)) ∧
    (let f : VSlot := { vslot with cqa := true }
     let d := withUnit { cq := [(0, { st := 4 })] }
     upDev.issuing 5 [2] = false ∧ (upDev.unit 5).bundle = [] ∧ SlotRuns (st issuingDev) 5 (vOp 5 0x30 { vslot with view := 6 }) ∧
     vOk 0x30 { vslot with view := 6 } = false ∧ SlotRuns (st issuingDev) 5 (vOp 5 0x30 f) ∧ vOk 0x30 f = true ∧ f.cqa = true ∧
     issuingDev.currentEntry 5 = none ∧ (issuingDev.unit 5).inState 4 = [] ∧ SlotRuns (st d) 5 (vOp 5 0x30 f) ∧ d.currentEntry 5 = none ∧
     (d.unit 5).inState 4 ≠ []) ∧
    ({ vslot with view := 6 } : VSlot).view.toNat = 6 ∧ vslot.cqa = false ∧ ({ vslot with rel := true } : VSlot).rel = true ∧ takesB 0x0D = false ∧
    writesMask 0x10 = true ∧ ({ vslot with vd := 0 } : VSlot).vd.toNat = 0 :=
  ⟨slot_runs _ (by decide +kernel), by decide +kernel, by decide +kernel, by decide +kernel,
    ⟨by decide, by decide +kernel, by decide +kernel, by decide +kernel, by decide +kernel, by decide +kernel⟩,
    ⟨by decide +kernel, by decide +kernel, slot_runs _ (by decide +kernel), by decide +kernel, slot_runs _ (by decide +kernel), by decide +kernel, rfl,
      by decide +kernel, by decide +kernel, ⟨by decide +kernel, by decide +kernel, by decide +kernel⟩, by decide +kernel, by decide +kernel⟩,
    by decide +kernel, rfl, rfl, by decide +kernel, by decide +kernel, by decide +kernel⟩

theorem test_witness_ScalarOps : (∀ opc ∈ [1, 2, 3, 4, 5, 6, 7, 8], SlotRuns (st issuingDev) 5 (cOp 5 opc cslot)) ∧
    (let d := withUnit { loops := [⟨0, 3, 1, 9⟩] }
     (d.unit 5).loops[cslot.cx.toNat % 4]? = some ⟨0, 3, 1, 9⟩ ∧ SlotRuns (st d) 5 (cOp 5 8 cslot)) ∧
    (issuingDev.unit 5).loops[cslot.cx.toNat % 4]? = none :=
  ⟨by intro o h; refine slot_runs _ ?_; revert o; decide +kernel,
    ⟨by decide +kernel, by decide +kernel, by decide +kernel, by decide +kernel⟩, by decide +kernel⟩

/-- Loads and stores: whole and partial, with each answer of the store, reserved, to m0, and with a LSTORE that takes no work. -/
theorem test_witness_LocalMoves : (∀ e ∈ [Ecc.ok, .corrected, .uncorrectable], ∀ opc ∈ [1, 2, 3, 4], SlotRuns (st issuingDev) 5 (dOp [] 5 opc dslot e 0)) ∧
    issuingDev.storeWaits 5 = false ∧ dslot.view.toNat ≤ 5 ∧
    (let f : DSlot := { dslot with view := 6 }; 5 < f.view.toNat ∧ SlotRuns (st issuingDev) 5 (dOp [] 5 2 f .ok 0)) ∧
    (∀ i, i < 256 → vElem 8 (0 : VReg) i = (Mem.read [] (5 * 2 ^ 19 + (192 + i) % 2 ^ 19)).toNat) ∧
    (∀ i, i < 32 → (0 : MReg).toNat / 2 ^ (8 * i) % 256 = (Mem.read [] (5 * 2 ^ 19 + (192 + i) % 2 ^ 19)).toNat) ∧
    issuingDev.issuing 5 [2] = true ∧ (issuingDev.unit 5).bundle = [] ∧ ({ dslot with reg := 8 } : DSlot).reg.toNat % 8 = 0 ∧
    (let d := withUnit { issuingDev.unit 5 with mregs := [(1, 1)] }
     (d.mask 5 1).getLsbD 0 = true ∧ (d.mask 5 1).getLsbD 1 = false ∧ d.issuing 5 [2] = true ∧
     partWord (fun b => (d.mask 5 1).getLsbD b != false) 0 = true) ∧
    (let d := issuingDev.setBs (pgLstore 5) Bs.quiesced
     d.storeWaits 5 = true ∧ ∀ opc ∈ [1, 2, 3, 4], SlotRuns (st d) 5 (dOp [] 5 opc dslot .ok 0)) :=
  ⟨by intro e he opc h; refine slot_runs _ ?_; revert e opc; decide +kernel, by decide +kernel, by decide,
    ⟨by decide, slot_runs _ (by decide +kernel)⟩, by decide +kernel, by decide +kernel, by decide +kernel, by decide +kernel, by decide,
    by decide +kernel, ⟨by decide +kernel, by
      intro opc h
      refine ⟨by decide +kernel, by decide +kernel, ?_⟩
      revert opc; decide +kernel⟩⟩

theorem test_witness_ControlAndKicks : (∀ opc ∈ [0x10, 0x1A, 0x1B], SlotRuns (st issuingDev) 5 (cOp 5 opc cslot)) ∧
    SlotRuns (st issuingDev) 5 (cOp 5 0x1F (cSlotOf 0)) ∧ issuingDev.loopOk 5 0 1 = true ∧ issuingDev.loopOk 5 0 8 = false ∧
    (∀ opc ∈ [5, 6], SlotRuns (st issuingDev) 5 (dOp [] 5 opc dslot .ok 0)) ∧
    issuingDev.stateCode (pgCmove 0) = none ∧ (issuingDev.eng false 0).queue.length < 16 ∧
    (let b : MBlock := { addr := 64, kicker := some 6, tag := 2, home := 0, atRegion := false }
     let d := issuingDev.setEng false 0 { queue := List.replicate 16 b }
     SlotRuns (st d) 5 (dOp [] 5 5 dslot .ok 0) ∧ d.stateCode (pgCmove 0) = none ∧ 16 ≤ (d.eng false 0).queue.length) ∧
    (let d := issuingDev.setBs (pgCmove 0) Bs.quiesced; SlotRuns (st d) 5 (dOp [] 5 5 dslot .ok 0) ∧ d.stateCode (pgCmove 0) = some Cc.quiesced) ∧
    (let d := issuingDev.setInfo (pgSeq 5) { issued := [(4, 0)] }
     SlotRuns (st d) 5 (dOp [] 5 6 dslot .ok 0) ∧ ∃ k ∈ (d.info (pgSeq 5)).issued, k.1 = dslot.tag.toNat) ∧
    (∀ k ∈ (issuingDev.info (pgSeq 5)).issued, k.1 ≠ dslot.tag.toNat) :=
  ⟨by intro o h; refine slot_runs _ ?_; revert o; decide +kernel, slot_runs _ (by decide +kernel), by decide +kernel, by decide +kernel,
    by intro o h; refine slot_runs _ ?_; revert o; decide +kernel, by decide +kernel, by decide +kernel,
    ⟨⟨by decide +kernel, by decide +kernel, by decide +kernel⟩, by decide +kernel, by decide +kernel⟩,
    ⟨⟨by decide +kernel, by decide +kernel, by decide +kernel⟩, by decide +kernel⟩,
    ⟨⟨by decide +kernel, by decide +kernel, by decide +kernel⟩, by decide +kernel⟩, by decide +kernel⟩

theorem test_witness_BeatsAndBarriers :
    (let slack : CSlot := { cslot with cx := 2 }
     let bad : CSlot := { cslot with cx := 3 }
     let late := issuingDev.p Reg.BEAT_CFG_PHASE 3
     issuingDev.issuing 5 [2, 3] = true ∧ (issuingDev.unit 5).bundle = [] ∧ bad.cx.toNat % 4 = 3 ∧ slack.cx.toNat % 4 ≠ 3 ∧ cslot.cx.toNat % 4 ≠ 3 ∧
     issuingDev.windowAge 0 2 = none ∧ issuingDev.windowAge 0 0 = some 0 ∧ late.windowAge 0 0 = some 3 ∧ late.seqState 5 ≠ 3 ∧
     (issuingDev.wr Reg.SEQ_STATE_SEQ 5 3).seqState 5 = 3 ∧ (issuingDev.wr Reg.SEQ_STATE_SEQ 5 3).issuing 5 [2, 3] = true) ∧
    (let bar := fun (b : BarSt) (m : Nat) (arrived : List Nat) => b.mask = m ∧ (List.range 17).all (fun i => ! bit m i || arrived.contains i) = true
     let d := issuingDev.setCluster 0 { bars := [(3, ⟨0x21, [0], 0, 9⟩)] }
     issuingDev.issuing 5 [2, 4] = true ∧ (issuingDev.unit 5).barDone = false ∧ (issuingDev.unit 5).barWait = none ∧
     SMap.find (issuingDev.cluster 0).bars 0 = none ∧ bit 0x21 5 = true ∧ bit 0x01 5 = false ∧
     ((List.range 17).all fun i => ! bit 0x21 i || [5].contains (0 + i)) = false ∧ bar ⟨0x21, [0], 0, 9⟩ 0x21 [0, 5] ∧
     (∃ b, SMap.find (d.cluster 0).bars 3 = some b ∧ b.mask ≠ 0x20) ∧
     (withUnit { barDone := true }).issuing 5 [2, 4] = true ∧ ((withUnit { barDone := true }).unit 5).barDone = true ∧
     (let w := withUnit { barWait := some 3 }; w.issuing 5 [2, 4] = true ∧ (w.unit 5).barDone = false ∧ (w.unit 5).barWait ≠ none) ∧
     SMap.find (d.cluster 0).bars 3 = some ⟨0x21, [0], 0, 9⟩) :=
  ⟨by decide +kernel, by decide +kernel, by decide +kernel, by decide +kernel, by decide +kernel, by decide +kernel, by decide +kernel,
    by decide +kernel, by decide +kernel, ⟨⟨0x21, [0], 0, 9⟩, by decide +kernel, by decide⟩, by decide +kernel, by decide +kernel, by decide +kernel,
    by decide +kernel⟩

theorem test_witness_ProgramStarts :
    (let nop := istoreSlot [] 5 0
     let bad : Mem := [(isBase 5, 0xFF)]
     let loop : Mem := [(isBase 5 + 24, 8)]
     upDev.issuing 5 [2] = false ∧ issuingDev.issuing 5 [2] = true ∧ bundleOk nop = true ∧ issuingDev.start.loopRule 5 (bits nop 192 64) = true ∧
     bundleOk (istoreSlot bad 5 0) = false ∧ bundleOk (istoreSlot loop 5 0) = true ∧ issuingDev.start.loopRule 5 (bits (istoreSlot loop 5 0) 192 64) = false ∧ Ecc.ok ≠ .uncorrectable ∧
     Ecc.corrected ≠ .uncorrectable) ∧
    (3 < 8 ∧ upDev.seqState 5 ≠ 6 ∧ (upDev.wr Reg.SEQ_STATE_SEQ 5 6).seqState 5 = 6) ∧
    (let q := upDev.setBs (pgSeq 5) Bs.quiesced
     let w : Dev := { (ticking.wr Reg.SEQ_STATE_SEQ 5 1).setBs (pgSeq 5) Bs.idle with boundary := 1 }
     up.accepts pm (pgSeq 5) 0x08C true ∧ upDev.refusesWork (pgSeq 5) = false ∧ upDev.seqState 5 = 0 ∧ 2 ≤ issuingDev.seqState 5 ∧
     issuingDev.seqState 5 ≠ 5 ∧ (st issuingDev).accepts pm (pgSeq 5) 0x08C true ∧ issuingDev.refusesWork (pgSeq 5) = false ∧
     (st q).accepts pm (pgSeq 5) 0x08C true ∧ q.refusesWork (pgSeq 5) = true ∧ (st w).accepts pm (pgSeq 5) 0x08C true ∧
     w.refusesWork (pgSeq 5) = false ∧
     unitOk 5 = true ∧ w.seqState 5 = 1 ∧ w.beatSeen = true ∧ (w.unit 5).startAt < w.boundary ∧ w.bs (pgSeq 5) = Bs.idle) := by decide +kernel

theorem test_witness_InstructionFill :
    (let n := upDev.wr Reg.ISTORE_FILL_SLOTS 5 2
     let far := n.wr Reg.ISTORE_FILL_DST 5 2047
     let used := issuingDev.wr Reg.ISTORE_FILL_SLOTS 5 2
     let f := upDev.setUnit 5 { fill := some (0, 4, 1, 0) }
     let good := upDev.setUnit 5 { fill := some (0, 4, 1, crc32 (List.replicate 32 0)) }
     let busy := upDev.wr Reg.ISTORE_FILL_STAT_STATE 5 1
     up.accepts pm (pgIstore 5) 0x08C true ∧ upDev.refusesWork (pgIstore 5) = false ∧ upDev.rd Reg.ISTORE_FILL_STAT_STATE 5 ≠ 1 ∧
     (st busy).accepts pm (pgIstore 5) 0x08C true ∧ busy.refusesWork (pgIstore 5) = false ∧ busy.rd Reg.ISTORE_FILL_STAT_STATE 5 = 1 ∧
     upDev.rd Reg.ISTORE_FILL_SLOTS 5 = 0 ∧ 2048 < far.rd Reg.ISTORE_FILL_DST 5 + far.rd Reg.ISTORE_FILL_SLOTS 5 ∧
     n.rd Reg.ISTORE_FILL_SLOTS 5 ≠ 0 ∧ n.rd Reg.ISTORE_FILL_DST 5 + n.rd Reg.ISTORE_FILL_SLOTS 5 ≤ 2048 ∧
     64 * n.rd Reg.ISTORE_FILL_SRC 5 + 32 * n.rd Reg.ISTORE_FILL_SLOTS 5 ≤ 2 ^ 24 ∧ n.seqState 5 = 0 ∧
     (st used).accepts pm (pgIstore 5) 0x08C true ∧ used.refusesWork (pgIstore 5) = false ∧
     used.seqState 5 ≠ 0 ∧ used.seqState 5 ≠ 5 ∧ used.rd Reg.ISTORE_FILL_DST 5 ≤ used.rd Reg.SEQ_IMG_HI 5 ∧
     used.rd Reg.SEQ_IMG_LO 5 < used.rd Reg.ISTORE_FILL_DST 5 + used.rd Reg.ISTORE_FILL_SLOTS 5 ∧
     (f.unit 5).fill = some (0, 4, 1, 0) ∧ crc32 (Mem.bytes [] (larderBase 0 + 64 * 0) (32 * 1)) ≠ 0 ∧
     (good.unit 5).fill = some (0, 4, 1, crc32 (Mem.bytes [] (larderBase 0 + 64 * 0) (32 * 1))) ∧ (upDev.unit 5).fill = none) := by decide +kernel

/-! ## Passes, tiles, checks -/

def pass : PassReq := ⟨3, 0, false, false, 0, 0⟩
def gangDev : Dev := ((issuingDev.wr Reg.GANG_SHAPE_EN 0 1).wr Reg.GANG_SHAPE_ROWS 0 1).wr Reg.GANG_SHAPE_COLS 0 1 |>.wr Reg.GANG_ORIGIN_COL 0 2

theorem test_witness_MatrixSlots :
    (let f : MSlot := ⟨false, false, true, false, 3⟩
     let q := issuingDev.setUnit 5 { passQ0 := [pass, pass] }
     let one := issuingDev.setUnit 5 { passQ0 := [pass] }
     let h := issuingDev.setBs (pgMatrix 5) Bs.quiescing
     (∀ o ∈ [mOp [] 5 1 f .ok, mOp [] 5 1 f .corrected, mOp [] 5 1 f .uncorrectable, mOp [] 5 2 f .ok],
       SlotRuns (st issuingDev) 5 o ∧ SlotRuns (st q) 5 o ∧ SlotRuns (st one) 5 o ∧ SlotRuns (st h) 5 o ∧ SlotRuns (st gangDev) 5 o) ∧
     issuingDev.matrixWaits 5 = false ∧ issuingDev.isOrigin 5 0 = true ∧ q.matrixWaits 5 = false ∧ q.isOrigin 5 0 = true ∧
     one.matrixWaits 5 = false ∧ one.isOrigin 5 0 = true ∧ gangDev.matrixWaits 5 = false ∧ gangDev.isOrigin 5 0 = false ∧
     issuingDev.rd Reg.SEQ_IMG_LO 5 ≤ 3 ∧ 3 ≤ issuingDev.rd Reg.SEQ_IMG_HI 5 ∧ issuingDev.rd Reg.SEQ_IMG_HI 5 < 8 ∧ Sd.ok (segDesc [] 5 3) = true ∧
     issuingDev.rd Reg.SEQ_PROG_SEG_BASE 5 = 0 ∧
     ((issuingDev.unit 5).passQ 0).length < 2 ∧ f.isOpen = true ∧ (issuingDev.unit 5).openSeg 0 0 = none ∧ ((one.unit 5).passQ 0).length < 2 ∧
     2 ≤ ((q.unit 5).passQ 0).length ∧ (issuingDev.unit 5).passQ 0 = [] ∧
     (one.unit 5).openSeg 0 0 = some 3 ∧ ((issuingDev.unit 5).seg 0 0).st = 0 ∧ ((issuingDev.unit 5).seg 0 1).st = 0 ∧ (q.unit 5).passQ 0 ≠ [] ∧
     h.matrixWaits 5 = true) := by
  refine ⟨?_, by decide +kernel⟩
  intro o h
  have hd : o.dsts.Nodup ∧ 32 ∉ o.dsts := by revert o; decide +kernel
  exact ⟨slot_runs o hd, ⟨by decide +kernel, by decide +kernel, hd⟩, ⟨by decide +kernel, by decide +kernel, hd⟩, ⟨by decide +kernel, by decide +kernel, hd⟩,
    ⟨by decide +kernel, by decide +kernel, hd⟩⟩

theorem test_witness_PassesAndDrains :
    (let q := { pass with isOpen := true } :: [pass]
     let x : UnitSt := { passQ0 := [pass, pass] }
     let d := withUnit x
     let h := withUnit { x with held := true }
     let dr := withUnit (x.setAcc 0 0 { draining := true })
     let o := withUnit { passQ0 := q }
     let c := withUnit (({ passQ0 := q } : UnitSt).setSeg 0 0 { st := 2 })
     let s := withUnit (x.setSeg 0 0 { st := 1 })
     let g : Gang := ⟨1, 2, 1, 1⟩
     (issuingDev.unit 5).passQ 0 = [] ∧ (d.unit 5).passQ 0 = pass :: [pass] ∧ d.gangOf 5 0 = some g ∧ (h.unit 5).held = true ∧
     h.gangOf 5 0 = some g ∧ (d.unit 5).held = false ∧ d.gangHeld 5 0 = false ∧ dr.gangOf 5 0 = some g ∧ (dr.unit 5).passQ 0 = pass :: [pass] ∧
     ((dr.bottoms 0 g).any fun b => ((dr.unit b.1).acc b.2 0).draining) = true ∧ (dr.unit 5).held = false ∧ dr.gangHeld 5 0 = false ∧
     ((d.bottoms 0 g).any fun b => ((d.unit b.1).acc b.2 0).draining) = false ∧ pass.isOpen = false ∧ ((d.unit 5).seg 0 0).st ≠ 1 ∧
     (c.unit 5).passQ 0 = q ∧ ((c.unit 5).seg 0 0).st = 2 ∧ c.gangOf 5 0 = some g ∧ (c.unit 5).held = false ∧ c.gangHeld 5 0 = false ∧
     (o.unit 5).passQ 0 = q ∧ ((o.unit 5).seg 0 0).st = 0 ∧ ((o.unit 5).seg 0 0).closing = false ∧ o.gangOf 5 0 = some g ∧
     ((o.bottoms 0 g).any fun b => ((o.unit b.1).acc b.2 0).draining) = false ∧ (o.unit 5).held = false ∧ o.gangHeld 5 0 = false ∧
     (s.unit 5).passQ 0 = pass :: [pass] ∧ ((s.unit 5).seg 0 0).st = 1 ∧ s.gangHeld 5 0 = false ∧ (s.unit 5).held = false ∧
     s.gangOf 5 0 = some g ∧ ((s.bottoms 0 g).any fun b => ((s.unit b.1).acc b.2 0).draining) = false ∧ g.gc = 1) ∧
    (let c : AccSet := { draining := true, rows := 33 }
     let x : UnitSt := (({} : UnitSt).setAcc 0 0 c)
     let full : UnitSt := (List.range 8).foldl (fun x e => x.setEntry e { st := 2 }) x
     let other : UnitSt := x.setEntry 2 { st := 1, set := 1 }
     let mine : UnitSt := x.setEntry 2 { st := 1 }
     let last : UnitSt := (({} : UnitSt).setAcc 0 0 { c with nextTile := 1 }).setEntry 2 { st := 1 }
     let own := fun (x : UnitSt) => (x.inState 1).find? fun e => (x.entry e).arr == 0 && (x.entry e).set == 0
     let any := fun (x : UnitSt) => (x.inState 1).any fun e => (x.entry e).arr == 0
     ((issuingDev.unit 5).acc 0 0).draining = false ∧ (x.acc 0 0).draining = true ∧ own x = none ∧ any x = false ∧
     x.inState 0 = 0 :: [1, 2, 3, 4, 5, 6, 7] ∧ own full = none ∧ any full = false ∧ full.inState 0 = [] ∧ (full.acc 0 0).draining = true ∧
     own other = none ∧ any other = true ∧ (other.acc 0 0).draining = true ∧ own mine = some 2 ∧ (mine.acc 0 0).draining = true ∧
     ¬ (c.rows + 31) / 32 ≤ c.nextTile + 1 ∧ own last = some 2 ∧ (last.acc 0 0).draining = true ∧
     ((last.acc 0 0).rows + 31) / 32 ≤ (last.acc 0 0).nextTile + 1) := by decide +kernel

theorem test_witness_TileAndArrayTests :
    (let w : UnitSt := { ({} : UnitSt).setEntry 2 { st := 2 } with pops := 1 }
     let k : UnitSt := { ({} : UnitSt).setEntry 2 { st := 3, leader := 5 } with pops := 1 }
     let v : UnitSt := { ({} : UnitSt).setEntry 2 { st := 3, recomp := true } with pops := 1 }
     let bad : UnitSt := { ({} : UnitSt).setEntry 2 { st := 3, eccBad := true } with pops := 1 }
     let next := fun (x : UnitSt) => (x.inState 3).find? fun e => ! (x.entry e).verified
     let m := (withUnit { k with mmWait := true }).setCluster 0 { mmQueue := [5] }
     let g := (gangDev.setUnit 5 { ({} : UnitSt).setEntry 2 { st := 3, leader := 16 } with mmWait := true }).setCluster 0 { mmQueue := [5] }
     w.pops ≠ 0 ∧ w.inState 3 = [] ∧ w.oldestWhole = some 2 ∧ ({ pops := 1 } : UnitSt).oldestWhole = none ∧ ({} : UnitSt).pops = 0 ∧
     k.inState 3 ≠ [] ∧ next w = none ∧ next k = some 2 ∧ k.mmWait = false ∧ (k.entry 2).check = none ∧
     (k.entry 2).recomp = false ∧ k.inState 3 = [2] ∧ k.inState 4 = [] ∧ k.inState 5 = [] ∧ next v = some 2 ∧ v.mmWait = false ∧
     (v.entry 2).check = none ∧ (v.entry 2).recomp = true ∧ next bad = some 2 ∧ bad.mmWait = false ∧ (bad.entry 2).check = some (0, 0, 0) ∧
     ({ k with mmWait := true } : UnitSt).mmWait = true ∧
     bad.lastMm = none ∧ (bad.entry 2).recomp = false ∧ (withUnit { bad with lastMm := some 0 }).beatNum <
       0 + (withUnit { bad with lastMm := some 0 }).rd Reg.MATRIX_RETIRE_WINDOW 5 ∧
     k.recomputing = false ∧ ({} : UnitSt).inState 3 = [] ∧
     (m.unit 5).mmWait = true ∧ (m.unit 5).recomputing = false ∧ (m.unit 5).inState 3 = 2 :: [] ∧ ((m.unit 5).entry 2).leader = 5 ∧
     (m.gangQueue (clusterOf 5) 5 0).head? = some 5 ∧ (m.gangOf 5 0).isSome = true ∧ (g.unit 5).inState 3 = 2 :: [] ∧ g.gangOf 16 0 = none ∧
     (let r := withUnit { k with recomputing := true }; (r.unit 5).recomputing = true ∧ (r.unit 5).inState 3 = 2 :: []) ∧
     ((withUnit { k with held := true }).unit 5).held = true) ∧
    (let i := upDev.setBs (pgMatrix 5) Bs.idle
     let r := upDev.setBs (pgMatrix 5) Bs.run
     let q := upDev.setBs (pgMatrix 5) Bs.quiesced
     let t := upDev.wr Reg.MATRIX_TEST_STAT_RESULT 5 1
     up.accepts pm (pgMatrix 5) 0x0F8 true ∧ (st i).accepts pm (pgMatrix 5) 0x0F8 true ∧ (st r).accepts pm (pgMatrix 5) 0x0F8 true ∧
     (st q).accepts pm (pgMatrix 5) 0x0F8 true ∧ q.bs (pgMatrix 5) = Bs.quiesced ∧ Bs.run ≠ Bs.off ∧ Bs.run ≠ Bs.idle ∧ Bs.run ≠ Bs.quiesced ∧
     i.bs (pgMatrix 5) = Bs.idle ∧ upDev.bs (pgMatrix 5) = Bs.off ∧ r.bs (pgMatrix 5) = Bs.run ∧ t.rd Reg.MATRIX_TEST_STAT_RESULT 5 = 1 ∧
     upDev.rd Reg.MATRIX_TEST_STAT_RESULT 5 ≠ 1 ∧ (t.cluster (clusterOf 5)).suspects = []) := by decide +kernel

/-! ## Stores and movement -/

def slackDev : Dev := ticking.p Reg.BEAT_CFG_PHASE 2400

theorem test_witness_ScrubAndBlocks :
    (let h := (slackDev.wr Reg.HBM_CTL_STATE (hbmInst 3) 2).wr Reg.HBM_PART_SIZE (hbmInst 3) 1 0
     slackDev.rd Reg.LSTORE_SCRUB_EN 5 ≠ 0 ∧ slackDev.rd Reg.LARDER_SCRUB_EN 256 ≠ 0 ∧ slackDev.slackOpen = true ∧ upDev.slackOpen = false ∧
     (8191 : Nat) + 1 = 8192 ∧ (262143 : Nat) + 1 = 262144 ∧ slackDev.rd Reg.LARDER_SPARES_USED 256 < 64 ∧
     h.rd Reg.HBM_CTL_PATROL_EN (hbmInst 3) ≠ 0 ∧ h.rd Reg.HBM_CTL_STATE (hbmInst 3) = 2 ∧ h.slackOpen = true ∧
     (h.partitionOf 3 (32767 / 32768)).isSome = true) ∧
    (let listed := (upDev.wr Reg.HBM_ERR_BAD_COUNT (hbmInst 3) 1).wr Reg.HBM_ERR_BAD_BLOCK (hbmInst 3) 7 0
     let h := upDev.wr Reg.HBM_PART_SIZE (hbmInst 3) 1 0
     stackBlocks ≤ 2 ^ 27 - 1 ∧ (32767 : Nat) < stackBlocks ∧ blockPasses [] 3 0 [] = false ∧
     h.partitionOf 3 0 = some 0 ∧ upDev.partitionOf 3 0 ≠ some 0 ∧ upDev.partitionOf 3 0 ≠ some 1 ∧
     upDev.rd Reg.HBM_ERR_BAD_COUNT (hbmInst 3) = 0 ∧ listed.rd Reg.HBM_ERR_BAD_COUNT (hbmInst 3) = 1 ∧
     listed.rd Reg.HBM_ERR_BAD_BLOCK (hbmInst 3) 0 = 7) := by
  decide +kernel

theorem bytes_count (m : Mem) (n : Nat) : ∀ a, (m.bytes a n).length = n := by
  induction n with
  | zero => intro a; rfl
  | succ n ih => intro a; rw [Mem.bytes, List.length_cons, ih]

theorem test_witness_ScrubAndBlocks_passes (m : Mem) : blockPasses m 3 0 (m.bytes (hbmBase 3 + 512 * 0) 512) = true := by
  rw [blockPasses, sideCrc, bytes_count, beq_self_eq_true, beq_self_eq_true]; rfl

def block : MBlock := { addr := 0, kicker := none, tag := 2, home := 0, atRegion := false }

def descHead (n crc : Nat) : List Byte := natLe 4 0x4E584D44 ++ natLe 4 n ++ natLe 4 crc ++ List.replicate 52 0

/-- A store that holds, at address 0, a block of the descriptor `w`. -/
def blockOf (w : Nat) : Mem := Mem.writeAll [] 0 (descHead 1 (crc32 (descHead 1 0 ++ natLe 64 w)) ++ natLe 64 w)

def emptyPlan : Plan := { entries := [], parts := [], hash := [], timing := 0, fitOp := 0, planOp := 0, slicedUnits := 0, sliced := [] }

theorem test_witness_MoveBlocks :
    (let full : Dev := upDev.setEng false 0 { queue := List.replicate 16 block }
     let one : Dev := upDev.setEng false 0 { queue := [block] }
     let busy : Dev := one.setEng true 0 { queue := List.replicate 32 block }
     let fault : Dev := one.setBs (pgRmove 0) Bs.quiesced
     let away : Dev := one.setBs (pgCmove 0) Bs.quiesced
     let x : MRun := { block, descs := [0], next := 0, fault := none }
     let r : Dev := upDev.setEng true 0 { queue := [block], run := some x }
     let takes := fun (d : Dev) => [Bs.quiesced, Bs.resetting, Bs.fault, Bs.retired].contains (d.bs (pgEng false 0)) = false
     let step := (one.p Reg.STEP_REC_STATE_PHASE 1)
     let lands : Dev := { step with plan := { live := some { emptyPlan with lands := [⟨3, false, 0, 64⟩] } } }
     up.accepts pm (pgEng false 0) 0x084 true ∧ upDev.refusesWork (pgEng false 0) = false ∧ (upDev.eng false 0).queue.length < engCap false ∧
     (st full).accepts pm (pgEng false 0) 0x084 true ∧ full.refusesWork (pgEng false 0) = false ∧ engCap false ≤ (full.eng false 0).queue.length ∧
     r.stateCode (pgEng true 0) = none ∧ (r.eng true 0).run ≠ none ∧ (upDev.eng false 0).queue = [] ∧
     (one.eng false 0).run = none ∧ (one.eng false 0).queue = block :: [] ∧ cmoveServes (blockOf 0) 0 block = false ∧ takes one ∧
     ¬ takes away ∧ (away.eng false 0).run = none ∧ (away.eng false 0).queue = block :: [] ∧
     one.stateCode (pgRmove 0) = none ∧ (one.eng true 0).queue.length < engCap true ∧ fault.stateCode (pgRmove 0) = some Cc.quiesced ∧
     (fault.eng false 0).queue = block :: [] ∧ takes fault ∧ (fault.eng false 0).run = none ∧
     engCap true ≤ (busy.eng true 0).queue.length ∧ busy.stateCode (pgRmove 0) = none ∧ (busy.eng false 0).queue = block :: [] ∧ takes busy ∧
     (busy.eng false 0).run = none ∧ cmoveServes [] 0 block = true ∧ cmoveServes (blockOf 1) 0 block = true ∧
     upDev.nextBlocks false (upDev.eng false 0).queue = [] ∧ one.nextBlocks false (one.eng false 0).queue = block :: [] ∧
     one.blockFault (blockOf 1) false 0 block false = none ∧ (blockDescs (blockOf 1) 0).any one.awaitsLanding = false ∧
     lands.blockFault (blockOf 1) false 0 block false = none ∧ (blockDescs (blockOf 1) 0).any lands.awaitsLanding = true ∧
     (lands.eng false 0).run = none ∧ lands.nextBlocks false (lands.eng false 0).queue = block :: [] ∧
     (upDev.eng false 0).run = none ∧ (r.eng true 0).run = some x ∧ x.fault = none ∧ x.next ≠ x.descs.length ∧
     ({ x with next := 1 } : MRun).next = x.descs.length ∧ ({ x with fault := some (1, 0, 8) } : MRun).fault = some (1, 0, 8)) := by decide +kernel

theorem test_witness_Descriptors :
    (∀ op ≤ 8, ∀ rm ∈ [false, true],
      let r : MRun := { block, descs := [op], next := 0, fault := none }
      DescRuns (st (upDev.setEng rm 0 { run := some r })) rm 0 op r op) ∧
    (upDev.encodeReady = true ∧ upDev.decodeReady 8 = true ∧ Ecc.uncorrectable = .uncorrectable ∧ (0 : Nat) < Ds.rows 1 ∧ (0 : Nat) < Ds.rowLen 1 ∧
      ¬ (1 : Nat) < Ds.rows 1 ∧ (upDev.eng false 0).run = none ∧ (upDev.eng true 0).run = none) := by
  refine ⟨fun op h rm hrm => ?_, by decide +kernel⟩
  have hs : op = 0 ∨ op = 1 ∨ op = 2 ∨ op = 3 ∨ op = 4 ∨ op = 5 ∨ op = 6 ∨ op = 7 ∨ op = 8 := by omega
  obtain rfl | rfl : rm = false ∨ rm = true := by simp
  all_goals rcases hs with rfl | rfl | rfl | rfl | rfl | rfl | rfl | rfl | rfl
  all_goals exact ⟨by decide +kernel, rfl, rfl, by decide +kernel, by decide +kernel⟩

theorem test_witness_LosslessRoundTrip : (1 : Nat) ≤ 1 ∧
    ∀ g ∈ [List.replicate 32 0, List.replicate 32 65535], g.length = 32 ∧ ∀ x ∈ g, x < 2 ^ (8 * elemBytes 1) := by decide

/-! ## The beat, steps, drafts -/

/-- A byte sequence of zeros with some fields written: offset, length and value. -/
def bytesWith (len : Nat) (fs : List (Nat × Nat × Nat)) : List Byte :=
  fs.foldl (fun b f => b.take f.1 ++ natLe f.2.1 f.2.2 ++ b.drop (f.1 + f.2.1)) (List.replicate len 0)

/-- A draft of two packages, 5 and 9, with one gradient of 128 by 64 FP32 elements and one reduction, 7, of it, due in beat 1 of 4. -/
def draftFields : List (Nat × Nat × Nat) :=
  [(0, 4, 0x4E584446), (6, 2, 1), (8, 4, 320), (0x18, 2, 2), (0x1A, 2, 1), (0x1C, 2, 1), (0x28, 2, 4), (0x30, 3, 1), (0x38, 3, 1),
   (0x40, 4, 128), (0x48, 4, 192), (0x54, 4, 256), (128, 4, 5), (132, 4, 9),
   (192, 3, 1), (195, 1, 0x30), (196, 4, 128), (200, 4, 64), (208, 2, 0xFFFF),
   (256, 3, 7), (260, 3, 1), (263, 1, 2), (264, 2, 1), (266, 2, 4096)]
def draft : List Byte := bytesWith 320 (draftFields ++ [(0xC, 4, crc32 (bytesWith 320 draftFields))])

/-- Package 5 of that draft, with a plan live, before its first step. -/
def planDev : Dev :=
  ({ ticking with plan := { draft := draft, live := some emptyPlan } }.p Reg.DRAFT_SELF_ADDR 5).p Reg.DRAFT_STATUS_STATE 4
/-- The same with step 0 in progress, in beat 2. -/
def stepDev : Dev := (planDev.p Reg.STEP_REC_STATE_PHASE 1).p Reg.BEAT_CFG_BEAT_NUM_LO 2
def mark0 : Marker := ⟨0, 0, 0, 0, 0, 25, 0, false, false, 0, false, 0, 0, 0, 0, 0⟩
/-- A route table of package 5 with one flow, 3, from package 5 to 9 of a ring of 16, 10,000 bytes, and one entry: role `role`, bundle 0. -/
def routeFields (role : Nat) : List (Nat × Nat × Nat) :=
  [(0, 4, 0x4E585254), (6, 2, 1), (8, 4, 112), (0x10, 4, 5), (0x14, 4, 1), (0x18, 4, 1), (0x1C, 4, 0x01010110), (0x24, 2, 2375), (64, 3, 3),
   (68, 3, 5), (72, 3, 9), (0x54, 4, 10000), (0x58, 4, 0xFFFFFFFF), (98, 2, 10), (100, 1, 32 * role), (101, 3, 3), (106, 2, if role = 0 then 0 else 20)]
def route (role : Nat) : List Byte := bytesWith 112 (routeFields role)
def sealedRoute : List Byte := bytesWith 112 (routeFields 0 ++ [(0xC, 4, crc32 (route 0))])

theorem test_witness_Beats :
    (let q := { ticking with beat := { pend := some (1, 20, 5, 6) } }
     let q1 := q.p Reg.BEAT_CFG_BEAT_NUM_LO 1
     let late := { upDev with route := { live := route 1 } }
     let find := fun (d : Dev) => (Rt.entries d.route.live).zipIdx.find? fun x => Rt.role x.1 == 1 && Rt.inBundle x.1 == 3 / 4 && ! d.throughOk x.1
     upDev.timerOn = false ∧ ticking.timerOn = true ∧ ticking.beat.pend = none ∧ q.beat.pend = some (1, 20, 5, 6) ∧ q.beatNum < 1 ∧ 1 ≤ q1.beatNum ∧
     (ticking.p Reg.BEAT_CFG_T_X 100).g Reg.BEAT_CFG_PHASE < (ticking.p Reg.BEAT_CFG_T_X 100).g Reg.BEAT_CFG_T_X ∧
     (ticking.p Reg.BEAT_CFG_PHASE 100).g Reg.BEAT_CFG_T_X ≤ (ticking.p Reg.BEAT_CFG_PHASE 100).g Reg.BEAT_CFG_PHASE ∧
     ticking.g Reg.BEAT_CFG_PHASE < ticking.slackFrom ∧
     (ticking.p Reg.BEAT_CFG_PHASE 2400).slackFrom ≤ (ticking.p Reg.BEAT_CFG_PHASE 2400).g Reg.BEAT_CFG_PHASE ∧
     20000 < 2 ^ 24 - 1 ∧ find upDev = none ∧ (find late).isSome = true) := by
  decide +kernel

theorem test_witness_BeatLock :
    (let d := ticking.wr Reg.LINK_PHY_STATE (linkInst 9) 3
     let l := ticking.p Reg.BEAT_LOCK_STATE 2
     let h := ticking.p Reg.BEAT_LOCK_STATE 3
     let s : Dev := { ticking with beat := { source := true } }
     let c := (ticking.p Reg.BEAT_LOCK_CANDIDATE 1).p Reg.DRAFT_SELF_ADDR 5
     upDev.portLive 9 = false ∧ d.portLive 9 = true ∧ d.timerOn = true ∧ 64 < ({ mark0 with hops := 65 } : Marker).hops.toNat ∧
     ({ mark0 with hops := 64 } : Marker).hops.toNat ≤ 64 ∧
     c.ownClaim.isSome = true ∧ bestHeard c.heard = none ∧ c.livePorts = [] ∧ c.lockState ≠ 4 ∧ c.lockState ≠ 2 ∧
     l.lockState = 2 ∧ mark0.period.toNat = l.g Reg.BEAT_CFG_PERIOD ∧
     mark0.beat.toNat = l.beatNum ∧ (-2000 : Int).natAbs ≤ 2000 ∧ 2000 < (2001 : Int).natAbs ∧
     ({ mark0 with beat := 1 } : Marker).beat.toNat ≠ l.beatNum ∧ ({ mark0 with period := 20 } : Marker).period.toNat ≠ l.g Reg.BEAT_CFG_PERIOD ∧
     l.beat.source = false ∧ l.lockState ≠ 3 ∧ h.lockState = 3 ∧ h.lockState ≠ 2 ∧ s.beat.source = true ∧
     ticking.g Reg.BEAT_LOCK_UPSTREAM = 63 ∧ (ticking.p Reg.BEAT_LOCK_UPSTREAM 9).g Reg.BEAT_LOCK_UPSTREAM ≠ 63 ∧ stepDev.stepOpen = true) := by
  decide +kernel

theorem test_witness_StepsAndWaits_starts :
    (let d := { planDev.p Reg.BEAT_LOCK_STATE 2 with step := { next := some 0 } }
     let u := { planDev with step := { next := some 0 } }
     d.step.next = some 0 ∧ d.plan.live = some emptyPlan ∧ d.self = some 0 ∧ d.beatSeen = true ∧ d.stepOpen = false ∧ 0 ≤ d.beatNum ∧ d.mayRun = true ∧
     d.forcedMode = false ∧ d.lockState = 2 ∧ (d.p Reg.DRAFT_STATUS_STATE 3).mayRun = false ∧ upDev.step.next = none ∧
     u.plan.live = some emptyPlan ∧ u.self = some 0 ∧ u.mayRun = true ∧ u.forcedMode = false ∧ Dr.single u.plan.draft = false ∧ u.lockState ≠ 2) := by decide +kernel

theorem test_witness_StepsAndWaits_votes :
    (let ready := { stepDev with step := { decoded := [7] } }
     let held := { ready with recov := { transfers := [{ dst := 9, use := 0, step := 0 }] } }
     planDev.stepOpen = false ∧ stepDev.stepOpen = true ∧ stepDev.g Reg.STEP_REC_STATE_VOTE = 0 ∧ stepDev.decodesEnded = false ∧ stepDev.spoiled = false ∧
     (ready.p Reg.STEP_REC_STATE_VOTE 1).g Reg.STEP_REC_STATE_VOTE ≠ 0 ∧ (ready.p Reg.STEP_REC_STATE_VOTE 1).stepOpen = true ∧
     ready.stepOpen = true ∧ ready.decodesEnded = true ∧ ready.evaluatedAll = true ∧ ready.drainHeld = false ∧ ready.tilesChecked = true ∧
     ready.spoiled = false ∧ ready.g Reg.STEP_REC_STATE_VOTE = 0 ∧ ({ ready with spoiled := true } : Dev).spoiled = true ∧
     held.drainHeld = true ∧ held.stepOpen = true ∧
     (held.p Reg.PARTNER_DRAIN_HOLD 2).stepStart + held.g Reg.PLAN_RB_N_BEATS + (held.p Reg.PARTNER_DRAIN_HOLD 2).g Reg.PARTNER_DRAIN_HOLD ≤
       held.beatNum ∧
     held.beatNum < held.stepStart + held.g Reg.PLAN_RB_N_BEATS + (held.p Reg.PARTNER_DRAIN_HOLD 3).g Reg.PARTNER_DRAIN_HOLD) := by decide +kernel

theorem test_witness_StepsAndWaits_silent :
    (let k : Mark := { m := { mark0 with hops := 1 }, heardAt := 0 }
     let d := { (stepDev.p Reg.BEAT_CFG_VOTE_LIMIT 2).p Reg.BEAT_LOCK_UPSTREAM 63 with beat := { marks := [(9, k)] } }
     let d := (d.p Reg.BEAT_LOCK_SOURCE 0).p Reg.BEAT_LOCK_SOURCE_PRIO 0
     SMap.find stepDev.beat.marks 9 = none ∧ SMap.find d.beat.marks 9 = some k ∧ d.stepOpen = true ∧ d.step.dec = none ∧ d.isChild (9, k) = true ∧
     d.childComplete k = false ∧ d.step.silent.contains 9 = false ∧
     d.stepStart + d.g Reg.PLAN_RB_N_BEATS + d.g Reg.BEAT_CFG_VOTE_LIMIT ≤ d.beatNum) := by decide +kernel

theorem test_witness_StepsAndWaits_decisions :
    (let d := fun (code : Nat) => ({ stepDev with step := { dec := some (code, false, 2) } } : Dev)
     (∀ code ∈ [1, 2, 3], (d code).step.dec = some (code, false, 2) ∧ 2 ≤ (d code).beatNum ∧ (d code).stepOpen = true) ∧ planDev.step.dec = none) := by decide +kernel

theorem test_witness_StepsAndWaits_forced :
    (let d := (stepDev.p Reg.STEP_REC_LEDGER_MODE 1).p Reg.STEP_REC_FORCE_WAIT 1
     stepDev.forcedMode = false ∧
     Dr.redIdx d.plan.draft 7 = some 0 ∧ d.stepOpen = true ∧ d.forcedMode = true ∧ d.ownsBlocks 0 = true ∧ d.forcedMissing 0 = true ∧
     d.deadlineBeat 0 + d.g Reg.STEP_REC_FORCE_WAIT ≤ d.beatNum ∧
     (d.p Reg.STEP_REC_FORCE_WAIT 2).beatNum < d.deadlineBeat 0 + (d.p Reg.STEP_REC_FORCE_WAIT 2).g Reg.STEP_REC_FORCE_WAIT) := by decide +kernel

theorem test_witness_StepsAndWaits_resumes :
    (let d := { planDev.p Reg.RESTORE_STATE 3 with recov := { restored := some 4 } }
     planDev.g Reg.RESTORE_STATE ≠ 3 ∧ d.g Reg.RESTORE_STATE = 3 ∧ d.beatSeen = true ∧
     d.g64 Reg.RESTORE_RESUME_BEAT_LO Reg.RESTORE_RESUME_BEAT_HI ≤ d.beatNum ∧ d.stepOpen = false ∧ d.recov.restored = some 4) := by decide +kernel

/-- A draft of package 5 alone. -/
def soloFields : List (Nat × Nat × Nat) :=
  [(0, 4, 0x4E584446), (6, 2, 1), (8, 4, 192), (0x18, 2, 1), (0x1A, 2, 1), (0x1C, 2, 1), (0x28, 2, 4), (0x40, 4, 128), (128, 4, 5)]
def solo : List Byte := bytesWith 192 (soloFields ++ [(0xC, 4, crc32 (bytesWith 192 soloFields))])

theorem test_witness_DraftCommands :
    (let d := { (((ticking.p Reg.DRAFT_SELF_ADDR 5).p Reg.DRAFT_STATUS_STATE 1).p Reg.DRAFT_SRC_SPACE 1).p Reg.DRAFT_LEN 192 with
       plan := { draft := solo } }
     let r := upDev.p Reg.DRAFT_STATUS_STATE 3
     up.accepts pm pgDraft 0x090 true ∧ upDev.refusesWork pgDraft = false ∧ upDev.g Reg.DRAFT_STATUS_STATE ∉ [1, 2, 4, 5] ∧
     upDev.g Reg.DRAFT_STATUS_STATE ≠ 3 ∧ upDev.g Reg.DRAFT_STATUS_STATE ≠ 6 ∧ (st planDev).accepts pm pgDraft 0x090 true ∧
     planDev.refusesWork pgDraft = false ∧ planDev.g Reg.DRAFT_STATUS_STATE ∈ [1, 2, 4, 5] ∧
     (st r).accepts pm pgDraft 0x090 true ∧ r.g Reg.DRAFT_STATUS_STATE = 3 ∧
     upDev.g Reg.DRAFT_STATUS_STATE ≠ 1 ∧ upDev.g Reg.DRAFT_STATUS_STATE ≠ 2 ∧ d.g Reg.DRAFT_STATUS_STATE = 1 ∧
     (upDev.p Reg.DRAFT_STATUS_STATE 1).start.draftHead = some (1, 0) ∧ d.start.draftHead = none ∧ (8 : Nat) = 8) := by decide +kernel

def placed (r : PlaceResult) : Bool := match r with | .ok _ => true | _ => false

/-- That draft, checked. -/
def soloDev : Dev := { (((ticking.p Reg.DRAFT_SELF_ADDR 5).p Reg.DRAFT_STATUS_STATE 1).p Reg.DRAFT_SRC_SPACE 1).p Reg.DRAFT_LEN 192 with plan := { draft := solo } }

theorem test_witness_DraftCommands_placed : soloDev.start.draftHead = none ∧ placed soloDev.start.checkAndPlace = true ∧
    placed ({ soloDev with plan := {} } : Dev).start.checkAndPlace = false := by decide +kernel

theorem test_witness_Replans_placed :
    (let d : Dev := { soloDev with plan := { soloDev.plan with live := some emptyPlan, replanning := true, causes := [1] } }
     d.plan.replanning = true ∧ placed (d.start.place d.start.nextFaults d.start.replanOp) = true) := by decide +kernel

theorem test_witness_Replans :
    (let p := { planDev with plan := { planDev.plan with causes := [4], replanning := true } }
     let q := { planDev with plan := { planDev.plan with causes := [1], ready := some emptyPlan } }
     let w := 2 + 2 ^ 8 * 2
     let run : MRun := { block, descs := [w], next := 0, fault := none }
     let m : Plan := { emptyPlan with parts := [(0, [(5, 5)])] }
     let b := ({ planDev with plan := { planDev.plan with ready := some m } } : Dev).setEng true 0 { run := some run }
     upDev.plan.draft = [] ∧ planDev.plan.draft ≠ [] ∧ planDev.plan.live ≠ none ∧ planDev.plan.causes = [] ∧ p.plan.causes ≠ [] ∧
     planDev.fitChanged = false ∧ (planDev.p Reg.PLAN_RB_FIT_OP 9).fitChanged = true ∧ p.g Reg.DRAFT_STATUS_STATE = 4 ∧
     planDev.g Reg.DRAFT_STATUS_STATE = 4 ∧ planDev.plan.replanning = false ∧ p.plan.replanning = true ∧ planDev.plan.ready = none ∧
     q.plan.ready = some emptyPlan ∧ q.start.replanPoint = true ∧ q.start.partsBusy emptyPlan = false ∧ (∀ x ∈ emptyPlan.faults, x ∈ q.faults) ∧
     closeFaults q.faults = q.faults ∧ b.plan.ready = some m ∧ b.start.partsBusy m = true) ∧
    (let e : PlanEntry := { stage := 0, inst := 0, rows := 1, cols := 1, alt := false, way := 0, ways := 2, leader := 256, start := 0, span := 2, slot := 0,
                            ls := 0, step := 1, units := [256] }
     let s : Plan := { emptyPlan with entries := [e] }
     let d := { ticking.p Reg.BEAT_CFG_PHASE 2365 with plan := { live := some s } }
     let n := { d with plan := { live := some emptyPlan } }
     upDev.timerOn = false ∧ upDev.plan.live = none ∧ d.plan.live = some s ∧ d.timerOn = true ∧
     (s.slicedUnitList.filter fun u => regionOf u == 256) ≠ [] ∧ (emptyPlan.slicedUnitList.filter fun u => regionOf u == 256) = [] ∧
     n.plan.live = some emptyPlan ∧ n.timerOn = true ∧ n.g Reg.BEAT_CFG_PHASE = n.g Reg.BEAT_CFG_T_S - 10 ∧
     d.g Reg.BEAT_CFG_PHASE = d.g Reg.BEAT_CFG_T_S - 10 ∧ (d.eng true 256).queue.length < engCap true ∧ d.stateCode (pgRmove 256) = none) := by
  decide +kernel

/-- A contribution from package 9 to reduction 7, shard 0, of the step with number `step` that starts in beat 0: no block. -/
def contribution (step : Nat) : List Byte :=
  let fs := [(0, 4, 0x4E584743), (4, 3, 7), (0xC, 3, 9), (0x10, 8, step)]
  bytesWith 48 (fs ++ [(0x2C, 4, crc32 (bytesWith 48 fs))])

/-- A policy table of one policy, which lets tensors rise to level 2, and one slot, of tensor 1. -/
def policy : List Byte := bytesWith 112 [(0x10, 2, 1), (0x14, 4, 1), (64, 4, 8), (100, 3, 1)]

theorem test_witness_StepNumbers_lost :
    (let e : PlanEntry := { stage := 0, inst := 0, rows := 0, cols := 0, alt := false, way := 0, ways := 1, leader := 256, start := 0, span := 1, slot := 0,
                            ls := 0, step := 0, lines := larderBase 256 }
     let d : Dev := { stepDev with plan := { stepDev.plan with policy := policy, live := some { emptyPlan with entries := [e] } } }
     d.stepOpen = true ∧ d.step.evaluated = false ∧ (d.obsPlace 0 0).isSome = true ∧ (d.obsPlace 1 0).isSome = false) := by decide +kernel

theorem test_witness_StepNumbers :
    (let e := { stepDev with step := { evaluated := true } }
     let nan := { stepDev with step := { nan := true } }
     let up := ({ nan with plan := { nan.plan with policy := policy } } : Dev).p Reg.SCALE_POL_NAN_ACT 1
     let fails := fun (d : Dev) => let v := d.evaluation (d.start.obsLines []) ((managed d.plan.policy).map (observed d.plan.policy (d.start.obsLines [])))
       (v.fail.isSome, v.causes)
     planDev.stepOpen = false ∧ e.step.evaluated = true ∧ stepDev.stepOpen = true ∧ stepDev.step.evaluated = false ∧
     fails stepDev = (false, 0) ∧ fails (nan.p Reg.SCALE_POL_NAN_ACT 0) = (true, 4) ∧ fails up = (false, 4) ∧ up.stepOpen = true ∧
     up.step.evaluated = false) ∧
    (let a := larderBase 256
     let m := Mem.writeAll [] a (contribution 0)
     let all := m.bytes a 48
     let head := all
     let early := stepDev.p Reg.BEAT_CFG_BEAT_NUM_LO 1
     let dup : Dev := { stepDev with step := { landed := [⟨7, 1, 0, false⟩] } }
     a + 48 + 0 ≤ Machine.storeEnd a ∧ crc32 (zeroed (Mem.bytes [] a 48) 0x2C) ≠ fld (Mem.bytes [] a 48) 0x2C 4 ∧ fld head 0x1C 4 = 0 ∧
     crc32 (zeroed all 0x2C) = fld head 0x2C 4 ∧ fld head 0x10 8 = 0 ∧ fld head 0x10 8 = early.g64 Reg.STEP_REC_STEP_LO Reg.STEP_REC_STEP_HI ∧
     fld head 0x10 8 < (stepDev.p Reg.STEP_REC_STEP_LO 1).g64 Reg.STEP_REC_STEP_LO Reg.STEP_REC_STEP_HI ∧
     0 < fld (contribution 1) 0x10 8 ∧ crc32 (zeroed (contribution 1) 0x2C) = fld (contribution 1) 0x2C 4 ∧
     early.stepOpen = true ∧ fld head 0x18 4 = early.stepStart % 2 ^ 32 ∧ Dr.redIdx early.plan.draft (fld head 4 3) = some 0 ∧
     upDev.stepStart = 0 ∧ Dr.redIdx [] (fld head 4 3) = none ∧ early.start.groupCoord 0 8 = none ∧
     early.start.groupCoord 0 (fld head 0xC 3 % 2 ^ 18) = some 1 ∧ fld head 8 4 = early.start.ownShard 0 ∧ early.start.ownsBlocks 0 = true ∧
     (dup.step.landed.any fun y => y.red == Dr.rId dup.plan.draft 0 && y.g == 1) = true ∧
     (early.step.landed.any fun y => y.red == Dr.rId early.plan.draft 0 && y.g == 1) = false ∧ early.forcedMode = false ∧
     early.beatNum ≤ early.start.deadlineBeat 0 ∧ dup.stepOpen = true ∧ dup.start.ownsBlocks 0 = true ∧ dup.start.groupCoord 0 9 = some 1 ∧
     stepDev.start.deadlineBeat 0 < stepDev.beatNum ∧ stepDev.start.groupCoord 0 9 = some 1 ∧ stepDev.forcedMode = false) ∧
    (let c := { stepDev with step := { classed := [7] } }
     Dr.redIdx stepDev.plan.draft 7 = some 0 ∧ stepDev.start.ownsBlocks 0 = true ∧ c.step.classed.contains 7 = true ∧ c.stepOpen = true ∧
     (planDev.start.ownsBlocks 0 = false ∨ planDev.beatNum ≤ planDev.start.deadlineBeat 0) ∧
     stepDev.step.classed.contains 7 = false ∧ stepDev.start.deadlineBeat 0 < stepDev.beatNum ∧ stepDev.forcedMode = false) := by decide +kernel

/-! ## Links -/

def portUp (d : Dev) (p : Nat) : Dev := d.wr Reg.LINK_PHY_STATE (linkInst p) 3
/-- Package 5 with a live route table whose entry has role `role`, port 0 in service and carrying position 0, step 0 in progress in beat 0. -/
def routed (role : Nat) : Dev :=
  let d := ((planDev.p Reg.STEP_REC_STATE_PHASE 1).p Reg.LINK_ROUTE_LIVE 1).p Reg.LINK_ROUTE_TOPO 0x01010110
  { (portUp d 0).wr Reg.LINK_SLOT_SCHED (linkInst 0) 1 with route := { live := route role } }
def shuttleOf (kind dst : Nat) (payload : List Byte) : Shuttle := shSealed (mkShuttle kind dst 9 3 0 2 0 0 payload)

theorem test_witness_LinkPorts :
    (let f := fun (n : Nat) => upDev.wr Reg.LINK_PHY_STATE (linkInst 9) n
     let a := { (f 2).wr Reg.LINK_PHY_ATTEMPTS (linkInst 9) 2 with links := [(9, { timeouts := 1 })] }
     (9 : Nat) < 32 ∧ (5 : Nat) < 8 ∧ (f 1).phy 9 ≠ 2 ∧ (f 2).phy 9 = 2 ∧ (f 2).identityOk 9 0 0 = true ∧
     ((f 2).p Reg.LINK_ROUTE_LIVE 1).identityOk 9 0 0 = false ∧ ((f 2).port 9).timeouts + 1 < (a.rd Reg.LINK_PHY_ATTEMPTS (linkInst 9)) ∧
     a.rd Reg.LINK_PHY_ATTEMPTS (linkInst 9) ≤ (a.port 9).timeouts + 1 ∧ (f 3).phy 9 = 3 ∧ (f 4).phy 9 = 4 ∧
     bit (((f 4).wr Reg.LINK_PHY_ACTIVE (linkInst 9) 12).rd Reg.LINK_PHY_ACTIVE (linkInst 9)) 3 = true ∧ (f 1).phy 9 ≠ 3 ∧ (f 1).phy 9 ≠ 4 ∧
     (10 : BitVec 32).toNat ≤ 10 ∧ 10 < (11 : BitVec 32).toNat ∧ (st (f 5)).accepts pm (pgLinkPhy 9) 0x088 true ∧
     (f 5).refusesWork (pgLinkPhy 9) = false) := by decide +kernel

theorem test_witness_ScheduledShuttles_tables :
    (let d := ((upDev.p Reg.DRAFT_SELF_ADDR 5).p Reg.LINK_ROUTE_TABLE_LEN 112).p Reg.LINK_ROUTE_TABLE_SPACE 1
     let m := Mem.writeAll [] (larderBase d.loadLarder) sealedRoute
     up.accepts pm pgLinkRoute 0x08C true ∧ upDev.refusesWork pgLinkRoute = false ∧ (st d).accepts pm pgLinkRoute 0x08C true ∧
     d.refusesWork pgLinkRoute = false ∧
     (upDev.p Reg.LINK_ROUTE_STATUS_STATE 1).g Reg.LINK_ROUTE_STATUS_STATE = 1 ∧ d.g Reg.LINK_ROUTE_STATUS_STATE ≠ 1 ∧
     d.routeCheck (d.srcBytes m (d.g Reg.LINK_ROUTE_TABLE_SPACE) (d.g Reg.LINK_ROUTE_TABLE_ADDR) (d.g Reg.LINK_ROUTE_TABLE_LEN)) = none ∧
     d.routeCheck (d.srcBytes [] (d.g Reg.LINK_ROUTE_TABLE_SPACE) (d.g Reg.LINK_ROUTE_TABLE_ADDR) (d.g Reg.LINK_ROUTE_TABLE_LEN)) = some (1, 0)) ∧
    (let d := { ticking with route := { ready := route 0, pend := true } }
     d.route.pend = true ∧ d.beatSeen = true ∧ d.g64 Reg.LINK_ROUTE_APPLY_BEAT_LO Reg.LINK_ROUTE_APPLY_BEAT_HI ≤ d.beatNum ∧
     upDev.route.pend = false) := by decide +kernel

theorem test_witness_ScheduledShuttles_slots :
    (let d := routed 0
     let e := Rt.slot (route 0) 0
     let y : SlotSh := ⟨0, 0, shuttleOf 0 9 []⟩
     let o := { d with links := [(0, { out := [y] })] }
     let g := o.passTo (o.boundary + o.g Reg.BEAT_CFG_T_X + Rt.outSlot e / 2)
     let l := (o.p Reg.BEAT_LOCK_STATE 2).passTo (o.boundary + o.g Reg.BEAT_CFG_T_X + Rt.outSlot e / 2)
     let n := (o.wr Reg.LINK_SLOT_SCHED (linkInst 0) 0).passTo (o.boundary + o.g Reg.BEAT_CFG_T_X + Rt.outSlot e / 2)
     Rt.flowIdx [] (Rt.eFlow (Rt.slot [] 0)) = none ∧ Rt.flowIdx (route 0) (Rt.eFlow e) = some 0 ∧ d.carrier (Rt.bundle e) (Rt.pos e) = some 0 ∧
     d.routeLive = true ∧ 0 < Rt.nEntries (route 0) ∧
     Rt.role e = 0 ∧ d.stepOpen = true ∧ Rt.fVar (route 0) 0 = false ∧ Rt.shuttle e < (Rt.fBytes (route 0) 0 + 4095) / 4096 ∧ (d.port 0).out.length < 8 ∧
     (d.route.sent.any fun x => x.flow.toNat == Rt.eFlow e && x.shuttle.toNat == Rt.shuttle e) = false ∧
     ((d.port 0).out.any fun y => y.entry == 0) = false ∧ upDev.routeLive = false ∧ d.beatNum = d.stepStart + Rt.pbeat e ∧
     ((List.range 32).findSome? fun p => ((d.port p).out.find? fun y => y.entry == 0).map fun y => (p, y)) = none ∧
     ((List.range 32).findSome? fun p => ((g.port p).out.find? fun y => y.entry == 0).map fun y => (p, y)) = some (0, y) ∧
     g.carrier (Rt.bundle e) (Rt.pos e) = some 0 ∧ g.portSched 0 = true ∧ g.lockState ≠ 2 ∧ g.lockState ≠ 3 ∧ l.portSched 0 = true ∧
     l.lockState = 2 ∧ l.carrier (Rt.bundle e) (Rt.pos e) = some 0 ∧ n.carrier (Rt.bundle e) (Rt.pos e) = none) ∧
    (let d := (routed 1).p Reg.BEAT_LOCK_STATE 2
     let e := Rt.slot (route 1) 0
     let y : SlotSh := ⟨0, 0, shuttleOf 0 9 []⟩
     let o := { d with links := [(0, { through := [y] })] }.wr Reg.LINK_SLOT_SCHED (linkInst (4 * Rt.bundle e)) 1
     let o := portUp o (4 * Rt.bundle e)
     let g := o.passTo (o.boundary + o.g Reg.BEAT_CFG_T_X + Rt.outSlot e / 2)
     Rt.role e = 1 ∧ o.routeLive = true ∧ 0 < Rt.nEntries (route 1) ∧ o.stepOpen = true ∧ o.beatNum = o.stepStart + Rt.pbeat e ∧
     ((List.range 32).findSome? fun p => ((g.port p).through.find? fun y => y.entry == 0).map fun y => (p, y)) = some (0, y) ∧
     g.carrier (Rt.bundle e) (Rt.pos e) = some (4 * Rt.bundle e) ∧ g.portSched (4 * Rt.bundle e) = true ∧ g.lockState = 2) := by decide +kernel

theorem test_witness_ScheduledShuttles_received :
    (let sh := shuttleOf 0 5 []
     let e := Rt.slot (route 2) 0
     let f := Rt.slot (route 1) 0
     (shuttleOf 1 5 []).kind.toNat ≠ 0 ∧ upDev.portTakes 0 = false ∧ sh.kind.toNat = 0 ∧ (routed 2).portTakes 0 = true ∧
     crc32 (shCovered sh) = sh.crc.toNat ∧ crc32 (shCovered { sh with step := 1 }) ≠ sh.crc.toNat ∧ (routed 0).portTakes 0 = true ∧
     (routed 0).matchEntry sh (some (0 / 4)) = none ∧ (routed 2).stepOpen = true ∧ (routed 1).portTakes 0 = true ∧ (routed 1).stepOpen = true ∧
     sh.step.toNat = (routed 1).stepNo % 2 ^ 32 ∧ sh.start.toNat = (routed 1).stepStart % 2 ^ 32 ∧ Rt.flowIdx (route 1) sh.flow.toNat = some 0 ∧
     sh.step.toNat = (routed 2).stepNo % 2 ^ 32 ∧ sh.start.toNat = (routed 2).stepStart % 2 ^ 32 ∧
     (routed 2).matchEntry sh (some (0 / 4)) = some (e, 0) ∧ Rt.flowIdx (route 2) sh.flow.toNat = some 0 ∧ Rt.role e = 2 ∧
     (routed 1).matchEntry sh (some (0 / 4)) = some (f, 0) ∧ Rt.role f ≠ 2 ∧ Rt.fAttic (route 2) 0 = 0xFFFFFFFF) := by decide +kernel

theorem test_witness_SlackShuttles_sent :
    (let d := routed 2
     let x := shuttleOf 0 9 []
     let l := { d.p Reg.BEAT_CFG_PHASE 2400 with links := [(0, { late := [x], lateBeat := 7 })] }
     let y := { x with kind := 1 }
     (d.port 0).late = [] ∧ (l.port 0).late = x :: [] ∧
     l.hop none 0 y = .wait ∧ l.hop none 1 (shuttleOf 1 300 []) = .drop ∧ l.hop none 1 y = .send 0 y ∧ l.slackGo 0 y = true ∧
     (l.p Reg.BEAT_CFG_PHASE 0).hop none 1 y = .send 0 y ∧ (l.p Reg.BEAT_CFG_PHASE 0).slackGo 0 y = false) := by decide +kernel

theorem test_witness_SlackShuttles_forwarded :
    (let d := routed 2
     let w : SlackSh := ⟨shuttleOf 4 9 [], 0⟩
     let full := { d with links := [(0, { slack := List.replicate 16 w })] }
     let r7 := shuttleOf 7 9 []
     (shuttleOf 1 9 []).kind.toNat < 2 ∧ (shuttleOf 4 5 []).dst.toNat = d.selfAddr ∧ (shuttleOf 4 5 []).kind.toNat < 7 ∧ upDev.portTakes 0 = false ∧
     7 ≤ r7.kind.toNat ∧ crc32 (shCovered r7) = r7.crc.toNat ∧ 2 ≤ w.sh.kind.toNat ∧ w.sh.kind.toNat < 7 ∧
     w.sh.dst.toNat ≠ d.selfAddr ∧ d.portTakes 0 = true ∧ crc32 (shCovered w.sh) = w.sh.crc.toNat ∧
     16 ≤ ((full.port 0).slack.filter fun y => y.sh.cls == w.sh.cls).length ∧ ((d.port 0).slack.filter fun y => y.sh.cls == w.sh.cls).length < 16 ∧
     w.sh.dst.toNat ≠ full.selfAddr ∧ full.portTakes 0 = true) := by decide +kernel

theorem test_witness_SlackShuttles_received :
    (let d := routed 2
     let x := shuttleOf 1 5 []
     let far := shuttleOf 1 9 []
     let r := shuttleOf 2 5 (natLe 4 3)
     let n := shuttleOf 3 5 (natLe 4 3)
     let other := fun (k : Nat) => shuttleOf k 9 (natLe 4 3)
     let g := { d with route := { d.route with sent := [shuttleOf 0 9 []] } }
     let named := fun (y : Shuttle) => y.flow.toNat == fld r.payload 0 3 && y.shuttle.toNat == fld r.payload 4 2
     let closed := d.p Reg.STEP_REC_STATE_PHASE 0
     d.portTakes 0 = true ∧ x.kind.toNat = 1 ∧ crc32 (shCovered x) = x.crc.toNat ∧ x.step.toNat = d.stepNo % 2 ^ 32 ∧
     x.start.toNat = d.stepStart % 2 ^ 32 ∧ closed.portTakes 0 = true ∧ closed.stepOpen = false ∧
     d.stepOpen = true ∧ x.dst.toNat = d.selfAddr ∧ far.kind.toNat = 1 ∧ crc32 (shCovered far) = far.crc.toNat ∧ far.dst.toNat ≠ d.selfAddr ∧
     far.step.toNat = d.stepNo % 2 ^ 32 ∧ far.start.toNat = d.stepStart % 2 ^ 32 ∧ d.matchEntry x none = some (Rt.slot (route 2) 0, 0) ∧
     Rt.flowIdx d.route.live x.flow.toNat = some 0 ∧ r.kind.toNat = 2 ∧ crc32 (shCovered r) = r.crc.toNat ∧ r.dst.toNat = d.selfAddr ∧
     (∀ k ∈ [2, 3], (other k).kind.toNat = k ∧ crc32 (shCovered (other k)) = (other k).crc.toNat ∧ (other k).dst.toNat ≠ d.selfAddr) ∧
     g.portTakes 0 = true ∧ g.route.sent.find? named = some (shuttleOf 0 9 []) ∧ d.route.sent.find? named = none ∧ n.kind.toNat = 3 ∧ r.kind.toNat ≠ 3 ∧
     n.kind.toNat ≠ 2 ∧ crc32 (shCovered n) = n.crc.toNat ∧ n.dst.toNat = d.selfAddr) := by decide +kernel

/-! ## Host ports, sessions, channels -/

/-- Port H4 up and secured, with IPv4 address 10.0.0.1. -/
def hostDev : Dev := ((ticking.wr Reg.HOST_MAC_STATE (hostInst 4) 3).wr Reg.HOST_SEC_MKA_STATE (hostInst 4) 3).wr Reg.HOST_XPORT_IPV4 (hostInst 4) 0x0100000A
def frame : EthFrame := ⟨64, true, false, false, false, true, 1, true, true, true, true⟩
def announce : Announce := ⟨0, 0, 0, 0, 0, 0, 0, 0, 37⟩
def sealSeg (ty : Nat) (g : Segment) : Segment := { g with crc := BitVec.ofNat 32 (crc32 (segCovered ty g)) }
def segment (session seq : BitVec 32) (payload : List Byte) : Segment :=
  ⟨0x4E584854, 1, true, true, BitVec.ofNat 14 payload.length, session, seq, 0, 0, 0, 8, 0, payload, 0⟩
def peer : Endpoint := ⟨0, 0x0A000002, 7⟩
def session : Sess :=
  { id := 3, port := 4, peer := peer, nonce := [], next := 0, rcv := 300, lastRx := 0, lastTx := 0, window := 8, rto := 1000000 }
def sessDev (x : Sess) (cs : List Chan) : Dev := { hostDev with host := { hostDev.host with sessions := [x], chans := cs } }

theorem test_witness_HostPortsAndTime_frames :
    (let d := hostDev
     let p := { d with host := { d.host with ports := [(4, { rxPn := 1 + d.rd Reg.HOST_SEC_REPLAY_WINDOW (hostInst 4) })] } }
     let lost := { d with host := { d.host with ports := [(0, { lost := true })] } }
     upDev.hostTakes 4 = false ∧ d.hostTakes 4 = true ∧ p.hostTakes 4 = true ∧ (lost.hp 0).lost = true ∧ (d.hp 4).lost = false ∧
     (let h := (d.wr Reg.HOST_MAC_STATE (hostInst 0) 3).wr Reg.HOST_SEC_REQUIRE (hostInst 0) 0; h.secRequired 0 = false ∧ h.hostTakes 0 = true) ∧ d.sec.cak = none ∧ ({ frame with room := false } : EthFrame).room = false ∧ frame.room = true ∧
     ({ frame with fcsOk := false } : EthFrame).fcsOk = false ∧ frame.fcsOk = true ∧ 9216 < ({ frame with len := 9217 } : EthFrame).len.toNat ∧
     frame.len.toNat ≤ 9216 ∧ frame.tagged = false ∧ frame.pause = false ∧ frame.eapol = false ∧ frame.isSecured = true ∧
     ({ frame with tagged := true } : EthFrame).tagged = true ∧ ({ frame with pause := true } : EthFrame).pause = true ∧
     ({ frame with eapol := true } : EthFrame).eapol = true ∧ ({ frame with served := false } : EthFrame).served = false ∧
     (upDev.wr Reg.HOST_MAC_STATE (hostInst 4) 3).secured 4 = false ∧ (upDev.wr Reg.HOST_MAC_STATE (hostInst 4) 3).hostTakes 4 = true ∧
     ({ frame with icvOk := false } : EthFrame).icvOk = false ∧ ({ frame with isSecured := false } : EthFrame).isSecured = false ∧
     d.secRequired 4 = true ∧ frame.icvOk = true ∧ d.secured 4 = true ∧
     frame.pn.toNat + p.rd Reg.HOST_SEC_REPLAY_WINDOW (hostInst 4) ≤ (p.hp 4).rxPn ∧
     (d.hp 4).rxPn < frame.pn.toNat + d.rd Reg.HOST_SEC_REPLAY_WINDOW (hostInst 4) ∧ frame.served = true ∧ frame.headerOk = true) := by decide +kernel

theorem test_witness_HostPortsAndTime_served :
    (let d := hostDev
     { d with sec := { d.sec with cak := some ([], []) } }.sec.cak.isSome = true ∧ upDev.carries 4 = false ∧ d.carries 4 = true ∧
     (0x0A000001 : BitVec 32).toNat = d.ipv4 4 ∧ (0x0A000001 : BitVec 32) ≠ 0 ∧
     (0x0A000002 : BitVec 32).toNat ≠ d.ipv4 4 ∧ (BitVec.ofNat 128 (d.linkLocal 4)).toNat = d.linkLocal 4 ∧
     ({ d with host := { d.host with ports := [(4, { dad := [0, 1] })] } }.hp 4).dad.contains 0 = true ∧ (d.hp 4).dad.contains 0 = false ∧
     bit ((d.setAddrState 4 1).addrState 4) 0 = true ∧ 1024 < (List.replicate 1025 (0 : Byte)).length ∧
     64 ≤ ({ d with host := { d.host with ports := [(4, { echoes := List.replicate 64 0 })] } }.hp 4).echoes.length ∧
     upDev.rd Reg.HOST_MAC_STATE (hostInst 4) = 0 ∧ (upDev.wr Reg.HOST_MAC_STATE (hostInst 4) 1).rd Reg.HOST_MAC_STATE (hostInst 4) = 1 ∧
     d.rd Reg.HOST_MAC_STATE (hostInst 4) = 3 ∧ 2 ≤ d.rd Reg.HOST_MAC_STATE (hostInst 4) ∧ (d.hp 4).dad.contains 1 = false) := by decide +kernel

theorem test_witness_HostPortsAndTime_time :
    (let d := hostDev
     let a := d.wr Reg.HOST_PTP_ACTIVE (hostInst 4) 1
     let w := fun (n : Nat) => a.wr Reg.HOST_PTP_WALL_STATE (hostInst 4) n
     isControl 3 = false ∧ isControl 4 = true ∧ d.hostTakes 4 = true ∧ d.secured 4 = true ∧ announce.domain.toNat = d.rd Reg.HOST_PTP_DOMAIN (hostInst 4) ∧
     announce.stepsRemoved.toNat < 255 ∧ (d.hp 4).master = none ∧ d.ptpActive = none ∧ a.ptpActive = some 4 ∧ (w 1).wallState = 1 ∧
     (w 1).ptpActive = some 4 ∧ (1000000 : BitVec 64).toInt.natAbs ≤ 1000000 ∧ 1000000 < (1000001 : BitVec 64).toInt.natAbs ∧
     offsetSteady (((1000000 : BitVec 64).toInt :: [3, 5, 0, 2]).take 5) = true ∧ (w 2).wallState = 2 ∧ (w 2).ptpActive = some 4 ∧
     2 ≤ ({ w 2 with host := { hostDev.host with beyond := 2 } } : Dev).host.beyond ∧
     (((w 2).setHp 4 { (w 2).hp 4 with master := none }).ptpSelect).ptpActive = none ∧
     (((w 2).setHp 4 { (w 2).hp 4 with master := none }).ptpSelect).wallState = 2 ∧
     (((w 1).setHp 4 { (w 1).hp 4 with master := none }).ptpSelect).rd Reg.HOST_PTP_STEPS (hostInst 4) = 0 ∧
     ((((w 2).wr Reg.HOST_PTP_STEPS (hostInst 4) 1).setHp 4 { (w 2).hp 4 with master := none }).ptpSelect).rd Reg.HOST_PTP_STEPS (hostInst 4) ≠ 0)
    := by decide +kernel

theorem test_witness_Sessions :
    (let o := sealSeg 1 (segment 0 0 (List.replicate 16 0))
     let d := hostDev
     let h0 := (d.wr Reg.HOST_MAC_STATE (hostInst 0) 3).wr Reg.HOST_SEC_REQUIRE (hostInst 0) 0
     let full := { d with host := { d.host with sessions := List.replicate 64 session } }
     upDev.carries 4 = false ∧ d.carries 4 = true ∧ segSound 1 (segment 0 0 []) = false ∧ segSound 1 o = true ∧ o.payload.length = 16 ∧
     leNat (o.payload.drop 8) = 0 ∧ o.ver.toNat = 1 ∧ segSound 1 (sealSeg 1 { o with ver := 2 }) = true ∧ ({ o with ver := 2 } : Segment).ver.toNat ≠ 1 ∧
     h0.carries 0 = true ∧ isControl 0 = false ∧ h0.level < 2 ∧ isControl 4 = true ∧ ((d.portSessions 4).find? fun x => samePeer x.peer peer) = none ∧
     64 ≤ (full.portSessions 4).length ∧ ((full.portSessions 4).find? fun x => samePeer x.peer { peer with udp := 8 }) = none ∧
     (d.portSessions 4).length < 64 ∧
     (((sessDev session []).portSessions 4).find? fun x => samePeer x.peer peer) = some session ∧ session.nonce ≠ o.payload.take 8 ∧
     (∀ ty ∈ [3, 4, 5], segSound ty (segment 9 0 []) = false ∧ segSound ty (sealSeg ty (segment 9 0 [])) = true) ∧
     d.sess 9 = none) := by decide +kernel

theorem test_witness_Sessions_open :
    (let x := session
     let d := sessDev x []
     let ctl := natLe 4 0x00010001 ++ natLe 4 0x20000000 ++ natLe 8 0
     let a := sealSeg 4 (segment 3 0 [])
     let old := sealSeg 3 (segment 3 0 [])
     let m := sealSeg 3 (segment 3 300 ctl)
     let c := sealSeg 5 (segment 3 300 [])
     a.ver.toNat = 1 ∧ old.ver.toNat = 1 ∧ m.ver.toNat = 1 ∧ c.ver.toNat = 1 ∧
     d.host.sessions = [x] ∧ x.id = a.session.toNat ∧ x.port = 4 ∧ d.carries 4 = true ∧ x.una = [] ∧ x.queue = [] ∧ x.held = [] ∧ x.closed = false ∧
     d.host.chans = [] ∧ segSound 4 a = true ∧ segSound 3 old = true ∧ 256 ≤ serial old.seq.toNat x.rcv ∧ segSound 3 m = true ∧
     m.seq.toNat = x.rcv ∧ m.channel = 0 ∧ m.isFirst = true ∧ m.isLast = true ∧ x.pend < 15 ∧ controlOk m.payload = true ∧ segSound 5 c = true ∧
     c.seq.toNat = x.rcv ∧ c.window.toNat ≠ 0) := by decide +kernel

theorem test_witness_Sessions_fails :
    (let y := fun (seq tries : Nat) => (⟨seq, 3, true, true, 0, [], 0, tries, false, none⟩ : SentSeg)
     let x := { session with una := [y 10 (hostDev.rd Reg.HOST_XPORT_RETRY_LIMIT (hostInst 4)), y 11 0, y 12 0, y 13 0] }
     let d := (sessDev x []).start
     let g := sealSeg 4 { segment 3 0 [] with ack := 10, sack := 7 }
     let after := fun (d : Dev) (x : Sess) => (((d.count Reg.HOST_XPORT_SEGS_RX (hostInst 4)).setSess { x with peer := peer, lastRx := d.now }).takeAck x.id
       g.ack.toNat g.sack.toNat g.window.toNat).fastResend x.id
     d.sess g.session.toNat = some x ∧ x.port = 4 ∧ g.ver.toNat = 1 ∧ d.carries 4 = true ∧ segSound 4 g = true ∧ (after d x).sess x.id = none ∧
     ((after (sessDev session []).start session).sess 3).isSome = true ∧ (sessDev session []).sess 3 = some session) := by decide +kernel

theorem test_witness_Sessions_timers :
    (let y : SentSeg := ⟨0, 3, true, true, 0, [], 0, 0, false, none⟩
     let x := { session with una := [y] }
     let limit := hostDev.rd Reg.HOST_XPORT_RETRY_LIMIT (hostInst 4)
     (sessDev session []).sess 9 = none ∧ (sessDev session []).sess 3 = some session ∧ session.closed = false ∧
     ({ session with closed := true } : Sess).closed = true ∧ session.una = [] ∧ (sessDev x []).sess 3 = some x ∧ x.una = y :: [] ∧
     y.tries < limit ∧ limit ≤ ({ y with tries := limit } : SentSeg).tries) := by decide +kernel

/-- The text of a reset frame for the package domain under the identity key of all zeros, with counter 1, and its tag under the key [1]. -/
def resetText : List Byte := natLe 8 16463529779638368223 ++ natLe 8 1 ++ natLe 4 1 ++ List.replicate 12 0
def resetTag : List Byte :=
  [253, 217, 21, 231, 224, 181, 212, 4, 207, 158, 60, 151, 61, 107, 3, 24, 69, 168, 28, 118, 70, 151, 59, 11, 132, 235, 207, 31, 44, 157, 186, 233]
def resetSeg (m : List Byte) : Segment := sealSeg 7 { segment 0 0 m with isFirst := false, isLast := false, window := 0 }

theorem test_witness_Sessions_reset :
    (let g := resetSeg (resetText ++ resetTag)
     let d := { hostDev with sec := { hostDev.sec with resetKey := some [1] } }
     let q := hostDev.setRst { hostDev.rst with rejectAt := some 0 }
     isControl 3 = false ∧ isControl 4 = true ∧ segSound 7 (segment 0 0 resetText) = false ∧ segSound 7 g = true ∧ g.ver.toNat = 1 ∧
     hostDev.carries 4 = true ∧ hostDev.sec.resetKey = none ∧ hostDev.rst.rejectAt = none ∧ q.rst.rejectAt = some 0 ∧ q.now < 0 + ms 1000 ∧
     q.carries 4 = true ∧ q.sec.resetKey = none ∧ d.sec.resetKey = some [1] ∧ d.carries 4 = true ∧ resetHeaderOk g = true ∧ g.payload.length = 64 ∧
     d.rd Reg.HOST_XPORT_RESET_CTR_LO (hostInst 4) + 2 ^ 32 * d.rd Reg.HOST_XPORT_RESET_CTR_HI (hostInst 4) < fld g.payload 8 8 ∧
     domOk (bits (fld g.payload 0x10 4) 0 4) (bits (fld g.payload 0x10 4) 16 12) = true ∧ bits (fld g.payload 0x10 4) 4 12 = 0 ∧
     bits (fld g.payload 0x10 4) 28 4 = 0 ∧ allZero g.payload 0x14 0x20 = true) := by decide +kernel

theorem test_witness_Sessions_tag : kmac256 [1] resetText "NXU RESET" = resetTag ∧ fld (resetText ++ resetTag) 0 8 = hostDev.deviceId := by
  decide +kernel

def chan (kind : Nat) (param : Nat) (inbox : List (List Byte)) : Chan :=
  { handle := kind * 2 ^ 28 + 1, sess := 3, port := 4, param := param, inbox := inbox }

theorem test_witness_ChannelCommands_create :
    (let create := natLe 4 0x00010001 ++ natLe 4 (Kd.reg * 2 ^ 28) ++ natLe 8 0
     let wrong := natLe 4 0x00010001 ++ natLe 4 0 ++ natLe 8 0
     let destroy := natLe 4 0x00010003 ++ natLe 4 (Kd.reg * 2 ^ 28 + 1) ++ natLe 8 0
     let on := fun (m : List Byte) (cs : List Chan) => (sessDev { session with ctl := [m] } cs).p Reg.BRINGUP_LEVEL 1
     let refused := fun (d : Dev) => (d.takeControl 3 1).bind fun x => x.2.2.createRefusal 4 (fld x.2.1 4 4) (fld x.2.1 8 8)
     let known := fun (d : Dev) => (d.takeControl 3 3).map fun x => x.2.2.host.chans.any fun c => c.handle == fld x.2.1 4 4 && c.sess == 3
     upDev.takeControl 3 1 = none ∧ upDev.takeControl 3 3 = none ∧ ((on create []).takeControl 3 1).isSome = true ∧
     ((on wrong []).takeControl 3 1).isSome = true ∧ refused (on wrong []) = some 2 ∧ refused (on create []) = none ∧
     known (on destroy [chan Kd.reg 0 []]) = some true ∧ known (on destroy []) = some false) := by decide +kernel

theorem test_witness_ChannelCommands_messages :
    (let take := fun (k p : Nat) (m : List Byte) => (sessDev session [chan k p [m]]).takeMessage (k * 2 ^ 28 + 1) k
     let reg := natLe 8 1 ++ natLe 4 0x8010 ++ natLe 8 0
     let head := fun (flags : Nat) => natLe 4 flags ++ natLe 4 0 ++ natLe 8 1 ++ natLe 8 0 ++ List.replicate 8 0
     let far := natLe 4 3 ++ natLe 4 0 ++ natLe 8 4 ++ natLe 8 0 ++ List.replicate 8 0
     upDev.takeMessage 0x10000001 Kd.reg = none ∧ (take Kd.reg 0 reg).isSome = true ∧ regRequests reg = some 1 ∧ regRequests [] = none ∧
     (take Kd.hostIn (2 ^ 24) (head 3)).isSome = true ∧ isStore (2 ^ 24) = true ∧ headOk true (head 3) true = true ∧
     (upDev.storeSpan (head 3)).toOption = some (larderBase upDev.loadLarder) ∧ bit (fld (head 3) 0 4) 0 = true ∧
     (upDev.storeSpan far).toOption = none ∧ headOk true far true = true ∧
     (upDev.storeSpan far).toBool = false ∧ headOk true (head 0) true = false ∧
     isStore 0 = false ∧ headOk false (head 2) true = false ∧ (take Kd.hostOut (2 ^ 24) (head 2)).isSome = true ∧ headOk true (head 2) false = true ∧
     headOk true (head 0) false = false) := by decide +kernel

/-- Where the input of a message on a HOST_IN channel of tensor `param` goes, the step it is for, and whether its buffer has ended. -/
def inputCase (param : Nat) (m : List Byte) (bufs : List InBuf) : Option (Option (Nat × Nat) × Nat × Bool) :=
  let d := { sessDev session [chan Kd.hostIn param [m]] with plan := planDev.plan }
  (({ d with host := { d.host with inputs := bufs } } : Dev).takeMessage (Kd.hostIn * 2 ^ 28 + 1) Kd.hostIn).map fun x =>
    (x.2.2.pantryHome (param % 2 ^ 24) (fld x.2.1 8 8 % 2), x.2.2.inputStep, (x.2.2.inBuf (param % 2 ^ 24) (fld x.2.1 8 8)).ended)
def inputMsg (step off : Nat) : List Byte := natLe 4 1 ++ natLe 4 0 ++ natLe 8 step ++ natLe 4 off ++ natLe 4 0 ++ List.replicate 8 0

theorem test_witness_ChannelCommands_tensor :
    isStore 1 = false ∧ (∀ x ∈ [inputMsg 0 0, inputMsg 5 0, inputMsg 0 4], headOk false x true = true) ∧ inputCase 2 (inputMsg 0 0) [] = some (none, 0, false) := by decide +kernel

theorem test_witness_ChannelCommands_tensor_member :
    inputCase 1 (inputMsg 0 0) [] = some (some (0, 32768), 0, false) ∧ inputCase 1 (inputMsg 5 0) [] = some (some (32768, 32768), 0, false) ∧
     inputCase 1 (inputMsg 0 0) [⟨1, 0, [], true⟩] = some (some (0, 32768), 0, true) ∧ inputCase 1 (inputMsg 0 4) [] = some (some (0, 32768), 0, false) ∧ 4 % 64 ≠ 0 ∧
     ¬ ((0 : Nat) % 64 ≠ 0 ∨ 32768 < 0 + 0) := by decide +kernel

theorem test_witness_ChannelCommands_output :
    (let c := chan Kd.hostOut 1 []
     let d := { sessDev session [c] with plan := planDev.plan }
     let d := { d.p Reg.BEAT_CFG_PHASE 2400 with host := { d.host with outputs := [⟨1, 0, 0, none⟩] } }
     hostDev.slackOpen = false ∧ upDev.chan 9 = none ∧ d.chan (Kd.hostOut * 2 ^ 28 + 1) = some c ∧ kindOf (Kd.hostOut * 2 ^ 28 + 1) = Kd.hostOut ∧ isStore c.param = false ∧
     d.slackOpen = true ∧ (d.host.outputs.find? fun x => x.tensor == c.param % 2 ^ 24 && x.upTo.isNone) = some ⟨1, 0, 0, none⟩ ∧
     (d.pantryHome (c.param % 2 ^ 24) (0 % 3)).isSome = true) := by decide +kernel

/-! ## Power, leases, trades -/

/-- A window of the minutes 0 to 59: AVG 900 W, PEAK 1000 W, LEND 200 W, BORROW 200 W. -/
def win0 : LeaseWin := ⟨0, 60, 900, 1000, 200, 200⟩

/-- A member of pool 3 with broker 9 in that window, at SL1, with a plan and a route table live. FIT_OP is 2, with a mean of 500 W. -/
def tradeDev : Dev :=
  let d := ((((((routed 0).p Reg.BRINGUP_LEVEL 1).p Reg.LEASE_POOL 3).p Reg.LEASE_BROKER 9).p Reg.MODEL_PMEAN 500 2).p Reg.PLAN_RB_FIT_OP 2)
  { ((d.p Reg.TRADE_LEND_EN 1).p Reg.TRADE_BORROW_EN 1).p Reg.TRADE_KEEP_W 0 with power := { windows := [win0] } }

/-- The package at SL1. -/
def sl1Dev : Dev := upDev.p Reg.BRINGUP_LEVEL 1

theorem test_witness_PowerControl_clocks :
    (let ramp := (upDev.wr Reg.RCLOCK_RAMPING 256 1).wr Reg.RCLOCK_TARGET 256 3
     let there := ramp.setClock 256 { stepTo := 3 }
     let late := { ramp.setClock 256 { clearAt := some 0 } with now := us 10 }
     let droop := upDev.setClock 256 { stretched := true }
     let early : Dev := upDev.setRst { upDev.rst with runsTo := 5 }
     State.reset.dev.rst.held = true ∧ early.now < early.rst.runsTo ∧ upDev.rst.held = false ∧ upDev.rst.runsTo ≤ upDev.now ∧
     upDev.rd Reg.RCLOCK_RAMPING 256 = 0 ∧ (upDev.setClock 256 { clearAt := some 0 }).now < 0 + us 10 ∧
     ramp.rd Reg.RCLOCK_RAMPING 256 ≠ 0 ∧ (ramp.clock 256).stretched = false ∧ (ramp.clock 256).clearAt = none ∧ (ramp.clock 256).stepTo < 16 ∧
     (ramp.clock 256).stepTo ≠ ramp.rd Reg.RCLOCK_TARGET 256 ∧ (there.clock 256).stepTo = there.rd Reg.RCLOCK_TARGET 256 ∧
     there.rd Reg.RCLOCK_RAMPING 256 ≠ 0 ∧ (there.clock 256).clearAt = none ∧ (late.clock 256).clearAt = some 0 ∧ 0 + us 10 ≤ late.now ∧
     (droop.clock 256).stretched = true) := by decide +kernel

theorem test_witness_PowerControl_temperatures :
    regionOut upDev.faults 256 = false ∧ 420 ≤ (upDev.junctionRead 256 [some 420, some 420, some 420, some 420]).regionTemp 256 ∧
    2 ∈ (upDev.hbmRead 1024 [some 380, none]).dieStacks 1024 ∧ 380 ≤ (upDev.hbmRead 1024 [some 380, none]).stackTemp 2 ∧
    1024 ∈ allDies ∧ upDev.rd Reg.THERMAL_SHELF_FORCED 1024 ≠ 1 ∧ stepDev.stepOpen = true ∧ upDev.lockState ≠ 4 ∧
    (let d := (upDev.wr Reg.THERMAL_SHELF_FORCED 1024 1).setShelf 1024 {}
     let d := { d with now := ms 1000 }
     d.rd Reg.THERMAL_SHELF_FORCED 1024 = 1 ∧ (d.shelfOf 1024).causes = [] ∧ (d.shelfOf 1024).clearAt + ms 1000 ≤ d.now) := by decide +kernel

theorem test_witness_PowerControl_rails :
    (let busy := (stepDev.p Reg.PLAN_RB_N_BEATS 4).p Reg.BRINGUP_LEVEL 1
     let hour := { sl1Dev with power := { calHour := upDev.wallHour } }
     let sus := sl1Dev.p Reg.MODEL_SUSPECT 1
     upDev.level = 0 ∧ sl1Dev.level ≠ 0 ∧ (sl1Dev.p Reg.MEASURE_FAILED 1).g Reg.MEASURE_FAILED = 1 ∧
     busy.level ≠ 0 ∧ busy.quietBeat = false ∧ hour.g Reg.MODEL_SUSPECT = 0 ∧ hour.power.calHour = hour.wallHour ∧ hour.level ≠ 0 ∧ sus.level ≠ 0 ∧
     sus.quietBeat = true ∧ sus.g Reg.MODEL_SUSPECT = 1 ∧ sus.power.readings = [] ∧ sus.g Reg.MODEL_FAILED = 0 ∧ sus.g Reg.MEASURE_FAILED = 0) := by
  decide +kernel

/-- A lease frame under the key [1] and the identity key of all zeros: SEQ 1, one window of 60 minutes, 900 W and 1000 W; and its tag. -/
def leaseText : List Byte := bytesWith 96 [(0, 4, 0x4E584C46), (4, 1, 1), (6, 1, 1), (8, 8, 16463529779638368223),
  (0x10, 8, 1), (0x18, 2, 3), (0x1C, 4, 9), (0x24, 1, 60), (0x28, 2, 900), (0x2A, 2, 1000)]
def leaseTag : List Byte :=
  [219, 251, 69, 136, 171, 113, 73, 145, 72, 169, 135, 200, 230, 9, 99, 202, 35, 182, 6, 38, 134, 226, 237, 93, 168, 146, 214, 89, 178, 93, 84, 232]

theorem test_witness_LeasesAndTrades_tag : kmac256 [1] leaseText "NXU LEASE" = leaseTag := by decide +kernel

theorem test_witness_LeasesAndTrades_frames :
    (let frame := List.replicate 128 (0 : Byte)
     let d := sessDev session [chan Kd.lease 0 [frame]]
     let g := ((sessDev session [chan Kd.lease 0 [leaseText ++ leaseTag]]).wr Reg.HOST_PTP_WALL_STATE (hostInst 4) 2)
     let g := { g with sec := { g.sec with leaseKey := some [1] } }
     let on := fun (n : Nat) => sl1Dev.wr Reg.HOST_PTP_WALL_STATE (hostInst 4) n
     upDev.takeMessage 0x40000001 Kd.lease = none ∧ (d.takeMessage (Kd.lease * 2 ^ 28 + 1) Kd.lease).isSome = true ∧
     ((d.takeMessage (Kd.lease * 2 ^ 28 + 1) Kd.lease).map fun x => x.2.2.leaseCode x.2.1) = some 1 ∧
     ((g.takeMessage (Kd.lease * 2 ^ 28 + 1) Kd.lease).map fun x => x.2.2.leaseCode x.2.1) = some 0 ∧ upDev.level = 0 ∧ (on 3).level ≠ 0 ∧
     sl1Dev.wallState ≠ 3 ∧ (on 3).wallState = 3 ∧ ({ on 3 with power := { windows := [win0] } } : Dev).power.windows ≠ [] ∧
     ({ on 3 with power := { windows := [win0] } } : Dev).windowNow.isSome = true) := by decide +kernel

theorem test_witness_LeasesAndTrades_trades :
    (let d := tradeDev
     let lend := ((List.range 16).foldl (fun (d : Dev) o => d.p Reg.MODEL_PMEAN (100 * o) o) d).p Reg.LEASE_USER_CAP_OP 15
     let borrow := ((List.range 16).foldl (fun (d : Dev) o => d.p Reg.MODEL_PMEAN (60 * o + 300) o) d).p Reg.PLAN_RB_FIT_OP 12
     let borrow := { borrow.p Reg.LEASE_USER_CAP_OP 15 with power := { windows := [win0] } }
     sl1Dev.tradeWindow = none ∧ sl1Dev.level ≠ 0 ∧ d.level ≠ 0 ∧ d.tradeWindow = some win0 ∧ (d.p Reg.TRADE_LEND_EN 0).g Reg.TRADE_LEND_EN = 0 ∧
     (d.p Reg.TRADE_LENT_W 10).lent ≠ 0 ∧ lend.tradeWindow = some win0 ∧ lend.level ≠ 0 ∧ lend.g Reg.TRADE_LEND_EN ≠ 0 ∧ lend.lent = 0 ∧
     lend.g Reg.PLAN_RB_FIT_OP < lend.plainOp ∧
     10 ≤ min ((10 * win0.avg - lend.fitTenths - 10 * lend.g Reg.TRADE_KEEP_W) / 100 * 10) (win0.lend / 10 * 10) ∧
     borrow.tradeWindow = some win0 ∧ borrow.level ≠ 0 ∧ borrow.g Reg.TRADE_BORROW_EN ≠ 0 ∧ borrow.plainOp < borrow.g Reg.PLAN_RB_FIT_OP ∧
     min ((borrow.fitTenths - 10 * win0.avg - 10 * borrow.borrowed + 99) / 100 * 10) ((win0.borrow - borrow.borrowed) / 10 * 10) ≠ 0 ∧
     borrow.power.need = none ∧ borrow.power.refusedAt = none ∧ sl1Dev.power.lentAt = none ∧
     ({ d with power := { d.power with need := some 4 } } : Dev).power.need.isSome = true ∧
     ({ d with power := { d.power with lentAt := some 5 } } : Dev).windowNow = some win0) := by decide +kernel

theorem test_witness_LeasesAndTrades_messages :
    let d := tradeDev
    let b := { ((d.p Reg.LEASE_BROKER 5).p Reg.TRADE_POOL_LEFT_W 100) with power := { d.power with need := some 8 } }
    let none' := b.p Reg.TRADE_POOL_LEFT_W 0
    let sh := fun (op : Nat) => shuttleOf 4 5 (tradePayload op 3 0 20 8 9 5)
    let far := shuttleOf 4 9 []
    (shuttleOf 3 5 []).kind.toNat ≠ 4 ∧ upDev.portTakes 0 = false ∧ d.portTakes 0 = true ∧ b.portTakes 0 = true ∧ b.selfAddr = 5 ∧
    far.kind.toNat = 4 ∧ crc32 (shCovered far) = far.crc.toNat ∧ far.dst.toNat ≠ d.selfAddr ∧
    (∀ op ∈ [1, 2, 3, 4], (sh op).kind.toNat = 4 ∧ crc32 (shCovered (sh op)) = (sh op).crc.toNat ∧ (sh op).dst.toNat = d.selfAddr ∧
      tradeOk (sh op).payload op = true ∧ tradeOk (sh op).payload (op + 1) = false) ∧
    d.brokerFor 3 0 = none ∧ b.brokerFor 3 0 = some win0 ∧ min (fld (sh 1).payload 8 2) (b.g Reg.TRADE_POOL_LEFT_W) ≠ 0 ∧ ms 1000 < b.winLeft win0 ∧
    none'.brokerFor 3 0 = some win0 ∧ min (fld (sh 1).payload 8 2) (none'.g Reg.TRADE_POOL_LEFT_W) = 0 ∧
    b.windowNow = some win0 ∧ win0.start = fld (sh 3).payload 4 4 ∧
    fld (sh 3).payload 0x14 4 = b.selfAddr ∧ b.power.need = some (fld (sh 3).payload 0xC 4) ∧ ms 1000 ≤ b.winLeft win0 ∧
    d.power.need ≠ some (fld (sh 3).payload 0xC 4) := by decide +kernel

/-! ## Keeper -/

/-- A key block of a kind: its first word and a key of ones. -/
def keyDev (word0 word1 : Nat) : Dev :=
  (List.range 8).foldl (fun (d : Dev) i => d.p Reg.FUSE_KEYS_KEY_BLOCK 0x01010101 (4 + i)) ((sl1Dev.p Reg.FUSE_KEYS_KEY_BLOCK word0).p
    Reg.FUSE_KEYS_KEY_BLOCK word1 1)

theorem test_witness_Keeper_keys :
    ((st sl1Dev).accepts (.host true) pgFuseKeys 0x088 true ∧ sl1Dev.refusesWork pgFuseKeys = false ∧
     (sl1Dev.p Reg.FUSE_KEYS_FW_CONFIRMED 1).g Reg.FUSE_KEYS_FW_CONFIRMED = 1 ∧ (sl1Dev.p Reg.FUSE_KEYS_FW_CONFIRMED 0).g Reg.FUSE_KEYS_FW_CONFIRMED ≠ 1) ∧
    (let full := { keyDev 5 0 with sec := { leaseKey := some [1], resetKey := some [2], cak := some ([3], [4]) } }
     let full := (List.range 8).foldl (fun (d : Dev) i => d.p Reg.FUSE_KEYS_KEY_BLOCK 0 (4 + i)) full
     let watts := ((List.range 8).foldl (fun (d : Dev) i => d.p Reg.FUSE_KEYS_KEY_BLOCK 0 (4 + i)) (keyDev 4 0)).p Reg.FUSE_KEYS_KEY_BLOCK
       (upDev.g Reg.SIZE_TABLE_ST_SHELF_MAX_W) 4
     (∀ k ∈ [1, 2, 3, 4, 5], fld (keyDev 0 0).keyBlock 0 1 % 16 ≠ k ∧ fld (keyDev k 1).keyBlock 0 1 % 16 = k ∧ (keyDev k 1).keyCode (keyDev k 1).keyBlock ≠ 0) ∧
     (∀ k ∈ [1, 2, 3], fld (keyDev k 0).keyBlock 0 1 % 16 = k ∧ (keyDev k 0).keyCode (keyDev k 0).keyBlock = 0) ∧
     fld watts.keyBlock 0 1 % 16 = 4 ∧ watts.keyCode watts.keyBlock = 0 ∧ fld full.keyBlock 0 1 % 16 = 5 ∧ full.keyCode full.keyBlock = 0 ∧
     sl1Dev.g Reg.FUSE_KEYS_PROV_LOCK ≠ 1) := by decide +kernel

theorem test_witness_Keeper_signing :
    (let n := fun (d : Dev) => (d.sec.quotes.filter fun t => decide (d.now < t + ms 3600000)).length
     let many := { sl1Dev with sec := { quotes := List.replicate (upDev.g Reg.ATTEST_RATE) 0 } }
     let busy : Dev := { sl1Dev with sec := { nonce := some [] } }
     let warned : Dev := { sl1Dev with sec := { budgetAt := some 0 } }
     upDev.level = 0 ∧ sl1Dev.level ≠ 0 ∧ (st sl1Dev).accepts (.host true) pgAttest 0x0A0 true ∧ sl1Dev.refusesWork pgAttest = false ∧
     many.g Reg.ATTEST_RATE ≤ n many ∧ n sl1Dev < sl1Dev.g Reg.ATTEST_RATE ∧
     (sl1Dev.p Reg.IDENT_REMAINING 8192).g Reg.IDENT_REMAINING ≤ 8192 ∧ 8192 < sl1Dev.g Reg.IDENT_REMAINING ∧ busy.sec.nonce ≠ none ∧ n busy < busy.g Reg.ATTEST_RATE ∧
     8192 < busy.g Reg.IDENT_REMAINING ∧
     sl1Dev.sec.nonce = none ∧ 65536 < sl1Dev.g Reg.IDENT_REMAINING ∧ (sl1Dev.p Reg.IDENT_REMAINING 65536).g Reg.IDENT_REMAINING ≤ 65536 ∧
     sl1Dev.sec.budgetAt = none ∧ warned.sec.budgetAt = some 0 ∧ warned.now < 0 + ms 86400000) ∧
    (let d := { (sl1Dev.p Reg.ENERGY_REC_FETCH_SEQ_LO 7).p Reg.ENERGY_REC_OLDEST_LO 7 |>.p Reg.ENERGY_REC_SEQ_LO 7 with sec := { records := [(7, [1])] } }
     (st sl1Dev).accepts (.host true) pgEnergyRec 0x0C0 true ∧ sl1Dev.refusesWork pgEnergyRec = false ∧ sl1Dev.sec.records = [] ∧
     (st d).accepts (.host true) pgEnergyRec 0x0C0 true ∧ d.refusesWork pgEnergyRec = false ∧
     d.g64 Reg.ENERGY_REC_FETCH_SEQ_LO Reg.ENERGY_REC_FETCH_SEQ_HI = 7 ∧ d.g64 Reg.ENERGY_REC_OLDEST_LO Reg.ENERGY_REC_OLDEST_HI = 7 ∧
     d.g64 Reg.ENERGY_REC_SEQ_LO Reg.ENERGY_REC_SEQ_HI = 7 ∧ d.sec.records = [(7, [1])] ∧ d.sec.blocks = []) := by decide +kernel


/-! ## Save points and restores -/

/-- That member with a transfer, in the slack window, its port 0 in service under a route table. -/
def savingDev (t : Transfer) : Dev := { (routed 0).p Reg.BEAT_CFG_PHASE 2400 with recov := { transfers := [t] } }
/-- The same with a weight tensor in place of the gradient, its flow gathered into the attic from its start. -/
def gatheringDev (t : Transfer) : Dev :=
  { savingDev t with plan := { planDev.plan with draft := bytesWith 320 (draftFields ++ [(195, 1, 0)]) }, route := { live := bytesWith 112 (routeFields 0 ++ [(0x54, 4, 0x1000000), (0x58, 4, 0)]) } }
def transfer (use next piece : Nat) : Transfer := { dst := 9, use := use, step := 0, next := next, piece := piece }
def drainShuttle (use part piece step : Nat) : Shuttle := shSealed (mkShuttle 5 5 9 part piece 128 step use [])
def answerShuttle (op part : Nat) : Shuttle :=
  shSealed (mkShuttle 6 5 9 0 0 0 0 0 (natLe 4 op ++ natLe 4 part ++ natLe 4 0 ++ natLe 8 0 ++ List.replicate 44 0))

theorem test_witness_SavePoints :
    (let d := savingDev (transfer 2 1 1)
     let ps := d.partsOf (d.transferMember (transfer 2 1 1))
     let g := gatheringDev (transfer 0 0 0)
     let gps := g.partsOf (g.transferMember (transfer 0 0 0))
     let again := { transfer 2 1 0 with again := [(1, 0)] }
     let lost := { transfer 2 2 0 with sentParts := [1] }
     planDev.slackOpen = false ∧ d.slackOpen = true ∧ (d.recov.transfers.find? fun t => t.use == 1 && ! t.bad) = none ∧
     (d.recov.transfers.find? fun t => t.use == 2 && ! t.bad) = some (transfer 2 1 1) ∧ (transfer 2 1 1).again = [] ∧ 1 < ps.length ∧
     (2 : Nat) ≠ 0 ∧ ps.length = 2 ∧ (transfer 2 2 0).sentParts = [] ∧ (transfer 2 3 0).next = ps.length + 1 ∧
     ((savingDev again).recov.transfers.find? fun t => t.use == 2 && ! t.bad) = some again ∧ lost.next = ps.length ∧ lost.again = [] ∧
     1 ∈ lost.sentParts ∧ 1 ∉ lost.acked ∧
     ((savingDev lost).recov.transfers.find? fun t => t.use == 2 && ! t.bad) = some lost ∧ g.slackOpen = true ∧ 0 < gps.length ∧ (transfer 0 0 0).use = 0 ∧
     (gps.getD 0 (0, 0, 0, 0)).1 = 0 ∧ g.gathered 9 (atticAt gps 0) (partLen (gps.getD 0 (0, 0, 0, 0))) = true) := by decide +kernel

theorem test_witness_SavePoints_pieces :
    (let d := savingDev (transfer 0 0 0)
     let on := { d with recov := { d.recov with gotStep := [(1, 4), (2, 4)] } }
     let away := shSealed (mkShuttle 5 9 9 1 0 128 0 0 [])
     (∀ u ∈ [0, 1, 2], (drainShuttle u 1 0 0).kind.toNat = 5 ∧ d.portTakes 0 = true ∧
       crc32 (shCovered (drainShuttle u 1 0 0)) = (drainShuttle u 1 0 0).crc.toNat ∧ (drainShuttle u 1 0 0).dst.toNat = d.selfAddr ∧
       (drainShuttle u 1 0 0).start.toNat = u ∧ (d.recvMember u).isSome = true ∧ (drainShuttle u 1 0 0).step.toNat = d.expected u 0 ∧
       (drainShuttle u 1 0 5).step.toNat ≠ on.expected u 5 ∧ (∀ m ∈ (d.recvMember u).toList, 1 < (d.partsOf m).length ∧
         0 < piecesOf (partLen ((d.partsOf m).getD 1 (0, 0, 0, 0))))) ∧
     away.kind.toNat = 5 ∧ crc32 (shCovered away) = away.crc.toNat ∧ away.dst.toNat ≠ d.selfAddr ∧ planDev.portTakes 0 = false ∧
     ({ d with plan := { d.plan with draft := [] } } : Dev).recvMember 0 = none ∧
     ({ d with plan := { d.plan with draft := [] } } : Dev).portTakes 0 = true ∧ (drainShuttle 3 1 0 0).start.toNat = 3 ∧
     d.g Reg.PARTNER_ATTIC_STATE ≠ 2 ∧ (d.p Reg.PARTNER_ATTIC_STATE 2).g Reg.PARTNER_ATTIC_STATE = 2 ∧
     (d.p Reg.PARTNER_ATTIC_STATE 2).g64 Reg.PARTNER_ATTIC_STEP_LO Reg.PARTNER_ATTIC_STEP_HI = d.stepNo - 1 ∧ (1 : Nat) ≠ manifestNo ∧
     (answerShuttle 1 1).kind.toNat ≠ 5 ∧ (drainShuttle 0 1 0 0).kind.toNat ≠ 6) := by decide +kernel

theorem test_witness_SavePoints_answers :
    (let d := savingDev (transfer 0 0 0)
     let away := shSealed (mkShuttle 6 9 9 0 0 0 0 0 [])
     (∀ op ∈ [1, 2, 3, 4], (answerShuttle op 1).kind.toNat = 6 ∧ crc32 (shCovered (answerShuttle op 1)) = (answerShuttle op 1).crc.toNat ∧
       (answerShuttle op 1).dst.toNat = d.selfAddr ∧ fld (answerShuttle op 1).payload 0 4 = op ∧
       (d.recov.transfers.find? fun t => t.dst == (answerShuttle op 1).src.toNat && t.step == fld (answerShuttle op 1).payload 0xC 8) =
         some (transfer 0 0 0) ∧ (planDev.recov.transfers.find? fun t => t.dst == 9 && t.step == 0) = none) ∧
     away.kind.toNat = 6 ∧ crc32 (shCovered away) = away.crc.toNat ∧ away.dst.toNat ≠ d.selfAddr ∧ fld (answerShuttle 2 1).payload 4 4 = 1 ∧
     SMap.at (transfer 0 0 0).tries 1 0 < 3 ∧ 3 ≤ SMap.at ({ transfer 0 0 0 with tries := [(1, 3)] } : Transfer).tries 1 0) ∧
    (let on := fun (g : List (Nat × Nat × Nat)) => { planDev with recov := { got := g } }
     let d := { planDev with recov := { transfers := [{ transfer 0 2 0 with waits := [(1, 0)] }] } }
     let late := d.p Reg.BEAT_CFG_BEAT_NUM_LO (d.g Reg.PARTNER_RETRY_BEATS)
     upDev.recvMember 0 = none ∧ planDev.recvMember 0 = some 1 ∧ piecesOf (partLen ((planDev.partsOf 1).getD 1 (0, 0, 0, 0))) = 129 ∧
     piecesOf (manifestLen (planDev.partsOf 1)) = 1 ∧ (on []).recov.got.contains (0, 1, 128) = false ∧
     (on [(0, 1, 128)]).recov.got.contains (0, 1, 128) = true ∧ (on [(0, 1, 128)]).recov.got.contains (0, 1, 0) = false ∧
     (∀ j, j < 129 → (on ((List.range 129).map fun k => (0, 1, k))).recov.got.contains (0, 1, j) = true) ∧
     (on [(0, manifestNo, 0)]).recov.got.contains (0, manifestNo, 0) = true ∧ (0xFFFFFF : BitVec 24).toNat = manifestNo ∧
     (d.recov.transfers.find? fun t => t.use == 0) = some { transfer 0 2 0 with waits := [(1, 0)] } ∧
     (d.recov.transfers.find? fun t => t.use == 1) = none ∧ (([(1, 0)] : List (Nat × Nat)).find? fun w => w.1 == 2) = none ∧
     d.g Reg.PARTNER_RETRY_BEATS ≠ 0 ∧
     d.beatNum < 0 + d.g Reg.PARTNER_RETRY_BEATS ∧ 0 + late.g Reg.PARTNER_RETRY_BEATS ≤ late.beatNum) := by decide +kernel

/-- That member with a DRAIN channel, an external drain in progress, in the slack window. -/
def drainingDev (x : ExtDrain) (inbox : List (List Byte)) : Dev :=
  let d := sessDev session [chan Kd.drain 0 inbox]
  { (d.p Reg.DRAFT_SELF_ADDR 5).p Reg.BEAT_CFG_PHASE 2400 with plan := planDev.plan, recov := { ext := some x } }
def drainHandle : Nat := Kd.drain * 2 ^ 28 + 1
def ackMsg (part : Nat) : List Byte := natLe 4 3 ++ natLe 4 part ++ natLe 8 0 ++ natLe 16 0
def ledgerMsg : List Byte := natLe 4 6 ++ natLe 28 0 ++ natLe 32 5
def dataMsg (part n : Nat) : List Byte := natLe 4 5 ++ natLe 4 part ++ natLe 8 0 ++ natLe 4 0 ++ natLe 4 n ++ natLe 8 0 ++ List.replicate n 0

theorem test_witness_DrainsAndRestores_send :
    (let d := drainingDev { step := 0 } []
     let ps := d.partsOf (d.self.getD 0)
     let front : Chan := { chan Kd.drain 0 [] with handle := drainHandle + 1, port := 0 }
     let two := { d with host := { d.host with chans := [chan Kd.drain 0 [], front] } }
     let none' := { d with recov := {} }
     let x : ExtDrain := { step := 0, active := [(drainHandle, 0, 65536)] }
     let y : ExtDrain := { step := 0, next := 2, active := [(drainHandle + 1, 0, 65536)] }
     let z : ExtDrain := { step := 0, next := 2, manifestSent := true }
     planDev.slackOpen = false ∧ none'.recov.ext = none ∧ d.chan 1 = none ∧ kindOf 1 ≠ Kd.drain ∧ d.slackOpen = true ∧
     d.chan drainHandle = some (chan Kd.drain 0 []) ∧ d.recov.ext = some { step := 0 } ∧ kindOf drainHandle = Kd.drain ∧
     d.drainServes (chan Kd.drain 0 []) = true ∧ two.drainServes (chan Kd.drain 0 []) = false ∧ two.chan drainHandle = some (chan Kd.drain 0 []) ∧
     two.recov.ext = some { step := 0 } ∧ two.slackOpen = true ∧ (x.active.find? fun a => a.1 == drainHandle) = some (drainHandle, 0, 65536) ∧
     (y.active.find? fun a => a.1 == drainHandle) = none ∧ y.active ≠ [] ∧ ps.length ≤ y.next ∧ z.manifestSent = true ∧ z.active = [] ∧
     (z.active.find? fun a => a.1 == drainHandle) = none ∧ ps.length ≤ z.next ∧ ({ z with manifestSent := false } : ExtDrain).manifestSent = false ∧
     ps.length ≤ 2 ∧ 0 < ps.length) := by decide +kernel

theorem test_witness_DrainsAndRestores_messages :
    (let on := fun (x : ExtDrain) (m : List Byte) => (drainingDev x [m]).takeMessage drainHandle Kd.drain
     let sent : ExtDrain := { step := 0, next := 2, manifestSent := true }
     let fetching := fun (f : Option (Nat × Nat)) (m : List Byte) =>
       ({ drainingDev sent [m] with recov := { fetch := f } } : Dev).takeMessage drainHandle Kd.drain
     planDev.takeMessage drainHandle Kd.drain = none ∧
     ((on sent (ackMsg 0xFFFFFFFF)).map fun x => (x.2.1, x.2.2.recov.ext)) = some (ackMsg 0xFFFFFFFF, some sent) ∧
     ((on sent (ackMsg 1)).map fun x => (x.2.1, x.2.2.recov.ext)) = some (ackMsg 1, some sent) ∧
     ((fetching none (ackMsg 1)).map fun x => (x.2.2.recov.ext, x.2.2.recov.fetch)) = some (none, none) ∧
     fld (ackMsg 1) 0 4 = 3 ∧ fld (ackMsg 1) 8 8 = sent.step ∧ (ackMsg 1).length = 32 ∧ fld (ackMsg 1) 4 4 = 1 ∧ 1 < sent.next ∧ 1 ∉ sent.acked ∧
     (1 : Nat) ≠ 0xFFFFFFFF ∧ fld (ackMsg 0xFFFFFFFF) 0 4 = 3 ∧ fld (ackMsg 0xFFFFFFFF) 8 8 = sent.step ∧ (ackMsg 0xFFFFFFFF).length = 32 ∧
     fld (ackMsg 0xFFFFFFFF) 4 4 = 0xFFFFFFFF ∧ sent.manifestSent = true ∧ fld ledgerMsg 0 4 ≠ 3 ∧
     ((on sent ledgerMsg).map fun x => (x.2.1, x.2.2.recov.ext)) = some (ledgerMsg, some sent) ∧ fld ledgerMsg 0 4 = 6 ∧ ledgerMsg.length = 64) := by decide +kernel

theorem test_witness_DrainsAndRestores_fetch :
    (let fetching := fun (f : Option (Nat × Nat)) (m : List Byte) =>
       ({ drainingDev { step := 0 } [m] with recov := { fetch := f } } : Dev).takeMessage drainHandle Kd.drain
     ((fetching (some (2, 0)) (dataMsg 0xFFFFFFFF 160)).map (·.2.1)) = some (dataMsg 0xFFFFFFFF 160) ∧
     ((fetching (some (2, 0)) (dataMsg 0xFFFFFFFF 160)).map fun x => (x.2.2.recov.fetch, x.2.2.self)) = some (some (2, 0), some 0) ∧
     (planDev.partsOf 0).length = 2 ∧ manifestLen (planDev.partsOf 0) = 160 ∧ fld (dataMsg 0xFFFFFFFF 160) 0 4 = 5 ∧
     fld (dataMsg 0xFFFFFFFF 160) 4 4 = 0xFFFFFFFF ∧ fld (dataMsg 0xFFFFFFFF 160) 0x10 4 = 0 ∧ fld (dataMsg 0xFFFFFFFF 160) 0x14 4 = 160 ∧
     (dataMsg 0xFFFFFFFF 160).length = 32 + 160 ∧ 160 = min 65536 (160 - 0) ∧ 160 ≤ 0 + 160 ∧ fld ledgerMsg 0 4 ≠ 5 ∧
     ((fetching (some (2, 0)) ledgerMsg).map (·.2.1)) = some ledgerMsg ∧
     ((fetching (some (2, 0)) ledgerMsg).map fun x => (x.2.2.recov.fetch, x.2.2.self)) = some (some (2, 0), some 0)) := by
  decide +kernel

theorem test_witness_DrainsAndRestores_data :
    (let d := { drainingDev { step := 0 } [dataMsg 0 65536] with recov := { fetch := some (0, 0) } }
     ((d.takeMessage drainHandle Kd.drain).map fun x => (x.2.2.recov.fetch, x.2.2.self)) = some (some (0, 0), some 0) ∧
     0 < (d.partsOf 0).length ∧ fld (dataMsg 0 65536) 0 4 = 5 ∧ fld (dataMsg 0 65536) 4 4 = 0 ∧ fld (dataMsg 0 65536) 0x10 4 = 0 ∧
     fld (dataMsg 0 65536) 0x14 4 = 65536 ∧ 0 + 65536 < partLen ((d.partsOf 0).getD 0 (0, 0, 0, 0)) ∧
     65536 = min 65536 (partLen ((d.partsOf 0).getD 0 (0, 0, 0, 0)) - 0)) ∧ (dataMsg 0 65536).length = 32 + 65536 := by
  refine ⟨by decide +kernel, ?_⟩
  simp only [dataMsg, List.length_append, List.length_replicate]
  decide +kernel

/-- A package outside the plan's members, its one spare, whose list of failed packages names 9; and the store that holds that list. -/
def spareDev : Dev :=
  let d := { planDev with plan := { planDev.plan with draft := bytesWith 320 (draftFields ++ [(0x20, 3, 1), (0x44, 4, 136), (136, 4, 6)]) } }
  ((d.p Reg.DRAFT_SELF_ADDR 6).p Reg.RESTORE_EPOCH 1).p Reg.RESTORE_LIST_COUNT 1
def spareMem : Mem := Mem.writeAll [] ((spareDev.srcAddr 2 0).getD 0) (natLe 4 9)

theorem test_witness_DrainsAndRestores_start :
    (let d := planDev.p Reg.RESTORE_EPOCH 1
     planDev.g Reg.RESTORE_EPOCH = planDev.recov.epoch ∧ d.g Reg.RESTORE_EPOCH ≠ d.recov.epoch ∧ d.plan.draft ≠ [] ∧ d.g Reg.RESTORE_LIST_COUNT = 0 ∧
     d.self = some 0 ∧ d.g Reg.RESTORE_SOURCE = 0 ∧ (d.p Reg.RESTORE_SOURCE 1).g Reg.RESTORE_SOURCE = 1 ∧ (d.restoreStart []).self = d.self ∧
     ((d.p Reg.RESTORE_SOURCE 1).restoreStart []).self = d.self) ∧
    spareDev.g Reg.RESTORE_EPOCH ≠ spareDev.recov.epoch ∧ spareDev.plan.draft ≠ [] ∧ spareDev.self = none ∧
    (spareDev.restoreStart spareMem).self = some 1 := by decide +kernel

/-- A draft of package 5 alone, without tensors; SHAKE256 of its bytes, of no bytes, and of the manifest below. -/
def bareDraft : List Byte := bytesWith 132 [(0, 4, 0x4E584446), (0x18, 2, 1), (0x1A, 2, 1), (0x1C, 2, 1), (0x40, 4, 128), (128, 4, 5)]
def draftDigest : List Byte := [165, 189, 125, 19, 128, 203, 98, 212, 36, 151, 17, 222, 130, 236, 22, 130, 219, 61, 167, 9, 206, 131, 51,
  190, 44, 16, 67, 234, 170, 29, 141, 170]
def emptyDigest : List Byte := [70, 185, 221, 43, 11, 168, 141, 19, 35, 59, 63, 235, 116, 62, 235, 36, 63, 205, 82, 234, 98, 184, 27, 130, 181, 12, 39,
  100, 110, 213, 118, 47]
def aDigest : List Byte := [248, 215, 148, 196, 152, 103, 91, 36, 9, 149, 88, 143, 40, 28, 131, 200, 101, 119, 172, 116, 92, 54, 28, 101,
  11, 89, 25, 65, 104, 31, 51, 26]
/-- The manifest of the save point of step 0 of that package: its one part is the numeric state. -/
def aManifest : List Byte :=
  natLe 4 0x4E58434D ++ natLe 4 0x10000 ++ natLe 8 0 ++ natLe 4 0 ++ natLe 4 1 ++ natLe 8 1 ++ draftDigest ++ natLe 4 5 ++ natLe 4 0 ++ natLe 4 0 ++
    natLe 4 524480 ++ emptyDigest
/-- That member restores from outside, with a manifest received. -/
def acceptingDev (man : List Byte) : Dev :=
  (List.range 8).foldl (fun d i => d.p Reg.RESTORE_MANIFEST_DIGEST (fld aDigest (4 * i) 4) i)
    { (planDev.p Reg.RESTORE_STATE 1).p Reg.RESTORE_SOURCE 1 with
      recov := { held := [(manifestNo, man)] }, plan := { planDev.plan with draft := bareDraft } }

theorem test_witness_DrainsAndRestores_accept :
    (let a := acceptingDev []
     upDev.self = none ∧ planDev.g Reg.RESTORE_STATE ≠ 1 ∧ planDev.g Reg.RESTORE_STATE ≠ 2 ∧ a.self = some 0 ∧ a.g Reg.RESTORE_STATE = 1 ∧
     a.g Reg.RESTORE_SOURCE = 1 ∧ a.recov.fetch = none ∧ (SMap.find a.recov.held manifestNo).isSome = true ∧
     (SMap.find ({ a with recov := {} } : Dev).recov.held manifestNo).isSome = false ∧
     a.badPart [] 0 (a.partsOf 0) (fun i => SMap.at a.recov.held (if i < (a.partsOf 0).length then i else manifestNo) []) = some 0xFFFFFFFF) ∧
    (let a := acceptingDev aManifest
     a.self = some 0 ∧ a.g Reg.RESTORE_STATE = 1 ∧ a.g Reg.RESTORE_SOURCE = 1 ∧ a.recov.fetch = none ∧ (a.partsOf 0).length = 1 ∧
     ((List.range 8).flatMap fun i => natLe 4 (a.g Reg.RESTORE_MANIFEST_DIGEST i)) = aDigest ∧
     ((List.range 8).flatMap fun i => natLe 4 ((a.p Reg.RESTORE_MANIFEST_DIGEST 0).g Reg.RESTORE_MANIFEST_DIGEST i)) ≠ aDigest) := by decide +kernel

theorem test_witness_DrainsAndRestores_manifest : shake256 aManifest = aDigest := by decide +kernel

theorem test_witness_DrainsAndRestores_draft_digest : shake256 bareDraft = draftDigest := by decide +kernel

theorem test_witness_DrainsAndRestores_empty_digest : shake256 [] = emptyDigest := by decide +kernel

theorem test_witness_DrainsAndRestores_parts :
    (let a := acceptingDev aManifest
     a.badPart aManifest 0 (a.partsOf 0) (fun i => SMap.at a.recov.held (if i < (a.partsOf 0).length then i else manifestNo) []) = none) := by
  have hp : (acceptingDev aManifest).partsOf 0 = [(5, 0, 0, 524480)] := by decide +kernel
  have hd : (acceptingDev aManifest).plan.draft = bareDraft := rfl
  have hr : SMap.at (acceptingDev aManifest).recov.held 0 [] = [] := by decide +kernel
  simp only [hp, Dev.badPart, hd, test_witness_DrainsAndRestores_draft_digest, List.zipIdx, List.find?,
    List.length_singleton, Nat.zero_lt_one, if_true, hr, test_witness_DrainsAndRestores_empty_digest]
  decide +kernel

/-! ## Resets and bring-up -/

theorem test_witness_Resets :
    (let on := fun (r : RstSt) => upDev.setRst r
     let r : RstSt := { upDev.rst with held := true, low := false, power := true, refclk := true, trip := false }
     let free := fun (x : RstSt) => x.held = true ∧ x.power = true ∧ x.low = false ∧ x.refclk = true ∧ x.trip = false
     let low := on { r with low := true }
     let noPower := on { r with power := false }
     upDev.rst.trip = false ∧ (on { r with trip := true }).rst.trip = true ∧ upDev.rst.power = true ∧ (! upDev.rst.low) = true ∧
     noPower.rst.power = false ∧ free { noPower.rst with power := true } ∧ (! low.rst.low) = false ∧ free { low.rst with low := false } ∧
     (on { r with power := false, low := true }).rst.power = false ∧ (on { r with power := false, low := true }).rst.low = true ∧
     ¬ free { r with power := true, low := true } ∧ ¬ free { r with power := false, low := false } ∧
     low.sec.images = [] ∧ low.sec.confirmed = 0 ∧ low.g Reg.FUSE_KEYS_FW_PENDING = 0 ∧ upDev.rst.held = false ∧
     keptKey (Reg.FUSE_KEYS_SVN.key pgFuseKeys 0) = true ∧
     Reg.FUSE_KEYS_SVN.key pgFuseKeys 0 ∉ fieldKeys 0 [Reg.LEASE_B_EFF, Reg.LEASE_P_EFF]) := by decide +kernel

theorem test_witness_Resets_requests :
    (let w : Nat := 0xA5C30011
     let due : ResetReq := ⟨1, 1024, 6, 9⟩
     let d := upDev.setRst { upDev.rst with due := [due, ⟨0, 0, 6, 9⟩] }
     let e := (d.setRst { d.rst with due := d.rst.due.erase due }).passTo 9
     up.accepts pm pgRstSrc 0x084 true ∧ bits 0 16 16 ≠ 0xA5C3 ∧ bits w 16 16 = 0xA5C3 ∧ domOk (bits w 0 4) (bits w 4 12) = false ∧
     domOk (bits 0xA5C34001 0 4) (bits 0xA5C34001 4 12) = true ∧ (upDev.rst.due.find? fun x => x.dom == 1 && x.inst == 1024) = none ∧
     (d.rst.due.find? fun x => x.dom == 1 && x.inst == 1024) = some due ∧ (d.rst.due.find? fun x => x.dom == 0 && x.inst == 0) = some ⟨0, 0, 6, 9⟩ ∧
     ((d.setRst { d.rst with held := true }).passTo 9).rst.held = true ∧ domOk 1 1024 = true ∧ e.rst.drain = [] ∧ e.rst.held = false ∧
     e.rst.runsTo ≤ e.now ∧ ¬ (1 = 1 ∧ 1024 = e.managerDie)) := by decide +kernel

theorem test_witness_ManagersAndPins :
    (let d := upDev.p Reg.BRINGUP_LEVEL 1
     let s := d.p Reg.BRINGUP_STANDBY_OK 1
     State.reset.dev.rst.held = true ∧ upDev.level = 0 ∧ d.rst.held = false ∧ d.level ≠ 0 ∧ d.standbyReady = false ∧ s.rst.held = false ∧ s.level ≠ 0 ∧
     s.standbyReady = true ∧ d.rst.power = true ∧ d.rst.low = false ∧ d.rst.refclk = true ∧ d.rst.trip = false ∧ d.rst.cause = 0 ∧
     256 ∈ s.inRegions ∧ dieOut upDev.faults 1024 = false ∧ dieOut [(4, 1024)] 1024 = true ∧
     (upDev.setRst { upDev.rst with power := false }).rst.power = false ∧ (upDev.setRst { upDev.rst with trip := true }).rst.trip = true ∧
     upDev.rst.sensed = false ∧ (upDev.setRst { upDev.rst with sensed := true, pinFuses := [(Pin.fuse .tck, 1)] }).pinFuse .tck = 1) := by
  decide +kernel

theorem test_witness_BringUp :
    (let on := fun (n : Nat) => upDev.p Reg.BRINGUP_LEVEL n
     let l1 := ((on 1).p Reg.BRINGUP_REGION_DONE 0xFFFF)
     let l2 := ((on 2).p Reg.BRINGUP_REGION_DONE 0xFFFF).p Reg.BRINGUP_STACK_READY 255
     let halted := l1.p Reg.BRINGUP_HALTED 1
     State.reset.dev.rst.held = true ∧ (on 1).level ≠ 0 ∧ upDev.rst.held = false ∧ upDev.rst.booted = true ∧ upDev.level = 0 ∧ upDev.level ≠ 1 ∧
     upDev.level ≠ 2 ∧ l1.level = 1 ∧ l1.stopped = false ∧ halted.stopped = true ∧
     (∀ die ∈ l1.inDies, bit (l1.g Reg.BRINGUP_REGION_DONE) (l1.sl2Region die / 256) = true) ∧ l2.level = 2 ∧ l2.stopped = false ∧
     0 ∈ (on 1).inDies ∧ bit ((on 1).g Reg.BRINGUP_REGION_DONE) ((on 1).sl2Region 0 / 256) = false ∧ regionOut (on 1).faults 0 = false ∧
     (∀ k, k < 8 → stackOut l2.faults k = true ∨ bit (l2.g Reg.BRINGUP_STACK_READY) k = true) ∧
     stackOut (on 2).faults 0 = false ∧ bit ((on 2).g Reg.BRINGUP_STACK_READY) 0 = false ∧
     (∀ r ∈ l2.inRegions, bit (l2.g Reg.BRINGUP_REGION_DONE) (r / 256) = true) ∧ (∀ p, p < 32 → l2.phy p ≠ 2) ∧
     up.accepts pm pgBringup 0x080 true ∧ (st halted).accepts pm pgBringup 0x080 true ∧ (st l1).accepts pm pgBringup 0x080 true ∧
     (l1.level = 1 ∧ (1 : BitVec 2) = 1) ∧ ¬ ((upDev.level = 1 ∧ (1 : BitVec 2) = 1) ∨ (upDev.level = 2 ∧ (1 : BitVec 2) ≠ 3))) := by decide +kernel

theorem test_witness_BringUp_tests :
    (let d := { (upDev.p Reg.BRINGUP_LEVEL 1) with plan := planDev.plan }
     let r := d.sl2Region 0
     let s := d.wr Reg.HBM_CTL_STATE (hbmInst 1) 1
     let t := s.setRst { s.rst with tries := [(1, 2)] }
     (upDev.endOfResets (scopePages 3 256)).testDue 3 256 = false ∧ (d.endOfResets (scopePages 3 r)).testDue 3 r = true ∧ d.rst.held = false ∧
     r < 4096 ∧ (faultPages (3, r)).headD 0 ∈ scopePages 3 r ∧ d.plan.live ≠ none ∧ d.rd Reg.HBM_CTL_STATE (hbmInst 1) ≠ 1 ∧
     s.rd Reg.HBM_CTL_STATE (hbmInst 1) = 1 ∧ SMap.at s.rst.tries 1 0 < 2 ∧ 2 ≤ SMap.at t.rst.tries 1 0 ∧ t.rd Reg.HBM_CTL_STATE (hbmInst 1) = 1) := by
  decide +kernel

theorem test_witness_SelvedgeAndTestPort :
    (let key := resendKey 1 false 2 0
     let sus := upDev.setRst { upDev.rst with drain := [⟨1, 1024, 6, 9⟩] }
     let d := upDev.setRst { upDev.rst with resends := [(key, 3)] }
     State.reset.dev.rst.held = true ∧ (upDev.setRst { upDev.rst with edges := [1] }).rst.edges.contains 1 = true ∧ upDev.rst.held = false ∧
     upDev.rst.edges.contains 1 = false ∧ upDev.edgeAhead (edgeFrom 1 false) 2 = (1, false) ∧ upDev.edgeAhead (edgeFrom 1 false) 0 ≠ (1, false) ∧
     upDev.edgeAhead (edgeFrom 1 false) 3 = (1, false) ∧ upDev.edgeSuspended 1 = false ∧ sus.edgeSuspended 1 = true ∧ sus.rst.held = false ∧
     sus.rst.edges.contains 1 = false ∧ sus.edgeAhead (edgeFrom 1 false) 2 = (1, false) ∧ SMap.at upDev.rst.resends key 0 < 3 ∧
     3 ≤ SMap.at d.rst.resends key 0 ∧ d.edgeSuspended 1 = false ∧ d.edgeAhead (edgeFrom 1 false) 2 = (1, false) ∧ ([] : List Byte).length ≠ 4096 ∧
     edgeTo 1 false = 2 ∧ (3 : Nat) ≠ edgeTo 1 false) ∧
    (∀ b : List Byte, b.length = 4096 → crc32 b = (BitVec.ofNat 32 (crc32 b)).toNat) := by
  refine ⟨by decide +kernel, fun b _ => ?_⟩
  rw [BitVec.toNat_ofNat, Nat.mod_eq_of_lt (crc32_lt _)]

/-! ## Commands that name nothing of the package (WellFormed) -/

def wfAll (xs : List Instr) : Bool := xs.all Instr.wf
def wfNone (xs : List Instr) : Bool := xs.all fun c => ! c.wf

theorem test_wf_page : wfAll [.pageCtlQreqSet pm 0x10000, .shadowCommit 0x80001] = true ∧ wfNone [.pageCtlQreqSet pm 0xFFFFF, .shadowCommit 0x80FF0] = true := by
  decide +kernel
/-- R33: the unit index of a cluster runs from 0 to 16. -/
theorem test_wf_unit : wfAll [.mnop 16 true, .vnop 0xFF0 true] = true ∧ wfNone [.mnop 17 true, .vnop 31 true] = true := by decide +kernel
theorem test_wf_cluster_region : wfAll [.barrierTimeout 32 0, .waySwapStart 256 0 [], .descNop true 256, .descNop false 32] = true ∧
    wfNone [.barrierTimeout 33 0, .waySwapStart 32 0 [], .descNop true 32, .descNop false 1] = true := by decide +kernel
theorem test_wf_event_queue : wfAll [.evtLost 19, .evtLost 32] = true ∧ wfNone [.evtLost 20, .evtLost 33] = true := by decide +kernel
theorem test_wf_faults : wfAll [.faultMapClear true [(1, 16), (5, 7)]] = true ∧
    wfNone [.faultMapClear true [(0, 0)], .faultMapClear true [(1, 17)], .faultMapClear true [(5, 8)], .faultMapClear true [(4, 1)],
      .faultMapClear true [(2, 1)], .faultMapClear true [(3, 32)], .selfTestDone 1 0 [(0, 0)]] = true := by decide +kernel
theorem test_wf_upset : wfAll [.tileCheckDone 0 [(1023, 1)] false] = true ∧ wfNone [.tileCheckDone 0 [(1024, 1)] false] = true := by decide +kernel
theorem test_wf_scrub : wfAll [.scrubLine false 5 8191 .ok, .scrubLine true 256 9000 .ok] = true ∧
    wfNone [.scrubLine false 5 8192 .ok, .scrubLine true 5 0 .ok] = true := by decide +kernel
theorem test_wf_area : wfAll [.shuttleFetch 0 0] = true ∧ wfNone [.shuttleFetch 0 (BitVec.ofNat _ storeEnd)] = true := by decide +kernel
theorem test_wf_block : (Instr.selvedgeBlockReceive 0 false 0 0 [] 0).wf = false := by decide +kernel
theorem test_wf_readings : wfAll [.avsSample [(0, 6, 0, 0)], .junctionSensorRead 0 [none, none, none, none], .hbmTempRead 0 [none, none]] = true ∧
    wfNone [.avsSample [(0, 7, 0, 0)], .junctionSensorRead 0 [none], .hbmTempRead 0 []] = true := by decide +kernel
theorem test_wf_use : wfAll [.drainSend 2, .partAnswer 0 0, .partRetry 1 0] = true ∧ wfNone [.drainSend 3, .partAnswer 3 0, .partRetry 3 0] = true := by
  decide +kernel
theorem test_wf_domain : wfAll [.domainReset 0 0, .domainReset 1 1024, .domainReset 6 1025] = true ∧
    wfNone [.domainReset 0 1, .domainReset 1 1, .domainReset 7 0, .domainReset 4 0x20] = true := by decide +kernel
theorem test_wf_stop : wfAll [.bringupStopAt pm 1] = true ∧ wfNone [.bringupStopAt pm 0] = true := by decide +kernel

/-! ## Values worked out outside the model -/

/-- The check value of this CRC: the CRC of the ASCII digits 1 to 9. -/
theorem test_crc32 : crc32 [0x31, 0x32, 0x33, 0x34, 0x35, 0x36, 0x37, 0x38, 0x39] = 0xCBF43926 := by decide +kernel
/-- The example under R38: the LINK_SLOT page of port L21. -/
theorem test_link_page : pageNum 6 (linkInst 21) 1 * 4096 = 0x68051000 := by decide +kernel

/-- The example under R92: a BI4 block of two groups of numbers and two of zeros. -/
def exampleBlock : List Nat :=
  [0x40400000, 0xBFA00000, 0x3F000000, 0, 0x40300000, 0xBF19999A, 0x3F800000, 0x3DCCCCCD, 0x3E19999A, 0xBE4CCCCD, 0x3D4CCCCD, 0x3DF5C28F, 0xBDA3D70A,
   0, 0x3E428F5C, 0xBDE147AE] ++ List.replicate 16 0
theorem test_block_example : (let b := toBlock 4 (fastElems 0 exampleBlock) none true []
    b.scale = 0xFC81 ∧ packCodes 4 b.codes = [0xE6, 0x01, 0xF6, 0x02, 0xD2, 0x21, 0x0F, 0xE3, 0, 0, 0, 0, 0, 0, 0, 0] ∧ b.sat = 0 ∧ b.crush = 1) := by
  decide +kernel

/-- The example of the cellar chapter: one coded group, and 1,000 groups of zeros. -/
theorem test_lossless_example :
    llGroup 1 (((((List.replicate 32 0).set 2 0x3E00).set 5 0x3C00).set 6 0xBA00).set 20 0x4200) =
      [0x03, 0x9B, 0xFF, 0xEF, 0xFF, 0x0F, 0x80, 0x00, 0xC0, 0x03, 0x48, 0x00, 0x02] ∧
    llEncode 1 (List.replicate 300 (List.replicate 32 0)) 0 = [0xFF, 0xFF, 0xAB] := by decide +kernel

/-- The example of the exchange chapter: positions, and their gaps of 12 bits. -/
theorem test_index_example : indexField [5, 17, 40, 300, 1029, 4001] = (1, 12, [0x05, 0xB0, 0x00, 0x16, 0x30, 0x10, 0xD8, 0xB2, 0xB9]) := by
  decide +kernel

/-- The example of the beat chapter: a DEFERRED entry, and a unit's budget of cycles. -/
theorem test_ledger_example : LedgerEntry.bytes ⟨0x312, 7, 2, 1204, 0x1A2B, 1, some 2⟩ =
    [0x12, 0x03, 0x00, 0x02, 0x07, 0, 0, 0, 0x2B, 0x1A, 0, 0, 1, 0, 0, 0, 0xB4, 0x04, 0, 0, 0, 0, 0, 0, 2, 0, 0, 0, 0, 0, 0, 0] ∧
    ((upDev.p Reg.BEAT_CFG_T_S 2300).p Reg.BEAT_CFG_FIT_MARGIN 3).budget 1100 = 245410 := by decide +kernel

/-- The example of the link chapter: the header of shuttle 0. -/
theorem test_header_example : (shCovered { mkShuttle 0 0x400 0x402 0x51 0 1 1204 9000000 [] with units := 63, payload := [] }) =
    [0xC0, 0x0F, 0, 0, 0, 0x04, 0, 0, 0x02, 0x04, 0, 0, 0x51, 0, 0, 0, 0, 0, 1, 0, 0xB4, 0x04, 0, 0, 0x40, 0x54, 0x89, 0, 0, 0, 0, 0] := by
  decide +kernel

/-- The example of the host chapter: a segment header. -/
theorem test_segment_example : segCovered 3 ⟨0x4E584854, 1, true, true, 44, 0x31, 0x1005, 0x8001, 0, 0x30050002, 240, 0, [], 0⟩ =
    [0x54, 0x48, 0x58, 0x4E, 0x31, 0x03, 0x2C, 0, 0x31, 0, 0, 0, 0x05, 0x10, 0, 0, 0x01, 0x80, 0, 0, 0, 0, 0, 0, 0x02, 0, 0x05, 0x30, 0xF0, 0, 0, 0] := by
  decide +kernel

/-- The example under R205: a bundle that breaks no rule, its V slot's fields, and the registers its D slot writes. -/
theorem test_bundle_example :
    bundleOk (leNat ([0x01, 0x54, 0, 0, 0, 0, 0, 0, 0x83, 0x32, 0x02, 0x20, 0xF3, 0x04, 0x35, 0x3F, 0x01, 0x47, 0x06, 0, 0x80, 0, 0x04, 0] ++
      List.replicate 8 0)) = true ∧
    vSlotOf 0x3F3504F320023283 = ⟨5, 3, true, 0, false, false, 0, false, 0, true, 0, 0, 0, 0, 0x3F3504F3⟩ ∧
    dDests 1 (dSlotOf 0x0004008000064701) = [7, 66] := by decide +kernel

/-- The example under R205: the bundles after the load of v7 wait 5 cycles for it and 3 for v8, and the last 7 for the V slot. -/
theorem test_stall_example :
    (let v := fun (vd va vb : Nat) => { vslot with vd := BitVec.ofNat 5 vd, va := BitVec.ofNat 5 va, vb := BitVec.ofNat 5 vb }
     let d := withUnit { cyc := 1, ready := [(7, 6)] }
     let e := [vOp 5 1 (v 8 7 9), vOp 5 0x24 (v 10 8 0), vOp 5 3 (v 11 9 9)].foldl (fun d o => d.offerBundle 5 [o]) d
     e.rd Reg.SEQ_STALL_DEP 5 = 8 ∧ e.rd Reg.SEQ_STALL_VBUSY 5 = 7 ∧ (e.unit 5).cyc = 19 ∧ (e.unit 5).readyBy [10] = 28) := by decide +kernel

/-- The example of the numerics chapter: the supplied word for E_RUN 3, and the binades of 21.7, 9.1, 7.5 and 6.2. -/
theorem test_scale_example : ({ tensor := 0xC41, eRun := some 3 } : ScaleSt).supplied 1 = 131 ∧
    [eObs 0x41AD999A, eObs 0x4111999A, eObs 0x40F00000, eObs 0x40C66666] = [some 5, some 4, some 3, some 3] := by decide +kernel

/-- The example under R477: package A lends 390 W; package B, at operating point 13, needs 270 W. -/
theorem test_trade_example :
    (let w : LeaseWin := ⟨0, 60, 1000, 1150, 400, 300⟩
     let a := { ((tradeDev.p Reg.MODEL_PMEAN 530 7).p Reg.MODEL_PMEAN 580 8).p Reg.PLAN_RB_FIT_OP 7 |>.p Reg.TRADE_KEEP_W 20 |>.p Reg.LEASE_USER_CAP_OP 15
       with power := { windows := [w] } }
     let b := { (((tradeDev.p Reg.MODEL_PMEAN 880 13).p Reg.MODEL_PMEAN 1000 14).p Reg.MODEL_PMEAN 1150 15).p Reg.PLAN_RB_FIT_OP 15 |>.p
       Reg.LEASE_USER_CAP_OP 15 |>.p Reg.BEAT_CFG_PHASE 2400 with power := { windows := [w] } }
     a.lend.lent = 390 ∧ b.plainOp = 13 ∧
     (match b.borrow.out.head? with | some (.shuttle _ s) => fld s.payload 8 2 | _ => 0) = 270) := by decide +kernel

/-- R157: 1.5 + 2.25 on the fast path, and an infinity, which gives a NaN there (R81). -/
theorem test_fast_add : FFmt.f32.addFast .rne false (FFmt.f32.decode 0x3FC00000) (FFmt.f32.decode 0x40100000) = ⟨0x40700000, 0⟩ ∧
    (FFmt.f32.addFast .rne false (FFmt.f32.decode 0x7F800000) (FFmt.f32.decode 0x3F800000)).w = 0x7FC00000 := by decide +kernel
/-- IEEE 754: 2^24 + 1 is a tie, and rounds to even. -/
theorem test_strict_add : FFmt.f32.addStrict false (FFmt.f32.decode 0x4B800000) (FFmt.f32.decode 0x3F800000) = ⟨0x4B800000, Flag.nx⟩ := by decide +kernel

end Sys2Proof.Tests
end

/-! Register writes by address that are performed, and the words of an armed commit group (R41, R43, R56). -/

namespace Sys2Proof.Machine

/-! ## The fields of a word outside the header -/

theorem wordFields_of_mem {pg off : Nat} {x : Field × Nat} (hoff : 128 ≤ off) (hx : x ∈ wordFields pg off) :
    x.1 ∈ Reg.all ∧ x.1.cls = pgClass pg ∧ x.1.page = pgPage pg := by
  obtain ⟨f, hf, hcopy⟩ := List.mem_filterMap.mp hx
  obtain ⟨i, -, rfl⟩ := Option.map_eq_some_iff.mp hcopy
  rw [if_neg (Nat.not_lt.mpr hoff)] at hf
  split at hf
  · simpa using hf
  · exact absurd hf List.not_mem_nil

/-- The list of pages with LK fields agrees with the register table (R557). -/
theorem Reg.lockPages_of_lk : ∀ f ∈ Reg.all, f.acc = .lk → (f.cls, f.page) ∈ Reg.lockPages := by decide +kernel

/-- The list of pages with SH fields agrees with the register table (R557). -/
theorem Reg.shadowPages_of_sh : ∀ f ∈ Reg.all, f.acc = .sh → (f.cls, f.page) ∈ Reg.shadowPages := by decide +kernel

theorem wordFields_not_lk {pg off : Nat} (hoff : 128 ≤ off) (hpg : capLock pg = false) :
    (wordFields pg off).any (fun x => x.1.acc == .lk) = false := by
  refine List.any_eq_false.mpr fun x hx hlk => ?_
  obtain ⟨hall, hcls, hpage⟩ := wordFields_of_mem hoff hx
  have hmem := Reg.lockPages_of_lk x.1 hall (eq_of_beq hlk)
  rw [hcls, hpage] at hmem
  simp [capLock, hmem] at hpg

theorem wordFields_not_sh {pg off : Nat} (hoff : 128 ≤ off) (hpg : capShadow pg = false) :
    (wordFields pg off).any (fun x => x.1.acc == .sh) = false := by
  refine List.any_eq_false.mpr fun x hx hsh => ?_
  obtain ⟨hall, hcls, hpage⟩ := wordFields_of_mem hoff hx
  have hmem := Reg.shadowPages_of_sh x.1 hall (eq_of_beq hsh)
  rw [hcls, hpage] at hmem
  simp [capShadow, hmem] at hpg

/-! ## A register write that is performed -/

theorem Dev.busWrite_plain {d : Dev} {m : Mem} {r : Requester} {session pg off w : Nat} (hoff : off < 4096)
    (hacc : d.refusal r (pg * 4096 + off) true = none) (hact : actionOf m session pg off w = none) :
    d.busWrite m r session (pg * 4096 + off) w = d.plainWrite pg off w := by
  have hpage : (pg * 4096 + off) / 4096 = pg := by omega
  have hword : (pg * 4096 + off) % 4096 = off := by omega
  simp only [Dev.busWrite, hacc, hpage, hword, hact]

/-- An action that starts no work of its block is done in every block state (R63). -/
theorem Dev.busWrite_act {d : Dev} {m : Mem} {r : Requester} {session pg off w : Nat} {f : Dev → Nat × Dev} (hoff : off < 4096)
    (hacc : d.refusal r (pg * 4096 + off) true = none) (hact : actionOf m session pg off w = act false f) :
    d.busWrite m r session (pg * 4096 + off) w = f d := by
  have hpage : (pg * 4096 + off) / 4096 = pg := by omega
  have hword : (pg * 4096 + off) % 4096 = off := by omega
  simp only [Dev.busWrite, hacc, hpage, hword, hact, act, Bool.false_and, Bool.false_eq_true, if_false]

/-- Emptying what the last command wrote and sent leaves every access as it was. -/
theorem State.accepts_start {s : State} {r : Requester} {pg off : Nat} {write : Bool} (hacc : s.accepts r pg off write) :
    s.dev.start.refusal r (pg * 4096 + off) write = none := hacc

theorem exec_registerWrite {s : State} {r : Requester} {session w : BitVec 32} {addr c : Nat} {d : Dev} (haddr : addr < 2 ^ 32)
    (hw : s.dev.start.busWrite s.mem r session.toNat addr w.toNat = (c, d)) :
    exec (.registerWrite r session (BitVec.ofNat 32 addr) w) s = s.ends (d.done c) := by
  simp only [exec, execRegisterWrite, runDev, State.ends, BitVec.toNat_ofNat, Nat.mod_eq_of_lt haddr, hw]

/-! ## The words of the commit page (R55) -/

theorem actionOf_cgCtl (m : Mem) (session w : Nat) : actionOf m session pgCommit 0x080 w =
    act false (Dev.groupWrite m (bits w 0 3) (bit w 8) (bit w 9) (bits w 16 6)) := rfl

/-- The commit page is page 3 of class 0, which one arm of `packageAct` names, for CG_CTL. -/
theorem packageAct_pgCommit (m : Mem) (session w : Nat) {off : Nat} (hoff : off ≠ 0x080) :
    packageAct m session pgCommit off w = none := by
  unfold packageAct
  split <;> simp_all [pgCommit, pageNum, pgClass, pgPage]

/-- CG_CTL is the one word of the commit page, beyond the header, whose write acts. -/
theorem actionOf_pgCommit (m : Mem) (session w : Nat) {off : Nat} (hoff : 128 ≤ off) (hctl : off ≠ 0x080) :
    actionOf m session pgCommit off w = none := by
  have hunit : unitAct pgCommit off w = none := rfl
  have hport : portAct m pgCommit off w = none := rfl
  simp only [actionOf, if_neg (Nat.not_lt.mpr hoff), hunit, hport, packageAct_pgCommit m session w hctl]

theorem Dev.groupWord_cgSize (d : Dev) (g : BitVec 3) : d.groupWord pgCommit (0x0C0 + 4 * g.toNat) = d.groupArmed g.toNat := by
  have hg := g.isLt
  have hsize : 0x0C0 ≤ 0x0C0 + 4 * g.toNat ∧ 0x0C0 + 4 * g.toNat < 0x0E0 := by omega
  have hmem : ¬ (0x400 ≤ 0x0C0 + 4 * g.toNat ∧ 0x0C0 + 4 * g.toNat < 0x800) := by omega
  have hindex : (0x0C0 + 4 * g.toNat - 0x0C0) / 4 = g.toNat := by omega
  simp only [Dev.groupWord, hsize, hmem, hindex, beq_self_eq_true, decide_true, decide_false, and_self, Bool.true_and, Bool.false_and,
    Bool.or_false]

theorem Dev.groupWord_cgMem (d : Dev) (g : BitVec 3) (m : BitVec 5) :
    d.groupWord pgCommit (0x400 + 128 * g.toNat + 4 * m.toNat) = d.groupArmed g.toNat := by
  have hg := g.isLt
  have hm := m.isLt
  have hsize : ¬ (0x0C0 ≤ 0x400 + 128 * g.toNat + 4 * m.toNat ∧ 0x400 + 128 * g.toNat + 4 * m.toNat < 0x0E0) := by omega
  have hmem : 0x400 ≤ 0x400 + 128 * g.toNat + 4 * m.toNat ∧ 0x400 + 128 * g.toNat + 4 * m.toNat < 0x800 := by omega
  have hindex : (0x400 + 128 * g.toNat + 4 * m.toNat - 0x400) / 128 = g.toNat := by omega
  simp only [Dev.groupWord, hsize, hmem, hindex, beq_self_eq_true, decide_true, decide_false, and_self, Bool.true_and, Bool.false_and,
    Bool.false_or]

/-- R56: the commit page has neither LK nor SH fields, so a word of an armed group is refused with ARMED and by no other rule. -/
theorem Dev.plainWrite_groupWord (d : Dev) (w : Nat) {off : Nat} (hoff : 128 ≤ off) (hword : d.groupWord pgCommit off = true) :
    d.plainWrite pgCommit off w = (Cc.armed, d) := by
  have hlk := wordFields_not_lk (pg := pgCommit) hoff (by decide)
  have hsh := wordFields_not_sh (pg := pgCommit) hoff (by decide)
  simp only [Dev.plainWrite, hlk, hsh, hword, Bool.false_and, Bool.false_eq_true, if_false, if_true]

theorem exec_registerWrite_groupWord {s : State} {r : Requester} {session w : BitVec 32} {off : Nat} (hlo : 128 ≤ off)
    (hhi : off < 4096) (hctl : off ≠ 0x080) (hacc : s.accepts r pgCommit off true) (hword : s.dev.start.groupWord pgCommit off = true) :
    exec (.registerWrite r session (BitVec.ofNat 32 (pgCommit * 4096 + off)) w) s = s.ends (s.dev.start.done Cc.armed) := by
  have haddr : pgCommit * 4096 + off < 2 ^ 32 := by simp only [pgCommit, pageNum]; omega
  exact exec_registerWrite haddr ((Dev.busWrite_plain hhi (State.accepts_start hacc) (actionOf_pgCommit s.mem _ _ hlo hctl)).trans
    (s.dev.start.plainWrite_groupWord _ hlo hword))

/-- R56: ARM and DISCARD in one write of CG_CTL. -/
theorem Dev.groupWrite_arm_discard (m : Mem) (g tag : Nat) (d : Dev) : Dev.groupWrite m g true true tag d = (Cc.unsupported, d) := rfl

theorem exec_cgCtl_arm_discard {s : State} {r : Requester} {session w : BitVec 32} (hacc : s.accepts r pgCommit 0x080 true)
    (harm : w.getLsbD 8 = true) (hdiscard : w.getLsbD 9 = true) :
    exec (.registerWrite r session (BitVec.ofNat 32 (pgCommit * 4096 + 0x080)) w) s = s.ends (s.dev.start.done Cc.unsupported) := by
  have hboth : Dev.groupWrite s.mem (bits w.toNat 0 3) (bit w.toNat 8) (bit w.toNat 9) (bits w.toNat 16 6) s.dev.start =
      (Cc.unsupported, s.dev.start) := by
    rw [show bit w.toNat 8 = true from harm, show bit w.toNat 9 = true from hdiscard, Dev.groupWrite_arm_discard]
  exact exec_registerWrite (by decide) ((Dev.busWrite_act (by decide) (State.accepts_start hacc) (actionOf_cgCtl s.mem _ _)).trans hboth)

/-- Settles O13: the words of an armed group by `exec_registerWrite_groupWord`, CG_CTL by `exec_cgCtl_arm_discard`. -/
theorem armedGroupWrites : Obligations.ArmedGroupWrites := by
  intro s r session w g m
  have hg := g.isLt
  have hm := m.isLt
  refine ⟨fun harmed => ⟨fun hacc => ?cgSize, fun hacc => ?cgMem⟩, exec_cgCtl_arm_discard⟩
  case cgSize =>
    have hword := (s.dev.start.groupWord_cgSize g).trans harmed
    rw [Nat.add_assoc]
    exact exec_registerWrite_groupWord (off := 0x0C0 + 4 * g.toNat) (by omega) (by omega) (by omega) hacc hword
  case cgMem =>
    have hword := (s.dev.start.groupWord_cgMem g m).trans harmed
    rw [Nat.add_assoc, Nat.add_assoc, ← Nat.add_assoc 0x400]
    exact exec_registerWrite_groupWord (off := 0x400 + 128 * g.toNat + 4 * m.toNat) (by omega) (by omega) (by omega) hacc hword

end Sys2Proof.Machine

/-! What an arm and a commit boundary leave in PAGE_ARM_STAT, and the check of the BEAT_LOCK page (R51, R52, R269). -/

namespace Sys2Proof.Machine

/-! ## PAGE_ARM_STAT -/

@[simp] theorem Dev.armStat_status (d : Dev) (pg status reason tag word : Nat) :
    (d.armStat pg status reason tag word).hd Hdr.STAT_STATUS pg = status % 8 := by
  rw [Dev.armStat, Dev.hd_hw_ne _ _ _ _ _ _ (by simp [Field.key, Hdr.STAT_STATUS, Hdr.STAT_WORD]),
    Dev.hd_hw_ne _ _ _ _ _ _ (by simp [Field.key, Hdr.STAT_STATUS, Hdr.STAT_TAG]),
    Dev.hd_hw_ne _ _ _ _ _ _ (by simp [Field.key, Hdr.STAT_STATUS, Hdr.STAT_REASON]), Dev.hd_hw_same _ _ _ _ (by decide) (by decide)]
  rfl

@[simp] theorem Dev.armStat_reason (d : Dev) (pg status reason tag word : Nat) :
    (d.armStat pg status reason tag word).hd Hdr.STAT_REASON pg = reason % 256 := by
  rw [Dev.armStat, Dev.hd_hw_ne _ _ _ _ _ _ (by simp [Field.key, Hdr.STAT_REASON, Hdr.STAT_WORD]),
    Dev.hd_hw_ne _ _ _ _ _ _ (by simp [Field.key, Hdr.STAT_REASON, Hdr.STAT_TAG]), Dev.hd_hw_same _ _ _ _ (by decide) (by decide)]
  rfl

@[simp] theorem Dev.armStat_shadow (d : Dev) (pg status reason tag word : Nat) :
    (d.armStat pg status reason tag word).shadow = d.shadow := rfl

@[simp] theorem Dev.armStat_out (d : Dev) (pg status reason tag word : Nat) : (d.armStat pg status reason tag word).out = d.out := rfl

/-- PAGE_ARM_STAT is another word of the header than PAGE_EVT, so an event leaves its fields. -/
theorem Dev.hd_raise_of_armStatWord (d : Dev) (pg code pos sev detail : Nat) {f : Field} (hoff : f.off = 0x034) (hlo : f.lo < 32) :
    (d.raise pg code pos sev detail).hd f pg = d.hd f pg := by
  refine Dev.get_raise _ _ _ _ _ _ _ _ _ ?_
  simp only [evtKeys, Field.key, Hdr.EVT_COMMON, Hdr.EVT_BLOCK, Hdr.EVT_OVERFLOW, hoff, List.mem_cons, List.not_mem_nil, or_false]
  omega

@[simp] theorem Dev.armReject_status (d : Dev) (pg reason tag word : Nat) :
    (d.armReject pg reason tag word).hd Hdr.STAT_STATUS pg = St.rejected := by
  rw [Dev.armReject, Dev.hd_raise_of_armStatWord _ _ _ _ _ _ rfl (by decide), Dev.armStat_status]
  rfl

@[simp] theorem Dev.armReject_reason (d : Dev) (pg reason tag word : Nat) :
    (d.armReject pg reason tag word).hd Hdr.STAT_REASON pg = reason % 256 := by
  rw [Dev.armReject, Dev.hd_raise_of_armStatWord _ _ _ _ _ _ rfl (by decide), Dev.armStat_reason]

/-- R52: a rejected set is kept. -/
@[simp] theorem Dev.armReject_shadow (d : Dev) (pg reason tag word : Nat) : (d.armReject pg reason tag word).shadow = d.shadow := by
  simp [Dev.armReject]

@[simp] theorem Dev.armReject_out (d : Dev) (pg reason tag word : Nat) : (d.armReject pg reason tag word).out = d.out := by
  simp [Dev.armReject]

theorem Dev.hd_setInfo (d : Dev) (f : Field) (pg pg' : Nat) (x : PageInfo) : (d.setInfo pg x).hd f pg' = d.hd f pg' := rfl

/-- What an access that ends in a change of PAGE_ARM_STAT alone answers and leaves. -/
theorem State.ends_done_armStat (s : State) {d : Dev} {pg status reason : Nat} (hout : d.out = []) (hshadow : d.shadow = s.dev.shadow)
    (hstatus : d.hd Hdr.STAT_STATUS pg = status) (hreason : d.hd Hdr.STAT_REASON pg = reason) :
    ∃ t, s.ends (d.done Cc.done) = .next t ∧ t.dev.out = [.completion 0 0] ∧ t.mem = s.mem ∧ t.pending = s.pending ∧
      t.dev.shadow = s.dev.shadow ∧ t.dev.hd Hdr.STAT_STATUS pg = status ∧ t.dev.hd Hdr.STAT_REASON pg = reason :=
  ⟨_, rfl, congrArg (· ++ [_]) hout, rfl, rfl, hshadow, hstatus, hreason⟩

/-! ## An arm, by the verdict of its check (R51) -/

section Arm

variable {s : State} {r : Requester} {pg : BitVec 20} (tag : BitVec 6) {err : Option (BitVec 10)}
  (hacc : s.accepts r pg.toNat 0x030 true) (hcap : capShadow pg.toNat = true) (harmed : s.dev.hd Hdr.STAT_STATUS pg.toNat ≠ St.armed)
  (hgrouped : s.dev.hd Hdr.STAT_STATUS pg.toNat ≠ St.grouped)
include hacc hcap harmed hgrouped

theorem exec_pageArmArm_checked : exec (.pageArmArm r pg tag err) s =
    match s.dev.start.armCheck s.mem pg.toNat (err.map BitVec.toNat) with
    | some (reason, word) => s.ends ((s.dev.start.armReject pg.toNat reason tag.toNat word).done Cc.done)
    | none => s.ends (((s.dev.start.armStat pg.toNat St.armed 0 tag.toNat 0).setInfo pg.toNat
        { s.dev.start.info pg.toNat with armedAt := s.dev.start.now }).done Cc.done) := by
  have hfree : ¬ (s.dev.start.hd Hdr.STAT_STATUS pg.toNat = St.armed ∨ s.dev.start.hd Hdr.STAT_STATUS pg.toNat = St.grouped) :=
    not_or.mpr ⟨harmed, hgrouped⟩
  refine (action_ok s r pg.toNat 0x030 _ hacc).trans ?_
  cases hcheck : s.dev.start.armCheck s.mem pg.toNat (err.map BitVec.toNat) <;> simp [Dev.arm, hcap, hfree, hcheck]

/-- R51 step 3: an arm whose check fails is rejected with its reason. -/
theorem exec_pageArmArm_rejected {reason word : Nat}
    (hcheck : s.dev.start.armCheck s.mem pg.toNat (err.map BitVec.toNat) = some (reason, word)) :
    ∃ t, exec (.pageArmArm r pg tag err) s = .next t ∧ t.dev.out = [.completion 0 0] ∧ t.mem = s.mem ∧ t.pending = s.pending ∧
      t.dev.shadow = s.dev.shadow ∧ t.dev.hd Hdr.STAT_STATUS pg.toNat = St.rejected ∧
      t.dev.hd Hdr.STAT_REASON pg.toNat = reason % 256 := by
  rw [exec_pageArmArm_checked tag hacc hcap harmed hgrouped, hcheck]
  exact s.ends_done_armStat (Dev.armReject_out ..) (Dev.armReject_shadow ..) (Dev.armReject_status ..) (Dev.armReject_reason ..)

/-- R51: an arm whose check passes leaves the page ARMED. -/
theorem exec_pageArmArm_armed (hcheck : s.dev.start.armCheck s.mem pg.toNat (err.map BitVec.toNat) = none) :
    ∃ t, exec (.pageArmArm r pg tag err) s = .next t ∧ t.dev.out = [.completion 0 0] ∧ t.mem = s.mem ∧ t.pending = s.pending ∧
      t.dev.shadow = s.dev.shadow ∧ t.dev.hd Hdr.STAT_STATUS pg.toNat = St.armed ∧ t.dev.hd Hdr.STAT_REASON pg.toNat = 0 := by
  rw [exec_pageArmArm_checked tag hacc hcap harmed hgrouped, hcheck]
  exact s.ends_done_armStat rfl rfl ((Dev.hd_setInfo ..).trans (Dev.armStat_status ..)) ((Dev.hd_setInfo ..).trans (Dev.armStat_reason ..))

end Arm

/-! ## A commit boundary whose check fails (R51 step 6) -/

theorem exec_shadowCommit_rejected {s : State} {pg : BitVec 20} {reason word : Nat}
    (harmed : s.dev.hd Hdr.STAT_STATUS pg.toNat = St.armed) (hdue : s.dev.boundaryDue (s.dev.info pg.toNat).armedAt (us 2) = true)
    (hcheck : s.dev.start.commitCheck s.mem pg.toNat = some (reason, word)) :
    exec (.shadowCommit pg) s =
      s.ends (s.dev.start.armReject pg.toNat reason (s.dev.start.hd Hdr.STAT_TAG pg.toNat) word) := by
  have hdue' : s.dev.start.boundaryDue (s.dev.start.info pg.toNat).armedAt (us 2) = true := hdue
  have harmed' : s.dev.start.hd Hdr.STAT_STATUS pg.toNat = St.armed := harmed
  change s.ends (Dev.shadowCommit s.mem pg.toNat s.dev.start) = _
  simp [Dev.shadowCommit, harmed', hdue', hcheck]

/-! ## The check of the BEAT_LOCK page (R269) -/

/-- A timeout or the lock count of the BEAT_LOCK shadow set is 0. -/
def Dev.lockLimitZero (d : Dev) : Prop :=
  d.sh Reg.BEAT_LOCK_MARKER_TIMEOUT 0 = 0 ∨ d.sh Reg.BEAT_LOCK_SOURCE_TIMEOUT 0 = 0 ∨ d.sh Reg.BEAT_LOCK_LOCK_COUNT 0 = 0

/-- R264: HOLD_LIMIT of the shadow set × the live PERIOD exceeds 2,500: a holdover longer than 25 ms, PERIOD being in 10 µs steps. -/
def Dev.holdTooLong (d : Dev) : Prop := 2500 < d.sh Reg.BEAT_LOCK_HOLD_LIMIT 0 * d.g Reg.BEAT_CFG_PERIOD

theorem failIf_eq_nil {c : Bool} {off : Nat} : failIf c off = [] ↔ c = false := by
  cases c <;> simp [failIf]

theorem Dev.findings_beatLock_range (d : Dev) (m : Mem) : (d.findings m pgBeatLock).range = [] ↔ ¬ d.lockLimitZero := by
  change failIf (d.sh Reg.BEAT_LOCK_MARKER_TIMEOUT 0 == 0) 0x090 ++
    failIf (d.sh Reg.BEAT_LOCK_SOURCE_TIMEOUT 0 == 0 || d.sh Reg.BEAT_LOCK_LOCK_COUNT 0 == 0) 0x094 = [] ↔ _
  simp [failIf_eq_nil, Dev.lockLimitZero]

theorem Dev.findings_beatLock_mismatch (d : Dev) (m : Mem) : (d.findings m pgBeatLock).mismatch = [] := rfl

theorem Dev.findings_beatLock_dep (d : Dev) (m : Mem) : (d.findings m pgBeatLock).dep = [] ↔ ¬ d.holdTooLong :=
  failIf_eq_nil.trans decide_eq_false_iff_not

theorem Dev.armCheck_beatLock {d : Dev} (m : Mem) (hbs : d.bs pgBeatLock < Bs.resetting) :
    d.armCheck m pgBeatLock none = (d.findings m pgBeatLock).first := if_neg (Nat.not_le.mpr hbs)

theorem Dev.armCheck_beatLock_range {d : Dev} (m : Mem) (hbs : d.bs pgBeatLock < Bs.resetting) (hzero : d.lockLimitZero) :
    ∃ word, d.armCheck m pgBeatLock none = some (Rs.range, word) :=
  ⟨_, (d.armCheck_beatLock m hbs).trans (if_pos fun h => (d.findings_beatLock_range m).mp h hzero)⟩

theorem Dev.armCheck_beatLock_dependency {d : Dev} (m : Mem) (hbs : d.bs pgBeatLock < Bs.resetting) (hzero : ¬ d.lockLimitZero)
    (hlong : d.holdTooLong) : ∃ word, d.armCheck m pgBeatLock none = some (Rs.dependency, word) := by
  have hrange := (d.findings_beatLock_range m).mpr hzero
  have hdep : (d.findings m pgBeatLock).dep ≠ [] := fun h => (d.findings_beatLock_dep m).mp h hlong
  rw [d.armCheck_beatLock m hbs]
  simp [Findings.first, hrange, d.findings_beatLock_mismatch, hdep]

theorem Dev.armCheck_beatLock_none {d : Dev} (m : Mem) (hbs : d.bs pgBeatLock < Bs.resetting) (hzero : ¬ d.lockLimitZero)
    (hlong : ¬ d.holdTooLong) : d.armCheck m pgBeatLock none = none := by
  rw [d.armCheck_beatLock m hbs]
  simp [Findings.first, (d.findings_beatLock_range m).mpr hzero, d.findings_beatLock_mismatch, (d.findings_beatLock_dep m).mpr hlong]

theorem Dev.commitCheck_beatLock_dependency {d : Dev} (m : Mem) (hbs : d.bs pgBeatLock < Bs.resetting) (hlong : d.holdTooLong) :
    ∃ word, d.commitCheck m pgBeatLock = some (Rs.dependency, word) :=
  ⟨_, (if_neg (Nat.not_le.mpr hbs)).trans (if_neg fun h => (d.findings_beatLock_dep m).mp h hlong)⟩

/-- The page of BEAT_LOCK has SH fields, so PAGE_ARM acts on it (R48). -/
theorem capShadow_pgBeatLock : capShadow pgBeatLock = true := by decide

/-- Settles O14: `armCheck_beatLock_range`, `_dependency` and `_none` give the verdict at the arm, `commitCheck_beatLock_dependency` that at
the boundary. -/
theorem beatLockCheck : Obligations.BeatLockCheck := by
  intro s r tag pg hpage hstate some0 long st
  have hpg : pg.toNat = pgBeatLock := hpage
  have hcap : capShadow pg.toNat = true := by rw [hpg, capShadow_pgBeatLock]
  have hbs : s.dev.start.bs pgBeatLock < Bs.resetting := hpg ▸ hstate
  refine ⟨fun hacc harmed hgrouped => ?arm, fun harmed hdue hlong => ?boundary⟩
  case arm =>
    by_cases hzero : some0
    · obtain ⟨word, hcheck⟩ := Dev.armCheck_beatLock_range s.mem hbs hzero
      rw [← hpg] at hcheck
      rw [if_pos (.inl hzero), if_pos hzero]
      exact exec_pageArmArm_rejected (err := none) tag hacc hcap harmed hgrouped hcheck
    rw [if_neg hzero]
    by_cases hlong : long
    · obtain ⟨word, hcheck⟩ := Dev.armCheck_beatLock_dependency s.mem hbs hzero hlong
      rw [← hpg] at hcheck
      rw [if_pos (.inr hlong), if_pos hlong]
      exact exec_pageArmArm_rejected (err := none) tag hacc hcap harmed hgrouped hcheck
    · have hcheck := Dev.armCheck_beatLock_none s.mem hbs hzero hlong
      rw [← hpg] at hcheck
      rw [if_neg (not_or.mpr ⟨hzero, hlong⟩), if_neg hlong]
      exact exec_pageArmArm_armed (err := none) tag hacc hcap harmed hgrouped hcheck
  case boundary =>
    obtain ⟨word, hcheck⟩ := Dev.commitCheck_beatLock_dependency s.mem hbs hlong
    exact ⟨_, exec_shadowCommit_rejected harmed hdue (hpg ▸ hcheck), rfl, rfl, Dev.armReject_shadow .., Dev.armReject_status ..,
      Dev.armReject_reason ..⟩

end Sys2Proof.Machine

/-! How a step and a command end: the front of the queue, the passing of time, and the invariant (R5, R61, R69, R213, R560). -/

namespace Sys2Proof.Machine

/-! ## How a command ends -/

theorem Ends.completes {s : State} {b : Bool} {o : Host.Outcome State Fault Refusal} (h : Ends s b o) :
    ∃ t, o = .next t ∧ t.pending = s.pending ∧ t.dev.writes = [] := by
  cases h with
  | store os d => exact ⟨_, rfl, rfl, rfl⟩
  | keep _ d => exact ⟨_, rfl, rfl, rfl⟩

/-- A command that is none of those that store leaves the store. -/
theorem Ends.mem_eq {s t : State} (h : Ends s false (.next t)) : t.mem = s.mem := by
  cases h with
  | keep b d => rfl

/-- Every end of a command keeps the canonical form of the store, whatever it did. -/
theorem Ends.inv {s t : State} {b : Bool} (h : Ends s b (.next t)) (hwf : Mem.wf s.mem = true) : t.Inv := by
  cases h with
  | store os d => exact ⟨Mem.wf_apply os _ hwf, rfl⟩
  | keep b d => exact ⟨hwf, rfl⟩

/-- Settles O5, by `exec_ends`. -/
theorem everyCommandCompletes : Obligations.EveryCommandCompletes := fun c s => (exec_ends c s).completes

/-- Settles O6, by `exec_ends`. -/
theorem onlyStoringCommandsStore : Obligations.OnlyStoringCommandsStore := by
  intro c s t hc ht
  have h := exec_ends c s
  rw [hc, ht] at h
  exact h.mem_eq

theorem step_cons {s : State} {c : Instr} {rest : List Instr} (h : s.pending = c :: rest) :
    step s = exec c { s with pending := rest } := by simp only [step, h]

theorem step_nil {s : State} (h : s.pending = []) : step s = .next s.idleTick := by simp only [step, h]

/-- Settles O1, by `step_cons`. -/
theorem stepTakesFront : Obligations.StepTakesFront := fun _ _ _ => step_cons rfl

/-- Settles O4: every register field reads its reset value in the empty table. -/
theorem resetState : Obligations.ResetState :=
  ⟨⟨rfl, rfl⟩, rfl, fun _ => rfl, rfl, fun _ _ _ => ⟨rfl, rfl⟩⟩

/-! ## Time that passes leaves no store operation over -/

theorem foldl_writes {α : Type} (f : Dev → α → Dev) (hf : ∀ d x, (f d x).writes = d.writes) (xs : List α) (d : Dev) :
    (xs.foldl f d).writes = d.writes := by
  induction xs generalizing d with
  | nil => rfl
  | cons x xs ih => exact (ih _).trans (hf d x)

@[simp] theorem Dev.endReset_writes (d : Dev) (x : Nat × Nat × Bool) : (d.endReset x).writes = d.writes := by
  unfold Dev.endReset
  split
  · rfl
  · simp only
    split <;> simp

@[simp] theorem Dev.domainsBack_writes (d : Dev) : d.domainsBack.writes = d.writes :=
  (foldl_writes _ (fun e _ => Dev.raise_writes e _ _ _ _ _) _ _).trans rfl

@[simp] theorem Dev.endResets_writes (d : Dev) : d.endResets.writes = d.writes := by
  unfold Dev.endResets
  simp only
  split
  · rfl
  · rw [Dev.domainsBack_writes, foldl_writes _ Dev.endReset_writes]

@[simp] theorem Dev.passTo_writes (d : Dev) (t : Nat) : (d.passTo t).writes = d.writes := by
  unfold Dev.passTo
  split
  · rfl
  · simp only [Dev.endResets_writes]
    split <;> rfl

/-- Settles O3: a command keeps the invariant by `Ends.inv`, and time that passes leaves no store operation over. -/
theorem stepKeepsInvariant : Obligations.StepKeepsInvariant := by
  intro s t hs ht
  cases hp : s.pending with
  | nil =>
    rw [step_nil hp] at ht
    cases ht
    exact ⟨hs.1, Dev.passTo_writes _ _⟩
  | cons c rest =>
    rw [step_cons hp] at ht
    exact Ends.inv (s := { s with pending := rest }) (ht ▸ exec_ends c { s with pending := rest }) hs.1

/-! ## What time that passes does -/

/-- No block reset has run out. -/
theorem Dev.endResets_of_later {d : Dev} (h : ∀ x ∈ d.resetting, d.now < x.2.1) : d.endResets = d := by
  have hdue : (d.resetting.filter fun x => decide (x.2.1 ≤ d.now)) = [] :=
    List.filter_eq_nil_iff.mpr fun x hx => by have := h x hx; simp; omega
  simp only [Dev.endResets, hdue, if_true]

/-- No domain waits for its return. -/
theorem Dev.domainsBack_of_none {d : Dev} (h : d.rst.back = []) : d.domainsBack = d := by
  obtain ⟨⟩ := d
  rename_i rst _ _ _ _ _ _ _
  obtain ⟨⟩ := rst
  simp only at h
  subst h
  rfl

/-- Time that passes while the beat timer stands still and the one reset that runs out belongs to a disabled block. -/
theorem Dev.passTo_one_reset {d : Dev} {pg t : Nat} (ht : d.now < t) (hr : d.resetting = [(pg, t, true)]) (hback : d.rst.back = [])
    (hoff : d.timerOn = false) (hbs : d.bs pg = Bs.resetting) (hen : d.hd Hdr.CTL_EN pg = 0) :
    d.passTo t = (({ d with now := t, resetting := [] }.setBs pg Bs.off).raise pg 0x0108 3 Sev.info 0) := by
  have hlt : ¬ t ≤ d.now := by omega
  have hbs' : Dev.bs { d with now := t, resetting := [] } pg = Bs.resetting := hbs
  have hen' : Dev.hd { d with now := t, resetting := [] } Hdr.CTL_EN pg = 0 := hen
  have hreset : Dev.endReset { d with now := t, resetting := [] } (pg, t, true) =
      ({ d with now := t, resetting := [] }.setBs pg Bs.off).raise pg 0x0108 3 Sev.info 0 := by
    simp [Dev.endReset, hbs', hen']
  have hstill : ¬ d.timerOn = true := by simp [hoff]
  simp only [Dev.passTo, if_neg hlt, if_neg hstill, if_false, Dev.endResets, hr, List.filter_cons, List.filter_nil, le_refl, decide_true,
    if_true, lt_irrefl, decide_false, List.foldl_cons, List.foldl_nil, reduceCtorEq]
  rw [hreset]
  exact Dev.domainsBack_of_none (by simpa using hback)

/-- Time that passes while no reset runs out: the clock and, while the beat timer runs, the phase and its window. -/
theorem Dev.passTo_of_later {d : Dev} {t : Nat} (ht : d.now < t) (hr : ∀ x ∈ d.resetting, t < x.2.1) :
    d.passTo t = if d.timerOn then
        ({ d with now := t }.p Reg.BEAT_CFG_PHASE (min (d.g Reg.BEAT_CFG_PHASE + (t - d.now)) (d.period - 1))).p Reg.BEAT_CFG_STATUS_WINDOW
          (d.windowAt (min (d.g Reg.BEAT_CFG_PHASE + (t - d.now)) (d.period - 1)))
      else { d with now := t } := by
  have hlt : ¬ t ≤ d.now := by omega
  simp only [Dev.passTo, hlt, if_false]
  exact Dev.endResets_of_later (by split <;> exact hr)

theorem Dev.phase_p_window (d : Dev) (ph w : Nat) :
    ((d.p Reg.BEAT_CFG_PHASE ph).p Reg.BEAT_CFG_STATUS_WINDOW w).g Reg.BEAT_CFG_PHASE = ph % 2 ^ 15 :=
  (Dev.get_set_ne _ _ _ _ _ _ _ _ (by decide)).trans (Dev.get_set_same _ _ _ _ _ (by decide) (by decide))

/-- Settles O2: `passTo_of_later` for the beat phase, `passTo_one_reset` for the reset that runs out. -/
theorem idleStepPassesTime : Obligations.IdleStepPassesTime := by
  intro s hp
  have hends : step s = s.ends (s.dev.start.passTo (s.dev.now + 1)) := by
    have hw : (s.dev.start.passTo (s.dev.now + 1)).writes = [] := Dev.passTo_writes _ _
    rw [step_nil hp, State.ends, State.idleTick, ← hw]
  refine ⟨hends, fun hlater => ?_, fun pg hr hback hoff hbs hen => ?_⟩
  · have hpass := Dev.passTo_of_later (d := s.dev.start) (Nat.lt_succ_self s.dev.now) hlater
    cases hon : s.dev.timerOn with
    | false =>
      rw [if_neg (by simp [hon])] at hpass
      rw [hends, hpass]
      exact ⟨_, rfl, hp, rfl, rfl, rfl, rfl, fun _ => rfl, fun h => absurd h (by decide), fun _ _ => rfl⟩
    | true =>
      rw [if_pos (by simp [hon])] at hpass
      rw [hends, hpass]
      refine ⟨_, rfl, hp, rfl, rfl, rfl, rfl, fun h => absurd h (by decide), fun _ => ?_, fun k hk => ?_⟩
      · have h1 : s.dev.now + 1 - s.dev.start.now = 1 := Nat.add_sub_cancel_left ..
        refine (Dev.phase_p_window _ _ _).trans ?_
        rw [h1]
        rfl
      · simp only [fieldKeys, List.flatMap_cons, List.flatMap_nil, List.append_nil, List.mem_append, List.mem_map, List.mem_range, not_or,
          not_exists, not_and] at hk
        obtain ⟨hphase, hwindow⟩ := hk
        exact (Dev.find_p_ne _ _ _ _ _ (Ne.symm (hwindow 0 (by decide)))).trans (Dev.find_p_ne _ _ _ _ _ (Ne.symm (hphase 0 (by decide))))
  · rw [hends, Dev.passTo_one_reset (d := s.dev.start) (Nat.lt_succ_self s.dev.now) hr hback hoff hbs hen]

end Sys2Proof.Machine

/-! The LOSSLESS coding of a block decodes to the block (R238). -/

namespace Sys2Proof.Machine

/-! ## Little-endian bytes -/

@[simp] theorem natLe_length (n v : Nat) : (natLe n v).length = n := by
  induction n generalizing v with
  | zero => rfl
  | succ n ih => simp [natLe, ih]

theorem leNat_natLe_append (n v : Nat) (bs : List Byte) : leNat (natLe n v ++ bs) = v % 256 ^ n + 256 ^ n * leNat bs := by
  induction n generalizing v with
  | zero => simp [natLe, Nat.mod_one]
  | succ n ih =>
    have hbyte : (BitVec.ofNat 8 v).toNat = v % 256 := rfl
    rw [natLe, List.cons_append, leNat, ih, hbyte, Nat.pow_succ', Nat.mod_mul]
    ring

theorem leNat_natLe (n v : Nat) : leNat (natLe n v) = v % 256 ^ n := by
  simpa [leNat] using leNat_natLe_append n v []

/-! ## Packed fields -/

theorem packBits_lt (fs : List (Nat × Nat)) : (packBits fs).1 < 2 ^ (packBits fs).2 := by
  induction fs with
  | nil => decide
  | cons f fs ih =>
    obtain ⟨v, w⟩ := f
    have hv : v % 2 ^ w < 2 ^ w := Nat.mod_lt _ (Nat.two_pow_pos w)
    calc v % 2 ^ w + 2 ^ w * (packBits fs).1 < 2 ^ w + 2 ^ w * (packBits fs).1 := Nat.add_lt_add_right hv _
      _ = 2 ^ w * ((packBits fs).1 + 1) := by ring
      _ ≤ 2 ^ w * 2 ^ (packBits fs).2 := Nat.mul_le_mul_left _ ih
      _ = 2 ^ (w + (packBits fs).2) := (Nat.pow_add ..).symm

/-- The number `v` holds the packed fields from bit `pos` upward. -/
def HoldsAt (v pos : Nat) (fs : List (Nat × Nat)) : Prop := bits v pos (packBits fs).2 = (packBits fs).1

/-- What is read of the first field, and where the others lie. -/
theorem HoldsAt.cons {v pos a w : Nat} {fs : List (Nat × Nat)} (h : HoldsAt v pos ((a, w) :: fs)) :
    bits v pos w = a % 2 ^ w ∧ HoldsAt v (pos + w) fs := by
  have hsplit : v / 2 ^ pos % 2 ^ w + 2 ^ w * (v / 2 ^ pos / 2 ^ w % 2 ^ (packBits fs).2) = a % 2 ^ w + 2 ^ w * (packBits fs).1 := by
    rw [← Nat.mod_mul, ← Nat.pow_add]; exact h
  have hlow := congrArg (· % 2 ^ w) hsplit
  have hhigh := congrArg (· / 2 ^ w) hsplit
  simp only [Nat.add_mul_mod_self_left, Nat.mod_mod] at hlow
  simp only [Nat.add_mul_div_left _ _ (Nat.two_pow_pos w), Nat.div_eq_of_lt (Nat.mod_lt _ (Nat.two_pow_pos w)), Nat.zero_add,
    Nat.div_div_eq_div_mul, ← Nat.pow_add] at hhigh
  exact ⟨hlow, hhigh⟩

/-- Fields packed into whole bytes are held by those bytes, whatever bytes follow. -/
theorem HoldsAt.natLe (fs : List (Nat × Nat)) (bs : List Byte) :
    HoldsAt (leNat (natLe (((packBits fs).2 + 7) / 8) (packBits fs).1 ++ bs)) 0 fs := by
  have hroom : (packBits fs).2 ≤ 8 * (((packBits fs).2 + 7) / 8) := by omega
  have hfit : (packBits fs).1 < 2 ^ (8 * (((packBits fs).2 + 7) / 8)) :=
    Nat.lt_of_lt_of_le (packBits_lt fs) (Nat.pow_le_pow_right (by decide) hroom)
  have hbytes (n : Nat) : 256 ^ n = 2 ^ (8 * n) := by rw [Nat.pow_mul]
  obtain ⟨k, hk⟩ := Nat.pow_dvd_pow 2 hroom
  rw [HoldsAt, bits, leNat_natLe_append, hbytes, Nat.mod_eq_of_lt hfit, Nat.pow_zero, Nat.div_one, hk, Nat.mul_assoc,
    Nat.add_mul_mod_self_left, Nat.mod_eq_of_lt (packBits_lt fs)]

/-! ## Widths of a two's complement number -/

/-- The number is one of `b` bits in two's complement; of none, only 0. -/
def FitsBits (b : Nat) (x : Int) : Prop := if b = 0 then x = 0 else -(2 ^ (b - 1) : Int) ≤ x ∧ x < 2 ^ (b - 1)

theorem wrapI_of_lt {w n : Nat} (h : n < 2 ^ w) : wrapI w (n : Int) = n := by
  have hmod : ((n : Int) % 2 ^ w) = ((n % 2 ^ w : Nat) : Int) := by push_cast; rfl
  rw [wrapI, hmod, Nat.mod_eq_of_lt h, Int.toNat_natCast]

theorem wrapI_lt (w : Nat) (x : Int) : wrapI w x < 2 ^ w := by
  have hpos : (0 : Int) < 2 ^ w := by positivity
  have h0 := Int.emod_nonneg x hpos.ne'
  have h1 := Int.emod_lt_of_pos x hpos
  rw [wrapI]
  zify
  rwa [Int.toNat_of_nonneg h0]

theorem sInt_wrapI {b : Nat} {x : Int} (hb : b ≠ 0) (hx : FitsBits b x) : sInt b (wrapI b x) = x := by
  obtain ⟨c, rfl⟩ := Nat.exists_eq_succ_of_ne_zero hb
  simp only [FitsBits, Nat.succ_ne_zero, if_false, Nat.succ_sub_one] at hx
  obtain ⟨hlo, hhi⟩ := hx
  have hpow : (2 : Int) ^ (c + 1) = 2 * 2 ^ c := by ring
  simp only [sInt, wrapI, Nat.succ_sub_one, Nat.succ_eq_add_one, hpow]
  have hcast : ((2 ^ c : Nat) : Int) = 2 ^ c := by push_cast; rfl
  generalize (2 : Int) ^ c = p at *
  by_cases hneg : x < 0
  · have hmod : x % (2 * p) = x + 2 * p := by
      rw [← Int.add_emod_right]; exact Int.emod_eq_of_lt (by omega) (by omega)
    rw [hmod, if_neg (by omega), Int.toNat_of_nonneg (by omega)]
    omega
  · have hmod : x % (2 * p) = x := Int.emod_eq_of_lt (by omega) (by omega)
    rw [hmod, if_pos (by omega), Int.toNat_of_nonneg (by omega)]

/-! ## The fields of a coded group -/

/-- The exponent differences of a list of elements whose predecessor has the exponent `prev`. -/
def llDeltasFrom (fmt : Nat) : Option Nat → List Nat → List Int
  | _, [] => []
  | none, x :: xs => llDeltasFrom fmt (some (llExpOf fmt x)) xs
  | some p, x :: xs => ((llExpOf fmt x : Int) - p) :: llDeltasFrom fmt (some (llExpOf fmt x)) xs

/-- The fields of a coded group, element by element. -/
def llFields (fmt b : Nat) : Option Nat → List Nat → List (Nat × Nat)
  | _, [] => []
  | prev, x :: xs =>
    (match prev with
      | none => [(llExpOf fmt x, llExp fmt), (x / 2 ^ (llMan fmt + llExp fmt), 1), (x % 2 ^ llMan fmt, llMan fmt)]
      | some p => [(x / 2 ^ (llMan fmt + llExp fmt), 1), (wrapI b ((llExpOf fmt x : Int) - p), b), (x % 2 ^ llMan fmt, llMan fmt)]) ++
    llFields fmt b (some (llExpOf fmt x)) xs

theorem llDeltas_cons (fmt x : Nat) (xs : List Nat) : llDeltas fmt (x :: xs) = llDeltasFrom fmt (some (llExpOf fmt x)) xs := by
  induction xs generalizing x with
  | nil => rfl
  | cons y ys ih => rw [llDeltas, ih, llDeltasFrom]

theorem llDeltas_eq (fmt : Nat) (xs : List Nat) : llDeltas fmt xs = llDeltasFrom fmt none xs := by
  cases xs with
  | nil => rfl
  | cons x xs => rw [llDeltas_cons, llDeltasFrom]

/-- The fields of the elements behind the first. -/
theorem llFields_tail (fmt b x : Nat) (xs : List Nat) :
    ((List.range xs.length).flatMap fun i =>
      [(xs.getD i 0 / 2 ^ (llMan fmt + llExp fmt), 1), (wrapI b ((llDeltas fmt (x :: xs)).getD i 0), b),
        (xs.getD i 0 % 2 ^ llMan fmt, llMan fmt)]) =
    llFields fmt b (some (llExpOf fmt x)) xs := by
  induction xs generalizing x with
  | nil => rfl
  | cons y ys ih =>
    rw [List.length_cons, List.range_succ_eq_map, List.flatMap_cons, List.flatMap_map, llFields, ← ih y]
    rfl

/-- The fields of a coded group are those of its elements that are not 0. -/
theorem llGroup_eq (fmt : Nat) (g : List Nat) :
    llGroup fmt g =
      let nz := g.filter (· ≠ 0)
      let b := llWidth (llDeltas fmt nz)
      let p := packBits (llFields fmt b none nz)
      BitVec.ofNat 8 b :: natLe 4 ((List.range 32).foldl (fun z i => if g.getD i 0 = 0 then setBit z i else z) 0) ++
        natLe ((p.2 + 7) / 8) p.1 := by
  have hfields (b : Nat) : ∀ nz : List Nat,
      ((List.range nz.length).flatMap fun i => if i = 0 then
          [(llExpOf fmt (nz.getD i 0), llExp fmt), (nz.getD i 0 / 2 ^ (llMan fmt + llExp fmt), 1), (nz.getD i 0 % 2 ^ llMan fmt, llMan fmt)]
        else [(nz.getD i 0 / 2 ^ (llMan fmt + llExp fmt), 1), (wrapI b ((llDeltas fmt nz).getD (i - 1) 0), b),
          (nz.getD i 0 % 2 ^ llMan fmt, llMan fmt)]) = llFields fmt b none nz := by
    intro nz
    cases nz with
    | nil => rfl
    | cons x xs =>
      rw [List.length_cons, List.range_succ_eq_map, List.flatMap_cons, List.flatMap_map, llFields, ← llFields_tail]
      rfl
  simp only [llGroup, ← hfields]

/-! ## The delta width -/

theorem llExpOf_lt (fmt x : Nat) : llExpOf fmt x < 2 ^ llExp fmt := Nat.mod_lt _ (Nat.two_pow_pos _)

/-- Every difference of two exponents fits the largest delta width. -/
theorem llDeltasFrom_bound (fmt : Nat) (hfmt : fmt ≤ 1) (xs : List Nat) (prev : Option Nat) (hprev : ∀ p ∈ prev, p < 2 ^ llExp fmt) :
    ∀ d ∈ llDeltasFrom fmt prev xs, FitsBits (llMaxB fmt) d := by
  induction xs generalizing prev with
  | nil => cases prev <;> simp [llDeltasFrom]
  | cons x xs ih =>
    have hx := llExpOf_lt fmt x
    have htail := ih (some (llExpOf fmt x)) (by simpa using hx)
    cases prev with
    | none => exact htail
    | some p =>
      have hp := hprev p rfl
      intro d hd
      rcases List.mem_cons.mp hd with rfl | hd
      · obtain rfl | rfl : fmt = 0 ∨ fmt = 1 := by omega
        all_goals simp only [llExp, FitsBits, llMaxB] at *; norm_num at *; omega
      · exact htail d hd

theorem llWidth_spec (fmt : Nat) (hfmt : fmt ≤ 1) (xs : List Nat) :
    llWidth (llDeltas fmt xs) ≤ llMaxB fmt ∧ ∀ d ∈ llDeltas fmt xs, FitsBits (llWidth (llDeltas fmt xs)) d := by
  have hbound : ∀ d ∈ llDeltas fmt xs, FitsBits (llMaxB fmt) d := by
    rw [llDeltas_eq]; exact llDeltasFrom_bound fmt hfmt xs none (by simp)
  generalize llDeltas fmt xs = ds at *
  have hfits (b : Nat) : (ds.all fun x => if b = 0 then x == 0 else decide (-(2 ^ (b - 1) : Int) ≤ x ∧ x < 2 ^ (b - 1))) = true ↔
      ∀ d ∈ ds, FitsBits b d := by
    rw [List.all_eq_true]
    refine forall₂_congr fun d _ => ?_
    unfold FitsBits
    split <;> simp
  have hmax : llMaxB fmt < 10 := by unfold llMaxB; split <;> decide
  unfold llWidth
  cases hfind : (List.range 10).find? fun b =>
      ds.all fun x => if b = 0 then x == 0 else decide (-(2 ^ (b - 1) : Int) ≤ x ∧ x < 2 ^ (b - 1)) with
  | none => exact absurd ((hfits _).mpr hbound) (List.find?_eq_none.mp hfind _ (List.mem_range.mpr hmax))
  | some b =>
    obtain ⟨hb, as, bs, heq, hbefore⟩ := List.find?_eq_some_iff_append.mp hfind
    refine ⟨?_, (hfits b).mp hb⟩
    by_contra hlt
    have hmem : llMaxB fmt ∈ as := by
      have hsorted : (as ++ b :: bs).Pairwise (· < ·) := heq ▸ List.pairwise_lt_range
      have hin : llMaxB fmt ∈ as ++ b :: bs := heq ▸ List.mem_range.mpr hmax
      rcases List.mem_append.mp hin with h | h
      · exact h
      · have hle : b ≤ llMaxB fmt := by
          rcases List.mem_cons.mp h with rfl | h
          · exact le_refl _
          · exact Nat.le_of_lt ((List.pairwise_cons.mp (List.pairwise_append.mp hsorted).2.1).1 _ h)
        exact absurd hle hlt
    have hno := hbefore _ hmem
    rw [Bool.not_eq_true', ← Bool.not_eq_true] at hno
    exact hno ((hfits _).mpr hbound)

/-! ## Decoding a group -/

/-- Sign, exponent and mantissa make up an element. -/
theorem llParts (fmt : Nat) (x : Nat) (hfmt : fmt ≤ 1) (hx : x < 2 ^ (8 * elemBytes fmt)) :
    llExpOf fmt x * 2 ^ llMan fmt + x / 2 ^ (llMan fmt + llExp fmt) % 2 ^ 1 * 2 ^ (llMan fmt + llExp fmt) + x % 2 ^ llMan fmt % 2 ^ llMan fmt = x := by
  obtain rfl | rfl : fmt = 0 ∨ fmt = 1 := by omega
  all_goals simp only [llExpOf, bits, llMan, llExp, elemBytes] at *; norm_num at *; omega

/-- The elements of a coded group are read back from its bit field: those that the mask marks are 0, the others come from their fields. -/
theorem llElems_fields {fmt b z v : Nat} (hfmt : fmt ≤ 1) (xs : List Nat) (i pos : Nat) (prev : Option Nat)
    (hx : ∀ x ∈ xs, x < 2 ^ (8 * elemBytes fmt)) (hz : ∀ j, j < xs.length → (bit z (i + j) = true ↔ xs.getD j 0 = 0))
    (hfit : ∀ d ∈ llDeltasFrom fmt prev (xs.filter (· ≠ 0)), FitsBits b d) (hv : HoldsAt v pos (llFields fmt b prev (xs.filter (· ≠ 0)))) :
    llElems fmt b z v xs.length i pos prev = (xs, pos + (packBits (llFields fmt b prev (xs.filter (· ≠ 0)))).2) := by
  induction xs generalizing i pos prev with
  | nil => rfl
  | cons x xs ih =>
    have hxs : ∀ y ∈ xs, y < 2 ^ (8 * elemBytes fmt) := fun y hy => hx y (List.mem_cons_of_mem _ hy)
    have hzs : ∀ j, j < xs.length → (bit z (i + 1 + j) = true ↔ xs.getD j 0 = 0) := fun j hj => by
      have h := hz (j + 1) (by simpa using hj)
      rwa [← Nat.add_assoc, Nat.add_right_comm] at h
    have hmask : bit z i = true ↔ x = 0 := by simpa using hz 0 (by simp)
    rw [List.length_cons, llElems]
    by_cases hx0 : x = 0
    · have hnz : (x :: xs).filter (· ≠ 0) = xs.filter (· ≠ 0) := List.filter_cons_of_neg (by simp [hx0])
      rw [hnz] at hfit hv ⊢
      rw [if_pos (hmask.mpr hx0), ih (i + 1) pos prev hxs hzs hfit hv, hx0]
    · have hnz : (x :: xs).filter (· ≠ 0) = x :: xs.filter (· ≠ 0) := List.filter_cons_of_pos (by simp [hx0])
      rw [hnz] at hfit hv ⊢
      rw [if_neg (fun h => hx0 (hmask.mp h))]
      have hparts := llParts fmt x hfmt (hx x (by simp))
      have hexp : llExpOf fmt x % 2 ^ llExp fmt = llExpOf fmt x := Nat.mod_eq_of_lt (llExpOf_lt fmt x)
      cases prev with
      | none =>
        obtain ⟨h1, hv⟩ := HoldsAt.cons hv
        obtain ⟨h2, hv⟩ := HoldsAt.cons hv
        obtain ⟨h3, hv⟩ := HoldsAt.cons hv
        simp only [h1, h2, h3, hexp, hparts, ih (i + 1) _ (some (llExpOf fmt x)) hxs hzs hfit hv]
        simp only [llFields, List.cons_append, List.nil_append, packBits, Prod.mk.injEq, true_and]
        omega
      | some p =>
        obtain ⟨h1, hv⟩ := HoldsAt.cons hv
        obtain ⟨h2, hv⟩ := HoldsAt.cons hv
        obtain ⟨h3, hv⟩ := HoldsAt.cons hv
        have hd : FitsBits b ((llExpOf fmt x : Int) - p) := hfit _ (by simp [llDeltasFrom])
        have hdelta : (if b = 0 then (0 : Int) else sInt b (wrapI b ((llExpOf fmt x : Int) - p))) = (llExpOf fmt x : Int) - p := by
          split
          · rename_i hb
            rw [FitsBits, if_pos hb] at hd
            exact hd.symm
          · rename_i hb
            exact sInt_wrapI hb hd
        have hback : wrapI (llExp fmt) ((p : Int) + ((llExpOf fmt x : Int) - p)) = llExpOf fmt x := by
          rw [add_sub_cancel, wrapI_of_lt (llExpOf_lt fmt x)]
        rw [Nat.mod_eq_of_lt (wrapI_lt ..)] at h2
        have hrest := ih (i + 1) _ (some (llExpOf fmt x)) hxs hzs (fun d hd => hfit d (List.mem_cons_of_mem _ hd)) hv
        simp only [h1, h2, h3, hdelta, hback, hparts, hrest]
        simp only [llFields, List.cons_append, List.nil_append, packBits, Prod.mk.injEq, true_and]
        omega

/-- The zero mask of a group. -/
theorem zeroMask_testBit (g : List Nat) (n j : Nat) :
    ((List.range n).foldl (fun z i => if g.getD i 0 = 0 then setBit z i else z) 0).testBit j = decide (j < n ∧ g.getD j 0 = 0) := by
  induction n with
  | zero => simp
  | succ n ih =>
    rw [List.range_succ, List.foldl_append, List.foldl_cons, List.foldl_nil]
    split
    · rename_i hn
      rw [setBit, Nat.testBit_or, ih, Nat.testBit_two_pow, Bool.eq_iff_iff]
      simp only [Bool.or_eq_true, decide_eq_true_eq]
      constructor
      · rintro (⟨h1, h2⟩ | rfl)
        · exact ⟨by omega, h2⟩
        · exact ⟨by omega, hn⟩
      · rintro ⟨h1, h2⟩
        by_cases h : j < n
        · exact .inl ⟨h, h2⟩
        · exact .inr (by omega)
    · rename_i hn
      rw [ih, Bool.eq_iff_iff]
      simp only [decide_eq_true_eq]
      refine ⟨fun h => ⟨by omega, h.2⟩, fun h => ⟨?_, h.2⟩⟩
      by_contra hlt
      obtain rfl : j = n := by omega
      exact hn h.2

theorem zeroMask_lt (g : List Nat) : (List.range 32).foldl (fun z i => if g.getD i 0 = 0 then setBit z i else z) 0 < 2 ^ 32 := by
  refine Nat.lt_pow_two_of_testBit _ fun j hj => ?_
  rw [zeroMask_testBit]
  simp; omega

/-- The bit field of a group is at most 132 bytes long. -/
theorem llFields_width (fmt b : Nat) (hfmt : fmt ≤ 1) (hb : b ≤ llMaxB fmt) (xs : List Nat) (prev : Option Nat) :
    (packBits (llFields fmt b prev xs)).2 ≤ 33 * xs.length := by
  induction xs generalizing prev with
  | nil => cases prev <;> simp [llFields, packBits]
  | cons x xs ih =>
    have h := ih (some (llExpOf fmt x))
    have hwidths : llExp fmt + 1 + llMan fmt ≤ 33 ∧ 1 + llMaxB fmt + llMan fmt ≤ 33 := by
      obtain rfl | rfl : fmt = 0 ∨ fmt = 1 := by omega
      all_goals decide
    cases prev <;> simp only [llFields, List.cons_append, List.nil_append, packBits, List.length_cons] <;> omega

/-- A coded group decodes to its elements. -/
theorem llDecode_group {fmt fuel left : Nat} {g : List Nat} (rest : List Byte) (hfmt : fmt ≤ 1) (hlen : g.length = 32)
    (hg : ∀ x ∈ g, x < 2 ^ (8 * elemBytes fmt)) :
    llDecode fmt (fuel + 1) (left + 1) (llGroup fmt g ++ rest) = (llDecode fmt fuel left rest).map (g ++ ·) := by
  obtain ⟨hmax, hfit⟩ := llWidth_spec fmt hfmt (g.filter (· ≠ 0))
  have hwidth := llFields_width fmt _ hfmt hmax (g.filter (· ≠ 0)) none
  have hcount : (g.filter (· ≠ 0)).length ≤ 32 := hlen ▸ List.length_filter_le _ g
  have hsmall : llMaxB fmt ≤ 9 := by unfold llMaxB; split <;> decide
  rw [llGroup_eq]
  simp only
  generalize hb : llWidth (llDeltas fmt (g.filter (· ≠ 0))) = b at *
  generalize hz : (List.range 32).foldl (fun z i => if g.getD i 0 = 0 then setBit z i else z) 0 = z at *
  have hzlt : z < 2 ^ 32 := hz ▸ zeroMask_lt g
  have hzbit (j : Nat) : bit z j = decide (j < 32 ∧ g.getD j 0 = 0) := by rw [← hz]; exact zeroMask_testBit g 32 j
  generalize hfs : llFields fmt b none (g.filter (· ≠ 0)) = fs at *
  have hhead : (BitVec.ofNat 8 b).toNat = b := Nat.mod_eq_of_lt (by omega)
  have hmask : leNat ((natLe 4 z ++ natLe (((packBits fs).2 + 7) / 8) (packBits fs).1 ++ rest).take 4) = z := by
    rw [List.append_assoc, List.take_append_of_le_length (by simp), List.take_of_length_le (by simp), leNat_natLe, Nat.mod_eq_of_lt]
    exact hzlt
  have hbody : (natLe 4 z ++ natLe (((packBits fs).2 + 7) / 8) (packBits fs).1 ++ rest).drop 4 =
      natLe (((packBits fs).2 + 7) / 8) (packBits fs).1 ++ rest := by
    rw [List.append_assoc, List.drop_append_of_le_length (by simp), List.drop_of_length_le (by simp), List.nil_append]
  have htake : (natLe (((packBits fs).2 + 7) / 8) (packBits fs).1 ++ rest).take 144 =
      natLe (((packBits fs).2 + 7) / 8) (packBits fs).1 ++ rest.take (144 - ((packBits fs).2 + 7) / 8) := by
    rw [List.take_append, List.take_of_length_le (by simp; omega), natLe_length]
  have helems := llElems_fields (z := z) (v := leNat ((natLe (((packBits fs).2 + 7) / 8) (packBits fs).1 ++ rest).take 144)) hfmt g 0 0 none hg
    (fun j hj => by rw [Nat.zero_add, hzbit, decide_eq_true_eq]; exact and_iff_right (hlen ▸ hj)) (by rw [← llDeltas_eq]; exact hfit)
    (by rw [hfs, htake]; exact HoldsAt.natLe fs _)
  rw [hlen, hfs, Nat.zero_add] at helems
  rw [List.cons_append, List.cons_append, llDecode, if_neg (Nat.succ_ne_zero left)]
  simp only [hhead, hmask, hbody, helems]
  rw [if_neg (by omega), if_neg (by simp; omega), if_neg (by simp), List.drop_append_of_le_length (by simp),
    List.drop_of_length_le (by simp), List.nil_append, Nat.add_sub_cancel]

/-- A run of all-zero groups decodes to their elements. -/
theorem llDecode_run {fmt fuel left n : Nat} (rest : List Byte) (hn : n ≠ 0) (hn128 : n ≤ 128) :
    llDecode fmt (fuel + 1) (left + n) (llRun n ++ rest) = (llDecode fmt fuel left rest).map (List.replicate (32 * n) 0 ++ ·) := by
  have hhead : (BitVec.ofNat 8 (127 + n)).toNat = 127 + n := Nat.mod_eq_of_lt (by omega)
  rw [llRun, if_neg hn, List.singleton_append, llDecode, if_neg (by omega)]
  simp only [hhead]
  rw [if_pos (by omega), if_neg (by omega), Nat.add_sub_cancel_left, Nat.add_sub_cancel]

/-- The same with an empty run, which takes no byte. -/
theorem llDecode_run_or_none {fmt fuel left n : Nat} (rest : List Byte) (ys : List Nat) (hn : n ≤ 128)
    (h : ∀ fuel', fuel ≤ fuel' → (n = 0 → fuel < fuel') → llDecode fmt fuel' left rest = some ys) :
    llDecode fmt (fuel + 1) (left + n) (llRun n ++ rest) = some (List.replicate (32 * n) 0 ++ ys) := by
  by_cases h0 : n = 0
  · subst h0
    exact h _ (by omega) (by omega)
  · rw [llDecode_run rest h0 hn, h _ (le_refl _) (by omega)]
    rfl

theorem eq_replicate_of_all_zero {g : List Nat} (hlen : g.length = 32) (hg : g.all (· = 0) = true) : g = List.replicate 32 0 :=
  List.eq_replicate_iff.mpr ⟨hlen, fun x hx => by simpa using List.all_eq_true.mp hg x hx⟩

/-- The decoding of coded groups, behind all-zero groups that are counted and not yet coded. -/
theorem llDecode_llEncode {fmt : Nat} (hfmt : fmt ≤ 1) (gs : List (List Nat)) (run fuel : Nat) (hrun : run ≤ 127) (hfuel : gs.length + run < fuel)
    (hgs : ∀ g ∈ gs, g.length = 32 ∧ ∀ x ∈ g, x < 2 ^ (8 * elemBytes fmt)) :
    llDecode fmt fuel (gs.length + run) (llEncode fmt gs run) = some (List.replicate (32 * run) 0 ++ gs.flatten) := by
  induction gs generalizing run fuel with
  | nil =>
    obtain ⟨fuel, rfl⟩ := Nat.exists_eq_succ_of_ne_zero (Nat.ne_of_gt (Nat.zero_lt_of_lt hfuel))
    rw [llEncode, ← List.append_nil (llRun run)]
    exact llDecode_run_or_none [] [] (by omega) fun fuel' _ _ => by cases fuel' <;> rfl
  | cons g gs ih =>
    obtain ⟨hlen, hx⟩ := hgs g (by simp)
    have htail : ∀ h ∈ gs, h.length = 32 ∧ ∀ x ∈ h, x < 2 ^ (8 * elemBytes fmt) := fun h hh => hgs h (List.mem_cons_of_mem _ hh)
    rw [List.length_cons] at hfuel ⊢
    rw [llEncode]
    split
    · rename_i hzero
      have hflat : List.replicate (32 * run) 0 ++ (g :: gs).flatten = List.replicate (32 * (run + 1)) 0 ++ gs.flatten := by
        rw [eq_replicate_of_all_zero hlen hzero, List.flatten_cons, ← List.append_assoc, List.replicate_append_replicate, Nat.mul_succ]
      rw [hflat, Nat.add_right_comm, Nat.add_assoc]
      split
      · rename_i h127
        subst h127
        obtain ⟨fuel, rfl⟩ := Nat.exists_eq_succ_of_ne_zero (Nat.ne_of_gt (Nat.zero_lt_of_lt hfuel))
        exact llDecode_run_or_none _ _ (by omega) fun fuel' _ _ => by
          simpa using ih 0 fuel' (by omega) (by omega) htail
      · exact ih (run + 1) fuel (by omega) (by omega) htail
    · rw [List.append_assoc]
      obtain ⟨fuel, rfl⟩ := Nat.exists_eq_succ_of_ne_zero (Nat.ne_of_gt (Nat.zero_lt_of_lt hfuel))
      refine llDecode_run_or_none _ _ (by omega) fun fuel' hle hnone => ?_
      obtain ⟨fuel', rfl⟩ := Nat.exists_eq_succ_of_ne_zero (show fuel' ≠ 0 by omega)
      have hrest := ih 0 fuel' (by omega) (by omega) htail
      rw [Nat.add_zero] at hrest
      rw [llDecode_group _ hfmt hlen hx, hrest]
      rfl

/-- Settles O41, by `llDecode_llEncode`. -/
theorem losslessRoundTrip : Obligations.LosslessRoundTrip := by
  intro fmt gs hfmt hgs
  simpa using llDecode_llEncode hfmt gs 0 (gs.length + 1) (by omega) (by omega) hgs

end Sys2Proof.Machine

/-! What a masked write leaves in a register, and what a bundle leaves of the registers of a unit (R149, R153, R185, R203). -/

namespace Sys2Proof.Machine

/-! ## Elements of a register -/

/-- The number that a list of digits makes up, the first digit the least, and what its digits are. -/
theorem digits_lt (B : Nat) (hB : 0 < B) (es : List Nat) : es.foldr (fun e acc => acc * B + e % B) 0 < B ^ es.length := by
  induction es with
  | nil => simp
  | cons e es ih =>
    have he : e % B < B := Nat.mod_lt _ hB
    rw [List.foldr_cons, List.length_cons, Nat.pow_succ]
    calc _ < es.foldr (fun e acc => acc * B + e % B) 0 * B + B := Nat.add_lt_add_left he _
      _ = (es.foldr (fun e acc => acc * B + e % B) 0 + 1) * B := by ring
      _ ≤ B ^ es.length * B := Nat.mul_le_mul_right _ ih

theorem digit_getD (B : Nat) (hB : 0 < B) (es : List Nat) (i : Nat) :
    es.foldr (fun e acc => acc * B + e % B) 0 / B ^ i % B = es.getD i 0 % B := by
  induction es generalizing i with
  | nil => simp
  | cons e es ih =>
    have he : e % B < B := Nat.mod_lt _ hB
    rw [List.foldr_cons]
    cases i with
    | zero => simp
    | succ i =>
      rw [Nat.pow_succ', ← Nat.div_div_eq_div_mul, Nat.add_comm, Nat.add_mul_div_right _ _ hB, Nat.div_eq_of_lt he, Nat.zero_add, ih]
      rfl

theorem vElem_vOfElems {w : Nat} (es : List Nat) (i : Nat) (hlen : w * es.length = 2048) : vElem w (vOfElems w es) i = es.getD i 0 % 2 ^ w := by
  have hlt := digits_lt (2 ^ w) (Nat.two_pow_pos w) es
  rw [← Nat.pow_mul, hlen] at hlt
  have hnum : (vOfElems w es).toNat = es.foldr (fun e acc => acc * 2 ^ w + e % 2 ^ w) 0 := Nat.mod_eq_of_lt hlt
  rw [vElem, hnum, Nat.pow_mul]
  exact digit_getD (2 ^ w) (Nat.two_pow_pos w) es i

theorem vElem_lt (w : Nat) (r : VReg) (i : Nat) : vElem w r i < 2 ^ w := Nat.mod_lt _ (Nat.two_pow_pos w)

/-- R153: element by element, what a masked write leaves in a vector register. -/
theorem vElem_mergeElems {w : Nat} (hw : w = 8 ∨ w = 16 ∨ w = 32) (old : VReg) (lo n : Nat) (act : Nat → Bool) (zm : Bool) (val : Nat → Nat)
    {e : Nat} (he : e < 2048 / w) :
    vElem w (mergeElems old w lo n act zm val) e =
      if lo ≤ e ∧ e < lo + n then (if act (e - lo) then val (e - lo) % 2 ^ w else if zm then 0 else vElem w old e) else vElem w old e := by
  have hlen : w * (2048 / w) = 2048 := by rcases hw with rfl | rfl | rfl <;> rfl
  have hold : vElem w old e % 2 ^ w = vElem w old e := Nat.mod_eq_of_lt (vElem_lt w old e)
  rw [mergeElems, vElem_vOfElems _ _ (by rw [List.length_map, List.length_range, hlen])]
  simp only [List.getD_eq_getElem?_getD, List.getElem?_map, List.getElem?_range he, Option.map_some, Option.getD_some]
  repeat' split
  all_goals simp [hold]

theorem foldr_ofB_eq (f : Nat → Bool) (es : List Nat) :
    es.foldr (fun e acc => acc * 2 + ofB (f e)) 0 = (es.map fun e => ofB (f e)).foldr (fun e acc => acc * 2 + e % 2) 0 := by
  have hbit (b : Bool) : ofB b % 2 = ofB b := by cases b <;> rfl
  simp only [List.foldr_map, hbit]

/-- R153: bit by bit, what a masked write leaves in a mask register. -/
theorem getLsbD_mergeBits (old : MReg) (lo n : Nat) (act : Nat → Bool) (zm : Bool) (val : Nat → Bool) {j : Nat} (hj : j < 256) :
    (mergeBits old lo n act zm val).getLsbD j =
      if lo ≤ j ∧ j < lo + n then (if act (j - lo) then val (j - lo) else if zm then false else old.getLsbD j) else old.getLsbD j := by
  have hofB (b : Bool) : decide (ofB b % 2 = 1) = b := by cases b <;> rfl
  rw [mergeBits, BitVec.getLsbD_ofNat, foldr_ofB_eq, Nat.testBit_eq_decide_div_mod_eq, digit_getD 2 (by decide), List.getD_eq_getElem?_getD,
    List.getElem?_map, List.getElem?_range hj, Option.map_some, Option.getD_some, hofB, decide_eq_true hj, Bool.true_and]

/-! ## What leaves the registers of the units -/

@[simp] theorem Dev.unit_setUnit_ne (d : Dev) {u v : Nat} (x : UnitSt) (h : v ≠ u) : (d.setUnit u x).unit v = d.unit v :=
  SMap.at_put_ne _ _ _ h

theorem Dev.unit_congr {d e : Dev} (h : e.units = d.units) (u : Nat) : e.unit u = d.unit u := by unfold Dev.unit; rw [h]

/-- From the units `xs` to the units `ys` every other unit stays as it was, and unit `u` keeps its registers and its SR context. -/
structure RegsKept (u : Nat) (xs ys : SMap UnitSt) : Prop where
  vregs : (SMap.at ys u {}).vregs = (SMap.at xs u {}).vregs
  mregs : (SMap.at ys u {}).mregs = (SMap.at xs u {}).mregs
  sregs : (SMap.at ys u {}).sregs = (SMap.at xs u {}).sregs
  srIndex : (SMap.at ys u {}).srIndex = (SMap.at xs u {}).srIndex
  others : ∀ v, v ≠ u → SMap.at ys v {} = SMap.at xs v {}

namespace RegsKept

variable {u : Nat} {xs ys zs : SMap UnitSt}

theorem refl : RegsKept u xs xs := ⟨rfl, rfl, rfl, rfl, fun _ _ => rfl⟩

theorem trans (h : RegsKept u xs ys) (k : RegsKept u ys zs) : RegsKept u xs zs :=
  ⟨k.vregs.trans h.vregs, k.mregs.trans h.mregs, k.sregs.trans h.sregs, k.srIndex.trans h.srIndex,
    fun v hv => (k.others v hv).trans (h.others v hv)⟩

/-- An update of the unit that leaves its registers and its SR index. -/
theorem put {x : UnitSt} (hv : x.vregs = (SMap.at xs u {}).vregs) (hm : x.mregs = (SMap.at xs u {}).mregs)
    (hs : x.sregs = (SMap.at xs u {}).sregs) (hi : x.srIndex = (SMap.at xs u {}).srIndex) : RegsKept u xs (SMap.put xs u x) := by
  have hx := SMap.at_put_same xs u x {}
  exact ⟨by rw [hx, hv], by rw [hx, hm], by rw [hx, hs], by rw [hx, hi], fun _ h => SMap.at_put_ne _ _ _ h⟩

end RegsKept

theorem foldl_units {α : Type} (f : Dev → α → Dev) (hf : ∀ d x, (f d x).units = d.units) (xs : List α) (d : Dev) :
    (xs.foldl f d).units = d.units := by
  induction xs generalizing d with
  | nil => rfl
  | cons x xs ih => exact (ih _).trans (hf d x)

@[simp] theorem Dev.setReqs_units (d : Dev) (pg a b : Nat) : (d.setReqs pg a b).units = d.units := rfl
@[simp] theorem Dev.stoppedView_units (d : Dev) (u : Nat) : (d.stoppedView u).units = d.units := rfl

@[simp] theorem Dev.idle_units (d : Dev) (pg : Nat) : (d.idle pg).units = d.units := by
  unfold Dev.idle
  split <;> simp

@[simp] theorem Dev.busy_units (d : Dev) (pg : Nat) : (d.busy pg).units = d.units := by
  unfold Dev.busy
  split <;> simp

@[simp] theorem Dev.formatEvents_units (d : Dev) (pg fl fmt i v : Nat) : (d.formatEvents pg fl fmt i v).units = d.units := by
  unfold Dev.formatEvents
  simp only
  repeat' split
  all_goals simp

@[simp] theorem Dev.vectorFlags_units (d : Dev) (u fl fmt i : Nat) : (d.vectorFlags u fl fmt i).units = d.units := by
  unfold Dev.vectorFlags
  split
  · rfl
  · rw [Dev.formatEvents_units, foldl_units]
    · rfl
    · intro e x
      split <;> rfl

@[simp] theorem Dev.tileFlags_units (d : Dev) (u : Nat) (t : CqEntry) : (d.tileFlags u t).units = d.units := by
  simp [Dev.tileFlags]

@[simp] theorem Dev.vectorView_units (d : Dev) (u : Nat) : (d.vectorView u).units = d.units := by
  unfold Dev.vectorView
  simp only
  split <;> simp

@[simp] theorem Dev.setUnit_units (d : Dev) (u : Nat) (x : UnitSt) : (d.setUnit u x).units = SMap.put d.units u x := rfl

theorem Dev.at_units (d : Dev) (u : Nat) : SMap.at d.units u {} = d.unit u := rfl

section

variable (d : Dev) (u : Nat)

theorem Dev.atCycle_kept (c : Nat) : RegsKept u d.units (d.atCycle u c).units := .put rfl rfl rfl rfl

theorem Dev.stopUnit_kept (cause : Nat) : RegsKept u d.units (d.stopUnit u cause).units := by
  unfold Dev.stopUnit
  split
  · exact .refl
  · simp only [Dev.setReqs_units, Dev.setUnit_units, Dev.stoppedView_units, Dev.wr_units]
    exact .put rfl rfl rfl rfl

theorem Dev.illegalBundle_kept : RegsKept u d.units (d.illegalBundle u).units := by
  have h := Dev.stopUnit_kept (d.raise (pgSeq u) 0x0408 15 Sev.error (d.rd Reg.SEQ_STATE_PC u)) u 4
  rwa [Dev.raise_units] at h

theorem Dev.endBundle_kept : RegsKept u d.units (d.endBundle u).units := by
  unfold Dev.endBundle
  simp only
  split
  · simp only [Dev.idle_units, Dev.setReqs_units, Dev.wr_units, Dev.count_units, Dev.setUnit_units]
    exact .put rfl rfl rfl rfl
  · split
    · refine .trans ?_ (Dev.illegalBundle_kept _ u)
      simp only [Dev.wr_units, Dev.count_units, Dev.setUnit_units]
      exact .put rfl rfl rfl rfl
    · simp only [Dev.wr_units, Dev.count_units, Dev.setUnit_units]
      exact .put rfl rfl rfl rfl

theorem Dev.makeReady_kept (e : Nat) : RegsKept u d.units (d.makeReady u e).units := by
  unfold Dev.makeReady
  simp only [Dev.tileFlags_units, Dev.count_units, Dev.setUnit_units]
  exact .put rfl rfl rfl rfl

theorem Dev.readyToCurrent_kept : RegsKept u d.units (d.readyToCurrent u).units := by
  unfold Dev.readyToCurrent
  simp only
  split
  · exact .put rfl rfl rfl rfl
  · exact .refl

theorem Dev.verifiedToReady_kept : RegsKept u d.units (d.verifiedToReady u).units := by
  unfold Dev.verifiedToReady
  simp only
  split
  · exact Dev.makeReady_kept d u _
  · exact .refl

theorem Dev.promote_kept : RegsKept u d.units (d.promote u).units := by
  unfold Dev.promote
  rw [Dev.vectorView_units]
  exact (((Dev.verifiedToReady_kept d u).trans (Dev.readyToCurrent_kept _ u)).trans (Dev.verifiedToReady_kept _ u)).trans
    (Dev.readyToCurrent_kept _ u)

theorem Dev.releaseTile_kept : RegsKept u d.units (d.releaseTile u).units := by
  unfold Dev.releaseTile
  split
  · refine .trans ?_ (Dev.promote_kept _ u)
    exact .put rfl rfl rfl rfl
  · rw [Dev.raise_units]
    exact .refl

end

/-! ## What a bundle of one operation leaves -/

theorem Dev.issueBundle_one (d : Dev) (u c : Nat) (o : SlotOp) (ws : List RegWr) (act after : Dev → Dev) :
    d.issueBundle u c [(o, .issue ws act after)] =
      after ((((act d).setUnit u (UnitSt.issueAt c (ws.foldl UnitSt.applyWr ((act d).unit u)) o)).atCycle u (c + 1)).endBundle u) := by
  simp [Dev.issueBundle, SlotRes.act, SlotRes.after, SlotRes.writes]

/-- The registers after a bundle of one operation has issued: those after its effects, with its writes applied. -/
theorem Dev.issueBundle_kept (d : Dev) (u c : Nat) (o : SlotOp) (ws : List RegWr) (act : Dev → Dev) :
    RegsKept u (SMap.put (act d).units u (ws.foldl UnitSt.applyWr ((act d).unit u))) (d.issueBundle u c [(o, .issue ws act id)]).units := by
  rw [Dev.issueBundle_one]
  refine .trans (.trans ?_ (Dev.atCycle_kept _ u (c + 1))) (Dev.endBundle_kept _ u)
  rw [Dev.setUnit_units]
  have hx (x : UnitSt) := SMap.at_put_same (act d).units u x {}
  exact ⟨by rw [hx, hx]; rfl, by rw [hx, hx]; rfl, by rw [hx, hx]; rfl, by rw [hx, hx]; rfl,
    fun v hv => by rw [SMap.at_put_ne _ _ _ hv, SMap.at_put_ne _ _ _ hv]⟩

/-- What the effects of a vector operation leave of the units: everything but the SR index, which SR advances. -/
theorem Dev.vopActs_kept (d : Dev) (u : Nat) (f : VSlot) (o : VOut) (hp : o.post = id) :
    RegsKept u (if f.attr.toNat = 3 then SMap.put d.units u { d.unit u with srIndex := ((d.unit u).srIndex + 64) % 2 ^ 32 } else d.units)
      (d.vopActs u f o).units := by
  have hrel (g : Dev) : RegsKept u g.units (if f.rel then g.releaseTile u else g).units := by
    split
    · exact Dev.releaseTile_kept g u
    · exact .refl
  unfold Dev.vopActs
  simp only [hp, id]
  refine .trans ?_ (hrel _)
  rw [Dev.count_units]
  by_cases h3 : f.attr.toNat = 3
  · simp only [h3, beq_self_eq_true, if_true, Dev.setUnit_units, Dev.vectorFlags_units, Dev.unit]
    exact .refl
  · have hb : (f.attr.toNat == 3) = false := by simpa using h3
    simp only [h3, hb, Bool.false_eq_true, if_false, Dev.vectorFlags_units]
    exact .refl

/-! ## The writes of a bundle -/

theorem UnitSt.applyWrs_vreg (ws : List RegWr) (x : UnitSt) (r : Nat) (h : ∀ v, RegWr.v r v ∉ ws) :
    SMap.at (ws.foldl UnitSt.applyWr x).vregs r 0 = SMap.at x.vregs r 0 := by
  induction ws generalizing x with
  | nil => rfl
  | cons w ws ih =>
    refine (ih _ fun v hv => h v (List.mem_cons_of_mem _ hv)).trans ?_
    cases w with
    | v q y => exact SMap.at_putD_ne _ _ _ _ (by rintro rfl; exact h y (by simp))
    | m q y => rfl
    | s q y => rfl

theorem UnitSt.applyWrs_mreg (ws : List RegWr) (x : UnitSt) (r : Nat) (h : ∀ v, RegWr.m r v ∉ ws) :
    SMap.at (ws.foldl UnitSt.applyWr x).mregs r 0 = SMap.at x.mregs r 0 := by
  induction ws generalizing x with
  | nil => rfl
  | cons w ws ih =>
    refine (ih _ fun v hv => h v (List.mem_cons_of_mem _ hv)).trans ?_
    cases w with
    | m q y => exact SMap.at_putD_ne _ _ _ _ (by rintro rfl; exact h y (by simp))
    | v q y => rfl
    | s q y => rfl

theorem UnitSt.applyWrs_sreg (ws : List RegWr) (x : UnitSt) (r : Nat) (h : ∀ v, RegWr.s r v ∉ ws) :
    SMap.at (ws.foldl UnitSt.applyWr x).sregs r 0 = SMap.at x.sregs r 0 := by
  induction ws generalizing x with
  | nil => rfl
  | cons w ws ih =>
    refine (ih _ fun v hv => h v (List.mem_cons_of_mem _ hv)).trans ?_
    cases w with
    | s q y => exact SMap.at_putD_ne _ _ _ _ (by rintro rfl; exact h y (by simp))
    | v q y => rfl
    | m q y => rfl

theorem UnitSt.applyWrs_srIndex (ws : List RegWr) (x : UnitSt) : (ws.foldl UnitSt.applyWr x).srIndex = x.srIndex := by
  induction ws generalizing x with
  | nil => rfl
  | cons w ws ih =>
    refine (ih _).trans ?_
    cases w <;> rfl

/-- A bundle of one operation issues from a state that has the units as they were. -/
theorem State.issued_eq (s : State) (u : BitVec 12) (o : SlotOp) (ws : List RegWr) (act : Dev → Dev) :
    ∃ d c, Dev.units d = s.dev.units ∧ s.issued u o ws act id = d.issueBundle u.toNat c [(o, .issue ws act id)] := by
  unfold State.issued
  exact ⟨_, _, (by rfl), rfl⟩

/-- The units after a vector operation: its writes applied to the registers, every other unit as it was, the SR index advanced by SR. -/
theorem vEnds_kept (s : State) (u : BitVec 12) (opc : Nat) (f : VSlot) (o : VOut) (hp : o.post = id) :
    ∃ x : UnitSt, x.vregs = (s.dev.unit u.toNat).vregs ∧ x.mregs = (s.dev.unit u.toNat).mregs ∧ x.sregs = (s.dev.unit u.toNat).sregs ∧
      x.srIndex = (if f.attr.toNat = 3 then ((s.dev.unit u.toNat).srIndex + 64) % 2 ^ 32 else (s.dev.unit u.toNat).srIndex) ∧
      RegsKept u.toNat (SMap.put s.dev.units u.toNat (o.ws.foldl UnitSt.applyWr x))
        (s.issued u (vOp u.toNat opc f) o.ws (fun d => d.vopActs u.toNat f o) id).units := by
  obtain ⟨d, c, hunits, he⟩ : ∃ d c, Dev.units d = s.dev.units ∧ s.issued u (vOp u.toNat opc f) o.ws (fun d => d.vopActs u.toNat f o) id =
      d.issueBundle u.toNat c [(vOp u.toNat opc f, .issue o.ws (fun d => d.vopActs u.toNat f o) id)] :=
    s.issued_eq u _ _ _
  rw [he]
  have hacts := Dev.vopActs_kept d u.toNat f o hp
  have hissue := Dev.issueBundle_kept d u.toNat c (vOp u.toNat opc f) o.ws fun d => d.vopActs u.toNat f o
  rw [hunits, Dev.unit, hunits] at hacts
  have hbefore : ∀ v, v ≠ u.toNat → SMap.at (d.vopActs u.toNat f o).units v {} = SMap.at s.dev.units v {} := fun v hv => by
    refine (hacts.others v hv).trans ?_
    split
    · exact SMap.at_put_ne _ _ _ hv
    · rfl
  refine ⟨(d.vopActs u.toNat f o).unit u.toNat, hacts.vregs.trans ?_, hacts.mregs.trans ?_, hacts.sregs.trans ?_, hacts.srIndex.trans ?_,
    .trans ⟨?_, ?_, ?_, ?_, fun v hv => ?_⟩ hissue⟩
  iterate 4 split <;> simp [Dev.unit]
  iterate 4 rw [SMap.at_put_same, SMap.at_put_same]
  · rw [SMap.at_put_ne _ _ _ hv, SMap.at_put_ne _ _ _ hv, hbefore v hv]

/-- Settles O20: `vElem_mergeElems` and `getLsbD_mergeBits` for the masked writes, `vEnds_kept` for what a vector operation leaves. -/
theorem vectorWrites : Obligations.VectorWrites := by
  refine ⟨⟨fun old w lo n act zm val e hw he => vElem_mergeElems hw old lo n act zm val he,
    fun old lo n act zm val j hj => getLsbD_mergeBits old lo n act zm val hj, fun s u => rfl⟩, fun s u opc f o hp => ?_⟩
  obtain ⟨x, hv, hm, hs, hi, hk⟩ := vEnds_kept s u opc f o hp
  have hput := SMap.at_put_same s.dev.units u.toNat (o.ws.foldl UnitSt.applyWr x) {}
  have gv := hk.vregs.trans (congrArg UnitSt.vregs hput)
  have gm := hk.mregs.trans (congrArg UnitSt.mregs hput)
  have gs := hk.sregs.trans (congrArg UnitSt.sregs hput)
  have gi := (hk.srIndex.trans (congrArg UnitSt.srIndex hput)).trans ((UnitSt.applyWrs_srIndex _ _).trans hi)
  refine ⟨_, rfl, rfl, rfl, fun r v hws => ?_, fun r v hr hws => ?_, fun r hr => ?_, fun r hr => ?_, fun r hr => ?_,
    fun v hv => (hk.others v hv).trans (SMap.at_put_ne _ _ _ hv), fun h3 => gi.trans (if_neg h3), fun h3 => gi.trans (if_pos h3)⟩
  · refine (congrArg (SMap.at · r 0) gv).trans ?_
    rw [hws]
    exact SMap.at_putD_same _ _ _ _
  · refine (if_neg hr).trans ((congrArg (SMap.at · r 0) gm).trans ?_)
    rw [hws]
    exact SMap.at_putD_same _ _ _ _
  · exact (congrArg (SMap.at · r 0) gv).trans ((UnitSt.applyWrs_vreg _ _ _ hr).trans (congrArg (SMap.at · r 0) hv))
  · have hreg := (congrArg (SMap.at · r 0) gm).trans ((UnitSt.applyWrs_mreg _ _ _ hr).trans (congrArg (SMap.at · r 0) hm))
    exact congrArg (fun y => if r = 0 then BitVec.allOnes 256 else y) hreg
  · exact (congrArg (SMap.at · r 0) gs).trans ((UnitSt.applyWrs_sreg _ _ _ hr).trans (congrArg (SMap.at · r 0) hs))

end Sys2Proof.Machine

/-! The operations of the V slot (O21, O22, O23, O25, O26) and the scalar operations of the C slot (O29): each is `vop_ends` or `slot_issues` with the
operation that its opcode names. -/

namespace Sys2Proof.Machine

/-- A vector operation that leaves nothing but its writes and flags ends as its opcode says. -/
theorem exec_vop {s : State} {u : BitVec 12} {opc : Nat} {f : VSlot} {c : Instr} (op : Nat → VSlot → Dev → VOut) {o : VOut}
    (hc : exec c s = runSlot s u true (.v opc f)) (h0 : opc ≠ 0) (h1 : opc ≠ 0x68) (hop : vOut opc = some op)
    (ho : op u.toNat f s.dev.start = o) (hp : o.post = id) (h : VectorRuns s u opc f) : exec c s = vEnds s u opc f o :=
  hc.trans (vop_ends s u opc f op o h h0 h1 hop ho fun _ => by rw [hp]; rfl)

/-- Settles O21: the opcode of each operation names its `vIntOp`, `vIntCmp`, `vLogic` or `vShift`. -/
theorem vectorIntegers : Obligations.VectorIntegers := by
  refine ⟨fun s u f => ?_, fun s u f => ?_, fun s u f => ?_⟩
  · simp only [List.forall_mem_cons, List.not_mem_nil, false_imp_iff, implies_true, and_true]
    refine ⟨?_, ?_, ?_, ?_, ?_⟩ <;> exact exec_vop _ rfl (by decide) (by decide) rfl rfl rfl
  · simp only [List.forall_mem_cons, List.not_mem_nil, false_imp_iff, implies_true, and_true]
    refine ⟨?_, ?_, ?_, ?_, ?_, ?_⟩ <;> exact exec_vop _ rfl (by decide) (by decide) rfl rfl rfl
  · simp only [List.forall_mem_cons, List.not_mem_nil, false_imp_iff, implies_true, and_true]
    refine ⟨?_, ?_, ?_, ?_, ?_, ?_, ?_⟩ <;> exact exec_vop _ rfl (by decide) (by decide) rfl rfl rfl

/-- VPERM in a 32-bit view has 32-bit elements. -/
theorem viewBits_of_le {v : Nat} (h : v ≤ 1) : viewBits v = 32 := by
  match v, h with
  | 0, _ | 1, _ => rfl

/-- The result of VPERM, each element in the width of its view. -/
theorem vPermOp_eq (s : State) (u : BitVec 12) (f : VSlot) :
    vPermOp u.toNat f s.dev.start = { ws := [s.dev.writeAll u.toNat f fun j =>
      if f.view.toNat ≤ 1 then vElem (viewBits f.view.toNat) (s.a u f) (s.dev.bitsB u.toNat f j % 64)
      else vElem (viewBits f.view.toNat) (Config.permuted f.view.toNat (s.a u f)
        (vOfElems (viewBits f.view.toNat) ((List.range (2048 / viewBits f.view.toNat)).map (s.dev.bitsB u.toNat f)))) j] } := by
  refine congrArg (fun val => ({ ws := [s.dev.writeAll u.toNat f val] } : VOut)) (funext fun j => ite_congr rfl (fun h => ?_) fun _ => rfl)
  rw [viewBits_of_le h]
  rfl

/-- The four counters that VSTAT reads, by element. -/
theorem vStatOp_eq (s : State) (u : BitVec 12) (f : VSlot) :
    vStatOp u.toNat f s.dev.start =
      let n := f.imm.toNat % 8
      let stats := [Reg.VECTOR_CSTAT_SAT, Reg.VECTOR_CSTAT_CRUSH, Reg.VECTOR_CSTAT_ALL_ZERO, Reg.VECTOR_CSTAT_ALL_SAT]
      { ws := [.v f.vd.toNat (mergeElems (s.v u f.vd) 32 0 64 (s.act u f) f.zm
          fun i => if i < 4 then s.dev.rd (stats.getD i Reg.VECTOR_CSTAT_SAT) u.toNat n else 0)]
        post := fun d => if f.imm.getLsbD 3 then d.statClear u.toNat n else d } := by
  have hval : (fun i : Nat => match i with
      | 0 => s.dev.rd Reg.VECTOR_CSTAT_SAT u.toNat (f.imm.toNat % 8)
      | 1 => s.dev.rd Reg.VECTOR_CSTAT_CRUSH u.toNat (f.imm.toNat % 8)
      | 2 => s.dev.rd Reg.VECTOR_CSTAT_ALL_ZERO u.toNat (f.imm.toNat % 8)
      | 3 => s.dev.rd Reg.VECTOR_CSTAT_ALL_SAT u.toNat (f.imm.toNat % 8)
      | _ => 0) = fun i => if i < 4 then s.dev.rd ([Reg.VECTOR_CSTAT_SAT, Reg.VECTOR_CSTAT_CRUSH, Reg.VECTOR_CSTAT_ALL_ZERO,
        Reg.VECTOR_CSTAT_ALL_SAT].getD i Reg.VECTOR_CSTAT_SAT) u.toNat (f.imm.toNat % 8) else 0 := by
    funext i
    match i with
    | 0 | 1 | 2 | 3 => rfl
    | i + 4 => simp
  simp only
  rw [← hval]
  rfl

/-- Settles O22: the opcode of each operation names its move, permutation or mask operation; VSTAT also clears its counters. -/
theorem vectorMoves : Obligations.VectorMoves := by
  refine ⟨fun s u f => ?_, fun s u f => ⟨?_, fun h => ?_⟩⟩
  · simp only [List.forall_mem_cons, List.not_mem_nil, false_imp_iff, implies_true, and_true]
    refine ⟨?_, ?_, ?_, ?_, ?_, ?_, exec_vop _ rfl (by decide) (by decide) rfl ?_ rfl⟩
    iterate 6 exact exec_vop _ rfl (by decide) (by decide) rfl rfl rfl
    exact vPermOp_eq s u f
  · simp only [List.forall_mem_cons, List.not_mem_nil, false_imp_iff, implies_true, and_true]
    refine ⟨?_, ?_, ?_, ?_, ?_, ?_, ?_, ?_, ?_⟩ <;> exact exec_vop _ rfl (by decide) (by decide) rfl rfl rfl
  · refine vop_ends s u 0x61 f vStatOp _ h (by decide) (by decide) rfl ?_ fun e => by split <;> rfl
    rw [vStatOp_eq]
    cases f.imm.getLsbD 3 <;> rfl

/-- The format of a view's results, and its code (R77). -/
theorem viewFmt_eq (f : VSlot) : (if f.view.toNat = 2 ∨ f.view.toNat = 3 then FFmt.f16 else FFmt.f32) = viewFmt f := by
  simp [viewFmt, isHalf]

theorem viewCode_eq (f : VSlot) : (if f.view.toNat = 2 ∨ f.view.toNat = 3 then 1 else 0) = if isHalf f.view.toNat then 1 else 0 := by
  simp [isHalf]

/-- A strict selection or comparison of a signalling NaN sets IV. -/
theorem strictInvalid_eq (f : VSlot) (a b : FV) :
    (if f.attr.toNat = 1 ∧ (a.isSnan = true ∨ b.isSnan = true) then Flag.iv else 0) = strictInvalid f a b := by
  simp [strictInvalid]

/-- Element `i` of source C, which is VD in the immediate form. -/
theorem fC_eq (s : State) (u : BitVec 12) (f : VSlot) :
    fElem f.view.toNat (if f.imf then s.v u f.vd else s.v u f.vc) = s.dev.fC u.toNat f := by
  funext i
  simp only [Dev.fC, State.v]
  split <;> rfl

/-- Settles O23: the opcode of each operation names its arithmetic, selection or comparison. -/
theorem vectorFloats : Obligations.VectorFloats := by
  refine ⟨fun s u f => ?_, fun s u f => ⟨?_, ?_, ?_⟩⟩
  · simp only [List.forall_mem_cons, List.not_mem_nil, false_imp_iff, implies_true, and_true, viewFmt_eq, viewCode_eq, fC_eq]
    refine ⟨?_, ?_, ?_, ?_, ?_, ?_⟩ <;> exact exec_vop _ rfl (by decide) (by decide) rfl rfl rfl
  · simp only [List.forall_mem_cons, List.not_mem_nil, false_imp_iff, implies_true, and_true, viewFmt_eq, viewCode_eq, strictInvalid_eq]
    refine ⟨?_, ?_, ?_, ?_, ?_⟩ <;> exact exec_vop _ rfl (by decide) (by decide) rfl rfl rfl
  · simp only [List.forall_mem_cons, List.not_mem_nil, false_imp_iff, implies_true, and_true, strictInvalid_eq]
    refine ⟨?_, ?_, ?_, ?_, ?_, ?_⟩ <;> exact exec_vop _ rfl (by decide) (by decide) rfl rfl rfl
  · exact exec_vop _ rfl (by decide) (by decide) rfl rfl rfl

/-- Settles O25: the opcode of each operation names its division, root or transcendental function. -/
theorem vectorFunctions : Obligations.VectorFunctions := by
  intro s u f
  simp only [List.forall_mem_cons, List.not_mem_nil, false_imp_iff, implies_true, and_true, viewCode_eq]
  refine ⟨?_, ?_, ?_, ?_, ?_, ?_, ?_, ?_, ?_, ?_, ?_, ?_, ?_⟩ <;> exact exec_vop _ rfl (by decide) (by decide) rfl rfl rfl

/-! ## Conversions -/

/-- An integer lies on the grid of the integers. -/
theorem Rnd.grid_int (r : Rnd) (n : Int) : r.grid ⟨n, 0⟩ 0 = n.natAbs := by
  simp [Rnd.grid]

/-- FP32 to I32 of an integer: its value where 32 bits hold it, and saturated elsewhere. -/
theorem fvToInt_int (neg : Bool) (n : Int) :
    fvToInt (.num neg ⟨n, 0⟩ false) =
      if n < 0 then (if 2 ^ 31 < n.natAbs then ⟨2 ^ 31, Flag.sat⟩ else ⟨wrapI 32 n, 0⟩)
      else if 2 ^ 31 ≤ n.natAbs then ⟨2 ^ 31 - 1, Flag.sat⟩ else ⟨n.natAbs, 0⟩ := by
  simp only [fvToInt, FV.fastIn, Rnd.grid_int, Nat.or_zero]
  split
  · next h =>
    have hn : -(n.natAbs : Int) = n := by omega
    rw [hn]
  · rfl

theorem wrapI_natAbs {n : Int} (h0 : 0 ≤ n) (h : n < 2 ^ 32) : wrapI 32 n = n.natAbs := by
  rw [wrapI, Int.emod_eq_of_lt h0 h]
  omega

/-- Flags that no element sets. -/
theorem flags_zero (s : State) (u : BitVec 12) (f : VSlot) : s.flags u f (fun _ => 0) = 0 := by
  simp [State.flags]

/-- Settles O26: the opcode of each operation names its conversion. -/
theorem conversions : Obligations.Conversions := by
  refine ⟨fun s u f => ⟨?_, fun h => ?_⟩, fun n h0 h1 => ?_, fun n h => ?_, fun n h => ?_, fun b => ⟨rfl, rfl⟩, by decide, by decide⟩
  · simp only [List.forall_mem_cons, List.not_mem_nil, false_imp_iff, implies_true, and_true, flags_zero]
    refine ⟨?_, ?_, ?_, ?_, ?_⟩ <;> refine exec_vop _ rfl (by decide) (by decide) rfl ?_ rfl
    iterate 4 rfl
    simp only [vFromB, Dev.floatOp]
    rfl
  · exact vop_ends s u 0x2C f vTob _ h (by decide) (by decide) rfl rfl fun e => rfl
  · rw [fvToInt_int]
    split
    · rw [if_neg (by omega)]
    · rw [if_neg (by omega), wrapI_natAbs (by omega) (by omega)]
  · rw [fvToInt_int, if_neg (by omega), if_pos (by omega)]
  · rw [fvToInt_int, if_pos (by omega), if_pos (by omega)]

/-! ## Scalar operations -/

/-- A scalar operation that issues. -/
theorem exec_cop {s : State} {u : BitVec 12} {c : Instr} {opc : Nat} {f : CSlot} {ws : List RegWr} (hc : exec c s = runSlot s u true (.c opc f)) (hst : (SlotCmd.c opc f).states = [2])
    (hr : (cOp u.toNat opc f).run s.dev.start = .issue ws id id) (h : SlotRuns s u (cOp u.toNat opc f)) :
    exec c s = s.ends (s.issued u (cOp u.toNat opc f) ws id id) :=
  hc.trans (slot_issues s u (.c opc f) ws id id hst h hr (fun _ => rfl) fun _ => rfl)

/-- Settles O29: each opcode names its scalar operation; SLIDX reads an open loop, and is illegal without it. -/
theorem scalarOps : Obligations.ScalarOps := by
  refine fun s u f => ⟨?_, fun l hl h => ?_, fun h hl => ?_⟩
  · simp only [List.forall_mem_cons, List.not_mem_nil, false_imp_iff, implies_true, and_true]
    refine ⟨?_, ?_, ?_, ?_, ?_, ?_, ?_⟩ <;> exact exec_cop rfl rfl rfl
  · refine exec_cop rfl rfl ?_ h
    show Dev.slidx u.toNat f s.dev.start = _
    have hl' : (s.dev.start.unit u.toNat).loops[f.cx.toNat % 4]? = some l := hl
    rw [Dev.slidx, hl']
    rfl
  · refine slot_illegal s u (.c 0x08 f) h.alone h.issuing (.inl ?_)
    show Dev.slidx u.toNat f s.dev.start = _
    have hl' : (s.dev.start.unit u.toNat).loops[f.cx.toNat % 4]? = none := hl
    rw [Dev.slidx, hl']

end Sys2Proof.Machine

/-! Clears of counters (O16). -/

namespace Sys2Proof.Machine

/-- A field that resets to 0 in every copy: its reset value is 0, and its word is not one of those whose copies differ. -/
theorem Field.rst_eq_zero {f : Field} (h : f.reset = 0 ∧ (f.cls, f.page, f.off) ∉ [(5, 1, 0x084), (4, 3, 0x0E0), (14, 1, 0x080)]) (i : Nat) :
    f.rst i = 0 := by
  obtain ⟨hreset, hword⟩ := h
  simp only [List.mem_cons, Prod.mk.injEq, List.not_mem_nil, or_false, not_or] at hword
  obtain ⟨h1, h2, h3⟩ := hword
  rw [Field.rst, if_neg (fun h => h1 ⟨h.1, h.2.1, h.2.2.1⟩), if_neg h2, if_neg h3, hreset]

/-- The fields that a clear of counters may name: 32 bits at most, and 0 at reset. -/
def clearable (fs : List Field) : Prop :=
  ∀ f ∈ fs, f.width ≤ 32 ∧ f.reset = 0 ∧ (f.cls, f.page, f.off) ∉ [(5, 1, 0x084), (4, 3, 0x0E0), (14, 1, 0x080)]

/-- A write that clears a list of counters. -/
theorem exec_clearFields {s : State} {r : Requester} {c : Instr} {pg off inst : Nat} {fs : List Field}
    (hc : exec c s = runDev s fun d => d.action r pg off false fun d => (Cc.done, d.clearFields inst fs))
    (hfs : clearable fs) (hacc : s.accepts r pg off true) :
    ∃ t, exec c s = .next t ∧ t.dev.out = [.completion 0 0] ∧ OnlyRegs s t (fieldKeys inst fs) ∧
      ∀ f ∈ fs, ∀ i, i < f.n → t.dev.rd f inst i = 0 := by
  obtain ⟨hrest, hqueues, hout, hregs⟩ := s.dev.start.clearFields_frame inst fs
  exact ⟨_, hc.trans (action_ok s r pg off _ hacc), congrArg (· ++ [_]) hout, ⟨rfl, rfl, hrest, hqueues, hregs⟩,
    fun f hf i hi => s.dev.start.clearFields_zero inst fs (fun f hf => ⟨(hfs f hf).1, Field.rst_eq_zero (hfs f hf).2⟩) f hf i hi⟩

/-- Settles O16: every counter that a table names has 32 bits at most and resets to 0. -/
theorem countersCleared : Obligations.CountersCleared := by
  intro s r u l h x hx
  simp only [List.mem_cons, List.not_mem_nil, or_false] at hx
  rcases hx with rfl | rfl | rfl | rfl | rfl | rfl | rfl | rfl | rfl | rfl | rfl <;>
    refine fun hacc => exec_clearFields rfl ?_ hacc
  all_goals
    dsimp only [clearable]
    decide

end Sys2Proof.Machine

/-! Accesses by address that are not performed, reads, and the latched read of the beat number (O7). -/

namespace Sys2Proof.Machine

/-! ## Accesses that are not performed -/

/-- Every requester but a host that may not write is permitted an access outside class 0xE. -/
theorem Dev.permitted_of_ne (d : Dev) {r : Requester} {cls : Nat} (write : Bool) (hcls : cls ≠ 14) (hr : r ≠ .host false) :
    d.permitted r cls write = true := by
  cases r <;> simp_all [Dev.permitted]

theorem Dev.notPermitted_host (d : Dev) (cls addr : Nat) :
    (d.permitted (.host false) cls true || d.bootCodes (.host false) addr true) = false := by
  simp [Dev.permitted, Dev.bootCodes]

/-- An access to a page of a package that is up, by a requester that may make it: the alignment and the state of the block decide. -/
theorem Dev.refusal_reached {d : Dev} {r : Requester} {addr : Nat} {write : Bool} (hup : (d.rst.held || decide (d.now < d.rst.runsTo)) = false)
    (hpage : pageOk (addr / 4096) = true) (hcls : pgClass (addr / 4096) ≠ 14) (hr : r ≠ .host false) :
    d.refusal r addr write =
      if addr % 4096 % 4 ≠ 0 then some Cc.align
      else if 128 ≤ addr % 4096 ∧ d.bs (addr / 4096) = Bs.retired then some Cc.retired
      else if 128 ≤ addr % 4096 ∧ d.bs (addr / 4096) = Bs.resetting then some Cc.resetting
      else none := by
  simp only [Dev.refusal, hup, hpage, d.permitted_of_ne write hcls hr, Bool.true_or, Bool.not_true, Bool.false_eq_true, if_false]

/-- An access that is not performed answers its code and changes nothing. -/
theorem exec_refused {s : State} {r : Requester} {addr : BitVec 32} (session value : BitVec 32) (write uerr : Bool) {code : Nat}
    (h : s.dev.refusal r addr.toNat write = some code) :
    exec (if write then .registerWrite r session addr value else .latchedRead r ⟨addr, uerr⟩) s = s.ends (s.dev.start.done code) := by
  have h' : s.dev.start.refusal r addr.toNat write = some code := h
  cases write
  · change s.ends (let y := s.dev.start.busRead r addr.toNat uerr; y.2.2.done y.1 y.2.1) = _
    simp only [Dev.busRead, h']
  · change s.ends (let x := s.dev.start.busWrite s.mem r session.toNat addr.toNat value.toNat; x.2.done x.1) = _
    simp only [Dev.busWrite, h']

/-! ## Reads that are performed -/

/-- A read that is performed: its word and what it latches, or UERR. -/
theorem exec_latchedRead {s : State} {r : Requester} {addr : BitVec 32} (hacc : s.dev.refusal r addr.toNat false = none) :
    exec (.latchedRead r ⟨addr, true⟩) s = s.ends (s.dev.start.done Cc.uerr) ∧
    exec (.latchedRead r ⟨addr, false⟩) s =
      let v := s.dev.start.viewFor (addr.toNat / 4096)
      s.ends ((v.latchWord (addr.toNat / 4096) (addr.toNat % 4096)).done Cc.done (v.wordRead (addr.toNat / 4096) (addr.toNat % 4096))) := by
  have hacc' : s.dev.start.refusal r addr.toNat false = none := hacc
  refine ⟨?_, ?_⟩
  · change s.ends (let y := s.dev.start.busRead r addr.toNat true; y.2.2.done y.1 y.2.1) = _
    simp only [Dev.busRead, hacc', if_true]
  · change s.ends (let y := s.dev.start.busRead r addr.toNat false; y.2.2.done y.1 y.2.1) = _
    simp only [Dev.busRead, hacc', Bool.false_eq_true, if_false]

/-- The word of BEAT_NUM.LO holds that field alone. -/
theorem wordFields_beatNumLo : wordFields (pageNum 8 0 0) 0x0A0 = [(Reg.BEAT_CFG_BEAT_NUM_LO, 0)] := by decide +kernel

theorem latchedBy_beatNumLo : latchedBy (pageNum 8 0 0) 0x0A0 = [Reg.BEAT_CFG_BEAT_NUM_HI] := by decide +kernel

theorem Dev.wordRead_beatNumLo (d : Dev) : d.wordRead (pageNum 8 0 0) 0x0A0 =
    match SMap.find d.latch (Reg.BEAT_CFG_BEAT_NUM_LO.key (pageNum 8 0 0) 0) with
    | some w => w.toNat
    | none => d.g Reg.BEAT_CFG_BEAT_NUM_LO := by
  have hbits : d.headerBits (pageNum 8 0 0) 0x0A0 = 0 := rfl
  have hpow : 2 ^ Reg.BEAT_CFG_BEAT_NUM_LO.lo = 1 := rfl
  rw [Dev.wordRead, wordFields_beatNumLo, hbits, Nat.zero_add]
  simp only [List.filter, Nat.not_lt.mpr (show 128 ≤ 0x0A0 by decide), decide_false, Bool.false_and, Bool.not_false, List.map_cons, List.map_nil,
    List.sum_cons, List.sum_nil, Nat.add_zero, hpow, Nat.mul_one]
  rfl

/-- Settles O7: `exec_refused` for the codes, `exec_latchedRead` for the reads. -/
theorem accessesAndLatches : Obligations.AccessesAndLatches := by
  refine ⟨fun s r session addr value write uerr code h => ?codes, fun s r addr => ⟨fun hacc => ?reads, fun hacc => ?beat⟩⟩
  case codes =>
    suffices hcode : s.dev.refusal r addr.toNat write = some code from
      ⟨_, exec_refused session value write uerr hcode, ⟨rfl, rfl, rfl⟩, rfl⟩
    have hup (h : s.dev.rst.held = false ∧ s.dev.rst.runsTo ≤ s.dev.now) : (s.dev.rst.held || decide (s.dev.now < s.dev.rst.runsTo)) = false := by
      simp [h.1, h.2]
    rcases h with ⟨hd, rfl⟩ | ⟨hu, hp, rfl⟩ | ⟨hu, hp, hc, rfl, rfl, rfl⟩ | ⟨hu, hp, hc, hr, ho, rfl⟩ | ⟨hu, hp, hc, hr, ho, hl, hb, rfl⟩ |
      ⟨hu, hp, hc, hr, ho, hl, hb, rfl⟩
    · have hdown : (s.dev.rst.held || decide (s.dev.now < s.dev.rst.runsTo)) = true := by
        cases hh : s.dev.rst.held
        · simp [hh] at hd ⊢; exact hd
        · rfl
      simp only [Dev.refusal, hdown, if_true]
      rfl
    · simp only [Dev.refusal, hup hu, hp]
      rfl
    · simp only [Dev.refusal, hup hu, hp, Dev.notPermitted_host]
      rfl
    · rw [Dev.refusal_reached (hup hu) hp hc hr, if_pos ho]
      rfl
    · rw [Dev.refusal_reached (hup hu) hp hc hr, if_neg (not_not.mpr ho), if_pos ⟨hl, hb⟩]
      rfl
    · have hne : ¬ (128 ≤ addr.toNat % 4096 ∧ s.dev.bs (addr.toNat / 4096) = Bs.retired) := fun h => by
        rw [hb] at h
        exact absurd h.2 (by decide)
      rw [Dev.refusal_reached (hup hu) hp hc hr, if_neg (not_not.mpr ho), if_neg hne, if_pos ⟨hl, hb⟩]
      rfl
  case reads =>
    have haddr : addr.toNat / 4096 * 4096 + addr.toNat % 4096 = addr.toNat := Nat.div_add_mod' ..
    exact exec_latchedRead (by rw [← haddr]; exact hacc)
  case beat =>
    have hnat : (BitVec.ofNat 32 (pageNum 8 0 0 * 4096 + 0x0A0)).toNat = pageNum 8 0 0 * 4096 + 0x0A0 := by decide
    have hpage : (pageNum 8 0 0 * 4096 + 0x0A0) / 4096 = pageNum 8 0 0 := by decide
    have hoff : (pageNum 8 0 0 * 4096 + 0x0A0) % 4096 = 0x0A0 := by decide
    have hread := (exec_latchedRead (s := s) (r := r) (addr := BitVec.ofNat 32 (pageNum 8 0 0 * 4096 + 0x0A0)) (by rw [hnat]; exact hacc)).2
    rw [hnat, hpage, hoff] at hread
    refine hread.trans (congrArg s.ends ?_)
    show ((s.dev.start.latchWord (pageNum 8 0 0) 0x0A0).done Cc.done (s.dev.start.wordRead (pageNum 8 0 0) 0x0A0)) = _
    rw [Dev.latchWord, latchedBy_beatNumLo, Dev.wordRead_beatNumLo]
    rfl

end Sys2Proof.Machine

/-! What a register write does, by the access codes of the fields of its word (O12). -/

namespace Sys2Proof.Machine

/-! ## The address of a word -/

theorem toNat_pageAddr (pg : BitVec 20) (off : BitVec 12) : (pg ++ off : BitVec 32).toNat = pg.toNat * 4096 + off.toNat := by
  have hoff := off.isLt
  rw [BitVec.toNat_append, ← Nat.shiftLeft_add_eq_or_of_lt hoff, Nat.shiftLeft_eq]

/-- A write of a word that asks for no action. -/
theorem exec_plainWrite {s : State} {r : Requester} (session : BitVec 32) {w : BitVec 32} {pg : BitVec 20} {off : BitVec 12}
    (hacc : s.accepts r pg.toNat off.toNat true) (hact : actionOf s.mem session.toNat pg.toNat off.toNat w.toNat = none) {c : Nat} {d : Dev}
    (hw : s.dev.start.plainWrite pg.toNat off.toNat w.toNat = (c, d)) : exec (.registerWrite r session (pg ++ off) w) s = s.ends (d.done c) := by
  have haddr := toNat_pageAddr pg off
  have hlt : pg.toNat * 4096 + off.toNat < 2 ^ 32 := haddr ▸ (pg ++ off : BitVec 32).isLt
  have hofNat : pg ++ off = BitVec.ofNat 32 (pg.toNat * 4096 + off.toNat) := by rw [← haddr, BitVec.ofNat_toNat, BitVec.setWidth_eq]
  rw [hofNat]
  exact exec_registerWrite hlt ((Dev.busWrite_plain off.isLt (State.accepts_start hacc) hact).trans hw)

/-! ## Plain writes -/

/-- Some field of a word has an access code. -/
def wordHas (pg off : Nat) (a : Access) : Bool := (wordFields pg off).any fun x => x.1.acc == a

theorem wordHas_iff {pg off : Nat} {a : Access} : wordHas pg off a = true ↔ ∃ x ∈ wordFields pg off, x.1.acc = a := by
  simp [wordHas]

theorem wordHas_eq_false {pg off : Nat} {a : Access} : wordHas pg off a = false ↔ ∀ x ∈ wordFields pg off, x.1.acc ≠ a := by
  simp [wordHas]

/-- R59: an LK word outside OFF, IDLE and QUIESCED. -/
theorem Dev.plainWrite_locked {d : Dev} {pg off w : Nat} (hlk : wordHas pg off .lk = true) (hopen : d.lkOpen pg = false) :
    d.plainWrite pg off w = (Cc.locked, d.lockRefused pg off) := by
  unfold wordHas at hlk
  simp only [Dev.plainWrite, hlk, hopen, Bool.not_false, Bool.and_true, if_true]

/-- R50: an SH word of an armed or grouped page. -/
theorem Dev.plainWrite_armed {d : Dev} {pg off w : Nat} (hlk : wordHas pg off .lk = false) (hsh : wordHas pg off .sh = true)
    (hst : d.hd Hdr.STAT_STATUS pg = 1 ∨ d.hd Hdr.STAT_STATUS pg = 5) : d.plainWrite pg off w = (Cc.armed, d) := by
  unfold wordHas at hlk hsh
  have hst' : (d.hd Hdr.STAT_STATUS pg == St.armed || d.hd Hdr.STAT_STATUS pg == St.grouped) = true := by
    simpa [St.armed, St.grouped] using hst
  simp only [Dev.plainWrite, hlk, hsh, hst', Bool.false_and, Bool.and_true, Bool.false_eq_true, if_false, if_true]

/-- A word that no rule refuses: each field takes its bits by its access code. -/
theorem Dev.plainWrite_fields {d : Dev} {pg off w : Nat} (hlk : wordHas pg off .lk = false)
    (hsh : wordHas pg off .sh = true → d.hd Hdr.STAT_STATUS pg ≠ 1 ∧ d.hd Hdr.STAT_STATUS pg ≠ 5) (hgroup : d.groupWord pg off = false) :
    d.plainWrite pg off w = (Cc.done, (wordFields pg off).foldl (Dev.fieldWrite w pg) d) := by
  have hsh' : (wordHas pg off .sh && (d.hd Hdr.STAT_STATUS pg == St.armed || d.hd Hdr.STAT_STATUS pg == St.grouped)) = false := by
    cases h : wordHas pg off .sh
    · rfl
    · obtain ⟨h1, h5⟩ := hsh h
      simpa [St.armed, St.grouped] using ⟨h1, h5⟩
  unfold wordHas at hlk hsh'
  simp only [Dev.plainWrite, hlk, hsh', hgroup, Bool.false_and, Bool.false_eq_true, if_false]

/-- RO fields keep their value. -/
theorem foldl_fieldWrite_ro (w pg : Nat) (fs : List (Field × Nat)) (d : Dev) (h : ∀ x ∈ fs, x.1.acc = .ro) :
    fs.foldl (Dev.fieldWrite w pg) d = d := by
  induction fs with
  | nil => rfl
  | cons x fs ih =>
    have hx : Dev.fieldWrite w pg d x = d := by
      simp only [Dev.fieldWrite, h x (List.mem_cons_self ..)]
    rw [List.foldl_cons, hx]
    exact ih fun y hy => h y (List.mem_cons_of_mem _ hy)

/-- SH fields change the shadow set alone. -/
theorem foldl_fieldWrite_sh (w pg : Nat) (fs : List (Field × Nat)) (d : Dev) (h : ∀ x ∈ fs, x.1.acc = .sh ∨ x.1.acc = .ro) :
    ∃ sh, fs.foldl (Dev.fieldWrite w pg) d = { d with shadow := sh } := by
  induction fs generalizing d with
  | nil => exact ⟨d.shadow, rfl⟩
  | cons x fs ih =>
    obtain ⟨sh, hsh⟩ : ∃ sh, Dev.fieldWrite w pg d x = { d with shadow := sh } := by
      rcases h x (List.mem_cons_self ..) with hx | hx
      · exact ⟨_, by simp only [Dev.fieldWrite, hx]; rfl⟩
      · exact ⟨d.shadow, by simp only [Dev.fieldWrite, hx]⟩
    obtain ⟨sh', hsh'⟩ := ih { d with shadow := sh } fun y hy => h y (List.mem_cons_of_mem _ hy)
    exact ⟨sh', by rw [List.foldl_cons, hsh, hsh']⟩

/-! R41: an RW field takes its bits at once, and what was latched for it is dropped. -/

section Rw
variable {f : Field} (w pg : Nat) (d : Dev) (i : Nat) (hacc : f.acc = .rw)
include hacc

theorem fieldWrite_rw : Dev.fieldWrite w pg d (f, i) =
    { d with latch := SMap.del d.latch (f.key pg i) }.set f pg i (bits w f.lo f.width) := by
  simp only [Dev.fieldWrite, hacc]

theorem get_fieldWrite_same (hw : f.width ≤ 32) (hr : f.rst i < 2 ^ 32) : (Dev.fieldWrite w pg d (f, i)).get f pg i = bits w f.lo f.width := by
  rw [fieldWrite_rw w pg d i hacc, Dev.get_set_same _ _ _ _ _ hw hr]
  exact Nat.mod_mod ..

theorem find_fieldWrite_ne {k : Nat} (h : k ≠ f.key pg i) : SMap.find (Dev.fieldWrite w pg d (f, i)).regs k = SMap.find d.regs k := by
  rw [fieldWrite_rw w pg d i hacc, Dev.find_set_ne _ _ _ _ _ _ h]

end Rw

/-! ## Three words of the spec's tables -/

/-- The fields of a header word do not depend on the page. -/
theorem wordFields_header {pg off : Nat} (h : off < 128) : wordFields pg off = wordFields 0 off := by
  rw [wordFields, wordFields, if_pos h, if_pos h]

theorem wordFields_evtMask : wordFields 0 0x01C = [(Hdr.MASK_COMMON, 0), (Hdr.MASK_BLOCK, 0)] := by decide +kernel
theorem wordFields_timeout : wordFields 0 0x040 = [(Hdr.TIMEOUT_LIMIT, 0)] := by decide +kernel
theorem wordFields_lateLimit : wordFields (pageNum 8 0 0) 0x094 = [(Reg.BEAT_CFG_LATE_LIMIT, 0), (Reg.BEAT_CFG_VOTE_LIMIT, 0)] := by
  decide +kernel
theorem wordFields_period : wordFields (pageNum 8 0 0) 0x080 = [(Reg.BEAT_CFG_PERIOD, 0)] := by decide +kernel
theorem latchedBy_period : latchedBy (pageNum 8 0 0) 0x080 = [] := by decide +kernel

theorem Dev.groupWord_header (d : Dev) {pg off : Nat} (h : off < 128) : d.groupWord pg off = false := by
  have h1 : ¬ (0x0C0 ≤ off ∧ off < 0x0E0) := by omega
  have h2 : ¬ (0x400 ≤ off ∧ off < 0x800) := by omega
  simp only [Dev.groupWord, h1, h2, decide_false, Bool.false_and, Bool.or_false, Bool.and_false]

/-- The value of BEAT_CFG.PERIOD, live or, with SHADOW_VIEW, of the shadow set. -/
theorem Dev.wordRead_period (d : Dev) : d.wordRead (pageNum 8 0 0) 0x080 =
    if d.hd Hdr.CTL_SHADOW_VIEW (pageNum 8 0 0) = 1 then d.sh Reg.BEAT_CFG_PERIOD 0 else d.g Reg.BEAT_CFG_PERIOD := by
  have hbits : d.headerBits (pageNum 8 0 0) 0x080 = 0 := rfl
  have hpow : 2 ^ Reg.BEAT_CFG_PERIOD.lo = 1 := rfl
  rw [Dev.wordRead, wordFields_period, hbits, Nat.zero_add]
  simp only [List.filter, Nat.not_lt.mpr (show 128 ≤ 0x080 by decide), decide_false, Bool.false_and, Bool.not_false, List.map_cons, List.map_nil,
    List.sum_cons, List.sum_nil, Nat.add_zero, hpow, Nat.mul_one]
  rfl

theorem bits_low (w : BitVec 32) {n m : Nat} (h : 2 ^ n = m) : bits w.toNat 0 n = w.toNat % m := by simp [bits, h]

/-- Settles O12: `plainWrite_locked`, `plainWrite_armed` and `plainWrite_fields`, each with the fields of its word. -/
theorem registerWrites : Obligations.RegisterWrites := by
  intro s r session w pg off hacc addr fs st
  have hst : s.dev.start.hd Hdr.STAT_STATUS pg.toNat = st := rfl
  refine ⟨fun hact => ⟨fun hro hgroup => ?ro, fun hlk hoff hidle hq => ?locked, fun hsh hlk hst => ?armed, fun hsh hgroup h1 h5 => ?shadow⟩,
    fun hpg hoff h1 h5 => ?late, fun hpg hoff hread => ?period, fun hoff => ?mask, fun hoff => ?limit⟩
  case ro =>
    have hlk : wordHas pg.toNat off.toNat .lk = false := wordHas_eq_false.mpr fun x hx => by rw [hro x hx]; decide
    have hsh : wordHas pg.toNat off.toNat .sh = false := wordHas_eq_false.mpr fun x hx => by rw [hro x hx]; decide
    refine exec_plainWrite session hacc hact ?_
    rw [Dev.plainWrite_fields (d := s.dev.start) hlk (fun h => by rw [hsh] at h; cases h) hgroup, foldl_fieldWrite_ro _ _ _ _ hro]
    rfl
  case locked =>
    have hclosed : s.dev.start.lkOpen pg.toNat = false := by
      have : s.dev.start.bs pg.toNat = s.dev.bs pg.toNat := rfl
      simp [Dev.lkOpen, this, hoff, hidle, hq]
    exact exec_plainWrite session hacc hact (Dev.plainWrite_locked (wordHas_iff.mpr hlk) hclosed)
  case armed => exact exec_plainWrite session hacc hact (Dev.plainWrite_armed (wordHas_eq_false.mpr hlk) (wordHas_iff.mpr hsh) hst)
  case shadow =>
    have hlk : wordHas pg.toNat off.toNat .lk = false := wordHas_eq_false.mpr fun x hx => by
      rcases hsh x hx with h | h <;> rw [h] <;> decide
    obtain ⟨sh, hfold⟩ := foldl_fieldWrite_sh w.toNat pg.toNat _ s.dev.start hsh
    have hw := Dev.plainWrite_fields (d := s.dev.start) (w := w.toNat) hlk (fun _ => ⟨h1, h5⟩) hgroup
    rw [hfold] at hw
    exact ⟨_, exec_plainWrite session hacc hact hw, rfl, rfl, rfl, rfl, rfl, rfl⟩
  case late =>
    have hact : actionOf s.mem session.toNat pg.toNat off.toNat w.toNat = none := by rw [hpg, hoff]; rfl
    have hlk : wordHas pg.toNat off.toNat .lk = false := by rw [hpg, hoff, wordHas, wordFields_lateLimit]; rfl
    have hgroup : s.dev.start.groupWord pg.toNat off.toNat = false := by rw [hpg, hoff]; rfl
    have hhigh : bits w.toNat 16 16 = w.toNat / 65536 := by
      have := w.isLt
      rw [bits]
      omega
    refine exec_plainWrite session hacc hact ((Dev.plainWrite_fields (d := s.dev.start) hlk (fun _ => ⟨h1, h5⟩) hgroup).trans (congrArg (Prod.mk 0) ?_))
    rw [← hhigh, ← bits_low w (show 2 ^ 16 = 65536 from rfl), hpg, hoff, wordFields_lateLimit]
    rfl
  case period =>
    have haddr : addr.toNat = pageNum 8 0 0 * 4096 + 0x080 := by rw [toNat_pageAddr, hpg, hoff]
    have hpage : addr.toNat / 4096 = pageNum 8 0 0 := by rw [haddr]; decide
    have hword : addr.toNat % 4096 = 0x080 := by rw [haddr]; decide
    have hread' := (exec_latchedRead (s := s) (r := r) (addr := addr) (by rw [haddr, ← hpg]; exact hread)).2
    rw [hpage, hword] at hread'
    refine hread'.trans (congrArg s.ends ?_)
    rw [hpg]
    show (s.dev.start.latchWord (pageNum 8 0 0) 0x080).done Cc.done (s.dev.start.wordRead (pageNum 8 0 0) 0x080) = _
    rw [Dev.latchWord, latchedBy_period, Dev.wordRead_period]
    rfl
  case mask =>
    have hact : actionOf s.mem session.toNat pg.toNat off.toNat w.toNat = none := by rw [hoff]; rfl
    have hfields : wordFields pg.toNat off.toNat = [(Hdr.MASK_COMMON, 0), (Hdr.MASK_BLOCK, 0)] := by
      rw [hoff, wordFields_header (by decide), wordFields_evtMask]
    have hw := Dev.plainWrite_fields (d := s.dev.start) (w := w.toNat) (show wordHas pg.toNat off.toNat .lk = false by rw [wordHas, hfields]; rfl)
      (fun h => absurd h (by rw [wordHas, hfields]; decide)) (s.dev.start.groupWord_header (by rw [hoff]; decide))
    rw [hfields] at hw
    let d := Dev.fieldWrite w.toNat pg.toNat s.dev.start (Hdr.MASK_COMMON, 0)
    have hcommon : (Dev.fieldWrite w.toNat pg.toNat d (Hdr.MASK_BLOCK, 0)).hd Hdr.MASK_COMMON pg.toNat = w.toNat % 256 := by
      have hkey : Hdr.MASK_COMMON.key pg.toNat 0 ≠ Hdr.MASK_BLOCK.key pg.toNat 0 := by simp [Field.key, Hdr.MASK_COMMON, Hdr.MASK_BLOCK]
      refine (Dev.get_congr _ d _ _ _ (find_fieldWrite_ne _ _ _ _ rfl hkey)).trans ?_
      exact (get_fieldWrite_same _ _ _ _ rfl (by decide) (by decide)).trans (bits_low w rfl)
    have hblock : (Dev.fieldWrite w.toNat pg.toNat d (Hdr.MASK_BLOCK, 0)).hd Hdr.MASK_BLOCK pg.toNat = w.toNat / 256 % 65536 :=
      get_fieldWrite_same _ _ _ _ rfl (by decide) (by decide)
    refine ⟨_, exec_plainWrite session hacc hact hw, rfl, hcommon, hblock, rfl, rfl, rfl, rfl, fun k hk => ?_⟩
    simp only [List.mem_cons, List.not_mem_nil, or_false, not_or] at hk
    exact (find_fieldWrite_ne w.toNat pg.toNat d 0 rfl hk.2).trans (find_fieldWrite_ne w.toNat pg.toNat s.dev.start 0 rfl hk.1)
  case limit =>
    have hact : actionOf s.mem session.toNat pg.toNat off.toNat w.toNat = none := by rw [hoff]; rfl
    have hfields : wordFields pg.toNat off.toNat = [(Hdr.TIMEOUT_LIMIT, 0)] := by rw [hoff, wordFields_header (by decide), wordFields_timeout]
    have hw := Dev.plainWrite_fields (d := s.dev.start) (w := w.toNat) (show wordHas pg.toNat off.toNat .lk = false by rw [wordHas, hfields]; rfl)
      (fun h => absurd h (by rw [wordHas, hfields]; decide)) (s.dev.start.groupWord_header (by rw [hoff]; decide))
    rw [hfields] at hw
    have hlimit : (Dev.fieldWrite w.toNat pg.toNat s.dev.start (Hdr.TIMEOUT_LIMIT, 0)).hd Hdr.TIMEOUT_LIMIT pg.toNat = w.toNat % 2 ^ 20 :=
      (get_fieldWrite_same _ _ _ _ rfl (by decide) (by decide)).trans (bits_low w rfl)
    refine ⟨_, exec_plainWrite session hacc hact hw, rfl, hlimit, rfl, rfl, rfl, rfl, fun k hk => ?_⟩
    exact find_fieldWrite_ne w.toNat pg.toNat s.dev.start 0 rfl (by simpa using hk)

end Sys2Proof.Machine

/-! Events: their pending bits, queues and clears (O15). -/

namespace Sys2Proof.Machine

/-! ## Clears -/

/-- W1C: the bits written as 1 are cleared, the others stay. -/
theorem bit_clear {v x n k : Nat} (hx : x < 2 ^ n) (hk : k < n) : bit ((v &&& (2 ^ n - 1 - x)) % 2 ^ n) k = (bit v k && ! bit x k) := by
  rw [bit, Nat.testBit_mod_two_pow, Nat.testBit_and, show 2 ^ n - 1 - x = 2 ^ n - (x + 1) by omega, Nat.testBit_two_pow_sub_succ hx]
  simp [hk, bit]

theorem bit_bits {v lo n k : Nat} (hk : k < n) : bit (bits v lo n) k = bit v (lo + k) := by
  rw [bit, bits, Nat.testBit_mod_two_pow, Nat.testBit_div_two_pow]
  simp [hk, bit, Nat.add_comm]

theorem bits_lt (v lo n : Nat) : bits v lo n < 2 ^ n := Nat.mod_lt _ (Nat.two_pow_pos n)

/-- The event bits of a page stand under three keys. -/
theorem evtKeys_ne (pg : Nat) : Hdr.EVT_COMMON.key pg 0 ≠ Hdr.EVT_BLOCK.key pg 0 ∧ Hdr.EVT_COMMON.key pg 0 ≠ Hdr.EVT_OVERFLOW.key pg 0 ∧
    Hdr.EVT_BLOCK.key pg 0 ≠ Hdr.EVT_OVERFLOW.key pg 0 := by
  simp [Field.key, Hdr.EVT_COMMON, Hdr.EVT_BLOCK, Hdr.EVT_OVERFLOW]

/-- An event bit of a page after a write of PAGE_EVT. -/
theorem Dev.evtClear_common (d : Dev) (pg w : Nat) {n : Nat} (hn : n < 8) :
    bit ((d.evtClear pg w).hd Hdr.EVT_COMMON pg) n = (bit (d.hd Hdr.EVT_COMMON pg) n && ! bit w n) := by
  obtain ⟨h1, h2, h3⟩ := evtKeys_ne pg
  rw [Dev.evtClear, Dev.hd_hw_ne _ _ _ _ _ _ h2, Dev.hd_hw_ne _ _ _ _ _ _ h1, Dev.hd_hw_same _ _ _ _ (by decide) (by decide)]
  refine (bit_clear (bits_lt w 0 8) hn).trans ?_
  rw [bit_bits hn, Nat.zero_add]

theorem Dev.evtClear_block (d : Dev) (pg w : Nat) {n : Nat} (hn : n < 16) :
    bit ((d.evtClear pg w).hd Hdr.EVT_BLOCK pg) n = (bit (d.hd Hdr.EVT_BLOCK pg) n && ! bit w (8 + n)) := by
  obtain ⟨h1, h2, h3⟩ := evtKeys_ne pg
  rw [Dev.evtClear, Dev.hd_hw_ne _ _ _ _ _ _ h3, Dev.hd_hw_same _ _ _ _ (by decide) (by decide), Dev.hd_hw_ne _ _ _ _ _ _ h1.symm]
  refine (bit_clear (bits_lt w 8 16) hn).trans ?_
  rw [bit_bits hn]

theorem Dev.find_evtClear (d : Dev) (pg w k : Nat) (h : k ∉ evtKeys pg) :
    SMap.find (d.evtClear pg w).regs k = SMap.find d.regs k := by
  simp only [evtKeys, List.mem_cons, List.not_mem_nil, or_false, not_or] at h
  obtain ⟨h1, h2, h3⟩ := h
  rw [Dev.evtClear, Dev.find_hw_ne _ _ _ _ _ h3, Dev.find_hw_ne _ _ _ _ _ h2, Dev.find_hw_ne _ _ _ _ _ h1]

/-! ## An event of COMMON -/

/-- An event that is pending or masked sets its bit and puts no record. -/
theorem Dev.raise_common_held {d : Dev} {pg pos : Nat} (code sev detail : Nat) (hp : pos < 8)
    (h : bit (d.hd Hdr.EVT_COMMON pg) pos = true ∨ bit (d.hd Hdr.MASK_COMMON pg) pos = true) :
    d.raise pg code pos sev detail = d.hw Hdr.EVT_COMMON pg (setBit (d.hd Hdr.EVT_COMMON pg) pos) := by
  have h' : (bit (d.hd Hdr.EVT_COMMON pg) pos || bit (d.hd Hdr.MASK_COMMON pg) pos) = true := by simpa using h
  simp only [Dev.raise, if_pos hp, h']
  rfl

/-- Any other sets its bit and puts a record in every queue of its page that has room. -/
theorem Dev.raise_common_offered {d : Dev} {pg pos : Nat} (code sev detail : Nat) (hp : pos < 8)
    (h1 : bit (d.hd Hdr.EVT_COMMON pg) pos = false) (h2 : bit (d.hd Hdr.MASK_COMMON pg) pos = false) :
    d.raise pg code pos sev detail =
      (queuesOf pg).foldl (fun e q => e.offer ⟨code, sev, pg, d.eventBeat, detail % 2 ^ 32⟩ q)
        (d.hw Hdr.EVT_COMMON pg (setBit (d.hd Hdr.EVT_COMMON pg) pos)) := by
  simp only [Dev.raise, if_pos hp, h1, h2]
  rfl

theorem bit_setBit_mod {v n k : Nat} (hk : k < n) : bit (setBit v k % 2 ^ n) k = true := by
  simp [bit, setBit, hk, Nat.testBit_or]

/-- The records of an event leave the pending bits. -/
theorem Dev.offer_hd_common (d : Dev) (r : EventRec) (q : Nat) : (d.offer r q).hd Hdr.EVT_COMMON r.source = d.hd Hdr.EVT_COMMON r.source := by
  unfold Dev.offer
  simp only
  split
  · rfl
  · exact Dev.hd_hw_ne _ _ _ _ _ _ (evtKeys_ne _).2.1

theorem Dev.offer_room {d : Dev} {r : EventRec} {q : Nat} (h : (SMap.at d.queues q {}).recs.length < queueCap q) :
    d.offer r q = { d with queues := SMap.put d.queues q { SMap.at d.queues q {} with recs := (SMap.at d.queues q {}).recs ++ [r] } } := if_pos h

theorem Dev.offer_full {d : Dev} {r : EventRec} {q : Nat} (h : queueCap q ≤ (SMap.at d.queues q {}).recs.length) :
    d.offer r q = { d with queues := SMap.put d.queues q { SMap.at d.queues q {} with lost := (SMap.at d.queues q {}).lost + 1 } }.hw
      Hdr.EVT_OVERFLOW r.source 1 := if_neg (Nat.not_lt.mpr h)

/-- Pages of a unit put their records in the queue of its region. -/
theorem queuesOf_pgLstore {u : Nat} (hu : u < 4096) : queuesOf (pgLstore u) = [u / 256] ∧ queueCap (u / 256) = 256 := by
  have hcls : pgClass (pgLstore u) = 1 := by simp only [pgLstore, pageNum, pgClass]; omega
  have hinst : pgInst (pgLstore u) = u := by simp only [pgLstore, pageNum, pgInst]; omega
  refine ⟨?_, if_neg (by omega)⟩
  simp only [queuesOf, hcls, hinst, true_or, if_true]

/-- Settles O15: `evtClear_common`, `evtClear_block` for the clears; an event of a local store is offered to one queue. -/
theorem events : Obligations.Events := by
  refine ⟨⟨fun s r pg w hacc => ?w1c, fun s r pg hacc => ?cerr, fun s r pg hacc => ?uerr, fun s q => ?lost⟩, fun d u code detail sev hu => ?raised⟩
  case w1c =>
    exact ⟨_, action_ok s r _ _ _ hacc, rfl, ⟨rfl, rfl, rfl, rfl, fun k hk => Dev.find_evtClear _ _ _ _ hk⟩,
      fun n hn => Dev.evtClear_common _ _ _ hn, fun n hn => Dev.evtClear_block _ _ _ hn⟩
  case cerr => exact action_ok s r _ _ _ hacc
  case uerr => exact action_ok s r _ _ _ hacc
  case lost =>
    refine ⟨fun h => ?_, fun h1 h2 h3 => ?_⟩
    · exact congrArg s.ends (if_pos h)
    · refine congrArg s.ends (if_neg ?_)
      rintro (h | h | h)
      · exact h1 h
      · exact absurd h (Nat.not_le.mpr h2)
      · exact Bool.false_ne_true (h3.symm.trans h)
  case raised =>
    obtain ⟨hq, hcap⟩ := queuesOf_pgLstore hu
    have hset : bit ((d.hw Hdr.EVT_COMMON (pgLstore u) (setBit (d.hd Hdr.EVT_COMMON (pgLstore u)) 5)).hd Hdr.EVT_COMMON (pgLstore u)) 5 = true := by
      rw [Dev.hd_hw_same _ _ _ _ (by decide) (by decide)]
      exact bit_setBit_mod (by decide)
    refine ⟨?_, fun h => ?_, fun h1 h2 h3 => ?_, fun h1 h2 h3 => ?_⟩
    · by_cases h : bit (d.hd Hdr.EVT_COMMON (pgLstore u)) 5 = true ∨ bit (d.hd Hdr.MASK_COMMON (pgLstore u)) 5 = true
      · rw [Dev.raise_common_held _ _ _ (by decide) h]
        exact hset
      · obtain ⟨h1, h2⟩ := not_or.mp h
        rw [Dev.raise_common_offered _ _ _ (by decide) (Bool.eq_false_iff.mpr h1) (Bool.eq_false_iff.mpr h2), hq]
        exact (congrArg (bit · 5) (Dev.offer_hd_common ..)).trans hset
    · rw [Dev.raise_common_held _ _ _ (by decide) h]
      rfl
    · rw [Dev.raise_common_offered _ _ _ (by decide) h1 h2, hq]
      exact congrArg Dev.queues (Dev.offer_room (by rw [hcap]; exact h3))
    · rw [Dev.raise_common_offered _ _ _ (by decide) h1 h2, hq, List.foldl_cons, List.foldl_nil, Dev.offer_full (by rw [hcap]; exact h3)]
      exact ⟨rfl, Dev.hd_hw_same _ _ _ _ (by decide) (by decide)⟩

end Sys2Proof.Machine

/-! Arm, discard and commit of a page's shadow set (O17) and of a commit group (O18). -/

namespace Sys2Proof.Machine

/-! ## The check at an arm (R54, R250) -/

/-- The lowest word of a list that begins with its lowest offset. -/
theorem lowestWord_cons {o : Nat} {os : List Nat} (ho : o ≤ 4096) (h : ∀ x ∈ os, o ≤ x) : lowestWord (o :: os) = o / 4 := by
  have hmin : ∀ (l : List Nat), (∀ x ∈ l, o ≤ x) → l.foldl min o = o := fun l hl => by
    induction l with
    | nil => rfl
    | cons x l ih =>
      rw [List.foldl_cons, Nat.min_eq_left (hl x (List.mem_cons_self ..))]
      exact ih fun y hy => hl y (List.mem_cons_of_mem _ hy)
  rw [lowestWord, List.foldl_cons, Nat.min_eq_right ho, hmin os h]

theorem mem_failIf {c : Bool} {off x : Nat} : x ∈ failIf c off ↔ c = true ∧ x = off := by
  cases c <;> simp [failIf]

theorem failIf_true {c : Bool} {off : Nat} (h : c = true) : failIf c off = [off] := by rw [h]; rfl

theorem Dev.findings_beatCfg (d : Dev) (m : Mem) : d.findings m (pageNum 8 0 0) = d.beatCheck := rfl

/-- R250: a period outside the bounds of the size table. -/
theorem Dev.beatCheck_range {d : Dev}
    (h : d.sh Reg.BEAT_CFG_PERIOD 0 < d.g Reg.SIZE_TABLE_ST_BEAT_MIN ∨ d.g Reg.SIZE_TABLE_ST_BEAT_MAX < d.sh Reg.BEAT_CFG_PERIOD 0) :
    d.beatCheck.first = some (Rs.range, 0x080 / 4) := by
  have hrange : ∃ os, d.beatCheck.range = 0x080 :: os ∧ ∀ x ∈ os, 0x080 ≤ x :=
    ⟨_, by rw [Dev.beatCheck, failIf_true (decide_eq_true h)]; rfl, fun x hx => by
      rcases List.mem_append.mp hx with hx | hx <;> · rw [(mem_failIf.mp hx).2]; decide⟩
  obtain ⟨os, heq, hle⟩ := hrange
  rw [Findings.first, heq, if_pos (List.cons_ne_nil _ _), lowestWord_cons (by decide) hle]

/-- R250: a slack window that is too short. -/
theorem Dev.beatCheck_mismatch {d : Dev} (hrange : d.beatCheck.range = []) (h : 100 * d.sh Reg.BEAT_CFG_PERIOD 0 < d.sh Reg.BEAT_CFG_T_S 0) :
    d.beatCheck.first = some (Rs.mismatch, 0x080 / 4) := by
  have hshort : decide (100 * d.sh Reg.BEAT_CFG_PERIOD 0 <
      d.sh Reg.BEAT_CFG_T_S 0 + (100 * d.sh Reg.BEAT_CFG_PERIOD 0 * d.g Reg.SIZE_TABLE_ST_BEAT_SLACK_MIN_PCT + 99) / 100) = true :=
    decide_eq_true (by omega)
  have hmis : ∃ os, d.beatCheck.mismatch = 0x080 :: os ∧ ∀ x ∈ os, 0x080 ≤ x :=
    ⟨_, by rw [Dev.beatCheck, failIf_true hshort]; rfl, fun x hx => by rw [(mem_failIf.mp hx).2]; decide⟩
  obtain ⟨os, heq, hle⟩ := hmis
  rw [Findings.first, hrange, heq, if_neg (not_not.mpr rfl), if_pos (List.cons_ne_nil _ _), lowestWord_cons (by decide) hle]

theorem Dev.beatCheck_range_nil {d : Dev} (h1 : d.g Reg.SIZE_TABLE_ST_BEAT_MIN ≤ d.sh Reg.BEAT_CFG_PERIOD 0)
    (h2 : d.sh Reg.BEAT_CFG_PERIOD 0 ≤ d.g Reg.SIZE_TABLE_ST_BEAT_MAX) (h3 : d.sh Reg.BEAT_CFG_LATE_LIMIT 0 ≠ 0)
    (h4 : d.sh Reg.BEAT_CFG_VOTE_LIMIT 0 ≠ 0) (h5 : d.sh Reg.BEAT_CFG_LATE_SHARE 0 ≤ 90) (h6 : d.sh Reg.BEAT_CFG_FIT_MARGIN 0 ≤ 20) :
    d.beatCheck.range = [] := by
  simp only [Dev.beatCheck, List.append_eq_nil_iff, failIf_eq_nil]
  refine ⟨⟨?_, ?_⟩, ?_⟩
  · exact decide_eq_false (by omega)
  · simp [h3, h4]
  · exact decide_eq_false (by omega)

/-! ## A discard (R53) -/

/-- The boundary that an arm waits for lies 2 µs away or less. -/
def Dev.near (d : Dev) (t margin : Nat) : Prop := d.timerOn = true ∧ d.boundaryAfter t margin ≤ d.now + margin

theorem Dev.inTime_iff (d : Dev) (t margin : Nat) : d.inTime t margin = true ↔ ¬ d.near t margin := by
  cases h : d.timerOn <;> simp [Dev.inTime, Dev.near, h]

/-! ## What a commit leaves of a page's fields -/

/-- The shadow value of a field stays while a field under another key is set. -/
theorem Dev.shadowGet_set_ne (d : Dev) (f g : Field) (pg i v pg' j : Nat) (h : g.key pg' j ≠ f.key pg i) :
    (d.set f pg i v).shadowGet g pg' j = d.shadowGet g pg' j := by
  unfold Dev.shadowGet
  rw [Dev.get_set_ne d f g pg i v pg' j h]
  rfl

/-- A field that the shadow set does not hold reads its live value there (R52). -/
theorem Dev.shadowGet_of_none {d : Dev} {f : Field} {pg i : Nat} (h : SMap.find d.shadow (f.key pg i) = none) :
    d.shadowGet f pg i = d.get f pg i := by
  unfold Dev.shadowGet
  rw [h]

theorem find_cut_page (m : SMap Word) {f : Field} {pg i : Nat} (hlo : pageLo pg ≤ f.key pg i) (hhi : f.key pg i < pageHi pg) :
    SMap.find (SMap.cut m (pageLo pg) (pageHi pg)) (f.key pg i) = none := by
  rw [SMap.find_cut, if_neg (by omega)]

/-- The event bit of COMMON that an event sets. -/
theorem Dev.raise_common_bit (d : Dev) {pg pos : Nat} (code sev detail : Nat) (hp : pos < 8) :
    bit ((d.raise pg code pos sev detail).hd Hdr.EVT_COMMON pg) pos = true := by
  have hset : bit ((d.hw Hdr.EVT_COMMON pg (setBit (d.hd Hdr.EVT_COMMON pg) pos)).hd Hdr.EVT_COMMON pg) pos = true := by
    rw [Dev.hd_hw_same _ _ _ _ (by decide) (by decide)]
    exact bit_setBit_mod hp
  by_cases h : bit (d.hd Hdr.EVT_COMMON pg) pos = true ∨ bit (d.hd Hdr.MASK_COMMON pg) pos = true
  · rw [Dev.raise_common_held _ _ _ hp h]
    exact hset
  · obtain ⟨h1, h2⟩ := not_or.mp h
    rw [Dev.raise_common_offered _ _ _ hp (Bool.eq_false_iff.mpr h1) (Bool.eq_false_iff.mpr h2)]
    generalize d.hw Hdr.EVT_COMMON pg (setBit (d.hd Hdr.EVT_COMMON pg) pos) = e at hset ⊢
    generalize queuesOf pg = qs
    induction qs generalizing e with
    | nil => exact hset
    | cons q qs ih => exact ih _ ((congrArg (bit · pos) (Dev.offer_hd_common ..)).trans hset)

/-! ## STEP_REC -/

/-- The SH fields of STEP_REC. -/
def stepRecFields : List Field := [Reg.STEP_REC_LEDGER_MODE, Reg.STEP_REC_FORCE_WAIT, Reg.STEP_REC_FORCE_BLOCK, Reg.STEP_REC_FORCE_COUNT]

theorem shFields_stepRec : shFields (pageNum 8 0 2) = stepRecFields := by decide +kernel

/-- A list of fields of one copy takes its shadow values. -/
def Dev.takeShadow (d : Dev) (pg : Nat) (fs : List Field) : Dev := fs.foldl (fun d f => d.set f pg 0 (d.shadowGet f pg 0)) d

theorem Dev.takeShadow_shadow (d : Dev) (pg : Nat) (fs : List Field) : (d.takeShadow pg fs).shadow = d.shadow := by
  induction fs generalizing d with
  | nil => rfl
  | cons f fs ih => exact ih _

theorem Dev.takeShadow_get_other (d : Dev) (pg : Nat) (fs : List Field) (g : Field) (h : ∀ f ∈ fs, g.key pg 0 ≠ f.key pg 0) :
    (d.takeShadow pg fs).get g pg 0 = d.get g pg 0 := by
  induction fs generalizing d with
  | nil => rfl
  | cons f fs ih =>
    exact (ih _ fun x hx => h x (List.mem_cons_of_mem _ hx)).trans (Dev.get_set_ne _ _ _ _ _ _ _ _ (h f (List.mem_cons_self ..)))

/-- Fields of at most 32 bits under different keys of a page. -/
def separate (pg : Nat) (fs : List Field) : Prop :=
  fs.Pairwise (fun f g => f.key pg 0 ≠ g.key pg 0) ∧ ∀ f ∈ fs, f.width ≤ 32 ∧ f.rst 0 < 2 ^ 32

/-- Each of them takes the value that it had in the shadow set before any of them took its own. -/
theorem Dev.takeShadow_get (d : Dev) (pg : Nat) (fs : List Field) (hfs : separate pg fs) (f : Field) (hf : f ∈ fs) :
    (d.takeShadow pg fs).get f pg 0 = d.shadowGet f pg 0 % 2 ^ f.width := by
  obtain ⟨hpair, hsize⟩ := hfs
  induction fs generalizing d with
  | nil => exact absurd hf List.not_mem_nil
  | cons g gs ih =>
    obtain ⟨hg, hgs⟩ := List.pairwise_cons.mp hpair
    rcases List.mem_cons.mp hf with rfl | hmem
    · refine (Dev.takeShadow_get_other _ pg gs f hg).trans ?_
      exact Dev.get_set_same _ _ _ _ _ (hsize f (List.mem_cons_self ..)).1 (hsize f (List.mem_cons_self ..)).2
    · refine (ih _ hmem hgs fun x hx => hsize x (List.mem_cons_of_mem _ hx)).trans ?_
      rw [Dev.shadowGet_set_ne _ _ _ _ _ _ _ _ (hg f hmem).symm]

/-- The commit of STEP_REC, and what it leaves of a field of the page. -/
theorem Dev.commitPage_stepRec (d : Dev) (tag : Nat) : d.commitPage (pageNum 8 0 2) tag =
    (((d.takeShadow (pageNum 8 0 2) stepRecFields).reloadShadow (pageNum 8 0 2)).armStat (pageNum 8 0 2) St.committed 0 tag 0).setInfo
      (pageNum 8 0 2) { d.info (pageNum 8 0 2) with group := none } := by
  have hpg : pageNum 8 0 2 ≠ pgBeatCfg := by decide
  have happly : d.applyShadow (pageNum 8 0 2) = (d.takeShadow (pageNum 8 0 2) stepRecFields).reloadShadow (pageNum 8 0 2) := by
    have hfields : stepRecFields.filter (fun _ => ! (decide False && true)) = stepRecFields := rfl
    simp only [Dev.applyShadow, shFields_stepRec, hpg, false_and, if_false]
    rfl
  rw [Dev.commitPage, happly]
  rfl

/-- The SH fields of STEP_REC stand apart from each other, from PAGE_ARM_STAT and from the event bits. -/
theorem stepRecFields_separate : separate (pageNum 8 0 2) stepRecFields := by
  unfold separate
  decide

theorem stepRecFields_apart : ∀ f ∈ stepRecFields, f.pg 0 = pageNum 8 0 2 ∧ f.key (pageNum 8 0 2) 0 ∉ evtKeys (pageNum 8 0 2) ∧
    (∀ g ∈ [Hdr.STAT_STATUS, Hdr.STAT_REASON, Hdr.STAT_TAG, Hdr.STAT_WORD], f.key (pageNum 8 0 2) 0 ≠ g.key (pageNum 8 0 2) 0) ∧
    pageLo (pageNum 8 0 2) ≤ f.key (pageNum 8 0 2) 0 ∧ f.key (pageNum 8 0 2) 0 < pageHi (pageNum 8 0 2) := by decide

/-- A field apart from PAGE_ARM_STAT keeps its value under a new arm status. -/
theorem Dev.get_armStat_ne (d : Dev) (pg status reason tag word : Nat) {f : Field} {pg' i : Nat}
    (h : ∀ g ∈ [Hdr.STAT_STATUS, Hdr.STAT_REASON, Hdr.STAT_TAG, Hdr.STAT_WORD], f.key pg' i ≠ g.key pg 0) :
    (d.armStat pg status reason tag word).get f pg' i = d.get f pg' i := by
  rw [Dev.armStat, Dev.hw, Dev.get_set_ne _ _ _ _ _ _ _ _ (h _ (by simp)), Dev.hw, Dev.get_set_ne _ _ _ _ _ _ _ _ (h _ (by simp)), Dev.hw,
    Dev.get_set_ne _ _ _ _ _ _ _ _ (h _ (by simp)), Dev.hw, Dev.get_set_ne _ _ _ _ _ _ _ _ (h _ (by simp))]

/-- After the commit and its event each SH field has its shadow value, live and in the shadow set. -/
theorem Dev.commitPage_stepRec_field (d : Dev) (tag code pos sev detail : Nat) (f : Field) (hf : f ∈ stepRecFields) :
    let e := (d.commitPage (pageNum 8 0 2) tag).raise (pageNum 8 0 2) code pos sev detail
    e.g f = d.sh f 0 % 2 ^ f.width ∧ e.sh f 0 = e.g f := by
  intro e
  obtain ⟨hf0, hevt, hstat, hlo, hhi⟩ := stepRecFields_apart f hf
  have he : e = _ := congrArg (Dev.raise · (pageNum 8 0 2) code pos sev detail) (d.commitPage_stepRec tag)
  rw [Dev.g, Dev.rd, Dev.sh, Dev.sh, hf0, he]
  refine ⟨(Dev.get_raise _ _ _ _ _ _ _ _ _ hevt).trans 
    ((Dev.get_armStat_ne ((d.takeShadow _ stepRecFields).reloadShadow _) _ St.committed 0 tag 0 hstat).trans ?_), Dev.shadowGet_of_none ?_⟩
  · exact Dev.takeShadow_get d _ _ stepRecFields_separate f hf
  · rw [Dev.raise_shadow]
    exact find_cut_page _ hlo hhi

/-- Settles O17: `exec_pageArmArm_checked` for the arm, `beatCheck_range` and `beatCheck_mismatch` for what it finds, `Dev.inTime_iff` for the
discard, `commitPage_stepRec_field` for the commit. -/
theorem shadowSets : Obligations.ShadowSets := by
  refine ⟨?arm, ?check, ?discard, ?commit⟩
  case arm =>
    intro s r pg tag err hacc st reject
    refine ⟨fun hcap => ?_, fun hcap hst => ?_, fun hcap h1 h5 => ⟨fun reason word hcheck => ?_, fun hcheck => ?_⟩⟩
    · refine (action_ok s r _ _ _ hacc).trans ?_
      simp only [Dev.arm, hcap]
      rfl
    · refine (action_ok s r _ _ _ hacc).trans ?_
      have hst' : s.dev.start.hd Hdr.STAT_STATUS pg.toNat = St.armed ∨ s.dev.start.hd Hdr.STAT_STATUS pg.toNat = St.grouped := hst
      simp only [Dev.arm, hcap, if_pos hst']
      rfl
    · rw [exec_pageArmArm_checked tag hacc hcap h1 h5]
      have hcheck' : s.dev.start.armCheck s.mem pg.toNat (err.map BitVec.toNat) = some (reason, word) := hcheck
      rw [hcheck']
      rfl
    · rw [exec_pageArmArm_checked tag hacc hcap h1 h5]
      have hcheck' : s.dev.start.armCheck s.mem pg.toNat (err.map BitVec.toNat) = none := hcheck
      rw [hcheck']
      rfl
  case check =>
    intro d m pg
    refine ⟨fun err h => if_pos h, fun w h => if_neg (Nat.not_le.mpr h), fun hbs => ⟨fun h => ?_, fun h1 h2 h3 h4 h5 h6 h7 => ?_⟩⟩
    · exact (if_neg (Nat.not_le.mpr hbs)).trans (Dev.beatCheck_range h)
    · exact (if_neg (Nat.not_le.mpr hbs)).trans (Dev.beatCheck_mismatch (Dev.beatCheck_range_nil h1 h2 h3 h4 h5 h6) h7)
  case discard =>
    intro s r pg tag hacc st near
    have hnear : s.dev.start.inTime (s.dev.start.info pg.toNat).armedAt (us 2) = true ↔ ¬ near := Dev.inTime_iff ..
    refine ⟨fun hcap => ?_, fun hcap hst => ?_, fun hcap h5 hst => ?_⟩
    · refine (action_ok s r _ _ _ hacc).trans ?_
      simp only [Dev.discard, hcap]
      rfl
    · refine (action_ok s r _ _ _ hacc).trans ?_
      have hst' : s.dev.start.hd Hdr.STAT_STATUS pg.toNat = St.grouped ∨ (s.dev.start.hd Hdr.STAT_STATUS pg.toNat = St.armed ∧
          (! s.dev.start.inTime (s.dev.start.info pg.toNat).armedAt (us 2)) = true) :=
        hst.imp_right fun h => ⟨h.1, by rw [Bool.not_eq_true']; exact Bool.eq_false_iff.mpr fun hin => hnear.mp hin h.2⟩
      simp only [Dev.discard, hcap, if_pos hst']
      rfl
    · refine (action_ok s r _ _ _ hacc).trans ?_
      have hst' : ¬ (s.dev.start.hd Hdr.STAT_STATUS pg.toNat = St.grouped ∨ (s.dev.start.hd Hdr.STAT_STATUS pg.toNat = St.armed ∧
          (! s.dev.start.inTime (s.dev.start.info pg.toNat).armedAt (us 2)) = true)) := by
        rintro (h | ⟨h1, h2⟩)
        · exact h5 h
        · exact hst ⟨h1, not_not.mp fun hn => by rw [hnear.mpr hn] at h2; cases h2⟩
      simp only [Dev.discard, hcap, if_neg hst']
      rfl
  case commit =>
    intro s pg tag due
    have hpass (hdue : due) (hcheck : s.dev.commitCheck s.mem pg.toNat = none) : exec (.shadowCommit pg) s =
        s.ends ((s.dev.start.commitPage pg.toNat tag).raise pg.toNat 0x0101 0 Sev.info (65536 * tag)) := by
      obtain ⟨hst, hb⟩ := hdue
      have hst' : s.dev.start.hd Hdr.STAT_STATUS pg.toNat = St.armed := hst
      have hb' : s.dev.start.boundaryDue (s.dev.start.info pg.toNat).armedAt (us 2) = true := hb
      have hcheck' : s.dev.start.commitCheck s.mem pg.toNat = none := hcheck
      refine congrArg s.ends ?_
      simp only [Dev.shadowCommit, hst', hb', hcheck', ne_eq, not_true, Bool.not_true, Bool.false_eq_true, or_self, if_false]
      rfl
    have hfail (hdue : due) {reason word : Nat} (hcheck : s.dev.commitCheck s.mem pg.toNat = some (reason, word)) :
        exec (.shadowCommit pg) s = s.ends (s.dev.start.armReject pg.toNat reason tag word) :=
      exec_shadowCommit_rejected hdue.1 hdue.2 hcheck
    refine ⟨fun hdue => ?_, fun hdue reason word hcheck => hfail hdue hcheck, hpass, fun hpg hdue hbs => ?_⟩
    · refine congrArg s.ends (if_pos ?_)
      by_cases hst : s.dev.start.hd Hdr.STAT_STATUS pg.toNat = St.armed
      · refine .inr ?_
        rw [Bool.not_eq_true']
        exact Bool.eq_false_iff.mpr fun hb => hdue ⟨hst, hb⟩
      · exact .inl hst
    · have hcheck : s.dev.commitCheck s.mem pg.toNat = if failIf s.dev.stepOpen 0x09C = [] then none
          else some (Rs.dependency, lowestWord (failIf s.dev.stepOpen 0x09C)) := by
        rw [hpg] at hbs ⊢
        exact if_neg (Nat.not_le.mpr hbs)
      cases hopen : s.dev.stepOpen with
      | false =>
        rw [hopen] at hcheck
        refine ⟨_, hpass hdue (hcheck.trans (if_pos rfl)), fun _ => ⟨?_, ?_, fun f hf => ?_⟩, nofun, Dev.raise_common_bit _ _ _ _ (by decide)⟩
        · exact (Dev.hd_raise_of_armStatWord _ _ _ _ _ _ rfl (by decide)).trans ((Dev.hd_setInfo ..).trans (Dev.armStat_status ..))
        · exact (Dev.hd_raise_of_armStatWord _ _ _ _ _ _ rfl (by decide)).trans ((Dev.hd_setInfo ..).trans (Dev.armStat_reason ..))
        · rw [hpg]
          exact Dev.commitPage_stepRec_field s.dev.start tag 0x0101 0 Sev.info (65536 * tag) f hf
      | true =>
        rw [hopen] at hcheck
        refine ⟨_, hfail hdue (hcheck.trans (if_neg (List.cons_ne_nil _ _))), nofun, fun _ => ⟨?_, ?_, fun f hf => ?_, ?_⟩,
          Dev.raise_common_bit _ _ _ _ (by decide)⟩
        · exact Dev.armReject_status ..
        · exact Dev.armReject_reason ..
        · obtain ⟨hf0, hevt, hstat, -, -⟩ := stepRecFields_apart f hf
          rw [Dev.g, Dev.rd, hf0, hpg]
          exact (Dev.get_raise _ _ _ _ _ _ _ _ _ hevt).trans ((Dev.get_armStat_ne _ _ _ _ _ _ hstat).trans (by rw [Dev.g, Dev.rd, hf0]; rfl))
        · exact Dev.armReject_shadow ..

end Sys2Proof.Machine

/-! Arm, discard and commit of a commit group (O18). -/

namespace Sys2Proof.Machine

/-! ## Folds over the members of a group -/

/-- A property of a page that each member's step gives to its own page, and that no step takes from another. -/
theorem foldl_members {P : Dev → Nat → Prop} {f : Dev → Nat × Nat → Dev} (hown : ∀ d x, P (f d x) x.2)
    (hkeep : ∀ d x pg, P d pg → P (f d x) pg) (ms : List (Nat × Nat)) (d : Dev) : ∀ x ∈ ms, P (ms.foldl f d) x.2 := by
  have hrest : ∀ (l : List (Nat × Nat)) (d : Dev) (pg : Nat), P d pg → P (l.foldl f d) pg := fun l => by
    induction l with
    | nil => exact fun _ _ h => h
    | cons y l ih => exact fun d pg h => ih _ _ (hkeep d y pg h)
  induction ms generalizing d with
  | nil => exact fun _ h => absurd h List.not_mem_nil
  | cons y ms ih =>
    intro x hx
    rcases List.mem_cons.mp hx with rfl | hx
    · exact hrest ms _ _ (hown d x)
    · exact ih _ x hx

/-- An arm status of a page leaves that of the others. -/
theorem Dev.armStat_status_ne (d : Dev) {pg pg' : Nat} (status reason tag word : Nat) (h : pg' ≠ pg) :
    (d.armStat pg status reason tag word).hd Hdr.STAT_STATUS pg' = d.hd Hdr.STAT_STATUS pg' := by
  refine Dev.get_armStat_ne d pg status reason tag word fun g hg => ?_
  simp only [List.mem_cons, List.not_mem_nil, or_false] at hg
  rcases hg with rfl | rfl | rfl | rfl <;> simp only [Field.key, Hdr.STAT_STATUS, Hdr.STAT_REASON, Hdr.STAT_TAG, Hdr.STAT_WORD] <;> omega

/-- A page that has a status has it still after another page, or itself, is given the same. -/
theorem Dev.armStat_status_keeps {d : Dev} {pg pg' status c : Nat} (reason tag word : Nat) (hc : status % 8 = c)
    (h : d.hd Hdr.STAT_STATUS pg' = c) : (d.armStat pg status reason tag word).hd Hdr.STAT_STATUS pg' = c := by
  by_cases hpg : pg' = pg
  · rw [hpg, Dev.armStat_status, hc]
  · rw [Dev.armStat_status_ne _ _ _ _ _ hpg, h]

/-! ## CG_STAT -/

/-- CG_STAT_g stands outside every PAGE_ARM_STAT. -/
theorem Dev.hd_groupStat (d : Dev) {g : Nat} (hg : g < 8) (status reason tag member pg : Nat) :
    (d.groupStat g status reason tag member).hd Hdr.STAT_STATUS pg = d.hd Hdr.STAT_STATUS pg := by
  have hkey (f : Field) (hoff : f.off = 0x0A0) (hstride : f.stride = 4) (hlo : f.lo < 32) : Hdr.STAT_STATUS.key pg 0 ≠ f.key (f.pg 0) g := by
    simp only [Field.key, Hdr.STAT_STATUS, hoff, hstride]
    omega
  unfold Dev.groupStat Dev.p Dev.wr Dev.hd
  rw [Dev.get_set_ne _ _ _ _ _ _ _ _ (hkey _ rfl rfl (by decide)), Dev.get_set_ne _ _ _ _ _ _ _ _ (hkey _ rfl rfl (by decide)),
    Dev.get_set_ne _ _ _ _ _ _ _ _ (hkey _ rfl rfl (by decide)), Dev.get_set_ne _ _ _ _ _ _ _ _ (hkey _ rfl rfl (by decide))]

/-- Two fields of one word stand under different keys. -/
theorem Field.key_ne_of_lo {f g : Field} {pg i : Nat} (hoff : f.off = g.off) (hstride : f.stride = g.stride) (hlo : f.lo ≠ g.lo) :
    f.key pg i ≠ g.key pg i := by
  rw [Field.key, Field.key, hoff, hstride]
  omega

theorem Field.rst_lt {f : Field} (h : f.reset = 0 ∧ (f.cls, f.page, f.off) ∉ [(5, 1, 0x084), (4, 3, 0x0E0), (14, 1, 0x080)]) (i : Nat) :
    f.rst i < 2 ^ 32 := by
  rw [Field.rst_eq_zero h]
  decide

theorem Dev.groupStat_status (d : Dev) (g status reason tag member : Nat) :
    (d.groupStat g status reason tag member).g Reg.COMMIT_CG_STAT_STATUS g = status % 8 := by
  have hkey (f : Field) (hoff : 0x0A0 = f.off) (hstride : 4 = f.stride) (hlo : 0 ≠ f.lo) (hpg : f.pg 0 = pgCommit) :
      Reg.COMMIT_CG_STAT_STATUS.key (Reg.COMMIT_CG_STAT_STATUS.pg 0) g ≠ f.key (f.pg 0) g := by
    rw [show Reg.COMMIT_CG_STAT_STATUS.pg 0 = pgCommit from rfl, hpg]
    exact Field.key_ne_of_lo hoff hstride hlo
  unfold Dev.groupStat Dev.p Dev.wr Dev.g Dev.rd
  rw [Dev.get_set_ne _ Reg.COMMIT_CG_STAT_MEMBER _ _ _ _ _ _ (hkey _ rfl rfl (by decide) rfl),
    Dev.get_set_ne _ Reg.COMMIT_CG_STAT_TAG _ _ _ _ _ _ (hkey _ rfl rfl (by decide) rfl),
    Dev.get_set_ne _ Reg.COMMIT_CG_STAT_REASON _ _ _ _ _ _ (hkey _ rfl rfl (by decide) rfl), Dev.get_set_same _ _ _ _ _ (by decide) (Field.rst_lt (by decide) g)]
  rfl

theorem Dev.groupStat_reason (d : Dev) (g status reason tag member : Nat) :
    (d.groupStat g status reason tag member).g Reg.COMMIT_CG_STAT_REASON g = reason % 256 := by
  have hkey (f : Field) (hoff : 0x0A0 = f.off) (hstride : 4 = f.stride) (hlo : 8 ≠ f.lo) (hpg : f.pg 0 = pgCommit) :
      Reg.COMMIT_CG_STAT_REASON.key (Reg.COMMIT_CG_STAT_REASON.pg 0) g ≠ f.key (f.pg 0) g := by
    rw [show Reg.COMMIT_CG_STAT_REASON.pg 0 = pgCommit from rfl, hpg]
    exact Field.key_ne_of_lo hoff hstride hlo
  unfold Dev.groupStat Dev.p Dev.wr Dev.g Dev.rd
  rw [Dev.get_set_ne _ Reg.COMMIT_CG_STAT_MEMBER _ _ _ _ _ _ (hkey _ rfl rfl (by decide) rfl),
    Dev.get_set_ne _ Reg.COMMIT_CG_STAT_TAG _ _ _ _ _ _ (hkey _ rfl rfl (by decide) rfl), Dev.get_set_same _ _ _ _ _ (by decide) (Field.rst_lt (by decide) g)]
  rfl

theorem Field.le_key {f : Field} (pg i : Nat) (hoff : 128 ≤ f.off) : (pg * 4096 + 128) * 32 ≤ f.key pg i := by
  rw [Field.key]
  omega

theorem evtKeys_lt (pg : Nat) : ∀ k ∈ evtKeys pg, k < (pg * 4096 + 128) * 32 := by
  simp only [evtKeys, Field.key, Hdr.EVT_COMMON, Hdr.EVT_BLOCK, Hdr.EVT_OVERFLOW, List.forall_mem_cons, List.not_mem_nil, false_imp_iff,
    implies_true, and_true]
  omega

/-- An event of the commit page leaves CG_STAT. -/
theorem Dev.g_raise_commit (d : Dev) (code pos sev detail i : Nat) {f : Field} (hpg : f.pg 0 = pgCommit) (hoff : 128 ≤ f.off) :
    (d.raise pgCommit code pos sev detail).g f i = d.g f i := by
  refine Dev.get_raise _ _ _ _ _ _ _ _ _ fun hmem => ?_
  rw [hpg] at hmem
  exact Nat.not_le.mpr (evtKeys_lt _ _ hmem) (Field.le_key _ _ hoff)

/-- An event leaves the arm status of every page. -/
theorem Dev.hd_status_raise (d : Dev) (pg' code pos sev detail pg : Nat) :
    (d.raise pg' code pos sev detail).hd Hdr.STAT_STATUS pg = d.hd Hdr.STAT_STATUS pg := by
  refine Dev.get_raise _ _ _ _ _ _ _ _ _ ?_
  simp only [evtKeys, Field.key, Hdr.EVT_COMMON, Hdr.EVT_BLOCK, Hdr.EVT_OVERFLOW, Hdr.STAT_STATUS, List.mem_cons, List.not_mem_nil, or_false]
  omega

/-! ## The three ways of a group -/

/-- R57 step 3: what a failing member leaves. -/
theorem Dev.groupFail_stat (d : Dev) {g : Nat} (hg : g < 8) (tag : Nat) (ms : List (Nat × Nat)) (k reason word : Nat) :
    (d.groupFail g tag ms k reason word).g Reg.COMMIT_CG_STAT_STATUS g = 3 ∧
    (d.groupFail g tag ms k reason word).g Reg.COMMIT_CG_STAT_REASON g = reason % 256 ∧
    ∀ x ∈ ms, (d.groupFail g tag ms k reason word).hd Hdr.STAT_STATUS x.2 = 3 := by
  refine ⟨?_, ?_, fun x hx => ?_⟩
  · rw [Dev.groupFail, Dev.groupReject, Dev.g_raise_commit (f := Reg.COMMIT_CG_STAT_STATUS) _ _ _ _ _ _ rfl (by decide), Dev.groupStat_status]
    rfl
  · rw [Dev.groupFail, Dev.groupReject, Dev.g_raise_commit (f := Reg.COMMIT_CG_STAT_REASON) _ _ _ _ _ _ rfl (by decide), Dev.groupStat_reason]
  rw [Dev.groupFail, Dev.groupReject, Dev.hd_status_raise, Dev.hd_groupStat _ hg]
  refine foldl_members (P := fun d pg => d.hd Hdr.STAT_STATUS pg = 3) (fun d x => ?_) (fun d x pg h => ?_) ms d x hx
  · simp only
    split <;> exact Dev.armStat_status ..
  · simp only
    split <;> exact Dev.armStat_status_keeps (status := St.rejected) (c := 3) _ _ _ (by decide) h

/-- The step of one member of a group that is discarded. -/
def Dev.dropMember (g reason : Nat) (d : Dev) (x : Nat × Nat) : Dev :=
  if (d.info x.2).group = some g then
    ((d.reloadShadow x.2).armStat x.2 St.discarded reason (d.hd Hdr.STAT_TAG x.2) 0).setInfo x.2 { d.info x.2 with group := none }
  else d

theorem Dev.dropMember_keeps {d : Dev} {g reason pg : Nat} (x : Nat × Nat) (h : d.hd Hdr.STAT_STATUS pg = 4) :
    (Dev.dropMember g reason d x).hd Hdr.STAT_STATUS pg = 4 := by
  unfold Dev.dropMember
  split
  · rw [Dev.hd_setInfo]
    exact Dev.armStat_status_keeps (d := d.reloadShadow x.2) (status := St.discarded) (c := 4) _ _ _ (by decide) h
  · exact h

/-- A page that is discarded already, or is a member still, is discarded after its step; another step leaves it so. -/
theorem Dev.dropMember_own {d : Dev} {g reason : Nat} {x : Nat × Nat} (h : d.hd Hdr.STAT_STATUS x.2 = 4 ∨ (d.info x.2).group = some g) :
    (Dev.dropMember g reason d x).hd Hdr.STAT_STATUS x.2 = 4 := by
  unfold Dev.dropMember
  split
  · rw [Dev.hd_setInfo]
    exact Dev.armStat_status ..
  · next hno => exact h.resolve_right hno

theorem Dev.dropMember_other {d : Dev} {g reason pg : Nat} (x : Nat × Nat) (h : d.hd Hdr.STAT_STATUS pg = 4 ∨ (d.info pg).group = some g) :
    (Dev.dropMember g reason d x).hd Hdr.STAT_STATUS pg = 4 ∨ ((Dev.dropMember g reason d x).info pg).group = some g := by
  by_cases hpg : pg = x.2
  · subst hpg
    exact .inl (Dev.dropMember_own h)
  · refine h.imp (Dev.dropMember_keeps x) fun hgroup => ?_
    have hinfo : (Dev.dropMember g reason d x).info pg = d.info pg := by
      unfold Dev.dropMember
      split
      · exact SMap.at_put_ne _ _ _ hpg
      · rfl
    rw [hinfo, hgroup]

theorem Dev.dropMembers_status (g reason : Nat) (ms : List (Nat × Nat)) (d : Dev) (x : Nat × Nat) (hx : x ∈ ms)
    (h : d.hd Hdr.STAT_STATUS x.2 = 4 ∨ (d.info x.2).group = some g) : (ms.foldl (Dev.dropMember g reason) d).hd Hdr.STAT_STATUS x.2 = 4 := by
  induction ms generalizing d with
  | nil => exact absurd hx List.not_mem_nil
  | cons y ms ih =>
    rcases List.mem_cons.mp hx with rfl | hx
    · have hkeep : ∀ (l : List (Nat × Nat)) (d : Dev), d.hd Hdr.STAT_STATUS x.2 = 4 →
          (l.foldl (Dev.dropMember g reason) d).hd Hdr.STAT_STATUS x.2 = 4 := fun l => by
        induction l with
        | nil => exact fun _ h => h
        | cons z l ih => exact fun d h => ih _ (Dev.dropMember_keeps z h)
      exact hkeep ms _ (Dev.dropMember_own h)
    · exact ih _ hx (Dev.dropMember_other y h)

/-- R58: what the discard of a group leaves. -/
theorem Dev.groupDrop_stat (d : Dev) {g : Nat} (hg : g < 8) (reason : Nat) :
    (d.groupDrop g reason).g Reg.COMMIT_CG_STAT_STATUS g = 4 ∧ (d.groupDrop g reason).g Reg.COMMIT_CG_STAT_REASON g = reason % 256 ∧
    ∀ x ∈ d.members g, (d.info x.2).group = some g → (d.groupDrop g reason).hd Hdr.STAT_STATUS x.2 = 4 := by
  exact ⟨Dev.groupStat_status .., Dev.groupStat_reason .., fun x hx hgroup =>
    (Dev.hd_groupStat _ hg _ _ _ _ _).trans (Dev.dropMembers_status g reason (d.members g) d x hx (.inr hgroup))⟩

/-- The checks of the members at the arm of their group. -/
def Dev.groupChecks (d : Dev) (m : Mem) (ms : List (Nat × Nat)) (err : Option (Nat × Nat)) : List (Nat × Option (Nat × Nat)) :=
  ms.map fun x => (x.1, d.armCheck m x.2 ((err.filter (·.1 == x.1)).map (·.2)))

/-- The members of a group that is armed, all GROUPED. -/
def Dev.groupMembers (d : Dev) (g tag : Nat) (ms : List (Nat × Nat)) : Dev :=
  ms.foldl (fun (d : Dev) x => (d.armStat x.2 St.grouped 0 tag 0).setInfo x.2 { d.info x.2 with group := some g, armedAt := d.now }) d

theorem Dev.groupMembers_groupAt (d : Dev) (g tag : Nat) (ms : List (Nat × Nat)) :
    (d.groupMembers g tag ms).groupAt = d.groupAt ∧ (d.groupMembers g tag ms).now = d.now := by
  unfold Dev.groupMembers
  induction ms generalizing d with
  | nil => exact ⟨rfl, rfl⟩
  | cons x ms ih => exact ih _

theorem Dev.groupMembers_status (d : Dev) (g tag : Nat) (ms : List (Nat × Nat)) : ∀ x ∈ ms, (d.groupMembers g tag ms).hd Hdr.STAT_STATUS x.2 = 5 := by
  refine foldl_members (P := fun d pg => d.hd Hdr.STAT_STATUS pg = 5) (fun d x => ?_) (fun d x pg h => ?_) ms d
  · rw [Dev.hd_setInfo]
    exact Dev.armStat_status ..
  · rw [Dev.hd_setInfo]
    exact Dev.armStat_status_keeps (d := d) (status := St.grouped) (c := 5) _ _ _ (by decide) h

section GroupArm
variable {d : Dev} {m : Mem} {g tag : Nat} {err : Option (Nat × Nat)} (hoff : d.groupArmed g = false)
include hoff

/-- R57 step 1: a member that breaks the rules. -/
theorem Dev.groupArm_fault {reason k : Nat} (hfault : d.memberFault (d.members g) = some (reason, k)) :
    d.groupArm m g tag err = (Cc.done, d.groupReject g reason tag k) := by
  rw [Dev.groupArm, hoff, if_neg Bool.false_ne_true]
  simp only [hfault]

/-- R57 step 3: a member whose check fails. -/
theorem Dev.groupArm_fail (hfault : d.memberFault (d.members g) = none) {k reason word : Nat}
    (hfind : (d.groupChecks m (d.members g) err).find? (·.2.isSome) = some (k, some (reason, word))) :
    d.groupArm m g tag err = (Cc.done, (d.groupMembers g tag (d.members g)).groupFail g tag (d.members g) k reason word) := by
  rw [Dev.groupArm, hoff, if_neg Bool.false_ne_true]
  simp only [hfault]
  change (match (d.groupChecks m (d.members g) err).find? (·.2.isSome) with
    | some (k, some (reason, word)) => (Cc.done, (d.groupMembers g tag (d.members g)).groupFail g tag (d.members g) k reason word)
    | _ => _) = _
  rw [hfind]

/-- R57: a group whose members all pass. -/
theorem Dev.groupArm_armed (hfault : d.memberFault (d.members g) = none)
    (hfind : (d.groupChecks m (d.members g) err).find? (·.2.isSome) = none) :
    d.groupArm m g tag err = (Cc.done, { (d.groupMembers g tag (d.members g)).groupStat g St.armed 0 tag 0 with
      groupAt := SMap.put d.groupAt g d.now }) := by
  obtain ⟨hat, hnow⟩ := d.groupMembers_groupAt g tag (d.members g)
  rw [Dev.groupArm, hoff, if_neg Bool.false_ne_true, ← hat, ← hnow]
  simp only [hfault]
  change (match (d.groupChecks m (d.members g) err).find? (·.2.isSome) with
    | some (k, some (reason, word)) => (Cc.done, (d.groupMembers g tag (d.members g)).groupFail g tag (d.members g) k reason word)
    | _ => _) = _
  rw [hfind]
  rfl

end GroupArm

/-! ## The commands of a group -/

theorem exec_cgCtlArm {s : State} {r : Requester} {g : BitVec 3} {a : GroupArm} {c : Nat} {e : Dev} (hacc : s.accepts r pgCommit 0x080 true)
    (h : s.dev.start.groupArm s.mem g.toNat a.tag.toNat (a.err.map fun x => (x.1.toNat, x.2.toNat)) = (c, e)) :
    exec (.cgCtlArm r g a) s = s.ends (e.done c) := (action_ok s r _ _ _ hacc).trans (by rw [h])

theorem exec_cgCtlDiscard {s : State} {r : Requester} {g : BitVec 3} {c : Nat} {e : Dev} (hacc : s.accepts r pgCommit 0x080 true)
    (h : s.dev.start.groupDiscard g.toNat = (c, e)) : exec (.cgCtlDiscard r g) s = s.ends (e.done c) :=
  (action_ok s r _ _ _ hacc).trans (by rw [h])

/-- The verdicts on the members of a group at its commit boundary. -/
def Dev.groupLate (d : Dev) (m : Mem) (ms : List (Nat × Nat)) : List (Nat × Option (Nat × Nat)) := ms.map fun x => (x.1, d.commitCheck m x.2)

section GroupCommit
variable {d : Dev} {m : Mem} {g : Nat} (hon : d.groupArmed g = true) (hdue : d.boundaryDue (d.groupTime g) (us 20) = true)
include hon hdue

theorem Dev.groupCommit_fail {k reason word : Nat} (hfind : (d.groupLate m (d.members g)).find? (·.2.isSome) = some (k, some (reason, word))) :
    d.groupCommit m g = d.groupFail g (d.g Reg.COMMIT_CG_STAT_TAG g) (d.members g) k reason word := by
  rw [Dev.groupCommit, hon, hdue, if_neg (by decide)]
  change (match (d.groupLate m (d.members g)).find? (·.2.isSome) with
    | some (k, some (reason, word)) => d.groupFail g (d.g Reg.COMMIT_CG_STAT_TAG g) (d.members g) k reason word
    | _ => _) = _
  rw [hfind]

theorem Dev.groupCommit_all (hfind : (d.groupLate m (d.members g)).find? (·.2.isSome) = none) :
    d.groupCommit m g = (((d.members g).foldl (fun (d : Dev) x => d.commitPage x.2 (d.hd Hdr.STAT_TAG x.2)) d).groupStat g St.committed 0
      (d.g Reg.COMMIT_CG_STAT_TAG g) 0).raise pgCommit 0x0103 8 Sev.info (g + 65536 * d.g Reg.COMMIT_CG_STAT_TAG g) := by
  rw [Dev.groupCommit, hon, hdue, if_neg (by decide)]
  change (match (d.groupLate m (d.members g)).find? (·.2.isSome) with
    | some (k, some (reason, word)) => d.groupFail g (d.g Reg.COMMIT_CG_STAT_TAG g) (d.members g) k reason word
    | _ => _) = _
  rw [hfind]

end GroupCommit

/-- No member of a list has a verdict. -/
theorem find_isSome_none {l : List (Nat × Option (Nat × Nat))} (h : ∀ x ∈ l, x.2 = none) : l.find? (·.2.isSome) = none :=
  List.find?_eq_none.mpr fun x hx => by rw [h x hx]; decide

/-- Settles O18: `groupArm_fault`, `_fail` and `_armed`, `groupDrop_stat`, `groupCommit_fail` and `_all`, `groupFail_stat`. -/
theorem commitGroups : Obligations.CommitGroups := by
  intro s r g tag err st d ms stat wrong grouped checks near due late
  have hwrong (k : Nat) : ((err.map fun x => (x.1.toNat, x.2.toNat)).filter (·.1 == k)).map (·.2) = wrong k := by
    cases err with
    | none => rfl
    | some x =>
      show Option.map (·.2) (Option.filter (·.1 == k) (some (x.1.toNat, x.2.toNat))) = Option.map (fun x => x.2.toNat) (Option.filter (fun x => x.1.toNat == k) (some x))
      by_cases h : x.1.toNat == k <;> simp [Option.filter, h]
  have hchecks : s.dev.start.groupChecks s.mem ms (err.map fun x => (x.1.toNat, x.2.toNat)) = checks :=
    List.map_congr_left fun x _ => by rw [hwrong]; rfl
  have harm (hst : st ≠ 1) : s.dev.start.groupArmed g.toNat = false := beq_eq_false_iff_ne.mpr hst
  have hon (hst : st = 1) : s.dev.start.groupArmed g.toNat = true := beq_iff_eq.mpr hst
  refine ⟨fun hacc => ⟨fun hst => ?armed, fun hst reason k hfault => exec_cgCtlArm hacc (Dev.groupArm_fault (harm hst) hfault),
    fun hst hfault => ⟨fun hall => ⟨?all, d.groupMembers_status g.toNat tag.toNat ms⟩, fun k reason word hfind =>
      exec_cgCtlArm hacc (Dev.groupArm_fail (harm hst) hfault (hchecks ▸ hfind))⟩,
    fun hst => ?idle, fun hst hnear => ?near, fun hst hfar => ⟨?drop, d.groupDrop_stat g.isLt 8⟩⟩, fun hdue => ?notdue, fun hdue hall => ?commit,
    fun hdue k reason word hfind => congrArg s.ends (Dev.groupCommit_fail (hon hdue.1) hdue.2 hfind),
    fun k reason word => d.groupFail_stat g.isLt tag.toNat ms k reason word⟩
  case armed => exact exec_cgCtlArm hacc (by rw [Dev.groupArm, hon hst, if_pos rfl]; rfl)
  case all => exact exec_cgCtlArm hacc (Dev.groupArm_armed (harm hst) hfault ((congrArg _ hchecks).trans (find_isSome_none hall)))
  case idle => exact exec_cgCtlDiscard hacc (by rw [Dev.groupDiscard, harm hst]; rfl)
  case near =>
    refine exec_cgCtlDiscard hacc ?_
    have h' : (s.dev.start.timerOn && decide (s.dev.start.boundaryAfter (s.dev.start.groupTime g.toNat) (us 20) < s.dev.start.now + us 20)) = true :=
      (Bool.and_eq_true ..).mpr ⟨hnear.1, decide_eq_true hnear.2⟩
    rw [Dev.groupDiscard, hon hst, h']
    rfl
  case drop =>
    refine exec_cgCtlDiscard hacc ?_
    have h' : (s.dev.start.timerOn && decide (s.dev.start.boundaryAfter (s.dev.start.groupTime g.toNat) (us 20) < s.dev.start.now + us 20)) = false :=
      Bool.eq_false_iff.mpr fun h => hfar ⟨((Bool.and_eq_true ..).mp h).1, of_decide_eq_true ((Bool.and_eq_true ..).mp h).2⟩
    rw [Dev.groupDiscard, hon hst, h']
    rfl
  case notdue =>
    refine congrArg s.ends (if_pos ?_)
    rw [Bool.not_eq_true', Bool.not_eq_true']
    by_cases hst : st = 1
    · exact .inr (Bool.eq_false_iff.mpr fun h => hdue ⟨hst, h⟩)
    · exact .inl (harm hst)
  case commit => exact congrArg s.ends (Dev.groupCommit_all (hon hdue.1) hdue.2 (find_isSome_none hall))

end Sys2Proof.Machine

/-! A block reset in a group that no commit page has (O9). -/

namespace Sys2Proof.Machine

/-- A package that is up, whose SEQ block of unit 0 is held by a group whose number names no commit group: the word CG_STAT of that group would lie on
the block's own PAGE_STATE. -/
def strayGroup : State := { mem := [], pending := [], dev := { rst := { held := false, runsTo := 0 }, pages := [(65536, { group := some 67105757 })] } }

/-- The reset of the block ends with its state overwritten by the group's status, DISCARDED. -/
theorem strayGroup_resetPage : (strayGroup.dev.start.resetPage 65536).bs 65536 = 4 := by decide +kernel

/-- Refutes O9: a page may be held by a group of any number, and the reset of its block writes CG_STAT of that group. -/
theorem not_enableAndReset : ¬ Obligations.EnableAndReset := by
  intro h
  obtain ⟨-, hrreq, -⟩ := h.2 strayGroup .packageManager (BitVec.ofNat 20 65536) (by decide +kernel)
  obtain ⟨-, -, -, -, hbs⟩ := hrreq (by decide +kernel)
  exact absurd (strayGroup_resetPage.symm.trans hbs) (by decide)

end Sys2Proof.Machine

/-! Header fields beside each other, and the quiesce of a block (O10). -/

namespace Sys2Proof.Machine

/-! ## Header fields -/

/-- Two fields of the header at different places of it (R46). -/
def hdrApart (f g : Field) : Bool :=
  decide (f.off < 128 ∧ g.off < 128 ∧ f.lo < 32 ∧ g.lo < 32 ∧ (f.off, f.lo) ≠ (g.off, g.lo))

theorem key_ne_of_apart {f g : Field} (h : hdrApart f g = true) (pg pg' : Nat) : g.key pg' 0 ≠ f.key pg 0 := by
  obtain ⟨hf, hg, hf', hg', hne⟩ := of_decide_eq_true h
  simp only [Field.key, Nat.mul_zero, Nat.add_zero]
  intro heq
  have hoff : f.off = g.off := by omega
  have hlo : f.lo = g.lo := by omega
  exact hne (by rw [hoff, hlo])

theorem key_ne_of_page {f g : Field} {pg pg' : Nat} (hpg : pg' ≠ pg) (hf : f.off < 128 ∧ f.lo < 32) (hg : g.off < 128 ∧ g.lo < 32) :
    g.key pg' 0 ≠ f.key pg 0 := by
  simp only [Field.key, Nat.mul_zero, Nat.add_zero]
  omega

/-- A field of the header keeps its value while another is written. -/
theorem Dev.hd_hw_apart (d : Dev) {f g : Field} (pg v pg' : Nat) (h : hdrApart f g = true) : (d.hw f pg v).hd g pg' = d.hd g pg' :=
  Dev.hd_hw_ne _ _ _ _ _ _ (key_ne_of_apart h pg pg')

/-- So it does while the state of the block changes, or an event is raised. -/
theorem Dev.hd_setBs_apart (d : Dev) {g : Field} (pg v pg' : Nat) (h : hdrApart Hdr.STATE g = true) (h' : hdrApart Hdr.DROPS g = true) :
    (d.setBs pg v).hd g pg' = d.hd g pg' :=
  Dev.hd_setBs_ne _ _ _ _ _ (key_ne_of_apart h pg pg') (key_ne_of_apart h' pg pg')

theorem Dev.hd_raise_apart (d : Dev) {g : Field} (pg code pos sev detail pg' : Nat)
    (h : hdrApart Hdr.EVT_COMMON g = true ∧ hdrApart Hdr.EVT_BLOCK g = true ∧ hdrApart Hdr.EVT_OVERFLOW g = true) :
    (d.raise pg code pos sev detail).hd g pg' = d.hd g pg' := by
  refine Dev.get_raise _ _ _ _ _ _ _ _ _ ?_
  simp only [evtKeys, List.mem_cons, List.not_mem_nil, or_false, not_or]
  exact ⟨key_ne_of_apart h.1 _ _, key_ne_of_apart h.2.1 _ _, key_ne_of_apart h.2.2 _ _⟩

/-- The state of a block stays while that of another changes. -/
theorem Dev.bs_setBs_ne (d : Dev) {pg pg' : Nat} (v : Nat) (h : pg' ≠ pg) : (d.setBs pg v).bs pg' = d.bs pg' :=
  Dev.hd_setBs_ne _ _ _ _ _ (key_ne_of_page h (by decide) (by decide)) (key_ne_of_page h (by decide) (by decide))

theorem Dev.bs_raise (d : Dev) (pg code pos sev detail pg' : Nat) : (d.raise pg code pos sev detail).bs pg' = d.bs pg' :=
  Dev.hd_raise_apart _ _ _ _ _ _ _ (by decide)

/-! ## What a block has open -/

/-- The open requests of a page follow from the page's counts, the engines and the ports. -/
theorem Dev.openReqs_congr {d e : Dev} {pg : Nat} (hin : (d.info pg).reqIn = (e.info pg).reqIn) (hout : (d.info pg).reqOut = (e.info pg).reqOut)
    (hlinks : d.links = e.links) (hcmove : d.cmove = e.cmove) (hrmove : d.rmove = e.rmove) : d.openReqs pg = e.openReqs pg := by
  unfold Dev.openReqs Dev.port Dev.servedBy Dev.coreBlocks Dev.eng
  rw [hin, hout, hlinks, hcmove, hrmove]

/-- A block that contains no other reaches none. -/
theorem containedPages_of_page {pg : Nat} (h : pgPage pg ≠ 0) : containedPages pg = [] := if_pos h

/-! ## The end of a drain -/

section Drain
variable {d : Dev} {pg : Nat} (hpage : pgPage pg ≠ 0)
include hpage

/-- R63 step 3: a drained block whose own QREQ is still 1 is QUIESCED. -/
theorem Dev.tryQuiesced_drained (hbs : d.bs pg = Bs.quiescing) (hopen : d.openReqs pg = (0, 0)) (hafter : (d.info pg).resetAfter = false)
    (hq : d.hd Hdr.CTL_QREQ pg = 1) : d.tryQuiesced pg = (d.setBs pg Bs.quiesced).raise pg 0x0106 2 Sev.info 0 := by
  have hdrained : d.drained pg = true := beq_iff_eq.mpr hopen
  have hafter' : (((d.setBs pg Bs.quiesced).raise pg 0x0106 2 Sev.info 0).info pg).resetAfter = false := by
    rw [Dev.info, Dev.raise_pages]
    exact hafter
  have hfenced : ((d.setBs pg Bs.quiesced).raise pg 0x0106 2 Sev.info 0).fencedBy pg = true := by
    rw [Dev.fencedBy, Dev.hd_raise_apart _ _ _ _ _ _ _ (by decide), Dev.hd_setBs_apart _ _ _ _ (by decide) (by decide), hq]
    rfl
  rw [Dev.tryQuiesced, if_pos ⟨hbs, hdrained, by rw [containedPages_of_page hpage]; simp⟩, Dev.quiesced, hafter', hfenced]
  rfl

omit hpage in
/-- R63 step 3: a block with anything open goes on draining, and one that does not drain is not touched. -/
theorem Dev.tryQuiesced_open (h : d.bs pg = Bs.quiescing → d.openReqs pg ≠ (0, 0)) : d.tryQuiesced pg = d := by
  refine if_neg fun ⟨hbs, hdrained, _⟩ => h hbs (beq_iff_eq.mp hdrained)

end Drain

/-- A fold of quiesces over blocks that do not drain. -/
theorem Dev.tryQuiesced_foldl {d : Dev} {qs : List Nat} (h : ∀ q ∈ qs, d.bs q ≠ Bs.quiescing) : qs.foldl Dev.tryQuiesced d = d := by
  induction qs with
  | nil => rfl
  | cons q qs ih =>
    rw [List.foldl_cons, Dev.tryQuiesced_open fun hbs => absurd hbs (h q (List.mem_cons_self ..))]
    exact ih fun x hx => h x (List.mem_cons_of_mem _ hx)

theorem Dev.domFinish_of_none {d : Dev} (h : d.rst.drain = []) : d.domFinish = d := by rw [Dev.domFinish, h]; rfl

theorem ne_of_mem_containers {pg q : Nat} (h : q ∈ containers pg) : q ≠ pg := of_decide_eq_true (List.mem_filter.mp h).2

/-- QREQ from 0 to 1 on a block that contains no other. -/
theorem Dev.setQreq_quiesce {d : Dev} {pg : Nat} (hpage : pgPage pg ≠ 0) (hq : d.hd Hdr.CTL_QREQ pg = 0) (hstep : d.stepOpen = false)
    (hbs : d.bs pg < Bs.quiescing) (hafter : (d.info pg).resetAfter = false) (hlimit : d.hd Hdr.TIMEOUT_LIMIT pg ≠ 0) :
    d.setQreq pg true = Dev.tryQuiesced (((d.hw Hdr.CTL_QREQ pg 1).setBs pg Bs.quiescing).setInfo pg
      { d.info pg with quiesceAt := d.now, limit := d.hd Hdr.TIMEOUT_LIMIT pg, waitBoundary := false }) pg := by
  have hstep' : (d.hw Hdr.CTL_QREQ pg 1).stepOpen = d.stepOpen := by
    have hkey : Reg.STEP_REC_STATE_PHASE.key (Reg.STEP_REC_STATE_PHASE.pg 0) 0 ≠ Hdr.CTL_QREQ.key pg 0 := by
      simp only [Field.key, Field.pg, Reg.STEP_REC_STATE_PHASE, Hdr.CTL_QREQ, pageNum]
      omega
    have hphase : (d.hw Hdr.CTL_QREQ pg 1).g Reg.STEP_REC_STATE_PHASE = d.g Reg.STEP_REC_STATE_PHASE := Dev.get_set_ne _ _ _ _ _ _ _ _ hkey
    rw [Dev.stepOpen, Dev.stepOpen, hphase]
  have hidle : ¬ Bs.quiescing ≤ (d.hw Hdr.CTL_QREQ pg 1).bs pg := by
    rw [Dev.bs, Dev.hd_hw_apart _ _ _ _ (by decide)]
    exact Nat.not_le.mpr hbs
  have hfree : (d.hw Hdr.CTL_QREQ pg 1).planUses pg = false := by
    rw [Dev.planUses, hstep', hstep]
    rfl
  have henter : (d.hw Hdr.CTL_QREQ pg 1).enter pg = ((d.hw Hdr.CTL_QREQ pg 1).setBs pg Bs.quiescing).setInfo pg
      { d.info pg with quiesceAt := d.now, limit := d.hd Hdr.TIMEOUT_LIMIT pg, waitBoundary := false } := by
    rw [Dev.enter, if_neg hidle, Dev.hd_hw_apart _ _ _ _ (by decide)]
    rfl
  have hsoft : d.setQreq pg true = (d.hw Hdr.CTL_QREQ pg 1).quiesce pg := by
    rw [Dev.setQreq, hq]
    exact if_neg (Bool.eq_false_iff.mp hfree)
  have hafter' : ((d.hw Hdr.CTL_QREQ pg 1).info pg).resetAfter = false := hafter
  rw [hsoft, Dev.quiesce, if_neg hidle, Dev.quiesceDown, hafter', containedPages_of_page hpage, henter]
  exact if_neg fun h => hlimit ((congrArg PageInfo.limit (Dev.info_setInfo ..)).symm.trans h)

/-- R65, R68: a block that contains no other leaves QUIESCED once nothing fences it. -/
theorem Dev.release_one {d : Dev} {pg : Nat} (hpage : pgPage pg ≠ 0) (hbs : d.bs pg = Bs.quiesced) (hfree : d.fencedBy pg = false) :
    d.release pg = (d.hw Hdr.DROPS pg 0).setBs pg (if d.hd Hdr.CTL_EN pg = 1 then Bs.idle else Bs.off) := by
  have hwork : d.working pg = false := by simp [Dev.working, hpage]
  rw [Dev.release, containedPages_of_page hpage, List.filter_cons_of_pos (by rw [hbs, hfree]; rfl)]
  simp only [List.filter_nil, List.foldl_cons, List.foldl_nil, Dev.leave, hwork]
  split <;> simp_all

/-- Settles O10. -/
theorem quiesces : Obligations.Quiesces := by
  refine ⟨fun s r pg hacc => ⟨fun hcap => ?unsupported, fun hcap hpage hq hstep hbs hafter hlimit => ?set⟩, fun s r pg hacc hpage hq => ?clear,
    fun s pg => ⟨rfl, fun hbs => congrArg s.endsStore (if_neg hbs), fun hbs => congrArg s.endsStore (if_pos hbs), ?drain, ?cut⟩⟩
  case unsupported =>
    refine (action_ok s r _ _ _ hacc).trans ?_
    simp only [hcap]
    rfl
  case set =>
    intro d
    have hrun : exec (.pageCtlQreqSet r pg) s = s.ends ((d.tryQuiesced pg.toNat).done 0) := by
      refine (action_ok s r _ _ _ hacc).trans ?_
      rw [if_pos hcap]
      exact congrArg (fun e => s.ends (Dev.done e 0)) (Dev.setQreq_quiesce (d := s.dev.start) hpage hq hstep hbs hafter hlimit)
    have hopen : d.openReqs pg.toNat = s.dev.openReqs pg.toNat :=
      Dev.openReqs_congr (by rw [Dev.info_setInfo]) (by rw [Dev.info_setInfo]) rfl rfl rfl
    have hd : d.bs pg.toNat = Bs.quiescing := Dev.bs_setBs (s.dev.start.hw Hdr.CTL_QREQ pg.toNat 1) pg.toNat Bs.quiescing
    refine ⟨fun h => ?_, fun h => ?_⟩
    · rw [hrun, Dev.tryQuiesced_open fun _ => by rw [hopen]; exact h]
    · rw [hrun, Dev.tryQuiesced_drained hpage hd (hopen.trans h)]
      · exact congrArg PageInfo.resetAfter (Dev.info_setInfo ..) |>.trans hafter
      · exact (Dev.hd_setBs_apart (s.dev.start.hw Hdr.CTL_QREQ pg.toNat 1) pg.toNat Bs.quiescing _ (by decide) (by decide)).trans
          (Dev.hd_hw_same _ _ _ _ (by decide) (by decide))
  case clear =>
    intro d
    have hrun : exec (.pageCtlQreqClear r pg) s = s.ends ((if d.bs pg.toNat = Bs.quiescing ∨ d.fencedBy pg.toNat then d else d.release pg.toNat).done 0) := by
      refine (action_ok s r _ _ _ hacc).trans ?_
      have hq' : s.dev.start.hd Hdr.CTL_QREQ pg.toNat = 1 := hq
      refine congrArg (fun e => s.ends (Dev.done e 0)) ?_
      simp only [Dev.setQreq, hq', ofB]
      rfl
    have hbs' : d.bs pg.toNat = s.dev.bs pg.toNat := Dev.hd_hw_apart s.dev.start (f := Hdr.CTL_QREQ) (g := Hdr.STATE) pg.toNat 0 pg.toNat (by decide)
    have hen : d.hd Hdr.CTL_EN pg.toNat = s.dev.hd Hdr.CTL_EN pg.toNat :=
      Dev.hd_hw_apart s.dev.start (f := Hdr.CTL_QREQ) (g := Hdr.CTL_EN) pg.toNat 0 pg.toNat (by decide)
    refine ⟨fun hbs => ?_, fun hbs hfree => ?_⟩
    · rw [hrun, if_pos (.inl (hbs'.trans hbs))]
    · rw [hrun, if_neg, Dev.release_one hpage (hbs'.trans hbs) hfree, hen]
      rintro (h | h)
      · rw [hbs', hbs] at h
        exact absurd h (by decide)
      · rw [hfree] at h
        cases h
  case drain =>
    intro hpage hdrain hbs hafter hq hcont
    have hkids (e : Dev) (he : ∀ q ∈ containers pg.toNat, e.bs q ≠ Bs.quiescing) (hr : e.rst.drain = []) :
        ((containers pg.toNat).foldl Dev.tryQuiesced e).domFinish = e := by
      rw [Dev.tryQuiesced_foldl he, Dev.domFinish_of_none hr]
    refine ⟨fun hopen => ?_, fun hopen => ?_⟩
    · have htry := Dev.tryQuiesced_drained (d := s.dev.start) hpage hbs hopen hafter hq
      have hend := endsStore_ends s ((s.dev.start.setBs pg.toNat Bs.quiesced).raise pg.toNat 0x0106 2 Sev.info 0) (by rw [Dev.raise_writes]; rfl)
      refine (congrArg s.endsStore ?_).trans hend
      show ((pg.toNat :: containers pg.toNat).foldl Dev.tryQuiesced s.dev.start).domFinish = _
      rw [List.foldl_cons, htry]
      refine hkids _ (fun q hmem => ?_) (by rw [Dev.raise_rst]; exact hdrain)
      rw [Dev.bs_raise, Dev.bs_setBs_ne _ _ (ne_of_mem_containers hmem)]
      exact hcont q hmem
    · refine (congrArg s.endsStore ?_).trans (endsStore_ends s s.dev.start rfl)
      show ((pg.toNat :: containers pg.toNat).foldl Dev.tryQuiesced s.dev.start).domFinish = _
      rw [List.foldl_cons, Dev.tryQuiesced_open (d := s.dev.start) fun _ => hopen]
      exact hkids s.dev.start hcont hdrain
  case cut =>
    intro d hbs hopen n e hafter hfenced
    have hdrained : d.drained pg.toNat = false := beq_eq_false_iff_ne.mpr hopen
    rw [Dev.cutOne, if_neg (not_not.mpr hbs), hdrained, if_neg Bool.false_ne_true]
    exact (if_neg (Bool.eq_false_iff.mp hafter)).trans (if_pos hfenced)

end Sys2Proof.Machine

/-! Replies, request timeouts and uncorrectable errors (O11). -/

namespace Sys2Proof.Machine

theorem sat_eq_min (w v : Nat) : sat w v = min (2 ^ w - 1) v := by
  unfold sat
  split <;> omega

/-! ## Request timeouts (R66) -/

section Timeout
variable {d : Dev} {pg tag : Nat}

/-- With no request open under the tag nothing happens. -/
theorem Dev.requestTimeout_of_not_awaits (h : d.awaits pg tag = false) : d.requestTimeout pg tag = d := by
  have hnone : d.issuedUnder pg tag = [] := by simpa [Dev.awaits] using h
  have hdesc (rm : Bool) (hrun : (match (d.eng rm (pgInst pg)).run with
      | some r => if (d.eng rm (pgInst pg)).desc.isSome ∧ r.block.tag = tag then [r.issuedAt] else []
      | none => ([] : List Nat)) = []) (limit : Nat) : d.descTimeout rm (pgInst pg) tag limit = d := by
    unfold Dev.descTimeout
    simp only
    split
    · next r hr =>
      rw [hr] at hrun
      exact if_neg fun hc => by simp [hc] at hrun
    · rfl
  have hfind {α : Type} {l : List α} {p : α → Bool} (hl : l.filter p = []) : l.find? p = none :=
    List.find?_eq_none.mpr fun x hx => List.filter_eq_nil_iff.mp hl x hx
  unfold Dev.requestTimeout
  simp only
  split
  · next hc hp =>
    simp only [Dev.issuedUnder, hc, hp, List.map_eq_nil_iff] at hnone
    rw [hfind hnone]
  · next hc hp =>
    simp only [Dev.issuedUnder, hc, hp, List.append_eq_nil_iff, List.map_eq_nil_iff] at hnone
    rw [hfind hnone.2]
    exact hdesc false hnone.1 _
  · next hc hp =>
    simp only [Dev.issuedUnder, hc, hp] at hnone
    exact hdesc true hnone _
  · next hc hp =>
    simp only [Dev.issuedUnder, hc, hp, List.map_eq_nil_iff] at hnone
    rw [hfind hnone]
  · rfl

end Timeout

/-! ## Uncorrectable errors (R46, R70) -/

/-- An uncorrectable error that a block cannot contain is counted with its source, and leaves the block in FAULT. -/
theorem Dev.uncorrectable_fault (d : Dev) (pg : Nat) (src : Nat) (hsrc : src < 256) :
    let e := (d.setBs pg Bs.fault).uncorrectable pg src
    e.bs pg = Bs.fault ∧ e.hd Hdr.UERR_COUNT pg = min 65535 (d.hd Hdr.UERR_COUNT pg + 1) ∧ e.hd Hdr.UERR_SRC pg = src ∧
      bit (e.hd Hdr.EVT_COMMON pg) 5 = true := by
  refine ⟨?_, ?_, ?_, Dev.raise_common_bit _ _ _ _ (by decide)⟩
  · rw [Dev.uncorrectable, Dev.bs_raise, Dev.uerrCount, Dev.bs, Dev.hd_hw_apart _ _ _ _ (by decide), Dev.hd_hw_apart _ _ _ _ (by decide)]
    exact Dev.bs_setBs ..
  · rw [Dev.uncorrectable, Dev.hd_raise_apart _ _ _ _ _ _ _ (by decide), Dev.uerrCount, Dev.hd_hw_apart _ _ _ _ (by decide),
      Dev.hd_hw_same _ _ _ _ (by decide) (by decide), Dev.hd_setBs_apart _ _ _ _ (by decide) (by decide), sat_eq_min]
    exact Nat.mod_eq_of_lt (Nat.lt_of_le_of_lt (Nat.min_le_left ..) (by decide))
  · rw [Dev.uncorrectable, Dev.hd_raise_apart _ _ _ _ _ _ _ (by decide), Dev.uerrCount, Dev.hd_hw_same _ _ _ _ (by decide) (by decide)]
    exact Nat.mod_eq_of_lt hsrc

theorem Dev.managerLost_self (d : Dev) : d.managerLost d = d := if_neg fun h => by
  obtain ⟨h1, h2, -⟩ := h
  rw [h1] at h2
  exact absurd h2 (by decide)

/-- Settles O11: `requestTimeout_of_not_awaits`, and `uncorrectable_fault` for the errors. -/
theorem repliesAndErrors : Obligations.RepliesAndErrors := by
  refine ⟨fun s pg tag hok => ?reply, fun s pg tag hok => ?timeout, fun s pg src hok => ?error⟩
  case reply =>
    have hrun : exec (.replyArrival ⟨pg, tag⟩) s = s.ends (if s.dev.bs pg.toNat = Bs.quiesced ∨ s.dev.bs pg.toNat = Bs.fault ∨
        ! s.dev.awaits pg.toNat tag.toNat then s.dev.start.dropReply pg.toNat else s.dev.start) :=
      congrArg s.ends (if_neg (by rw [hok]; decide))
    refine ⟨fun h => ?_, fun hq hf ha => ?_⟩
    · rw [hrun, if_pos (h.imp_right (Or.imp_right fun ha => by rw [ha]; rfl)), Dev.dropReply, sat_eq_min]
      rfl
    · rw [hrun, if_neg]
      rintro (h | h | h)
      · exact hq h
      · exact hf h
      · rw [ha] at h
        exact absurd h (by decide)
  case timeout =>
    intro i limit d
    have hrun : exec (.requestTimeout pg tag) s = s.ends (d.requestTimeout pg.toNat tag.toNat) := congrArg s.ends (if_pos hok)
    refine ⟨fun h => ?_, fun hc hp k hk => ?_, fun hc hp b hb => ?_, fun hc hp x hx hdesc htag => ?_, fun hc hp x hx => ?_⟩
    · rw [hrun, Dev.requestTimeout_of_not_awaits (d := d) h]
    · rw [hrun]
      have hk' : (d.info pg.toNat).issued.find? (fun k => k.1 == tag.toNat) = some k := hk
      simp only [Dev.requestTimeout, hc, hp, hk']
      rfl
    · rw [hrun]
      have hb' : (d.passedBlocks (pgInst pg.toNat)).find? (fun b => b.tag == tag.toNat) = some b := hb
      simp only [Dev.requestTimeout, hc, hp, hb']
      rfl
    · rw [hrun]
      have hx' : (d.eng true (pgInst pg.toNat)).run = some x := hx
      have hdesc' : (d.eng true (pgInst pg.toNat)).desc.isSome = true := hdesc
      simp only [Dev.requestTimeout, hc, hp, Dev.descTimeout, hx', hdesc', htag, and_self, if_true]
      rfl
    · rw [hrun]
      have hx' : (d.coreBlocks (pgInst pg.toNat)).find? (fun x => x.2.tag == tag.toNat) = some x := hx
      simp only [Dev.requestTimeout, hc, hp, hx']
      rfl
  case error =>
    refine ⟨fun h => ?_, fun hr ht hh => ?_⟩
    · have hskip : s.dev.start.blockError pg.toNat src.toNat = s.dev.start := if_pos (.inr h)
      refine (congrArg s.endsStore ?_).trans (endsStore_ends s s.dev.start rfl)
      show (s.dev.start.blockError pg.toNat src.toNat).managerLost s.dev.start = _
      rw [hskip, Dev.managerLost_self]
    · intro d e core
      obtain ⟨h1, h2, h3, h4⟩ := d.uncorrectable_fault pg.toNat src.toNat src.isLt
      refine ⟨congrArg (fun e : Dev => s.endsStore (e.managerLost s.dev.start)) (if_neg ?_), h1, h2, h3, h4⟩
      rintro (h | h | h | h)
      · rw [hok] at h
        cases h
      · exact hr h
      · exact ht h
      · rw [show s.dev.start.rst.held = false from hh] at h
        cases h

end Sys2Proof.Machine

/-! Registers at different places, and slots that wait, do nothing or end their bundle (O19, O28). -/

namespace Sys2Proof.Machine

/-! ## Registers at different places -/

/-- Where copy `i` of a field stands on its page, as a bit address. -/
def Field.place (f : Field) (i : Nat) : Nat := (f.off + f.stride * i) * 32 + f.lo

theorem Field.key_eq_place (f : Field) (pg i : Nat) : f.key pg i = pg * 131072 + f.place i := by
  unfold Field.key Field.place
  omega

/-- The first copies of two fields stand at different places of a page, whatever page it is. -/
def placesApart (f g : Field) : Bool := decide (f.place 0 < 131072 ∧ g.place 0 < 131072 ∧ f.place 0 ≠ g.place 0)

theorem key_ne_of_placesApart {f g : Field} (h : placesApart f g = true) (pg pg' : Nat) : g.key pg' 0 ≠ f.key pg 0 := by
  obtain ⟨hf, hg, hne⟩ := of_decide_eq_true h
  rw [Field.key_eq_place, Field.key_eq_place]
  omega

/-- A field behind the header of its page (R46). -/
def inBody (f : Field) : Bool := decide (4096 ≤ f.place 0 ∧ f.place 0 < 131072)

/-- A field of the header, all of which stand before bit 4096 of a page. -/
def inHeader (f : Field) : Bool := decide (f.place 0 < 4096)

theorem key_ne_of_inBody {f g : Field} (hf : inHeader f = true) (hg : inBody g = true) (pg pg' : Nat) : g.key pg' 0 ≠ f.key pg 0 := by
  have hf := of_decide_eq_true hf
  obtain ⟨hg, hg'⟩ := of_decide_eq_true hg
  rw [Field.key_eq_place, Field.key_eq_place]
  omega

/-- The pages of two fields differ, whatever instances below 4,096 they are of. -/
def pagesApart (f g : Field) : Bool :=
  decide (f.place 0 < 131072 ∧ g.place 0 < 131072 ∧ f.page < 16 ∧ g.page < 16 ∧ (f.cls, f.page) ≠ (g.cls, g.page))

theorem key_ne_of_pagesApart {f g : Field} (h : pagesApart f g = true) {inst inst' : Nat} (hi : inst < 4096) (hi' : inst' < 4096) :
    g.key (g.pg inst') 0 ≠ f.key (f.pg inst) 0 := by
  obtain ⟨hf, hg, hp, hp', hne⟩ := of_decide_eq_true h
  rw [Field.key_eq_place, Field.key_eq_place]
  unfold Field.pg pageNum
  intro heq
  have hcls : f.cls = g.cls := by omega
  have hpage : f.page = g.page := by omega
  exact hne (by rw [hcls, hpage])

section
variable (d : Dev) {f g : Field}

theorem Dev.rd_wr_apart (inst v inst' : Nat) (h : placesApart f g = true) : (d.wr f inst v).rd g inst' = d.rd g inst' :=
  Dev.get_set_ne _ _ _ _ _ _ _ _ (key_ne_of_placesApart h _ _)

theorem Dev.rd_count_apart (inst n inst' : Nat) (h : placesApart f g = true) : (d.count f inst n).rd g inst' = d.rd g inst' :=
  d.rd_wr_apart _ _ _ h

theorem Dev.rd_hw_body (pg v inst : Nat) (h : inHeader f = true) (h' : inBody g = true) : (d.hw f pg v).rd g inst = d.rd g inst :=
  Dev.get_set_ne _ _ _ _ _ _ _ _ (key_ne_of_inBody h h' _ _)

theorem Dev.rd_setReqs_body (pg a b inst : Nat) (h : inBody g = true) : (d.setReqs pg a b).rd g inst = d.rd g inst :=
  (Dev.rd_hw_body _ pg _ inst (by decide) h).trans rfl

theorem Dev.rd_setBs_body (pg v inst : Nat) (h : inBody g = true) : (d.setBs pg v).rd g inst = d.rd g inst :=
  (Dev.rd_hw_body _ pg _ inst (by decide) h).trans (Dev.rd_hw_body _ pg _ inst (by decide) h)

/-- An event changes nothing behind the header of a page. -/
theorem Dev.rd_raise_body (pg code pos sev detail inst : Nat) (h : inBody g = true) : (d.raise pg code pos sev detail).rd g inst = d.rd g inst := by
  refine Dev.get_raise _ _ _ _ _ _ _ _ _ ?_
  simp only [evtKeys, List.mem_cons, List.not_mem_nil, or_false, not_or]
  exact ⟨key_ne_of_inBody (by decide) h _ _, key_ne_of_inBody (by decide) h _ _, key_ne_of_inBody (by decide) h _ _⟩

theorem Dev.rd_wr_same (inst v : Nat) (hw : f.width ≤ 32) (hr : f.rst 0 < 2 ^ 32) : (d.wr f inst v).rd f inst = v % 2 ^ f.width :=
  Dev.get_set_same _ _ _ _ _ hw hr

theorem Dev.rd_idle_body (pg inst : Nat) (h : inBody g = true) : (d.idle pg).rd g inst = d.rd g inst := by
  unfold Dev.idle
  split
  · exact d.rd_setBs_body _ _ _ h
  · rfl

end

@[simp] theorem Dev.rd_setUnit (d : Dev) (u : Nat) (x : UnitSt) (f : Field) (inst i : Nat) : (d.setUnit u x).rd f inst i = d.rd f inst i := rfl
@[simp] theorem Dev.rd_atCycle (d : Dev) (u c : Nat) (f : Field) (inst i : Nat) : (d.atCycle u c).rd f inst i = d.rd f inst i := rfl

/-! ## The end of a bundle (R200, R204, R205) -/

section EndBundle
variable (d : Dev) (u : Nat)

theorem Dev.stopUnit_bundle (cause : Nat) (h : d.seqState u ≠ 6) : ((d.stopUnit u cause).unit u).bundle = [] := by
  rw [Dev.stopUnit, if_neg h]
  exact congrArg UnitSt.bundle (SMap.at_put_same _ _ _ _)

theorem Dev.stopUnit_stopped (cause : Nat) (h : d.seqState u ≠ 6) :
    (d.stopUnit u cause).seqState u = 6 ∧ (d.stopUnit u cause).rd Reg.SEQ_STATE_STOP u = cause % 2 ^ Reg.SEQ_STATE_STOP.width := by
  have hset : (d.wr Reg.SEQ_STATE_SEQ u 6).rd Reg.SEQ_STATE_SEQ u = 6 := Dev.rd_wr_same _ _ _ (by decide) (by decide)
  have hstop : ((d.wr Reg.SEQ_STATE_SEQ u 6).wr Reg.SEQ_STATE_STOP u cause).rd Reg.SEQ_STATE_STOP u = cause % 2 ^ Reg.SEQ_STATE_STOP.width :=
    Dev.rd_wr_same (f := Reg.SEQ_STATE_STOP) _ _ _ (by decide) (by decide)
  rw [Dev.stopUnit, if_neg h]
  constructor
  · simp (disch := decide) only [Dev.seqState, Dev.rd_setReqs_body, Dev.rd_setUnit, Dev.stoppedView, Dev.rd_wr_apart, hset]
  · simp (disch := decide) only [Dev.rd_setReqs_body, Dev.rd_setUnit, Dev.stoppedView, Dev.rd_wr_apart, hstop]

theorem Dev.rd_stopUnit (cause : Nat) (f : Field) (inst : Nat) (hf : inBody f = true)
    (h : ∀ g ∈ [Reg.SEQ_STATE_SEQ, Reg.SEQ_STATE_STOP, Reg.MATRIX_STATE_STOPPED, Reg.VECTOR_STATE_STOPPED], placesApart g f = true) :
    (d.stopUnit u cause).rd f inst = d.rd f inst := by
  simp only [List.forall_mem_cons, List.not_mem_nil, false_imp_iff, implies_true, and_true] at h
  obtain ⟨h1, h2, h3, h4⟩ := h
  unfold Dev.stopUnit
  split
  · rfl
  · simp only [Dev.rd_setReqs_body _ _ _ _ _ hf, Dev.rd_setUnit, Dev.stoppedView, Dev.rd_wr_apart _ _ _ _ h1, Dev.rd_wr_apart _ _ _ _ h2,
      Dev.rd_wr_apart _ _ _ _ h3, Dev.rd_wr_apart _ _ _ _ h4]

/-- What an illegal bundle of a sequencer that is not stopped leaves. -/
theorem Dev.illegalBundle_stopped (h : d.seqState u ≠ 6) : ((d.illegalBundle u).unit u).bundle = [] ∧ (d.illegalBundle u).seqState u = 6 ∧
    (d.illegalBundle u).rd Reg.SEQ_STATE_STOP u = 4 := by
  have hs : (d.raise (pgSeq u) 0x0408 15 Sev.error (d.rd Reg.SEQ_STATE_PC u)).seqState u ≠ 6 := by
    rwa [Dev.seqState, Dev.rd_raise_body _ _ _ _ _ _ _ (by decide)]
  exact ⟨Dev.stopUnit_bundle _ u 4 hs, Dev.stopUnit_stopped _ u 4 hs⟩

/-- The device once a bundle is counted and its slots are gone, before the program counter moves. -/
def Dev.bundleOver (d : Dev) (u : Nat) (loops : List LoopSt) : Dev :=
  ((d.setUnit u { d.unit u with bundle := [], ending := false, barDone := false, loops := loops }).count Reg.SEQ_ISSUED u).wr Reg.SEQ_STATE_LOOPS u
    loops.length

theorem Dev.bundleOver_unit (loops : List LoopSt) :
    (d.bundleOver u loops).unit u = { d.unit u with bundle := [], ending := false, barDone := false, loops := loops } :=
  SMap.at_put_same _ _ _ _

theorem Dev.bundleOver_issued (loops : List LoopSt) :
    (d.bundleOver u loops).rd Reg.SEQ_ISSUED u = (d.rd Reg.SEQ_ISSUED u + 1) % 2 ^ Reg.SEQ_ISSUED.width := by
  rw [Dev.bundleOver, Dev.rd_wr_apart _ _ _ _ (by decide), Dev.count]
  exact Dev.rd_wr_same (f := Reg.SEQ_ISSUED) _ _ _ (by decide) (by decide)

theorem Dev.bundleOver_seqState (loops : List LoopSt) : (d.bundleOver u loops).seqState u = d.seqState u := by
  rw [Dev.seqState, Dev.bundleOver, Dev.rd_wr_apart _ _ _ _ (by decide), Dev.rd_count_apart _ _ _ _ (by decide)]
  rfl

theorem Dev.endBundle_eq (h : (d.unit u).ending = false) : d.endBundle u =
    if (loopBack (d.rd Reg.SEQ_STATE_PC u) (d.unit u).loops).1 = d.rd Reg.SEQ_STATE_PC u + 1 ∧ d.rd Reg.SEQ_STATE_PC u = d.rd Reg.SEQ_IMG_HI u
    then (d.bundleOver u (loopBack (d.rd Reg.SEQ_STATE_PC u) (d.unit u).loops).2).illegalBundle u
    else (d.bundleOver u (loopBack (d.rd Reg.SEQ_STATE_PC u) (d.unit u).loops).2).wr Reg.SEQ_STATE_PC u
      (loopBack (d.rd Reg.SEQ_STATE_PC u) (d.unit u).loops).1 := by
  simp only [Dev.endBundle, Dev.bundleOver, h, Bool.false_eq_true, if_false]

/-- R200: issue goes on at `next` with the loops `rest`. -/
theorem Dev.endBundle_goes {next : Nat} {rest : List LoopSt} (h : (d.unit u).ending = false)
    (hnext : loopBack (d.rd Reg.SEQ_STATE_PC u) (d.unit u).loops = (next, rest))
    (hpc : next = d.rd Reg.SEQ_STATE_PC u + 1 → d.rd Reg.SEQ_STATE_PC u ≠ d.rd Reg.SEQ_IMG_HI u) :
    (d.endBundle u).rd Reg.SEQ_STATE_PC u = next % 2 ^ Reg.SEQ_STATE_PC.width ∧ ((d.endBundle u).unit u).loops = rest ∧
      (d.endBundle u).seqState u = d.seqState u := by
  have hover : d.endBundle u = (d.bundleOver u rest).wr Reg.SEQ_STATE_PC u next := by
    rw [d.endBundle_eq u h, hnext]
    exact if_neg fun hend => hpc hend.1 hend.2
  rw [hover]
  refine ⟨Dev.rd_wr_same (f := Reg.SEQ_STATE_PC) _ _ _ (by decide) (by decide), congrArg UnitSt.loops (d.bundleOver_unit u rest), ?_⟩
  rw [Dev.seqState, Dev.rd_wr_apart _ _ _ _ (by decide)]
  exact d.bundleOver_seqState u rest

/-- R205: past the end of the image the bundle is illegal. -/
theorem Dev.endBundle_past {rest : List LoopSt} (h : (d.unit u).ending = false)
    (hnext : loopBack (d.rd Reg.SEQ_STATE_PC u) (d.unit u).loops = (d.rd Reg.SEQ_STATE_PC u + 1, rest))
    (hpc : d.rd Reg.SEQ_STATE_PC u = d.rd Reg.SEQ_IMG_HI u) (hs : d.seqState u ≠ 6) :
    (d.endBundle u).seqState u = 6 ∧ (d.endBundle u).rd Reg.SEQ_STATE_STOP u = 4 := by
  have hover : d.endBundle u = (d.bundleOver u rest).illegalBundle u := by
    rw [d.endBundle_eq u h, hnext]
    exact if_pos ⟨rfl, hpc⟩
  rw [hover]
  exact (Dev.illegalBundle_stopped _ u (by rwa [d.bundleOver_seqState u])).2

theorem Dev.endBundle_counted (h : (d.unit u).ending = false) (hs : d.seqState u ≠ 6) : ((d.endBundle u).unit u).bundle = [] ∧
    (d.endBundle u).rd Reg.SEQ_ISSUED u = (d.rd Reg.SEQ_ISSUED u + 1) % 2 ^ Reg.SEQ_ISSUED.width := by
  rw [d.endBundle_eq u h]
  split
  · refine ⟨(Dev.illegalBundle_stopped _ u (by rwa [d.bundleOver_seqState u])).1, ?_⟩
    rw [Dev.illegalBundle, Dev.rd_stopUnit _ _ _ _ _ (by decide) (by decide), Dev.rd_raise_body _ _ _ _ _ _ _ (by decide)]
    exact d.bundleOver_issued u _
  · refine ⟨congrArg UnitSt.bundle (d.bundleOver_unit u _), ?_⟩
    rw [Dev.rd_wr_apart _ _ _ _ (by decide)]
    exact d.bundleOver_issued u _

end EndBundle

/-! ## Bundles of one slot -/

/-- A unit that does not issue is not touched by a slot. -/
theorem slot_unissued (s : State) (u : BitVec 12) (last : Bool) (c : SlotCmd) (hst : c.states = [2]) (hb : (s.dev.unit u.toNat).bundle = [])
    (h : s.dev.issuing u.toNat [2] = false) : runSlot s u last c = s.ends s.dev.start := by
  have hb' : joinSlot (s.dev.start.unit u.toNat).bundle c = [c] := by
    have hb' : (s.dev.start.unit u.toNat).bundle = [] := hb
    rw [hb']; rfl
  have h' : s.dev.start.issuing u.toNat [2] = false := h
  have hslot : Dev.slot s.mem u.toNat last c s.dev.start = s.dev.start := by
    cases last <;> simp [Dev.slot, hb', hst, h']
  rw [runSlot, runMem, hslot]
  rfl

/-- What a bundle of one slot that does nothing passes to the end of its bundle. -/
theorem State.issued_nop (s : State) (u : BitVec 12) (o : SlotOp) : ∃ d, s.issued u o [] id id = Dev.endBundle d u.toNat ∧
    (d.unit u.toNat).loops = (s.dev.unit u.toNat).loops ∧ (d.unit u.toNat).ending = (s.dev.unit u.toNat).ending ∧
    ∀ f, placesApart Reg.SEQ_STALL_DEP f = true → placesApart Reg.SEQ_STALL_VBUSY f = true → d.rd f u.toNat = s.dev.rd f u.toNat := by
  have hget (d : Dev) (x : UnitSt) : (d.setUnit u.toNat x).unit u.toNat = x := SMap.at_put_same _ _ _ _
  unfold State.issued
  simp only [Dev.issueBundle_one, List.foldl_nil, id]
  refine ⟨_, rfl, ?_, ?_, fun f hdep hbusy => ?_⟩
  · rw [Dev.atCycle, hget, hget]
    rfl
  · rw [Dev.atCycle, hget, hget]
    rfl
  · rw [Dev.rd_atCycle, Dev.rd_setUnit, Dev.rd_count_apart _ _ _ _ hbusy, Dev.rd_count_apart _ _ _ _ hdep]
    rfl

/-! ## Spoiled steps -/

@[simp] theorem Dev.voteFor_writes (d : Dev) (v : Nat) (dirty : Bool) : (d.voteFor v dirty).writes = d.writes := by
  unfold Dev.voteFor
  split <;> rfl

@[simp] theorem Dev.spoil_writes (d : Dev) : d.spoil.writes = d.writes := Dev.voteFor_writes _ _ _

@[simp] theorem Dev.voteFor_units (d : Dev) (v : Nat) (dirty : Bool) : (d.voteFor v dirty).units = d.units := by
  unfold Dev.voteFor
  split <;> rfl

@[simp] theorem Dev.spoil_units (d : Dev) : d.spoil.units = d.units := Dev.voteFor_units _ _ _

theorem Dev.issuing_seqState {d : Dev} {u : Nat} (h : d.issuing u [2] = true) : d.seqState u = 2 := by
  simp only [Dev.issuing, Bool.and_eq_true, List.contains_cons, List.contains_nil, Bool.or_false, beq_iff_eq] at h
  exact h.1.1.1.2

/-! ## Pops, and vector operations that do not issue -/

/-- R194: what breaks an encoding rule of a vector operation. -/
theorem vOk_false {opc : Nat} {f : VSlot} (hrange : 1 ≤ opc ∧ opc ≤ 0x68)
    (h : 6 ≤ f.view.toNat ∨ (f.cqa = false ∧ f.rel = true) ∨ (f.imf = true ∧ f.imk.toNat ≠ 3 ∧ takesB opc = false) ∨
      (writesMask opc = true ∧ f.vd.toNat = 0) ∨ (0x50 ≤ opc ∧ opc ≤ 0x53 ∧ f.view.toNat ≠ 0)) : vOk opc f = false := by
  rcases h with hview | ⟨hcqa, hrel⟩ | ⟨himf, himk, hb⟩ | ⟨hmask, hvd⟩ | ⟨hlo, hhi, hview⟩
  · have : decide (f.view.toNat ≤ 5) = false := decide_eq_false (by omega)
    simp [vOk, this]
  · simp [vOk, hcqa, hrel]
  · have hk : (f.imk.toNat == 3) = false := beq_false_of_ne himk
    simp [vOk, himf, hk, hb]
  · simp [vOk, hmask, hvd]
  · have hv : (f.view.toNat == 0) = false := beq_false_of_ne hview
    simp [vOk, hlo, hhi, hv]

section
variable (s : State) (u : BitVec 12) (f : VSlot)

theorem vpop_run (hok : vOk 0x68 f = true) : (vOp u.toNat 0x68 f).run s.dev.start =
    if 2 ≤ (s.dev.unit u.toNat).pops then .hold Reg.SEQ_STALL_CQ id
    else .issue [] (fun d => ((d.setUnit u.toNat { d.unit u.toNat with pops := (d.unit u.toNat).pops + 1 }).vectorView u.toNat).count
      Reg.VECTOR_BUSY u.toNat) id :=
  if_neg (by simp [hok])

/-- R172: a vector operation that would read the cloth queue and has no tile. -/
theorem vop_no_tile {opc : Nat} (h0 : opc ≠ 0) (h1 : opc ≠ 0x68) (hop : (vOut opc).isSome = true) (hok : vOk opc f = true) (hcqa : f.cqa = true)
    (hnone : s.dev.currentEntry u.toNat = none) : (vOp u.toNat opc f).run s.dev.start =
    if (s.dev.unit u.toNat).pops = 0 ∧ (s.dev.unit u.toNat).inState 4 = [] then .stop (Dev.cqNoSource · u.toNat f.rel)
    else .hold Reg.SEQ_STALL_CQ (Dev.count · Reg.VECTOR_CQ_READ_STALL u.toNat) := by
  obtain ⟨op, hop⟩ := Option.isSome_iff_exists.mp hop
  have hcurrent : s.dev.start.currentEntry u.toNat = none := hnone
  show (if opc = 0 then _ else if opc = 0x68 then _ else _) = _
  rw [if_neg h0, if_neg h1, hop]
  show Dev.vop _ _ _ _ _ = _
  rw [Dev.vop, hok, hcqa, hcurrent]
  rfl

/-- R172: the cloth queue has no source: the events carry the program counter of the bundle. -/
theorem stopsBy_no_source (o : SlotOp) : s.stopsBy u o (Dev.cqNoSource · u.toNat f.rel) = s.stopsBy u o fun d =>
    let e := d.raise (pgVector u.toNat) 0x0301 11 Sev.error (s.dev.rd Reg.SEQ_STATE_PC u.toNat)
    ((if f.rel then e.raise (pgVector u.toNat) 0x0302 12 Sev.warn (s.dev.rd Reg.SEQ_STATE_PC u.toNat) else e).stopUnit u.toNat 2).spoil := by
  unfold State.stopsBy
  simp only [Dev.cqNoSource]
  rw [Dev.rd_count_apart (g := Reg.SEQ_STATE_PC) _ _ _ _ (by decide)]
  rfl

end

/-- Settles O28: `vpop_run` and `vop_no_tile` for the pops and reads of the cloth queue, `vOk_false` for the encoding rules. -/
theorem popsAndForms : Obligations.PopsAndForms := by
  refine ⟨fun s u f => ⟨fun hruns hok hpops => ?_, fun hruns hok hpops => ?_, fun h => congrArg s.ends (if_pos h), fun h0 h3 h2 => ?_⟩,
    fun s u f => ⟨fun hi hb last => slot_unissued s u last (.v 0x30 f) rfl hb hi, fun hruns hok => ?_, fun hruns hok hcqa hnone => ⟨fun h => ?_, fun h0 h4 => ?_⟩,
      fun opc hhi hlo h => vOk_false ⟨hlo, hhi⟩ h⟩⟩
  · exact slot_issues s u (.v 0x68 f) [] _ id rfl hruns ((vpop_run s u f hok).trans (if_neg (by omega))) (fun e => by simp) fun _ => rfl
  · exact slot_holds s u (.v 0x68 f) _ id rfl hruns ((vpop_run s u f hok).trans (if_pos hpops)) fun _ => rfl
  · exact congrArg s.ends (if_neg (by simp only [not_or, Decidable.not_not]; exact ⟨h0, h3, h2⟩))
  · exact slot_illegal s u (.v 0x30 f) hruns.alone hruns.issuing (.inl (by show Dev.vop _ _ _ _ _ = _; rw [Dev.vop, hok]; rfl))
  · exact slot_holds s u (.v 0x30 f) _ _ rfl hruns
      ((vop_no_tile s u f (by decide) (by decide) rfl hok hcqa hnone).trans (if_neg (by tauto))) fun e => by simp
  · refine (slot_stops s u (.v 0x30 f) (Dev.cqNoSource · u.toNat f.rel) rfl hruns
      ((vop_no_tile s u f (by decide) (by decide) rfl hok hcqa hnone).trans (if_pos ⟨h0, h4⟩)) fun e => ?_).trans
      (congrArg s.ends (stopsBy_no_source s u f _))
    unfold Dev.cqNoSource
    split <;> simp

end Sys2Proof.Machine

/-! Loads from and stores to the local store (O30), and bundles of two slots (O19). -/

namespace Sys2Proof.Machine

/-! ## What leaves the store operations of a command -/

theorem foldl_keeps {α β : Type} (p : Dev → β) (f : Dev → α → Dev) (hf : ∀ d x, p (f d x) = p d) (xs : List α) (d : Dev) :
    p (xs.foldl f d) = p d := by
  induction xs generalizing d with
  | nil => rfl
  | cons x xs ih => exact (ih _).trans (hf d x)

@[simp] theorem Dev.recordFault_writes (d : Dev) (x : Nat × Nat) : (d.recordFault x).writes = d.writes := by
  unfold Dev.recordFault
  split
  · rfl
  · exact (foldl_keeps Dev.writes (fun d pg => d.setBs pg Bs.retired) (fun _ _ => rfl) _ _).trans rfl

@[simp] theorem Dev.retireEvent_writes (d : Dev) (f : List (Nat × Nat)) (x : Nat × Nat) : (d.retireEvent f x).writes = d.writes := by
  unfold Dev.retireEvent
  simp only
  split
  · split <;> simp
  · simp

@[simp] theorem Dev.emptyView_writes (d : Dev) : d.emptyView.writes = d.writes := by
  refine foldl_keeps Dev.writes _ (fun _ _ => ?_) _ _
  simp only [apply_ite Dev.writes, Dev.wr_writes, ite_self]

@[simp] theorem Dev.retire_writes (d : Dev) (x : Nat × Nat) : (d.retire x).writes = d.writes := by
  unfold Dev.retire
  split
  · rfl
  · split
    · simp only
      split
      · rfl
      · exact Dev.voteFor_writes _ _ _
    · rw [Dev.emptyView_writes]
      refine foldl_keeps Dev.writes _ (fun _ _ => ?_) _ _
      simp only
      split <;> simp

@[simp] theorem Dev.correctedError_writes (d : Dev) (pg src : Nat) : (d.correctedError pg src).writes = d.writes := by
  simp [Dev.correctedError]

@[simp] theorem Dev.uncorrectable_writes (d : Dev) (pg src : Nat) : (d.uncorrectable pg src).writes = d.writes := by
  simp [Dev.uncorrectable, Dev.uerrCount]

@[simp] theorem Dev.lsUerr_writes (d : Dev) (u line : Nat) : (d.lsUerr u line).writes = d.writes := by
  simp [Dev.lsUerr, Dev.retireDue]

@[simp] theorem Dev.lsEcc_writes (d : Dev) (e : Ecc) (u line : Nat) : (d.lsEcc e u line).writes = d.writes := by
  cases e <;> simp [Dev.lsEcc]

/-! ## The bytes of a store -/

theorem Mem.apply_append (m : Mem) (xs ys : List MemOp) : Mem.apply m (xs ++ ys) = Mem.apply (Mem.apply m xs) ys := by
  induction xs generalizing m with
  | nil => rfl
  | cons x xs ih => exact ih _

/-- The store operations of a store to the local store. -/
def lsOps (u a : Nat) (keep : Nat → Bool) (bs : List (Byte × Nat)) : List MemOp :=
  (bs.filter fun x => keep x.2).map fun x => .write (lsByte u a x.2) [x.1]

theorem Dev.lsWrite_foldl (d : Dev) (u a : Nat) (keep : Nat → Bool) (bs : List (Byte × Nat)) :
    bs.foldl (fun d (b, i) => if keep i then Dev.poke d (lsByte u a i) [b] else d) d = { d with writes := d.writes ++ lsOps u a keep bs } := by
  induction bs generalizing d with
  | nil => simp [lsOps]
  | cons x bs ih =>
    rw [List.foldl_cons, ih]
    by_cases h : keep x.2 = true <;> simp [lsOps, h, Dev.poke, List.filter_cons]

theorem Dev.lsWrite_eq (d : Dev) (u a : Nat) (keep : Nat → Bool) (bs : List Byte) :
    d.lsWrite u a keep bs = { d with writes := d.writes ++ lsOps u a keep bs.zipIdx } := d.lsWrite_foldl u a keep bs.zipIdx

@[simp] theorem Dev.lsWrite_units (d : Dev) (u a : Nat) (keep : Nat → Bool) (bs : List Byte) : (d.lsWrite u a keep bs).units = d.units := by
  rw [Dev.lsWrite_eq]

theorem Mem.read_write_one (m : Mem) (a : Nat) (b : Byte) (c : Nat) :
    Mem.read (Mem.apply1 m (.write a [b])) c = if c = a then b else Mem.read m c := by
  split
  next h => rw [h]; exact Mem.read_write_same m a b
  next h => exact Mem.read_write_ne m b h

/-- An address that no kept byte goes to reads as before. -/
theorem read_lsOps_out (u a : Nat) (keep : Nat → Bool) (bs : List (Byte × Nat)) (m : Mem) (c : Nat)
    (h : ∀ x ∈ bs, keep x.2 = true → c ≠ lsByte u a x.2) : Mem.read (Mem.apply m (lsOps u a keep bs)) c = Mem.read m c := by
  induction bs generalizing m with
  | nil => rfl
  | cons x bs ih =>
    have htail := fun m => ih m fun y hy => h y (List.mem_cons_of_mem _ hy)
    by_cases hk : keep x.2 = true
    · have hops : lsOps u a keep (x :: bs) = .write (lsByte u a x.2) [x.1] :: lsOps u a keep bs := by simp [lsOps, hk, List.filter_cons]
      rw [hops, Mem.apply, htail, Mem.read_write_one, if_neg (h x (List.mem_cons_self ..) hk)]
    · have hops : lsOps u a keep (x :: bs) = lsOps u a keep bs := by simp [lsOps, hk, List.filter_cons]
      rw [hops, htail]

/-- A kept byte is read back where no other byte goes. -/
theorem read_lsOps_in (u a : Nat) (keep : Nat → Bool) (bs : List (Byte × Nat)) (m : Mem) {b : Byte} {i : Nat} (hmem : (b, i) ∈ bs)
    (hk : keep i = true) (h : ∀ x ∈ bs, lsByte u a x.2 = lsByte u a i → x = (b, i)) :
    Mem.read (Mem.apply m (lsOps u a keep bs)) (lsByte u a i) = b := by
  induction bs generalizing m with
  | nil => simp at hmem
  | cons x bs ih =>
    have htail : ∀ y ∈ bs, lsByte u a y.2 = lsByte u a i → y = (b, i) := fun y hy => h y (List.mem_cons_of_mem _ hy)
    by_cases hin : (b, i) ∈ bs
    · by_cases hx : keep x.2 = true
      · have hops : lsOps u a keep (x :: bs) = .write (lsByte u a x.2) [x.1] :: lsOps u a keep bs := by simp [lsOps, hx, List.filter_cons]
        rw [hops, Mem.apply, ih _ hin htail]
      · have hops : lsOps u a keep (x :: bs) = lsOps u a keep bs := by simp [lsOps, hx, List.filter_cons]
        rw [hops, ih _ hin htail]
    · have hx : x = (b, i) := ((List.mem_cons.mp hmem).resolve_right hin).symm
      have hops : lsOps u a keep (x :: bs) = .write (lsByte u a i) [b] :: lsOps u a keep bs := by simp [lsOps, hx, hk, List.filter_cons]
      rw [hops, Mem.apply, read_lsOps_out u a keep bs _ _ fun y hy _ hc => hin (htail y hy hc.symm ▸ hy), Mem.read_write_one, if_pos rfl]

/-- The bytes of at most 512 KiB from one address have addresses of their own. -/
theorem lsByte_inj {u a i j : Nat} (hi : i < 2 ^ 19) (hj : j < 2 ^ 19) (h : lsByte u a i = lsByte u a j) : i = j := by
  have hlen : lsSize = 524288 := rfl
  rw [lsByte, lsByte, hlen] at h
  omega

section Stored
variable (u a : Nat) (keep : Nat → Bool) (bs : List Byte) (m : Mem) (hlen : bs.length ≤ 2 ^ 19)

theorem read_lsWrite_kept (i : Nat) (hi : i < bs.length) (hk : keep i = true) (hlen : bs.length ≤ 2 ^ 19) :
    Mem.read (Mem.apply m (lsOps u a keep bs.zipIdx)) (lsByte u a i) = bs[i] := by
  refine read_lsOps_in u a keep bs.zipIdx m (List.mem_zipIdx_iff_getElem?.mpr (List.getElem?_eq_getElem hi)) hk fun x hx heq => ?_
  obtain ⟨b, j⟩ := x
  have hj := List.mem_zipIdx_iff_getElem?.mp hx
  obtain ⟨hjlen, hb⟩ := List.getElem?_eq_some_iff.mp hj
  have hij : j = i := lsByte_inj (by omega) (by omega) heq
  subst hij
  exact congrArg (·, j) hb.symm

theorem read_lsWrite_unkept (i : Nat) (hi : i < bs.length) (hk : keep i = false) (hlen : bs.length ≤ 2 ^ 19) :
    Mem.read (Mem.apply m (lsOps u a keep bs.zipIdx)) (lsByte u a i) = Mem.read m (lsByte u a i) := by
  refine read_lsOps_out u a keep bs.zipIdx m _ fun x hx hkx heq => ?_
  obtain ⟨b, j⟩ := x
  obtain ⟨hjlen, hb⟩ := List.getElem?_eq_some_iff.mp (List.mem_zipIdx_iff_getElem?.mp hx)
  have hij : i = j := lsByte_inj (by omega) (by omega) heq
  subst hij
  rw [hk] at hkx
  exact Bool.false_ne_true hkx

theorem read_lsWrite_out (c : Nat) (hc : ∀ i, i < bs.length → c ≠ lsByte u a i) :
    Mem.read (Mem.apply m (lsOps u a keep bs.zipIdx)) c = Mem.read m c := by
  refine read_lsOps_out u a keep bs.zipIdx m c fun x hx _ => ?_
  obtain ⟨b, j⟩ := x
  exact hc j (List.getElem?_eq_some_iff.mp (List.mem_zipIdx_iff_getElem?.mp hx)).1

end Stored

/-! ## Bytes of registers -/

theorem natLe_getElem (n v i : Nat) (h : i < (natLe n v).length) : (natLe n v)[i] = BitVec.ofNat 8 (v / 2 ^ (8 * i)) := by
  induction n generalizing v i with
  | zero => simp [natLe] at h
  | succ n ih =>
    cases i with
    | zero => simp [natLe]
    | succ i =>
      have hlen : i < (natLe n (v / 256)).length := by simpa [natLe] using h
      have hpow : 256 * 2 ^ (8 * i) = 2 ^ (8 * (i + 1)) := by rw [Nat.mul_add, Nat.pow_add, Nat.mul_comm]
      rw [← hpow, ← Nat.div_div_eq_div_mul]
      exact ih (v / 256) i hlen

theorem ofNat_vElem (v : VReg) (i : Nat) : BitVec.ofNat 8 (vElem 8 v i) = BitVec.ofNat 8 (v.toNat / 2 ^ (8 * i)) := by
  refine BitVec.eq_of_toNat_eq ?_
  simp [vElem]

/-- A number of `n` bytes is the one with those bytes. -/
theorem eq_leNat (byte : Nat → Byte) (n v : Nat) (hv : v < 256 ^ n) (h : ∀ i, i < n → v / 2 ^ (8 * i) % 256 = (byte i).toNat) :
    leNat ((List.range n).map byte) = v := by
  induction n generalizing byte v with
  | zero => simp at hv; simp [leNat, hv]
  | succ n ih =>
    have hhead : v % 256 = (byte 0).toNat := by simpa using h 0 (by omega)
    have htail := ih (fun i => byte (i + 1)) (v / 256) (by rw [Nat.pow_succ] at hv; omega) fun i hi => by
      have hpow : 256 * 2 ^ (8 * i) = 2 ^ (8 * (i + 1)) := by rw [Nat.mul_add, Nat.pow_add, Nat.mul_comm]
      rw [Nat.div_div_eq_div_mul, hpow]
      exact h (i + 1) (by omega)
    rw [List.range_succ_eq_map, List.map_cons, List.map_map, leNat]
    have hcomp : (byte ∘ Nat.succ) = fun i => byte (i + 1) := rfl
    rw [hcomp, htail, ← hhead]
    omega

theorem Dev.atCycle_writes' (d : Dev) (u c : Nat) : (d.atCycle u c).writes = d.writes := rfl

/-- The store operations of a bundle of one operation. -/
theorem State.issued_ops (s : State) (u : BitVec 12) (o : SlotOp) (ws : List RegWr) (act : Dev → Dev) (ops : List MemOp)
    (h : ∀ e : Dev, (act e).writes = e.writes ++ ops) : (s.issued u o ws act id).writes = ops := by
  unfold State.issued
  simp only [Dev.issueBundle_one, id]
  simp [h, Dev.start]

/-! ## Stores and loads -/

section
variable {s : State} {u : BitVec 12} {f : DSlot} {e : Ecc} {i : Nat}

theorem dOp_stored {opc : Nat} {r : SlotRes} (h : (dOp s.mem u.toNat opc f e i).run s.dev.start = s.dev.start.stored u.toNat r)
    (hw : s.dev.storeWaits u.toNat = false) : (dOp s.mem u.toNat opc f e i).run s.dev.start = r := by
  have hw' : s.dev.start.storeWaits u.toNat = false := hw
  rw [h, Dev.stored, hw']
  rfl

theorem dOp_waits {opc : Nat} {r : SlotRes} (h : (dOp s.mem u.toNat opc f e i).run s.dev.start = s.dev.start.stored u.toNat r)
    (hw : s.dev.storeWaits u.toNat = true) (hr : r.isIllegal = false) : (dOp s.mem u.toNat opc f e i).run s.dev.start = .stop id := by
  have hw' : s.dev.start.storeWaits u.toNat = true := hw
  rw [h, Dev.stored, hw', hr]
  rfl

/-- A D slot that only waits for its LSTORE. -/
theorem dslot_waits {opc : Nat} {r : SlotRes} (h : (dOp s.mem u.toNat opc f e i).run s.dev.start = s.dev.start.stored u.toNat r)
    (hw : s.dev.storeWaits u.toNat = true) (hr : r.isIllegal = false) (hruns : SlotRuns s u (dOp s.mem u.toNat opc f e i)) :
    runSlot s u true (.d opc f e i) = s.ends (s.stopsBy u (dOp s.mem u.toNat opc f e i) id) :=
  slot_stops s u (.d opc f e i) id rfl hruns (dOp_waits h hw hr) fun _ => rfl

end

theorem Dev.dst_of_le {u : Nat} {f : DSlot} {e : Ecc} {w : Nat} (d : Dev) (h : f.view.toNat ≤ 5) : Dev.dst u f e w d =
    .issue (d.dInc u f) (fun x => (if partWord (fun b => d.active u f.mreg.toNat f.inv (b / (viewBits f.view.toNat / 8))) w
        then x.lsEcc e u ((d.dAddr u f / 64 + w / 16) % 8192) else x).lsWrite u (d.dAddr u f)
      (fun b => d.active u f.mreg.toNat f.inv (b / (viewBits f.view.toNat / 8)) &&
        ! (partWord (fun b => d.active u f.mreg.toNat f.inv (b / (viewBits f.view.toNat / 8))) w && e == .uncorrectable && b / 4 == w))
      (natLe 256 (d.vreg u f.reg.toNat).toNat)) id := if_neg (by omega)

theorem dld_isLegal (m : Mem) (u : Nat) (f : DSlot) (e : Ecc) (line : Nat) (d : Dev) : (Dev.dld m u f e line d).isIllegal = false := by
  unfold Dev.dld
  simp only
  split <;> rfl

theorem dldm_isLegal (m : Mem) (u : Nat) (f : DSlot) (e : Ecc) (d : Dev) : (Dev.dldm m u f e d).isIllegal = false := by
  unfold Dev.dldm
  simp only
  split <;> rfl

theorem toNat_lt_bytes {n : Nat} (v : BitVec (8 * n)) : v.toNat < 256 ^ n := by
  have h := v.isLt
  rwa [Nat.pow_mul] at h

/-- A register from its bytes. -/
theorem ofNat_leNat (n : Nat) (byte : Nat → Byte) (v : BitVec (8 * n)) (h : ∀ i, i < n → v.toNat / 2 ^ (8 * i) % 256 = (byte i).toNat) :
    BitVec.ofNat (8 * n) (leNat ((List.range n).map byte)) = v := by
  rw [eq_leNat byte n v.toNat (toNat_lt_bytes v) h]
  simp

theorem and_not_and_eq_true (b p q r : Bool) : (b && !(p && q && r)) = true ↔ b = true ∧ ¬ (p = true ∧ q = true ∧ r = true) := by
  cases b <;> cases p <;> cases q <;> simp

/-- A bundle of one operation that stores bytes of the local store. -/
theorem slot_stores {s : State} {u : BitVec 12} {c : SlotCmd} {ws : List RegWr} {pre : Dev → Dev} {a : Nat} {keep : Nat → Bool} {bs : List Byte}
    (hst : c.states = [2]) (hruns : SlotRuns s u (c.op s.mem u.toNat)) (hpre : ∀ x : Dev, (pre x).writes = x.writes) (hlen : bs.length ≤ 2 ^ 19)
    (hrun : (c.op s.mem u.toNat).run s.dev.start = .issue ws (fun d => (pre d).lsWrite u.toNat a keep bs) id) :
    ∃ t, runSlot s u true c = .next t ∧ t.pending = s.pending ∧
      t.dev = { s.issued u (c.op s.mem u.toNat) ws (fun d => (pre d).lsWrite u.toNat a keep bs) id with writes := [] } ∧
      (∀ i (h : i < bs.length), keep i = true → Mem.read t.mem (lsByte u.toNat a i) = bs[i]) ∧
      (∀ i, i < bs.length → keep i = false → Mem.read t.mem (lsByte u.toNat a i) = Mem.read s.mem (lsByte u.toNat a i)) ∧
      (∀ x, (∀ i, i < bs.length → x ≠ lsByte u.toNat a i) → Mem.read t.mem x = Mem.read s.mem x) := by
  have hops := s.issued_ops u (c.op s.mem u.toNat) ws (fun d => (pre d).lsWrite u.toNat a keep bs) (lsOps u.toNat a keep bs.zipIdx) fun x => by
    rw [Dev.lsWrite_eq, hpre]
  have hmem (x : Nat) := congrArg (fun ops => Mem.read (Mem.apply s.mem ops) x) hops
  exact ⟨_, slot_issues_store s u c _ _ _ hst hruns hrun, rfl, rfl,
    fun i hi hk => (hmem _).trans (read_lsWrite_kept u.toNat a keep bs s.mem i hi hk hlen),
    fun i hi hk => (hmem _).trans (read_lsWrite_unkept u.toNat a keep bs s.mem i hi hk hlen),
    fun x hx => (hmem _).trans (read_lsWrite_out u.toNat a keep bs s.mem x hx)⟩

/-- Settles O30: `read_lsWrite_kept`, `read_lsWrite_unkept` and `read_lsWrite_out` for the bytes of the store, `eq_leNat` for the loaded values. -/
theorem localMoves : Obligations.LocalMoves := by
  refine ⟨?_, ?_⟩
  · intro s u f e w sb a at' inc k act part kept v m o2 o4
    refine ⟨fun hruns hw hview => ?_, fun hruns hview => ?_, fun hruns hw => ?_, fun hw => ⟨fun hruns hview => ?_, fun hruns => ?_⟩⟩
    · obtain ⟨t, hexec, hpending, hdev, hkept, hunkept, hout⟩ := slot_stores (c := .d 2 f e w.toNat) (bs := natLe 256 v.toNat) rfl hruns
        (pre := fun d => if part then d.lsEcc e u.toNat ((a / 64 + w.toNat / 16) % 8192) else d) (fun x => by split <;> simp)
        (by rw [natLe_length]; decide) ((dOp_stored (opc := 2) (r := Dev.dst u.toNat f e w.toNat s.dev.start) rfl hw).trans (s.dev.start.dst_of_le hview))
      rw [natLe_length] at hunkept hout
      refine ⟨t, hexec, hpending, hdev, fun i hi hact hleft => ?_, fun i hi hun => hunkept i hi ?_, hout⟩
      · refine (hkept i (by rwa [natLe_length]) ?_).trans ?_
        · refine (and_not_and_eq_true _ _ _ _).mpr ⟨hact, fun ⟨hpart, he, hi'⟩ => hleft ⟨hpart, beq_iff_eq.mp he, beq_iff_eq.mp hi'⟩⟩
        · rw [natLe_getElem, ofNat_vElem]
      · refine Bool.eq_false_iff.mpr fun h => ?_
        obtain ⟨hact, hleft⟩ := (and_not_and_eq_true _ _ _ _).mp h
        rcases hun with hact' | ⟨hpart, he, hi'⟩
        · exact Bool.false_ne_true (hact'.symm.trans hact)
        · exact hleft ⟨hpart, beq_iff_eq.mpr he, beq_iff_eq.mpr hi'⟩
    · refine slot_illegal s u (.d 2 f e w.toNat) hruns.alone hruns.issuing (.inl ?_)
      have hdst : Dev.dst u.toNat f e w.toNat s.dev.start = .illegal := if_pos hview
      show s.dev.start.stored u.toNat (Dev.dst u.toNat f e w.toNat s.dev.start) = _
      rw [hdst, Dev.stored, SlotRes.isIllegal, Bool.not_true, Bool.and_false]
      rfl
    · obtain ⟨t, hexec, hpending, hdev, hkept, -, hout⟩ := slot_stores (c := .d 4 f .ok 0) (bs := natLe 32 m.toNat) (pre := id) rfl hruns
        (fun _ => rfl) (by rw [natLe_length]; decide) (dOp_stored (opc := 4) (e := .ok) (i := 0) (r := Dev.dstm u.toNat f s.dev.start) rfl hw)
      rw [natLe_length] at hout
      exact ⟨t, hexec, hpending, hdev, fun i hi => (hkept i (by rwa [natLe_length]) rfl).trans (natLe_getElem _ _ _ _), hout⟩
    · refine dslot_waits (opc := 2) (r := Dev.dst u.toNat f e w.toNat s.dev.start) rfl hw ?_ hruns
      rw [Dev.dst_of_le _ hview]
      rfl
    · exact dslot_waits (opc := 4) (r := Dev.dstm u.toNat f s.dev.start) rfl hw rfl hruns
  · intro s u f e line sb a byte inc r o1 o3 at'
    refine ⟨fun hw hruns => ⟨fun v he hv => ?_, fun he => ?_⟩, fun hw hruns => ⟨fun v he hv => ?_, fun he => ?_⟩, fun hi hb hr => ?_,
      fun hw => ⟨fun hruns => ?_, fun hruns => ?_⟩⟩
    · have hrun : o1.run s.dev.start = .issue (.v r v :: inc) (fun d => d.lsEcc e u.toNat at') id := by
        refine (dOp_stored (opc := 1) (r := Dev.dld s.mem u.toNat f e line.toNat s.dev.start) rfl hw).trans ((if_neg he).trans ?_)
        have hval : BitVec.ofNat 2048 (leNat (lsRead s.mem u.toNat a 256)) = v :=
          ofNat_leNat 256 (fun b => s.mem.read (lsByte u.toNat a b)) v hv
        rw [← hval]
        rfl
      exact slot_issues s u (.d 1 f e line.toNat) _ _ _ rfl hruns hrun (fun x => Dev.lsEcc_writes _ _ _ _) fun _ => rfl
    · have hrun : o1.run s.dev.start = .issue (.v r (Config.freeVReg s.dev.free) :: inc)
          (fun d => { d with free := d.free + 1 }.lsUerr u.toNat at') id := by
        refine (dOp_stored (opc := 1) (r := Dev.dld s.mem u.toNat f e line.toNat s.dev.start) rfl hw).trans ((if_pos he).trans ?_)
        rw [he]
        rfl
      exact slot_issues s u (.d 1 f e line.toNat) _ _ _ rfl hruns hrun (fun x => Dev.lsUerr_writes _ _ _) fun _ => rfl
    · have hrun : o3.run s.dev.start = .issue (.m (r % 8) v :: inc) (fun d => d.lsEcc e u.toNat (a / 64)) id := by
        refine (dOp_stored (opc := 3) (r := Dev.dldm s.mem u.toNat f e s.dev.start) rfl hw).trans ((if_neg he).trans ?_)
        have hval : BitVec.ofNat 256 (leNat (lsRead s.mem u.toNat a 32)) = v :=
          ofNat_leNat 32 (fun b => s.mem.read (lsByte u.toNat a b)) v hv
        rw [← hval]
        rfl
      exact slot_issues s u (.d 3 f e 0) _ _ _ rfl hruns hrun (fun x => Dev.lsEcc_writes _ _ _ _) fun _ => rfl
    · have hrun : o3.run s.dev.start = .issue (.m (r % 8) (Config.freeMReg s.dev.free) :: inc)
          (fun d => { d with free := d.free + 1 }.lsUerr u.toNat (a / 64)) id := by
        refine (dOp_stored (opc := 3) (r := Dev.dldm s.mem u.toNat f e s.dev.start) rfl hw).trans ((if_pos he).trans ?_)
        rw [he]
        rfl
      exact slot_issues s u (.d 3 f e 0) _ _ _ rfl hruns hrun (fun x => Dev.lsUerr_writes _ _ _) fun _ => rfl
    · refine slot_illegal s u (.d 3 f e 0) hb hi (.inr ?_)
      show 32 ∈ dDests 3 f
      simp [dDests, show f.reg.toNat % 8 = 0 from hr]
    · exact dslot_waits (opc := 1) (r := Dev.dld s.mem u.toNat f e line.toNat s.dev.start) rfl hw (dld_isLegal _ _ _ _ _ _) hruns
    · exact dslot_waits (opc := 3) (r := Dev.dldm s.mem u.toNat f e s.dev.start) rfl hw (dldm_isLegal _ _ _ _ _) hruns

end Sys2Proof.Machine

/-! Bundles of two slots, and the slots of a bundle (O19). -/

namespace Sys2Proof.Machine

/-! ## A bundle of a V slot and a D slot -/

/-- The D slot, offered last, offers the V slot before it too. -/
theorem slot_pairs (s : State) (u : BitVec 12) {opc : Nat} {f : VSlot} (opc' : Nat) (g : DSlot) (e : Ecc) (i : Nat)
    (hb : (s.dev.unit u.toNat).bundle = [.v opc f]) (hi : s.dev.issuing u.toNat [2] = true) : runSlot s u true (.d opc' g e i) =
    s.endsStore (s.dev.start.offerBundle u.toNat [vOp u.toNat opc f, dOp s.mem u.toNat opc' g e i]) := by
  have hb' : (s.dev.start.unit u.toNat).bundle = [.v opc f] := hb
  have hi' : s.dev.start.issuing u.toNat [2] = true := hi
  have hslot : Dev.slot s.mem u.toNat true (.d opc' g e i) s.dev.start =
      s.dev.start.offerBundle u.toNat [vOp u.toNat opc f, dOp s.mem u.toNat opc' g e i] := by
    simp only [Dev.slot, hb']
    exact if_pos hi'
  rw [runSlot, runMem, hslot]
  rfl

section Pair
variable {d : Dev} (u : Nat) {a b : SlotOp} {wa : List RegWr} {acta : Dev → Dev} (hnodup : (a.dsts ++ b.dsts).Nodup) (hm0 : 32 ∉ a.dsts ++ b.dsts)
  (ha : a.run d = .issue wa acta id)
include hnodup hm0 ha

/-- The D slot holds the bundle: nothing of the V slot acts. -/
theorem Dev.offerBundle_pair_holds {counter : Field} (hb : b.run d = .hold counter id) (hw : b.weight = 0) :
    ∃ e c, Dev.units e = d.units ∧ e.writes = d.writes ∧ d.offerBundle u [a, b] = e.atCycle u c := by
  have hd1 : decide (a.dsts ++ b.dsts).Nodup = true := decide_eq_true hnodup
  have hd2 : (a.dsts ++ b.dsts).contains 32 = false := by simpa using hm0
  have hw' : (b.weight != 0) = false := by rw [hw]; rfl
  simp only [Dev.offerBundle, List.map_cons, List.map_nil, List.flatMap_cons, List.flatMap_nil, List.append_nil, ha, hb, hd1, hd2, List.any_cons,
    List.any_nil, SlotRes.isIllegal, Bool.or_false, Bool.not_true, firstHold, hw', id]
  exact ⟨_, _, by rfl, by rfl, rfl⟩

/-- Both slots issue, in the same cycle. -/
theorem Dev.offerBundle_pair_issues {wb : List RegWr} {actb : Dev → Dev} (hb : b.run d = .issue wb actb id) :
    ∃ e c, Dev.units e = d.units ∧ e.writes = d.writes ∧
      d.offerBundle u [a, b] = e.issueBundle u c [(a, .issue wa acta id), (b, .issue wb actb id)] := by
  have hd1 : decide (a.dsts ++ b.dsts).Nodup = true := decide_eq_true hnodup
  have hd2 : (a.dsts ++ b.dsts).contains 32 = false := by simpa using hm0
  simp only [Dev.offerBundle, List.map_cons, List.map_nil, List.flatMap_cons, List.flatMap_nil, List.append_nil, ha, hb, hd1, hd2, List.any_cons,
    List.any_nil, SlotRes.isIllegal, Bool.or_false, Bool.not_true, firstHold]
  exact ⟨_, _, by rfl, by rfl, rfl⟩

end Pair

/-- The registers after both slots have issued. -/
theorem Dev.issueBundle_pair_kept (d : Dev) (u c : Nat) (a b : SlotOp) (wa wb : List RegWr) (acta actb : Dev → Dev) :
    RegsKept u (SMap.put (actb (acta d)).units u ((wa ++ wb).foldl UnitSt.applyWr ((actb (acta d)).unit u)))
      (d.issueBundle u c [(a, .issue wa acta id), (b, .issue wb actb id)]).units := by
  have heq : d.issueBundle u c [(a, .issue wa acta id), (b, .issue wb actb id)] =
      (((actb (acta d)).setUnit u (UnitSt.issueAt c (UnitSt.issueAt c ((wa ++ wb).foldl UnitSt.applyWr ((actb (acta d)).unit u)) a) b)).atCycle u
        (c + 1)).endBundle u := by
    simp [Dev.issueBundle, SlotRes.act, SlotRes.after, SlotRes.writes]
  rw [heq]
  refine .trans (.trans ?_ (Dev.atCycle_kept _ u (c + 1))) (Dev.endBundle_kept _ u)
  rw [Dev.setUnit_units]
  have hx (x : UnitSt) := SMap.at_put_same (actb (acta d)).units u x {}
  exact ⟨by rw [hx, hx]; rfl, by rw [hx, hx]; rfl, by rw [hx, hx]; rfl, by rw [hx, hx]; rfl,
    fun v hv => by rw [SMap.at_put_ne _ _ _ hv, SMap.at_put_ne _ _ _ hv]⟩

theorem Dev.issueBundle_pair_writes (d : Dev) (u c : Nat) (a b : SlotOp) (wa wb : List RegWr) (acta actb : Dev → Dev) :
    (d.issueBundle u c [(a, .issue wa acta id), (b, .issue wb actb id)]).writes = (actb (acta d)).writes := by
  simp [Dev.issueBundle, SlotRes.act, SlotRes.after, SlotRes.writes]

/-! ## A copy of a register -/

/-- A register is the one with its elements of 32 bits. -/
theorem eq_of_vElem {r q : VReg} (h : ∀ i, i < 64 → vElem 32 r i = vElem 32 q i) : r = q := by
  refine BitVec.eq_of_getLsbD_eq fun j hj => ?_
  have hbit (v : VReg) : v.getLsbD j = (vElem 32 v (j / 32)).testBit (j % 32) := by
    rw [vElem, Nat.testBit_mod_two_pow, Nat.testBit_div_two_pow, decide_eq_true (Nat.mod_lt _ (by decide)), Bool.true_and,
      Nat.mod_add_div]
    rfl
  rw [hbit, hbit, h (j / 32) (by omega)]

theorem Dev.active_all (d : Dev) (u j : Nat) (hj : j < 256) : d.active u 0 false j = true := by
  have hmask : d.mask u 0 = BitVec.allOnes 256 := rfl
  rw [Dev.active, hmask, BitVec.getLsbD_allOnes, decide_eq_true hj]
  rfl

section Copy
variable {f : VSlot} (u : Nat) (d : Dev) (hcqa : f.cqa = false) (hview : f.view.toNat = 0) (hmreg : f.mreg.toNat = 0) (hinv : f.inv = false)
include hcqa hview hmreg hinv

/-- MOV of a whole register. -/
theorem vMovOp_copy : vMovOp u f d = { ws := [.v f.vd.toNat (d.vreg u f.va.toNat)] } := by
  have hval : mergeElems (d.vreg u f.vd.toNat) (viewBits f.view.toNat) 0 (viewCount f.view.toNat) (d.active u f.mreg.toNat f.inv) f.zm
      (fun j => vElem (viewBits f.view.toNat) (d.srcA u f) j) = d.vreg u f.va.toNat := by
    rw [hview, hmreg, hinv]
    refine eq_of_vElem fun i hi => ?_
    have hsrc : d.srcA u f = d.vreg u f.va.toNat := by rw [Dev.srcA, hcqa]; rfl
    rw [show viewBits 0 = 32 from rfl, show viewCount 0 = 64 from rfl, vElem_mergeElems (.inr (.inr rfl)) _ _ _ _ _ _ hi, hsrc]
    simp only [Nat.zero_le, Nat.zero_add, hi, and_self, if_true, Nat.sub_zero, d.active_all u i (by omega)]
    exact Nat.mod_eq_of_lt (vElem_lt 32 _ i)
  rw [vMovOp, Dev.writeAll, hval]

theorem vMov_run (hok : vOk 0x0F f = true) : (vOp u 0x0F f).run d =
    .issue [.v f.vd.toNat (d.vreg u f.va.toNat)] (Dev.vopActs · u f { ws := [.v f.vd.toNat (d.vreg u f.va.toNat)] }) id := by
  show Dev.vop u 0x0F f (vMovOp u f) d = _
  rw [Dev.vop, hok, hcqa, vMovOp_copy u d hcqa hview hmreg hinv]
  rfl

end Copy

theorem mov_pair_dests (f : VSlot) (g : DSlot) {opc : Nat} (h1 : opc ≠ 1) (h3 : opc ≠ 3) :
    (vDests 0x0F f ++ dDests opc g).Nodup ∧ 32 ∉ vDests 0x0F f ++ dDests opc g := by
  have hv : vDests 0x0F f = [f.vd.toNat] := rfl
  have hvd := f.vd.isLt
  rw [hv, dDests, if_neg h1, if_neg h3]
  split
  · simp only [List.nil_append, List.cons_append, List.nodup_cons, List.mem_cons, List.not_mem_nil, or_false, not_or, List.nodup_nil, not_false_iff,
      and_true]
    omega
  · simp only [List.nil_append, List.append_nil, List.nodup_singleton, List.mem_cons, List.not_mem_nil, or_false, true_and]
    omega

/-- A store of a whole register. -/
theorem dst_whole {s : State} {u : BitVec 12} {g : DSlot} (hw : s.dev.storeWaits u.toNat = false) (hpinc : g.pinc = false) (hview : g.view.toNat = 0)
    (hmreg : g.mreg.toNat = 0) (hinv : g.inv = false) : ∃ keep : Nat → Bool, (∀ i, i < 256 → keep i = true) ∧
    (dOp s.mem u.toNat 2 g .ok 0).run s.dev.start = .issue [] (fun d => d.lsWrite u.toNat (s.dev.dAddr u.toNat g) keep
      (natLe 256 (s.dev.vreg u.toNat g.reg.toNat).toNat)) id := by
  refine ⟨fun i => s.dev.active u.toNat 0 false (i / 4), fun i hi => s.dev.active_all _ _ (by omega), ?_⟩
  rw [dOp_stored (opc := 2) (r := Dev.dst u.toNat g .ok 0 s.dev.start) rfl hw, Dev.dst_of_le _ (by omega), hview, hmreg, hinv]
  have hinc : s.dev.start.dInc u.toNat g = [] := by rw [Dev.dInc, hpinc]; rfl
  simp only [hinc, Dev.lsEcc, ite_self, show (Ecc.ok == .uncorrectable) = false from rfl, Bool.and_false, Bool.false_and, Bool.not_false, Bool.and_true]
  rfl

/-! ## The obligation -/

/-- What the bundle of a slot that does nothing leaves: `Dev.endBundle` of a device with the unit's loops and registers. -/
theorem nop_end {s : State} {u : BitVec 12} (hruns : SlotRuns s u (cOp u.toNat 0 (cSlotOf 0))) (hending : (s.dev.unit u.toNat).ending = false) :
    ∃ t d, exec (.cnop u true) s = .next t ∧ t.mem = s.mem ∧ t.pending = s.pending ∧ t.dev.units = (Dev.endBundle d u.toNat).units ∧
      (∀ f, t.dev.rd f u.toNat = (Dev.endBundle d u.toNat).rd f u.toNat) ∧ (d.unit u.toNat).loops = (s.dev.unit u.toNat).loops ∧
      (d.unit u.toNat).ending = false ∧
      ∀ f, placesApart Reg.SEQ_STALL_DEP f = true → placesApart Reg.SEQ_STALL_VBUSY f = true → d.rd f u.toNat = s.dev.rd f u.toNat := by
  obtain ⟨d, hd, hloops, hend, hrd⟩ := s.issued_nop u (cOp u.toNat 0 (cSlotOf 0))
  have hexec : exec (.cnop u true) s = s.ends (s.issued u (cOp u.toNat 0 (cSlotOf 0)) [] id id) :=
    slot_issues s u (.c 0 (cSlotOf 0)) [] id id rfl hruns rfl (fun _ => rfl) fun _ => rfl
  rw [hd] at hexec
  exact ⟨_, d, hexec, rfl, rfl, rfl, fun _ => rfl, hloops, hend.trans hending, hrd⟩

/-- Settles O19: `slot_joins` for the slots that only join their bundle, `Dev.endBundle_goes` and `Dev.endBundle_past` for its end,
`Dev.issueBundle_pair_kept` for a bundle of two slots. -/
theorem nopsAndBundleEnd : Obligations.NopsAndBundleEnd := by
  refine ⟨fun s u v m d c e l w h => ?_, fun s u => ⟨?_, fun hi hb last => ?_⟩, fun s u hruns hending => ?_,
    fun s u f g hi hok hcqa hattr hb hview hmreg hinv => ⟨fun hkick => ?_, fun hw hpinc hreg hgview hgmreg hginv => ?_⟩⟩
  · repeat refine List.forall_mem_cons.2 ⟨slot_joins s u _ h, ?_⟩
    exact List.forall_mem_nil _
  · refine List.forall_mem_cons.2 ⟨fun h => slot_issues s u (.m 0 (mSlotOf 0) .ok) [] id id rfl h rfl (fun _ => rfl) fun _ => rfl, ?_⟩
    refine List.forall_mem_cons.2 ⟨fun h => slot_issues s u (.v 0 (vSlotOf 0)) [] id id rfl h rfl (fun _ => rfl) fun _ => rfl, ?_⟩
    refine List.forall_mem_cons.2 ⟨fun h => slot_issues s u (.d 0 (dSlotOf 0) .ok 0) [] id id rfl h rfl (fun _ => rfl) fun _ => rfl, ?_⟩
    exact List.forall_mem_singleton.2 fun h => slot_issues s u (.c 0 (cSlotOf 0)) [] id id rfl h rfl (fun _ => rfl) fun _ => rfl
  · refine List.forall_mem_cons.2 ⟨slot_unissued s u last (.m 0 (mSlotOf 0) .ok) rfl hb hi, ?_⟩
    refine List.forall_mem_cons.2 ⟨slot_unissued s u last (.v 0 (vSlotOf 0)) rfl hb hi, ?_⟩
    refine List.forall_mem_cons.2 ⟨slot_unissued s u last (.d 0 (dSlotOf 0) .ok 0) rfl hb hi, ?_⟩
    exact List.forall_mem_singleton.2 (slot_unissued s u last (.c 0 (cSlotOf 0)) rfl hb hi)
  · obtain ⟨t, d, hexec, hmem, hpending, hunits, hrd, hloops, hend, hkept⟩ := nop_end hruns hending
    have hpc := hkept Reg.SEQ_STATE_PC (by decide) (by decide)
    have hhi := hkept Reg.SEQ_IMG_HI (by decide) (by decide)
    have hseq := hkept Reg.SEQ_STATE_SEQ (by decide) (by decide)
    have hissued := hkept Reg.SEQ_ISSUED (by decide) (by decide)
    have hunit : t.dev.unit u.toNat = (d.endBundle u.toNat).unit u.toNat := Dev.unit_congr hunits _
    have hrunning : d.seqState u.toNat ≠ 6 := by
      rw [Dev.seqState, hseq, ← Dev.seqState, Dev.issuing_seqState hruns.issuing]
      decide
    obtain ⟨hbundle, hcount⟩ := d.endBundle_counted u.toNat hend hrunning
    have hgoes {next : Nat} {rest : List LoopSt} (hnext : loopBack (s.dev.rd Reg.SEQ_STATE_PC u.toNat) (s.dev.unit u.toNat).loops = (next, rest))
        (hne : next = s.dev.rd Reg.SEQ_STATE_PC u.toNat + 1 → s.dev.rd Reg.SEQ_STATE_PC u.toNat ≠ s.dev.rd Reg.SEQ_IMG_HI u.toNat) :
        t.dev.rd Reg.SEQ_STATE_PC u.toNat = next % 2 ^ Reg.SEQ_STATE_PC.width ∧ (t.dev.unit u.toNat).loops = rest ∧
          t.dev.seqState u.toNat = s.dev.seqState u.toNat := by
      rw [hrd, hunit, Dev.seqState, Dev.seqState, hrd, ← hseq]
      rw [← hpc, ← hloops] at hnext
      rw [← hpc, ← hhi] at hne
      exact d.endBundle_goes u.toNat hend hnext hne
    refine ⟨t, hexec, hmem, hpending, by rw [hunit, hbundle], by rw [hrd, hcount, hissued], fun hl hne => ?_, fun hl hlast => ?_,
      fun l ls hl hlast hleft hfirst => ?_, fun l hl hlast hleft hne => ?_⟩
    · exact hgoes (by rw [hl]; rfl) fun _ => hne
    · rw [Dev.seqState, hrd, hrd]
      exact d.endBundle_past u.toNat hend (rest := []) (by rw [hloops, hl]; rfl) (by rw [hpc, hhi]; exact hlast) hrunning
    · have hback : loopBack (s.dev.rd Reg.SEQ_STATE_PC u.toNat) (s.dev.unit u.toNat).loops =
          (l.first, { l with left := l.left - 1, idx := l.idx + 1 } :: ls) := by rw [hl, loopBack, if_pos hlast, if_pos hleft]
      have hgo := hgoes hback fun h => absurd h (by omega)
      exact ⟨hgo.1, hgo.2.1⟩
    · have hback : loopBack (s.dev.rd Reg.SEQ_STATE_PC u.toNat) (s.dev.unit u.toNat).loops = (s.dev.rd Reg.SEQ_STATE_PC u.toNat + 1, []) := by
        rw [hl, loopBack, if_pos hlast, if_neg (by omega)]
        rfl
      have hgo := hgoes hback fun _ => hne
      exact ⟨hgo.1, hgo.2.1⟩
  · have hrun : (dOp s.mem u.toNat 6 g .ok 0).run s.dev.start = .hold Reg.SEQ_STALL_D id := by
      refine if_pos (Nat.ne_of_gt (List.length_pos_iff.mpr ?_))
      obtain ⟨k, hk, htag⟩ := hkick
      exact List.ne_nil_of_mem (List.mem_filter.mpr ⟨hk, beq_iff_eq.mpr htag⟩)
    have hdests := mov_pair_dests f g (opc := 6) (by decide) (by decide)
    obtain ⟨e, c, hunits, hwrites, he⟩ := Dev.offerBundle_pair_holds u.toNat hdests.1 hdests.2
      (vMov_run u.toNat s.dev.start hcqa hview hmreg hinv hok) hrun rfl
    have hexec := slot_pairs s u 6 g .ok 0 hb hi
    rw [he] at hexec
    have hunit : (e.atCycle u.toNat c).unit u.toNat = { e.unit u.toNat with cyc := c, cycAt := e.now } := SMap.at_put_same _ _ _ _
    have hsame : e.unit u.toNat = s.dev.unit u.toNat := Dev.unit_congr (d := s.dev) hunits _
    have hfield {α : Type} (p : UnitSt → α) (hp : p { e.unit u.toNat with cyc := c, cycAt := e.now } = p (e.unit u.toNat)) :
        p ((e.atCycle u.toNat c).unit u.toNat) = p (s.dev.unit u.toNat) := by rw [hunit, hp, hsame]
    exact ⟨_, hexec, congrArg (Mem.apply s.mem) hwrites, hfield UnitSt.vregs rfl, hfield UnitSt.sregs rfl, (hfield UnitSt.bundle rfl).trans hb⟩
  · obtain ⟨keep, hkeep, hrun⟩ := dst_whole hw hpinc hgview hgmreg hginv
    have hdests := mov_pair_dests f g (opc := 2) (by decide) (by decide)
    obtain ⟨e, c, hunits, hwrites, he⟩ := Dev.offerBundle_pair_issues u.toNat hdests.1 hdests.2
      (vMov_run u.toNat s.dev.start hcqa hview hmreg hinv hok) hrun
    have hexec := slot_pairs s u 2 g .ok 0 hb hi
    rw [he] at hexec
    have hops := Dev.issueBundle_pair_writes e u.toNat c (vOp u.toNat 0x0F f) (dOp s.mem u.toNat 2 g .ok 0)
      [.v f.vd.toNat (s.dev.start.vreg u.toNat f.va.toNat)] [] (Dev.vopActs · u.toNat f { ws := [.v f.vd.toNat (s.dev.start.vreg u.toNat f.va.toNat)] })
      (Dev.lsWrite · u.toNat (s.dev.dAddr u.toNat g) keep (natLe 256 (s.dev.vreg u.toNat g.reg.toNat).toNat))
    rw [Dev.lsWrite_eq, Dev.vopActs_writes _ _ _ _ fun _ => rfl, hwrites] at hops
    have hregs := Dev.issueBundle_pair_kept e u.toNat c (vOp u.toNat 0x0F f) (dOp s.mem u.toNat 2 g .ok 0)
      [.v f.vd.toNat (s.dev.start.vreg u.toNat f.va.toNat)] [] (Dev.vopActs · u.toNat f { ws := [.v f.vd.toNat (s.dev.start.vreg u.toNat f.va.toNat)] })
      (Dev.lsWrite · u.toNat (s.dev.dAddr u.toNat g) keep (natLe 256 (s.dev.vreg u.toNat g.reg.toNat).toNat))
    refine ⟨_, hexec, fun i hi => ?_, ?_⟩
    · have hval : (natLe 256 (s.dev.vreg u.toNat g.reg.toNat).toNat)[i]'(by rwa [natLe_length]) =
          BitVec.ofNat 8 (vElem 8 (s.dev.vreg u.toNat f.vd.toNat) i) := by rw [natLe_getElem, ofNat_vElem, hreg]
      refine Eq.trans ?_ hval
      exact (congrArg (fun ops => Mem.read (Mem.apply s.mem ops) (lsByte u.toNat (s.dev.dAddr u.toNat g) i)) hops).trans
        (read_lsWrite_kept u.toNat _ keep _ s.mem i (by rwa [natLe_length]) (hkeep i hi) (by rw [natLe_length]; decide))
    · refine (congrArg (SMap.at · f.vd.toNat 0) (hregs.vregs.trans (congrArg UnitSt.vregs (SMap.at_put_same _ _ _ _)))).trans ?_
      exact SMap.at_putD_same _ _ _ _

end Sys2Proof.Machine

/-! The slots of unit programs that steer issue: loops, kicks, waits, beats and barriers (O31, O32). -/

namespace Sys2Proof.Machine

/-! ## Effects that leave the store operations alone -/

@[simp] theorem Dev.dropReply_writes (d : Dev) (pg : Nat) : (d.dropReply pg).writes = d.writes := rfl

@[simp] theorem Dev.engView_writes (d : Dev) (rm : Bool) (inst : Nat) : (d.engView rm inst).writes = d.writes := by
  unfold Dev.engView
  simp only [apply_ite Dev.writes, Dev.idle_writes, Dev.busy_writes, Dev.setReqs_writes, Dev.wr_writes, ite_self]

@[simp] theorem Dev.accept_writes (d : Dev) (rm : Bool) (inst : Nat) (b : MBlock) : (d.accept rm inst b).writes = d.writes := by
  refine (Dev.engView_writes _ _ _).trans ?_
  cases rm <;> rfl

@[simp] theorem Dev.kickDone_writes (d : Dev) (u tag code : Nat) : (d.kickDone u tag code).writes = d.writes := by
  unfold Dev.kickDone
  simp only
  split
  · rfl
  · split
    · rfl
    · split
      · rfl
      · simp [Dev.setReqs]

@[simp] theorem Dev.barrierFail_writes (d : Dev) (c n why : Nat) (us : List Nat) : (d.barrierFail c n why us).writes = d.writes :=
  (foldl_keeps Dev.writes (Dev.barrierStop n why) (fun d u => by simp [Dev.barrierStop]) us _).trans rfl

/-! ## Slots of a unit that issues or waits -/

section
variable {s : State} {u : BitVec 12} {c : SlotCmd} (hb : (s.dev.unit u.toNat).bundle = [])
  (hi : s.dev.issuing u.toNat (if c.states.length = 1 then [2] else c.states) = true) (hd : (c.op s.mem u.toNat).dsts = [])
include hb hi hd

theorem slot_issues_at (ws : List RegWr) (act after : Dev → Dev) (hr : (c.op s.mem u.toNat).run s.dev.start = .issue ws act after)
    (ha : ∀ e : Dev, (act e).writes = e.writes) (hafter : ∀ e : Dev, (after e).writes = e.writes) :
    runSlot s u true c = s.ends (s.issued u (c.op s.mem u.toNat) ws act after) := by
  rw [slot_offers s u c hb hi, offer_issues s u _ ws act after (by simp [hd]) hr]
  exact endsStore_ends s _ (s.issued_writes u _ ws act after ha hafter)

theorem slot_holds_at (counter : Field) (act : Dev → Dev) (hr : (c.op s.mem u.toNat).run s.dev.start = .hold counter act)
    (ha : ∀ e : Dev, (act e).writes = e.writes) : runSlot s u true c = s.ends (s.heldBy u (c.op s.mem u.toNat) counter act) := by
  rw [slot_offers s u c hb hi, offer_holds s u _ counter act (by simp [hd]) hr]
  exact endsStore_ends s _ (s.heldBy_writes u _ counter act ha)

theorem slot_stops_at (act : Dev → Dev) (hr : (c.op s.mem u.toNat).run s.dev.start = .stop act)
    (ha : ∀ e : Dev, (act e).writes = e.writes) : runSlot s u true c = s.ends (s.stopsBy u (c.op s.mem u.toNat) act) := by
  rw [slot_offers s u c hb hi, offer_stops s u _ act (by simp [hd]) hr]
  exact endsStore_ends s _ (s.stopsBy_writes u _ act ha)

end

/-! ## The end of a program (R204) -/

theorem Dev.info_idle (d : Dev) (pg q : Nat) : (d.idle pg).info q = d.info q := by
  unfold Dev.idle
  split <;> rfl

theorem Dev.endBundle_ends (d : Dev) (u : Nat) (h : (d.unit u).ending = true) :
    (d.endBundle u).seqState u = 5 ∧ ((d.endBundle u).info (pgSeq u)).reqIn = 0 := by
  unfold Dev.endBundle
  simp only [h, if_true]
  constructor
  · rw [Dev.seqState, Dev.rd_idle_body _ _ _ (by decide), Dev.rd_setReqs_body _ _ _ _ _ (by decide), Dev.rd_wr_apart _ _ _ _ (by decide)]
    exact Dev.rd_wr_same (f := Reg.SEQ_STATE_SEQ) _ _ _ (by decide) (by decide)
  · rw [Dev.info_idle]
    exact congrArg PageInfo.reqIn (Dev.info_setInfo _ _ _)

theorem State.issued_seqEnd (s : State) (u : BitVec 12) (o : SlotOp) : ∃ d : Dev, (d.unit u.toNat).ending = true ∧
    s.issued u o [] (fun d => d.setUnit u.toNat { d.unit u.toNat with ending := true }) id = d.endBundle u.toNat := by
  have hget (d : Dev) (x : UnitSt) : (d.setUnit u.toNat x).unit u.toNat = x := SMap.at_put_same _ _ _ _
  unfold State.issued
  simp only [Dev.issueBundle_one, List.foldl_nil, id]
  refine ⟨_, ?_, rfl⟩
  rw [Dev.atCycle, hget, hget, hget]
  rfl

/-! ## Kicks -/

theorem Dev.openKicks_zero {d : Dev} {u tag : Nat} (h : ∀ k ∈ (d.info (pgSeq u)).issued, k.1 ≠ tag) : d.openKicks u tag = 0 := by
  rw [Dev.openKicks, List.length_eq_zero_iff, List.filter_eq_nil_iff]
  exact fun k hk heq => h k hk (beq_iff_eq.mp heq)

theorem Dev.openKicks_ne_zero {d : Dev} {u tag : Nat} (h : ∃ k ∈ (d.info (pgSeq u)).issued, k.1 = tag) : d.openKicks u tag ≠ 0 := by
  obtain ⟨k, hk, htag⟩ := h
  exact Nat.ne_of_gt (List.length_pos_iff.mpr (List.ne_nil_of_mem (List.mem_filter.mpr ⟨hk, beq_iff_eq.mpr htag⟩)))

/-- A kick opened under a tag. -/
def kickOf (u tag : Nat) (d : Dev) : Dev :=
  (d.setInfo (pgSeq u) { d.info (pgSeq u) with issued := (d.info (pgSeq u)).issued ++ [(tag, d.now)] }).setReqs (pgSeq u) (d.info (pgSeq u)).reqIn
    ((d.info (pgSeq u)).reqOut + 1)

/-- Settles O31: `Dev.endBundle_ends` for END; the other slots are one case of their operation each. -/
theorem controlAndKicks : Obligations.ControlAndKicks := by
  refine ⟨?_, ?_⟩
  · intro s u f o pc last index
    refine ⟨fun hruns hok => ?_, fun hruns hok => ?_, fun hruns => ?_, fun hruns => ?_, fun hruns => ?_⟩
    · have hok' : (! s.dev.start.loopOk u.toNat pc last) = false := congrArg (! ·) hok
      exact slot_issues s u (.c 0x10 f) [] _ id rfl hruns (if_neg (Bool.eq_false_iff.mp hok')) (fun _ => rfl) fun _ => rfl
    · have hok' : (! s.dev.start.loopOk u.toNat pc last) = true := congrArg (! ·) hok
      exact slot_illegal s u (.c 0x10 f) hruns.alone hruns.issuing (.inl (if_pos hok'))
    · exact slot_issues s u (.c 0x1A f) [] _ id rfl hruns rfl (fun _ => rfl) fun _ => rfl
    · exact slot_issues s u (.c 0x1B f) [] _ id rfl hruns rfl (fun e => by simp) fun _ => rfl
    · obtain ⟨d, hending, hd⟩ := s.issued_seqEnd u (cOp u.toNat 0x1F (cSlotOf 0))
      refine ⟨_, slot_issues s u (.c 0x1F (cSlotOf 0)) [] _ id rfl hruns rfl (fun _ => rfl) fun _ => rfl, rfl, ?_⟩
      have hends := d.endBundle_ends u.toNat hending
      rw [← hd] at hends
      exact hends
  · intro s u f sb a inc c t i kick block o5 o6
    refine ⟨fun hruns => ⟨fun hstate hroom => ?_, fun hstate hfull => ?_, fun code hstate => ?_⟩, fun hruns => ⟨fun hopen => ?_, fun hnone => ?_⟩⟩
    · refine (slot_issues s u (.d 5 f .ok 0) inc (fun d => (kickOf u.toNat t d).accept false c block) id rfl hruns ?_ ?_ fun _ => rfl).trans ?_
      · have hstate' : s.dev.start.stateCode (pgCmove (clusterOf u.toNat)) = none := hstate
        show Dev.dkick u.toNat f s.dev.start = _
        rw [Dev.dkick]
        simp only [hstate']
        exact if_neg (Nat.not_le.mpr hroom)
      · exact fun e => (Dev.accept_writes _ _ _ _).trans rfl
      · unfold State.issued
        simp only [Dev.issueBundle_one]
        rfl
    · refine slot_holds s u (.d 5 f .ok 0) _ id rfl hruns ?_ fun _ => rfl
      have hstate' : s.dev.start.stateCode (pgCmove (clusterOf u.toNat)) = none := hstate
      show Dev.dkick u.toNat f s.dev.start = _
      rw [Dev.dkick]
      simp only [hstate']
      exact if_pos hfull
    · refine (slot_issues s u (.d 5 f .ok 0) inc (kickOf u.toNat t) (Dev.kickDone · u.toNat t code) rfl hruns ?_ (fun _ => rfl) fun e => by simp).trans ?_
      · have hstate' : s.dev.start.stateCode (pgCmove (clusterOf u.toNat)) = some code := hstate
        show Dev.dkick u.toNat f s.dev.start = _
        rw [Dev.dkick]
        simp only [hstate']
        rfl
      · unfold State.issued
        simp only [Dev.issueBundle_one]
        rfl
    · exact slot_holds s u (.d 6 f .ok 0) _ id rfl hruns (if_pos (Dev.openKicks_ne_zero (d := s.dev.start) hopen)) fun _ => rfl
    · exact slot_issues s u (.d 6 f .ok 0) inc id id rfl hruns (if_neg (not_not.mpr (Dev.openKicks_zero (d := s.dev.start) hnone))) (fun _ => rfl) fun _ => rfl

/-! ## Beats and barriers (R201, R202) -/

/-- Settles O32: one case of WBEAT or BAR each, in a unit that issues or waits there. -/
theorem beatsAndBarriers : Obligations.BeatsAndBarriers := by
  refine ⟨?_, ?_, fun s c n => ⟨fun hnone => ?_, fun b hsome => ?_⟩⟩
  · intro s u f hi hb w b o on
    have hage {x : Option Nat} (h : s.dev.windowAge b w = x) : s.dev.start.windowAge b w = x := h
    refine ⟨fun hw => ?_, fun hw hnone => ?_, fun t hw hsome hwaits => ?_, fun t hw hsome hruns ht => ?_⟩
    · exact slot_illegal s u (.c 0x18 f) hb hi (.inl (if_pos hw))
    · refine slot_holds_at (c := .c 0x18 f) hb hi rfl _ (on 3) ((if_neg hw).trans ?_) fun _ => rfl
      simp only [show (s.dev.start.windowAge ((s.dev.start.stepStart + f.imm.toNat) % 2 ^ 64) (f.cx.toNat % 4)) = none from hnone]
      rfl
    · refine slot_issues_at (c := .c 0x18 f) hb hi rfl [] (on 2) id ((if_neg hw).trans ?_) (fun _ => rfl) fun _ => rfl
      simp only [show (s.dev.start.windowAge ((s.dev.start.stepStart + f.imm.toNat) % 2 ^ 64) (f.cx.toNat % 4)) = some t from hsome]
      exact if_pos hwaits
    · refine slot_issues_at (c := .c 0x18 f) hb hi rfl [] _ id ((if_neg hw).trans ?_) (fun _ => ?_) fun _ => rfl
      · simp only [show (s.dev.start.windowAge ((s.dev.start.stepStart + f.imm.toNat) % 2 ^ 64) (f.cx.toNat % 4)) = some t from hsome]
        exact if_neg (not_or.mpr ⟨hruns, ht⟩)
      · simp [on]
  · intro s u f hi hb n mask c x b o waits arrived all
    have hfirst (hdone : x.barDone = false) (hwait : x.barWait = none) : Dev.bar u.toNat f s.dev.start =
        if (! bit mask (u.toNat % 32) || b.mask != mask) = true then .stop (Dev.barrierFail · c n 0 arrived)
        else .hold Reg.SEQ_WAIT_SYNC fun d => if all = true then arrived.foldl (fun (d : Dev) v => d.setUnit v { d.unit v with barDone := true })
            ((waits d).setCluster c { (waits d).cluster c with bars := SMap.del ((waits d).cluster c).bars n })
          else (waits d).setCluster c { (waits d).cluster c with bars := SMap.put ((waits d).cluster c).bars n { b with arrived := arrived } } := by
      have hnone : (s.dev.start.unit u.toNat).barWait.isSome = false := congrArg Option.isSome hwait
      exact (if_neg (Bool.eq_false_iff.mp hdone)).trans (if_neg (Bool.eq_false_iff.mp hnone))
    have hjoins (hin : bit mask (u.toNat % 32) = true) (hmask : b.mask = mask) : ¬ (! bit mask (u.toNat % 32) || b.mask != mask) = true := by
      simp [hin, hmask]
    refine ⟨fun hdone => ?_, fun hdone hwait => ?_, fun hdone hwait hout => ?_, fun hdone hwait hin hmask hall => ?_, fun hdone hwait hin hmask hall => ?_⟩
    · exact slot_issues_at (c := .c 0x19 f) hb hi rfl [] _ id (if_pos hdone) (fun _ => rfl) fun _ => rfl
    · have hsome : (s.dev.start.unit u.toNat).barWait.isSome = true := Option.isSome_iff_ne_none.mpr hwait
      exact slot_holds_at (c := .c 0x19 f) hb hi rfl _ id ((if_neg (Bool.eq_false_iff.mp hdone)).trans (if_pos hsome)) fun _ => rfl
    · exact slot_stops_at (c := .c 0x19 f) hb hi rfl _ ((hfirst hdone hwait).trans (if_pos (by simpa using hout))) fun e => Dev.barrierFail_writes _ _ _ _ _
    · refine slot_holds_at (c := .c 0x19 f) hb hi rfl _ _ ((hfirst hdone hwait).trans ((if_neg (hjoins hin hmask)).trans ?_)) fun _ => rfl
      exact congrArg (SlotRes.hold _) (funext fun d => if_neg (Bool.eq_false_iff.mp hall))
    · refine slot_holds_at (c := .c 0x19 f) hb hi rfl _ _ ((hfirst hdone hwait).trans ((if_neg (hjoins hin hmask)).trans ?_)) fun e => ?_
      · exact congrArg (SlotRes.hold _) (funext fun d => if_pos hall)
      · exact (foldl_keeps Dev.writes (fun (d : Dev) v => d.setUnit v { d.unit v with barDone := true }) (fun _ _ => rfl) _ _).trans rfl
  · have hnone' : SMap.find (s.dev.start.cluster c.toNat).bars n.toNat = none := hnone
    show s.ends (Dev.barrierTimeout c.toNat n.toNat s.dev.start) = _
    rw [Dev.barrierTimeout, hnone']
  · have hsome' : SMap.find (s.dev.start.cluster c.toNat).bars n.toNat = some b := hsome
    show s.ends (Dev.barrierTimeout c.toNat n.toNat s.dev.start) = _
    rw [Dev.barrierTimeout, hsome']
    rfl

end Sys2Proof.Machine

/-! Starts of programs, the instruction-store fill and the M slot (O33, O34, O35). -/

namespace Sys2Proof.Machine

/-! ## Header fields beside registers -/

section
variable (d : Dev) {f h : Field}

theorem Dev.hd_wr_body (inst v pg : Nat) (hh : inHeader h = true) (hf : inBody f = true) : (d.wr f inst v).hd h pg = d.hd h pg :=
  Dev.get_set_ne _ _ _ _ _ _ _ _ (key_ne_of_inBody hh hf _ _).symm

theorem Dev.bs_wr_body (inst v pg : Nat) (hf : inBody f = true) : (d.wr f inst v).bs pg = d.bs pg := d.hd_wr_body _ _ _ (by decide) hf

theorem Dev.bs_setReqs (pg a b pg' : Nat) : (d.setReqs pg a b).bs pg' = d.bs pg' := (Dev.hd_hw_apart _ _ _ _ (by decide)).trans rfl

theorem Dev.rd_busy_body (pg inst : Nat) (hf : inBody f = true) : (d.busy pg).rd f inst = d.rd f inst := by
  unfold Dev.busy
  split
  · exact d.rd_setBs_body _ _ _ hf
  · rfl

theorem Dev.bs_busy (pg : Nat) (hbs : d.bs pg = Bs.idle ∨ d.bs pg = Bs.run) : (d.busy pg).bs pg = Bs.run := by
  unfold Dev.busy
  split
  next => exact Dev.bs_setBs _ _ _
  next h => exact hbs.resolve_left h

end

/-- A write that asks for work of a block that takes none. -/
theorem work_refused (s : State) (r : Requester) (pg off : Nat) (f : Dev → Nat × Dev) (h : s.accepts r pg off true)
    (hw : s.dev.refusesWork pg = true) : runDev s (fun d => d.action r pg off true f) = s.ends (s.dev.start.done 5) := by
  have h' : s.dev.start.refusal r (pg * 4096 + off) true = none := h
  have hw' : s.dev.start.refusesWork pg = true := hw
  simp [runDev, State.ends, Dev.action, h', hw', Cc.quiesced]

/-! ## The state that a command ends in -/

/-- The state after a command that leaves the store and the queue alone. -/
def State.after (s : State) (d : Dev) : State := { s with dev := { d with writes := [] } }

section
variable (s : State) (d : Dev)

theorem State.ends_eq : s.ends d = .next (s.after d) := rfl
@[simp] theorem State.after_mem : (s.after d).mem = s.mem := rfl
@[simp] theorem State.after_pending : (s.after d).pending = s.pending := rfl
@[simp] theorem State.after_unit (u : Nat) : (s.after d).dev.unit u = d.unit u := rfl
@[simp] theorem State.after_rd (f : Field) (inst i : Nat) : (s.after d).dev.rd f inst i = d.rd f inst i := rfl
@[simp] theorem State.after_seqState (u : Nat) : (s.after d).dev.seqState u = d.seqState u := rfl
@[simp] theorem State.after_bs (pg : Nat) : (s.after d).dev.bs pg = d.bs pg := rfl
@[simp] theorem State.after_hd (f : Field) (pg : Nat) : (s.after d).dev.hd f pg = d.hd f pg := rfl
@[simp] theorem State.after_info (pg : Nat) : (s.after d).dev.info pg = d.info pg := rfl

end

/-! ## Starts -/

theorem seqStart_of_asked {d : Dev} {u : Nat} (h : d.seqState u = 1) : Dev.seqStart u d = (Cc.done, d) := by
  rw [Dev.seqStart]
  exact (if_neg (by omega)).trans (if_pos h)

theorem seqStart_of_run {d : Dev} {u : Nat} (h : 2 ≤ d.seqState u) (h5 : d.seqState u ≠ 5) : Dev.seqStart u d = (Cc.locked, d) := by
  rw [Dev.seqStart]
  exact (if_neg (by omega)).trans (if_neg (by omega))

/-- The test of R204 for the start of a program. -/
def Dev.begins (d : Dev) (u : Nat) : Bool :=
  unitOk u && d.seqState u == 1 && d.beatSeen && decide ((d.unit u).startAt < d.boundary) && [Bs.idle, Bs.run].contains (d.bs (pgSeq u))

theorem Dev.begins_iff (d : Dev) (u : Nat) : d.begins u = true ↔ unitOk u = true ∧ d.seqState u = 1 ∧ d.beatSeen = true ∧
    (d.unit u).startAt < d.boundary ∧ (d.bs (pgSeq u) = Bs.idle ∨ d.bs (pgSeq u) = Bs.run) := by
  simp only [Dev.begins, Bool.and_eq_true, beq_iff_eq, decide_eq_true_eq, List.contains_cons, List.contains_nil, Bool.or_false, Bool.or_eq_true,
    and_assoc]

/-- The device in which a program begins, before its block is busy. -/
def Dev.programBegun (d : Dev) (u : Nat) : Dev :=
  (((((d.setUnit u { d.unit u with loops := [], bundle := [], ending := false, winBeat := d.beatNum }).wr Reg.SEQ_STATE_SEQ u 2).wr Reg.SEQ_STATE_PC u
    (d.rd Reg.SEQ_PROG_ENTRY u)).wr Reg.SEQ_STATE_LOOPS u 0).setReqs (pgSeq u) 1 (d.info (pgSeq u)).reqOut)

theorem Dev.programStart_begins {d : Dev} {u : Nat} (h : d.begins u = true) : Dev.programStart u d = (d.programBegun u).busy (pgSeq u) :=
  if_pos h

theorem Dev.programBegun_seqState (d : Dev) (u : Nat) : (d.programBegun u).seqState u = 2 := by
  rw [Dev.seqState, Dev.programBegun, Dev.rd_setReqs_body _ _ _ _ _ (by decide), Dev.rd_wr_apart _ _ _ _ (by decide),
    Dev.rd_wr_apart _ _ _ _ (by decide)]
  exact Dev.rd_wr_same (f := Reg.SEQ_STATE_SEQ) _ _ _ (by decide) (by decide)

theorem Dev.programBegun_pc (d : Dev) (u : Nat) :
    (d.programBegun u).rd Reg.SEQ_STATE_PC u = d.rd Reg.SEQ_PROG_ENTRY u % 2 ^ Reg.SEQ_STATE_PC.width := by
  rw [Dev.programBegun, Dev.rd_setReqs_body _ _ _ _ _ (by decide), Dev.rd_wr_apart _ _ _ _ (by decide)]
  exact Dev.rd_wr_same (f := Reg.SEQ_STATE_PC) _ _ _ (by decide) (by decide)

theorem Dev.programBegun_unit (d : Dev) (u : Nat) :
    (d.programBegun u).unit u = { d.unit u with loops := [], bundle := [], ending := false, winBeat := d.beatNum } := SMap.at_put_same _ _ _ _

theorem Dev.programBegun_bs (d : Dev) (u pg : Nat) : (d.programBegun u).bs pg = d.bs pg := by
  rw [Dev.programBegun, Dev.bs_setReqs, Dev.bs_wr_body _ _ _ _ (by decide), Dev.bs_wr_body _ _ _ _ (by decide), Dev.bs_wr_body _ _ _ _ (by decide)]
  rfl

/-- A program that begins. -/
theorem exec_programStart {s : State} {u : BitVec 12} (hb : s.dev.begins u.toNat = true) : ∃ t, exec (.programStart u) s = .next t ∧ t.mem = s.mem ∧
    t.pending = s.pending ∧ t.dev.seqState u.toNat = 2 ∧
    t.dev.rd Reg.SEQ_STATE_PC u.toNat = s.dev.rd Reg.SEQ_PROG_ENTRY u.toNat % 2 ^ Reg.SEQ_STATE_PC.width ∧
    (t.dev.unit u.toNat).loops = [] ∧ (t.dev.unit u.toNat).bundle = [] ∧ t.dev.bs (pgSeq u.toNat) = Bs.run ∧
    (t.dev.unit u.toNat).vregs = (s.dev.unit u.toNat).vregs ∧ (t.dev.unit u.toNat).sregs = (s.dev.unit u.toNat).sregs ∧
    (t.dev.unit u.toNat).mregs = (s.dev.unit u.toNat).mregs := by
  have hexec : exec (.programStart u) s = s.ends ((s.dev.start.programBegun u.toNat).busy (pgSeq u.toNat)) :=
    congrArg s.ends (Dev.programStart_begins hb)
  have hunit := (Dev.unit_congr (Dev.busy_units (s.dev.start.programBegun u.toNat) (pgSeq u.toNat)) u.toNat).trans
    (s.dev.start.programBegun_unit u.toNat)
  have hbs := ((s.dev.start.begins_iff _).mp hb).2.2.2.2
  rw [← s.dev.start.programBegun_bs u.toNat] at hbs
  have hkept {α : Type} (p : UnitSt → α) := congrArg p hunit
  refine ⟨s.after _, hexec, rfl, rfl, ?_⟩
  rw [State.after_seqState, State.after_rd, State.after_unit, State.after_bs, Dev.seqState, Dev.rd_busy_body _ _ _ (by decide),
    Dev.rd_busy_body _ _ _ (by decide)]
  exact ⟨s.dev.start.programBegun_seqState _, s.dev.start.programBegun_pc _, hkept UnitSt.loops, hkept UnitSt.bundle, Dev.bs_busy _ _ hbs,
    hkept UnitSt.vregs, hkept UnitSt.sregs, hkept UnitSt.mregs⟩

theorem Dev.stopUnit_loops (d : Dev) (u cause : Nat) : ((d.stopUnit u cause).unit u).loops = (d.unit u).loops := by
  unfold Dev.stopUnit
  split
  · rfl
  · refine (congrArg UnitSt.loops (SMap.at_put_same _ _ _ _)).trans ?_
    rfl

/-- Settles O33: `Dev.programStart_begins` with what the begun program leaves, `Dev.stopUnit_stopped` and `Dev.stopUnit_kept` for the stops. -/
theorem programStarts : Obligations.ProgramStarts := by
  refine ⟨?_, ?_, ?_⟩
  · intro s u e pc w read
    refine ⟨fun hi => congrArg s.ends (if_pos (congrArg (! ·) hi)), fun hi he => ⟨fun hok hloop => ?_, fun hbad => ?_⟩, fun hi he => ?_⟩
    all_goals
      have hi' : ¬ (! s.dev.start.issuing u.toNat [2]) = true := by
        have hi' : s.dev.start.issuing u.toNat [2] = true := hi
        simp [hi']
    · exact congrArg s.ends ((if_neg hi').trans ((if_neg he).trans (if_pos (Bool.and_eq_true_iff.mpr ⟨hok, hloop⟩))))
    · refine congrArg s.ends ((if_neg hi').trans ((if_neg he).trans (if_neg ?_)))
      rw [Bool.and_eq_true_iff]
      rintro ⟨hok, hloop⟩
      rcases hbad with h | h
      · exact Bool.false_ne_true (h.symm.trans hok)
      · exact Bool.false_ne_true (h.symm.trans hloop)
    · exact congrArg s.ends ((if_neg hi').trans (if_pos he))
  · intro s r u st x begins
    have hbegins : begins ↔ s.dev.start.begins u.toNat = true := (s.dev.start.begins_iff u.toNat).symm
    refine ⟨fun hacc => ⟨fun hw => work_refused s r _ _ _ hacc hw, fun hw => ?_⟩, fun hno => ?_, fun hyes => ?_⟩
    · refine ⟨fun h => ?_, fun h => ?_, fun h2 h5 => ?_⟩
      all_goals refine (work_ok s r (pgSeq u.toNat) 0x08C (Dev.seqStart u.toNat) hacc hw).trans ?_
      · exact congrArg (fun x : Nat × Dev => s.ends (x.2.done x.1)) (if_pos h)
      · exact congrArg (fun x : Nat × Dev => s.ends (x.2.done x.1)) (seqStart_of_asked (d := s.dev.start) h)
      · exact congrArg (fun x : Nat × Dev => s.ends (x.2.done x.1)) (seqStart_of_run (d := s.dev.start) h2 h5)
    · exact congrArg s.ends (if_neg fun h => hno (hbegins.mpr h))
    · exact exec_programStart (hbegins.mp hyes)
  · intro d u cause hcause
    have hkept := Dev.stopUnit_kept d u cause
    refine ⟨fun h => if_pos h, fun h => ⟨(d.stopUnit_stopped u cause h).1, ?_, d.stopUnit_bundle u cause h⟩, hkept.vregs, hkept.sregs, hkept.mregs,
      d.stopUnit_loops u cause, hkept.others, d.stopUnit_writes u cause⟩
    rw [(d.stopUnit_stopped u cause h).2]
    exact Nat.mod_eq_of_lt (Nat.lt_of_lt_of_le hcause (by decide))

/-! ## The M slot (R188) -/

@[simp] theorem Dev.istoreUerr_writes (d : Dev) (u : Nat) : (d.istoreUerr u).writes = d.writes := by
  simp [Dev.istoreUerr, Dev.uerrCount]

/-- What reading a segment descriptor leaves. -/
def segRead (u : Nat) (e : Ecc) (d : Dev) : Dev := if e = .corrected then d.correctedError (pgIstore u) 0 else d

@[simp] theorem segRead_writes (u : Nat) (e : Ecc) (d : Dev) : (segRead u e d).writes = d.writes := by
  unfold segRead
  split <;> simp

section Mpass
variable {m : Mem} {u : Nat} {f : MSlot} {e : Ecc} {d : Dev} (hw : d.matrixWaits u = false) (horigin : d.isOrigin u (ofB f.arr) = true)
include hw horigin

/-- MPASS in a gang's leader. -/
theorem mpass_leads : Dev.mpass m u f e d =
    if e = .uncorrectable then .stop (Dev.istoreUerr · u)
    else if d.rd Reg.SEQ_IMG_HI u < d.rd Reg.SEQ_PROG_SEG_BASE u + f.seg.toNat ∨ d.rd Reg.SEQ_PROG_SEG_BASE u + f.seg.toNat < d.rd Reg.SEQ_IMG_LO u ∨
      ! Sd.ok (segDesc m u (d.rd Reg.SEQ_PROG_SEG_BASE u + f.seg.toNat)) then .illegal
    else if 2 ≤ ((d.unit u).passQ (ofB f.arr)).length then .hold Reg.SEQ_STALL_M id
    else if f.isOpen then .issue [] (fun x => (segRead u e x).setUnit u (((segRead u e x).unit u).setPassQ (ofB f.arr) ((d.unit u).passQ (ofB f.arr) ++
        [⟨d.rd Reg.SEQ_PROG_SEG_BASE u + f.seg.toNat, ofB f.set, f.isOpen, f.isClose, (d.unit u).srTensor, (d.unit u).srIndex⟩]))) id
    else match (d.unit u).openSeg (ofB f.arr) (ofB f.set) with
      | none => .issue [] (fun x => (segRead u e x).setNotOpen u (ofB f.arr) (ofB f.set)) id
      | some s => if s = d.rd Reg.SEQ_PROG_SEG_BASE u + f.seg.toNat then
            .issue [] (fun x => (segRead u e x).setUnit u (((segRead u e x).unit u).setPassQ (ofB f.arr) ((d.unit u).passQ (ofB f.arr) ++
              [⟨d.rd Reg.SEQ_PROG_SEG_BASE u + f.seg.toNat, ofB f.set, f.isOpen, f.isClose, (d.unit u).srTensor, (d.unit u).srIndex⟩]))) id
          else .issue [] (fun x => (segRead u e x).raise (pgSeq u) 0x0403 10 Sev.warn
            (d.rd Reg.SEQ_STATE_PC u + 65536 * ((d.rd Reg.SEQ_PROG_SEG_BASE u + f.seg.toNat) % 65536))) id :=
  (if_neg (Bool.eq_false_iff.mp hw)).trans ((if_neg (by simp [horigin])).trans rfl)

end Mpass

/-- Settles O35: one case of MPASS and MFENCE each. -/
theorem matrixSlots : Obligations.MatrixSlots := by
  intro s u f e arr set x pc seg inImage read warn o1 o2
  have hreads (d : Dev) : (read d).writes = d.writes := segRead_writes u.toNat e d
  have hout : ¬ inImage ↔ s.dev.rd Reg.SEQ_IMG_HI u.toNat < seg ∨ seg < s.dev.rd Reg.SEQ_IMG_LO u.toNat ∨ (! Sd.ok (segDesc s.mem u.toNat seg)) = true := by
    simp only [inImage, not_and_or, Nat.not_le, Bool.not_eq_true, Bool.not_eq_true']
    tauto
  have hfence (hw : s.dev.matrixWaits u.toNat = false) (horigin : s.dev.isOrigin u.toNat arr = true) : Dev.mfence u.toNat f s.dev.start =
      if (! (x.passQ arr).isEmpty || (x.seg arr 0).st != 0 || (x.seg arr 1).st != 0) = true then .hold Reg.SEQ_STALL_M id
      else .issue [] (fun d => d.setUnit u.toNat ((d.unit u.toNat).setInFlight arr none)) id :=
    (if_neg (Bool.eq_false_iff.mp hw)).trans (if_neg (Bool.eq_false_iff.mp (congrArg (! ·) horigin)))
  have hfree : (! (x.passQ arr).isEmpty || (x.seg arr 0).st != 0 || (x.seg arr 1).st != 0) = true ↔
      x.passQ arr ≠ [] ∨ (x.seg arr 0).st ≠ 0 ∨ (x.seg arr 1).st ≠ 0 := by
    simp only [Bool.or_eq_true, Bool.not_eq_true', List.isEmpty_eq_false_iff, bne_iff_ne, or_assoc]
  refine ⟨fun hruns hw horigin he himage => ?_, fun hruns hw horigin => ⟨fun he => ?_, fun he himage => ?_⟩,
    fun hruns hw horigin => ⟨fun hq h0 h1 => ?_, fun hbusy => ?_⟩, ?_⟩
  · have hlead := (mpass_leads (m := s.mem) (e := e) (d := s.dev.start) hw horigin).trans ((if_neg he).trans (if_neg fun h => hout.mpr h himage))
    refine ⟨fun hq hopen => ?_, fun hq hopen hseg => ?_, fun other hq hopen hseg hne => ?_, fun hq => ?_⟩
    · refine slot_issues s u (.m 1 f e) [] _ id rfl hruns (hlead.trans ((if_neg (Nat.not_le.mpr hq)).trans ?_)) hreads fun _ => rfl
      rcases hopen with hopen | hseg
      · exact if_pos hopen
      · by_cases hopen : f.isOpen = true
        · exact if_pos hopen
        · refine (if_neg hopen).trans ?_
          have hseg' : (s.dev.start.unit u.toNat).openSeg arr set = some seg := hseg
          simp only [arr, set] at hseg'
          simp only [hseg']
          exact if_pos rfl
    · have hseg' : (s.dev.start.unit u.toNat).openSeg (ofB f.arr) (ofB f.set) = none := hseg
      refine slot_issues s u (.m 1 f e) [] _ id rfl hruns
        (hlead.trans ((if_neg (Nat.not_le.mpr hq)).trans ((if_neg (Bool.eq_false_iff.mp hopen)).trans ?_)))
        (fun d => (Dev.raise_writes ..).trans (hreads d)) fun _ => rfl
      simp only [hseg']
      rfl
    · have hseg' : (s.dev.start.unit u.toNat).openSeg (ofB f.arr) (ofB f.set) = some other := hseg
      refine slot_issues s u (.m 1 f e) [] _ id rfl hruns
        (hlead.trans ((if_neg (Nat.not_le.mpr hq)).trans ((if_neg (Bool.eq_false_iff.mp hopen)).trans ?_)))
        (fun d => (Dev.raise_writes ..).trans (hreads d)) fun _ => rfl
      simp only [hseg']
      exact if_neg hne
    · exact slot_holds s u (.m 1 f e) _ id rfl hruns (hlead.trans (if_pos hq)) fun _ => rfl
  · exact slot_stops s u (.m 1 f e) _ rfl hruns ((mpass_leads (m := s.mem) (d := s.dev.start) hw horigin).trans (if_pos he)) fun d => by simp
  · exact slot_illegal s u (.m 1 f e) hruns.alone hruns.issuing
      (.inl ((mpass_leads (m := s.mem) (d := s.dev.start) hw horigin).trans ((if_neg he).trans (if_pos (hout.mp himage)))))
  · refine slot_issues s u (.m 2 f .ok) [] _ id rfl hruns ((hfence hw horigin).trans (if_neg ?_)) (fun _ => rfl) fun _ => rfl
    rw [hfree]
    tauto
  · exact slot_holds s u (.m 2 f .ok) _ id rfl hruns ((hfence hw horigin).trans (if_pos (hfree.mpr hbusy))) fun _ => rfl
  · refine List.forall_mem_cons.2 ⟨fun hruns => ⟨fun hw => ?_, fun hw horigin => ?_⟩,
      List.forall_mem_singleton.2 fun hruns => ⟨fun hw => ?_, fun hw horigin => ?_⟩⟩
    · exact slot_holds s u (.m 1 f e) _ id rfl hruns (if_pos hw) fun _ => rfl
    · exact slot_issues s u (.m 1 f e) [] _ id rfl hruns
        ((if_neg (Bool.eq_false_iff.mp hw)).trans (if_pos (congrArg (! ·) horigin))) (fun d => Dev.raise_writes ..) fun _ => rfl
    · exact slot_holds s u (.m 2 f .ok) _ id rfl hruns (if_pos hw) fun _ => rfl
    · exact slot_issues s u (.m 2 f .ok) [] _ id rfl hruns
        ((if_neg (Bool.eq_false_iff.mp hw)).trans (if_pos (congrArg (! ·) horigin))) (fun d => Dev.raise_writes ..) fun _ => rfl

/-! ## An uncorrectable line of a fill -/

/-- The bytes of an undefined line. -/
def freeLine (n : Nat) : List Byte := (List.range 64).map fun i => Config.freeByte (n + i)

/-- R216: an uncorrectable line of a larder holds no defined value any more. -/
theorem Dev.larderUerr_writes (d : Dev) (r line : Nat) :
    (d.larderUerr r line).writes = d.writes ++ [.write (larderBase r + 64 * line) (freeLine d.free)] := by
  have hundefined : (((d.uncorrectable (pgLarder r) 0).wr Reg.LARDER_LAST_UERR r line).undefine (larderBase r + 64 * line) 64).writes =
      d.writes ++ [.write (larderBase r + 64 * line) (freeLine d.free)] := by
    have hfree : (d.uncorrectable (pgLarder r) 0).free = d.free := by simp [Dev.uncorrectable, Dev.uerrCount]
    have hwrites := Dev.uncorrectable_writes d (pgLarder r) 0
    rw [Dev.undefine, Dev.freeBytes, Dev.poke, Dev.wr_writes, Dev.wr_free, hfree, hwrites]
    rfl
  unfold Dev.larderUerr
  simp only
  split
  · rw [Dev.raise_writes, Dev.wr_writes, Dev.wr_writes, Dev.wr_writes, Dev.spoil_writes, hundefined]
  · rw [Dev.retireDue, Dev.retire_writes, Dev.raise_writes, Dev.spoil_writes, hundefined]

/-- The instruction store of unit 0 is being filled with one slot from the first larder, whose first byte is not the one that the part would put
in its place. -/
def uncorrectableFill : State :=
  { mem := [(2 ^ 33, Config.freeByte 0 + 1)], pending := [], dev := { units := [(0, { fill := some (0, 0, 1, 0) })] } }

theorem uncorrectableFill_writes : (Dev.fillComplete uncorrectableFill.mem 0 .uncorrectable 0 uncorrectableFill.dev.start).writes =
    [.write (2 ^ 33) (freeLine 0), .write (2 ^ 32) []] := by
  have hlarder := Dev.larderUerr_writes uncorrectableFill.dev.start 0 0
  have hfill : Dev.fillComplete uncorrectableFill.mem 0 .uncorrectable 0 uncorrectableFill.dev.start =
      (((uncorrectableFill.dev.start.larderUerr 0 0).poke (2 ^ 32) []).fillOver 0).fillFail 0 4 := rfl
  rw [hfill, Dev.fillFail, Dev.raise_writes, Dev.wr_writes, Dev.wr_writes, Dev.fillOver, Dev.idle_writes, Dev.setReqs_writes, Dev.setUnit_writes,
    Dev.poke, hlarder]
  rfl

/-- After the fill the first byte of the larder has the part's value. -/
theorem uncorrectableFill_read : Mem.read (Mem.apply uncorrectableFill.mem [.write (2 ^ 33) (freeLine 0), .write (2 ^ 32) []]) (2 ^ 33) =
    Config.freeByte 0 := by
  have hlen : 0 < (freeLine 0).length := by simp [freeLine]
  have hin := Mem.read_writeAll_in (freeLine 0) uncorrectableFill.mem (2 ^ 33) 0 hlen
  simp only [freeLine, List.getElem_map, List.getElem_range, Nat.add_zero] at hin
  exact hin

theorem uncorrectableFill_before : Mem.read uncorrectableFill.mem (2 ^ 33) = Config.freeByte 0 + 1 := by
  simp [uncorrectableFill, Mem.read, SMap.at, SMap.find]

/-- Refutes O34: an uncorrectable line of the larder that a fill reads is undefined afterwards (R216), so the fill changes bytes of the larder too,
and not only the slots before the line. -/
theorem not_instructionFill : ¬ Obligations.InstructionFill := by
  intro h
  obtain ⟨-, -, hline, -⟩ := h uncorrectableFill .packageManager 0 .uncorrectable 0
  obtain ⟨t, hexec, -, hmem, -⟩ := (hline 0 0 1 0 rfl).2 rfl
  have hends : exec (.istoreFillComplete 0 .uncorrectable 0) uncorrectableFill =
      uncorrectableFill.endsStore (Dev.fillComplete uncorrectableFill.mem 0 .uncorrectable 0 uncorrectableFill.dev.start) := rfl
  have hnext : t.mem = Mem.apply uncorrectableFill.mem [.write (2 ^ 33) (freeLine 0), .write (2 ^ 32) []] :=
    (congrArg State.mem (Host.Outcome.next.inj (hends.symm.trans hexec))).symm.trans
      (congrArg (Mem.apply uncorrectableFill.mem) uncorrectableFill_writes)
  have hkept : t.mem = uncorrectableFill.mem := hmem
  have hbyte : Config.freeByte 0 = Config.freeByte 0 + 1 :=
    uncorrectableFill_read.symm.trans ((congrArg (Mem.read · (2 ^ 33)) (hnext.symm.trans hkept)).trans uncorrectableFill_before)
  exact absurd hbyte (by bv_omega)

end Sys2Proof.Machine

/-! Passes that enter a gang and sets that drain (O36). -/

namespace Sys2Proof.Machine

/-! ## What an update of one unit leaves of the units -/

theorem Dev.unit_setUnit_keeps {α : Type} (p : UnitSt → α) (d : Dev) {u v : Nat} {x : UnitSt} (h : p x = p (d.unit v)) :
    p ((d.setUnit v x).unit u) = p (d.unit u) := by
  by_cases huv : u = v
  · rw [huv, Dev.unit_setUnit, h]
  · rw [Dev.unit_setUnit_ne _ _ huv]

@[simp] theorem Dev.matrixView_units (d : Dev) (u : Nat) : (d.matrixView u).units = d.units := by
  unfold Dev.matrixView
  simp only [apply_ite Dev.units, Dev.busy_units, Dev.idle_units, Dev.setReqs_units, Dev.wr_units, ite_self]

@[simp] theorem Dev.matrixView_unit (d : Dev) (u v : Nat) : (d.matrixView u).unit v = d.unit v := Dev.unit_congr (d.matrixView_units u) v

theorem Dev.matrixViews_unit (us : List Nat) (d : Dev) (v : Nat) : (us.foldl Dev.matrixView d).unit v = d.unit v :=
  foldl_keeps (Dev.unit · v) Dev.matrixView (fun d u => d.matrixView_unit u v) us d

section
variable {α : Type} (p : UnitSt → α) (d : Dev)

/-- A pass that is counted changes only how long its units are busy. -/
theorem Dev.passCounted_keeps (hp : ∀ (x : UnitSt) n, p { x with busyTo := n } = p x) (f e stall u v : Nat) :
    p ((d.passCounted f e stall u).unit v) = p (d.unit v) := by
  rw [← Dev.unit_setUnit_keeps p d (u := v) (hp (d.unit u) (max (d.unit u).busyTo e))]
  rfl

/-- A set that takes an entry changes only the cloth queue. -/
theorem Dev.takeEntry_keeps (hp : ∀ (x : UnitSt) e k, p (x.setEntry e k) = p x) (u arr set v : Nat) :
    p (((d.takeEntry u arr set).getD d).unit v) = p (d.unit v) := by
  unfold Dev.takeEntry
  simp only
  split
  · rfl
  · split
    · rfl
    · rw [Option.getD_some, Dev.matrixView_unit]
      exact Dev.unit_setUnit_keeps p d (hp _ _ _)

end

/-! ## The parts of a unit -/

theorem UnitSt.acc_setAcc (x : UnitSt) (arr set : Nat) (v : AccSet) : (x.setAcc arr set v).acc arr set = v := SMap.at_put_same _ _ _ _
theorem UnitSt.seg_setSeg (x : UnitSt) (arr set : Nat) (v : SegSet) : (x.setSeg arr set v).seg arr set = v := SMap.at_put_same _ _ _ _
theorem UnitSt.entry_setEntry (x : UnitSt) (e : Nat) (v : CqEntry) : (x.setEntry e v).entry e = v := SMap.at_put_same _ _ _ _
theorem UnitSt.entry_setEntry_ne (x : UnitSt) {e k : Nat} (v : CqEntry) (h : k ≠ e) : (x.setEntry e v).entry k = x.entry k :=
  SMap.at_put_ne _ _ _ h

theorem UnitSt.passQ_setPassQ (x : UnitSt) (arr : Nat) (q : List PassReq) : (x.setPassQ arr q).passQ arr = q := by
  unfold UnitSt.passQ UnitSt.setPassQ
  split <;> rfl

theorem UnitSt.passQ_setInFlight (x : UnitSt) (arr a : Nat) (q : Option (Nat × Nat)) : (x.setInFlight arr q).passQ a = x.passQ a := by
  unfold UnitSt.setInFlight
  split <;> rfl

theorem UnitSt.accs_setInFlight (x : UnitSt) (arr : Nat) (q : Option (Nat × Nat)) : (x.setInFlight arr q).accs = x.accs := by
  unfold UnitSt.setInFlight
  split <;> rfl

theorem UnitSt.accs_setPassQ (x : UnitSt) (arr : Nat) (q : List PassReq) : (x.setPassQ arr q).accs = x.accs := by
  unfold UnitSt.setPassQ
  split <;> rfl

/-! ## A pass that enters -/

/-- The segment that a pass continues or opens, and its descriptor. -/
def passDesc (m : Mem) (u : Nat) (p : PassReq) (sg : SegSet) : Nat := if p.isOpen then segDesc m u p.seg else sg.desc
def passSeg (m : Mem) (u : Nat) (p : PassReq) (sg : SegSet) : SegSet :=
  if p.isOpen then { st := 1, seg := p.seg, desc := passDesc m u p sg, j := 0, closing := false, srTensor := p.srTensor, srIndex := p.srIndex } else sg

/-- The accumulator set of one gang column after the rows of a pass. -/
def Dev.passColumn (m : Mem) (u arr : Nat) (g : Gang) (p : PassReq) (sg : SegSet) (desc : Nat) (d : Dev) (gcol : Nat) : Dev :=
  let b := d.atPos (clusterOf u) (g.row + g.gr - 1) (g.col + gcol)
  let y := d.unit b.1
  let cp := Sd.mode desc == 3
  let fresh := p.isOpen || cp
  let s0 := if fresh then { leader := u, lArr := arr, set := p.set, gcol := gcol, srTensor := sg.srTensor, srIndex := sg.srIndex : AccSet } else y.acc b.2 p.set
  let s1 := d.passRows m (d.passCtx (clusterOf u) g desc sg.j p.isClose gcol sg.srTensor sg.srIndex) fresh (List.range (Sd.rows desc)) s0
  let s1 := { s1 with rows := Sd.rows desc, seg := p.seg, desc := desc, jLast := sg.j, draining := p.isClose || cp, cpPass := cp && ! p.isClose,
                      closed := p.isClose, nextTile := 0 }
  d.setUnit b.1 (y.setAcc b.2 p.set s1)

theorem Dev.passGo_eq (m : Mem) (u arr : Nat) (e : Ecc) (g : Gang) (p : PassReq) (rest : List PassReq) (d : Dev) : ∃ (f : Nat × Nat) (n k : Nat),
    d.passGo m u arr e g p rest =
      let sg := passSeg m u p ((d.unit u).seg arr p.set)
      let desc := passDesc m u p ((d.unit u).seg arr p.set)
      let d1 := (List.range g.gc).foldl (Dev.passColumn m u arr g p sg desc) d
      let us := d1.gangUnits (clusterOf u) g
      (d.bottoms (clusterOf u) g).foldl (fun d b => (d.takeEntry b.1 b.2 p.set).getD d) (us.foldl Dev.matrixView
        ((us.foldl (Dev.passCounted · f.1 n f.2 ·) (d1.setUnit u ((((d1.unit u).setPassQ arr rest).setInFlight arr (some (f.1, k))).setSeg arr p.set
          { sg with j := sg.j + 1, st := if p.isClose then 2 else 1 }))).lsEcc e u (Sd.mbase desc))) :=
  ⟨_, _, _, rfl⟩

/-- What the tail of a pass leaves: everything of the units but the cloth queues and how long the arrays are busy. -/
theorem Dev.passGo_keeps {α : Type} (q : UnitSt → α) (hbusy : ∀ (x : UnitSt) n, q { x with busyTo := n } = q x)
    (hentry : ∀ (x : UnitSt) e k, q (x.setEntry e k) = q x) (m : Mem) (u arr : Nat) (g : Gang) (p : PassReq) (rest : List PassReq) (d : Dev) (v : Nat) :
    ∃ (inFlight : Option (Nat × Nat)), let sg := passSeg m u p ((d.unit u).seg arr p.set)
      let d1 := (List.range g.gc).foldl (Dev.passColumn m u arr g p sg (passDesc m u p ((d.unit u).seg arr p.set))) d
      q ((d.passGo m u arr .ok g p rest).unit v) = q ((d1.setUnit u ((((d1.unit u).setPassQ arr rest).setInFlight arr inFlight).setSeg arr p.set
        { sg with j := sg.j + 1, st := if p.isClose then 2 else 1 })).unit v) := by
  obtain ⟨f, n, k, hgo⟩ := d.passGo_eq m u arr .ok g p rest
  refine ⟨some (f.1, k), ?_⟩
  rw [hgo]
  simp only
  rw [foldl_keeps (fun d => q (d.unit v)) (fun d (b : Nat × Nat) => (d.takeEntry b.1 b.2 p.set).getD d) fun d b => d.takeEntry_keeps q hentry _ _ _ _]
  simp only [Dev.lsEcc, Dev.matrixViews_unit]
  exact foldl_keeps (fun d => q (d.unit v)) (Dev.passCounted · f.1 n f.2 ·) (fun d w => d.passCounted_keeps q hbusy _ _ _ _ _) _ _

section PassGo
variable (m : Mem) (u arr : Nat) (g : Gang) (p : PassReq) (rest : List PassReq) (d : Dev)

theorem Dev.passGo_passQ : ((d.passGo m u arr .ok g p rest).unit u).passQ arr = rest := by
  obtain ⟨i, h⟩ := d.passGo_keeps (·.passQ arr) (fun _ _ => rfl) (fun _ _ _ => rfl) m u arr g p rest u
  refine h.trans ?_
  rw [Dev.unit_setUnit]
  exact (UnitSt.passQ_setInFlight _ _ _ _).trans (UnitSt.passQ_setPassQ _ _ _)

theorem Dev.passGo_seg : ((d.passGo m u arr .ok g p rest).unit u).seg arr p.set =
    { passSeg m u p ((d.unit u).seg arr p.set) with j := (passSeg m u p ((d.unit u).seg arr p.set)).j + 1, st := if p.isClose then 2 else 1 } := by
  obtain ⟨i, h⟩ := d.passGo_keeps (·.seg arr p.set) (fun _ _ => rfl) (fun _ _ _ => rfl) m u arr g p rest u
  refine h.trans ?_
  rw [Dev.unit_setUnit]
  exact UnitSt.seg_setSeg _ _ _ _

/-- In a gang of one column the accumulator set of the bottom array holds the rows of the pass. -/
theorem Dev.passGo_acc (hgc : g.gc = 1) :
    let b := d.atPos (clusterOf u) (g.row + g.gr - 1) g.col
    let desc := passDesc m u p ((d.unit u).seg arr p.set)
    let z := ((d.passGo m u arr .ok g p rest).unit b.1).acc b.2 p.set
    z.rows = Sd.rows desc ∧ z.seg = p.seg ∧ z.nextTile = 0 ∧ z.draining = (p.isClose || Sd.mode desc == 3) := by
  intro b desc z
  obtain ⟨i, h⟩ := d.passGo_keeps (·.acc b.2 p.set) (fun _ _ => rfl) (fun _ _ _ => rfl) m u arr g p rest b.1
  have hcolumn : (List.range g.gc).foldl (Dev.passColumn m u arr g p (passSeg m u p ((d.unit u).seg arr p.set)) desc) d =
      Dev.passColumn m u arr g p (passSeg m u p ((d.unit u).seg arr p.set)) desc d 0 := by rw [hgc]; rfl
  have hz : z = ((Dev.passColumn m u arr g p (passSeg m u p ((d.unit u).seg arr p.set)) desc d 0).unit b.1).acc b.2 p.set := by
    refine h.trans ?_
    rw [Dev.unit_setUnit_keeps (·.acc b.2 p.set), hcolumn]
    have haccs (x : UnitSt) : (((x.setPassQ arr rest).setInFlight arr i).setSeg arr p.set
        { passSeg m u p ((d.unit u).seg arr p.set) with
          j := (passSeg m u p ((d.unit u).seg arr p.set)).j + 1, st := if p.isClose then 2 else 1 }).accs = x.accs :=
      (UnitSt.accs_setInFlight _ _ _).trans (UnitSt.accs_setPassQ _ _ _)
    exact congrArg (SMap.at · (segKey b.2 p.set) {}) (haccs _)
  have hpos : d.atPos (clusterOf u) (g.row + g.gr - 1) (g.col + 0) = b := rfl
  rw [hz, Dev.passColumn]
  simp only [hpos, Dev.unit_setUnit, UnitSt.acc_setAcc]
  exact ⟨trivial, trivial, trivial, trivial⟩

end PassGo

/-! ## Sets that drain -/

/-- A set takes only FREE entries. -/
theorem Dev.takeEntry_entry (d : Dev) (u arr set : Nat) {v e : Nat} (h : ((d.unit v).entry e).st ≠ 0) :
    (((d.takeEntry u arr set).getD d).unit v).entry e = (d.unit v).entry e := by
  unfold Dev.takeEntry
  simp only
  split
  · rfl
  · split
    · rfl
    next k ks hfree =>
      have hk : ((d.unit u).entry k).st = 0 := by
        have hmem : k ∈ (d.unit u).inState 0 := hfree ▸ List.mem_cons_self ..
        exact beq_iff_eq.mp (List.mem_filter.mp hmem).2
      rw [Option.getD_some, Dev.matrixView_unit]
      by_cases huv : v = u
      · subst huv
        rw [Dev.unit_setUnit, UnitSt.entry_setEntry_ne _ _ fun hek => h (by rw [hek]; exact hk)]
      · rw [Dev.unit_setUnit_ne _ _ huv]

/-- A set that is freed changes only a segment of its leader. -/
theorem Dev.setFreed_keeps {α : Type} (q : UnitSt → α) (hq : ∀ (x : UnitSt) a b s, q (x.setSeg a b s) = q x) (d : Dev) (s : AccSet) (set v : Nat) :
    q ((d.setFreed s set).unit v) = q (d.unit v) := by
  unfold Dev.setFreed
  simp only
  split
  · split
    · rfl
    · rw [Dev.matrixViews_unit]
      exact Dev.unit_setUnit_keeps q d (hq _ _ _ _)
  · rfl

/-- The device in which the tile that a set filled is WHOLE, and the set goes on or drains no more. -/
def Dev.tileWhole (d : Dev) (u arr set : Nat) (bad : Bool) (e : Nat) : Dev :=
  let x := d.unit u
  let s := x.acc arr set
  let fin := decide ((s.rows + 31) / 32 ≤ s.nextTile + 1)
  d.setUnit u ({ x.setEntry e { s.tile s.nextTile arr x.cqSeq false with eccBad := bad, set := set } with cqSeq := x.cqSeq + 1 }.setAcc arr set
    (if fin then { s with draining := false } else { s with nextTile := s.nextTile + 1 }))

/-- What follows the tile: its flags are counted, a drained set is freed, and the sets of the array take FREE entries. -/
theorem Dev.tileDrain_whole {d : Dev} {u arr set : Nat} {bad : Bool} {e : Nat} (hdraining : ((d.unit u).acc arr set).draining = true)
    (he : ((d.unit u).inState 1).find? (fun e => ((d.unit u).entry e).arr == arr && ((d.unit u).entry e).set == set) = some e) :
    Dev.tileDrain u arr set bad d =
      let n := (((d.unit u).acc arr set).tile ((d.unit u).acc arr set).nextTile arr (d.unit u).cqSeq false).flags
      let b := decide ((((d.unit u).acc arr set).rows + 31) / 32 ≤ ((d.unit u).acc arr set).nextTile + 1)
      let d0 := (List.range 13).foldl (fun d f => if bit n f then d.bump Reg.MATRIX_FLAG_CNT u 1 f else d) (d.tileWhole u arr set bad e)
      let d1 := (if b then d0.setFreed ((d.unit u).acc arr set) set else d0).matrixView u
      let d2 := (d1.takeEntry u arr set).getD d1
      (d2.takeEntry u arr (1 - set)).getD d2 := by
  simp only [Dev.tileDrain, Dev.tileWhole, hdraining, Bool.not_true, Bool.false_eq_true, if_false, he]

theorem Dev.tileDrain_keeps {α : Type} (q : UnitSt → α) (hseg : ∀ (x : UnitSt) a b s, q (x.setSeg a b s) = q x)
    {d : Dev} {u arr set : Nat} {bad : Bool} {e : Nat} (hdraining : ((d.unit u).acc arr set).draining = true)
    (he : ((d.unit u).inState 1).find? (fun e => ((d.unit u).entry e).arr == arr && ((d.unit u).entry e).set == set) = some e) :
    ∃ d1 : Dev, q (d1.unit u) = q ((d.tileWhole u arr set bad e).unit u) ∧ Dev.tileDrain u arr set bad d =
      let d2 := (d1.takeEntry u arr set).getD d1
      (d2.takeEntry u arr (1 - set)).getD d2 := by
  refine ⟨_, ?_, Dev.tileDrain_whole (bad := bad) hdraining he⟩
  rw [Dev.matrixView_unit, apply_ite Dev.unit, ite_apply, apply_ite q, Dev.setFreed_keeps q hseg, ite_self]
  refine foldl_keeps (fun d => q (d.unit u)) _ (fun d f => ?_) _ _
  split <;> rfl

theorem Dev.tileWhole_unit (d : Dev) (u arr set : Nat) (bad : Bool) (e : Nat) : (d.tileWhole u arr set bad e).unit u =
    { (d.unit u).setEntry e { ((d.unit u).acc arr set).tile ((d.unit u).acc arr set).nextTile arr (d.unit u).cqSeq false with eccBad := bad, set := set }
      with cqSeq := (d.unit u).cqSeq + 1 }.setAcc arr set
    (if decide ((((d.unit u).acc arr set).rows + 31) / 32 ≤ ((d.unit u).acc arr set).nextTile + 1) = true then
      { (d.unit u).acc arr set with draining := false } else { (d.unit u).acc arr set with nextTile := ((d.unit u).acc arr set).nextTile + 1 }) :=
  Dev.unit_setUnit _ _ _

section TileDrain
variable {d : Dev} {u arr set : Nat} (bad : Bool) {e : Nat} (hdraining : ((d.unit u).acc arr set).draining = true)
  (he : ((d.unit u).inState 1).find? (fun e => ((d.unit u).entry e).arr == arr && ((d.unit u).entry e).set == set) = some e)
include hdraining he

theorem Dev.tileDrain_entry : ((Dev.tileDrain u arr set bad d).unit u).entry e =
    { ((d.unit u).acc arr set).tile ((d.unit u).acc arr set).nextTile arr (d.unit u).cqSeq false with eccBad := bad, set := set } := by
  obtain ⟨d1, hq, h⟩ := Dev.tileDrain_keeps (bad := bad) (·.entry e) (fun _ _ _ _ => rfl) hdraining he
  have hentry : (d1.unit u).entry e =
      { ((d.unit u).acc arr set).tile ((d.unit u).acc arr set).nextTile arr (d.unit u).cqSeq false with eccBad := bad, set := set } := by
    refine hq.trans ?_
    rw [Dev.tileWhole_unit]
    exact UnitSt.entry_setEntry _ _ _
  have hst : ((d1.unit u).entry e).st ≠ 0 := by
    rw [hentry]
    exact (by decide : 2 ≠ 0)
  rw [h]
  simp only
  rw [Dev.takeEntry_entry _ _ _ _ (by rwa [Dev.takeEntry_entry _ _ _ _ hst]), Dev.takeEntry_entry _ _ _ _ hst, hentry]

theorem Dev.tileDrain_parts : ((Dev.tileDrain u arr set bad d).unit u).cqSeq = (d.unit u).cqSeq + 1 ∧
    ((Dev.tileDrain u arr set bad d).unit u).acc arr set =
      if (((d.unit u).acc arr set).rows + 31) / 32 ≤ ((d.unit u).acc arr set).nextTile + 1 then { (d.unit u).acc arr set with draining := false }
      else { (d.unit u).acc arr set with nextTile := ((d.unit u).acc arr set).nextTile + 1 } := by
  obtain ⟨d1, hq, h⟩ := Dev.tileDrain_keeps (bad := bad) (fun x => (x.cqSeq, x.acc arr set)) (fun _ _ _ _ => rfl) hdraining he
  rw [Dev.tileWhole_unit] at hq
  obtain ⟨hseq, hacc⟩ := Prod.mk.inj hq
  have hkept := (Dev.takeEntry_keeps (fun x => (x.cqSeq, x.acc arr set)) _ (fun _ _ _ => rfl) u arr (1 - set) u).trans
    (Dev.takeEntry_keeps (fun x => (x.cqSeq, x.acc arr set)) d1 (fun _ _ _ => rfl) u arr set u)
  obtain ⟨hseq', hacc'⟩ := Prod.mk.inj hkept
  rw [h]
  refine ⟨hseq'.trans hseq, hacc'.trans (hacc.trans ?_)⟩
  rw [UnitSt.acc_setAcc]
  simp only [decide_eq_true_eq]

end TileDrain

/-- A set that drains and fills no tile: its next tile takes an entry, or waits. -/
theorem tileDrain_waits {u arr set : Nat} {bad : Bool} {d : Dev} (hdraining : ((d.unit u).acc arr set).draining = true)
    (he : ((d.unit u).inState 1).find? (fun e => ((d.unit u).entry e).arr == arr && ((d.unit u).entry e).set == set) = none) :
    Dev.tileDrain u arr set bad d = (d.takeEntry u arr set).getD (d.count Reg.MATRIX_CQ_STALL u) := by
  simp only [Dev.tileDrain, hdraining, Bool.not_true, Bool.false_eq_true, if_false, he]

/-- PASS_ENTRY without a waiting pass or a gang. -/
theorem passEntry_none {m : Mem} {u arr : Nat} {e : Ecc} {d : Dev} (h : (d.unit u).passQ arr = [] ∨ d.gangOf u arr = none) :
    Dev.passEntry m u arr e d = d := by
  rw [Dev.passEntry]
  rcases h with h | h
  · simp only [h]
  · cases hq : (d.unit u).passQ arr <;> simp only [hq, h]

/-- PASS_ENTRY of the oldest waiting pass of a gang. -/
theorem passEntry_some {m : Mem} {u arr : Nat} {e : Ecc} {d : Dev} {p : PassReq} {rest : List PassReq} {g : Gang}
    (hq : (d.unit u).passQ arr = p :: rest) (hg : d.gangOf u arr = some g) : Dev.passEntry m u arr e d =
    if (d.unit u).held || d.gangHeld u arr then d
    else if ((d.bottoms (clusterOf u) g).any fun b => ((d.unit b.1).acc b.2 p.set).draining) ||
        (p.isOpen && (((d.unit u).seg arr p.set).st == 2 || ((d.unit u).seg arr p.set).closing)) then d.count Reg.MATRIX_DRAIN_STALL u
    else if ! p.isOpen && ((d.unit u).seg arr p.set).st != 1 then (d.setUnit u ((d.unit u).setPassQ arr rest)).setNotOpen u arr p.set
    else d.passGo m u arr e g p rest := by
  rw [Dev.passEntry]
  simp only [hq, hg]

/-- Settles O36: `Dev.passGo_passQ`, `Dev.passGo_seg` and `Dev.passGo_acc` for the passes, `Dev.tileDrain_entry` and `Dev.tileDrain_parts` for the
tiles. -/
theorem passesAndDrains : Obligations.PassesAndDrains := by
  refine ⟨?_, ?_⟩
  · intro s u arr e p rest g a x sg c draining free waits enters
    have hfree : free ↔ (x.held || s.dev.gangHeld u.toNat a) = false := by simp [free]
    have hwaits : waits ↔ (draining || (p.isOpen && (sg.st == 2 || sg.closing))) = true := by
      simp only [waits, Bool.or_eq_true, Bool.and_eq_true, beq_iff_eq]
    refine ⟨fun h => ?_, fun hq hg => ?_⟩
    · refine congrArg s.ends (passEntry_none (d := s.dev.start) h)
    · have hentry := passEntry_some (m := s.mem) (e := e) (d := s.dev.start) hq hg
      have hgo (h : enters) : exec (.passEntry u arr e) s = s.ends (s.dev.start.passGo s.mem u.toNat a e g p rest) := by
        obtain ⟨hf, hw, hopen⟩ := h
        refine congrArg s.ends (hentry.trans ((if_neg (Bool.eq_false_iff.mp (hfree.mp hf))).trans ((if_neg fun h => hw (hwaits.mpr h)).trans (if_neg ?_))))
        rw [Bool.and_eq_true, Bool.not_eq_true', bne_iff_ne]
        rintro ⟨hclosed, hst⟩
        exact hopen.elim (fun h => Bool.false_ne_true (hclosed.symm.trans h)) hst
      refine ⟨fun hf => ?_, fun hf hw => ?_, fun hf hw hopen hst => ?_, hgo, fun _ he => ?_, fun _ he hgc => ?_⟩
      · exact congrArg s.ends (hentry.trans (if_pos (by rwa [hfree, Bool.not_eq_false] at hf)))
      · exact congrArg s.ends (hentry.trans ((if_neg (Bool.eq_false_iff.mp (hfree.mp hf))).trans (if_pos (hwaits.mp hw))))
      · refine congrArg s.ends (hentry.trans ((if_neg (Bool.eq_false_iff.mp (hfree.mp hf))).trans ((if_neg fun h => hw (hwaits.mpr h)).trans (if_pos ?_))))
        rw [Bool.and_eq_true, Bool.not_eq_true', bne_iff_ne]
        exact ⟨hopen, hst⟩
      · subst he
        have hseg := s.dev.start.passGo_seg s.mem u.toNat a g p rest
        refine ⟨s.dev.start.passGo_passQ s.mem u.toNat a g p rest, fun hopen => hseg.trans ?_, fun hopen => hseg.trans ?_⟩
        · rw [passSeg, if_pos hopen, passDesc, if_pos hopen]
        · rw [passSeg, if_neg (Bool.eq_false_iff.mp hopen)]
          rfl
      · subst he
        exact s.dev.start.passGo_acc s.mem u.toNat a g p rest hgc
  · intro s u arr set bad a x c mine filling
    refine ⟨fun hd => congrArg s.ends (if_pos (congrArg (! ·) hd)), fun hd hmine => ?_, fun e hd hmine => ?_⟩
    · have hdrain : Dev.tileDrain u.toNat a (ofB set) bad s.dev.start =
          (s.dev.start.takeEntry u.toNat a (ofB set)).getD (s.dev.start.count Reg.MATRIX_CQ_STALL u.toNat) :=
        tileDrain_waits (d := s.dev.start) hd hmine
      have htake : s.dev.start.takeEntry u.toNat a (ofB set) = if filling = true then some s.dev.start else match x.inState 0 with
          | [] => none
          | e :: _ => some ((s.dev.start.setUnit u.toNat (x.setEntry e
            { st := 1, arr := a, set := ofB set, tile := c.nextTile, seg := c.seg, leader := c.leader, lArr := c.lArr })).matrixView u.toNat) := by
        have hnot : (! c.draining) = false := congrArg (! ·) hd
        exact congrArg (fun b => if (b || filling) = true then some s.dev.start else _) hnot
      refine ⟨fun hf => congrArg s.ends (hdrain.trans ?_), fun hf h0 => congrArg s.ends (hdrain.trans ?_), fun e es hf h0 => congrArg s.ends (hdrain.trans ?_)⟩
      · rw [htake, if_pos hf]; rfl
      · rw [htake, if_neg (Bool.eq_false_iff.mp hf), h0]; rfl
      · rw [htake, if_neg (Bool.eq_false_iff.mp hf), h0]; rfl
    · have hentry := Dev.tileDrain_entry (d := s.dev.start) bad hd hmine
      obtain ⟨hseq, hacc⟩ := Dev.tileDrain_parts (d := s.dev.start) bad hd hmine
      have hexec : exec (.tileDrain u arr set bad) s = s.ends (Dev.tileDrain u.toNat a (ofB set) bad s.dev.start) := rfl
      refine ⟨s.after _, hexec, rfl, rfl, ?_⟩
      rw [State.after_unit]
      exact ⟨hentry, congrArg CqEntry.st hentry, hseq, hacc⟩

end Sys2Proof.Machine

/-! Tile checks, mismatches, recomputes and the array test (O37). -/

namespace Sys2Proof.Machine

theorem SMap.put_put {β : Type} (m : SMap β) (k : Nat) (a b : β) : SMap.put (SMap.put m k a) k b = SMap.put m k b := by
  induction m with
  | nil => simp [SMap.put]
  | cons x m ih =>
    obtain ⟨q, v⟩ := x
    simp only [SMap.put]
    split
    · simp [SMap.put]
    · split
      · simp [SMap.put]
      next hlt hne => simp only [SMap.put, if_neg hlt, if_neg hne, ih]

theorem UnitSt.setEntry_setEntry (x : UnitSt) (e : Nat) (a b : CqEntry) : (x.setEntry e a).setEntry e b = x.setEntry e b := by
  simp only [UnitSt.setEntry, SMap.put_put]

/-! ## Entries in a state -/

theorem UnitSt.mem_inState (x : UnitSt) (st e : Nat) : e ∈ x.inState st ↔ e < 8 ∧ (x.entry e).st = st := by
  simp [UnitSt.inState]

theorem UnitSt.inState_congr {x y : UnitSt} (st : Nat) (h : ∀ e, ((y.entry e).st = st ↔ (x.entry e).st = st)) : y.inState st = x.inState st :=
  List.filter_congr fun e _ => by rw [Bool.eq_iff_iff, beq_iff_eq, beq_iff_eq, h e]

/-- An entry that keeps its state, or that neither had the state nor takes it, leaves the entries in the state. -/
theorem UnitSt.inState_setEntry_same (x : UnitSt) {e st : Nat} {v : CqEntry} (h : v.st = st ↔ (x.entry e).st = st) :
    (x.setEntry e v).inState st = x.inState st :=
  UnitSt.inState_congr st fun k => by
    by_cases hk : k = e
    · rw [hk, UnitSt.entry_setEntry]
      exact h
    · rw [UnitSt.entry_setEntry_ne _ _ hk]

theorem UnitSt.inState_setEntry_into (x : UnitSt) {e st : Nat} {v : CqEntry} (he : e < 8) (hv : v.st = st) (h : x.inState st = []) :
    (x.setEntry e v).inState st = [e] := by
  have hone : ∀ e < 8, (List.range 8).filter (fun k => k == e) = [e] := by decide
  rw [← hone e he]
  refine List.filter_congr fun k hk => ?_
  by_cases hke : k = e
  · rw [hke, UnitSt.entry_setEntry, hv, beq_self_eq_true, beq_self_eq_true]
  · have hnot : (x.entry k).st ≠ st := fun hst => by
      have hmem : k ∈ x.inState st := (x.mem_inState st k).mpr ⟨List.mem_range.mp hk, hst⟩
      rw [h] at hmem
      exact List.not_mem_nil hmem
    rw [UnitSt.entry_setEntry_ne _ _ hke, beq_false_of_ne hnot, beq_false_of_ne hke]

theorem UnitSt.inState_setEntry_out (x : UnitSt) {e st : Nat} {v : CqEntry} (hv : v.st ≠ st) (h : ∀ k ∈ x.inState st, k = e) :
    (x.setEntry e v).inState st = [] := by
  refine List.eq_nil_iff_forall_not_mem.mpr fun k hk => ?_
  obtain ⟨hlt, hst⟩ := (UnitSt.mem_inState _ _ _).mp hk
  by_cases hke : k = e
  · rw [hke, UnitSt.entry_setEntry] at hst
    exact hv hst
  · rw [UnitSt.entry_setEntry_ne _ _ hke] at hst
    exact hke (h k ((x.mem_inState st k).mpr ⟨hlt, hst⟩))

/-! ## A checked tile moves up (R171) -/

theorem Dev.tileFlags_unit (d : Dev) (u v : Nat) (t : CqEntry) : (d.tileFlags u t).unit v = d.unit v := Dev.unit_congr (d.tileFlags_units u t) v

theorem Dev.makeReady_unit (d : Dev) (u e : Nat) : (d.makeReady u e).unit u =
    { (d.unit u).setEntry e { (d.unit u).entry e with st := 4, verified := false } with pops := (d.unit u).pops - 1, popWaited := 0 } := by
  rw [Dev.makeReady, Dev.tileFlags_unit]
  exact Dev.unit_setUnit _ _ _

theorem Dev.readyToCurrent_none {d : Dev} {u : Nat} (h4 : (d.unit u).inState 4 = []) : d.readyToCurrent u = d := by
  cases h : (d.unit u).inState 5 <;> simp only [Dev.readyToCurrent, h4, h]

theorem Dev.verifiedToReady_none {d : Dev} {u : Nat} (h4 : (d.unit u).inState 4 = []) (h3 : (d.unit u).inState 3 = []) :
    d.verifiedToReady u = d := by
  simp only [Dev.verifiedToReady, h4, h3, List.find?_nil]

/-- The only verified tile of a queue with none READY or CURRENT becomes CURRENT, and its pop ends. -/
theorem Dev.promote_alone {d : Dev} {u e : Nat} (h3 : (d.unit u).inState 3 = [e]) (h4 : (d.unit u).inState 4 = []) (h5 : (d.unit u).inState 5 = [])
    (hv : ((d.unit u).entry e).verified = true) :
    ((d.promote u).unit u).entry e = { (d.unit u).entry e with st := 5, verified := false } ∧
      ((d.promote u).unit u).pops = (d.unit u).pops - 1 := by
  have he : e < 8 := (((d.unit u).mem_inState 3 e).mp (by rw [h3]; exact List.mem_singleton_self e)).1
  have hfirst : d.verifiedToReady u = d.makeReady u e := by simp only [Dev.verifiedToReady, h4, h3, List.find?_cons, hv]
  have hready := d.makeReady_unit u e
  have hready4 : ((d.makeReady u e).unit u).inState 4 = [e] := by
    rw [hready]
    exact UnitSt.inState_setEntry_into (d.unit u) he rfl h4
  have hready5 : ((d.makeReady u e).unit u).inState 5 = [] := by
    rw [hready]
    exact UnitSt.inState_setEntry_out (d.unit u) (by decide : (4 : Nat) ≠ 5) (by simp [h5])
  have hready3 : ((d.makeReady u e).unit u).inState 3 = [] := by
    rw [hready]
    exact UnitSt.inState_setEntry_out (d.unit u) (by decide : (4 : Nat) ≠ 3) (by simp [h3])
  have hsecond : (d.makeReady u e).readyToCurrent u =
      (d.makeReady u e).setUnit u (((d.makeReady u e).unit u).setEntry e { ((d.makeReady u e).unit u).entry e with st := 5 }) := by
    simp only [Dev.readyToCurrent, hready4, hready5]
  generalize d.makeReady u e = d1 at hfirst hready hready4 hready5 hready3 hsecond
  have hunit : (d1.readyToCurrent u).unit u = (d1.unit u).setEntry e { (d1.unit u).entry e with st := 5 } := by
    rw [hsecond]
    exact Dev.unit_setUnit _ _ _
  have hcurrent3 : ((d1.readyToCurrent u).unit u).inState 3 = [] := by
    rw [hunit]
    exact UnitSt.inState_setEntry_out (d1.unit u) (by decide : (5 : Nat) ≠ 3) (by simp [hready3])
  have hcurrent4 : ((d1.readyToCurrent u).unit u).inState 4 = [] := by
    rw [hunit]
    exact UnitSt.inState_setEntry_out (d1.unit u) (by decide : (5 : Nat) ≠ 4) (by simp [hready4])
  have hthird := Dev.verifiedToReady_none hcurrent4 hcurrent3
  have hfourth := Dev.readyToCurrent_none hcurrent4
  rw [Dev.promote, hfirst, hthird, hfourth, Dev.unit_congr (Dev.vectorView_units _ _), hunit, UnitSt.entry_setEntry, hready]
  refine ⟨?_, rfl⟩
  have hentry : UnitSt.entry { (d.unit u).setEntry e { (d.unit u).entry e with st := 4, verified := false } with
      pops := (d.unit u).pops - 1, popWaited := 0 } e = { (d.unit u).entry e with st := 4, verified := false } := UnitSt.entry_setEntry _ _ _
  rw [hentry]

/-! ## Checks -/

theorem tileCheckDone_none {u : Nat} {upset : List (BitVec 11 × BitVec 32)} {bad : Bool} {d : Dev}
    (h : ((d.unit u).inState 3).find? (fun e => ! ((d.unit u).entry e).verified) = none ∨ (d.unit u).mmWait = true) :
    Dev.tileCheckDone u upset bad d = d := by
  rw [Dev.tileCheckDone]
  cases hfind : ((d.unit u).inState 3).find? (fun e => ! ((d.unit u).entry e).verified) with
  | none => simp only [hfind]
  | some e => simp only [hfind, h.resolve_left (by rw [hfind]; exact Option.some_ne_none e), if_true]

/-- A tile under check with what the hardware has corrupted of it. -/
def CqEntry.upset (k : CqEntry) (upset : List (BitVec 11 × BitVec 32)) (bad : Bool) : CqEntry :=
  { k with words := upset.foldl (fun w p => SMap.putD w p.1.toNat (SMap.at w p.1.toNat 0 ^^^ p.2) 0) k.words
           eccBad := k.eccBad || bad }

/-- The device once the cycles of a check are counted. -/
def Dev.checked (d : Dev) (u e : Nat) (k : CqEntry) : Dev := (d.setUnit u ((d.unit u).setEntry e k)).count Reg.VECTOR_CHECK_BUSY u 40

theorem tileCheckDone_some {u : Nat} {upset : List (BitVec 11 × BitVec 32)} {bad : Bool} {d : Dev} {e : Nat}
    (hfind : ((d.unit u).inState 3).find? (fun e => ! ((d.unit u).entry e).verified) = some e) (hwait : (d.unit u).mmWait = false) :
    Dev.tileCheckDone u upset bad d =
      let k := ((d.unit u).entry e).upset upset bad
      match k.check with
      | some f => ((d.checked u e k).mismatch u k f).vectorView u
      | none => (if k.recomp then ((d.checked u e k).setUnit u ((d.unit u).setEntry e { k with verified := true })).tileRecovered u
          else (d.checked u e k).setUnit u ((d.unit u).setEntry e { k with verified := true })).promote u := by
  have hentry (k : CqEntry) : (d.checked u e k).unit u = (d.unit u).setEntry e k := Dev.unit_setUnit _ _ _
  have hputs (k k' : CqEntry) : ((d.checked u e k).unit u).setEntry e k' = (d.unit u).setEntry e k' := by rw [hentry, UnitSt.setEntry_setEntry]
  rw [Dev.tileCheckDone]
  simp only [hfind, hwait, Bool.false_eq_true, if_false]
  rw [← Dev.checked, ← CqEntry.upset]
  simp only [hputs]
  rfl

/-! ## Mismatches (R139, R141) -/

theorem Dev.offer_hd_block (d : Dev) (r : EventRec) (q : Nat) : (d.offer r q).hd Hdr.EVT_BLOCK r.source = d.hd Hdr.EVT_BLOCK r.source := by
  unfold Dev.offer
  simp only
  split
  · rfl
  · exact (Dev.hd_hw_apart _ _ _ _ (by decide)).trans rfl

/-- The event bit of BLOCK that an event sets. -/
theorem Dev.raise_block_bit (d : Dev) {pg pos : Nat} (code sev detail : Nat) (hlo : 8 ≤ pos) (hhi : pos < 24) :
    bit ((d.raise pg code pos sev detail).hd Hdr.EVT_BLOCK pg) (pos - 8) = true := by
  have hset : bit ((d.hw Hdr.EVT_BLOCK pg (setBit (d.hd Hdr.EVT_BLOCK pg) (pos - 8))).hd Hdr.EVT_BLOCK pg) (pos - 8) = true := by
    rw [Dev.hd_hw_same _ _ _ _ (by decide) (by decide)]
    exact bit_setBit_mod (by show pos - 8 < 16; omega)
  unfold Dev.raise
  simp only [if_neg (Nat.not_lt.mpr hlo)]
  split
  · exact hset
  · generalize d.hw Hdr.EVT_BLOCK pg (setBit (d.hd Hdr.EVT_BLOCK pg) (pos - 8)) = e at hset ⊢
    generalize queuesOf pg = qs
    induction qs generalizing e with
    | nil => exact hset
    | cons q qs ih => exact ih _ ((congrArg (bit · (pos - 8)) (Dev.offer_hd_block ..)).trans hset)

/-- Whether the latest mismatch of a unit lies less than RETIRE_WINDOW beats back. -/
def Dev.mmAgain (d : Dev) (u : Nat) : Bool :=
  match (d.unit u).lastMm with
  | some b => decide (d.beatNum < b + d.rd Reg.MATRIX_RETIRE_WINDOW u)
  | none => false

/-- The device once a mismatch is counted. -/
def Dev.mmCounted (d : Dev) (u : Nat) : Dev :=
  let e := (d.bump Reg.MATRIX_MISMATCH_TOTAL u).wr Reg.MATRIX_LAST_MM_BEAT u d.beatNum
  e.setUnit u { e.unit u with lastMm := some d.beatNum }

theorem Dev.mismatch_eq (d : Dev) (u : Nat) (k : CqEntry) (f : Nat × Nat × Nat) : d.mismatch u k f =
    if k.recomp || d.mmAgain u then (d.mmCounted u).secondMismatch u k (mismatchDetail k f)
    else
      let e := ((d.mmCounted u).wr Reg.MATRIX_LAST_MM u (mismatchDetail k f)).raise (pgMatrix u) 0x0210 11 Sev.warn (mismatchDetail k f)
      let e := e.setUnit u { e.unit u with held := true, mmWait := true, heldCycles := 0 }
      e.setCluster (clusterOf u) { e.cluster (clusterOf u) with mmQueue := (e.cluster (clusterOf u)).mmQueue ++ [u] } := rfl

/-- A first mismatch. -/
theorem Dev.mismatch_first {d : Dev} {u : Nat} {k : CqEntry} {f : Nat × Nat × Nat} (h : (k.recomp || d.mmAgain u) = false) :
    (d.mismatch u k f).rd Reg.MATRIX_LAST_MM_BEAT u = d.beatNum % 2 ^ Reg.MATRIX_LAST_MM_BEAT.width ∧
    ((d.mismatch u k f).unit u).held = true ∧ ((d.mismatch u k f).unit u).mmWait = true ∧ ((d.mismatch u k f).unit u).lastMm = some d.beatNum ∧
    (d.mismatch u k f).rd Reg.MATRIX_LAST_MM u = mismatchDetail k f % 2 ^ Reg.MATRIX_LAST_MM.width ∧
    ((d.mismatch u k f).cluster (clusterOf u)).mmQueue = (d.cluster (clusterOf u)).mmQueue ++ [u] ∧
    bit ((d.mismatch u k f).hd Hdr.EVT_BLOCK (pgMatrix u)) 3 = true := by
  have hunit : (((d.mmCounted u).wr Reg.MATRIX_LAST_MM u (mismatchDetail k f)).raise (pgMatrix u) 0x0210 11 Sev.warn (mismatchDetail k f)).unit u =
      { d.unit u with lastMm := some d.beatNum } := (Dev.unit_congr (Dev.raise_units ..) u).trans (Dev.unit_setUnit _ _ _)
  have hbeat : (((d.mmCounted u).wr Reg.MATRIX_LAST_MM u (mismatchDetail k f)).raise (pgMatrix u) 0x0210 11 Sev.warn (mismatchDetail k f)).rd
      Reg.MATRIX_LAST_MM_BEAT u = d.beatNum % 2 ^ Reg.MATRIX_LAST_MM_BEAT.width := by
    rw [Dev.rd_raise_body _ _ _ _ _ _ _ (by decide), Dev.rd_wr_apart _ _ _ _ (by decide)]
    exact Dev.rd_wr_same (f := Reg.MATRIX_LAST_MM_BEAT) _ _ _ (by decide) (by decide)
  have hdetail : (((d.mmCounted u).wr Reg.MATRIX_LAST_MM u (mismatchDetail k f)).raise (pgMatrix u) 0x0210 11 Sev.warn (mismatchDetail k f)).rd
      Reg.MATRIX_LAST_MM u = mismatchDetail k f % 2 ^ Reg.MATRIX_LAST_MM.width := by
    rw [Dev.rd_raise_body _ _ _ _ _ _ _ (by decide)]
    exact Dev.rd_wr_same (f := Reg.MATRIX_LAST_MM) _ _ _ (by decide) (by decide)
  have hevent : bit ((((d.mmCounted u).wr Reg.MATRIX_LAST_MM u (mismatchDetail k f)).raise (pgMatrix u) 0x0210 11 Sev.warn (mismatchDetail k f)).hd
      Hdr.EVT_BLOCK (pgMatrix u)) 3 = true := Dev.raise_block_bit _ (pos := 11) _ _ _ (by decide) (by decide)
  have hcluster : (((d.mmCounted u).wr Reg.MATRIX_LAST_MM u (mismatchDetail k f)).raise (pgMatrix u) 0x0210 11 Sev.warn (mismatchDetail k f)).cluster
      (clusterOf u) = d.cluster (clusterOf u) := by
    unfold Dev.cluster
    rw [Dev.raise_clusters]
    rfl
  rw [Dev.mismatch_eq, h]
  simp only [Bool.false_eq_true, if_false]
  generalize ((d.mmCounted u).wr Reg.MATRIX_LAST_MM u (mismatchDetail k f)).raise (pgMatrix u) 0x0210 11 Sev.warn (mismatchDetail k f) = e
    at hunit hbeat hdetail hevent hcluster ⊢
  have hheld : ((e.setUnit u { e.unit u with held := true, mmWait := true, heldCycles := 0 }).setCluster (clusterOf u)
      { (e.setUnit u { e.unit u with held := true, mmWait := true, heldCycles := 0 }).cluster (clusterOf u) with
        mmQueue := ((e.setUnit u { e.unit u with held := true, mmWait := true, heldCycles := 0 }).cluster (clusterOf u)).mmQueue ++ [u] }).unit u =
      { e.unit u with held := true, mmWait := true, heldCycles := 0 } := Dev.unit_setUnit _ _ _
  refine ⟨hbeat, by rw [hheld], by rw [hheld], by rw [hheld, hunit], hdetail, ?_, hevent⟩
  rw [Dev.cluster_setCluster, ← hcluster]
  rfl

/-! ## What registers and event queues have no part in -/

/-- A part of the device that neither a register nor an event queue belongs to. -/
structure BesideRegs {β : Type} (p : Dev → β) : Prop where
  set : ∀ (d : Dev) (f : Field) (pg i v : Nat), p (d.set f pg i v) = p d
  queues : ∀ (d : Dev) (qs : SMap EvQueue), p { d with queues := qs } = p d

namespace BesideRegs

variable {β : Type} {p : Dev → β} (hp : BesideRegs p)
include hp

theorem offer (d : Dev) (r : EventRec) (q : Nat) : p (d.offer r q) = p d := by
  unfold Dev.offer
  simp only
  split
  · exact hp.queues _ _
  · exact (hp.set _ _ _ _ _).trans (hp.queues _ _)

theorem raise (d : Dev) (pg code pos sev detail : Nat) : p (d.raise pg code pos sev detail) = p d := by
  obtain ⟨f, v, qs, r, -, -, h⟩ := Dev.raise_shape d pg code pos sev detail
  rw [h]
  exact (foldl_keeps p (fun (e : Dev) q => e.offer r q) (fun e q => hp.offer e r q) _ _).trans (hp.set _ _ _ _ _)

theorem setBs (d : Dev) (pg v : Nat) : p (d.setBs pg v) = p d := (hp.set _ _ _ _ _).trans (hp.set _ _ _ _ _)

theorem busy (d : Dev) (pg : Nat) : p (d.busy pg) = p d := by
  unfold Dev.busy
  split
  · exact hp.setBs _ _ _
  · rfl

theorem idle (d : Dev) (pg : Nat) : p (d.idle pg) = p d := by
  unfold Dev.idle
  split
  · exact hp.setBs _ _ _
  · rfl

theorem uncorrectable (d : Dev) (pg src : Nat) : p (d.uncorrectable pg src) = p d :=
  (hp.raise _ _ _ _ _ _).trans ((hp.set _ _ _ _ _).trans (hp.set _ _ _ _ _))

theorem correctedError (d : Dev) (pg src : Nat) : p (d.correctedError pg src) = p d :=
  (hp.raise _ _ _ _ _ _).trans ((hp.set _ _ _ _ _).trans (hp.set _ _ _ _ _))

theorem recordFault (hfaults : ∀ (d : Dev) x, p { d with faults := x } = p d) (d : Dev) (x : Nat × Nat) : p (d.recordFault x) = p d := by
  unfold Dev.recordFault
  split
  · rfl
  · exact (foldl_keeps p (fun d pg => Dev.setBs d pg Bs.retired) (fun d pg => hp.setBs d pg _) _ _).trans (hfaults _ _)

theorem retireEvent (d : Dev) (f : List (Nat × Nat)) (x : Nat × Nat) : p (d.retireEvent f x) = p d := by
  unfold Dev.retireEvent
  simp only
  split
  · split
    · exact (hp.raise _ _ _ _ _ _).trans (hp.raise _ _ _ _ _ _)
    · exact hp.raise _ _ _ _ _ _
  · exact hp.raise _ _ _ _ _ _

theorem voteFor (hstep : ∀ (d : Dev) x, p { d with step := x } = p d) (d : Dev) (v : Nat) (dirty : Bool) : p (d.voteFor v dirty) = p d := by
  unfold Dev.voteFor
  split
  · exact (hstep _ _).trans ((hp.set _ _ _ _ _).trans (hp.set _ _ _ _ _))
  · rfl

/-- A retirement changes registers, event queues, the fault map, what is due for it, and the vote. -/
theorem retire (hfaults : ∀ (d : Dev) x, p { d with faults := x } = p d) (hdue : ∀ (d : Dev) x, p { d with due := x } = p d)
    (hstep : ∀ (d : Dev) x, p { d with step := x } = p d) (d : Dev) (x : Nat × Nat) : p (d.retire x) = p d := by
  unfold Dev.retire
  split
  · rfl
  · split
    · simp only
      split
      · exact hdue _ _
      · exact (hp.voteFor hstep _ _ _).trans (hdue _ _)
    · refine (foldl_keeps p _ (fun e c => ?_) _ _).trans (foldl_keeps p _ (fun e y => ?_) _ _)
      · simp only [apply_ite p, Dev.wr, hp.set, ite_self]
      · simp only [apply_ite p, hp.raise, hp.retireEvent, hp.recordFault hfaults, ite_self]

end BesideRegs

theorem besideRegs_spoiled : BesideRegs Dev.spoiled := ⟨fun _ _ _ _ _ => rfl, fun _ _ => rfl⟩

theorem Dev.retire_spoiled (d : Dev) (x : Nat × Nat) : (d.retire x).spoiled = d.spoiled :=
  besideRegs_spoiled.retire (fun _ _ => rfl) (fun _ _ => rfl) (fun _ _ => rfl) d x

theorem Dev.spoil_spoiled (d : Dev) : d.spoil.spoiled = true := besideRegs_spoiled.voteFor (fun _ _ => rfl) _ _ _

theorem Dev.matrixView_spoiled (d : Dev) (u : Nat) : (d.matrixView u).spoiled = d.spoiled := by
  unfold Dev.matrixView
  simp only [apply_ite Dev.spoiled, besideRegs_spoiled.busy, besideRegs_spoiled.idle]
  exact ite_self _

theorem Dev.secondMismatch_spoiled (d : Dev) (u : Nat) (k : CqEntry) (detail : Nat) : (d.secondMismatch u k detail).spoiled = true := by
  unfold Dev.secondMismatch Dev.secondMismatchRetire Dev.retireDue
  simp only [Dev.matrixView_spoiled]
  split
  · split
    · rw [Dev.retire_spoiled, Dev.spoil_spoiled]
    · rw [Dev.raise_spoiled, Dev.suspectView, Dev.wr_spoiled, Dev.setCluster_spoiled, Dev.spoil_spoiled]
  · rw [Dev.retire_spoiled, Dev.spoil_spoiled]

/-! ## Recomputes and array tests -/

section
variable (d : Dev)

theorem Dev.atPos_start : d.start.atPos = d.atPos := rfl
theorem Dev.srKey_start : d.start.srKey = d.srKey := rfl

theorem Dev.movingAt_start : d.start.movingAt = d.movingAt := by
  funext m x i row
  rw [Dev.movingAt, Dev.leftUnit, Dev.atPos_start]
  rfl

theorem Dev.stationaryAt_start : d.start.stationaryAt = d.stationaryAt := by
  funext m x i n
  simp only [Dev.stationaryAt, Dev.colUnit, Dev.atPos_start]

theorem Dev.rowStep_start : d.start.rowStep = d.rowStep := by
  funext m x s row
  simp only [Dev.rowStep, Dev.outputStep, Dev.checkStep, Dev.sigma, Dev.residues, Dev.movingAt_start, Dev.stationaryAt_start]

theorem Dev.passRows_start : d.start.passRows = d.passRows := by
  funext m x fresh rows s
  rw [Dev.passRows, Dev.passRows, Dev.atPos_start, Dev.rowStep_start]

theorem Dev.passCtx_start : d.start.passCtx = d.passCtx := by
  funext c g desc j last gcol t i
  rw [Dev.passCtx, Dev.passCtx, Dev.srKey_start]

/-- What a pass computes does not depend on what the command before it stored or answered. -/
theorem Dev.recomputeSet_start : d.start.recomputeSet = d.recomputeSet := by
  funext m t g
  rw [Dev.recomputeSet, Dev.recomputeSet, Dev.passCtx_start, Dev.passRows_start]

end

theorem recomputeStart_idle {m : Mem} {u : Nat} {d : Dev} (h : (d.unit u).inState 3 = []) : Dev.recomputeStart m u d = d := by
  simp only [Dev.recomputeStart, h]

theorem recomputeDone_idle {u : Nat} {held : BitVec 32} {d : Dev} (h : (d.unit u).inState 3 = [] ∨ (d.unit u).recomputing = false) :
    Dev.recomputeDone u held d = d := by
  rcases h with h | h
  · cases hr : (d.unit u).recomputing <;> simp only [Dev.recomputeDone, h, hr]
  · cases hl : (d.unit u).inState 3 <;> simp only [Dev.recomputeDone, h, hl]

theorem recomputeDone_some {u : Nat} {held : BitVec 32} {d : Dev} {e : Nat} {es : List Nat} (h : (d.unit u).inState 3 = e :: es)
    (hr : (d.unit u).recomputing = true) : Dev.recomputeDone u held d =
      let x := d.unit u
      let k := x.entry e
      (((d.setUnit u { (x.setEntry e { (x.acc k.arr 2).tile k.tile k.arr k.seq true with st := 3 }).setAcc k.arr 2 {} with
          recomputing := false, mmWait := false, heldCycles := held.toNat }).setCluster (clusterOf u)
        { d.cluster (clusterOf u) with mmQueue := (d.cluster (clusterOf u)).mmQueue.filter (· != u) }).count
          Reg.MATRIX_RECOMP_CYCLES u held.toNat).matrixView u := by
  have hcluster (x : UnitSt) : (d.setUnit u x).cluster (clusterOf u) = d.cluster (clusterOf u) := rfl
  simp only [Dev.recomputeDone, h, hr, hcluster]

theorem recomputeStart_some {m : Mem} {u : Nat} {d : Dev} {e : Nat} {es : List Nat} (h : (d.unit u).inState 3 = e :: es) :
    Dev.recomputeStart m u d =
      let x := d.unit u
      let k := x.entry e
      if ! x.mmWait || x.recomputing || (d.gangQueue (clusterOf u) k.leader k.lArr).head? != some u then d
      else match d.gangOf k.leader k.lArr with
        | some g => (d.setUnit u { x.setAcc k.arr 2 (d.recomputeSet m k g) with recomputing := true }).matrixView u
        | none => d := by
  simp only [Dev.recomputeStart, h] <;> rfl

theorem Dev.matrixTestRun_starts {d : Dev} {u : Nat} (h : d.bs (pgMatrix u) = Bs.idle ∨ d.bs (pgMatrix u) = Bs.off) :
    d.matrixTestRun u true = (Cc.done, ((d.wr Reg.MATRIX_TEST_RUN u 1).wr Reg.MATRIX_TEST_STAT_RESULT u 1).busy (pgMatrix u)) := by
  have hstates : (! [Bs.off, Bs.idle, Bs.quiesced].contains (d.bs (pgMatrix u))) = false := by rcases h with h | h <;> rw [h] <;> rfl
  have hwork : d.refusesWork (pgMatrix u) = false := by rw [Dev.refusesWork]; rcases h with h | h <;> rw [h] <;> rfl
  rw [Dev.matrixTestRun]
  simp only [hstates, hwork, Bool.true_and, Bool.false_eq_true, if_false, if_true]
  rfl

theorem Dev.matrixTestRun_quiesced {d : Dev} {u : Nat} (h : d.bs (pgMatrix u) = Bs.quiesced) : d.matrixTestRun u true = (Cc.quiesced, d) := by
  have hstates : (! [Bs.off, Bs.idle, Bs.quiesced].contains (d.bs (pgMatrix u))) = false := by rw [h]; rfl
  have hwork : d.refusesWork (pgMatrix u) = true := by rw [Dev.refusesWork, h]; rfl
  rw [Dev.matrixTestRun]
  simp only [hstates, hwork, Bool.true_and, Bool.false_eq_true, if_false, if_true]

theorem Dev.matrixTestRun_locked {d : Dev} {u : Nat} (h0 : d.bs (pgMatrix u) ≠ Bs.off) (h1 : d.bs (pgMatrix u) ≠ Bs.idle)
    (h2 : d.bs (pgMatrix u) ≠ Bs.quiesced) : d.matrixTestRun u true = (Cc.locked, d.lockRefused (pgMatrix u) 0x0F8) := by
  refine if_pos ?_
  simp [h0, h1, h2]

theorem ends_next {c : Instr} {s : State} {d : Dev} (h : exec c s = s.ends d) : exec c s = .next (s.after d) := h

section
variable {s : State} {u : BitVec 12} {upset : List (BitVec 11 × BitVec 32)} {bad : Bool} {e : Nat}
  (hfind : ((s.dev.unit u.toNat).inState 3).find? (fun e => ! ((s.dev.unit u.toNat).entry e).verified) = some e)
  (hwait : (s.dev.unit u.toNat).mmWait = false)
include hfind hwait

theorem exec_tileCheckDone_fails {f : Nat × Nat × Nat} (hf : (((s.dev.unit u.toNat).entry e).upset upset bad).check = some f) :
    exec (.tileCheckDone u upset bad) s = s.ends (((s.dev.start.checked u.toNat e (((s.dev.unit u.toNat).entry e).upset upset bad)).mismatch u.toNat
      (((s.dev.unit u.toNat).entry e).upset upset bad) f).vectorView u.toNat) := by
  refine congrArg s.ends ((tileCheckDone_some (d := s.dev.start) (upset := upset) (bad := bad) hfind hwait).trans ?_)
  have hf' : (((s.dev.start.unit u.toNat).entry e).upset upset bad).check = some f := hf
  simp only [hf']
  rfl

theorem exec_tileCheckDone_passes (hpass : (((s.dev.unit u.toNat).entry e).upset upset bad).check = none) :
    let x := s.dev.unit u.toNat
    let k := (x.entry e).upset upset bad
    let v := (s.dev.start.checked u.toNat e k).setUnit u.toNat (x.setEntry e { k with verified := true })
    ∃ t, exec (.tileCheckDone u upset bad) s = .next t ∧ t.mem = s.mem ∧ t.pending = s.pending ∧
      (k.recomp = true → t = { s with dev := { (v.tileRecovered u.toNat).promote u.toNat with writes := [] } }) ∧
      (k.recomp = false → t = { s with dev := { v.promote u.toNat with writes := [] } }) ∧
      (k.recomp = false → x.inState 3 = [e] → x.inState 4 = [] → x.inState 5 = [] →
        (t.dev.unit u.toNat).entry e = { k with st := 5, verified := false } ∧ (t.dev.unit u.toNat).pops = x.pops - 1) := by
  intro x k v
  have hdone : Dev.tileCheckDone u.toNat upset bad s.dev.start = (if k.recomp then v.tileRecovered u.toNat else v).promote u.toNat := by
    refine (tileCheckDone_some (d := s.dev.start) (upset := upset) (bad := bad) hfind hwait).trans ?_
    have hpass' : (((s.dev.start.unit u.toNat).entry e).upset upset bad).check = none := hpass
    simp only [hpass']
    rfl
  have hexec : exec (.tileCheckDone u upset bad) s = s.ends ((if k.recomp then v.tileRecovered u.toNat else v).promote u.toNat) := congrArg s.ends hdone
  have hunit : v.unit u.toNat = x.setEntry e { k with verified := true } := Dev.unit_setUnit _ _ _
  refine ⟨s.after _, ends_next hexec, s.after_mem _, s.after_pending _,
    fun hrecomp => congrArg (fun e : Dev => s.after (e.promote u.toNat)) (if_pos hrecomp),
    fun hrecomp => congrArg (fun e : Dev => s.after (e.promote u.toNat)) (if_neg (Bool.eq_false_iff.mp hrecomp)), fun hrecomp h3 h4 h5 => ?_⟩
  have hstates (st : Nat) : (v.unit u.toNat).inState st = x.inState st := by
    rw [hunit]
    exact UnitSt.inState_setEntry_same x Iff.rfl
  have hentry : (v.unit u.toNat).entry e = { k with verified := true } := by
    rw [hunit]
    exact UnitSt.entry_setEntry _ _ _
  obtain ⟨hcurrent, hpops⟩ := Dev.promote_alone (d := v) (e := e) ((hstates 3).trans h3) ((hstates 4).trans h4) ((hstates 5).trans h5)
    (by rw [hentry])
  rw [State.after_unit, if_neg (Bool.eq_false_iff.mp hrecomp), hcurrent, hpops, hentry, hunit]
  exact ⟨rfl, rfl⟩

end

/-- Settles O37: `tileCheckDone_some` and `Dev.promote_alone` for the checks, `Dev.mismatch_first` for the mismatches. -/
theorem tileAndArrayTests : Obligations.TileAndArrayTests := by
  refine ⟨?_, ⟨?_, Dev.secondMismatch_spoiled, ?_⟩, ?_⟩
  · intro s u upset bad x
    refine ⟨fun hpops h3 => ⟨fun e he => ?_, fun he => ?_⟩, fun h => congrArg s.ends (if_pos h), fun h => congrArg s.ends (tileCheckDone_none h), ?_⟩
    · refine congrArg s.ends ((if_neg (not_or.mpr ⟨hpops, not_not.mpr h3⟩)).trans ?_)
      have he' : (s.dev.start.unit u.toNat).oldestWhole = some e := he
      simp only [he']
      rfl
    · refine congrArg s.ends ((if_neg (not_or.mpr ⟨hpops, not_not.mpr h3⟩)).trans ?_)
      have he' : (s.dev.start.unit u.toNat).oldestWhole = none := he
      simp only [he']
      rfl
    · intro e hfind hwait k d v
      exact ⟨fun f hf => exec_tileCheckDone_fails hfind hwait hf, fun hpass => exec_tileCheckDone_passes hfind hwait hpass⟩
  · intro d u k f detail again t
    have hagain : again ↔ d.mmAgain u = true := by
      simp only [again, Dev.mmAgain]
      cases (d.unit u).lastMm <;> simp
    refine ⟨fun hrecomp hnot => Dev.mismatch_first ?_, fun h => ?_⟩
    · rw [hrecomp, Bool.false_or, ← Bool.not_eq_true, ← hagain]
      exact hnot
    · refine (d.mismatch_eq u k f).trans (if_pos ?_)
      rwa [Bool.or_eq_true, ← hagain]
  · intro s u cycles x c
    refine ⟨fun h3 => ⟨?_, ?_⟩, fun hr => ?_, ?_, fun d hheld => if_pos hheld⟩
    · exact congrArg s.ends (recomputeStart_idle (d := s.dev.start) h3)
    · exact congrArg s.ends (recomputeDone_idle (d := s.dev.start) (.inl h3))
    · exact congrArg s.ends (recomputeDone_idle (d := s.dev.start) (.inr hr))
    · intro e es h3 k mine
      have hstart := recomputeStart_some (m := s.mem) (d := s.dev.start) h3
      have hmine : mine ↔ (! x.mmWait || x.recomputing || (s.dev.gangQueue c k.leader k.lArr).head? != some u.toNat) = false := by
        simp only [mine, Bool.or_eq_false_iff, Bool.not_eq_false', bne_eq_false_iff_eq, and_assoc]
      refine ⟨fun h => congrArg s.ends (hstart.trans ?_), fun g hm hg => congrArg s.ends (hstart.trans ?_), fun hr => ?_⟩
      · by_cases hm : mine
        · have hg : s.dev.start.gangOf k.leader k.lArr = none := h.resolve_left (not_not.mpr hm)
          refine (if_neg (Bool.eq_false_iff.mp (hmine.mp hm))).trans ?_
          simp only [k, x] at hg
          simp only [show s.dev.start.unit u.toNat = s.dev.unit u.toNat from rfl, hg]
        · exact if_pos (by rwa [hmine, Bool.not_eq_false] at hm)
      · have hg' : s.dev.start.gangOf k.leader k.lArr = some g := hg
        refine (if_neg (Bool.eq_false_iff.mp (hmine.mp hm))).trans ?_
        simp only [k, x] at hg'
        simp only [show s.dev.start.unit u.toNat = s.dev.unit u.toNat from rfl, hg', Dev.recomputeSet_start]
        rfl
      · exact congrArg s.ends (recomputeDone_some (d := s.dev.start) (held := cycles) h3 hr)
  · intro s r u f0 f1 pg c f begun ended
    refine ⟨fun hacc => ⟨fun h => ?_, fun h => ?_, fun h => ?_, fun h0 h1 h2 => ?_⟩, fun h => congrArg s.ends (if_pos h),
      fun h => congrArg s.ends (if_neg (not_not.mpr h)), fun d hd failed => ?_⟩
    · have hbusy : begun.busy pg = begun.setBs pg Bs.run := if_pos (((Dev.bs_wr_body _ _ _ _ (by decide)).trans (Dev.bs_wr_body _ _ _ _ (by decide))).trans h)
      exact (action_ok s r pg 0x0F8 _ hacc).trans (by rw [Dev.matrixTestRun_starts (d := s.dev.start) (.inl h)]; exact congrArg (fun e => s.ends (Dev.done e 0)) hbusy)
    · have hbusy : begun.busy pg = begun := if_neg (by
        rw [Dev.bs_wr_body _ _ _ _ (by decide), Dev.bs_wr_body _ _ _ _ (by decide), show s.dev.start.bs pg = Bs.off from h]
        decide)
      exact (action_ok s r pg 0x0F8 _ hacc).trans (by rw [Dev.matrixTestRun_starts (d := s.dev.start) (.inr h)]; exact congrArg (fun e => s.ends (Dev.done e 0)) hbusy)
    · exact (action_ok s r pg 0x0F8 _ hacc).trans (by rw [Dev.matrixTestRun_quiesced (d := s.dev.start) h]; rfl)
    · exact (action_ok s r pg 0x0F8 _ hacc).trans (by rw [Dev.matrixTestRun_locked (d := s.dev.start) h0 h1 h2]; rfl)
    · simp only [Dev.suspectTested]
      rw [hd]
      rfl

end Sys2Proof.Machine

/-! Copies of registers, votes beside registers, and scrubbing and bad blocks (O38). -/

namespace Sys2Proof.Machine

/-! ## Copies of a register -/

/-- A copy of a field stands on its page, behind the header. -/
def Field.bodyAt (f : Field) (i : Nat) : Prop := 4096 ≤ f.place i ∧ f.place i < 131072

section
variable (d : Dev) {f g : Field} {i j : Nat}

theorem key_ne_of_place {pg pg' : Nat} (hf : f.place i < 131072) (hg : g.place j < 131072) (h : f.place i ≠ g.place j ∨ pg ≠ pg') :
    g.key pg' j ≠ f.key pg i := by
  rw [Field.key_eq_place, Field.key_eq_place]
  omega

theorem Dev.rd_wr_place (inst v inst' : Nat) (hf : f.place i < 131072) (hg : g.place j < 131072) (h : f.place i ≠ g.place j) :
    (d.wr f inst v i).rd g inst' j = d.rd g inst' j :=
  Dev.get_set_ne _ _ _ _ _ _ _ _ (key_ne_of_place hf hg (Or.inl h))

theorem Dev.rd_wr_page (inst v inst' : Nat) (hf : f.place i < 131072) (hg : g.place j < 131072) (h : f.pg inst ≠ g.pg inst') :
    (d.wr f inst v i).rd g inst' j = d.rd g inst' j :=
  Dev.get_set_ne _ _ _ _ _ _ _ _ (key_ne_of_place hf hg (Or.inr h))

theorem Dev.rd_wr_copy (inst v : Nat) (hw : f.width ≤ 32) (hr : f.rst i < 2 ^ 32) : (d.wr f inst v i).rd f inst i = v % 2 ^ f.width :=
  Dev.get_set_same _ _ _ _ _ hw hr

theorem Dev.rd_hw_copy (pg v inst : Nat) (h : inHeader f = true) (hg : g.bodyAt j) : (d.hw f pg v).rd g inst j = d.rd g inst j := by
  refine Dev.get_set_ne _ _ _ _ _ _ _ _ (key_ne_of_place (Nat.lt_trans (of_decide_eq_true h) (by decide)) hg.2 (Or.inl ?_))
  exact Nat.ne_of_lt (Nat.lt_of_lt_of_le (of_decide_eq_true h) hg.1)

theorem Dev.rd_raise_copy (pg code pos sev detail inst : Nat) (hg : g.bodyAt j) :
    (d.raise pg code pos sev detail).rd g inst j = d.rd g inst j := by
  have hkey : ∀ f : Field, inHeader f = true → g.key (g.pg inst) j ≠ f.key pg 0 := fun f hf =>
    key_ne_of_place (Nat.lt_trans (of_decide_eq_true hf) (by decide)) hg.2
      (Or.inl (Nat.ne_of_lt (Nat.lt_of_lt_of_le (of_decide_eq_true hf) hg.1)))
  refine Dev.get_raise _ _ _ _ _ _ _ _ _ ?_
  simp only [evtKeys, List.mem_cons, List.not_mem_nil, or_false, not_or]
  exact ⟨hkey _ (by decide), hkey _ (by decide), hkey _ (by decide)⟩

theorem Dev.hd_wr_copy (inst v pg : Nat) (hg : inHeader g = true) (hf : f.bodyAt i) : (d.wr f inst v i).hd g pg = d.hd g pg :=
  Dev.get_set_ne _ _ _ _ _ _ _ _ (key_ne_of_place hf.2 (Nat.lt_trans (of_decide_eq_true hg) (by decide))
    (Or.inl (Nat.ne_of_gt (Nat.lt_of_lt_of_le (of_decide_eq_true hg) hf.1))))

/-- A vote changes one register page. -/
theorem Dev.rd_voteFor (v : Nat) (dirty : Bool) (inst : Nat) (hg : g.place j < 131072) (h : g.pg inst ≠ pageNum 8 0 2) :
    (d.voteFor v dirty).rd g inst j = d.rd g inst j := by
  unfold Dev.voteFor
  split
  · exact (Dev.rd_wr_page _ 0 _ inst (f := Reg.STEP_REC_STATE_VOTE) (i := 0) (by decide) hg (Ne.symm h)).trans
      (Dev.rd_wr_page _ 0 _ inst (f := Reg.STEP_REC_STATE_PHASE) (i := 0) (by decide) hg (Ne.symm h))
  · rfl

theorem Dev.rd_spoil (inst : Nat) (hg : g.place j < 131072) (h : g.pg inst ≠ pageNum 8 0 2) : d.spoil.rd g inst j = d.rd g inst j :=
  (Dev.rd_voteFor _ _ _ _ hg h).trans rfl

end

/-! ## Scrub reads -/

theorem Dev.managerLost_of_faults {d e : Dev} (h : e.faults = d.faults) : e.managerLost d = e := if_neg fun hlost => by
  obtain ⟨hout, hin, -⟩ := hlost
  rw [h] at hout
  rw [hout] at hin
  exact absurd hin (by decide)

theorem Dev.larderUerr_spoiled (d : Dev) (r line : Nat) : (d.larderUerr r line).spoiled = true := by
  unfold Dev.larderUerr
  simp only
  split
  · simp only [Dev.raise_spoiled, Dev.wr_spoiled, Dev.spoil_spoiled]
  · rw [Dev.retireDue, Dev.retire_spoiled, Dev.raise_spoiled, Dev.spoil_spoiled]

theorem Dev.lsUerr_spoiled (d : Dev) (u line : Nat) : (d.lsUerr u line).spoiled = true := Dev.spoil_spoiled _

/-- R216: an uncorrectable line of a larder takes the next of its spares. -/
theorem Dev.larderUerr_spare (d : Dev) (r line : Nat) (hr : r < 4096) (hline : line < 2 ^ 18) (h : d.rd Reg.LARDER_SPARES_USED r < 64) :
    (d.larderUerr r line).rd Reg.LARDER_SPARES_USED r = d.rd Reg.LARDER_SPARES_USED r + 1 ∧
      (d.larderUerr r line).rd Reg.LARDER_REMAP_LINE r (d.rd Reg.LARDER_SPARES_USED r) = line := by
  have hused : ((((d.uncorrectable (pgLarder r) 0).wr Reg.LARDER_LAST_UERR r line).undefine (larderBase r + 64 * line) 64).spoil).rd
      Reg.LARDER_SPARES_USED r = d.rd Reg.LARDER_SPARES_USED r := by
    rw [Dev.rd_spoil _ _ (by decide) (by unfold Field.pg pageNum; show 3 * 65536 + r * 16 + 1 ≠ _; omega)]
    refine (Dev.rd_wr_apart _ _ _ _ (f := Reg.LARDER_LAST_UERR) (by decide)).trans ?_
    rw [Dev.uncorrectable, Dev.rd_raise_body _ _ _ _ _ _ _ (by decide), Dev.uerrCount, Dev.rd_hw_body _ _ _ _ (by decide) (by decide),
      Dev.rd_hw_body _ _ _ _ (by decide) (by decide)]
  unfold Dev.larderUerr
  simp only [hused, if_pos h]
  generalize (((d.uncorrectable (pgLarder r) 0).wr Reg.LARDER_LAST_UERR r line).undefine (larderBase r + 64 * line) 64).spoil = e at hused ⊢
  generalize d.rd Reg.LARDER_SPARES_USED r = n at h hused ⊢
  have hplace : Reg.LARDER_REMAP_LINE.place n = 6144 + 128 * n := by simp only [Field.place, Reg.LARDER_REMAP_LINE]; omega
  have hvalid : Reg.LARDER_REMAP_VALID.place n = 6175 + 128 * n := by simp only [Field.place, Reg.LARDER_REMAP_VALID]; omega
  have hcount : Reg.LARDER_SPARES_USED.place 0 = 4480 := by decide
  constructor
  · rw [Dev.rd_raise_body _ _ _ _ _ _ _ (by decide), Dev.rd_wr_same (f := Reg.LARDER_SPARES_USED) _ _ _ (by decide) (by decide)]
    exact Nat.mod_eq_of_lt (Nat.lt_of_lt_of_le (Nat.succ_lt_succ h) (by decide))
  · rw [Dev.rd_raise_copy _ _ _ _ _ _ _ (by unfold Field.bodyAt; omega), Dev.rd_wr_place _ _ _ _ (by omega) (by omega) (by omega),
      Dev.rd_wr_place _ _ _ _ (by omega) (by omega) (by omega), Dev.rd_wr_copy _ _ _ (by decide) (by exact (show (0 : Nat) < 2 ^ 32 by decide))]
    exact Nat.mod_eq_of_lt hline

section
variable {s : State} {la : Bool} {u : BitVec 12} {line : BitVec 18} {e : Ecc}

theorem exec_scrubLine_off
    (h : ¬ (s.dev.rd (if la then Reg.LARDER_SCRUB_EN else Reg.LSTORE_SCRUB_EN) u.toNat ≠ 0 ∧ s.dev.slackOpen = true) ∨
      (if la then 262144 else 8192) ≤ line.toNat) : exec (.scrubLine la u line e) s = s.ends s.dev.start := by
  have hoff : Dev.scrubLine la u.toNat line.toNat e s.dev.start = s.dev.start := by
    refine if_pos ?_
    rw [apply_ite (fun f => s.dev.rd f u.toNat)] at h
    rcases h with h | h
    · by_cases hen : (if la = true then s.dev.rd Reg.LARDER_SCRUB_EN u.toNat else s.dev.rd Reg.LSTORE_SCRUB_EN u.toNat) = 0
      · exact Or.inl hen
      · exact Or.inr (Or.inl (congrArg (! ·) (Bool.eq_false_iff.mpr fun hs => h ⟨hen, hs⟩)))
    · exact Or.inr (Or.inr h)
  exact (congrArg s.endsStore hoff).trans (endsStore_ends _ _ rfl)

theorem exec_scrubLine_on (hon : s.dev.rd (if la then Reg.LARDER_SCRUB_EN else Reg.LSTORE_SCRUB_EN) u.toNat ≠ 0 ∧ s.dev.slackOpen = true)
    (hline : line.toNat < if la then 262144 else 8192) : exec (.scrubLine la u line e) s =
    s.endsStore (let x := if la then s.dev.start.larderEcc e u.toNat line.toNat else s.dev.start.lsEcc e u.toNat line.toNat
      if line.toNat + 1 = (if la then 262144 else 8192) then
        x.count (if la then Reg.LARDER_SCRUB_PASSES else Reg.LSTORE_SCRUB_PASSES) u.toNat else x) := by
  rw [apply_ite (fun f => s.dev.rd f u.toNat)] at hon
  obtain ⟨hen, hslack⟩ := hon
  have hscrub : ¬ ((if la = true then s.dev.start.rd Reg.LARDER_SCRUB_EN u.toNat else s.dev.start.rd Reg.LSTORE_SCRUB_EN u.toNat) = 0 ∨
      (! s.dev.start.slackOpen) = true ∨ (if la then 262144 else 8192) ≤ line.toNat) := by
    rintro (h | h | h)
    · exact hen h
    · exact absurd ((congrArg (! ·) hslack).symm.trans h) (by decide)
    · omega
  refine (congrArg s.endsStore (if_neg hscrub)).trans (congrArg s.endsStore ?_)
  cases la <;> rfl

end

theorem exec_patrolRead_reads {s : State} {k : BitVec 3} {b : BitVec 27} (last : Bool)
    (h : s.dev.rd Reg.HBM_CTL_PATROL_EN (hbmInst k.toNat) ≠ 0 ∧ s.dev.rd Reg.HBM_CTL_STATE (hbmInst k.toNat) = 2 ∧ s.dev.slackOpen = true ∧
      (s.dev.partitionOf k.toNat (b.toNat / 32768)).isSome = true) : exec (.patrolRead k b last) s =
    s.ends (if last then s.dev.start.count Reg.HBM_CTL_PATROL_PASSES (hbmInst k.toNat) else s.dev.start) := by
  obtain ⟨hen, hstate, hslack, hpart⟩ := h
  refine congrArg s.ends (if_neg ?_)
  rintro (h | h | h | h | h)
  · exact absurd k.isLt (by omega)
  · exact hen h
  · exact h hstate
  · exact absurd ((congrArg (! ·) hslack).symm.trans h) (by decide)
  · have hnone := Option.isNone_iff_eq_none.1 h
    exact absurd (hpart.symm.trans (congrArg Option.isSome hnone)) (by decide)

theorem exec_patrolRead_reads_not {s : State} {k : BitVec 3} {b : BitVec 27} (last : Bool)
    (h : ¬ (s.dev.rd Reg.HBM_CTL_PATROL_EN (hbmInst k.toNat) ≠ 0 ∧ s.dev.rd Reg.HBM_CTL_STATE (hbmInst k.toNat) = 2 ∧ s.dev.slackOpen = true ∧
      (s.dev.partitionOf k.toNat (b.toNat / 32768)).isSome = true)) : exec (.patrolRead k b last) s = s.ends s.dev.start := by
  refine congrArg s.ends (if_pos ?_)
  by_contra hoff
  simp only [not_or] at hoff
  obtain ⟨-, hen, hstate, hslack, hpart⟩ := hoff
  refine h ⟨hen, not_not.1 hstate, ?_, ?_⟩
  · exact Bool.not_eq_false _ |>.mp fun hs => hslack (congrArg (! ·) hs)
  · exact Option.isSome_iff_ne_none.2 fun hs => hpart (congrArg Option.isNone hs)

/-! ## A block of a stack that fails its CRC -/

/-- What follows a block whose CRC has failed again, up to the list of bad blocks. -/
def Dev.crcFailed (d : Dev) (stack block : Nat) : Dev :=
  let i := hbmInst stack
  let d := (d.bump Reg.HBM_ERR_CRC_FAIL i).wr Reg.HBM_ERR_LAST_FAIL i block
  let part := d.partitionOf stack (block / 32768)
  let d := if part = some 0 ∨ part = some 1 then d.spoil else d
  let d := if part = some 3 then d.p Reg.PARTNER_ATTIC_STATE 3 else d
  d.raise (pageNum 5 i 2) 0x0505 9 Sev.error block

theorem Dev.partitionOf_congr {d e : Dev} (stack g : Nat)
    (h : ∀ f ∈ [Reg.HBM_PART_BASE, Reg.HBM_PART_SIZE], ∀ p, p < 5 → e.rd f (hbmInst stack) p = d.rd f (hbmInst stack) p) :
    e.partitionOf stack g = d.partitionOf stack g := by
  unfold Dev.partitionOf
  refine List.find?_congr fun p hp => ?_
  rw [h Reg.HBM_PART_BASE (by simp) p (List.mem_range.1 hp), h Reg.HBM_PART_SIZE (by simp) p (List.mem_range.1 hp)]

theorem Dev.spoil_faults (d : Dev) : d.spoil.faults = d.faults :=
  (BesideRegs.voteFor (p := Dev.faults) ⟨fun _ _ _ _ _ => rfl, fun _ _ => rfl⟩ (fun _ _ => rfl) _ _ _).trans rfl

section
variable (d : Dev) (stack block : Nat)

/-- A failure is counted and its block noted on the error page of the stack; every other register of the stack is kept. -/
theorem Dev.rd_crcNoted (g : Field) (j : Nat) (hg : g.place j < 131072) (hcls : g.cls = 5) (hpage : g.page < 16)
    (h : g.page ≠ 2 ∨ 4352 ≤ g.place j) : ((d.bump Reg.HBM_ERR_CRC_FAIL (hbmInst stack)).wr Reg.HBM_ERR_LAST_FAIL (hbmInst stack) block).rd g
      (hbmInst stack) j = d.rd g (hbmInst stack) j := by
  rcases h with h | h
  · have hne : ∀ f : Field, f.cls = 5 → f.page = 2 → f.pg (hbmInst stack) ≠ g.pg (hbmInst stack) := by
      intro f hf hf'
      unfold Field.pg pageNum
      omega
    rw [Dev.rd_wr_page _ _ _ _ (by decide) hg (hne _ rfl rfl), Dev.bump, Dev.rd_wr_page _ _ _ _ (by decide) hg (hne _ rfl rfl)]
  · have hfail : Reg.HBM_ERR_LAST_FAIL.place 0 = 4224 := by decide
    have hcount : Reg.HBM_ERR_CRC_FAIL.place 0 = 4112 := by decide
    rw [Dev.rd_wr_place _ _ _ _ (by decide) hg (by omega), Dev.bump, Dev.rd_wr_place _ _ _ _ (by decide) hg (by omega)]

theorem Dev.crcNoted_partitionOf (g : Nat) :
    ((d.bump Reg.HBM_ERR_CRC_FAIL (hbmInst stack)).wr Reg.HBM_ERR_LAST_FAIL (hbmInst stack) block).partitionOf stack g = d.partitionOf stack g := by
  refine Dev.partitionOf_congr stack g fun f hf p hp => ?_
  simp only [List.mem_cons, List.not_mem_nil, or_false] at hf
  rcases hf with rfl | rfl
  · exact d.rd_crcNoted stack block _ _ (by simp only [Field.place, Reg.HBM_PART_BASE]; omega) rfl (by decide) (Or.inl (by decide))
  · exact d.rd_crcNoted stack block _ _ (by simp only [Field.place, Reg.HBM_PART_SIZE]; omega) rfl (by decide) (Or.inl (by decide))

/-- The spoiled step, the attic's state and the event leave the registers of the stack's error page alone. -/
theorem Dev.rd_crcFailed (g : Field) (j : Nat) (hg : g.bodyAt j) (hpg : g.pg (hbmInst stack) = pageNum 5 (hbmInst stack) 2) (hk : stack < 8) :
    (d.crcFailed stack block).rd g (hbmInst stack) j =
      ((d.bump Reg.HBM_ERR_CRC_FAIL (hbmInst stack)).wr Reg.HBM_ERR_LAST_FAIL (hbmInst stack) block).rd g (hbmInst stack) j := by
  have hinst : hbmInst stack < 4096 := by unfold hbmInst; omega
  have hne : ∀ c p, c ≠ 5 → p < 16 → pageNum c 0 p ≠ g.pg (hbmInst stack) := by
    intro c p hc hp
    rw [hpg]
    unfold pageNum
    omega
  unfold Dev.crcFailed
  simp only
  rw [Dev.rd_raise_copy _ _ _ _ _ _ _ hg]
  have hattic : ∀ e : Dev, (e.p Reg.PARTNER_ATTIC_STATE 3).rd g (hbmInst stack) j = e.rd g (hbmInst stack) j := fun e =>
    Dev.rd_wr_page _ _ _ _ (by decide) hg.2 (hne 13 0 (by decide) (by decide))
  have hspoil : ∀ e : Dev, e.spoil.rd g (hbmInst stack) j = e.rd g (hbmInst stack) j := fun e =>
    Dev.rd_spoil _ _ hg.2 (Ne.symm (hne 8 2 (by decide) (by decide)))
  simp only [apply_ite (fun e : Dev => e.rd g (hbmInst stack) j), hattic, hspoil, ite_self]

/-- The registers behind the failure's own ones are kept. -/
theorem Dev.rd_crcFailed_kept (g : Field) (j : Nat) (hg : 4352 ≤ g.place j ∧ g.place j < 131072) (hcls : g.cls = 5) (hpage : g.page = 2)
    (hk : stack < 8) : (d.crcFailed stack block).rd g (hbmInst stack) j = d.rd g (hbmInst stack) j := by
  rw [d.rd_crcFailed stack block g j ⟨Nat.le_trans (by decide) hg.1, hg.2⟩ (by unfold Field.pg; rw [hcls, hpage]) hk]
  exact d.rd_crcNoted stack block g j hg.2 hcls (by omega) (Or.inr hg.1)

theorem Dev.crcFailed_faults : (d.crcFailed stack block).faults = d.faults := by
  unfold Dev.crcFailed
  simp only [Dev.raise_faults, apply_ite Dev.faults, Dev.p, Dev.wr_faults, Dev.spoil_faults, Dev.bump_faults, ite_self]

theorem Dev.crcFailed_writes : (d.crcFailed stack block).writes = d.writes := by
  unfold Dev.crcFailed
  simp only [Dev.raise_writes, apply_ite Dev.writes, Dev.p, Dev.wr_writes, Dev.spoil_writes, Dev.bump_writes, ite_self]

theorem Dev.crcFailed_spoiled : (d.crcFailed stack block).spoiled =
    (decide (d.partitionOf stack (block / 32768) = some 0 ∨ d.partitionOf stack (block / 32768) = some 1) || d.spoiled) := by
  unfold Dev.crcFailed
  simp only [Dev.crcNoted_partitionOf, Dev.raise_spoiled, apply_ite Dev.spoiled, Dev.p, Dev.wr_spoiled, Dev.spoil_spoiled, Dev.bump_spoiled, ite_self]
  by_cases h : d.partitionOf stack (block / 32768) = some 0 ∨ d.partitionOf stack (block / 32768) = some 1
  · rw [if_pos h, decide_eq_true h, Bool.true_or]
  · rw [if_neg h, decide_eq_false h, Bool.false_or]

theorem Dev.crcFailed_event : bit ((d.crcFailed stack block).hd Hdr.EVT_BLOCK (pageNum 5 (hbmInst stack) 2)) 1 = true :=
  Dev.raise_block_bit _ (pos := 9) _ _ _ (by decide) (by decide)

/-- The list of bad blocks of a stack holds a block. -/
def Dev.listsBad : Bool :=
  (List.range (d.rd Reg.HBM_ERR_BAD_COUNT (hbmInst stack))).any fun k => d.rd Reg.HBM_ERR_BAD_BLOCK (hbmInst stack) k == block

/-- A failure leaves the list of bad blocks alone, however long it is. -/
theorem Dev.listsBad_crcNoted : Dev.listsBad ((d.bump Reg.HBM_ERR_CRC_FAIL (hbmInst stack)).wr Reg.HBM_ERR_LAST_FAIL (hbmInst stack) block) stack
    block = d.listsBad stack block := by
  have hkept : ∀ k, ((d.bump Reg.HBM_ERR_CRC_FAIL (hbmInst stack)).wr Reg.HBM_ERR_LAST_FAIL (hbmInst stack) block).rd Reg.HBM_ERR_BAD_BLOCK
      (hbmInst stack) k = d.rd Reg.HBM_ERR_BAD_BLOCK (hbmInst stack) k := fun k => by
    have hne : ∀ f : Field, f.place 0 < 8192 → Reg.HBM_ERR_BAD_BLOCK.key (pageNum 5 (hbmInst stack) 2) k ≠ f.key (pageNum 5 (hbmInst stack) 2) 0 := by
      intro f hf
      have hplace : Reg.HBM_ERR_BAD_BLOCK.place k = 8192 + 128 * k := by simp only [Field.place, Reg.HBM_ERR_BAD_BLOCK]; omega
      rw [Field.key_eq_place, Field.key_eq_place]
      omega
    exact (Dev.get_set_ne _ _ _ _ _ _ _ _ (hne Reg.HBM_ERR_LAST_FAIL (by decide))).trans
      (Dev.get_set_ne _ _ _ _ _ _ _ _ (hne Reg.HBM_ERR_CRC_FAIL (by decide)))
  unfold Dev.listsBad
  rw [d.rd_crcNoted stack block _ _ (by decide) rfl (by decide) (Or.inr (by decide))]
  simp only [hkept]

theorem Dev.listsBad_iff : d.listsBad stack block = true ↔
    ∃ j, j < d.rd Reg.HBM_ERR_BAD_COUNT (hbmInst stack) ∧ d.rd Reg.HBM_ERR_BAD_BLOCK (hbmInst stack) j = block := by
  simp [Dev.listsBad]

variable {d stack block} {m : Mem} {data : List Byte} (hk : stack < 8) (hb : block < stackBlocks) (hcrc : blockPasses m stack block data = false)
include hk hb hcrc

theorem Dev.hbmCrcRetry_fails : d.hbmCrcRetry m stack block data =
    if d.listsBad stack block then d.crcFailed stack block
    else if d.rd Reg.HBM_ERR_BAD_COUNT (hbmInst stack) < 64 then
      (((d.crcFailed stack block).wr Reg.HBM_ERR_BAD_BLOCK (hbmInst stack) block (d.rd Reg.HBM_ERR_BAD_COUNT (hbmInst stack))).wr
        Reg.HBM_ERR_BAD_VALID (hbmInst stack) 1 (d.rd Reg.HBM_ERR_BAD_COUNT (hbmInst stack))).wr Reg.HBM_ERR_BAD_COUNT (hbmInst stack)
          (d.rd Reg.HBM_ERR_BAD_COUNT (hbmInst stack) + 1)
    else ((d.crcFailed stack block).raise (pageNum 5 (hbmInst stack) 2) 0x0506 10 Sev.error stack).retireDue 5 stack := by
  have hcount := d.rd_crcNoted stack block Reg.HBM_ERR_BAD_COUNT 0 (by decide) rfl (by decide) (Or.inr (by decide))
  have hlist := d.listsBad_crcNoted stack block
  unfold Dev.hbmCrcRetry
  rw [if_neg (by omega), if_neg (Bool.eq_false_iff.mp hcrc)]
  rw [← hlist, ← hcount]
  rfl

/-- The block is listed. -/
theorem Dev.hbmCrcRetry_lists (hn : d.rd Reg.HBM_ERR_BAD_COUNT (hbmInst stack) < 64) (hlist : d.listsBad stack block = false) :
    let n := d.rd Reg.HBM_ERR_BAD_COUNT (hbmInst stack)
    let e := d.hbmCrcRetry m stack block data
    e.rd Reg.HBM_ERR_LAST_FAIL (hbmInst stack) = (d.crcFailed stack block).rd Reg.HBM_ERR_LAST_FAIL (hbmInst stack) ∧
      e.rd Reg.HBM_ERR_CRC_FAIL (hbmInst stack) = (d.crcFailed stack block).rd Reg.HBM_ERR_CRC_FAIL (hbmInst stack) ∧
      e.rd Reg.HBM_ERR_BAD_BLOCK (hbmInst stack) n = block % 2 ^ 27 ∧ e.rd Reg.HBM_ERR_BAD_VALID (hbmInst stack) n = 1 ∧
      e.rd Reg.HBM_ERR_BAD_COUNT (hbmInst stack) = n + 1 := by
  have hblock : ∀ k, Reg.HBM_ERR_BAD_BLOCK.place k = 8192 + 128 * k := fun k => by simp only [Field.place, Reg.HBM_ERR_BAD_BLOCK]; omega
  have hvalid : ∀ k, Reg.HBM_ERR_BAD_VALID.place k = 8223 + 128 * k := fun k => by simp only [Field.place, Reg.HBM_ERR_BAD_VALID]; omega
  have hcount : Reg.HBM_ERR_BAD_COUNT.place 0 = 4352 := by decide
  have hfail : Reg.HBM_ERR_LAST_FAIL.place 0 = 4224 := by decide
  have hcrcs : Reg.HBM_ERR_CRC_FAIL.place 0 = 4112 := by decide
  intro n e
  have he : e = (((d.crcFailed stack block).wr Reg.HBM_ERR_BAD_BLOCK (hbmInst stack) block n).wr
      Reg.HBM_ERR_BAD_VALID (hbmInst stack) 1 n).wr Reg.HBM_ERR_BAD_COUNT (hbmInst stack) (n + 1) := by
    refine (Dev.hbmCrcRetry_fails hk hb hcrc).trans ?_
    rw [if_neg (Bool.eq_false_iff.mp hlist), if_pos hn]
  have hn : n < 64 := hn
  have hbk := hblock n
  have hvk := hvalid n
  rw [he]
  refine ⟨?_, ?_, ?_, ?_, ?_⟩
  · rw [Dev.rd_wr_place _ _ _ _ (by omega) (by omega) (by omega), Dev.rd_wr_place _ _ _ _ (by omega) (by omega) (by omega),
      Dev.rd_wr_place _ _ _ _ (by omega) (by omega) (by omega)]
  · rw [Dev.rd_wr_place _ _ _ _ (by omega) (by omega) (by omega), Dev.rd_wr_place _ _ _ _ (by omega) (by omega) (by omega),
      Dev.rd_wr_place _ _ _ _ (by omega) (by omega) (by omega)]
  · rw [Dev.rd_wr_place _ _ _ _ (by omega) (by omega) (by omega), Dev.rd_wr_place _ _ _ _ (by omega) (by omega) (by omega)]
    exact Dev.rd_wr_copy _ _ _ (by decide) (show (0 : Nat) < 2 ^ 32 by decide)
  · rw [Dev.rd_wr_place _ _ _ _ (by omega) (by omega) (by omega)]
    exact Dev.rd_wr_copy _ _ _ (by decide) (show (0 : Nat) < 2 ^ 32 by decide)
  · refine (Dev.rd_wr_same (f := Reg.HBM_ERR_BAD_COUNT) _ _ _ (by decide) (by decide)).trans ?_
    exact Nat.mod_eq_of_lt (Nat.lt_of_lt_of_le (Nat.succ_lt_succ hn) (by decide))

end

section
variable (s : State) (k : BitVec 3) (b : BitVec 27) (data : List Byte)

theorem exec_hbmCrcRetry : exec (.hbmCrcRetry k b data) s =
    s.endsStore ((s.dev.start.hbmCrcRetry s.mem k.toNat b.toNat data).managerLost s.dev.start) := rfl

theorem exec_hbmCrcRetry_kept {e : Dev} (h : s.dev.start.hbmCrcRetry s.mem k.toNat b.toNat data = e) (hf : e.faults = s.dev.faults)
    (hw : e.writes = []) : exec (.hbmCrcRetry k b data) s = s.ends e := by
  rw [exec_hbmCrcRetry, h, Dev.managerLost_of_faults (d := s.dev.start) hf]
  exact endsStore_ends _ _ hw

theorem Dev.rd_crcFailed_last (d : Dev) : (d.crcFailed k.toNat b.toNat).rd Reg.HBM_ERR_LAST_FAIL (hbmInst k.toNat) = b.toNat := by
  rw [Dev.rd_crcFailed _ _ _ Reg.HBM_ERR_LAST_FAIL 0 ⟨by decide, by decide⟩ rfl k.isLt,
    Dev.rd_wr_same (f := Reg.HBM_ERR_LAST_FAIL) _ _ _ (by decide) (by decide)]
  exact Nat.mod_eq_of_lt b.isLt

theorem Dev.rd_crcFailed_count (d : Dev) : (d.crcFailed k.toNat b.toNat).rd Reg.HBM_ERR_CRC_FAIL (hbmInst k.toNat) =
    sat Reg.HBM_ERR_CRC_FAIL.width (d.rd Reg.HBM_ERR_CRC_FAIL (hbmInst k.toNat) + 1) := by
  rw [Dev.rd_crcFailed _ _ _ Reg.HBM_ERR_CRC_FAIL 0 ⟨by decide, by decide⟩ rfl k.isLt, Dev.rd_wr_apart _ _ _ _ (f := Reg.HBM_ERR_LAST_FAIL) (by decide), Dev.bump,
    Dev.rd_wr_same (f := Reg.HBM_ERR_CRC_FAIL) _ _ _ (by decide) (by decide), sat_eq_min]
  exact Nat.mod_eq_of_lt (Nat.lt_of_le_of_lt (Nat.min_le_left ..) (by decide))

end

theorem bodyAt_badBlock {n : Nat} (h : n < 64) : Reg.HBM_ERR_BAD_BLOCK.bodyAt n := by
  simp only [Field.bodyAt, Field.place, Reg.HBM_ERR_BAD_BLOCK]
  omega

theorem bodyAt_badValid {n : Nat} (h : n < 64) : Reg.HBM_ERR_BAD_VALID.bodyAt n := by
  simp only [Field.bodyAt, Field.place, Reg.HBM_ERR_BAD_VALID]
  omega

/-- Settles O38: `larderUerr_spare` for the scrub reads, `hbmCrcRetry_lists` for the list of bad blocks. -/
theorem scrubAndBlocks : Obligations.ScrubAndBlocks := by
  refine ⟨fun s => ⟨fun la u line e => ?scrub, fun k b last => ⟨exec_patrolRead_reads last, exec_patrolRead_reads_not last⟩⟩, fun s k b data => ?block⟩
  case scrub =>
    intro on n x passes
    refine ⟨exec_scrubLine_off, fun hon hline => ?_, fun hon hline => ?_, fun he => ?_, fun he => ?_, fun he => ?_, fun he hla hused => ?_⟩
    · exact (exec_scrubLine_on hon (Nat.lt_of_succ_lt hline)).trans (congrArg s.endsStore (if_neg (Nat.ne_of_lt hline)))
    · exact (exec_scrubLine_on hon (Nat.lt_of_succ_le (Nat.le_of_eq hline))).trans (congrArg s.endsStore (if_pos hline))
    · subst he
      exact ite_self _
    · subst he
      cases la <;> rfl
    · subst he
      cases la
      · exact Dev.lsUerr_spoiled _ _ _
      · exact Dev.larderUerr_spoiled _ _ _
    · subst he hla
      exact Dev.larderUerr_spare s.dev.start u.toNat line.toNat u.isLt line.isLt hused
  case block =>
    intro i pg n part
    refine ⟨fun hb => ?_, fun hb => ⟨fun hcrc => ?_, fun hcrc hn hnew => ?_, fun hcrc hold => ?_⟩⟩
    · exact exec_hbmCrcRetry_kept s k b data (if_pos (Or.inr hb)) rfl rfl
    · have hretry : s.dev.start.hbmCrcRetry s.mem k.toNat b.toNat data =
          (s.dev.start.bump Reg.HBM_ERR_CRC_RETRY i).raise pg 0x0504 8 Sev.info b.toNat :=
        (if_neg (by have := k.isLt; omega)).trans (if_pos hcrc)
      exact exec_hbmCrcRetry_kept s k b data hretry (Dev.raise_faults ..) (Dev.raise_writes ..)
    · have hlist : s.dev.start.listsBad k.toNat b.toNat = false :=
        Bool.eq_false_iff.2 fun hl => let ⟨j, hj, hj'⟩ := (Dev.listsBad_iff _ _ _).1 hl; hnew j hj hj'
      have hn' : s.dev.start.rd Reg.HBM_ERR_BAD_COUNT (hbmInst k.toNat) < 64 := hn
      have hretry := Dev.hbmCrcRetry_fails (d := s.dev.start) k.isLt hb hcrc
      rw [if_neg (Bool.eq_false_iff.mp hlist), if_pos hn'] at hretry
      obtain ⟨hlast, hcount, hblock, hvalid, hlen⟩ := Dev.hbmCrcRetry_lists (d := s.dev.start) k.isLt hb hcrc hn hlist
      have hevent : bit ((s.dev.start.hbmCrcRetry s.mem k.toNat b.toNat data).hd Hdr.EVT_BLOCK pg) 1 = true := by
        rw [hretry, Dev.hd_wr_copy _ _ _ _ (by decide) ⟨by decide, by decide⟩, Dev.hd_wr_copy _ _ _ _ (by decide) (bodyAt_badValid hn'),
          Dev.hd_wr_copy _ _ _ _ (by decide) (bodyAt_badBlock hn')]
        exact Dev.crcFailed_event _ _ _
      have hspoiled : (s.dev.start.hbmCrcRetry s.mem k.toNat b.toNat data).spoiled =
          (decide (part = some 0 ∨ part = some 1) || s.dev.spoiled) := by
        rw [hretry]
        exact Dev.crcFailed_spoiled _ _ _
      refine ⟨s.after _, ends_next (exec_hbmCrcRetry_kept s k b data rfl ?_ ?_), s.after_mem _, s.after_pending _, ?_, ?_, ?_, ?_, ?_, ?_, ?_, ?_⟩
      · rw [hretry]
        exact Dev.crcFailed_faults _ _ _
      · rw [hretry]
        exact Dev.crcFailed_writes _ _ _
      · exact hlast.trans (Dev.rd_crcFailed_last _ _ _)
      · exact hcount.trans (Dev.rd_crcFailed_count _ _ _)
      · exact hblock.trans (Nat.mod_eq_of_lt b.isLt)
      · exact hvalid
      · exact hlen
      · exact hevent
      · exact fun hpart => hspoiled.trans (by rw [decide_eq_true hpart, Bool.true_or])
      · exact fun h0 h1 => hspoiled.trans (by rw [decide_eq_false (not_or.2 ⟨h0, h1⟩), Bool.false_or])
    · have hlist : s.dev.start.listsBad k.toNat b.toNat = true := (Dev.listsBad_iff _ _ _).2 hold
      have hretry := (Dev.hbmCrcRetry_fails (d := s.dev.start) k.isLt hb hcrc).trans (if_pos hlist)
      refine ⟨s.after _, ends_next (exec_hbmCrcRetry_kept s k b data hretry (Dev.crcFailed_faults _ _ _) (Dev.crcFailed_writes _ _ _)),
        s.after_mem _, ?_, ?_⟩
      · exact Dev.rd_crcFailed_kept _ _ _ Reg.HBM_ERR_BAD_COUNT 0 (by decide) rfl rfl k.isLt
      · exact Dev.rd_crcFailed_last _ _ _

end Sys2Proof.Machine

/-! The cases of the floating-point tables (O24). -/

namespace Sys2Proof.Machine

/-! ## Selections, comparisons and classes -/

theorem FV.setSign_false_neg (x : Dy) (n s t : Bool) :
    FV.setSign false (.num n x.neg s) = .num false x.abs s ∧ FV.setSign false (.num n x t) = .num false x.abs t := by
  constructor
  · simp [FV.setSign, Dy.neg, Dy.abs]
  · rfl

theorem Dy.lt_self (x : Dy) : x.lt x = false := by
  simp [Dy.lt, Dy.sub, Dy.add, Dy.neg]

/-- Two numbers of one magnitude: MAXA takes the one with the sign of neither. -/
theorem fvMaxa_neg (x : Dy) (s t : Bool) : fvMaxa (.num false x s) (.num true x.neg t) = .num false x s ∧
    fvMaxa (.num true x.neg t) (.num false x s) = .num false x s := by
  have hx (n s : Bool) := (FV.setSign_false_neg x n s s).2
  have hy (n t : Bool) := (FV.setSign_false_neg x n t t).1
  constructor
  · simp only [fvMaxa, hx, hy, FV.ltv, Dy.lt_self, Bool.false_eq_true, if_false, FV.sign]
  · simp only [fvMaxa, hx, hy, FV.ltv, Dy.lt_self, Bool.false_eq_true, if_false, FV.sign, if_true]

theorem fvCompare_nan (k : Nat) (a : FV) (q : Bool) : fvCompare k (.nan q) a = decide (k = 1) ∧ fvCompare k a (.nan q) = decide (k = 1) := by
  constructor
  · rfl
  · unfold fvCompare
    rw [if_pos (by simp [FV.isNan])]
    rfl

theorem Dy.isZero_of_ne {x : Dy} (h : x.m ≠ 0) : x.isZero = false := decide_eq_false h

theorem fvClass_sub (sel : Nat) {x : Dy} (n : Bool) (h : x.m ≠ 0) : fvClass sel (.num n x true) = ((sel.testBit 3 && n) || sel.testBit 4) := by
  simp [fvClass, Dy.isZero_of_ne h, bit]

theorem Dy.abs_of_pos {x : Dy} (hx : 0 < x.m) : x.abs = x := by
  have hm : (x.m.natAbs : Int) = x.m := by omega
  rw [Dy.abs, hm]

/-! ## Division, roots and functions in the F32 view -/

section
variable {f : VSlot} {w v : Nat} {x : Dy} (hattr : f.attr.toNat = 0) (hview : f.view.toNat = 0)

include hview in
theorem viewFmt_f32 : viewFmt f = FFmt.f32 := by
  unfold viewFmt
  rw [hview]
  rfl

include hattr hview

theorem fvDiv_zero (sx sy : Bool) (hx : x.m ≠ 0) : fvDiv 0 f w v (.num sx x false) (.num sy Dy.zero false) = ⟨FFmt.f32.inf (sx != sy), Flag.ovf⟩ := by
  simp [fvDiv, hattr, viewFmt_f32 hview, FV.fastIn, Dy.isZero_of_ne hx, Dy.isZero, Dy.zero, hx]

theorem fvDiv_zero_zero (sx sy : Bool) : fvDiv 0 f w v (.num sx Dy.zero false) (.num sy Dy.zero false) = ⟨FFmt.f32.cnan, Flag.nan⟩ := by
  simp [fvDiv, hattr, viewFmt_f32 hview, FV.fastIn, Dy.isZero, Dy.zero]

theorem fvRoot_neg (recip : Bool) (hx : x.m ≠ 0) : fvRoot recip f w (.num true x.neg false) = ⟨FFmt.f32.cnan, Flag.nan⟩ := by
  simp [fvRoot, hattr, viewFmt_f32 hview, FV.fastIn, Dy.isZero, Dy.neg, hx]

theorem fvRoot_zero (z : Bool) : fvRoot false f w (.num z Dy.zero false) = ⟨FFmt.f32.signBit z, 0⟩ ∧
    fvRoot true f w (.num z Dy.zero false) = ⟨FFmt.f32.inf z, Flag.ovf⟩ := by
  simp [fvRoot, hattr, viewFmt_f32 hview, FV.fastIn, Dy.isZero, Dy.zero]

omit hattr

theorem fvTrans_exp2_over (h : x.geRat 128 1 = true) : fvTrans 0 f w (.num false x false) = ⟨FFmt.f32.inf false, Flag.ovf⟩ := by
  simp only [fvTrans, FV.fastIn, viewFmt_f32 hview, h, if_true]
  rfl

/-- EXP2 of an integer is a power of two. -/
theorem fvTrans_exp2_int (n : Int) (z : Bool) (h0 : -126 ≤ n) (h1 : n ≤ 127) :
    (fvTrans 0 f w (.num z ⟨n, 0⟩ false)).w = (FFmt.f32.packFast .rne false ⟨1, n⟩).w := by
  have hover : Dy.geRat ⟨n, 0⟩ 128 1 = false := by
    simp [Dy.geRat, Dy.le, Dy.mul, Dy.sub, Dy.add, Dy.neg, pow2]
    omega
  have hunder : Dy.lt ⟨n, 0⟩ ⟨-126, 0⟩ = false := by
    simp [Dy.lt, Dy.sub, Dy.add, Dy.neg, pow2]
    omega
  have hint : Dy.int? ⟨n, 0⟩ = some n := by simp [Dy.int?, pow2]
  simp only [fvTrans, FV.fastIn, viewFmt_f32 hview, hover, hunder, hint]
  rfl

theorem fvTrans_log_zero (k : Nat) (hk : k = 1 ∨ k = 3) (z : Bool) : fvTrans k f w (.num z Dy.zero false) = ⟨FFmt.f32.inf true, Flag.ovf⟩ := by
  rcases hk with rfl | rfl <;> simp [fvTrans, FV.fastIn, viewFmt_f32 hview, Dy.isZero, Dy.zero]

theorem fvTrans_log_neg (k : Nat) (hk : k = 1 ∨ k = 3) (hx : x.m ≠ 0) : fvTrans k f w (.num true x.neg false) = ⟨FFmt.f32.cnan, Flag.nan⟩ := by
  rcases hk with rfl | rfl <;> simp [fvTrans, FV.fastIn, viewFmt_f32 hview, Dy.isZero, Dy.neg, hx]

theorem fvTrans_tanh_one (hx : 0 < x.m) (h : x.geRat 91 10 = true) : (fvTrans 4 f w (.num false x false)).w = 0x3F800000 := by
  simp only [fvTrans, FV.fastIn, viewFmt_f32 hview, Dy.abs_of_pos hx, h, if_true]
  decide

theorem fvTrans_erf_one (hx : 0 < x.m) (h : x.geRat 4 1 = true) : (fvTrans 6 f w (.num false x false)).w = 0x3F800000 := by
  simp only [fvTrans, FV.fastIn, viewFmt_f32 hview, Dy.abs_of_pos hx, h, if_true]
  decide

theorem fvTrans_odd_zero (k : Nat) (z : Bool) (hk : k = 4 ∨ k = 6 ∨ k = 7) :
    fvTrans k f w (.num z Dy.zero false) = ⟨FFmt.f32.signBit z, 0⟩ := by
  have htanh : Dy.zero.abs.geRat 91 10 = false := by decide
  have herf : Dy.zero.abs.geRat 4 1 = false := by decide
  have hsin : Dy.lt ⟨1, 16⟩ Dy.zero.abs = false := by decide
  rcases hk with rfl | rfl | rfl <;> simp [fvTrans, FV.fastIn, viewFmt_f32 hview, htanh, herf, hsin, show Dy.zero.isZero = true from rfl]

theorem fvTrans_far (k : Nat) (hx : 0 < x.m) (hk : k = 7 ∨ k = 8) (h : Dy.lt ⟨1, 16⟩ x = true) :
    fvTrans k f w (.num false x false) = ⟨FFmt.f32.cnan, Flag.nan⟩ := by
  rcases hk with rfl | rfl <;> simp [fvTrans, FV.fastIn, viewFmt_f32 hview, Dy.abs_of_pos hx, h]

end

/-- A power of two in the exponent range of binary32 is its own rounding. -/
theorem packFast_pow2 (n : Int) (h0 : -126 ≤ n) (h1 : n ≤ 127) : (FFmt.f32.packFast .rne false ⟨1, n⟩).w = (127 + n).toNat * 2 ^ 23 := by
  have hlog : Nat.log2 1 = 0 := by decide
  have hlog' : Nat.log2 (2 ^ 23) = 23 := Nat.log2_two_pow
  have hgrid : Rnd.rne.grid ⟨1, n⟩ (n - 23) = 2 ^ 23 := by
    rw [Rnd.grid, if_pos (by show n - 23 ≤ n; omega)]
    have hexp : (n - (n - 23)).toNat = 23 := by omega
    simp [hexp]
  have hsignif : Rnd.rne.signif 24 ⟨1, n⟩ = ⟨2 ^ 23, n - 23⟩ := by
    have htop : Dy.top ⟨1, n⟩ - (24 : Nat) + 1 = n - 23 := by simp [Dy.top, hlog]; omega
    simp only [Rnd.signif, htop, hgrid]
    simp
  have htop : Dy.top ⟨2 ^ 23, n - 23⟩ = n := by
    have habs : ((2 : Int) ^ 23).natAbs = 2 ^ 23 := by decide
    simp only [Dy.top, habs, hlog']
    omega
  have hencode : FFmt.f32.encodeNormal false ⟨2 ^ 23, n - 23⟩ = (127 + n).toNat * 2 ^ 23 := by
    have hgrid' : Rnd.rne.grid ⟨2 ^ 23, n - 23⟩ (n - 23) = 2 ^ 23 := by simp [Rnd.grid]
    have hg : n - ((24 : Nat) : Int) + 1 = n - 23 := by omega
    simp only [FFmt.encodeNormal, htop, FFmt.f32, hg, hgrid', FFmt.signBit]
    have hcomm : n + 127 = 127 + n := Int.add_comm _ _
    rw [hcomm]
    simp
  have hp : FFmt.f32.p = 24 := rfl
  have hemax : FFmt.f32.emax = 127 := rfl
  have hemin : FFmt.f32.emin = -126 := rfl
  have hover : ¬ n > 127 := by omega
  have hunder : ¬ n < -126 := by omega
  have hneg : Dy.isNeg ⟨1, n⟩ = false := decide_eq_false (show ¬ (1 : Int) < 0 by decide)
  simp only [FFmt.packFast, hp, hsignif, htop, hemax, hemin, hover, hunder, if_false, hneg, hencode]
  rfl

/-- Settles O24, case by case of the tables. -/
theorem floatCases : Obligations.FloatCases := by
  refine ⟨⟨fun s t => ⟨rfl, rfl, rfl⟩, fun x s t _ => fvMaxa_neg x s t, fun a q k _ => fvCompare_nan k a q, fun x n s => ⟨rfl, rfl, rfl⟩,
    fun sel q => rfl, fun sel x n hx => fvClass_sub sel n hx⟩, fun f w v x hattr hview hpos => ?_⟩
  have hx : x.m ≠ 0 := Int.ne_of_gt hpos
  refine ⟨fun sx sy => ⟨fvDiv_zero hattr hview sx sy hx, fvDiv_zero_zero hattr hview sx sy⟩, fvRoot_neg hattr hview _ hx, fvRoot_neg hattr hview _ hx,
    fvRoot_zero hattr hview, fvTrans_exp2_over hview, fun n h0 h1 => (fvTrans_exp2_int hview n _ h0 h1).trans (packFast_pow2 n h0 h1),
    fun z => ⟨fvTrans_log_zero hview 1 (Or.inl rfl) z, fvTrans_log_zero hview 3 (Or.inr rfl) z⟩, fvTrans_log_neg hview 1 (Or.inl rfl) hx,
    fvTrans_log_neg hview 3 (Or.inr rfl) hx, fvTrans_tanh_one hview hpos, fvTrans_erf_one hview hpos, fun k z => fvTrans_odd_zero hview k z,
    fun k => fvTrans_far hview k hpos⟩

end Sys2Proof.Machine

/-! Kicks, passed blocks, and the run of a movement block (O39). -/

namespace Sys2Proof.Machine

/-! ## What the start of a command leaves -/

section
variable (d : Dev) (m : Mem) (rm : Bool) (i : Nat) (b : MBlock)

theorem Dev.blockFault_start (uerr : Bool) : d.start.blockFault m rm i b uerr = d.blockFault m rm i b uerr := rfl

theorem Dev.awaitsLanding_start : d.start.awaitsLanding = d.awaitsLanding := rfl

theorem Dev.nextBlocks_start (q : List MBlock) : d.start.nextBlocks rm q = d.nextBlocks rm q := rfl

end

/-! ## A kick, and a block passed on -/

section
variable {s : State} {rm : Bool} {i : BitVec 12} {r : Requester} {tag : BitVec 4} (hacc : s.accepts r (pgEng rm i.toNat) 0x084 true)
  (hwork : s.dev.refusesWork (pgEng rm i.toNat) = false)
include hacc hwork

theorem exec_kickGo : exec (.kickGo r rm i tag) s =
    s.ends ((s.dev.start.kickGo rm i.toNat tag.toNat).2.done (s.dev.start.kickGo rm i.toNat tag.toNat).1) :=
  work_ok s r (pgEng rm i.toNat) 0x084 (fun d => d.kickGo rm i.toNat tag.toNat) hacc hwork

end

section
variable {m : Mem} {c : Nat} {d : Dev}

theorem Dev.cmovePass_busy (h : (d.eng false c).run ≠ none ∨ (d.eng false c).queue = []) : d.cmovePass m c = d := by
  unfold Dev.cmovePass
  rcases h with h | h
  · obtain ⟨x, hx⟩ := Option.ne_none_iff_exists'.1 h
    simp only [hx]
  · simp only [h]
    cases (d.eng false c).run <;> rfl

variable {b : MBlock} {q : List MBlock} (hrun : (d.eng false c).run = none) (hq : (d.eng false c).queue = b :: q)
include hrun hq

theorem Dev.cmovePass_eq : d.cmovePass m c =
    if cmoveServes m c b = true ∨ [Bs.quiesced, Bs.resetting, Bs.fault, Bs.retired].contains (d.bs (pgCmove c)) = true then d
    else match d.stateCode (pgRmove (regionOf c)) with
      | some code => d.finishBlock false c b (some (10, 0, code))
      | none =>
        if engCap true ≤ (d.eng true (regionOf c)).queue.length then d
        else ((d.setEng false c { d.eng false c with queue := q }).accept true (regionOf c) { b with sentAt := d.now }).engView false c := by
  simp only [Dev.cmovePass, hrun, hq] <;> rfl

end

/-! ## The run of a block -/

section
variable {m : Mem} {rm : Bool} {i line : Nat} {ecc : Ecc} {d : Dev}

theorem Dev.blockStart_busy (h : (d.eng rm i).run ≠ none ∨ d.nextBlocks rm (d.eng rm i).queue = []) : Dev.blockStart m rm i ecc line d = d := by
  unfold Dev.blockStart
  rcases h with h | h
  · obtain ⟨x, hx⟩ := Option.ne_none_iff_exists'.1 h
    simp only [hx]
  · simp only [h]
    cases (d.eng rm i).run <;> rfl

theorem Dev.blockStart_eq {b : MBlock} {bs : List MBlock} (hrun : (d.eng rm i).run = none) (hq : d.nextBlocks rm (d.eng rm i).queue = b :: bs) :
    Dev.blockStart m rm i ecc line d =
      let ecc := if line < blockLines m b.addr then ecc else .ok
      let f := d.blockFault m rm i b (ecc == .uncorrectable)
      if [Bs.quiesced, Bs.resetting, Bs.fault, Bs.retired].contains (d.bs (pgEng rm i)) ||
        (! rm && ! (ecc == .uncorrectable) && ! cmoveServes m i b) then d
      else if f.isNone && (blockDescs m b.addr).any d.awaitsLanding then d
      else (d.blockEcc b.addr line ecc).putEng rm i { queue := b :: bs, run := some ((d.blockEcc b.addr line ecc).issue i
        { block := b, descs := if f.isSome then [] else blockDescs m b.addr, next := 0, fault := f }) } := by
  simp only [Dev.blockStart, hrun, hq] <;> rfl

/-- An engine takes a block while it works, and a CMOVE only one that it serves itself. -/
theorem takes_iff {a c : Bool} {e : Ecc} : (a || (! rm && ! (e == .uncorrectable) && ! c)) = false ↔
    a = false ∧ (rm = true ∨ e = .uncorrectable ∨ c = true) := by
  cases a <;> cases rm <;> cases c <;> simp

theorem Dev.blockComplete_idle (h : (d.eng rm i).run = none) : Dev.blockComplete rm i d = d := by
  simp only [Dev.blockComplete, h]

theorem Dev.blockComplete_eq {x : MRun} (h : (d.eng rm i).run = some x) : Dev.blockComplete rm i d =
    if x.fault.isSome || x.next == x.descs.length then d.finishBlock rm i x.block x.fault else d := by
  simp only [Dev.blockComplete, h]

end

/-- Settles O39: `cmovePass_eq` and `blockStart_eq` case by case. -/
theorem moveBlocks : Obligations.MoveBlocks := by
  refine ⟨fun s rm i => ⟨fun r tag hacc hwork => ⟨fun hroom => ?room, fun hfull => ?full⟩, ?pass⟩, fun s rm i => ⟨fun ec line hbusy => ?none,
    fun ec line b bs hrun hq => ?start, fun hrun => congrArg s.ends (Dev.blockComplete_idle hrun), fun x hrun => ?complete⟩⟩
  case room =>
    refine (exec_kickGo hacc hwork).trans ?_
    have hroom' : ¬ engCap rm ≤ (s.dev.start.eng rm i.toNat).queue.length := Nat.not_le_of_lt hroom
    simp only [Dev.kickGo, hroom', if_false]
    rfl
  case full =>
    refine (exec_kickGo hacc hwork).trans ?_
    have hfull' : engCap rm ≤ (s.dev.start.eng rm i.toNat).queue.length := hfull
    simp only [Dev.kickGo, hfull', if_true]
    rfl
  case pass =>
    refine ⟨fun hbusy => congrArg s.ends (Dev.cmovePass_busy (d := s.dev.start) hbusy), fun b q hrun hq => ?_⟩
    have hpass := congrArg s.ends (Dev.cmovePass_eq (m := s.mem) (d := s.dev.start) hrun hq)
    refine ⟨fun hstays => hpass.trans (congrArg s.ends (if_pos hstays)), fun hserves hidle => ?_⟩
    have hgoes : ¬ (cmoveServes s.mem i.toNat b = true ∨
        [Bs.quiesced, Bs.resetting, Bs.fault, Bs.retired].contains (s.dev.start.bs (pgCmove i.toNat)) = true) :=
      not_or.2 ⟨Bool.eq_false_iff.mp hserves, hidle⟩
    refine ⟨fun code hcode => ?_, fun hcode hroom => ?_, fun hcode hfull => ?_⟩
    · have hcode' : s.dev.start.stateCode (pgRmove (regionOf i.toNat)) = some code := hcode
      rw [if_neg hgoes, hcode'] at hpass
      exact hpass
    · have hcode' : s.dev.start.stateCode (pgRmove (regionOf i.toNat)) = none := hcode
      rw [if_neg hgoes, hcode'] at hpass
      exact hpass.trans (congrArg s.ends (if_neg (Nat.not_le_of_lt hroom)))
    · have hcode' : s.dev.start.stateCode (pgRmove (regionOf i.toNat)) = none := hcode
      rw [if_neg hgoes, hcode'] at hpass
      exact hpass.trans (congrArg s.ends (if_pos hfull))
  case none =>
    exact (congrArg s.endsStore (Dev.blockStart_busy (d := s.dev.start) hbusy)).trans (endsStore_ends _ _ rfl)
  case start =>
    intro ecc f takes waits d
    have hstart : exec (.moveBlockStart rm i ⟨ec, line⟩) s = _ :=
      congrArg s.endsStore (Dev.blockStart_eq (m := s.mem) (ecc := ec) (line := line.toNat) (d := s.dev.start) hrun hq)
    refine ⟨fun hstays => hstart.trans ?_, fun htakes hgoes => hstart.trans (congrArg s.endsStore ?_)⟩
    · refine Eq.trans (congrArg s.endsStore ?_) (endsStore_ends s s.dev.start rfl)
      by_cases htakes : takes
      · obtain ⟨hnone, hany⟩ := hstays.resolve_left (not_not.2 htakes)
        exact (if_neg (Bool.eq_false_iff.mp (takes_iff.2 htakes))).trans (if_pos (Bool.and_eq_true_iff.2 ⟨Option.isNone_iff_eq_none.2 hnone, hany⟩))
      · exact if_pos ((Bool.not_eq_false _).mp fun h => htakes (takes_iff.1 h))
    · refine (if_neg (Bool.eq_false_iff.mp (takes_iff.2 htakes))).trans (if_neg fun h => ?_)
      obtain ⟨hnone, hany⟩ := Bool.and_eq_true_iff.1 h
      exact hgoes ⟨Option.isNone_iff_eq_none.1 hnone, hany⟩
  case complete =>
    intro y z
    have hcomplete := congrArg s.ends (Dev.blockComplete_eq (d := s.dev.start) hrun)
    refine ⟨fun hf hnext => ?_, fun hf hnext => ?_, fun f hf => ?_⟩
    · exact hcomplete.trans (congrArg s.ends (if_neg (by simp [hf, hnext])))
    · refine hcomplete.trans (congrArg s.ends ((if_pos (by simp [hnext])).trans ?_))
      rw [hf]
      rfl
    · refine hcomplete.trans (congrArg s.ends ((if_pos (by simp [hf])).trans ?_))
      rw [hf]
      rfl

end Sys2Proof.Machine

/-! The beat boundary, its windows, and remeasured delays (O42). -/

namespace Sys2Proof.Machine

/-! ## The beat that begins -/

section
variable (d : Dev)

theorem Dev.nextBeat_beatNum : d.nextBeat.beatNum = (if d.beatSeen then d.beatNum + 1 else d.beatNum) % 2 ^ 64 := by
  generalize hn : (if d.beatSeen then d.beatNum + 1 else d.beatNum) = n
  have hlo : d.nextBeat.rd Reg.BEAT_CFG_BEAT_NUM_LO 0 = n % 2 ^ 32 := by
    unfold Dev.nextBeat Dev.p64 Dev.p
    simp only [hn]
    rw [Dev.rd_wr_apart _ _ _ _ (by decide), Dev.rd_wr_apart _ _ _ _ (by decide)]
    exact (Dev.rd_wr_apart _ 0 _ 0 (f := Reg.BEAT_CFG_BEAT_NUM_HI) (g := Reg.BEAT_CFG_BEAT_NUM_LO) (by decide)).trans
      (Dev.rd_wr_same d 0 n (f := Reg.BEAT_CFG_BEAT_NUM_LO) (by decide) (by decide))
  have hhi : d.nextBeat.rd Reg.BEAT_CFG_BEAT_NUM_HI 0 = n / 2 ^ 32 % 2 ^ 32 := by
    unfold Dev.nextBeat Dev.p64 Dev.p
    simp only [hn]
    rw [Dev.rd_wr_apart _ _ _ _ (by decide), Dev.rd_wr_apart _ _ _ _ (by decide)]
    exact Dev.rd_wr_same _ 0 (n / 2 ^ 32) (f := Reg.BEAT_CFG_BEAT_NUM_HI) (by decide) (by decide)
  unfold Dev.beatNum Dev.g64 Dev.g
  rw [hlo, hhi]
  omega

theorem Dev.nextBeat_phase : d.nextBeat.g Reg.BEAT_CFG_PHASE = 0 := by
  unfold Dev.nextBeat Dev.p Dev.g
  simp only
  rw [Dev.rd_wr_apart _ _ _ _ (by decide)]
  exact Dev.rd_wr_same _ 0 0 (f := Reg.BEAT_CFG_PHASE) (by decide) (by decide)

/-- Outputs that depend on nothing sent before stand in their order. -/
theorem Dev.foldl_send {f : Dev → Nat → Output} (hf : ∀ (e : Dev) o p, f { e with out := o } p = f e p) (ps : List Nat) :
    ps.foldl (fun (d : Dev) p => d.send (f d p)) d = { d with out := d.out ++ ps.map (f d) } := by
  induction ps generalizing d with
  | nil => simp
  | cons p ps ih =>
    have hsent : f (d.send (f d p)) = f d := funext fun q => hf d _ q
    rw [List.foldl_cons, ih, hsent, Dev.send, List.append_assoc]
    rfl

theorem Dev.sendMarkers_eq : d.sendMarkers = { d with out := d.out ++ d.livePorts.map fun p => .marker p (d.markerOf d.aggregate p) } :=
  d.foldl_send (f := fun e p => .marker p (e.markerOf d.aggregate p)) (fun _ _ _ => rfl) d.livePorts

/-- What waits for the beat that has begun takes effect. -/
theorem Dev.applyBeat_due {b per tx ts : Nat} (hp : d.beat.pend = some (b, per, tx, ts)) (hb : b ≤ d.beatNum) : d.applyBeat =
    let e := ((d.setLive Reg.BEAT_CFG_PERIOD per).setLive Reg.BEAT_CFG_T_X tx).setLive Reg.BEAT_CFG_T_S ts
    let e : Dev := { e.p Reg.BEAT_CFG_STATUS_PENDING 0 with beat := { e.beat with pend := none } }
    (e.p Reg.BEAT_CFG_STATUS_WINDOW (e.windowAt 0)).raise pgBeatCfg 0x0607 8 Sev.info per := by
  simp only [Dev.applyBeat, hp, if_neg (Nat.not_lt_of_le hb)]

theorem Dev.g_setLive_apart {f g : Field} (v : Nat) (h : placesApart f g = true) : (d.setLive f v).g g = d.g g :=
  d.rd_wr_apart 0 v 0 h

theorem Dev.g_setLive_same {f : Field} (v : Nat) (hw : f.width ≤ 32) (hr : f.rst 0 < 2 ^ 32) : (d.setLive f v).g f = v % 2 ^ f.width :=
  d.rd_wr_same 0 v hw hr

theorem Dev.g_p_apart {f g : Field} (v : Nat) (h : placesApart f g = true) : (d.p f v).g g = d.g g := d.rd_wr_apart 0 v 0 h

theorem Dev.g_raise_body (pg code pos sev detail : Nat) {g : Field} (h : inBody g = true) : (d.raise pg code pos sev detail).g g = d.g g :=
  d.rd_raise_body _ _ _ _ _ _ h

/-- Of the fields that a remade beat changes, the last ones leave what stands in another place. -/
theorem Dev.g_applyBeat {b per tx ts : Nat} (hp : d.beat.pend = some (b, per, tx, ts)) (hb : b ≤ d.beatNum) {g : Field} (hg : inBody g = true)
    (h : placesApart Reg.BEAT_CFG_STATUS_WINDOW g = true) : d.applyBeat.g g =
      ((((d.setLive Reg.BEAT_CFG_PERIOD per).setLive Reg.BEAT_CFG_T_X tx).setLive Reg.BEAT_CFG_T_S ts).p Reg.BEAT_CFG_STATUS_PENDING 0).g g := by
  rw [d.applyBeat_due hp hb]
  simp only
  rw [Dev.g_raise_body _ _ _ _ _ _ hg, Dev.g_p_apart _ _ h]
  rfl

end

/-! ## The slack window, and remeasured delays -/

theorem Dev.slackWindowStart_begins {d : Dev} (credit : Nat) (hon : d.timerOn = true) (hph : d.g Reg.BEAT_CFG_PHASE < d.slackFrom) :
    d.slackWindowStart credit =
      let x := (d.passTo (d.now + (d.slackFrom - d.g Reg.BEAT_CFG_PHASE))).drainPrio credit 1
      let e := if x.stepOpen then x.missing.foldl (Dev.ask credit) x else x
      (e.drainPrio credit 2).drainPrio credit 3 := by
  unfold Dev.slackWindowStart
  rw [if_neg (by rw [hon]; simp [hph])]
  simp only [List.foldl_cons, List.foldl_nil]

section
variable {d : Dev} {p v : Nat}

/-- The live entries that a delay of a port makes late. -/
def Dev.madeLate (d : Dev) (p : Nat) : Option (Nat × Nat) :=
  (Rt.entries d.route.live).zipIdx.find? fun x => Rt.role x.1 == 1 && Rt.inBundle x.1 == p / 4 && ! d.throughOk x.1

theorem Dev.delayRemeasure_held (hv : v ≤ 20000) : d.delayRemeasure p v =
    match ((d.p Reg.BEAT_LOCK_DELAY_VALUE v p).p Reg.BEAT_LOCK_DELAY_VALID 1 p).madeLate p with
    | some x => ((d.p Reg.BEAT_LOCK_DELAY_VALUE v p).p Reg.BEAT_LOCK_DELAY_VALID 1 p).raise pgLinkRoute 0x0A0C 9 Sev.error (8 + 256 * sat 24 x.2)
    | none => (d.p Reg.BEAT_LOCK_DELAY_VALUE v p).p Reg.BEAT_LOCK_DELAY_VALID 1 p :=
  if_neg (Nat.not_lt_of_le hv)

end

/-- Settles O42: `nextBeat_beatNum`, `g_applyBeat` and `delayRemeasure_held`; the rest is the model's equations. -/
theorem beats : Obligations.Beats := by
  refine ⟨fun s hoff => ?off, fun s hon => ?boundary, fun d => ⟨rfl, rfl, d.nextBeat_phase, d.nextBeat_beatNum, rfl, rfl⟩, fun d hp => ?_,
    fun d b per tx ts hp => ⟨fun hb => ?_, fun hb => ⟨?_, ?_, ?_, ?_, ?_, ?_⟩⟩, Dev.sendMarkers_eq, fun s hon => ?exchange,
    fun s credit hon => ?slack, fun s p v => ?delay⟩
  case off =>
    have hstop : (! s.dev.start.timerOn) = true := congrArg (! ·) hoff
    refine ⟨?_, ?_, fun credit => ?_⟩
    · exact (congrArg s.endsStore (if_pos hstop)).trans (endsStore_ends _ _ rfl)
    · exact congrArg s.ends (if_neg fun h => absurd (hoff.symm.trans h.1) (by decide))
    · exact congrArg s.ends (if_pos (Or.inl hstop))
  case boundary =>
    exact congrArg s.endsStore (if_neg (Bool.eq_false_iff.mp (congrArg (! ·) hon)))
  · simp only [Dev.applyBeat, hp]
  · simp only [Dev.applyBeat, hp, if_pos hb]
  · rw [d.applyBeat_due hp hb, Dev.raise_beat]
    rfl
  · rw [d.g_applyBeat hp hb (by decide) (by decide)]
    exact Dev.rd_wr_same _ 0 0 (f := Reg.BEAT_CFG_STATUS_PENDING) (by decide) (by decide)
  · rw [d.g_applyBeat hp hb (by decide) (by decide), Dev.g_p_apart _ _ (by decide), Dev.g_setLive_apart _ _ (by decide),
      Dev.g_setLive_apart _ _ (by decide), Dev.g_setLive_same _ _ (by decide) (by decide)]
  · rw [d.g_applyBeat hp hb (by decide) (by decide), Dev.g_p_apart _ _ (by decide), Dev.g_setLive_apart _ _ (by decide),
      Dev.g_setLive_same _ _ (by decide) (by decide)]
  · rw [d.g_applyBeat hp hb (by decide) (by decide), Dev.g_p_apart _ _ (by decide), Dev.g_setLive_same _ _ (by decide) (by decide)]
  · rw [d.applyBeat_due hp hb]
    exact Dev.raise_block_bit _ (pos := 8) _ _ _ (by decide) (by decide)
  case exchange =>
    exact ⟨fun hph => congrArg s.ends (if_pos ⟨hon, hph⟩), fun hph => congrArg s.ends (if_neg fun h => Nat.not_lt_of_le hph h.2)⟩
  case slack =>
    exact ⟨fun hph => congrArg s.ends (if_pos (Or.inr hph)),
      fun hph => congrArg s.ends (Dev.slackWindowStart_begins (d := s.dev.start) credit.toNat hon hph)⟩
  case delay =>
    intro d late
    refine ⟨fun hv => congrArg s.ends (if_pos hv), fun hv hnone => ?_, fun x hv hsome => ?_⟩
    · have hlate : d.madeLate p.toNat = none := hnone
      refine congrArg s.ends ((Dev.delayRemeasure_held hv).trans ?_)
      rw [hlate]
    · have hlate : d.madeLate p.toNat = some x := hsome
      refine congrArg s.ends ((Dev.delayRemeasure_held hv).trans ?_)
      rw [hlate]

end Sys2Proof.Machine

/-! Markers, holdover, loss and election of the beat lock (O43). -/

namespace Sys2Proof.Machine

/-! ## What the beat lock has no part in -/

/-- A part of the device that the beat lock leaves alone, once a marker is kept. -/
structure BesideLock {β : Type} (p : Dev → β) : Prop extends BesideRegs p where
  beat : ∀ (d : Dev) (b : BeatSt), b.marks = d.beat.marks → p { d with beat := b } = p d
  step : ∀ (d : Dev) (x : StepSt), p { d with step := x } = p d

/-- A marker is kept with its time, and with whether it differs from the package's own beat. -/
def Dev.markerKept (d : Dev) (port : Nat) (m : Marker) (e : Int) : Dev :=
  let differs := m.beat.toNat != d.beatNum || m.period.toNat != d.g Reg.BEAT_CFG_PERIOD || decide (2000 < e.natAbs)
  { d with beat := { d.beat with marks := SMap.put d.beat.marks port ⟨m, d.now, differs⟩ } }

namespace BesideLock

variable {β : Type} {p : Dev → β} (hp : BesideLock p)
include hp

theorem wr (d : Dev) (f : Field) (inst v i : Nat) : p (d.wr f inst v i) = p d := hp.set d f _ i v

theorem adopt (d : Dev) (c : Nat × Nat) (up hops : Nat) : p (d.adopt c up hops) = p d := by
  unfold Dev.adopt
  simp only [apply_ite p, hp.raise, Dev.bump, Dev.p, hp.wr, ite_self]

theorem enterLocked (d : Dev) : p d.enterLocked = p d := (hp.raise _ _ _ _ _ _).trans (hp.wr _ _ _ _ _)

theorem enterHoldover (d : Dev) (port : Nat) : p (d.enterHoldover port) = p d :=
  (hp.raise _ _ _ _ _ _).trans ((hp.wr _ _ _ _ _).trans (hp.beat _ _ rfl))

theorem enterAcquire (d : Dev) (fail : Bool) : p (d.enterAcquire fail) = p d := by
  have hstate : p (({ d with beat := { d.beat with samples := [], run := 0, source := false } } : Dev).p Reg.BEAT_LOCK_STATE 1) = p d :=
    (hp.wr _ _ _ _ _).trans (hp.beat _ _ rfl)
  unfold Dev.enterAcquire
  split
  · exact (hp.voteFor hp.step _ _ _).trans hstate
  · exact hstate

theorem follow (d : Dev) (st : Nat) (b : (Nat × Nat) × Nat × Nat) : p (Dev.elect.follow d st b) = p d := by
  have hfollowed (e : Dev) : p { e with beat := { e.beat with source := false, lastOk := d.now } } = p e := hp.beat _ _ rfl
  unfold Dev.elect.follow
  simp only [apply_ite p, hp.enterAcquire, hp.adopt, hfollowed, ite_self]

theorem elect (d : Dev) : p d.elect = p d := by
  have hown (e : Dev) : p { e with beat := { e.beat with source := true, former := none } } = p e := hp.beat _ _ rfl
  unfold Dev.elect
  simp only
  split
  · simp only [apply_ite p, hp.enterHoldover, ite_self]
  · simp only [apply_ite p, hp.enterHoldover, hp.enterLocked, hown, Dev.p, hp.wr, hp.adopt, ite_self]
  · split
    · simp only [apply_ite p, hp.enterHoldover, hp.enterLocked, hown, Dev.p, hp.wr, hp.adopt, hp.follow, ite_self]
    · exact hp.follow _ _ _

theorem sample (d : Dev) (e : Int) (rate : Nat) : p (d.sample e rate) = p d :=
  (hp.wr _ _ _ _ _).trans ((hp.wr _ _ _ _ _).trans (hp.beat _ _ rfl))

theorem rejectMarker (d : Dev) (port row : Nat) : p (d.rejectMarker port row) = p d := hp.raise _ _ _ _ _ _

theorem periodMismatch (d : Dev) (per : Nat) : p (d.periodMismatch per) = p d := hp.raise _ _ _ _ _ _

theorem takeBeat (d : Dev) (m : Marker) : p (d.takeBeat m) = p d := (hp.wr _ _ _ _ _).trans ((hp.wr _ _ _ _ _).trans (hp.wr _ _ _ _ _))

theorem hearDecision (d : Dev) (m : Marker) : p (d.hearDecision m) = p d := by
  unfold Dev.hearDecision
  simp only [apply_ite p, hp.step, ite_self]

variable (hboundary : ∀ (d : Dev) x, p { d with boundary := x } = p d)
include hboundary

theorem stepPhase (d : Dev) (port : Nat) (m : Marker) : p (d.stepPhase port m) = p d :=
  (hp.wr _ _ _ _ _).trans ((hp.wr _ _ _ _ _).trans (hboundary _ _))

theorem discipline (d : Dev) (port : Nat) (m : Marker) (e : Int) (rate : Nat) : p (d.discipline port m e rate) = p d := by
  have hrun (e : Dev) (n : Nat) : p { e with beat := { e.beat with run := n } } = p e := hp.beat _ _ rfl
  unfold Dev.discipline
  simp only [apply_ite p, hp.periodMismatch, hp.enterLocked, hp.takeBeat, hrun, hp.sample, hp.stepPhase hboundary, hp.enterAcquire, hp.rejectMarker,
    Dev.p, hp.wr, ite_self]

/-- A valid marker is kept; the election and the discipline that follow leave the rest alone. -/
theorem beatMarker {d : Dev} {port : Nat} {m : Marker} {e : Int} {rate : Nat} (hlive : d.portLive port = true) (hon : d.timerOn = true)
    (hhops : m.hops.toNat ≤ 64) : p (d.beatMarker port true m e rate) = p (d.markerKept port m e) := by
  have hclaim (f : Dev) (n : Nat) : p { f with beat := { f.beat with lastClaim := n } } = p f := hp.beat _ _ rfl
  unfold Dev.beatMarker Dev.markerKept
  simp only [hlive, hon, Nat.not_lt_of_le hhops, Bool.not_true, Bool.or_self, Bool.false_eq_true, if_false, apply_ite p, hp.hearDecision,
    hp.discipline hboundary, hclaim, hp.elect, ite_self]

end BesideLock

/-- A saturated value fits its width. -/
theorem sat_mod (w v : Nat) : sat w v % 2 ^ w = sat w v := by
  rw [sat_eq_min]
  exact Nat.mod_eq_of_lt (Nat.lt_of_le_of_lt (Nat.min_le_left ..) (Nat.sub_lt (Nat.two_pow_pos w) Nat.one_pos))

/-! ## Election, samples and loss -/

section
variable (d : Dev)

theorem Dev.adopt_registers (c : Nat × Nat) (up hops : Nat) : (d.adopt c up hops).g Reg.BEAT_LOCK_SOURCE = c.2 % 2 ^ 18 ∧
    (d.adopt c up hops).lockState = d.lockState := by
  have hcount (e : Dev) (g : Field) (hg : inBody g = true) (h : placesApart Reg.BEAT_LOCK_SOURCE_CHANGES g = true) :
      ((e.bump Reg.BEAT_LOCK_SOURCE_CHANGES 0).raise pgBeatLock 0x0604 11 Sev.info c.2).g g = e.g g :=
    (Dev.g_raise_body _ _ _ _ _ _ hg).trans (e.g_p_apart _ h)
  have hclaim : (((((d.p Reg.BEAT_LOCK_SOURCE c.2).p Reg.BEAT_LOCK_SOURCE_PRIO c.1).p Reg.BEAT_LOCK_UPSTREAM up).p
      Reg.BEAT_LOCK_HOPS hops).g Reg.BEAT_LOCK_SOURCE = c.2 % 2 ^ 18) ∧ ((((d.p Reg.BEAT_LOCK_SOURCE c.2).p Reg.BEAT_LOCK_SOURCE_PRIO c.1).p
      Reg.BEAT_LOCK_UPSTREAM up).p Reg.BEAT_LOCK_HOPS hops).g Reg.BEAT_LOCK_STATE = d.g Reg.BEAT_LOCK_STATE := by
    constructor
    · rw [Dev.g_p_apart _ _ (by decide), Dev.g_p_apart _ _ (by decide), Dev.g_p_apart _ _ (by decide)]
      exact Dev.rd_wr_same _ 0 c.2 (f := Reg.BEAT_LOCK_SOURCE) (by decide) (by decide)
    · rw [Dev.g_p_apart _ _ (by decide), Dev.g_p_apart _ _ (by decide), Dev.g_p_apart _ _ (by decide), Dev.g_p_apart _ _ (by decide)]
  unfold Dev.adopt Dev.lockState
  simp only
  split
  · rw [hcount _ _ (by decide) (by decide), hcount _ _ (by decide) (by decide)]
    exact hclaim
  · exact hclaim

theorem Dev.enterLocked_registers : d.enterLocked.g Reg.BEAT_LOCK_SOURCE = d.g Reg.BEAT_LOCK_SOURCE ∧ d.enterLocked.lockState = 2 := by
  unfold Dev.enterLocked Dev.lockState
  rw [Dev.g_raise_body _ _ _ _ _ _ (by decide), Dev.g_raise_body _ _ _ _ _ _ (by decide)]
  exact ⟨d.g_p_apart 2 (by decide), d.rd_wr_same 0 2 (f := Reg.BEAT_LOCK_STATE) (by decide) (by decide)⟩

/-- A candidate that hears no claim and has no port in service. -/
theorem Dev.elect_alone {c : Nat × Nat} (hown : d.ownClaim = some c) (hheard : bestHeard d.heard = none) (hports : d.livePorts = [])
    (h4 : d.lockState ≠ 4) : d.elect = if d.lockState = 2 ∧ d.beat.source then d.adopt c 63 0
      else ({ d.adopt c 63 0 with beat := { (d.adopt c 63 0).beat with source := true, former := none } } : Dev).enterLocked := by
  have hconfirmed : d.confirmed c = true := by
    unfold Dev.confirmed
    rw [hports]
    rfl
  simp only [Dev.elect, hown, hheard, hconfirmed, ne_eq, h4, not_false_eq_true, and_self, if_true]

theorem Dev.enterAcquire_state (fail : Bool) : (d.enterAcquire fail).lockState = 1 := by
  have hstate : (({ d with beat := { d.beat with samples := [], run := 0, source := false } } : Dev).p Reg.BEAT_LOCK_STATE 1).lockState = 1 :=
    Dev.rd_wr_same _ 0 1 (f := Reg.BEAT_LOCK_STATE) (by decide) (by decide)
  unfold Dev.enterAcquire
  simp only
  split
  · exact (Dev.rd_voteFor _ _ _ _ (by decide) (by decide)).trans hstate
  · exact hstate

theorem Dev.discipline_locked (port : Nat) (m : Marker) (e : Int) (rate : Nat) (h : d.lockState = 2) : d.discipline port m e rate =
    if m.period.toNat ≠ d.g Reg.BEAT_CFG_PERIOD then (d.periodMismatch m.period.toNat).enterAcquire true
    else if m.beat.toNat ≠ d.beatNum then d.rejectMarker port 1
    else if 2000 < e.natAbs then d.rejectMarker port 0
    else d.sample e rate := by
  simp only [Dev.discipline, h, if_neg (show ¬ (2 : Nat) = 1 by decide), if_neg (show ¬ ((2 : Nat) = 3 ∧ _) from fun h => absurd h.1 (by decide)),
    true_or, if_true]

/-- What a loss leaves in the registers of the lock's page. -/
theorem Dev.g_enterLost (why : Nat) {g : Field} (hg : inBody g = true) (hplace : g.place 0 < 131072) (hpg : g.pg 0 ≠ pageNum 8 0 2) :
    (d.enterLost why).g g = ((d.p Reg.BEAT_LOCK_STATE 4).bump Reg.BEAT_LOCK_LOCK_LOSSES 0).g g :=
  (Dev.g_raise_body _ _ _ _ _ _ hg).trans (Dev.rd_voteFor _ _ _ _ hplace hpg)

theorem Dev.g_voteFor_vote (v : Nat) (dirty : Bool) (h : d.stepOpen = true) :
    (d.voteFor v dirty).g Reg.STEP_REC_STATE_VOTE = max v (d.g Reg.STEP_REC_STATE_VOTE) % 4 := by
  unfold Dev.voteFor
  rw [if_pos h]
  exact Dev.rd_wr_same _ 0 _ (f := Reg.STEP_REC_STATE_VOTE) (by decide) (by decide)

theorem Dev.enterLost_vote (why : Nat) (h : d.stepOpen = true) :
    (d.enterLost why).g Reg.STEP_REC_STATE_VOTE = max 3 (d.g Reg.STEP_REC_STATE_VOTE) % 4 := by
  have hkept (g : Field) (hpg : pagesApart Reg.BEAT_LOCK_STATE g = true) (hpg' : pagesApart Reg.BEAT_LOCK_LOCK_LOSSES g = true) :
      ((d.p Reg.BEAT_LOCK_STATE 4).bump Reg.BEAT_LOCK_LOCK_LOSSES 0).g g = d.g g :=
    (Dev.get_set_ne _ _ _ _ _ _ _ _ (key_ne_of_pagesApart hpg' (by decide) (by decide))).trans
      (Dev.get_set_ne _ _ _ _ _ _ _ _ (key_ne_of_pagesApart hpg (by decide) (by decide)))
  have hopen : ((d.p Reg.BEAT_LOCK_STATE 4).bump Reg.BEAT_LOCK_LOCK_LOSSES 0).stepOpen = true := by
    unfold Dev.stepOpen
    rw [hkept _ (by decide) (by decide)]
    exact h
  refine (Dev.g_raise_body _ _ _ _ _ _ (by decide)).trans ?_
  exact (Dev.g_voteFor_vote _ 3 true hopen).trans (by rw [hkept _ (by decide) (by decide)])

/-- Resets that run out change nothing behind the headers. -/
theorem Dev.rd_passTo (t inst : Nat) {g : Field} (hg : inBody g = true) (hphase : placesApart Reg.BEAT_CFG_PHASE g = true)
    (hwindow : placesApart Reg.BEAT_CFG_STATUS_WINDOW g = true) : (d.passTo t).rd g inst = d.rd g inst := by
  have hend (e : Dev) : e.endResets.rd g inst = e.rd g inst := by
    unfold Dev.endResets
    simp only
    split
    · rfl
    · refine (foldl_keeps (fun e : Dev => e.rd g inst) _ (fun e b => Dev.rd_raise_body _ _ _ _ _ _ _ hg) _ _).trans ?_
      refine (foldl_keeps (fun e : Dev => e.rd g inst) Dev.endReset (fun e x => ?_) _ _).trans rfl
      unfold Dev.endReset
      simp only
      split
      · rfl
      · split
        · rw [Dev.rd_raise_body _ _ _ _ _ _ _ hg, Dev.rd_setBs_body _ _ _ _ hg]
        · rw [Dev.rd_setBs_body _ _ _ _ hg]
  unfold Dev.passTo
  simp only
  split
  · rfl
  · split
    · rw [hend, Dev.p, Dev.rd_wr_apart _ _ _ _ hwindow, Dev.p, Dev.rd_wr_apart _ _ _ _ hphase]
      rfl
    · rw [hend]
      rfl

end

/-- The units, the time and the markers heard. -/
theorem besideLock_kept : BesideLock fun d : Dev => (d.units, d.now, d.beat.marks) :=
  { set := fun _ _ _ _ _ => rfl, queues := fun _ _ => rfl, beat := fun _ _ h => by simp only [h], step := fun _ _ => rfl }

theorem exec_beatMarker_valid {s : State} {p : BitVec 5} {m : Marker} {e : BitVec 32} (r : BitVec 32) (hlive : s.dev.portLive p.toNat = true)
    (hon : s.dev.timerOn = true) (hhops : m.hops.toNat ≤ 64) : ∃ t, exec (.beatMarker p true m e r) s = .next t ∧ t.mem = s.mem ∧
      t.pending = s.pending ∧ (t.dev.units, t.dev.now, t.dev.beat.marks) =
        (s.dev.units, s.dev.now, (s.dev.markerKept p.toNat m e.toInt).beat.marks) :=
  ⟨_, rfl, rfl, rfl, (besideLock_kept.beatMarker (fun _ _ => rfl) (d := s.dev.start) (rate := r.toNat) hlive hon hhops).trans rfl⟩

/-- Settles O43: `BesideLock.beatMarker` for a valid marker, `elect_alone` for a source, `discipline_locked` for the samples. -/
theorem beatLock : Obligations.BeatLock := by
  refine ⟨fun s p ok m e r => ⟨fun hnot => ?_, fun hok hlive hon hhops => ?_, fun hok hlive hon hhops => ?_⟩, fun d c hown hheard hports h4 => ?_,
    fun d p m e r h2 => ?_, fun s => ⟨fun h2 hsrc => ?_, fun h => ?_, fun h3 => congrArg s.ends (if_pos h3), fun h3 => congrArg s.ends (if_neg h3),
    fun h => ?_, fun hsrc hup => ?_⟩, fun d why => ⟨?_, ?_, ?_, ?_, d.enterLost_vote why⟩⟩
  · refine congrArg s.ends (if_pos ?_)
    rcases hnot with h | h | h
    · simp [h]
    · have h' : s.dev.start.portLive p.toNat = false := h
      simp [h']
    · simp [h]
  · have hlive' : s.dev.start.portLive p.toNat = true := hlive
    exact congrArg s.ends ((if_neg (by simp [hok, hlive', hon])).trans (if_pos hhops))
  · subst hok
    obtain ⟨t, hexec, hmem, hpend, hkept⟩ := exec_beatMarker_valid r hlive hon hhops
    exact ⟨t, hexec, hmem, hpend, congrArg Prod.fst hkept, congrArg (·.2.1) hkept, congrArg (·.2.2) hkept⟩
  · obtain ⟨hsource, hstate⟩ := d.adopt_registers c 63 0
    rw [d.elect_alone hown hheard hports h4]
    split
    · next h => exact ⟨hsource, hstate.trans h.1, fun h2 => absurd h.1 h2⟩
    · obtain ⟨hsource', hstate'⟩ := Dev.enterLocked_registers
        ({ d.adopt c 63 0 with beat := { (d.adopt c 63 0).beat with source := true, former := none } } : Dev)
      refine ⟨hsource'.trans hsource, hstate', fun _ => ?_⟩
      rw [Dev.enterLocked, Dev.raise_beat]
      rfl
  · rw [d.discipline_locked p m e r h2]
    refine ⟨fun hper hbeat he => ?_, fun hper hbeat he => ?_, fun hper hbeat => ?_, fun hper => ?_⟩
    · rw [if_neg (not_not.2 hper), if_neg (not_not.2 hbeat), if_neg (Nat.not_lt_of_le he)]
      rfl
    · rw [if_neg (not_not.2 hper), if_neg (not_not.2 hbeat), if_pos he]
      rfl
    · rw [if_neg (not_not.2 hper), if_pos hbeat]
      rfl
    · rw [if_pos hper]
      exact Dev.enterAcquire_state _ _
  · intro d
    have hsrc' : (! s.dev.start.beat.source) = true := congrArg (! ·) hsrc
    have hup : s.dev.start.g Reg.BEAT_LOCK_UPSTREAM = d.g Reg.BEAT_LOCK_UPSTREAM :=
      (s.dev.start.rd_passTo _ 0 (g := Reg.BEAT_LOCK_UPSTREAM) (by decide) (by decide) (by decide)).symm
    rw [← hup]
    exact congrArg s.ends (if_pos ⟨h2, hsrc'⟩)
  · refine congrArg s.ends (if_neg fun hboth => ?_)
    rcases h with h | h
    · exact h hboth.1
    · exact absurd ((congrArg (! ·) h).symm.trans hboth.2) (by decide)
  · exact congrArg s.ends (if_pos h)
  · exact congrArg s.ends (if_neg (not_or.2 ⟨fun h => absurd (hsrc.symm.trans h) (by decide), hup⟩))
  · refine (d.g_enterLost why (by decide) (by decide) (by decide)).trans ?_
    rw [Dev.bump, Dev.g, Dev.rd_wr_apart _ _ _ _ (by decide)]
    exact Dev.rd_wr_same _ 0 4 (f := Reg.BEAT_LOCK_STATE) (by decide) (by decide)
  · rw [Dev.enterLost]
    exact congrArg BeatSt.source (Dev.raise_beat _ _ _ _ _ _)
  · refine (d.g_enterLost why (by decide) (by decide) (by decide)).trans ?_
    rw [Dev.bump, Dev.g, Dev.rd_wr_same (f := Reg.BEAT_LOCK_LOCK_LOSSES) _ _ _ (by decide) (by decide), Dev.p, Dev.rd_wr_apart _ _ _ _ (by decide)]
    exact sat_mod 16 _
  · exact Dev.raise_block_bit _ (pos := 10) _ _ _ (by decide) (by decide)

end Sys2Proof.Machine

/-! The course of a step, its vote and its decision (O44). -/

namespace Sys2Proof.Machine

/-! ## Registers of package pages -/

/-- Two fields of package pages that stand at different places or on different pages. -/
def fieldsApart (f g : Field) : Bool := placesApart f g || pagesApart f g

section
variable (d : Dev) {f g : Field}

theorem Dev.g_p_ne (v : Nat) (h : fieldsApart f g = true) : (d.p f v).g g = d.g g := by
  rcases Bool.or_eq_true_iff.1 h with h | h
  · exact d.g_p_apart v h
  · exact Dev.get_set_ne _ _ _ _ _ _ _ _ (key_ne_of_pagesApart h (by decide) (by decide))

theorem Dev.g_p_same (v : Nat) (hw : f.width ≤ 32) (hr : f.rst 0 < 2 ^ 32) : (d.p f v).g f = v % 2 ^ f.width := d.rd_wr_same 0 v hw hr

theorem Dev.g64_p64 {lo hi : Field} (v : Nat) (hlo : lo.width = 32 ∧ lo.rst 0 < 2 ^ 32) (hhi : hi.width = 32 ∧ hi.rst 0 < 2 ^ 32)
    (h : fieldsApart hi lo = true) : (d.p64 lo hi v).g64 lo hi = v % 2 ^ 64 := by
  unfold Dev.g64 Dev.p64
  rw [Dev.g_p_ne _ _ h, Dev.g_p_same _ _ (Nat.le_of_eq hlo.1) hlo.2, Dev.g_p_same _ _ (Nat.le_of_eq hhi.1) hhi.2, hlo.1, hhi.1]
  omega

/-! ## The start of an attempt -/

theorem Dev.g_firstAttempt (hround : fieldsApart Reg.WATCH_STATE_ROUND g = true) (hrun : fieldsApart Reg.WATCH_STATE_DIRTY_RUN g = true) :
    d.firstAttempt.g g = d.g g := by
  unfold Dev.firstAttempt
  split
  · rfl
  · exact (Dev.g_p_ne (d.p Reg.WATCH_STATE_ROUND 0) 0 hrun).trans (d.g_p_ne 0 hround)

theorem Dev.g_ledgerView (h : [Reg.LEDGER_DROPPED, Reg.LEDGER_DEFERRED, Reg.LEDGER_APPLIED, Reg.LEDGER_DISCARDED, Reg.STEP_REC_LEDGER_COUNT].all
    (fieldsApart · g) = true) : d.ledgerView.g g = d.g g := by
  simp only [List.all_cons, List.all_nil, Bool.and_true, Bool.and_eq_true] at h
  obtain ⟨h1, h2, h3, h4, h5⟩ := h
  unfold Dev.ledgerView
  simp only
  rw [Dev.g_p_ne _ _ h5, Dev.g_p_ne _ _ h4, Dev.g_p_ne _ _ h3, Dev.g_p_ne _ _ h2, Dev.g_p_ne _ _ h1]

/-- The attempt that begins in beat `b`, before its vote. -/
def Dev.attemptBegun (d : Dev) (b : Nat) : Dev :=
  let fresh : StepSt := { carries := d.step.carries, lastRecord := d.step.lastRecord }
  let d : Dev := { d with step := fresh, spoiled := false, route := { d.route with landed := [], sent := [], asked := [] } }
  ((d.dropStaleMarks.attemptRegs b).firstAttempt).ledgerView

end

section
variable (d : Dev) (b : Nat)

theorem Dev.attemptRegs_registers : (d.attemptRegs b).stepStart = b % 2 ^ 64 ∧ (d.attemptRegs b).g Reg.STEP_REC_STATE_PHASE = 1 ∧
    (d.attemptRegs b).g Reg.STEP_REC_STATE_VOTE = 0 ∧ (d.attemptRegs b).g Reg.STEP_REC_STATE_AGG = 0 ∧
    (d.attemptRegs b).g Reg.BEAT_CFG_MAX_LATE = 0 ∧ (d.attemptRegs b).g Reg.STEP_REC_LEDGER_TRUNCATED = 0 ∧
    (d.attemptRegs b).forcedMode = d.forcedMode ∧ (d.attemptRegs b).lockState = d.lockState := by
  unfold Dev.attemptRegs Dev.forcedMode Dev.lockState Dev.stepStart Dev.p64 Dev.g64
  simp (disch := decide) only [Dev.g_p_ne, Dev.g_p_same]
  refine ⟨?_, by decide, by decide, by decide, by decide, by decide, trivial, trivial⟩
  rw [show Reg.STEP_REC_START_LO.width = 32 from rfl, show Reg.STEP_REC_START_HI.width = 32 from rfl]
  omega

/-- The registers of an attempt that has begun, before its vote. -/
theorem Dev.attemptBegun_registers : (d.attemptBegun b).stepStart = b % 2 ^ 64 ∧ (d.attemptBegun b).g Reg.STEP_REC_STATE_PHASE = 1 ∧
    (d.attemptBegun b).g Reg.STEP_REC_STATE_VOTE = 0 ∧ (d.attemptBegun b).g Reg.STEP_REC_STATE_AGG = 0 ∧
    (d.attemptBegun b).g Reg.BEAT_CFG_MAX_LATE = 0 ∧ (d.attemptBegun b).g Reg.STEP_REC_LEDGER_TRUNCATED = 0 ∧
    (d.attemptBegun b).forcedMode = d.forcedMode ∧ (d.attemptBegun b).lockState = d.lockState := by
  have hbegun := Dev.attemptRegs_registers (Dev.dropStaleMarks { d with
    step := { carries := d.step.carries, lastRecord := d.step.lastRecord }, spoiled := false, route := { d.route with landed := [], sent := [], asked := [] } }) b
  unfold Dev.attemptBegun Dev.stepStart Dev.g64 Dev.forcedMode Dev.lockState
  simp (disch := decide) only [Dev.g_ledgerView, Dev.g_firstAttempt]
  exact hbegun

theorem BesideRegs.ledgerView {β : Type} {p : Dev → β} (hp : BesideRegs p) (d : Dev) : p d.ledgerView = p d := by
  unfold Dev.ledgerView
  simp only [Dev.p, Dev.wr, hp.set]

theorem BesideRegs.attemptRegs {β : Type} {p : Dev → β} (hp : BesideRegs p) (d : Dev) (b : Nat) : p (d.attemptRegs b) = p d := by
  unfold Dev.attemptRegs Dev.p64
  simp only [Dev.p, Dev.wr, hp.set]

/-- The draft, the attempt, whether it is spoiled, and the units. -/
def Dev.attemptView (d : Dev) : List Byte × StepSt × Bool × SMap UnitSt := (d.plan.draft, d.step, d.spoiled, d.units)

theorem besideRegs_attemptView : BesideRegs Dev.attemptView := ⟨fun _ _ _ _ _ => rfl, fun _ _ => rfl⟩

theorem Dev.firstAttempt_kept : d.firstAttempt.attemptView = d.attemptView := by
  unfold Dev.firstAttempt
  split <;> rfl

theorem Dev.attemptBegun_kept : (d.attemptBegun b).attemptView =
    (d.plan.draft, { carries := d.step.carries, lastRecord := d.step.lastRecord }, false, d.units) := by
  unfold Dev.attemptBegun
  rw [besideRegs_attemptView.ledgerView, Dev.firstAttempt_kept, besideRegs_attemptView.attemptRegs]
  rfl

variable {d b} {m : Mem}

theorem Dev.startVote_none (hforced : d.forcedMode = false) (hlock : Dr.single d.plan.draft = true ∨ d.lockState = 2) : d.startVote m = d := by
  have hvote : (! Dr.single d.plan.draft && d.lockState != 2) = false := by
    rcases hlock with h | h <;> simp [h]
  simp [Dev.startVote, hvote, hforced]

theorem Dev.startVote_fails (hforced : d.voteFail.forcedMode = false) (hsingle : Dr.single d.plan.draft = false) (hlock : d.lockState ≠ 2) :
    d.startVote m = d.voteFail := by
  have hvote : (! Dr.single d.plan.draft && d.lockState != 2) = true := by simp [hsingle, hlock]
  simp [Dev.startVote, hvote, hforced]

theorem Dev.stepBegin_none (h : d.step.next = none ∨ d.plan.live = none ∨ d.self = none) : d.stepBegin m = d := by
  unfold Dev.stepBegin
  rcases h with h | h | h
  · rw [h]
  · rw [h]
    cases d.step.next <;> rfl
  · rw [h]
    cases d.step.next <;> cases d.plan.live <;> rfl

theorem Dev.stepBegin_eq {p : Plan} {i : Nat} (hnext : d.step.next = some b) (hlive : d.plan.live = some p) (hself : d.self = some i) :
    d.stepBegin m = if ! d.beatSeen || d.stepOpen || decide (d.beatNum < b) || ! d.mayRun then d else (d.attemptBegun b).startVote m := by
  simp only [Dev.stepBegin, hnext, hlive, hself] <;> rfl

end

/-! ## Votes -/

section
variable {d : Dev}

theorem Dev.voteFor_first {v : Nat} (dirty : Bool) (hopen : d.stepOpen = true) (hvote : d.g Reg.STEP_REC_STATE_VOTE = 0) : d.voteFor v dirty =
    { (d.p Reg.STEP_REC_STATE_PHASE 2).p Reg.STEP_REC_STATE_VOTE v with step := { d.step with dirty := d.step.dirty || dirty } } := by
  unfold Dev.voteFor
  rw [if_pos hopen, hvote, Nat.max_zero]
  rfl

theorem Dev.g_voteFor_phase (v : Nat) (dirty : Bool) (h : d.stepOpen = true) : (d.voteFor v dirty).g Reg.STEP_REC_STATE_PHASE = 2 := by
  unfold Dev.voteFor
  rw [if_pos h]
  exact (Dev.g_p_ne _ _ (f := Reg.STEP_REC_STATE_VOTE) (by decide)).trans (d.g_p_same 2 (f := Reg.STEP_REC_STATE_PHASE) (by decide) (by decide))

theorem Dev.g_voteFor_ne {g : Field} (v : Nat) (dirty : Bool) (hphase : fieldsApart Reg.STEP_REC_STATE_PHASE g = true)
    (hvote : fieldsApart Reg.STEP_REC_STATE_VOTE g = true) : (d.voteFor v dirty).g g = d.g g := by
  unfold Dev.voteFor
  split
  · exact (Dev.g_p_ne _ _ hvote).trans (d.g_p_ne _ hphase)
  · rfl

theorem Dev.stepVote_open {fin : Bool} (hopen : d.stepOpen = true) : d.stepVote fin =
    if d.g Reg.STEP_REC_STATE_VOTE ≠ 0 then { d with step := { d.step with dirty := d.step.dirty || d.spoiled || ! fin } }
    else if d.spoiled || ! fin then d.voteFor 2 true
    else if ! d.decodesEnded || ! d.evaluatedAll || d.drainHeld || ! d.tilesChecked then d
    else d.voteFor 1 false := if_neg (Bool.eq_false_iff.mp (congrArg (! ·) hopen))

theorem Dev.voteTimeout_kept {port : Nat} (h : d.stepOpen = false ∨ d.step.dec ≠ none ∨
    d.beatNum < d.stepStart + d.g Reg.PLAN_RB_N_BEATS + d.g Reg.BEAT_CFG_VOTE_LIMIT) : d.voteTimeout port = d := by
  unfold Dev.voteTimeout
  split
  · rfl
  · refine if_pos ?_
    rcases h with h | h | h
    · simp [h]
    · simp [Option.isSome_iff_ne_none.2 h]
    · simp [h]

theorem Dev.decisionDue_some {code : Nat} {dirty : Bool} {a : Nat} (hdec : d.step.dec = some (code, dirty, a)) (ha : a ≤ d.beatNum)
    (hopen : d.stepOpen = true) : d.decisionDue code = some (dirty, a) := by
  simp [Dev.decisionDue, hdec, ha, hopen]

theorem Dev.decisionDue_none {code : Nat} (h : ¬ ∃ x : Bool × Nat, d.step.dec = some (code, x) ∧ x.2 ≤ d.beatNum ∧ d.stepOpen = true) :
    d.decisionDue code = none := by
  unfold Dev.decisionDue
  split
  · next c dirty a hdec =>
    refine if_neg fun hdue => h ⟨(dirty, a), ?_, hdue.2.1, hdue.2.2⟩
    rw [hdec, hdue.1]
  · rfl

theorem Dev.afterDecision_step (a : Option Nat) : (d.afterDecision a).step.dec = none ∧
    (d.afterDecision a).step.next = if d.g Reg.DRAFT_RUN = 0 then none else a := by
  unfold Dev.afterDecision
  split <;> exact ⟨rfl, rfl⟩

theorem Dev.closeAttempt_registers (code a : Nat) : (d.closeAttempt code a).g Reg.STEP_REC_STATE_DECISION = code % 4 ∧
    (d.closeAttempt code a).g Reg.STEP_REC_STATE_PHASE = 3 ∧ bit ((d.closeAttempt code a).hd Hdr.EVT_BLOCK pgStepRec) 0 = true := by
  unfold Dev.closeAttempt
  simp only
  rw [Dev.g_raise_body _ _ _ _ _ _ (by decide), Dev.g_raise_body _ _ _ _ _ _ (by decide), Dev.g_p_ne _ _ (by decide), Dev.g_p_same _ _ (by decide) (by decide),
    Dev.g_p_same _ _ (by decide) (by decide)]
  exact ⟨rfl, rfl, Dev.raise_block_bit _ (pos := 8) _ _ _ (by decide) (by decide)⟩

/-! ## The ends of waits -/

theorem Dev.drainHoldExpiry_kept {fin : Bool} (h : ¬ (d.stepOpen = true ∧ d.drainHeld = true ∧
    d.stepStart + d.g Reg.PLAN_RB_N_BEATS + d.g Reg.PARTNER_DRAIN_HOLD ≤ d.beatNum)) : d.drainHoldExpiry fin = d := if_neg h

theorem Dev.restoreResume_kept {m : Mem} (h : d.g Reg.RESTORE_STATE ≠ 3 ∨ d.beatSeen = false ∨
    d.beatNum < d.g64 Reg.RESTORE_RESUME_BEAT_LO Reg.RESTORE_RESUME_BEAT_HI ∨ d.stepOpen = true) : d.restoreResume m = d := by
  refine if_pos (h.imp_right (Or.imp_left fun hseen => ?_))
  rw [hseen]
  rfl

theorem Dev.forceWaitExceeded_some {red i : Nat} (hi : Dr.redIdx d.plan.draft red = some i) : d.forceWaitExceeded red =
    if d.stepOpen ∧ d.forcedMode ∧ d.ownsBlocks i ∧ d.forcedMissing i ∧ d.deadlineBeat i + d.g Reg.STEP_REC_FORCE_WAIT ≤ d.beatNum then
      (d.raise pgStepRec 0x060C 10 Sev.error red).voteFail else d := by
  simp only [Dev.forceWaitExceeded, hi] <;> rfl

theorem Dev.forceWaitExceeded_kept {red : Nat} (h : d.stepOpen = false ∨ d.forcedMode = false) : d.forceWaitExceeded red = d := by
  unfold Dev.forceWaitExceeded
  split
  · rfl
  · refine if_neg fun hboth => ?_
    rcases h with h | h
    · exact absurd (h.symm.trans hboth.1) (by decide)
    · exact absurd (h.symm.trans hboth.2.1) (by decide)

end

section
variable {s : State} {b : Nat} {p : Plan} {i : Nat} (hnext : s.dev.step.next = some b) (hlive : s.dev.plan.live = some p) (hself : s.dev.self = some i)
include hnext hlive hself

theorem exec_stepStart_kept (h : s.dev.beatSeen = false ∨ s.dev.stepOpen = true ∨ s.dev.beatNum < b ∨ s.dev.mayRun = false) :
    exec .stepStart s = s.ends s.dev.start := by
  refine congrArg s.ends ((Dev.stepBegin_eq (d := s.dev.start) hnext hlive hself).trans (if_pos ?_))
  have hany : (! s.dev.beatSeen || s.dev.stepOpen || decide (s.dev.beatNum < b) || ! s.dev.mayRun) = true := by
    rcases h with h | h | h | h <;> simp [h]
  exact hany

variable (hseen : s.dev.beatSeen = true) (hopen : s.dev.stepOpen = false) (hbeat : b ≤ s.dev.beatNum) (hmay : s.dev.mayRun = true)
include hseen hopen hbeat hmay

theorem exec_stepStart_begins : exec .stepStart s = s.ends ((s.dev.start.attemptBegun b).startVote s.mem) := by
  refine congrArg s.ends ((Dev.stepBegin_eq (d := s.dev.start) hnext hlive hself).trans (if_neg ?_))
  have hnone : (! s.dev.beatSeen || s.dev.stepOpen || decide (s.dev.beatNum < b) || ! s.dev.mayRun) = false := by
    simp [hseen, hopen, Nat.not_lt_of_le hbeat, hmay]
  exact Bool.eq_false_iff.mp hnone

variable (hforced : s.dev.forcedMode = false)
include hforced

theorem exec_stepStart_votes_not (hlock : Dr.single s.dev.plan.draft = true ∨ s.dev.lockState = 2) :
    exec .stepStart s = s.ends (s.dev.start.attemptBegun b) := by
  obtain ⟨-, -, -, -, -, -, hmode, hstate⟩ := s.dev.start.attemptBegun_registers b
  have hdraft : (s.dev.start.attemptBegun b).plan.draft = s.dev.plan.draft := congrArg (·.1) (s.dev.start.attemptBegun_kept b)
  rw [exec_stepStart_begins hnext hlive hself hseen hopen hbeat hmay]
  refine congrArg s.ends (Dev.startVote_none (hmode.trans hforced) ?_)
  rw [hdraft, hstate]
  exact hlock

theorem exec_stepStart_votes (hsingle : Dr.single s.dev.plan.draft = false) (hlock : s.dev.lockState ≠ 2) :
    exec .stepStart s = s.ends (s.dev.start.attemptBegun b).voteFail := by
  obtain ⟨-, -, -, -, -, -, hmode, hstate⟩ := s.dev.start.attemptBegun_registers b
  have hdraft : (s.dev.start.attemptBegun b).plan.draft = s.dev.plan.draft := congrArg (·.1) (s.dev.start.attemptBegun_kept b)
  have hmode' : (s.dev.start.attemptBegun b).voteFail.forcedMode = false := by
    have hkept : (s.dev.start.attemptBegun b).voteFail.g Reg.STEP_REC_LEDGER_MODE = (s.dev.start.attemptBegun b).g Reg.STEP_REC_LEDGER_MODE :=
      Dev.g_voteFor_ne _ _ (by decide) (by decide)
    unfold Dev.forcedMode
    rw [hkept]
    exact hmode.trans hforced
  rw [exec_stepStart_begins hnext hlive hself hseen hopen hbeat hmay]
  refine congrArg s.ends (Dev.startVote_fails hmode' (by rw [hdraft]; exact hsingle) ?_)
  rw [hstate]
  exact hlock

end

/-- Settles O44: `attemptBegun_registers` for the start, `stepVote_open` for the vote, `decisionDue_some` for the decisions. -/
theorem stepsAndWaits : Obligations.StepsAndWaits := by
  refine ⟨⟨fun s h => congrArg s.ends (Dev.stepBegin_none (d := s.dev.start) h), fun s b p i hnext hlive hself =>
    ⟨exec_stepStart_kept hnext hlive hself, fun hseen hopen hbeat hmay hforced hlock => ?begins,
      fun hseen hopen hbeat hmay hforced hsingle hlock => ?fails⟩, fun s => ?vote, fun s p => ?timeout, fun s code dirty a hdec ha hopen => ?decided,
    fun s => ?undecided, fun d a => Dev.afterDecision_step a, fun d code a => Dev.closeAttempt_registers code a⟩, fun s => ?waits⟩
  case begins =>
    obtain ⟨hstart, hphase, hvote, hagg, hlate, htrunc, -, -⟩ := s.dev.start.attemptBegun_registers b
    obtain ⟨-, hstep, hspoiled, hunits⟩ := s.dev.start.attemptBegun_kept b |> fun h => And.intro (congrArg (·.1) h)
      (And.intro (congrArg (·.2.1) h) (And.intro (congrArg (·.2.2.1) h) (congrArg (·.2.2.2) h)))
    have hexec := exec_stepStart_votes_not hnext hlive hself hseen hopen hbeat hmay hforced hlock
    generalize s.dev.start.attemptBegun b = e at *
    exact ⟨s.after e, ends_next hexec, s.after_mem _, s.after_pending _, hstart, hphase, hvote, hagg, hlate, htrunc, hstep, hspoiled, hunits⟩
  case fails =>
    obtain ⟨-, hphase, hvote, -⟩ := s.dev.start.attemptBegun_registers b
    have hrun : (s.dev.start.attemptBegun b).stepOpen = true := by
      unfold Dev.stepOpen
      rw [hphase]
      rfl
    have hexec := exec_stepStart_votes hnext hlive hself hseen hopen hbeat hmay hforced hsingle hlock
    generalize s.dev.start.attemptBegun b = e at *
    refine ⟨s.after _, ends_next hexec, s.after_mem _, ?_, ?_⟩
    · exact Dev.g_voteFor_phase _ _ hrun
    · refine (Dev.g_voteFor_vote _ _ _ hrun).trans ?_
      rw [hvote]
      decide
  case vote =>
    intro vote ended
    refine ⟨fun hopen fin => congrArg s.ends (if_pos (congrArg (! ·) hopen)), fun hopen hvote fin => ?_, fun hopen hvote => ?_⟩
    · exact congrArg s.ends ((Dev.stepVote_open (d := s.dev.start) hopen).trans (if_pos hvote))
    · have hfirst (fin : Bool) := (Dev.stepVote_open (d := s.dev.start) (fin := fin) hopen).trans (if_neg (not_not.2 hvote))
      refine ⟨congrArg s.ends ?_, fun hspoiled => congrArg s.ends ?_, fun hspoiled hended => congrArg s.ends ?_, fun hspoiled hended => congrArg s.ends ?_⟩
      · exact (hfirst false).trans ((if_pos (Bool.or_true _)).trans (Dev.voteFor_first true hopen hvote))
      · exact (hfirst true).trans ((if_pos (Bool.or_eq_true_iff.2 (Or.inl hspoiled))).trans (Dev.voteFor_first true hopen hvote))
      · refine (hfirst true).trans ((if_neg (Bool.eq_false_iff.mp (Bool.or_eq_false_iff.2 ⟨hspoiled, rfl⟩))).trans ((if_neg ?_).trans
          (Dev.voteFor_first false hopen hvote)))
        have hdone : (! s.dev.decodesEnded || ! s.dev.evaluatedAll || s.dev.drainHeld || ! s.dev.tilesChecked) = false := by
          obtain ⟨hdec, heval, hdrain, htiles⟩ := hended
          simp [hdec, heval, hdrain, htiles]
        exact Bool.eq_false_iff.mp hdone
      · refine (hfirst true).trans ((if_neg (Bool.eq_false_iff.mp (Bool.or_eq_false_iff.2 ⟨hspoiled, rfl⟩))).trans (if_pos ?_))
        have hwait : (! s.dev.decodesEnded || ! s.dev.evaluatedAll || s.dev.drainHeld || ! s.dev.tilesChecked) = true := by
          by_contra hdone
          simp only [Bool.not_eq_true, Bool.or_eq_false_iff, Bool.not_eq_false'] at hdone
          obtain ⟨⟨⟨hdec, heval⟩, hdrain⟩, htiles⟩ := hdone
          exact hended ⟨hdec, heval, hdrain, htiles⟩
        exact hwait
  case timeout =>
    refine ⟨fun hnone => ?_, fun k hk hopen hdec hchild hincomplete hsilent hlate => ?_, fun h => congrArg s.ends (Dev.voteTimeout_kept (d := s.dev.start) h)⟩
    · refine congrArg s.ends ?_
      have hnone' : SMap.find s.dev.start.beat.marks p.toNat = none := hnone
      simp only [Dev.voteTimeout, hnone']
    · refine congrArg s.ends ?_
      have hk' : SMap.find s.dev.start.beat.marks p.toNat = some k := hk
      have hcond : (! s.dev.stepOpen || s.dev.step.dec.isSome || ! s.dev.isChild (p.toNat, k) || s.dev.childComplete k || s.dev.step.silent.contains p.toNat ||
          decide (s.dev.beatNum < s.dev.stepStart + s.dev.g Reg.PLAN_RB_N_BEATS + s.dev.g Reg.BEAT_CFG_VOTE_LIMIT)) = false := by
        simp only [hopen, hdec, hchild, hincomplete, hsilent, decide_eq_false (Nat.not_lt_of_le hlate)]
        rfl
      simp only [Dev.voteTimeout, hk']
      exact if_neg (Bool.eq_false_iff.mp hcond)
  case decided =>
    refine ⟨fun hc => ?_, fun hc => ?_, fun hc => ?_⟩ <;> subst hc <;> refine congrArg s.endsStore ?_
    · simp only [Dev.stepCommit, Dev.decisionDue_some (d := s.dev.start) hdec ha hopen]
    · simp only [Dev.stepReplay, Dev.decisionDue_some (d := s.dev.start) hdec ha hopen]
    · simp only [Dev.stepRecover, Dev.decisionDue_some (d := s.dev.start) hdec ha hopen]
  case undecided =>
    intro due
    refine ⟨fun h => ?_, fun h => ?_, fun h => ?_⟩ <;> refine Eq.trans (congrArg s.endsStore ?_) (endsStore_ends s s.dev.start rfl)
    · simp only [Dev.stepCommit, Dev.decisionDue_none (d := s.dev.start) h]
    · simp only [Dev.stepReplay, Dev.decisionDue_none (d := s.dev.start) h]
    · simp only [Dev.stepRecover, Dev.decisionDue_none (d := s.dev.start) h]
  case waits =>
    refine ⟨fun h fin => congrArg s.ends (if_neg fun hboth => ?_), fun hopen hheld => ⟨fun hlate => ⟨congrArg s.ends ?_, congrArg s.ends ?_⟩,
      fun hearly fin => congrArg s.ends (if_neg fun hboth => Nat.not_lt_of_le hboth.2.2 hearly)⟩,
      fun red h => congrArg s.ends (Dev.forceWaitExceeded_kept (d := s.dev.start) h), fun red i hi hopen hforced howns hmissing =>
      ⟨fun hlate => congrArg s.ends ?_, fun hearly => congrArg s.ends ?_⟩, ?_⟩
    · rcases h with h | h
      · exact absurd (h.symm.trans hboth.1) (by decide)
      · exact absurd (h.symm.trans hboth.2.1) (by decide)
    · exact (if_pos ⟨hopen, hheld, hlate⟩).trans rfl
    · exact (if_pos ⟨hopen, hheld, hlate⟩).trans rfl
    · exact (Dev.forceWaitExceeded_some (d := s.dev.start) hi).trans (if_pos ⟨hopen, hforced, howns, hmissing, hlate⟩)
    · exact (Dev.forceWaitExceeded_some (d := s.dev.start) hi).trans (if_neg fun hboth => Nat.not_lt_of_le hboth.2.2.2.2 hearly)
    · intro b
      refine ⟨fun h => congrArg s.ends (Dev.restoreResume_kept (d := s.dev.start) h), fun hready hseen hb hopen => ?_⟩
      have hgo : ¬ (s.dev.start.g Reg.RESTORE_STATE ≠ 3 ∨ (! s.dev.start.beatSeen) = true ∨ s.dev.start.beatNum < b ∨ s.dev.start.stepOpen = true) := by
        rintro (h | h | h | h)
        · exact h hready
        · exact absurd ((congrArg (! ·) hseen).symm.trans h) (by decide)
        · exact Nat.not_lt_of_le hb h
        · exact absurd (hopen.symm.trans h) (by decide)
      exact congrArg s.ends (if_neg hgo)

end Sys2Proof.Machine

/-! The draft commands and the end of placement (O45). -/

namespace Sys2Proof.Machine

/-! ## Event bits -/

/-- The BLOCK bits of a page after one of its events. -/
theorem Dev.raise_hd_block (d : Dev) {pg pos : Nat} (code sev detail : Nat) (hlo : 8 ≤ pos) :
    (d.raise pg code pos sev detail).hd Hdr.EVT_BLOCK pg = setBit (d.hd Hdr.EVT_BLOCK pg) (pos - 8) % 2 ^ 16 := by
  have hset : (d.hw Hdr.EVT_BLOCK pg (setBit (d.hd Hdr.EVT_BLOCK pg) (pos - 8))).hd Hdr.EVT_BLOCK pg =
      setBit (d.hd Hdr.EVT_BLOCK pg) (pos - 8) % 2 ^ 16 := Dev.hd_hw_same _ _ _ _ (by decide) (by decide)
  unfold Dev.raise
  simp only [if_neg (Nat.not_lt.mpr hlo)]
  split
  · exact hset
  · generalize d.hw Hdr.EVT_BLOCK pg (setBit (d.hd Hdr.EVT_BLOCK pg) (pos - 8)) = e at hset ⊢
    generalize queuesOf pg = qs
    induction qs generalizing e with
    | nil => exact hset
    | cons q qs ih => exact ih _ ((Dev.offer_hd_block ..).trans hset)

/-- An event keeps the BLOCK bits that are set. -/
theorem Dev.raise_block_kept (d : Dev) {pg pos k : Nat} (code sev detail : Nat) (hlo : 8 ≤ pos) (hk : k < 16)
    (h : bit (d.hd Hdr.EVT_BLOCK pg) k = true) : bit ((d.raise pg code pos sev detail).hd Hdr.EVT_BLOCK pg) k = true := by
  rw [d.raise_hd_block code sev detail hlo, bit, Nat.testBit_mod_two_pow, setBit, Nat.testBit_or, show (d.hd Hdr.EVT_BLOCK pg).testBit k = true from h]
  simp [hk]

/-! ## The draft commands -/

section
variable {d : Dev} {m : Mem}

theorem Dev.draftLoad_locked (h : d.g Reg.DRAFT_STATUS_STATE ∈ [1, 2, 4, 5]) : d.draftLoad m = (Cc.locked, d) :=
  if_pos (List.contains_iff_mem.2 h)

/-- The draft and the policy table that a load reads, before the check. -/
def Dev.draftRead (d : Dev) (m : Mem) : Dev :=
  { d.dropDraft with plan := { d.dropDraft.plan with
    draft := d.srcBytes m (d.g Reg.DRAFT_SRC_SPACE) (d.g Reg.DRAFT_SRC_ADDR) (d.g Reg.DRAFT_LEN)
    policy := d.srcBytes m (d.g Reg.SCALE_POL_TABLE_SPACE) (d.g Reg.SCALE_POL_TABLE_ADDR) (d.g Reg.SCALE_POL_TABLE_LEN)
    loadAt := d.now } }

theorem Dev.draftLoad_reads (h : d.g Reg.DRAFT_STATUS_STATE ∉ [1, 2, 4, 5]) : d.draftLoad m = (Cc.done,
    ((((d.draftRead m).p Reg.DRAFT_STATUS_STATE (if (d.draftRead m).draftChecks.isNone then 2 else 1)).p Reg.DRAFT_STATUS_REASON 0).p
      Reg.DRAFT_STATUS_KCODE 0).p Reg.DRAFT_INDEX 0) :=
  if_neg fun hin => h (List.contains_iff_mem.1 hin)

variable (d) in
theorem Dev.draftStatus_registers (v : Nat) :
    ((((d.p Reg.DRAFT_STATUS_STATE v).p Reg.DRAFT_STATUS_REASON 0).p Reg.DRAFT_STATUS_KCODE 0).p Reg.DRAFT_INDEX 0).g Reg.DRAFT_STATUS_STATE = v % 8 ∧
    ((((d.p Reg.DRAFT_STATUS_STATE v).p Reg.DRAFT_STATUS_REASON 0).p Reg.DRAFT_STATUS_KCODE 0).p Reg.DRAFT_INDEX 0).g Reg.DRAFT_STATUS_REASON = 0 := by
  simp (disch := decide) only [Dev.g_p_ne, Dev.g_p_same]
  exact ⟨rfl, by decide⟩

theorem Dev.draftAbort_locked (h : d.g Reg.DRAFT_STATUS_STATE ≠ 3) (h' : d.g Reg.DRAFT_STATUS_STATE ≠ 6) : d.draftAbort = (Cc.locked, d) :=
  if_neg (not_or.2 ⟨h, h'⟩)

theorem Dev.draftAbort_drops (h : d.g Reg.DRAFT_STATUS_STATE = 3 ∨ d.g Reg.DRAFT_STATUS_STATE = 6) :
    d.draftAbort = (Cc.done, d.dropDraft.p Reg.DRAFT_STATUS_STATE 0) := if_pos h

/-! ## Rejections -/

variable (d) in
theorem Dev.rejectDraft_registers (reason i k : Nat) : (d.rejectDraft reason i k).g Reg.DRAFT_STATUS_STATE = 6 ∧
    (d.rejectDraft reason i k).g Reg.DRAFT_STATUS_REASON = reason % 2 ^ Reg.DRAFT_STATUS_REASON.width ∧
    (d.rejectDraft reason i k).g Reg.DRAFT_INDEX = i % 2 ^ Reg.DRAFT_INDEX.width := by
  have hregs (g : Field) (hg : inBody g = true) : (d.rejectDraft reason i k).g g =
      ((((d.p Reg.DRAFT_STATUS_STATE 6).p Reg.DRAFT_STATUS_REASON reason).p Reg.DRAFT_STATUS_KCODE k).p Reg.DRAFT_INDEX i).g g := by
    unfold Dev.rejectDraft
    simp only
    split
    · rw [Dev.g_raise_body _ _ _ _ _ _ hg, Dev.g_raise_body _ _ _ _ _ _ hg]
    · rw [Dev.g_raise_body _ _ _ _ _ _ hg]
  rw [hregs _ (by decide), hregs _ (by decide), hregs _ (by decide)]
  simp (disch := decide) only [Dev.g_p_ne, Dev.g_p_same]
  exact ⟨by decide, trivial, trivial⟩

variable (d) in
theorem Dev.rejectDraft_events (reason i k : Nat) : bit ((d.rejectDraft reason i k).hd Hdr.EVT_BLOCK pgDraft) 1 = true ∧
    (reason = 8 → bit ((d.rejectDraft reason i k).hd Hdr.EVT_BLOCK pgDraft) 2 = true) := by
  unfold Dev.rejectDraft
  simp only
  generalize (((d.p Reg.DRAFT_STATUS_STATE 6).p Reg.DRAFT_STATUS_REASON reason).p Reg.DRAFT_STATUS_KCODE k).p Reg.DRAFT_INDEX i = e
  have hrejected := e.raise_block_bit (pg := pgDraft) (pos := 9) 0x0702 Sev.error (reason + 256 * sat 24 i) (by decide) (by decide)
  split
  · exact ⟨Dev.raise_block_kept _ _ _ _ (by decide) (by decide) hrejected, fun _ => Dev.raise_block_bit _ (pos := 10) _ _ _ (by decide) (by decide)⟩
  · next h => exact ⟨hrejected, fun h' => absurd h' h⟩

/-! ## The end of placement -/

theorem Dev.g_sparesView {g : Field} (hg : inBody g = true) (h : [Reg.SPARES_ROLE, Reg.SPARES_OWN_FEED, Reg.SPARES_FEED_SHARED, Reg.SPARES_PARTNER,
    Reg.SPARES_HOLDS, Reg.SPARES_RING_K, Reg.SPARES_DRAIN, Reg.SPARES_SPARES_LEFT].all (fieldsApart · g) = true) : d.sparesView.g g = d.g g := by
  simp only [List.all_cons, List.all_nil, Bool.and_true, Bool.and_eq_true] at h
  obtain ⟨h1, h2, h3, h4, h5, h6, h7, h8⟩ := h
  have hraise (c : Prop) [Decidable c] (e : Dev) (pg code pos sev detail : Nat) :
      (if c then e.raise pg code pos sev detail else e).g g = e.g g := by
    split
    · exact Dev.g_raise_body _ _ _ _ _ _ hg
    · rfl
  have hraise' (c : Prop) [Decidable c] (e : Dev) (pg code pos sev detail : Nat) :
      (if c then e else e.raise pg code pos sev detail).g g = e.g g := by
    split
    · rfl
    · exact Dev.g_raise_body _ _ _ _ _ _ hg
  unfold Dev.sparesView
  simp only
  rw [hraise, hraise', Dev.g_p_ne _ _ h8, Dev.g_p_ne _ _ h7, Dev.g_p_ne _ _ h6, Dev.g_p_ne _ _ h5, Dev.g_p_ne _ _ h4, Dev.g_p_ne _ _ h3,
    Dev.g_p_ne _ _ h2, Dev.g_p_ne _ _ h1]

theorem BesideRegs.sparesView {β : Type} {p : Dev → β} (hp : BesideRegs p) (d : Dev) : p d.sparesView = p d := by
  unfold Dev.sparesView
  simp only [apply_ite p, hp.raise, Dev.p, Dev.wr, hp.set, ite_self]

theorem Dev.g_planEvents {g : Field} (q : Plan) (hg : inBody g = true) : (d.planEvents q).g g = d.g g :=
  (foldl_keeps (fun e : Dev => e.g g) _ (fun e x => Dev.g_raise_body _ _ _ _ _ _ hg) _ _).trans
    (foldl_keeps (fun e : Dev => e.g g) _ (fun e x => Dev.g_raise_body _ _ _ _ _ _ hg) _ _)

theorem BesideRegs.planEvents {β : Type} {p : Dev → β} (hp : BesideRegs p) (d : Dev) (q : Plan) : p (d.planEvents q) = p d :=
  (foldl_keeps p _ (fun e x => hp.raise _ _ _ _ _ _) _ _).trans (foldl_keeps p _ (fun e x => hp.raise _ _ _ _ _ _) _ _)

theorem BesideRegs.policyStatus {β : Type} {p : Dev → β} (hp : BesideRegs p) (d : Dev) : p d.policyStatus = p d := by
  unfold Dev.policyStatus
  simp only
  split
  · simp only [hp.raise, Dev.p, Dev.wr, hp.set]
  · exact (foldl_keeps p _ (fun e x => hp.set _ _ _ _ _) _ _).trans (by simp only [Dev.p, Dev.wr, hp.set])

/-- The device with the plan that a placement has found. -/
def Dev.planFound (d : Dev) (q : Plan) : Dev :=
  let d := { d with plan := { d.plan with ready := some q, scales := d.freshScales } }
  let d := (d.p Reg.SR_SEED_JOB_SEED_LO (fld d.plan.draft 0x10 4)).p Reg.SR_SEED_JOB_SEED_HI (fld d.plan.draft 0x14 4)
  let d := (d.planEvents q).p Reg.DRAFT_STATUS_STATE 3
  d.sparesView.raise pgDraft 0x0701 8 Sev.info (Dr.stepBeats d.plan.draft)

theorem Dev.placementDone_idle (h : d.g Reg.DRAFT_STATUS_STATE ≠ 1) (h' : d.g Reg.DRAFT_STATUS_STATE ≠ 2) : d.placementDone = d := if_pos ⟨h, h'⟩

/-- The device with the status of its policy table, which a draft with a sound head has. -/
def Dev.headChecked (d : Dev) : Dev := if d.draftHead = none then d.policyStatus else d

theorem Dev.placementDone_eq (h : d.g Reg.DRAFT_STATUS_STATE = 1 ∨ d.g Reg.DRAFT_STATUS_STATE = 2) : d.placementDone =
    match d.headChecked.checkAndPlace with
    | .reject r i k => d.headChecked.rejectDraft r i k
    | .ok q => d.headChecked.planFound q := by
  have hstate : ¬ (d.g Reg.DRAFT_STATUS_STATE ≠ 1 ∧ d.g Reg.DRAFT_STATUS_STATE ≠ 2) := fun hboth => h.elim hboth.1 hboth.2
  have hhead : (if d.draftHead.isNone then d.policyStatus else d) = d.headChecked := by
    simp only [Dev.headChecked, Option.isNone_iff_eq_none]
  unfold Dev.placementDone
  simp only [if_neg hstate, hhead] <;> rfl

theorem Dev.planFound_registers (q : Plan) : (d.planFound q).g Reg.DRAFT_STATUS_STATE = 3 ∧
    (d.planFound q).g Reg.SR_SEED_JOB_SEED_LO = fld d.plan.draft 0x10 4 % 2 ^ 32 ∧ bit ((d.planFound q).hd Hdr.EVT_BLOCK pgDraft) 0 = true := by
  unfold Dev.planFound
  simp only
  refine ⟨?_, ?_, Dev.raise_block_bit _ (pos := 8) _ _ _ (by decide) (by decide)⟩
  · rw [Dev.g_raise_body _ _ _ _ _ _ (by decide), Dev.g_sparesView (by decide) (by decide)]
    exact Dev.g_p_same _ 3 (f := Reg.DRAFT_STATUS_STATE) (by decide) (by decide)
  · rw [Dev.g_raise_body _ _ _ _ _ _ (by decide), Dev.g_sparesView (by decide) (by decide), Dev.g_p_ne _ _ (by decide),
      Dev.g_planEvents _ (by decide), Dev.g_p_ne _ _ (by decide)]
    exact Dev.g_p_same _ _ (f := Reg.SR_SEED_JOB_SEED_LO) (by decide) (by decide)

theorem besideRegs_plan : BesideRegs Dev.plan := ⟨fun _ _ _ _ _ => rfl, fun _ _ => rfl⟩

theorem Dev.planFound_plan (q : Plan) : (d.planFound q).plan = { d.plan with ready := some q, scales := d.freshScales } := by
  unfold Dev.planFound
  simp only
  rw [Dev.raise_plan, besideRegs_plan.sparesView]
  exact besideRegs_plan.planEvents _ q

theorem Dev.headChecked_plan : d.headChecked.plan = d.plan := by
  unfold Dev.headChecked
  split
  · exact besideRegs_plan.policyStatus d
  · rfl

end

section
variable {s : State} {r : Requester}

theorem exec_draftCmdLoad (hacc : s.accepts r pgDraft 0x090 true) (hwork : s.dev.refusesWork pgDraft = false) :
    exec (.draftCmdLoad r) s = s.ends ((s.dev.start.draftLoad s.mem).2.done (s.dev.start.draftLoad s.mem).1) :=
  work_ok s r pgDraft 0x090 (Dev.draftLoad s.mem) hacc hwork

theorem exec_draftCmdAbort (hacc : s.accepts r pgDraft 0x090 true) :
    exec (.draftCmdAbort r) s = s.ends (s.dev.start.draftAbort.2.done s.dev.start.draftAbort.1) :=
  action_ok s r pgDraft 0x090 Dev.draftAbort hacc

/-- An accepted load leaves the page's registers written over the draft that it has read. -/
theorem exec_draftCmdLoad_reads (hacc : s.accepts r pgDraft 0x090 true) (hwork : s.dev.refusesWork pgDraft = false)
    (h : s.dev.g Reg.DRAFT_STATUS_STATE ∉ [1, 2, 4, 5]) : exec (.draftCmdLoad r) s = s.ends
      (((((s.dev.start.draftRead s.mem).p Reg.DRAFT_STATUS_STATE (if (s.dev.start.draftRead s.mem).draftChecks.isNone then 2 else 1)).p
        Reg.DRAFT_STATUS_REASON 0).p Reg.DRAFT_STATUS_KCODE 0).p Reg.DRAFT_INDEX 0 |>.done 0) := by
  rw [exec_draftCmdLoad hacc hwork, Dev.draftLoad_reads (d := s.dev.start) h]
  rfl

end

/-- Settles O45: `draftLoad_reads`, `placementDone_eq` and `rejectDraft_registers`. -/
theorem draftCommands : Obligations.DraftCommands := by
  intro s r st
  refine ⟨fun hacc => ⟨fun hwork hin => ?_, fun hwork hout => ?load, fun h3 h6 => ?_, fun h => ?_⟩, fun h1 h2 => ⟨?_, ?_⟩, fun h => ⟨?place, ?_⟩,
    fun d reason i k => ?_⟩
  · rw [exec_draftCmdLoad hacc hwork, Dev.draftLoad_locked (d := s.dev.start) hin]
    rfl
  case load =>
    intro b p e e'
    have hexec := exec_draftCmdLoad_reads hacc hwork hout
    have he : s.dev.start.draftRead s.mem = e' := rfl
    rw [he] at hexec
    have hchecks : e'.draftChecks.isNone = true ↔ e'.draftChecks = none := Option.isNone_iff_eq_none
    have hkept : e'.plan.live = none ∧ e'.plan.ready = none ∧ e'.plan.draft = b ∧ e'.plan.policy = p ∧ e'.plan.loadAt = s.dev.now ∧
        e'.units = s.dev.units ∧ e'.step = s.dev.step ∧ e'.out = [] := ⟨rfl, rfl, rfl, rfl, rfl, rfl, rfl, rfl⟩
    clear_value e'
    simp only [hchecks] at hexec
    obtain ⟨hlive, hready, hdraft, hpolicy, hload, hunits, hstep, hout'⟩ := hkept
    refine ⟨s.after _, ends_next hexec, s.after_mem _, s.after_pending _, ?_, ?_, ?_, hlive, hready, hdraft, hpolicy, hload, hunits, hstep⟩
    · exact congrArg (· ++ [Output.completion 0 0]) hout'
    · refine (e'.draftStatus_registers _).1.trans ?_
      split <;> decide
    · exact (e'.draftStatus_registers _).2
  · rw [exec_draftCmdAbort hacc, Dev.draftAbort_locked (d := s.dev.start) h3 h6]
    rfl
  · rw [exec_draftCmdAbort hacc, Dev.draftAbort_drops (d := s.dev.start) h]
    rfl
  · exact congrArg s.ends (Dev.placementDone_idle (d := s.dev.start) h1 h2)
  · exact congrArg s.ends (if_neg (not_or.2 ⟨h1, h2⟩))
  case place =>
    have hdone := congrArg s.ends (Dev.placementDone_eq (d := s.dev.start) h)
    have hplan := Dev.headChecked_plan (d := s.dev.start)
    show match s.dev.start.headChecked.checkAndPlace with
      | .reject reason i k => exec .placementDone s = s.ends (s.dev.start.headChecked.rejectDraft reason i k)
      | .ok p => _
    generalize s.dev.start.headChecked = e at hdone hplan
    cases hplace : e.checkAndPlace with
    | reject reason i k =>
      rw [hplace] at hdone
      exact hdone
    | ok q =>
      rw [hplace] at hdone
      obtain ⟨hstate, hseed, hevent⟩ := Dev.planFound_registers (d := e) q
      have hfound := Dev.planFound_plan (d := e) q
      simp only at hdone
      generalize e.planFound q = x at *
      refine ⟨s.after x, ends_next hdone, s.after_mem _, s.after_pending _, hstate, congrArg PlanSt.ready hfound, ?_, ?_, hevent⟩
      · have hlive : e.plan.live = s.dev.plan.live := congrArg PlanSt.live hplan
        exact (congrArg PlanSt.live hfound).trans hlive
      · refine hseed.trans ?_
        rw [hplan]
        rfl
  · exact congrArg s.ends (if_pos h)
  · obtain ⟨hstate, hreason, hindex⟩ := d.rejectDraft_registers reason i k
    exact ⟨hstate, hreason, hindex, d.rejectDraft_events reason i k⟩

end Sys2Proof.Machine

/-! Re-plans, the plan commit, and way swaps (O46). -/

namespace Sys2Proof.Machine

/-! ## What the host side has no part in -/

/-- The registers that a host frame that leaves changes, each on the pages of its port. -/
def txFields : List Field := [Reg.HOST_MAC_TX_FRAMES, Reg.HOST_SEC_TX_PN_LO, Reg.HOST_SEC_TX_PN_HI, Reg.HOST_XPORT_SEGS_TX]

/-- A part of the device that host frames, sessions and channels leave alone. -/
structure BesideHost {β : Type} (p : Dev → β) : Prop where
  tx : ∀ (d : Dev) (f : Field) (port v : Nat), f ∈ txFields → p (d.wr f (hostInst port) v) = p d
  host : ∀ (d : Dev) (x : HostSt), x.wallBase = d.host.wallBase → p { d with host := x } = p d
  out : ∀ (d : Dev) (x : List Output), p { d with out := x } = p d

theorem BesideRegs.host {β : Type} {p : Dev → β} (hp : BesideRegs p) (hhost : ∀ (d : Dev) (x : HostSt), x.wallBase = d.host.wallBase → p { d with host := x } = p d)
    (hout : ∀ (d : Dev) x, p { d with out := x } = p d) : BesideHost p :=
  ⟨fun d f port v _ => hp.set d f _ 0 v, hhost, hout⟩

/-- A field that stands on another page, or at another place of it, than what a host frame that leaves changes. -/
def offTx (g : Field) : Bool :=
  txFields.all fun f => decide (f.place 0 < 131072 ∧ g.place 0 < 131072 ∧ f.page < 16 ∧ g.page < 16 ∧ (f.page ≠ g.page ∨ f.place 0 ≠ g.place 0))

theorem besideHost_rd {g : Field} (hg : offTx g = true) (inst : Nat) : BesideHost fun d => d.rd g inst := by
  refine ⟨fun d f port v hf => ?_, fun _ _ _ => rfl, fun _ _ => rfl⟩
  obtain ⟨hfp, hgp, hfpage, hgpage, hne⟩ := of_decide_eq_true (List.all_eq_true.1 hg f hf)
  refine Dev.get_set_ne _ _ _ _ _ _ _ _ ?_
  rw [Field.key_eq_place, Field.key_eq_place]
  unfold Field.pg pageNum
  omega

namespace BesideHost

variable {β : Type} {p : Dev → β} (hp : BesideHost p)
include hp

theorem send (d : Dev) (o : Output) : p (d.send o) = p d := hp.out _ _

theorem setSess (d : Dev) (s : Sess) : p (d.setSess s) = p d := hp.host _ _ rfl

theorem setChan (d : Dev) (c : Chan) : p (d.setChan c) = p d := hp.host _ _ rfl

theorem txFrame (d : Dev) (port : Nat) : p (d.txFrame port) = p d := by
  have hcount : p (d.count Reg.HOST_MAC_TX_FRAMES (hostInst port)) = p d := hp.tx _ _ _ _ (by simp [txFields])
  have hnumber (e : Dev) (n n' : Nat) : p ((e.wr Reg.HOST_SEC_TX_PN_LO (hostInst port) n).wr Reg.HOST_SEC_TX_PN_HI (hostInst port) n') = p e :=
    (hp.tx _ _ _ _ (by simp [txFields])).trans (hp.tx _ _ _ _ (by simp [txFields]))
  unfold Dev.txFrame
  simp only
  split
  · split
    · rw [hp.send, hnumber, hcount]
    · rw [hnumber, hcount]
  · exact hcount

theorem segOut (d : Dev) (s : Sess) (ty : Nat) (f l : Bool) (seq chan : Nat) (payload : List Byte) :
    p (d.segOut s ty f l seq chan payload) = p d := by
  have hcount (e : Dev) : p (e.count Reg.HOST_XPORT_SEGS_TX (hostInst s.port)) = p e := hp.tx _ _ _ _ (by simp [txFields])
  unfold Dev.segOut
  simp only
  rw [hp.setSess, hp.send, hcount, hp.txFrame]

theorem refill (d : Dev) (s : Sess) : p (d.refill s) = p d := by
  unfold Dev.refill
  split
  · simp only [hp.setSess, hp.setChan]
  · rfl

theorem pump (n : Nat) (d : Dev) (id : Nat) : p (d.pump id n) = p d := by
  induction n generalizing d with
  | zero => rfl
  | succ n ih =>
    unfold Dev.pump
    split
    · rfl
    · next s _ =>
      have hrefill : p (if s.queue = [] ∧ s.una.length < min s.window 256 ∧ ! s.closed then d.refill s else d) = p d := by
        rw [apply_ite p, hp.refill, ite_self]
      simp only
      generalize (if s.queue = [] ∧ s.una.length < min s.window 256 ∧ ! s.closed then d.refill s else d) = e at hrefill ⊢
      split
      · exact hrefill
      · split
        · exact hrefill
        · split
          · exact hrefill
          · exact (ih _).trans ((hp.segOut _ _ _ _ _ _ _ _).trans hrefill)

theorem pumpAll (d : Dev) (id : Nat) : p (d.pumpAll id) = p d := hp.pump _ _ _

theorem record (d : Dev) (ty : Nat) (obj : List Byte) : p (d.record ty obj) = p d :=
  (foldl_keeps p _ (fun e id => hp.pumpAll e id) _ _).trans (hp.host _ _ rfl)

theorem queueMsg (d : Dev) (id chan : Nat) (msg : List Byte) : p (d.queueMsg id chan msg) = p d := by
  unfold Dev.queueMsg
  split
  · rfl
  · refine (hp.pumpAll _ _).trans ((hp.setSess _ _).trans ?_)
    split
    · exact hp.setChan _ _
    · rfl

end BesideHost

/-! ## Re-plans -/

section
variable {d : Dev} {c : Nat}

theorem Dev.replanStart_none (h : d.plan.draft = [] ∨ d.plan.live = none ∨ (c = 4 ∧ d.fitChanged = false)) : d.replanStart c = d :=
  if_pos (h.imp_right (Or.imp_right fun h => ⟨h.1, congrArg (! ·) h.2⟩))

/-- The plan state once a cause has joined the pending ones. -/
def PlanSt.causeAdded (p : PlanSt) (c now : Nat) : PlanSt :=
  { p with causes := if p.causes.contains c then p.causes else p.causes ++ [c]
           causeAt := if p.causes.isEmpty then now else p.causeAt, ready := none, replanning := true }

theorem Dev.replanStart_joins (hdraft : d.plan.draft ≠ []) (hlive : d.plan.live ≠ none) (h : c = 4 → d.fitChanged = true) : d.replanStart c =
    if d.g Reg.DRAFT_STATUS_STATE = 3 ∨ d.g Reg.DRAFT_STATUS_STATE = 4 then
      ({ d with plan := d.plan.causeAdded c d.now } : Dev).p Reg.DRAFT_STATUS_STATE 5 else { d with plan := d.plan.causeAdded c d.now } := by
  refine if_neg ?_
  rintro (h' | h' | ⟨hc, hfit⟩)
  · exact hdraft h'
  · exact hlive h'
  · exact absurd ((congrArg (! ·) (h hc)).symm.trans hfit) (by decide)

theorem Dev.g_replanStops {g : Field} (h : fieldsApart Reg.DRAFT_STATUS_STATE g = true) : d.replanStops.g g = d.g g := by
  unfold Dev.replanStops
  simp only
  split
  · exact (Dev.g_p_ne _ _ h).trans rfl
  · rfl

theorem Dev.replanFails_eq (code : Nat) : d.replanFails code = if d.plan.causes = [4]
    then d.replanStops.raise pgPlanRb 0x070C 11 Sev.warn (d.g Reg.LEASE_LEASE_OP + 16 * d.g Reg.PLAN_RB_FIT_OP)
    else (d.replanStops.raise pgDraft 0x070D 14 Sev.error code).voteFail := by
  unfold Dev.replanFails
  simp only [beq_iff_eq, Dev.g_replanStops (g := Reg.LEASE_LEASE_OP) (by decide), Dev.g_replanStops (g := Reg.PLAN_RB_FIT_OP) (by decide)]

theorem Dev.replanDone_idle (h : d.plan.replanning = false) : d.replanDone = d := if_pos (congrArg (! ·) h)

theorem Dev.replanDone_eq (h : d.plan.replanning = true) : d.replanDone = match d.place d.nextFaults d.replanOp with
    | .ok p =>
      if (∀ c ∈ d.plan.causes, c = 4 ∨ c = 5) ∧ d.plan.live.map (·.hash) ≠ some p.hash then d.replanFails 12
      else { d.planEvents p with plan := { d.plan with ready := some p, replanning := false } }
    | .reject r _ _ => d.replanFails r := by
  unfold Dev.replanDone
  rw [if_neg (Bool.eq_false_iff.mp (congrArg (! ·) h))]
  simp only [List.all_eq_true, Bool.or_eq_true, beq_iff_eq] <;> rfl

end

/-! ## The plan commit -/

/-- A fold whose steps keep a part of the device, each for an element of its list. -/
theorem foldl_keeps_mem {α β : Type} (p : Dev → β) (f : Dev → α → Dev) (xs : List α) (hf : ∀ d, ∀ x ∈ xs, p (f d x) = p d) (d : Dev) :
    p (xs.foldl f d) = p d := by
  induction xs generalizing d with
  | nil => rfl
  | cons x xs ih =>
    rw [List.foldl_cons, ih fun d y hy => hf d y (List.mem_cons_of_mem x hy)]
    exact hf d x List.mem_cons_self

/-- A part of the device that the registers, the gangs and the standbys leave alone. -/
structure BesideGangs {β : Type} (p : Dev → β) : Prop extends BesideRegs p where
  shadow : ∀ (d : Dev) x, p { d with shadow := x } = p d
  pages : ∀ (d : Dev) x, p { d with pages := x } = p d
  clusters : ∀ (d : Dev) x, p { d with clusters := x } = p d

namespace BesideGangs

variable {β : Type} {p : Dev → β} (hp : BesideGangs p)
include hp

theorem wr (d : Dev) (f : Field) (inst v i : Nat) : p (d.wr f inst v i) = p d := hp.set d f _ i v

theorem hw (d : Dev) (f : Field) (pg v : Nat) : p (d.hw f pg v) = p d := hp.set d f _ 0 v

theorem setReqs (d : Dev) (pg a b : Nat) : p (d.setReqs pg a b) = p d := (hp.hw _ _ _ _).trans (hp.pages _ _)

theorem matrixView (d : Dev) (u : Nat) : p (d.matrixView u) = p d := by
  unfold Dev.matrixView
  simp only [apply_ite p, hp.busy, hp.idle, hp.setReqs, hp.wr, ite_self]

theorem gangView (d : Dev) (c : Nat) : p (d.gangView c) = p d :=
  (foldl_keeps p _ (fun e u => hp.matrixView e u) _ _).trans (hp.wr _ _ _ _ _)

theorem gateStandby (d : Dev) (c : Nat) (on : Bool) : p (d.gateStandby c on) = p d := by
  refine foldl_keeps p _ (fun e pg => ?_) _ _
  simp only [apply_ite p, hp.setBs, hp.hw, ite_self]

theorem enableStandbys (d : Dev) : p d.enableStandbys = p d := by
  refine foldl_keeps p _ (fun e c => ?_) _ _
  refine (hp.wr _ _ _ _ _).trans ((hp.clusters _ _).trans ?_)
  simp only [apply_ite p, hp.gateStandby, ite_self]

theorem setParts (d : Dev) (q : Plan) : p (d.setParts q) = p d := by
  refine foldl_keeps p _ (fun e x => ?_) _ _
  refine (hp.shadow _ _).trans (foldl_keeps p _ (fun e y => ?_) _ _)
  exact (hp.wr _ _ _ _ _).trans (hp.wr _ _ _ _ _)

theorem setGangs (d : Dev) (q : Plan) : p (d.setGangs q) = p d := by
  refine foldl_keeps p _ (fun e c => ?_) _ _
  refine (hp.shadow _ _).trans ((hp.gangView _ _).trans (foldl_keeps p _ (fun e n => ?_) _ _))
  split
  · simp only [hp.wr]
  · exact hp.wr _ _ _ _ _

theorem restartUnits (d : Dev) (q : Plan) : p (d.restartUnits q) = p d := by
  refine foldl_keeps p _ (fun e u => ?_) _ _
  unfold Dev.unstop Dev.stoppedView
  simp only [apply_ite p, hp.wr, ite_self]

end BesideGangs

section
variable (d : Dev)

/-- The device once a plan is in force, before its table is stored. -/
def Dev.planInForce (p : Plan) (cause lastMs : Nat) : Dev :=
  let d := (((d.enableStandbys.setParts p).setGangs p)).restartUnits p
  let d : Dev := { d with plan := { d.plan with live := some p, planned := true, ready := none, causes := [], replanning := false } }
  (d.planReadBack p cause).p Reg.PLAN_RB_LAST_MS lastMs

/-- What follows PLAN_RB at a plan commit: the state of the draft, the plan's table and its staged images, the spares, and the event. -/
def Dev.planStored (p : Plan) (cause : Nat) : Dev :=
  let d := if d.g Reg.DRAFT_STATUS_STATE = 5 then d.p Reg.DRAFT_STATUS_STATE (if d.g Reg.DRAFT_RUN = 1 then 4 else 3) else d
  let d := match d.srcAddr d.tablePlace.1 d.tablePlace.2 with
    | some a => d.poke a (p.entries.flatMap PlanEntry.bytes)
    | none => d
  let d := p.staging.foldl (fun (d : Dev) x => d.poke x.1 x.2) d
  d.sparesView.raise pgDraft 0x0704 11 Sev.info (cause + 256 * p.fitOp)

theorem Dev.g_modelPlan (n : Nat) {g : Field} (hplace : g.place 0 < 131072) (hmodel : g.pg 0 ≠ pageNum 12 0 2) (hmeasure : g.pg 0 ≠ pageNum 12 0 3) :
    (d.modelPlan n).g g = d.g g := by
  have hmean : (List.foldl (fun (d : Dev) op => d.p Reg.MODEL_PMEAN (sat 16 (d.pmean op n)) op) d (List.range 16)).g g = d.g g := by
    refine foldl_keeps_mem (fun e : Dev => e.g g) _ _ (fun e op hop => ?_) d
    have hop := List.mem_range.1 hop
    refine Dev.rd_wr_page e 0 _ 0 ?_ hplace (Ne.symm hmodel)
    simp only [Field.place, Reg.MODEL_PMEAN]
    omega
  unfold Dev.modelPlan
  simp only
  split
  · exact hmean
  · exact (Dev.rd_wr_page _ 0 _ 0 (f := Reg.MEASURE_FAILED) (i := 0) (by decide) hplace (Ne.symm hmeasure)).trans hmean

/-- The registers of PLAN_RB that describe a plan. -/
theorem Dev.planReadBack_registers (p : Plan) (cause : Nat) : (d.planReadBack p cause).g Reg.PLAN_RB_TIMING_ID = p.timing % 2 ^ 32 ∧
    (d.planReadBack p cause).g Reg.PLAN_RB_N_BEATS = Dr.stepBeats d.plan.draft % 2 ^ 16 ∧
    (d.planReadBack p cause).g Reg.PLAN_RB_FIT_OP = p.fitOp % 16 ∧ (d.planReadBack p cause).g Reg.PLAN_RB_PLAN_OP = p.planOp % 16 ∧
    (d.planReadBack p cause).g Reg.PLAN_RB_TABLE_COUNT = p.entries.length % 2 ^ 32 := by
  have hdraft : ((List.range 8).foldl (fun (d : Dev) i => d.p Reg.PLAN_RB_NUMERIC_HASH (fld p.hash (4 * i) 4) i) d).plan.draft = d.plan.draft :=
    foldl_keeps (fun e : Dev => e.plan.draft) (fun (d : Dev) i => d.p Reg.PLAN_RB_NUMERIC_HASH (fld p.hash (4 * i) 4) i) (fun _ _ => rfl) _ _
  have hcount (e : Dev) (n : Nat) {g : Field} (h : fieldsApart Reg.PLAN_RB_REPLANS g = true) : (e.bump Reg.PLAN_RB_REPLANS 0 n).g g = e.g g :=
    e.g_p_ne _ h
  unfold Dev.planReadBack
  simp (disch := decide) only [Dev.g_p_ne, Dev.g_p_same, Dev.g_modelPlan, hcount]
  exact ⟨rfl, congrArg (fun b => Dr.stepBeats b % 2 ^ 16) hdraft, rfl, rfl, rfl⟩

theorem BesideRegs.planReadBack {β : Type} {p : Dev → β} (hp : BesideRegs p) (q : Plan) (cause : Nat) : p (d.planReadBack q cause) = p d := by
  have hmodel (e : Dev) (n : Nat) : p (e.modelPlan n) = p e := by
    have hmean := foldl_keeps p (fun (d : Dev) op => d.p Reg.MODEL_PMEAN (sat 16 (d.pmean op n)) op) (fun e op => hp.set _ _ _ _ _) (List.range 16) e
    unfold Dev.modelPlan
    simp only
    split
    · exact hmean
    · exact (hp.set _ _ _ _ _).trans hmean
  unfold Dev.planReadBack
  simp only [Dev.p, Dev.wr, hp.set, hmodel, Dev.bump]
  exact foldl_keeps p _ (fun e op => hp.set _ _ _ _ _) _ _

theorem Dev.planStored_keeps {β : Type} {q : Dev → β} (hq : BesideRegs q) (hwrites : ∀ (d : Dev) x, q { d with writes := x } = q d) (p : Plan)
    (cause : Nat) : q (d.planStored p cause) = q d := by
  have hstate (c : Prop) [Decidable c] (v : Nat) : q (if c then d.p Reg.DRAFT_STATUS_STATE v else d) = q d := by
    rw [apply_ite q, Dev.p, Dev.wr, hq.set, ite_self]
  unfold Dev.planStored
  simp only
  rw [hq.raise, hq.sparesView]
  refine (foldl_keeps q _ (fun e x => hwrites _ _) _ _).trans ?_
  split
  · exact (hwrites _ _).trans (hstate _ _)
  · exact hstate _ _

theorem Dev.g_planStored {g : Field} (hg : inBody g = true) (hstate : fieldsApart Reg.DRAFT_STATUS_STATE g = true)
    (hspares : [Reg.SPARES_ROLE, Reg.SPARES_OWN_FEED, Reg.SPARES_FEED_SHARED, Reg.SPARES_PARTNER, Reg.SPARES_HOLDS, Reg.SPARES_RING_K,
      Reg.SPARES_DRAIN, Reg.SPARES_SPARES_LEFT].all (fieldsApart · g) = true) (p : Plan) (cause : Nat) : (d.planStored p cause).g g = d.g g := by
  have hstate (c : Prop) [Decidable c] (v : Nat) : (if c then d.p Reg.DRAFT_STATUS_STATE v else d).g g = d.g g := by
    split
    · exact d.g_p_ne v hstate
    · rfl
  unfold Dev.planStored
  simp only
  rw [Dev.g_raise_body _ _ _ _ _ _ hg, Dev.g_sparesView hg hspares]
  refine (foldl_keeps (fun e : Dev => e.g g) (fun (d : Dev) (x : Nat × List Byte) => d.poke x.1 x.2) (fun _ _ => rfl) _ _).trans ?_
  split
  · exact (show Dev.g (Dev.poke _ _ _) g = Dev.g _ g from rfl).trans (hstate _ _)
  · exact hstate _ _

/-- The plan, and the fault map. -/
def Dev.planView : PlanSt × List (Nat × Nat) := (d.plan, d.faults)

theorem besideGangs_planView : BesideGangs Dev.planView :=
  { set := fun _ _ _ _ _ => rfl, queues := fun _ _ => rfl, shadow := fun _ _ => rfl, pages := fun _ _ => rfl, clusters := fun _ _ => rfl }

theorem Dev.planInForce_view (p : Plan) (cause lastMs : Nat) : (d.planInForce p cause lastMs).planView =
    ({ d.plan with live := some p, planned := true, ready := none, causes := [], replanning := false }, d.faults) := by
  have hgangs : ((((d.enableStandbys.setParts p).setGangs p)).restartUnits p).planView = d.planView := by
    rw [besideGangs_planView.restartUnits, besideGangs_planView.setGangs, besideGangs_planView.setParts, besideGangs_planView.enableStandbys]
  unfold Dev.planInForce
  simp only
  generalize ((((d.enableStandbys.setParts p).setGangs p)).restartUnits p) = e at hgangs ⊢
  refine (besideGangs_planView.wr _ _ _ _ _).trans ((besideGangs_planView.toBesideRegs.planReadBack _ p cause).trans ?_)
  have hplan : e.plan = d.plan := congrArg Prod.fst hgangs
  have hfaults : e.faults = d.faults := congrArg Prod.snd hgangs
  rw [Dev.planView, hplan, hfaults]

/-- The registers of PLAN_RB once a plan is in force. -/
theorem Dev.planInForce_registers (p : Plan) (cause lastMs : Nat) : (d.planInForce p cause lastMs).g Reg.PLAN_RB_TIMING_ID = p.timing % 2 ^ 32 ∧
    (d.planInForce p cause lastMs).g Reg.PLAN_RB_N_BEATS = Dr.stepBeats d.plan.draft % 2 ^ 16 ∧
    (d.planInForce p cause lastMs).g Reg.PLAN_RB_FIT_OP = p.fitOp % 16 ∧ (d.planInForce p cause lastMs).g Reg.PLAN_RB_PLAN_OP = p.planOp % 16 ∧
    (d.planInForce p cause lastMs).g Reg.PLAN_RB_LAST_MS = lastMs % 2 ^ 16 ∧
    (d.planInForce p cause lastMs).g Reg.PLAN_RB_TABLE_COUNT = p.entries.length % 2 ^ 32 := by
  have hgangs : ((((d.enableStandbys.setParts p).setGangs p)).restartUnits p).planView = d.planView := by
    rw [besideGangs_planView.restartUnits, besideGangs_planView.setGangs, besideGangs_planView.setParts, besideGangs_planView.enableStandbys]
  unfold Dev.planInForce
  simp only
  generalize ((((d.enableStandbys.setParts p).setGangs p)).restartUnits p) = e at hgangs ⊢
  have hplan : e.plan = d.plan := congrArg Prod.fst hgangs
  obtain ⟨htiming, hbeats, hfit, hop, hcount⟩ := Dev.planReadBack_registers
    ({ e with plan := { e.plan with live := some p, planned := true, ready := none, causes := [], replanning := false } } : Dev) p cause
  simp (disch := decide) only [Dev.g_p_ne, Dev.g_p_same]
  exact ⟨htiming, hbeats.trans (by rw [hplan]), hfit, hop, rfl, hcount⟩

end

section
variable {d : Dev} {lastMs : Nat}

theorem Dev.planCommit_none (h : d.plan.ready = none ∨ d.replanPoint = false) : d.planCommit lastMs = d := by
  unfold Dev.planCommit
  split
  · rfl
  · next p hp =>
    refine if_pos (Or.inl (congrArg (! ·) (h.resolve_left fun hnone => ?_)))
    rw [hp] at hnone
    exact Option.some_ne_none p hnone

theorem Dev.planCommit_busy {p : Plan} (hready : d.plan.ready = some p) (h : d.partsBusy p = true) : d.planCommit lastMs = d := by
  simp [Dev.planCommit, hready, h]

/-- A plan whose fault map brings nothing new. -/
theorem Dev.planCommit_takes {p : Plan} (hready : d.plan.ready = some p) (hpoint : d.replanPoint = true) (hbusy : d.partsBusy p = false)
    (hfaults : ∀ x ∈ p.faults, x ∈ d.faults) (hclosed : closeFaults d.faults = d.faults) : ∃ cause, d.planCommit lastMs =
      (({ d with due := d.due.filter fun x => ! d.faults.contains x } : Dev).planInForce p cause lastMs).planStored p cause := by
  have hnew : p.faults.filter (fun x => ! d.faults.contains x) = [] := by
    rw [List.filter_eq_nil_iff]
    intro x hx
    simp [hfaults x hx]
  have hall : closeFaults (d.faults ++ p.faults.filter fun x => ! d.faults.contains x) = d.faults := by
    rw [hnew, List.append_nil, hclosed]
  have hnone : d.faults.filter (fun x => ! d.faults.contains x) = [] := by
    rw [List.filter_eq_nil_iff]
    intro x hx
    simp [hx]
  have hgo : ¬ ((! d.replanPoint) = true ∨ d.partsBusy p = true) := by simp [hpoint, hbusy]
  refine ⟨match d.plan.causes.getLast? with
        | none => 0
        | some c => if c = 1 ∨ c = 2 then 1 else c, ?_⟩
  simp only [Dev.planCommit, hready, if_neg hgo, hall, hnone, List.foldl_nil, List.all_nil, if_true] <;> rfl

end

theorem Dev.planRecord_self (d : Dev) : d.planRecord d = d := by
  unfold Dev.planRecord
  cases d.plan.ready <;> rfl

theorem besideHost_faults : BesideHost Dev.faults :=
  BesideRegs.host ⟨fun _ _ _ _ _ => rfl, fun _ _ => rfl⟩ (fun _ _ _ => rfl) fun _ _ => rfl

theorem Dev.planRecord_faults (d e : Dev) : (d.planRecord e).faults = d.faults := by
  unfold Dev.planRecord
  split
  · exact besideHost_faults.record _ _ _
  · rfl

theorem exec_planCommit {s : State} {n : BitVec 16} (h : (s.dev.start.planCommit n.toNat).faults = s.dev.faults) : exec (.planCommit n) s =
    s.endsStore ((s.dev.start.planCommit n.toNat).planRecord s.dev.start) :=
  congrArg s.endsStore (Dev.managerLost_of_faults (d := s.dev.start) ((Dev.planRecord_faults _ _).trans h))

theorem exec_planCommit_none {s : State} {n : BitVec 16} (h : s.dev.start.planCommit n.toNat = s.dev.start) :
    exec (.planCommit n) s = s.ends s.dev.start := by
  have hfaults : (s.dev.start.planCommit n.toNat).faults = s.dev.start.faults := congrArg Dev.faults h
  rw [exec_planCommit hfaults, h, Dev.planRecord_self]
  exact endsStore_ends _ _ rfl

/-! ## Way swaps -/

/-- What harvests leave alone. -/
theorem harvests_keep {β : Type} {p : Dev → β} (hwrites : ∀ (d : Dev) x, p { d with writes := x } = p d)
    (hstep : ∀ (d : Dev) x, p { d with step := { d.step with harvested := x } } = p d) (m : Mem) (es : List PlanEntry) (d : Dev) : p (es.foldl (Dev.harvest m) d) = p d := by
  refine foldl_keeps p _ (fun e x => ?_) _ _
  unfold Dev.harvest
  split
  · rfl
  · exact (hstep _ _).trans (foldl_keeps p _ (fun e n => hwrites _ _) _ _)

/-- The view of an engine is its count of blocks, its open requests and its block state. -/
theorem Dev.rd_engView (d : Dev) (rm : Bool) (inst inst' : Nat) {g : Field} (hg : inBody g = true)
    (h : (engField rm Reg.CMOVE_QUEUED Reg.RMOVE_QUEUED).pg inst ≠ g.pg inst') : (d.engView rm inst).rd g inst' = d.rd g inst' := by
  have hplace : (engField rm Reg.CMOVE_QUEUED Reg.RMOVE_QUEUED).place 0 < 131072 := by cases rm <;> decide
  unfold Dev.engView
  simp only [apply_ite (fun e : Dev => e.rd g inst'), Dev.rd_idle_body _ _ _ hg, Dev.rd_busy_body _ _ _ hg, Dev.rd_setReqs_body _ _ _ _ _ hg, ite_self]
  exact d.rd_wr_page inst _ inst' hplace (of_decide_eq_true hg).2 h

theorem Dev.stepOpen_of_phase {d e : Dev} (h : d.g Reg.STEP_REC_STATE_PHASE = e.g Reg.STEP_REC_STATE_PHASE) : d.stepOpen = e.stepOpen :=
  congrArg (fun n => n == 1 || n == 2) h

theorem Dev.stepOpen_accept (d : Dev) (r : Nat) (b : MBlock) (hr : r < 4096) : (d.accept true r b).stepOpen = d.stepOpen := by
  refine Dev.stepOpen_of_phase ((Dev.rd_engView _ true r 0 (g := Reg.STEP_REC_STATE_PHASE) (by decide) ?_).trans rfl)
  show pageNum 3 r 4 ≠ pageNum 8 0 2
  unfold pageNum
  omega

theorem Dev.stepOpen_wr (d : Dev) {f : Field} (inst v : Nat) (hf : f.place 0 < 131072) (h : f.pg inst ≠ pageNum 8 0 2) :
    (d.wr f inst v).stepOpen = d.stepOpen :=
  Dev.stepOpen_of_phase (Dev.rd_wr_page d inst v 0 (g := Reg.STEP_REC_STATE_PHASE) hf (by decide) h)

section
variable {d : Dev} {m : Mem} {r swap : Nat} {lines : List Nat}

/-- The ways that have ended are harvested first. -/
def Dev.swapHarvested (d : Dev) (m : Mem) (r : Nat) (p : Plan) : Dev :=
  if d.stepOpen then (p.entries.filter fun (e : PlanEntry) =>
    decide (1 < e.ways ∧ e.start + e.span = d.beatNum - d.stepStart ∧ regionOf e.leader = r)).foldl (Dev.harvest m) d else d

theorem Dev.swapStart_noPlan (hoff : d.timerOn = false) (hlive : d.plan.live = none) : d.swapStart m r swap lines = d := by
  have hswap : d.waySwapStart r swap lines = d := by
    simp only [Dev.waySwapStart, hlive, hoff, Bool.false_eq_true, false_and, if_false]
  unfold Dev.swapStart
  rw [hlive]
  cases d.planBeatNow <;> exact hswap

theorem Dev.swapStart_eq {p : Plan} (hlive : d.plan.live = some p) : d.swapStart m r swap lines = (d.swapHarvested m r p).waySwapStart r swap lines := by
  by_cases hopen : d.stepOpen = true
  · have hnow : d.planBeatNow = some (d.beatNum - d.stepStart) := if_pos hopen
    simp only [Dev.swapStart, Dev.swapHarvested, hlive, hnow] <;> rfl
  · have hharvested : d.swapHarvested m r p = d := if_neg hopen
    rw [hharvested]
    unfold Dev.swapStart
    rw [hlive]
    cases d.planBeatNow with
    | none => rfl
    | some b => simp only [if_neg hopen]

theorem Dev.swapHarvested_keeps {β : Type} {q : Dev → β} (hwrites : ∀ (d : Dev) x, q { d with writes := x } = q d)
    (hstep : ∀ (d : Dev) x, q { d with step := { d.step with harvested := x } } = q d) (p : Plan) : q (d.swapHarvested m r p) = q d := by
  unfold Dev.swapHarvested
  split
  · exact harvests_keep hwrites hstep m _ d
  · rfl

/-- A swap at its phase: one block enters RMOVE, and the incoming images are refilled in a step. -/
theorem Dev.waySwapStart_at {p : Plan} {l : Nat} (hlive : d.plan.live = some p) (hphase : d.g Reg.BEAT_CFG_PHASE = d.g Reg.BEAT_CFG_T_S - swap) :
    d.waySwapStart r swap [l] =
      let us := p.slicedUnitList.filter fun u => regionOf u == r
      if us = [] then d
      else
        let d := if engCap true ≤ (d.eng true r).queue.length ∨ (d.stateCode (pgRmove r)).isSome then d
          else (d.wr Reg.RMOVE_OPEN_TAGS r (setBit (d.rd Reg.RMOVE_OPEN_TAGS r) 0)).accept true r
            { addr := larderBase r + 64 * l, kicker := none, tag := 0, home := r, atRegion := true, heldAt := d.now, planned := true }
        if d.stepOpen then us.foldl (fun d u => d.refillWay p (d.beatNum + 1 - d.stepStart) u) d else d := by
  have hpast : ¬ (d.timerOn = true ∧ d.g Reg.BEAT_CFG_PHASE < d.g Reg.BEAT_CFG_T_S - swap) := fun h => Nat.lt_irrefl _ (hphase ▸ h.2)
  simp only [Dev.waySwapStart, if_neg hpast, hlive, List.zipIdx_cons, List.zipIdx_nil, List.foldl_cons, List.foldl_nil, Nat.zero_mod] <;> rfl

end

/-! ## What a cause and a plan commit leave -/

theorem Dev.joined_plan (d : Dev) (c : Nat) : (if d.g Reg.DRAFT_STATUS_STATE = 3 ∨ d.g Reg.DRAFT_STATUS_STATE = 4 then
    ({ d with plan := d.plan.causeAdded c d.now } : Dev).p Reg.DRAFT_STATUS_STATE 5
    else { d with plan := d.plan.causeAdded c d.now }).plan = d.plan.causeAdded c d.now := by
  split
  · rfl
  · rfl

theorem Dev.joined_state (d : Dev) (c : Nat) : d.g Reg.DRAFT_STATUS_STATE = 3 ∨ d.g Reg.DRAFT_STATUS_STATE = 4 →
    (if d.g Reg.DRAFT_STATUS_STATE = 3 ∨ d.g Reg.DRAFT_STATUS_STATE = 4 then
      ({ d with plan := d.plan.causeAdded c d.now } : Dev).p Reg.DRAFT_STATUS_STATE 5
      else { d with plan := d.plan.causeAdded c d.now }).g Reg.DRAFT_STATUS_STATE = 5 := by
  intro h
  rw [if_pos h]
  exact Dev.g_p_same (f := Reg.DRAFT_STATUS_STATE) _ _ (by decide) (by decide)

/-- The plan state, PLAN_RB and the event once a plan has taken effect. -/
theorem Dev.planTaken_registers (d : Dev) (p : Plan) (cause lastMs : Nat) :
    let u := (d.planInForce p cause lastMs).planStored p cause
    u.planView = ({ d.plan with live := some p, planned := true, ready := none, causes := [], replanning := false }, d.faults) ∧
    u.g Reg.PLAN_RB_TIMING_ID = p.timing % 2 ^ 32 ∧ u.g Reg.PLAN_RB_N_BEATS = Dr.stepBeats d.plan.draft % 2 ^ 16 ∧
    u.g Reg.PLAN_RB_FIT_OP = p.fitOp % 16 ∧ u.g Reg.PLAN_RB_PLAN_OP = p.planOp % 16 ∧ u.g Reg.PLAN_RB_LAST_MS = lastMs % 2 ^ 16 ∧
    u.g Reg.PLAN_RB_TABLE_COUNT = p.entries.length % 2 ^ 32 ∧ bit (u.hd Hdr.EVT_BLOCK pgDraft) 3 = true := by
  intro u
  obtain ⟨htiming, hbeats, hfit, hop, hlast, hcount⟩ := d.planInForce_registers p cause lastMs
  refine ⟨(Dev.planStored_keeps _ besideGangs_planView.toBesideRegs (fun _ _ => rfl) p cause).trans (d.planInForce_view p cause lastMs),
    (Dev.g_planStored _ (by decide) (by decide) (by decide) p cause).trans htiming,
    (Dev.g_planStored _ (by decide) (by decide) (by decide) p cause).trans hbeats,
    (Dev.g_planStored _ (by decide) (by decide) (by decide) p cause).trans hfit,
    (Dev.g_planStored _ (by decide) (by decide) (by decide) p cause).trans hop,
    (Dev.g_planStored _ (by decide) (by decide) (by decide) p cause).trans hlast,
    (Dev.g_planStored _ (by decide) (by decide) (by decide) p cause).trans hcount, ?_⟩
  exact Dev.raise_block_bit _ _ _ _ (pos := 11) (by decide) (by decide)

/-- Settles O46: `replanStart_joins`, `planCommit_takes` with `planInForce_registers`, and the harvests of a swap. -/
theorem replans : Obligations.Replans := by
  intro s
  refine ⟨fun c => ⟨fun h => congrArg s.ends (Dev.replanStart_none (d := s.dev.start) h), fun hdraft hlive hfit => ?joins⟩,
    fun h => ⟨congrArg s.ends (Dev.replanDone_idle (d := s.dev.start) h), congrArg s.ends (if_neg fun h' => absurd (h.symm.trans h') (by decide))⟩,
    fun h => ⟨?done, fun code => Dev.replanFails_eq code, congrArg s.ends (if_pos h)⟩, fun n => ⟨fun h => exec_planCommit_none (Dev.planCommit_none h),
    fun p hready hbusy => exec_planCommit_none (Dev.planCommit_busy hready hbusy), fun p hready hpoint hbusy hfaults hclosed => ?takes⟩, ?_, ?_⟩
  case joins =>
    have hexec := congrArg s.ends (Dev.replanStart_joins (d := s.dev.start) hdraft hlive hfit)
    have hplan := Dev.joined_plan s.dev.start c.toNat
    have hstate := Dev.joined_state s.dev.start c.toNat
    generalize (if s.dev.start.g Reg.DRAFT_STATUS_STATE = 3 ∨ s.dev.start.g Reg.DRAFT_STATUS_STATE = 4 then
      ({ s.dev.start with plan := s.dev.start.plan.causeAdded c.toNat s.dev.start.now } : Dev).p Reg.DRAFT_STATUS_STATE 5
      else { s.dev.start with plan := s.dev.start.plan.causeAdded c.toNat s.dev.start.now }) = e at hexec hplan hstate
    refine ⟨s.after e, ends_next hexec, s.after_mem _, s.after_pending _, ?_⟩
    have hplan' : (s.after e).dev.plan = s.dev.plan.causeAdded c.toNat s.dev.now := hplan
    rw [hplan']
    refine ⟨?_, rfl, rfl, rfl, fun hnil => ?_, fun hsome => ?_, hstate⟩
    · simp [PlanSt.causeAdded]
    · simp [PlanSt.causeAdded, hnil]
    · simp [PlanSt.causeAdded, hsome]
  case done =>
    have hdone := congrArg s.ends (Dev.replanDone_eq (d := s.dev.start) h)
    split
    · next p hp =>
      rw [hp] at hdone
      refine Eq.trans hdone ?_
      exact apply_ite s.ends _ _ _
    · next code i k hp =>
      rw [hp] at hdone
      exact hdone
  case takes =>
    intro u
    obtain ⟨cause, hu⟩ := Dev.planCommit_takes (d := s.dev.start) (lastMs := n.toNat) hready hpoint hbusy hfaults hclosed
    obtain ⟨hview, htiming, hbeats, hfit, hop, hlast, hcount, hevent⟩ := Dev.planTaken_registers
      ({ s.dev.start with due := s.dev.start.due.filter fun x => ! s.dev.start.faults.contains x } : Dev) p cause n.toNat
    have hu' : u = _ := hu
    rw [← hu'] at hview htiming hbeats hfit hop hlast hcount hevent
    have hplan : u.plan = _ := congrArg Prod.fst hview
    have hfaultMap : u.faults = s.dev.faults := congrArg Prod.snd hview
    refine ⟨exec_planCommit hfaultMap, congrArg PlanSt.live hplan, congrArg PlanSt.ready hplan, congrArg PlanSt.causes hplan,
      congrArg PlanSt.replanning hplan, hfaultMap, htiming, hbeats, hfit, hop, ?_, hcount, hevent⟩
    exact hlast.trans (Nat.mod_eq_of_lt n.isLt)
  · intro r swap lines hoff hlive
    exact (congrArg s.endsStore (Dev.swapStart_noPlan (d := s.dev.start) (m := s.mem) hoff hlive)).trans (endsStore_ends _ _ rfl)
  · intro r swap l p hlive hon hphase us b ending h
    have hexec : exec (.waySwapStart r swap [l]) s = s.endsStore (h.waySwapStart r.toNat swap.toNat [l.toNat]) :=
      congrArg s.endsStore (Dev.swapStart_eq (d := s.dev.start) hlive)
    have hkept {β : Type} {q : Dev → β} (hw : ∀ (d : Dev) x, q { d with writes := x } = q d) (hs : ∀ (d : Dev) x, q { d with step := { d.step with harvested := x } } = q d) :
        q h = q s.dev.start := Dev.swapHarvested_keeps (d := s.dev.start) (m := s.mem) (r := r.toNat) hw hs p
    have hliveAt : h.plan.live = some p := (hkept (q := fun e => e.plan.live) (fun _ _ => rfl) fun _ _ => rfl).trans hlive
    have hphaseAt : h.g Reg.BEAT_CFG_PHASE = h.g Reg.BEAT_CFG_T_S - swap.toNat := by
      rw [hkept (q := fun e => e.g Reg.BEAT_CFG_PHASE) (fun _ _ => rfl) fun _ _ => rfl,
        hkept (q := fun e => e.g Reg.BEAT_CFG_T_S) (fun _ _ => rfl) fun _ _ => rfl]
      exact hphase
    have hswap := Dev.waySwapStart_at (r := r.toNat) (l := l.toNat) hliveAt hphaseAt
    refine ⟨fun hus => hexec.trans (congrArg s.endsStore (hswap.trans (if_pos hus))), fun hus hroom hcode => ?_⟩
    intro d
    have hroomAt : ¬ (engCap true ≤ (h.eng true r.toNat).queue.length ∨ (h.stateCode (pgRmove r.toNat)).isSome = true) := by
      rw [hkept (q := fun e => e.eng true r.toNat) (fun _ _ => rfl) fun _ _ => rfl,
        hkept (q := fun e => e.stateCode (pgRmove r.toNat)) (fun _ _ => rfl) fun _ _ => rfl]
      rintro (hfull | hsome)
      · exact Nat.lt_irrefl _ (Nat.lt_of_lt_of_le hroom hfull)
      · have hcode' : s.dev.start.stateCode (pgRmove r.toNat) = none := hcode
        rw [hcode'] at hsome
        exact absurd hsome (by decide)
    have hopen : d.stepOpen = s.dev.stepOpen := by
      refine (Dev.stepOpen_accept _ _ _ r.isLt).trans ((Dev.stepOpen_wr h _ _ (by decide) ?_).trans
        (hkept (q := Dev.stepOpen) (fun _ _ => rfl) fun _ _ => rfl))
      show pageNum 3 r.toNat 4 ≠ pageNum 8 0 2
      unfold pageNum
      have := r.isLt
      omega
    refine hexec.trans (congrArg s.endsStore (hswap.trans ((if_neg hus).trans ?_)))
    simp only [if_neg hroomAt]
    rw [← hopen]

end Sys2Proof.Machine

/-! Numeric evaluation, contributions and deadlines (O47). -/

namespace Sys2Proof.Machine

/-! ## The evaluation of an attempt -/

section
variable (d : Dev)

/-- The evaluation once taken, before the vote that it casts: the plan holds what was observed and staged, WATCH the causes, and layers are reported. -/
def Dev.evaluationTaken (os : List TensorObs) (v : Evaluation) : Dev :=
  let nanRound := if bit v.causes 2 ∧ d.plan.nanRound = none then some (d.g Reg.WATCH_STATE_ROUND) else d.plan.nanRound
  let d := { d with plan := { d.plan with obs := os, staged := v.staged, skips := v.skips, nanRound := nanRound },
                    step := { d.step with evaluated := true } }
  let d := d.p Reg.WATCH_STATE_CAUSES (v.causes + 16 * ofB d.step.dirty)
  let d := match v.last with | some t => d.p Reg.WATCH_LAST_TENSOR t | none => d
  let d := v.flags.foldl (fun d l => d.raise pgWatch 0x0803 10 Sev.warn l) d
  v.skips.foldl (fun d l => d.raise pgWatch 0x0804 11 Sev.warn l) d

/-- The vote that an evaluation casts. -/
def Dev.castVote (v : Evaluation) : Dev :=
  match v.fail with
  | some (c, t) => (d.raise pgWatch 0x0805 12 Sev.error (t + 2 ^ 24 * c)).voteFor 3 false
  | none => if v.causes % 16 = 0 then d else d.voteFor 2 false

theorem Dev.evaluate_eq (ls : List ObsLine) : d.evaluate ls =
    let os := (managed d.plan.policy).map (observed d.plan.policy ls)
    (d.evaluationTaken os (d.evaluation ls os)).castVote (d.evaluation ls os) := rfl

/-- The plan's numeric state after an evaluation. -/
def PlanSt.evaluated (p : PlanSt) (os : List TensorObs) (v : Evaluation) (nanRound : Option Nat) : PlanSt :=
  { p with obs := os, staged := v.staged, skips := v.skips, nanRound := nanRound }

/-- The device with its plan's numeric state taken, and nothing shown of it yet. -/
def Dev.evaluationHeld (os : List TensorObs) (v : Evaluation) (nanRound : Option Nat) : Dev :=
  { d with plan := d.plan.evaluated os v nanRound, step := { d.step with evaluated := true } }

theorem Dev.evaluationTaken_keeps {β : Type} {q : Dev → β} (hq : BesideRegs q) (os : List TensorObs) (v : Evaluation) :
    ∃ nanRound, q (d.evaluationTaken os v) = q (d.evaluationHeld os v nanRound) := by
  refine ⟨if bit v.causes 2 ∧ d.plan.nanRound = none then some (d.g Reg.WATCH_STATE_ROUND) else d.plan.nanRound, ?_⟩
  unfold Dev.evaluationTaken
  refine (foldl_keeps q _ (fun e l => hq.raise _ _ _ _ _ _) _ _).trans ((foldl_keeps q _ (fun e l => hq.raise _ _ _ _ _ _) _ _).trans ?_)
  split
  · exact (hq.set _ _ _ _ _).trans (hq.set _ _ _ _ _)
  · exact hq.set _ _ _ _ _

/-- The causes are shown with whether the attempt is dirty. -/
theorem Dev.evaluationTaken_causes (os : List TensorObs) (v : Evaluation) : (d.evaluationTaken os v).g Reg.WATCH_STATE_CAUSES =
    (v.causes + 16 * ofB d.step.dirty) % 2 ^ Reg.WATCH_STATE_CAUSES.width := by
  have hraised (e : Dev) (code pos : Nat) (ls : List Nat) :
      (ls.foldl (fun d l => d.raise pgWatch code pos Sev.warn l) e).g Reg.WATCH_STATE_CAUSES = e.g Reg.WATCH_STATE_CAUSES :=
    foldl_keeps (fun e : Dev => e.g Reg.WATCH_STATE_CAUSES) _ (fun e l => Dev.g_raise_body _ _ _ _ _ _ (by decide)) _ _
  unfold Dev.evaluationTaken
  simp only [hraised]
  split <;> simp (disch := decide) only [Dev.g_p_ne, Dev.g_p_same]

theorem Dev.g_evaluationTaken {g : Field} (hg : inBody g = true) (hcauses : fieldsApart Reg.WATCH_STATE_CAUSES g = true)
    (hlast : fieldsApart Reg.WATCH_LAST_TENSOR g = true) (os : List TensorObs) (v : Evaluation) : (d.evaluationTaken os v).g g = d.g g := by
  have hraised (e : Dev) (code pos : Nat) (ls : List Nat) : (ls.foldl (fun d l => d.raise pgWatch code pos Sev.warn l) e).g g = e.g g :=
    foldl_keeps (fun e : Dev => e.g g) _ (fun e l => Dev.g_raise_body _ _ _ _ _ _ hg) _ _
  unfold Dev.evaluationTaken
  simp only [hraised]
  split
  · exact (Dev.g_p_ne _ _ hlast).trans (Dev.g_p_ne _ _ hcauses)
  · exact Dev.g_p_ne _ _ hcauses

theorem Dev.hd_voteFor (v : Nat) (dirty : Bool) (pg : Nat) : (d.voteFor v dirty).hd Hdr.EVT_BLOCK pg = d.hd Hdr.EVT_BLOCK pg := by
  unfold Dev.voteFor
  split
  · exact (Dev.hd_wr_body _ _ _ _ (f := Reg.STEP_REC_STATE_VOTE) (h := Hdr.EVT_BLOCK) (by decide) (by decide)).trans
      (Dev.hd_wr_body _ _ _ _ (f := Reg.STEP_REC_STATE_PHASE) (h := Hdr.EVT_BLOCK) (by decide) (by decide))
  · rfl

theorem Dev.voteFor_clean (v : Nat) : (d.voteFor v false).step.dirty = d.step.dirty := by
  unfold Dev.voteFor
  split
  · exact Bool.or_false _
  · rfl

theorem Dev.voteFor_evaluated (v : Nat) (dirty : Bool) : (d.voteFor v dirty).step.evaluated = d.step.evaluated := by
  unfold Dev.voteFor
  split <;> rfl

/-- What the vote of an evaluation leaves alone. -/
theorem BesideRegs.castVote {β : Type} {q : Dev → β} (hq : BesideRegs q) (hstep : ∀ (d : Dev) x, q { d with step := x } = q d) (v : Evaluation) :
    q (d.castVote v) = q d := by
  unfold Dev.castVote
  split
  · exact (hq.voteFor hstep _ _ _).trans (hq.raise _ _ _ _ _ _)
  · simp only [apply_ite q, hq.voteFor hstep, ite_self]

variable {d} {v : Evaluation}

theorem Dev.castVote_fails (hopen : d.stepOpen = true) (h : v.fail ≠ none) :
    (d.castVote v).g Reg.STEP_REC_STATE_VOTE = max 3 (d.g Reg.STEP_REC_STATE_VOTE) % 4 ∧ bit ((d.castVote v).hd Hdr.EVT_BLOCK pgWatch) 4 = true := by
  obtain ⟨⟨c, t⟩, hfail⟩ := Option.ne_none_iff_exists'.1 h
  have hopenAt : (d.raise pgWatch 0x0805 12 Sev.error (t + 2 ^ 24 * c)).stepOpen = true :=
    (Dev.stepOpen_of_phase (Dev.g_raise_body _ _ _ _ _ _ (by decide))).trans hopen
  unfold Dev.castVote
  simp only [hfail]
  constructor
  · rw [Dev.g_voteFor_vote _ _ _ hopenAt, Dev.g_raise_body _ _ _ _ _ _ (by decide)]
  · rw [Dev.hd_voteFor]
    exact Dev.raise_block_bit _ _ _ _ (pos := 12) (by decide) (by decide)

theorem Dev.castVote_replays (hopen : d.stepOpen = true) (hfail : v.fail = none) (h : v.causes % 16 ≠ 0) :
    (d.castVote v).g Reg.STEP_REC_STATE_VOTE = max 2 (d.g Reg.STEP_REC_STATE_VOTE) % 4 ∧ (d.castVote v).step.dirty = d.step.dirty := by
  unfold Dev.castVote
  simp only [hfail, if_neg h]
  exact ⟨Dev.g_voteFor_vote _ _ _ hopen, d.voteFor_clean 2⟩

theorem Dev.castVote_none (hfail : v.fail = none) (h : v.causes % 16 = 0) : d.castVote v = d := by
  unfold Dev.castVote
  simp only [hfail, if_pos h]

theorem Dev.castVote_evaluated : (d.castVote v).step.evaluated = d.step.evaluated := by
  unfold Dev.castVote
  split
  · exact (Dev.voteFor_evaluated _ _ _).trans (congrArg StepSt.evaluated (Dev.raise_step _ _ _ _ _ _))
  · split
    · rfl
    · exact Dev.voteFor_evaluated _ _ _

theorem Dev.g_castVote {g : Field} (hg : inBody g = true) (hphase : fieldsApart Reg.STEP_REC_STATE_PHASE g = true)
    (hvote : fieldsApart Reg.STEP_REC_STATE_VOTE g = true) : (d.castVote v).g g = d.g g := by
  unfold Dev.castVote
  split
  · exact (Dev.g_voteFor_ne _ _ hphase hvote).trans (Dev.g_raise_body _ _ _ _ _ _ hg)
  · split
    · rfl
    · exact Dev.g_voteFor_ne _ _ hphase hvote

end

/-! ## The reading of the lines -/

/-- The plan, the attempt and the store operations. -/
def Dev.numericView (d : Dev) : PlanSt × StepSt × List MemOp := (d.plan, d.step, d.writes)

theorem besideRegs_numericView : BesideRegs Dev.numericView := ⟨fun _ _ _ _ _ => rfl, fun _ _ => rfl⟩

section
variable {d : Dev} {m : Mem} {e : Ecc} {k n : Nat}

/-- The device once the plan's instances are harvested. -/
def Dev.allHarvested (d : Dev) (m : Mem) : Dev := ((d.plan.live.map (·.entries)).getD []).foldl (Dev.harvest m) d

/-- The device once the observation lines have been read. -/
def Dev.linesRead (d : Dev) (m : Mem) (e : Ecc) (k n : Nat) : Dev :=
  match d.obsPlace k n with
  | some a => (d.allHarvested m).larderRead e a
  | none => d.allHarvested m

theorem Dev.numericEvaluation_off (h : d.stepOpen = false ∨ d.step.evaluated = true) : d.numericEvaluation m e k n = d := by
  refine if_pos ?_
  rcases h with h | h <;> simp [h]

theorem Dev.numericEvaluation_on (hopen : d.stepOpen = true) (h : d.step.evaluated = false) : d.numericEvaluation m e k n =
    if e = .uncorrectable ∧ d.obsPlace k n ≠ none then
      { d.linesRead m e k n with step := { (d.linesRead m e k n).step with evaluated := true } }
    else (d.linesRead m e k n).evaluate (d.obsLines m) := by
  have hon : (! d.stepOpen || d.step.evaluated) = false := by simp [hopen, h]
  unfold Dev.numericEvaluation Dev.linesRead
  rw [if_neg (Bool.eq_false_iff.mp hon)]
  cases d.obsPlace k n with
  | none => exact (if_neg fun h => h.2 rfl).symm
  | some a => simp only [ne_eq, reduceCtorEq, not_false_eq_true, and_true] <;> rfl

/-- A read that is not lost leaves all but the larder's page alone. -/
theorem Dev.linesRead_keeps {β : Type} {q : Dev → β} (hq : BesideRegs q) (h : e ≠ .uncorrectable ∨ d.obsPlace k n = none) :
    q (d.linesRead m e k n) = q (d.allHarvested m) := by
  unfold Dev.linesRead
  cases hplace : d.obsPlace k n with
  | none => rfl
  | some a =>
    cases e with
    | ok => rfl
    | corrected => exact hq.correctedError _ _ _
    | uncorrectable => exact absurd (h.resolve_left fun h => h rfl) (by rw [hplace]; exact Option.some_ne_none a)

theorem Dev.g_linesRead {g : Field} (hg : inBody g = true) (h : e ≠ .uncorrectable ∨ d.obsPlace k n = none) : (d.linesRead m e k n).g g = d.g g := by
  have hharvest : (d.allHarvested m).g g = d.g g := harvests_keep (p := fun e : Dev => e.g g) (fun _ _ => rfl) (fun _ _ => rfl) _ _ _
  refine Eq.trans ?_ hharvest
  unfold Dev.linesRead
  cases hplace : d.obsPlace k n with
  | none => rfl
  | some a =>
    cases e with
    | ok => rfl
    | corrected => exact (Dev.g_raise_body _ _ _ _ _ _ hg).trans ((Dev.rd_hw_body _ _ _ _ (f := Hdr.CERR_SRC) (by decide) hg).trans (Dev.rd_hw_body _ _ _ _ (f := Hdr.CERR_COUNT) (by decide) hg))
    | uncorrectable => exact absurd (h.resolve_left fun h => h rfl) (by rw [hplace]; exact Option.some_ne_none a)

theorem Dev.linesRead_view (h : e ≠ .uncorrectable ∨ d.obsPlace k n = none) : (d.linesRead m e k n).plan = d.plan ∧
    (d.linesRead m e k n).step.dirty = d.step.dirty ∧ (d.linesRead m e k n).writes = (d.allHarvested m).writes := by
  have hview := Dev.linesRead_keeps besideRegs_numericView (m := m) h
  refine ⟨(congrArg Prod.fst hview).trans ?_, (congrArg (fun x => x.2.1.dirty) hview).trans ?_, congrArg (fun x => x.2.2) hview⟩
  · exact harvests_keep (p := Dev.plan) (fun _ _ => rfl) (fun _ _ => rfl) _ _ _
  · exact harvests_keep (p := fun e : Dev => e.step.dirty) (fun _ _ => rfl) (fun _ _ => rfl) _ _ _

/-- What an evaluation leaves: the store operations of the harvests, the plan's numeric state, the causes, and the vote. -/
theorem Dev.evaluate_registers (ls : List ObsLine) (hopen : d.stepOpen = true) :
    let os := (managed d.plan.policy).map (observed d.plan.policy ls)
    let v := d.evaluation ls os
    let t := d.evaluate ls
    t.writes = d.writes ∧ t.step.evaluated = true ∧ t.plan.obs = os ∧ t.plan.staged = v.staged ∧ t.plan.skips = v.skips ∧
    t.plan.scales = d.plan.scales ∧ t.g Reg.WATCH_STATE_CAUSES = (v.causes + 16 * ofB d.step.dirty) % 2 ^ Reg.WATCH_STATE_CAUSES.width ∧
    (v.fail ≠ none → t.g Reg.STEP_REC_STATE_VOTE = max 3 (d.g Reg.STEP_REC_STATE_VOTE) % 4 ∧ bit (t.hd Hdr.EVT_BLOCK pgWatch) 4 = true) ∧
    (v.fail = none → v.causes % 16 ≠ 0 → t.g Reg.STEP_REC_STATE_VOTE = max 2 (d.g Reg.STEP_REC_STATE_VOTE) % 4 ∧ t.step.dirty = d.step.dirty) ∧
    (v.fail = none → v.causes % 16 = 0 → t.g Reg.STEP_REC_STATE_VOTE = d.g Reg.STEP_REC_STATE_VOTE) := by
  intro os v t
  have ht : t = (d.evaluationTaken os v).castVote v := d.evaluate_eq ls
  obtain ⟨r, hview⟩ := d.evaluationTaken_keeps besideRegs_numericView os v
  have hcauses := d.evaluationTaken_causes os v
  have hvote := d.g_evaluationTaken (g := Reg.STEP_REC_STATE_VOTE) (by decide) (by decide) (by decide) os v
  have hopenAt : (d.evaluationTaken os v).stepOpen = true :=
    (Dev.stepOpen_of_phase (d.g_evaluationTaken (by decide) (by decide) (by decide) os v)).trans hopen
  generalize d.evaluationTaken os v = e at ht hview hcauses hvote hopenAt
  have hplan : t.plan = e.plan := by
    rw [ht]
    exact BesideRegs.castVote e (q := Dev.plan) ⟨fun _ _ _ _ _ => rfl, fun _ _ => rfl⟩ (fun _ _ => rfl) v
  have hwrites : t.writes = e.writes := by
    rw [ht]
    exact BesideRegs.castVote e (q := Dev.writes) ⟨fun _ _ _ _ _ => rfl, fun _ _ => rfl⟩ (fun _ _ => rfl) v
  have hplan' : t.plan = d.plan.evaluated os v r := hplan.trans (congrArg Prod.fst hview)
  have hevaluated : e.step.evaluated = true := congrArg (fun x => x.2.1.evaluated) hview
  have hdirty : e.step.dirty = d.step.dirty := congrArg (fun x => x.2.1.dirty) hview
  refine ⟨hwrites.trans (congrArg (fun x => x.2.2) hview), ?_, congrArg PlanSt.obs hplan', congrArg PlanSt.staged hplan', congrArg PlanSt.skips hplan',
    (congrArg PlanSt.scales hplan').trans rfl, ?_, fun hfail => ?_, fun hfail hc => ?_, fun hfail hc => ?_⟩
  · rw [ht, Dev.castVote_evaluated, hevaluated]
  · rw [ht, Dev.g_castVote (by decide) (by decide) (by decide), hcauses]
  · rw [ht, ← hvote]
    exact Dev.castVote_fails hopenAt hfail
  · rw [ht, ← hvote, ← hdirty]
    exact Dev.castVote_replays hopenAt hfail hc
  · rw [ht, ← hvote, Dev.castVote_none hfail hc]

end

/-! ## Contributions -/

section
variable {d : Dev} {m : Mem} {a : Nat}

/-- What a contribution is that does not belong to the attempt in hand. -/
def Dev.contribStale (d : Dev) (sender : Nat) : Dev := (d.count Reg.EXCH_CFG_STALE 0).raise pgExchCfg 0x0904 9 Sev.warn sender

/-- A contribution fails its checks. -/
def contribFails (m : Mem) (a : Nat) : Prop :=
  storeEnd a < a + 48 + fld (m.bytes a 48) 0x1C 4 ∨
    crc32 (zeroed (m.bytes a (48 + fld (m.bytes a 48) 0x1C 4)) 0x2C) ≠ fld (m.bytes a 48) 0x2C 4

theorem contribFails_iff : contribFails m a ↔ storeEnd a - a < 48 + fld (m.bytes a 48) 0x1C 4 ∨
    crc32 (zeroed (m.bytes a (48 + min (fld (m.bytes a 48) 0x1C 4) (storeEnd a - a))) 0x2C) ≠ fld (m.bytes a 48) 0x2C 4 := by
  unfold contribFails
  by_cases hroom : storeEnd a - a < 48 + fld (m.bytes a 48) 0x1C 4
  · exact iff_of_true (Or.inl (by omega)) (Or.inl hroom)
  · rw [Nat.min_eq_left (by omega)]
    exact or_congr_left (iff_of_false (by omega) hroom)

theorem Dev.contributionLand_bad (h : contribFails m a) : d.contributionLand m a = d.contribBad (fld (m.bytes a 48) 0xC 3 % 2 ^ 18) :=
  if_pos (contribFails_iff.1 h)

theorem Dev.contributionLand_late (h : ¬ contribFails m a) (hstep : fld (m.bytes a 48) 0x10 8 < d.g64 Reg.STEP_REC_STEP_LO Reg.STEP_REC_STEP_HI ∨
    (fld (m.bytes a 48) 0x10 8 = d.g64 Reg.STEP_REC_STEP_LO Reg.STEP_REC_STEP_HI ∧ d.stepOpen = false)) : d.contributionLand m a =
    (d.count Reg.EXCH_CFG_AFTER_DECISION 0).raise pgExchCfg 0x0906 11 Sev.info (fld (m.bytes a 48) 0xC 3 % 2 ^ 18) :=
  (if_neg (mt contribFails_iff.2 h)).trans (if_pos (hstep.imp_right fun h => ⟨h.1, congrArg (! ·) h.2⟩))

theorem Dev.contributionLand_early (h : ¬ contribFails m a) (hstep : d.g64 Reg.STEP_REC_STEP_LO Reg.STEP_REC_STEP_HI < fld (m.bytes a 48) 0x10 8) :
    d.contributionLand m a = d.contribStale (fld (m.bytes a 48) 0xC 3 % 2 ^ 18) := by
  refine (if_neg (mt contribFails_iff.2 h)).trans ((if_neg ?_).trans (if_pos (Or.inl (Nat.ne_of_gt hstep))))
  rintro (hlt | ⟨heq, -⟩)
  · exact Nat.lt_asymm hlt hstep
  · exact Nat.ne_of_gt hstep heq

/-- A contribution to the step in hand, by its reduction, sender and shard. -/
def Dev.contributionFor (d : Dev) (m : Mem) (a : Nat) : Dev :=
  let head := m.bytes a 48
  let sender := fld head 0xC 3 % 2 ^ 18
  match Dr.redIdx d.plan.draft (fld head 4 3) with
  | none => d.contribStale sender
  | some i =>
    match d.groupCoord i sender with
    | none => d.contribStale sender
    | some g =>
      let red := Dr.rId d.plan.draft i
      if fld head 8 4 ≠ d.ownShard i ∨ ! d.ownsBlocks i then d.contribStale sender
      else if d.step.landed.any (fun x => x.red == red && x.g == g) then d.count Reg.EXCH_CFG_DUPLICATE 0
      else
        let d : Dev := { d with step := { d.step with landed := d.step.landed ++ [⟨red, g, d.beatNum, false⟩] } }
        let arrival : Int := (d.beatNum : Int) - d.deadlineBeat i
        if d.forcedMode then
          match d.forcedKind i sender with
          | some k => (d.lateEvent red).settle i g sender k (some arrival) (m.bytes a (48 + min (fld head 0x1C 4) (storeEnd a - a)))
          | none => d
        else if 0 < arrival then
          (d.lateEvent red).settle i g sender (if Dr.rDrop d.plan.draft i then 1 else 2) (some arrival)
            (m.bytes a (48 + min (fld head 0x1C 4) (storeEnd a - a)))
        else d

theorem Dev.contributionLand_now (h : ¬ contribFails m a) (hstep : fld (m.bytes a 48) 0x10 8 = d.g64 Reg.STEP_REC_STEP_LO Reg.STEP_REC_STEP_HI)
    (hopen : d.stepOpen = true) : d.contributionLand m a =
    if fld (m.bytes a 48) 0x18 4 ≠ d.stepStart % 2 ^ 32 then d.contribStale (fld (m.bytes a 48) 0xC 3 % 2 ^ 18) else d.contributionFor m a := by
  have hnow : ¬ (fld (m.bytes a 48) 0x10 8 < d.g64 Reg.STEP_REC_STEP_LO Reg.STEP_REC_STEP_HI ∨
      (fld (m.bytes a 48) 0x10 8 = d.g64 Reg.STEP_REC_STEP_LO Reg.STEP_REC_STEP_HI ∧ (! d.stepOpen) = true)) := by
    rw [hstep, hopen]
    exact fun h => h.elim (Nat.lt_irrefl _) fun h => absurd h.2 (by decide)
  refine (if_neg (mt contribFails_iff.2 h)).trans ((if_neg hnow).trans ?_)
  simp only [hstep, hopen, ne_eq, not_true, Bool.not_true, Bool.false_eq_true, or_false, false_or] <;> rfl

variable {i g : Nat}

theorem Dev.contributionFor_none (h : Dr.redIdx d.plan.draft (fld (m.bytes a 48) 4 3) = none) :
    d.contributionFor m a = d.contribStale (fld (m.bytes a 48) 0xC 3 % 2 ^ 18) := by
  unfold Dev.contributionFor
  simp only [h]

theorem Dev.contributionFor_stale (hi : Dr.redIdx d.plan.draft (fld (m.bytes a 48) 4 3) = some i)
    (h : d.groupCoord i (fld (m.bytes a 48) 0xC 3 % 2 ^ 18) = none ∨ fld (m.bytes a 48) 8 4 ≠ d.ownShard i ∨ d.ownsBlocks i = false) :
    d.contributionFor m a = d.contribStale (fld (m.bytes a 48) 0xC 3 % 2 ^ 18) := by
  unfold Dev.contributionFor
  simp only [hi]
  split
  · rfl
  · next g hg =>
    refine if_pos ((h.resolve_left fun hnone => ?_).imp_right (congrArg (! ·)))
    rw [hg] at hnone
    exact Option.some_ne_none g hnone

theorem Dev.contributionFor_dup (hi : Dr.redIdx d.plan.draft (fld (m.bytes a 48) 4 3) = some i)
    (hg : d.groupCoord i (fld (m.bytes a 48) 0xC 3 % 2 ^ 18) = some g) (hshard : fld (m.bytes a 48) 8 4 = d.ownShard i)
    (hown : d.ownsBlocks i = true) (hdup : d.step.landed.any (fun x => x.red == Dr.rId d.plan.draft i && x.g == g) = true) :
    d.contributionFor m a = d.count Reg.EXCH_CFG_DUPLICATE 0 := by
  unfold Dev.contributionFor
  simp only [hi, hg, hshard, hown, hdup, ne_eq, not_true, Bool.not_true, Bool.false_eq_true, or_self, if_false, if_true]

theorem Dev.contributionFor_own (hi : Dr.redIdx d.plan.draft (fld (m.bytes a 48) 4 3) = some i)
    (hg : d.groupCoord i (fld (m.bytes a 48) 0xC 3 % 2 ^ 18) = some g) (hshard : fld (m.bytes a 48) 8 4 = d.ownShard i)
    (hown : d.ownsBlocks i = true) (hdup : d.step.landed.any (fun x => x.red == Dr.rId d.plan.draft i && x.g == g) = false)
    (hforced : d.forcedMode = false) : d.contributionFor m a =
    let e : Dev := { d with step := { d.step with landed := d.step.landed ++ [⟨Dr.rId d.plan.draft i, g, d.beatNum, false⟩] } }
    if 0 < (d.beatNum : Int) - d.deadlineBeat i then
      (e.lateEvent (Dr.rId d.plan.draft i)).settle i g (fld (m.bytes a 48) 0xC 3 % 2 ^ 18) (if Dr.rDrop d.plan.draft i then 1 else 2)
        (some ((d.beatNum : Int) - d.deadlineBeat i)) (m.bytes a (48 + min (fld (m.bytes a 48) 0x1C 4) (storeEnd a - a)))
    else e := by
  have hforced' (x : List Landed) : ({ d with step := { d.step with landed := x } } : Dev).forcedMode = false := hforced
  unfold Dev.contributionFor
  simp only [hi, hg, hshard, hown, hdup, ne_eq, not_true, Bool.not_true, Bool.false_eq_true, or_self, if_false, hforced'] <;> rfl

end

/-! ## Deadlines -/

section
variable {d : Dev} {red i : Nat}

theorem Dev.deadlinePass_none (h : Dr.redIdx d.plan.draft red = none ∨ d.stepOpen = false ∨ d.step.classed.contains red = true) :
    d.deadlinePass red = d := by
  unfold Dev.deadlinePass
  split
  · rfl
  · next j hj =>
    refine if_pos ?_
    rcases h with h | h | h
    · rw [hj] at h
      exact absurd h (Option.some_ne_none j)
    · exact Or.inl (congrArg (! ·) h)
    · exact Or.inr (Or.inr (Or.inl h))

theorem Dev.deadlinePass_early (hi : Dr.redIdx d.plan.draft red = some i) (h : d.ownsBlocks i = false ∨ d.beatNum ≤ d.deadlineBeat i) :
    d.deadlinePass red = d := by
  unfold Dev.deadlinePass
  simp only [hi]
  refine if_pos ?_
  rcases h with h | h
  · exact Or.inr (Or.inl (congrArg (! ·) h))
  · exact Or.inr (Or.inr (Or.inr h))

theorem Dev.deadlinePass_classes (hi : Dr.redIdx d.plan.draft red = some i) (hopen : d.stepOpen = true) (hown : d.ownsBlocks i = true)
    (hclassed : d.step.classed.contains red = false) (hbeat : d.deadlineBeat i < d.beatNum) (hforced : d.forcedMode = false) :
    d.deadlinePass red =
      let on := ((List.range (d.groupSize i)).filter (d.onTime i)).length
      let e : Dev := { d with step := { d.step with classed := d.step.classed ++ [red] } }
      let e := (e.count Reg.EXCH_CFG_ON_TIME 0 on).count Reg.EXCH_CFG_LATE 0 (d.groupSize i - on)
      if on < d.groupSize i then e.lateEvent red else e := by
  unfold Dev.deadlinePass
  simp only [hi, hopen, hown, hclassed, Nat.not_le_of_lt hbeat, hforced, Bool.not_true, Bool.false_eq_true, or_self, if_false] <;> rfl

end

/-- Settles O47: `Dev.evaluate_registers`, and the cases of a contribution and of a deadline. -/
theorem stepNumbers : Obligations.StepNumbers := by
  intro s
  refine ⟨fun o h => ?off, fun o hopen hfresh => ?on, fun r line => ?land, fun red h => congrArg s.ends (Dev.deadlinePass_none (d := s.dev.start) h),
    fun red i hi => ⟨fun h => congrArg s.ends (Dev.deadlinePass_early (d := s.dev.start) hi h),
      fun hopen hown hclassed hbeat hforced => congrArg s.ends (Dev.deadlinePass_classes (d := s.dev.start) hi hopen hown hclassed hbeat hforced)⟩⟩
  case off => exact (congrArg s.endsStore (Dev.numericEvaluation_off (d := s.dev.start) h)).trans (endsStore_ends _ _ rfl)
  case on =>
    intro ls os h place d v
    have hd : d = s.dev.start.linesRead s.mem o.ecc o.entry.toNat o.slot.toNat := rfl
    have hexec := congrArg s.endsStore (Dev.numericEvaluation_on (d := s.dev.start) (m := s.mem) (e := o.ecc) (k := o.entry.toNat) (n := o.slot.toNat)
      hopen hfresh)
    rw [← hd] at hexec
    refine ⟨fun hlost hplace => hexec.trans (congrArg s.endsStore (if_pos ⟨hlost, hplace⟩)), fun hread => ?_⟩
    have hnot : ¬ (o.ecc = .uncorrectable ∧ s.dev.start.obsPlace o.entry.toNat o.slot.toNat ≠ none) := fun h =>
      hread.elim (fun h' => h' h.1) fun h' => h.2 h'
    obtain ⟨hplan, hdirty, hwrites⟩ := Dev.linesRead_view (d := s.dev.start) (m := s.mem) hread
    rw [← hd] at hplan hdirty hwrites
    have hg {g : Field} (hb : inBody g = true) : d.g g = s.dev.g g := by
      rw [hd]
      exact Dev.g_linesRead hb hread
    have hopenAt : d.stepOpen = true := (Dev.stepOpen_of_phase (hg (by decide))).trans hopen
    have hos : (managed d.plan.policy).map (observed d.plan.policy ls) = os := by rw [hplan]; rfl
    obtain ⟨hw, heval, hobs, hstaged, hskips, hscales, hcauses, hfails, hreplays, hquiet⟩ := Dev.evaluate_registers ls hopenAt
    rw [hos] at hobs hstaged hskips hcauses hfails hreplays hquiet
    rw [hg (by decide)] at hfails hreplays hquiet
    have hexec' : exec (.numericEvaluation o) s = s.endsStore (d.evaluate ls) := hexec.trans (congrArg s.endsStore (if_neg hnot))
    generalize d.evaluate ls = e at hw heval hobs hstaged hskips hscales hcauses hfails hreplays hquiet hexec'
    have hmem : Mem.apply s.mem e.writes = Mem.apply s.mem h.writes := congrArg _ (hw.trans hwrites)
    rw [hdirty] at hcauses hreplays
    exact ⟨_, hexec', hmem, rfl, heval, hobs, hstaged, hskips, hscales.trans (congrArg PlanSt.scales hplan), hcauses, hfails, hreplays, hquiet⟩
  case land =>
    intro a head len sender all stepNo bad stale
    refine ⟨fun h => congrArg s.ends (Dev.contributionLand_bad (d := s.dev.start) h),
      fun h hstep => congrArg s.ends (Dev.contributionLand_late (d := s.dev.start) h hstep),
      fun h hstep => congrArg s.ends (Dev.contributionLand_early (d := s.dev.start) h hstep), fun h hstep hopen => ?_⟩
    have hnow := congrArg s.ends (Dev.contributionLand_now (d := s.dev.start) h hstep hopen)
    refine ⟨fun hor => hnow.trans (congrArg s.ends ?_), fun i hstart hi => ?_⟩
    · rcases hor with hstart | hnone
      · exact if_pos hstart
      · exact ite_eq_left_iff.2 fun _ => Dev.contributionFor_none (d := s.dev.start) hnone
    have hfor := hnow.trans (congrArg s.ends (if_neg fun hne => hne hstart))
    refine ⟨fun hor => hfor.trans (congrArg s.ends ?_), fun g hg hshard hown => ?_⟩
    · refine Dev.contributionFor_stale (d := s.dev.start) hi ?_
      exact hor
    intro x dup d
    have hall : s.mem.bytes a (48 + min (fld (s.mem.bytes a 48) 0x1C 4) (storeEnd a - a)) = all := by
      have hroom : ¬ storeEnd a < a + 48 + fld (s.mem.bytes a 48) 0x1C 4 := fun hlt => h (Or.inl hlt)
      exact congrArg (fun n => s.mem.bytes a (48 + n)) (Nat.min_eq_left (by omega))
    have harrives (hdup : dup = false) (hforced : s.dev.forcedMode = false) :=
      hfor.trans (congrArg s.ends (Dev.contributionFor_own (d := s.dev.start) hi hg hshard hown hdup hforced))
    refine ⟨fun hdup => hfor.trans (congrArg s.ends (Dev.contributionFor_dup (d := s.dev.start) hi hg hshard hown hdup)),
      fun hdup hforced hbeat => (harrives hdup hforced).trans (congrArg s.ends (if_neg ?_)),
      fun hdup hforced hbeat => (harrives hdup hforced).trans ((congrArg s.ends (if_pos ?_)).trans (by rw [hall]; rfl))⟩
    · exact Int.not_lt.2 (Int.sub_nonpos_of_le (Int.ofNat_le.2 hbeat))
    · exact Int.sub_pos_of_lt (Int.ofNat_lt.2 hbeat)

end Sys2Proof.Machine

/-! The states of a link port (O48). -/

namespace Sys2Proof.Machine

/-! ## The buffers of a port -/

section
variable (d : Dev) (p : Nat) (x : PortSt)

theorem Dev.idle_links (pg : Nat) : (d.idle pg).links = d.links := by
  unfold Dev.idle
  split <;> rfl

theorem Dev.busy_links (pg : Nat) : (d.busy pg).links = d.links := by
  unfold Dev.busy
  split <;> rfl

theorem Dev.setPort_links : (d.setPort p x).links = SMap.put d.links p x := by
  unfold Dev.setPort
  simp only
  split
  · exact Dev.idle_links _ _
  · exact Dev.busy_links _ _

@[simp] theorem Dev.port_setPort : (d.setPort p x).port p = x := by
  unfold Dev.port
  rw [Dev.setPort_links]
  exact SMap.at_put_same _ _ _ _

theorem Dev.rd_setPort {g : Field} (inst : Nat) (h : inBody g = true) : (d.setPort p x).rd g inst = d.rd g inst := by
  unfold Dev.setPort
  simp only
  split
  · exact Dev.rd_idle_body _ _ _ h
  · exact Dev.rd_busy_body _ _ _ h

/-- What a port's buffers leave alone. -/
theorem BesideRegs.setPort {β : Type} {q : Dev → β} (hq : BesideRegs q) (hlinks : ∀ (d : Dev) x, q { d with links := x } = q d) :
    q (d.setPort p x) = q d := by
  unfold Dev.setPort
  simp only [apply_ite q, hq.idle, hq.busy, hlinks, ite_self]

theorem Dev.setPort_writes : (d.setPort p x).writes = d.writes :=
  BesideRegs.setPort d p x (q := Dev.writes) ⟨fun _ _ _ _ _ => rfl, fun _ _ => rfl⟩ fun _ _ => rfl

end

/-! ## Training and leaving service -/

section
variable (d : Dev) {p : Nat}

theorem Dev.phy_setPort (p' : Nat) (x : PortSt) : (d.setPort p' x).phy p = d.phy p := d.rd_setPort p' x _ (by decide)

theorem Dev.train_registers (p : Nat) : (d.train p).phy p = 2 ∧ ((d.train p).port p).trainAt = d.now := by
  constructor
  · exact (Dev.phy_setPort _ _ _).trans (d.rd_wr_same (linkInst p) 2 (f := Reg.LINK_PHY_STATE) (by decide) (by decide))
  · exact congrArg PortSt.trainAt (Dev.port_setPort _ _ _)

/-- A register of the port that a port which leaves service keeps. -/
theorem Dev.rd_portStops {g : Field} (hg : inBody g = true) (hstate : placesApart Reg.LINK_PHY_STATE g = true)
    (hactive : placesApart Reg.LINK_PHY_ACTIVE g = true) (hreason : placesApart Reg.LINK_PHY_REASON g = true) (p st why inst : Nat) :
    (d.portStops p st why).rd g inst = d.rd g inst := by
  have hstopped (x : PortSt) : (((d.setPort p x).wr Reg.LINK_PHY_STATE (linkInst p) st).wr Reg.LINK_PHY_ACTIVE (linkInst p) 0).rd g inst =
      d.rd g inst := by
    rw [Dev.rd_wr_apart _ _ _ _ hactive, Dev.rd_wr_apart _ _ _ _ hstate, Dev.rd_setPort _ _ _ _ hg]
  unfold Dev.portStops
  simp only
  split
  · exact hstopped _
  · exact (Dev.rd_wr_apart _ _ _ _ hreason).trans (hstopped _)

theorem Dev.portStops_reason {why : Nat} (hwhy : why < 16) (h : why ≠ 0) (p st : Nat) :
    (d.portStops p st why).rd Reg.LINK_PHY_REASON (linkInst p) = why := by
  unfold Dev.portStops
  simp only [if_neg h]
  exact (Dev.rd_wr_same _ (linkInst p) why (f := Reg.LINK_PHY_REASON) (by decide) (by decide)).trans (Nat.mod_eq_of_lt hwhy)

theorem Dev.portStops_registers {st : Nat} (hst : st < 8) (p why : Nat) : (d.portStops p st why).phy p = st ∧
    (d.portStops p st why).rd Reg.LINK_PHY_ACTIVE (linkInst p) = 0 := by
  have hstopped (x : PortSt) :
      (((d.setPort p x).wr Reg.LINK_PHY_STATE (linkInst p) st).wr Reg.LINK_PHY_ACTIVE (linkInst p) 0).phy p = st ∧
      (((d.setPort p x).wr Reg.LINK_PHY_STATE (linkInst p) st).wr Reg.LINK_PHY_ACTIVE (linkInst p) 0).rd Reg.LINK_PHY_ACTIVE (linkInst p) = 0 := by
    constructor
    · unfold Dev.phy
      rw [Dev.rd_wr_apart _ _ _ _ (by decide)]
      exact (Dev.rd_wr_same _ (linkInst p) st (f := Reg.LINK_PHY_STATE) (by decide) (by decide)).trans (Nat.mod_eq_of_lt hst)
    · exact Dev.rd_wr_same _ (linkInst p) 0 (f := Reg.LINK_PHY_ACTIVE) (by decide) (by decide)
  unfold Dev.portStops
  simp only
  split
  · exact hstopped _
  · refine ⟨?_, ?_⟩
    · exact (Dev.rd_wr_apart _ _ _ _ (f := Reg.LINK_PHY_REASON) (g := Reg.LINK_PHY_STATE) (by decide)).trans (hstopped _).1
    · exact (Dev.rd_wr_apart _ _ _ _ (f := Reg.LINK_PHY_REASON) (g := Reg.LINK_PHY_ACTIVE) (by decide)).trans (hstopped _).2

theorem Dev.portStops_port (p st why : Nat) : (d.portStops p st why).port p =
    { d.port p with late := (d.port p).late ++ (d.port p).out.map (·.sh), out := [] } := by
  unfold Dev.portStops
  simp only
  split
  · exact Dev.port_setPort _ _ _
  · exact Dev.port_setPort _ _ _

variable {d}

/-! ## The identity frames -/

theorem Dev.trainComplete_off {a q : Nat} (h : d.phy p ≠ 2) : d.trainComplete p a q = d := if_pos h

/-- The port with what the far end said of itself. -/
def Dev.farSeen (d : Dev) (p a q : Nat) : Dev :=
  let d := (d.wr Reg.LINK_PHY_FAR_ADDR (linkInst p) a).wr Reg.LINK_PHY_FAR_PORT (linkInst p) q
  d.setPort p { d.port p with timeouts := 0 }

theorem Dev.rd_farSeen {g : Field} (hg : inBody g = true) (haddr : placesApart Reg.LINK_PHY_FAR_ADDR g = true)
    (hport : placesApart Reg.LINK_PHY_FAR_PORT g = true) (p a q inst : Nat) : (d.farSeen p a q).rd g inst = d.rd g inst := by
  unfold Dev.farSeen
  simp only
  rw [Dev.rd_setPort _ _ _ _ hg, Dev.rd_wr_apart _ _ _ _ hport, Dev.rd_wr_apart _ _ _ _ haddr]

theorem Dev.farSeen_far {a q : Nat} (ha : a < 2 ^ 18) : (d.farSeen p a q).rd Reg.LINK_PHY_FAR_ADDR (linkInst p) = a ∧
    (d.farSeen p a q).rd Reg.LINK_PHY_FAR_PORT (linkInst p) = q % 2 ^ Reg.LINK_PHY_FAR_PORT.width := by
  unfold Dev.farSeen
  simp only
  rw [Dev.rd_setPort _ _ _ _ (by decide), Dev.rd_setPort _ _ _ _ (by decide)]
  constructor
  · rw [Dev.rd_wr_apart _ _ _ _ (by decide)]
    exact (d.rd_wr_same (linkInst p) a (f := Reg.LINK_PHY_FAR_ADDR) (by decide) (by decide)).trans (Nat.mod_eq_of_lt ha)
  · exact Dev.rd_wr_same _ (linkInst p) q (f := Reg.LINK_PHY_FAR_PORT) (by decide) (by decide)

/-- A page of a port is not a page of the draft. -/
theorem pageNum_link_ne (hp : p < 32) (page : Nat) (hpage : page < 16) : pageNum 6 (linkInst p) page ≠ pageNum 9 0 0 := by
  unfold pageNum linkInst
  omega

theorem Dev.identityOk_farSeen (hp : p < 32) {a q b r : Nat} : (d.farSeen p a q).identityOk p b r = d.identityOk p b r := by
  have hsame (g : Field) (hg : inBody g = true) (h : placesApart Reg.LINK_PHY_FAR_ADDR g = true)
      (h' : placesApart Reg.LINK_PHY_FAR_PORT g = true) : (d.farSeen p a q).g g = d.g g := Dev.rd_farSeen hg h h' _ _ _ _
  have hself : (d.farSeen p a q).g Reg.DRAFT_SELF_ADDR = d.g Reg.DRAFT_SELF_ADDR := by
    have hpage (f : Field) (v : Nat) (e : Dev) (hf : f.place 0 < 131072) (h : f.pg (linkInst p) = pageNum 6 (linkInst p) 0) :
        (e.wr f (linkInst p) v).g Reg.DRAFT_SELF_ADDR = e.g Reg.DRAFT_SELF_ADDR :=
      Dev.rd_wr_page e _ v 0 (f := f) (g := Reg.DRAFT_SELF_ADDR) (i := 0) (j := 0) hf (by decide) (by rw [h]; exact pageNum_link_ne hp 0 (by decide))
    refine (Dev.rd_setPort _ _ _ 0 (by decide)).trans ?_
    exact (hpage Reg.LINK_PHY_FAR_PORT q _ (by decide) rfl).trans (hpage Reg.LINK_PHY_FAR_ADDR a d (by decide) rfl)
  unfold Dev.identityOk Dev.routeLive Dev.topo Dev.selfAddr
  rw [hself, hsame _ (by decide) (by decide) (by decide), hsame _ (by decide) (by decide) (by decide)]

theorem Dev.trainComplete_eq (hp : p < 32) {a q : Nat} (h : d.phy p = 2) : d.trainComplete p a q = if d.identityOk p a q then
      ((((d.farSeen p a q).wr Reg.LINK_PHY_STATE (linkInst p) 3).wr Reg.LINK_PHY_LANES_OK (linkInst p) 15).wr Reg.LINK_PHY_ACTIVE (linkInst p) 15).raise
        (pgLinkPhy p) 0x0A01 8 Sev.info (a + 2 ^ 18 * q)
    else ((d.farSeen p a q).portStops p 5 3).raise (pgLinkPhy p) 0x0A05 12 Sev.error (a + 2 ^ 18 * q) := by
  refine (if_neg fun hne => hne h).trans ?_
  rw [← Dev.identityOk_farSeen hp (d := d) (p := p) (a := a) (q := q)]
  rfl

/-- What a passed and a failed identity check leave in the port's registers. -/
theorem Dev.trainComplete_registers (hp : p < 32) {a q : Nat} (h : d.phy p = 2) (ha : a < 2 ^ 18) :
    let e := d.trainComplete p a q
    e.rd Reg.LINK_PHY_FAR_ADDR (linkInst p) = a ∧ e.rd Reg.LINK_PHY_FAR_PORT (linkInst p) = q % 2 ^ Reg.LINK_PHY_FAR_PORT.width ∧
    (d.identityOk p a q = true → e.phy p = 3 ∧ e.rd Reg.LINK_PHY_LANES_OK (linkInst p) = 15 ∧ e.rd Reg.LINK_PHY_ACTIVE (linkInst p) = 15 ∧
      bit (e.hd Hdr.EVT_BLOCK (pgLinkPhy p)) 0 = true) ∧
    (d.identityOk p a q = false → e.phy p = 5 ∧ e.rd Reg.LINK_PHY_REASON (linkInst p) = 3 ∧ bit (e.hd Hdr.EVT_BLOCK (pgLinkPhy p)) 4 = true) := by
  obtain ⟨haddr, hport⟩ := Dev.farSeen_far (d := d) (p := p) (q := q) ha
  intro e
  have he : e = _ := Dev.trainComplete_eq hp h
  by_cases hok : d.identityOk p a q = true
  · rw [if_pos hok] at he
    rw [he]
    unfold Dev.phy
    simp (disch := decide) only [Dev.rd_raise_body]
    refine ⟨?_, ?_, fun _ => ⟨?_, ?_, ?_, Dev.raise_block_bit _ _ _ _ (pos := 8) (by decide) (by decide)⟩, fun hbad => absurd (hok.symm.trans hbad) (by decide)⟩
    · rw [Dev.rd_wr_apart _ _ _ _ (by decide), Dev.rd_wr_apart _ _ _ _ (by decide), Dev.rd_wr_apart _ _ _ _ (by decide), haddr]
    · rw [Dev.rd_wr_apart _ _ _ _ (by decide), Dev.rd_wr_apart _ _ _ _ (by decide), Dev.rd_wr_apart _ _ _ _ (by decide), hport]
    · rw [Dev.rd_wr_apart _ _ _ _ (by decide), Dev.rd_wr_apart _ _ _ _ (by decide)]
      exact Dev.rd_wr_same _ (linkInst p) 3 (f := Reg.LINK_PHY_STATE) (by decide) (by decide)
    · rw [Dev.rd_wr_apart _ _ _ _ (by decide)]
      exact Dev.rd_wr_same _ (linkInst p) 15 (f := Reg.LINK_PHY_LANES_OK) (by decide) (by decide)
    · exact Dev.rd_wr_same _ (linkInst p) 15 (f := Reg.LINK_PHY_ACTIVE) (by decide) (by decide)
  · rw [if_neg hok] at he
    rw [he]
    unfold Dev.phy
    simp (disch := decide) only [Dev.rd_raise_body]
    refine ⟨?_, ?_, fun hgood => absurd hgood hok, fun _ => ⟨?_, ?_, Dev.raise_block_bit _ _ _ _ (pos := 12) (by decide) (by decide)⟩⟩
    · rw [Dev.rd_portStops _ (by decide) (by decide) (by decide) (by decide), haddr]
    · rw [Dev.rd_portStops _ (by decide) (by decide) (by decide) (by decide), hport]
    · exact (Dev.portStops_registers _ (by decide) p 3).1
    · exact Dev.portStops_reason _ (why := 3) (by decide) (by decide) p 5

/-! ## Timeouts and lanes -/

theorem Dev.trainTimeout_eq (h : d.phy p = 2) : d.trainTimeout p =
    let e := d.passTo ((d.port p).trainAt + ms (d.rd Reg.LINK_PHY_TRAIN_LIMIT_MS (linkInst p)))
    let f := e.setPort p { d.port p with timeouts := (d.port p).timeouts + 1 }
    if e.rd Reg.LINK_PHY_ATTEMPTS (linkInst p) ≤ (d.port p).timeouts + 1 then (f.setPort p { d.port p with timeouts := 0 }).portStops p 5 2
    else f.portStops p 1 2 := by
  refine (if_neg fun hne => hne h).trans ?_
  simp only [Dev.rd_setPort (g := Reg.LINK_PHY_ATTEMPTS) _ _ _ _ (by decide)]

theorem Dev.laneDegraded_pair {lane : Nat} (h : d.phy p = 4) (hlane : bit (d.rd Reg.LINK_PHY_ACTIVE (linkInst p)) lane = true) :
    d.laneDegraded p lane =
      ((d.wr Reg.LINK_PHY_LANES_OK (linkInst p) (clrBit (d.rd Reg.LINK_PHY_LANES_OK (linkInst p)) lane)).portStops p 5 4).raise
        (pgLinkPhy p) 0x0A04 11 Sev.error 4 := by
  refine (if_neg fun h3 => absurd (h.symm.trans h3) (by decide)).trans ((if_pos h).trans ?_)
  exact if_pos hlane

theorem Dev.uncorrCwLimit_off {c n : Nat} (h3 : d.phy p ≠ 3) (h4 : d.phy p ≠ 4) : d.uncorrCwLimit p c n = d := if_pos ⟨h3, h4⟩

theorem Dev.uncorrCwLimit_on {c n : Nat} (h : d.phy p = 3 ∨ d.phy p = 4) : d.uncorrCwLimit p c n =
    let e := (d.count Reg.LINK_PHY_CORR_SYMBOLS (linkInst p) c).count Reg.LINK_PHY_UNCORR_CW (linkInst p) n
    if 10 < n then (((e.portStops p 2 5).train p).bump Reg.LINK_PHY_RETRAINS (linkInst p)).raise (pgLinkPhy p) 0x0A02 9 Sev.warn 5 else e :=
  if_neg fun hne => h.elim hne.1 hne.2

end

/-- Settles O48: the cases of each port command, `Dev.train_registers`, `Dev.portStops_registers` and `Dev.trainComplete_registers`. -/
theorem linkPorts : Obligations.LinkPorts := by
  refine ⟨fun d p _ => d.train_registers p, fun d p st why _ hst => ?_, fun s q => ?_⟩
  · obtain ⟨hphy, hactive⟩ := d.portStops_registers hst p why
    rw [d.portStops_port]
    exact ⟨hphy, hactive, rfl, rfl⟩
  intro p i d
  refine ⟨rfl, fun a f => ⟨fun h => congrArg s.ends (Dev.trainComplete_off h), fun h => ?complete⟩, fun h => congrArg s.ends (if_pos h), fun h => ?timeout,
    fun lane => ⟨fun h => congrArg s.ends (if_pos h), fun h hlane => congrArg s.ends (Dev.laneDegraded_pair h hlane),
      fun h3 h4 => congrArg s.ends ((if_neg h3).trans (if_neg h4))⟩, fun c n => ⟨fun h3 h4 => congrArg s.ends (Dev.uncorrCwLimit_off h3 h4),
      fun h hn => congrArg s.ends ((Dev.uncorrCwLimit_on h).trans (if_neg (Nat.not_lt_of_le hn))),
      fun h hn => congrArg s.ends ((Dev.uncorrCwLimit_on h).trans (if_pos hn))⟩, rfl, fun r hacc hwork => ?retry⟩
  case complete =>
    have hregs := Dev.trainComplete_registers q.isLt (d := d) (q := f.toNat) h a.isLt
    have hexec : exec (.trainComplete q a f) s = s.ends (d.trainComplete p a.toNat f.toNat) := rfl
    generalize d.trainComplete p a.toNat f.toNat = e at hregs hexec
    exact ⟨s.after e, ends_next hexec, s.after_mem _, s.after_pending _, hregs⟩
  case timeout =>
    intro e f
    have htimeout := congrArg s.ends (Dev.trainTimeout_eq h)
    exact ⟨fun hfew => htimeout.trans (congrArg s.ends (if_neg (Nat.not_le_of_lt hfew))), fun hmany => htimeout.trans (congrArg s.ends (if_pos hmany))⟩
  case retry => exact work_ok s r (pgLinkPhy p) 0x088 (fun d => (Cc.done, d.linkRetry p)) hacc hwork

end Sys2Proof.Machine

/-! Route tables and scheduled shuttles (O49). -/

namespace Sys2Proof.Machine

/-! ## What the registers of other pages have no part in -/

/-- A part of the device that neither an event queue nor a register of a page beside `pgs` belongs to. -/
structure BesidePages (pgs : List Nat) {β : Type} (p : Dev → β) : Prop where
  set : ∀ (d : Dev) (f : Field) (pg i v : Nat), pg ∉ pgs → f.place i < 131072 → p (d.set f pg i v) = p d
  queues : ∀ (d : Dev) (qs : SMap EvQueue), p { d with queues := qs } = p d

theorem BesideRegs.pages {β : Type} {p : Dev → β} (hp : BesideRegs p) (pgs : List Nat) : BesidePages pgs p :=
  ⟨fun d f pg i v _ _ => hp.set d f pg i v, hp.queues⟩

/-- A field of one of the pages. -/
theorem besidePages_get {pgs : List Nat} {g : Field} {pg j : Nat} (hpg : pg ∈ pgs) (hg : g.place j < 131072) :
    BesidePages pgs fun d => d.get g pg j :=
  ⟨fun _ _ _ _ _ hne hf => Dev.get_set_ne _ _ _ _ _ _ _ _ (key_ne_of_place hf hg (Or.inr fun h => hne (h ▸ hpg))), fun _ _ => rfl⟩

namespace BesidePages

variable {pgs : List Nat} {β : Type} {p : Dev → β} (hp : BesidePages pgs p)
include hp

theorem prod {γ : Type} {q : Dev → γ} (hq : BesidePages pgs q) : BesidePages pgs fun d => (p d, q d) :=
  ⟨fun d f pg i v h hf => Prod.ext (hp.set d f pg i v h hf) (hq.set d f pg i v h hf), fun d qs => Prod.ext (hp.queues d qs) (hq.queues d qs)⟩

theorem wr (d : Dev) {f : Field} {inst i : Nat} (v : Nat) (h : f.pg inst ∉ pgs) (hf : f.place i < 131072) : p (d.wr f inst v i) = p d :=
  hp.set d f _ i v h hf

theorem setBs (d : Dev) {pg : Nat} (v : Nat) (h : pg ∉ pgs) : p (d.setBs pg v) = p d :=
  (hp.set _ Hdr.STATE pg 0 _ h (by decide)).trans (hp.set _ Hdr.DROPS pg 0 _ h (by decide))

theorem busy (d : Dev) {pg : Nat} (h : pg ∉ pgs) : p (d.busy pg) = p d := by
  unfold Dev.busy
  split
  · exact hp.setBs _ _ h
  · rfl

theorem idle (d : Dev) {pg : Nat} (h : pg ∉ pgs) : p (d.idle pg) = p d := by
  unfold Dev.idle
  split
  · exact hp.setBs _ _ h
  · rfl

theorem offer (d : Dev) (r : EventRec) (q : Nat) (h : r.source ∉ pgs) : p (d.offer r q) = p d := by
  unfold Dev.offer
  simp only
  split
  · exact hp.queues _ _
  · exact (hp.set _ Hdr.EVT_OVERFLOW _ 0 _ h (by decide)).trans (hp.queues _ _)

theorem raise (d : Dev) {pg : Nat} (code pos sev detail : Nat) (h : pg ∉ pgs) : p (d.raise pg code pos sev detail) = p d := by
  have hbit (v : Nat) : p (d.hw (if pos < 8 then Hdr.EVT_COMMON else Hdr.EVT_BLOCK) pg v) = p d := by
    split
    · exact hp.set _ Hdr.EVT_COMMON pg 0 v h (by decide)
    · exact hp.set _ Hdr.EVT_BLOCK pg 0 v h (by decide)
  unfold Dev.raise
  extract_lets f m b pend d1 r
  split
  · exact hbit _
  · exact (foldl_keeps p _ (fun e q => hp.offer e r q h) _ _).trans (hbit _)

theorem voteFor (h : pageNum 8 0 2 ∉ pgs) (hstep : ∀ (d : Dev) x, p { d with step := x } = p d) (d : Dev) (v : Nat) (dirty : Bool) :
    p (d.voteFor v dirty) = p d := by
  unfold Dev.voteFor
  split
  · exact (hstep _ _).trans ((hp.wr _ (f := Reg.STEP_REC_STATE_VOTE) _ h (by decide)).trans (hp.wr _ (f := Reg.STEP_REC_STATE_PHASE) _ h (by decide)))
  · rfl

section
variable (hlinks : ∀ (d : Dev) x, p { d with links := x } = p d)
include hlinks

theorem setPort (d : Dev) {n : Nat} (x : PortSt) (h : pgLinkPhy n ∉ pgs) : p (d.setPort n x) = p d := by
  unfold Dev.setPort
  simp only
  split
  · exact (hp.idle _ h).trans (hlinks _ _)
  · exact (hp.busy _ h).trans (hlinks _ _)

theorem portStops (d : Dev) {n : Nat} (st why : Nat) (h : pgLinkPhy n ∉ pgs) : p (d.portStops n st why) = p d := by
  have hstopped (x : PortSt) : p (((d.setPort n x).wr Reg.LINK_PHY_STATE (linkInst n) st).wr Reg.LINK_PHY_ACTIVE (linkInst n) 0) = p d := by
    rw [hp.wr _ (f := Reg.LINK_PHY_ACTIVE) _ h (by decide), hp.wr _ (f := Reg.LINK_PHY_STATE) _ h (by decide), hp.setPort hlinks _ _ h]
  unfold Dev.portStops
  simp only
  split
  · exact hstopped _
  · exact (hp.wr _ (f := Reg.LINK_PHY_REASON) _ h (by decide)).trans (hstopped _)

theorem linkEnable (d : Dev) {n : Nat} (en : Bool) (h : pgLinkPhy n ∉ pgs) : p (d.linkEnable n en) = p d := by
  unfold Dev.linkEnable
  split
  · exact hp.portStops hlinks _ _ _ h
  · split
    · exact hp.wr _ (f := Reg.LINK_PHY_STATE) _ h (by decide)
    · rfl

end

/-- The mapping of a bundle's positions writes pages of its slots, and may vote. -/
theorem mapBundle (hslots : ∀ n, pgLinkSlot n ∉ pgs) (hvote : pageNum 8 0 2 ∉ pgs) (hstep : ∀ (d : Dev) x, p { d with step := x } = p d)
    (d : Dev) (b : Nat) : p (d.mapBundle b) = p d := by
  have hmapped (e : Dev) (n u v : Nat) : p ((e.wr Reg.LINK_SLOT_SCHED (linkInst n) u).wr Reg.LINK_SLOT_CARRIES (linkInst n) v) = p e :=
    (hp.wr _ (f := Reg.LINK_SLOT_CARRIES) _ (hslots n) (by decide)).trans (hp.wr _ (f := Reg.LINK_SLOT_SCHED) _ (hslots n) (by decide))
  unfold Dev.mapBundle
  extract_lets old new e1 e2 used
  have he1 : p e1 = p d := by
    refine foldl_keeps p _ (fun e k => ?_) _ _
    simp only
    split
    · exact hmapped _ _ _ _
    · exact hmapped _ _ _ _
  have he2 : p e2 = p d := by
    refine (foldl_keeps p _ (fun e q => ?_) _ _).trans he1
    simp only [apply_ite p, hp.raise _ _ _ _ _ (hslots _), ite_self]
  split
  · split
    · exact (hp.voteFor hvote hstep _ _ _).trans ((hp.raise _ _ _ _ _ (hslots _)).trans he2)
    · exact he2
  · exact he2

theorem mapPositions (hslots : ∀ n, pgLinkSlot n ∉ pgs) (hvote : pageNum 8 0 2 ∉ pgs) (hstep : ∀ (d : Dev) x, p { d with step := x } = p d)
    (d : Dev) : p d.mapPositions = p d :=
  foldl_keeps p _ (fun e b => hp.mapBundle hslots hvote hstep e b) _ _

end BesidePages

/-! ## Route tables -/

/-- The route state, the registers of LINK_ROUTE that a table shows, and its events. -/
def Dev.routeView (d : Dev) : RouteSt × Nat × Nat × Nat × Nat :=
  (d.route, d.g Reg.LINK_ROUTE_LIVE, d.g Reg.LINK_ROUTE_TOPO, d.g Reg.LINK_ROUTE_STATUS_STATE, d.hd Hdr.EVT_BLOCK pgLinkRoute)

theorem besidePages_routeView : BesidePages [pgLinkRoute] Dev.routeView := by
  have hroute : BesidePages [pgLinkRoute] Dev.route := ⟨fun _ _ _ _ _ _ _ => rfl, fun _ _ => rfl⟩
  have hg {g : Field} (hpg : g.pg 0 ∈ [pgLinkRoute]) (hplace : g.place 0 < 131072) : BesidePages [pgLinkRoute] fun d => d.g g :=
    besidePages_get hpg hplace
  exact hroute.prod ((hg (by decide) (by decide)).prod ((hg (by decide) (by decide)).prod ((hg (by decide) (by decide)).prod
    (besidePages_get (by decide) (by decide)))))

theorem pgLinkPhy_ne_route (n : Nat) : pgLinkPhy n ∉ [pgLinkRoute] := by
  simp only [List.mem_singleton, pgLinkPhy, pgLinkRoute, pageNum]
  omega

theorem pgLinkSlot_ne_route (n : Nat) : pgLinkSlot n ∉ [pgLinkRoute] := by
  simp only [List.mem_singleton, pgLinkSlot, pgLinkRoute, pageNum]
  omega

section
variable {d : Dev}

/-- The registers of LINK_ROUTE once a table is live. -/
def Dev.tableLive (d : Dev) : Dev :=
  let t := d.route.ready
  let d := { d with route := { d.route with live := t, ready := [], pend := false } }
  ((d.p Reg.LINK_ROUTE_LIVE 1).p Reg.LINK_ROUTE_TOPO (Rt.topo t)).p Reg.LINK_ROUTE_STATUS_STATE 0

/-- The ports follow a table: those of a dimension of size 1 leave service. -/
def Dev.portsFollow (d : Dev) (t : List Byte) : Dev :=
  (List.range 32).foldl (fun (d : Dev) p =>
    if topoN (Rt.topo t) (p / 8) = 1 then d.portStops p 0 0 else d.linkEnable p (d.hd Hdr.CTL_EN (pgLinkPhy p) == 1 || d.phy p != 0)) d

/-- A table is due to become live. -/
def Dev.tableDue (d : Dev) : Prop :=
  d.route.pend = true ∧ d.beatSeen = true ∧ d.g64 Reg.LINK_ROUTE_APPLY_BEAT_LO Reg.LINK_ROUTE_APPLY_BEAT_HI ≤ d.beatNum

theorem tableDue_iff : d.tableDue ↔ ¬ ((! d.route.pend) = true ∨ (! d.beatSeen) = true ∨
    d.beatNum < d.g64 Reg.LINK_ROUTE_APPLY_BEAT_LO Reg.LINK_ROUTE_APPLY_BEAT_HI) := by
  unfold Dev.tableDue
  rw [not_or, not_or, Nat.not_lt, Bool.not_eq_true', Bool.not_eq_true', Bool.not_eq_false, Bool.not_eq_false]

theorem Dev.routeApplied_none (h : ¬ d.tableDue) : d.routeApplied = d := if_pos (Decidable.of_not_not (mt tableDue_iff.2 h))

theorem Dev.routeApplied_eq (h : d.tableDue) : d.routeApplied =
    ((d.tableLive.portsFollow d.route.ready).raise pgLinkRoute 0x0A0D 10 Sev.info 0).mapPositions :=
  if_neg (tableDue_iff.1 h)

theorem Dev.tableLive_registers : d.tableLive.route = { d.route with live := d.route.ready, ready := [], pend := false } ∧
    d.tableLive.g Reg.LINK_ROUTE_LIVE = 1 ∧ d.tableLive.g Reg.LINK_ROUTE_TOPO = Rt.topo d.route.ready % 2 ^ Reg.LINK_ROUTE_TOPO.width ∧
    d.tableLive.g Reg.LINK_ROUTE_STATUS_STATE = 0 := by
  unfold Dev.tableLive
  simp (disch := decide) only [Dev.g_p_ne, Dev.g_p_same]
  exact ⟨rfl, rfl, trivial, rfl⟩

theorem Dev.routeApplied_registers (h : d.tableDue) :
    d.routeApplied.route = { d.route with live := d.route.ready, ready := [], pend := false } ∧
    d.routeApplied.g Reg.LINK_ROUTE_LIVE = 1 ∧ d.routeApplied.g Reg.LINK_ROUTE_TOPO = Rt.topo d.route.ready % 2 ^ Reg.LINK_ROUTE_TOPO.width ∧
    d.routeApplied.g Reg.LINK_ROUTE_STATUS_STATE = 0 ∧ bit (d.routeApplied.hd Hdr.EVT_BLOCK pgLinkRoute) 2 = true := by
  have hports : (d.tableLive.portsFollow d.route.ready).routeView = d.tableLive.routeView := by
    refine foldl_keeps Dev.routeView _ (fun e n => ?_) _ _
    split
    · exact besidePages_routeView.portStops (fun _ _ => rfl) _ _ _ (pgLinkPhy_ne_route n)
    · exact besidePages_routeView.linkEnable (fun _ _ => rfl) _ _ (pgLinkPhy_ne_route n)
  have hmapped : d.routeApplied.routeView = ((d.tableLive.portsFollow d.route.ready).raise pgLinkRoute 0x0A0D 10 Sev.info 0).routeView := by
    rw [Dev.routeApplied_eq h]
    exact besidePages_routeView.mapPositions pgLinkSlot_ne_route (by decide) (fun _ _ => rfl) _
  obtain ⟨hroute, hlive, htopo, hstate⟩ := d.tableLive_registers
  generalize d.tableLive.portsFollow d.route.ready = e at hports hmapped
  have hraised (g : Field) (hg : inBody g = true) : (e.raise pgLinkRoute 0x0A0D 10 Sev.info 0).g g = e.g g := Dev.g_raise_body _ _ _ _ _ _ hg
  refine ⟨?_, ?_, ?_, ?_, ?_⟩
  · exact (congrArg (·.1) hmapped).trans ((Dev.raise_route _ _ _ _ _ _).trans ((congrArg (·.1) hports).trans hroute))
  · exact (congrArg (·.2.1) hmapped).trans ((hraised _ (by decide)).trans ((congrArg (·.2.1) hports).trans hlive))
  · exact (congrArg (·.2.2.1) hmapped).trans ((hraised _ (by decide)).trans ((congrArg (·.2.2.1) hports).trans htopo))
  · exact (congrArg (·.2.2.2.1) hmapped).trans ((hraised _ (by decide)).trans ((congrArg (·.2.2.2.1) hports).trans hstate))
  · rw [show d.routeApplied.hd Hdr.EVT_BLOCK pgLinkRoute = _ from congrArg (·.2.2.2.2) hmapped]
    exact Dev.raise_block_bit _ _ _ _ (pos := 10) (by decide) (by decide)

/-! ## LOAD -/

/-- The table that LOAD reads. -/
def Dev.routeTable (d : Dev) (m : Mem) : List Byte :=
  d.srcBytes m (d.g Reg.LINK_ROUTE_TABLE_SPACE) (d.g Reg.LINK_ROUTE_TABLE_ADDR) (d.g Reg.LINK_ROUTE_TABLE_LEN)

variable {m : Mem}

theorem Dev.routeLoad_passes (hstate : d.g Reg.LINK_ROUTE_STATUS_STATE ≠ 1) (h : d.routeCheck (d.routeTable m) = none) :
    d.routeLoad m = (Cc.done, (((({ d with route := { d.route with ready := d.routeTable m, pend := false } } : Dev).p
      Reg.LINK_ROUTE_STATUS_STATE 2).p Reg.LINK_ROUTE_STATUS_REASON 0).p Reg.LINK_ROUTE_STATUS_INDEX 0).raise pgLinkRoute 0x0A0B 8 Sev.info 0) := by
  have hcheck (r : RouteSt) : ({ d with route := r } : Dev).routeCheck (d.routeTable m) = none := h
  unfold Dev.routeLoad
  unfold Dev.routeTable at hcheck
  simp only [if_neg hstate, hcheck] <;> rfl

theorem Dev.routeLoad_fails {c i : Nat} (hstate : d.g Reg.LINK_ROUTE_STATUS_STATE ≠ 1) (h : d.routeCheck (d.routeTable m) = some (c, i)) :
    d.routeLoad m = (Cc.done, (((({ d with route := { d.route with ready := [], pend := false } } : Dev).p
      Reg.LINK_ROUTE_STATUS_STATE 3).p Reg.LINK_ROUTE_STATUS_REASON c).p Reg.LINK_ROUTE_STATUS_INDEX i).raise
        pgLinkRoute 0x0A0C 9 Sev.error (c + 256 * sat 24 i)) := by
  have hcheck (r : RouteSt) : ({ d with route := r } : Dev).routeCheck (d.routeTable m) = some (c, i) := h
  unfold Dev.routeLoad
  unfold Dev.routeTable at hcheck
  simp only [if_neg hstate, hcheck] <;> rfl

theorem Dev.statusShown_registers (d : Dev) {st : Nat} (hst : st < 4) (c i code pos sev detail : Nat) (hlo : 8 ≤ pos) (hhi : pos < 24) :
    let e := (((d.p Reg.LINK_ROUTE_STATUS_STATE st).p Reg.LINK_ROUTE_STATUS_REASON c).p Reg.LINK_ROUTE_STATUS_INDEX i).raise pgLinkRoute code pos sev detail
    e.route = d.route ∧ e.g Reg.LINK_ROUTE_STATUS_STATE = st ∧ e.g Reg.LINK_ROUTE_STATUS_REASON = c % 2 ^ Reg.LINK_ROUTE_STATUS_REASON.width ∧
    bit (e.hd Hdr.EVT_BLOCK pgLinkRoute) (pos - 8) = true := by
  intro e
  refine ⟨Dev.raise_route _ _ _ _ _ _, ?_, ?_, Dev.raise_block_bit _ _ _ _ hlo hhi⟩
  · refine (Dev.g_raise_body _ _ _ _ _ _ (by decide)).trans ?_
    simp (disch := decide) only [Dev.g_p_ne, Dev.g_p_same]
    exact Nat.mod_eq_of_lt hst
  · refine (Dev.g_raise_body _ _ _ _ _ _ (by decide)).trans ?_
    simp (disch := decide) only [Dev.g_p_ne, Dev.g_p_same]

end

/-! ## Shuttles for slots -/

section
variable {d : Dev} {m : Mem} {n area : Nat}

theorem Dev.shuttleFetch_none (h : Rt.flowIdx d.route.live (Rt.eFlow (Rt.slot d.route.live n)) = none) : d.shuttleFetch m n area = d := by
  unfold Dev.shuttleFetch
  simp only [h]

/-- The bytes of a flow's transfer. -/
def Dev.flowBytes (d : Dev) (m : Mem) (f area : Nat) : Nat :=
  if Rt.fVar d.route.live f then min (48 + m.nat (area + 0x1C) 4) (Rt.fBytes d.route.live f) else Rt.fBytes d.route.live f

/-- A shuttle of a SEND entry is to be fetched for a port. -/
def Dev.fetches (d : Dev) (n p len : Nat) : Prop :=
  let e := Rt.slot d.route.live n
  d.routeLive = true ∧ n < Rt.nEntries d.route.live ∧ Rt.role e = 0 ∧ d.stepOpen = true ∧ Rt.shuttle e < (len + 4095) / 4096 ∧
    (d.port p).out.length < 8 ∧ (d.route.sent.any fun x => x.flow.toNat == Rt.eFlow e && x.shuttle.toNat == Rt.shuttle e) = false ∧
    ((d.port p).out.any fun y => y.entry == n) = false

theorem fetches_iff {p len : Nat} : d.fetches n p len ↔ (! d.routeLive || decide (Rt.nEntries d.route.live ≤ n) ||
    decide (Rt.role (Rt.slot d.route.live n) ≠ 0) || ! d.stepOpen || decide ((len + 4095) / 4096 ≤ Rt.shuttle (Rt.slot d.route.live n)) ||
    decide (8 ≤ (d.port p).out.length) || (d.route.sent.any fun s => s.flow.toNat == Rt.eFlow (Rt.slot d.route.live n) &&
      s.shuttle.toNat == Rt.shuttle (Rt.slot d.route.live n)) || (d.port p).out.any (fun y => y.entry == n)) = false := by
  unfold Dev.fetches
  simp only [Bool.or_eq_false_iff, Bool.not_eq_false', decide_eq_false_iff_not, Nat.not_le, ne_eq, not_not, and_assoc]

/-- The shuttle of a SEND entry, with the bytes of its place in the transfer. -/
def Dev.fetched (d : Dev) (m : Mem) (n f area : Nat) : Shuttle :=
  let e := Rt.slot d.route.live n
  let len := d.flowBytes m f area
  mkShuttle 0 (Rt.fDst d.route.live f) d.selfAddr (Rt.eFlow e) (Rt.shuttle e) ((len + 4095) / 4096 - 1) d.stepNo d.stepStart
    (m.bytes (area + 4096 * Rt.shuttle e) (min 4096 (len - 4096 * Rt.shuttle e)))

variable {f : Nat}

/-- The port that a SEND entry's shuttle waits in. -/
def Dev.fetchPort (d : Dev) (n : Nat) : Nat :=
  let e := Rt.slot d.route.live n
  (d.carrier (Rt.bundle e) (Rt.pos e)).getD (4 * Rt.bundle e + Rt.pos e)

theorem Dev.shuttleFetch_off (hf : Rt.flowIdx d.route.live (Rt.eFlow (Rt.slot d.route.live n)) = some f)
    (h : ¬ d.fetches n (d.fetchPort n) (d.flowBytes m f area)) : d.shuttleFetch m n area = d := by
  unfold Dev.shuttleFetch
  simp only [hf]
  exact if_pos (Bool.not_eq_false _ ▸ mt fetches_iff.2 h)

theorem Dev.shuttleFetch_on (hf : Rt.flowIdx d.route.live (Rt.eFlow (Rt.slot d.route.live n)) = some f)
    (h : d.fetches n (d.fetchPort n) (d.flowBytes m f area)) : d.shuttleFetch m n area =
    if d.slotPast (Rt.pbeat (Rt.slot d.route.live n)) (Rt.outSlot (Rt.slot d.route.live n)) then d.missed (d.fetchPort n) (d.fetched m n f area)
    else d.setPort (d.fetchPort n) { d.port (d.fetchPort n) with
      out := (d.port (d.fetchPort n)).out ++ [⟨n, d.fetchPort n, d.fetched m n f area⟩] } := by
  unfold Dev.shuttleFetch
  simp only [hf]
  exact if_neg (Bool.eq_false_iff.1 (fetches_iff.1 h))

/-! ## Slots -/

/-- The slot of an entry begins. -/
def Dev.slotDue (d : Dev) (n : Nat) : Prop :=
  let e := Rt.slot d.route.live n
  d.routeLive = true ∧ n < Rt.nEntries d.route.live ∧ Rt.role e < 2 ∧ d.stepOpen = true ∧ d.beatNum = d.stepStart + Rt.pbeat e

theorem slotDue_iff : d.slotDue n ↔ (! d.routeLive || decide (Rt.nEntries d.route.live ≤ n) ||
    decide (2 ≤ Rt.role (Rt.slot d.route.live n)) || ! d.stepOpen ||
    decide (d.beatNum ≠ d.stepStart + Rt.pbeat (Rt.slot d.route.live n))) = false := by
  unfold Dev.slotDue
  simp only [Bool.or_eq_false_iff, Bool.not_eq_false', decide_eq_false_iff_not, Nat.not_le, ne_eq, not_not, and_assoc]

/-- The device at the begin of an entry's slot. -/
def Dev.atSlot (d : Dev) (n : Nat) : Dev := d.passTo (d.boundary + d.g Reg.BEAT_CFG_T_X + Rt.outSlot (Rt.slot d.route.live n) / 2)

/-- The shuttle that a port holds for an entry. -/
def Dev.heldFor (d : Dev) (e n : Nat) : Option (Nat × SlotSh) :=
  (List.range 32).findSome? fun p => ((if Rt.role e = 0 then (d.port p).out else (d.port p).through).find? fun y => y.entry == n).map fun y => (p, y)

/-- A shuttle leaves a port's buffer for its slot. -/
def Dev.takenFrom (d : Dev) (e n p : Nat) : Dev :=
  d.setPort p { d.port p with out := (d.port p).out.filter (fun z => z.entry != n || Rt.role e != 0),
                              through := (d.port p).through.filter (fun z => z.entry != n || Rt.role e != 1) }

theorem Dev.slotSend_off (h : ¬ d.slotDue n) : d.slotSend n = d :=
  if_pos (Bool.not_eq_false _ ▸ mt slotDue_iff.2 h)

theorem Dev.slotSend_eq (h : d.slotDue n) : d.slotSend n =
    let e := Rt.slot d.route.live n
    let f := d.atSlot n
    let c := f.carrier (Rt.bundle e) (Rt.pos e)
    let own := 4 * Rt.bundle e + Rt.pos e
    match f.heldFor e n with
    | none => if Rt.role e = 0 ∧ f.beyondTotal e then f else f.count Reg.LINK_SLOT_EMPTY (linkInst (c.getD own))
    | some (p, y) =>
      let g := f.takenFrom e n p
      match c with
      | none => (g.count Reg.LINK_SLOT_EMPTY (linkInst own)).missed p y.sh
      | some q =>
        if ! g.portSched q || ! [2, 3].contains g.lockState then (g.count Reg.LINK_SLOT_EMPTY (linkInst q)).missed p y.sh
        else
          let k := g.count Reg.LINK_SLOT_SENT (linkInst q)
          if Rt.role e = 0 then ({ k with route := { k.route with sent := k.route.sent ++ [y.sh] } } : Dev).emit q y.sh
          else (k.count Reg.LINK_ROUTE_THROUGH (linkInst y.port)).emit q { y.sh with hops := y.sh.hops + 1 } :=
  if_neg (Bool.eq_false_iff.1 (slotDue_iff.1 h))

theorem portFree_iff {q : Nat} : (d.portSched q = true ∧ (d.lockState = 2 ∨ d.lockState = 3)) ↔
    (! d.portSched q || ! [2, 3].contains d.lockState) = false := by
  simp [or_iff_not_imp_left]

/-! ## Received shuttles -/

variable {p : Nat} {sh : Shuttle}

theorem Dev.receive_off {act : Dev → Dev} (h : d.portTakes p = false) : d.receive p sh act = d := if_pos (congrArg (! ·) h)

theorem Dev.receive_bad {act : Dev → Dev} (h : d.portTakes p = true) (hcrc : crc32 (shCovered sh) ≠ sh.crc.toNat) : d.receive p sh act =
    (d.bump Reg.LINK_ERR_SHUTTLE_CRC (linkInst p)).raise (pgLinkErr p) 0x0A08 8 Sev.warn (sh.kind.toNat + 16 * sh.flow.toNat) :=
  (if_neg (Bool.eq_false_iff.1 (congrArg (! ·) h))).trans (if_pos hcrc)

/-- A sound shuttle is stale, or acted on. -/
theorem Dev.receive_sound {act : Dev → Dev} (h : d.portTakes p = true) (hcrc : crc32 (shCovered sh) = sh.crc.toNat) : d.receive p sh act =
    if 7 ≤ sh.kind.toNat ∨ (sh.kind.toNat ≤ 1 ∧
      (sh.step.toNat ≠ d.stepNo % 2 ^ 32 ∨ sh.start.toNat ≠ d.stepStart % 2 ^ 32 ∨ d.stepOpen = false)) then d.linkStale p else act d := by
  refine (if_neg (Bool.eq_false_iff.1 (congrArg (! ·) h))).trans ((if_neg fun hne => hne hcrc).trans ?_)
  simp only [decide_eq_true_eq, Bool.not_eq_true']

theorem Dev.sched_stale (hkind : sh.kind.toNat = 0) (h : d.portTakes p = true) (hcrc : crc32 (shCovered sh) = sh.crc.toNat)
    (hstale : d.stepOpen = false ∨ sh.step.toNat ≠ d.stepNo % 2 ^ 32 ∨ sh.start.toNat ≠ d.stepStart % 2 ^ 32 ∨
      d.matchEntry sh (some (p / 4)) = none ∨ Rt.flowIdx d.route.live sh.flow.toNat = none) : d.sched p sh area = d.linkStale p := by
  refine (if_neg fun hne => hne hkind).trans ((Dev.receive_sound h hcrc).trans ?_)
  split
  · rfl
  · next hnow =>
    have hmatch : d.matchEntry sh (some (p / 4)) = none ∨ Rt.flowIdx d.route.live sh.flow.toNat = none := by
      rw [hkind] at hnow
      rcases hstale with h | h | h | h | h
      · exact absurd (Or.inr ⟨by decide, Or.inr (Or.inr h)⟩) hnow
      · exact absurd (Or.inr ⟨by decide, Or.inl h⟩) hnow
      · exact absurd (Or.inr ⟨by decide, Or.inr (Or.inl h)⟩) hnow
      · exact Or.inl h
      · exact Or.inr h
    rcases hmatch with h | h
    · simp only [h]
    · simp only [h]
      split
      · next hsome => exact absurd hsome (by simp)
      · rfl

theorem Dev.sched_now {e i f : Nat} (hkind : sh.kind.toNat = 0) (h : d.portTakes p = true) (hcrc : crc32 (shCovered sh) = sh.crc.toNat)
    (hopen : d.stepOpen = true) (hstep : sh.step.toNat = d.stepNo % 2 ^ 32) (hstart : sh.start.toNat = d.stepStart % 2 ^ 32)
    (hmatch : d.matchEntry sh (some (p / 4)) = some (e, i)) (hflow : Rt.flowIdx d.route.live sh.flow.toNat = some f) : d.sched p sh area =
    if Rt.role e = 2 then d.land p f (d.boundArea sh.flow.toNat area) sh
    else if d.slotPast (Rt.pbeat e) (Rt.outSlot e) then d.missed p sh
    else d.setPort p { d.port p with through := (d.port p).through ++ [⟨i, p, sh⟩] } := by
  have hnow : ¬ (7 ≤ sh.kind.toNat ∨ (sh.kind.toNat ≤ 1 ∧
      (sh.step.toNat ≠ d.stepNo % 2 ^ 32 ∨ sh.start.toNat ≠ d.stepStart % 2 ^ 32 ∨ d.stepOpen = false))) := by
    simp [hkind, hopen, hstep, hstart]
  refine (if_neg fun hne => hne hkind).trans ((Dev.receive_sound h hcrc).trans ((if_neg hnow).trans ?_))
  simp only [hmatch, hflow]

theorem Dev.land_registers {f : Nat} (hattic : Rt.fAttic d.route.live f = 0xFFFFFFFF) :
    (d.land p f area sh).writes = d.writes ++ [.write (area + 4096 * sh.shuttle.toNat) sh.payload] ∧
    (sh.flow.toNat, sh.shuttle.toNat, sh.total.toNat) ∈ (d.land p f area sh).route.landed ∧
    (d.land p f area sh).rd Reg.LINK_ROUTE_LANDED (linkInst p) =
      (d.rd Reg.LINK_ROUTE_LANDED (linkInst p) + 1) % 2 ^ Reg.LINK_ROUTE_LANDED.width := by
  have hland : d.land p f area sh = ({ d.poke (area + 4096 * sh.shuttle.toNat) sh.payload with route := { d.route with
      landed := if d.route.landed.contains (sh.flow.toNat, sh.shuttle.toNat, sh.total.toNat) then d.route.landed
        else d.route.landed ++ [(sh.flow.toNat, sh.shuttle.toNat, sh.total.toNat)] } } : Dev).count Reg.LINK_ROUTE_LANDED (linkInst p) :=
    if_pos (Or.inl hattic)
  rw [hland]
  refine ⟨rfl, ?_, Dev.rd_wr_same _ _ _ (f := Reg.LINK_ROUTE_LANDED) (by decide) (by decide)⟩
  show _ ∈ if d.route.landed.contains _ then _ else _
  split
  · next h => exact List.contains_iff_mem.1 h
  · exact List.mem_append_right _ List.mem_cons_self

end

/-- Settles O49: `Dev.routeApplied_registers`, `Dev.statusShown_registers`, and the cases of a shuttle. -/
theorem scheduledShuttles : Obligations.ScheduledShuttles := by
  intro s d t
  refine ⟨fun r hacc hwork => ?load, ⟨fun h => congrArg s.ends (Dev.routeApplied_none h), fun h => ?applied⟩, fun n area => ⟨fun h => ?_, fun f hf => ?_⟩,
    fun n => ⟨fun h => congrArg s.ends (Dev.slotSend_off h), fun h hheld => ?slotEmpty, fun p y h hheld => ?slotHeld⟩, fun q sh area => ?sched,
    fun p f area sh hattic => Dev.land_registers hattic⟩
  case load =>
    have hexec : exec (.linkRouteCmdLoad r) s = s.ends ((d.routeLoad s.mem).2.done (d.routeLoad s.mem).1) :=
      work_ok s r pgLinkRoute 0x08C (Dev.routeLoad s.mem) hacc hwork
    refine ⟨fun h => ?_, fun hstate hcheck => ?_, fun c i hstate hcheck => ?_⟩
    · have hlocked : d.routeLoad s.mem = (Cc.locked, d) := if_pos h
      rw [hexec, hlocked]
      rfl
    · have hregs := Dev.statusShown_registers ({ d with route := { d.route with ready := d.routeTable s.mem, pend := false } } : Dev)
        (st := 2) (by decide) 0 0 0x0A0B 8 Sev.info 0 (by decide) (by decide)
      rw [Dev.routeLoad_passes hstate hcheck] at hexec
      simp only at hregs hexec
      obtain ⟨hroute, hshown, -, hevent⟩ := hregs
      generalize Dev.raise _ pgLinkRoute 0x0A0B 8 Sev.info 0 = e at hroute hshown hevent hexec
      exact ⟨s.after (e.done Cc.done), ends_next hexec, s.after_mem _, s.after_pending _, congrArg RouteSt.ready hroute, (congrArg RouteSt.live hroute).trans rfl,
        hshown, hevent⟩
    · have hregs := Dev.statusShown_registers ({ d with route := { d.route with ready := [], pend := false } } : Dev)
        (st := 3) (by decide) c i 0x0A0C 9 Sev.error (c + 256 * sat 24 i) (by decide) (by decide)
      rw [Dev.routeLoad_fails hstate hcheck] at hexec
      simp only at hregs hexec
      obtain ⟨hroute, hshown, hreason, hevent⟩ := hregs
      generalize Dev.raise _ pgLinkRoute 0x0A0C 9 Sev.error (c + 256 * sat 24 i) = e at hroute hshown hreason hevent hexec
      exact ⟨s.after (e.done Cc.done), ends_next hexec, s.after_mem _, s.after_pending _, congrArg RouteSt.ready hroute, (congrArg RouteSt.live hroute).trans rfl,
        hshown, hreason, hevent⟩
  case applied =>
    obtain ⟨hroute, hlive, htopo, hstate, hevent⟩ := Dev.routeApplied_registers h
    have hexec : exec .routeApplied s = s.ends d.routeApplied := rfl
    generalize d.routeApplied = e at hroute hlive htopo hstate hevent hexec
    exact ⟨s.after e, ends_next hexec, s.after_mem _, s.after_pending _, congrArg RouteSt.live hroute, congrArg RouteSt.ready hroute,
      congrArg RouteSt.pend hroute, hlive, hstate, htopo, hevent⟩
  · exact congrArg s.ends (Dev.shuttleFetch_none h)
  · exact ⟨fun h => congrArg s.ends (Dev.shuttleFetch_off hf h), fun h => congrArg s.ends (Dev.shuttleFetch_on hf h)⟩
  case slotEmpty =>
    have hsend := congrArg s.ends (Dev.slotSend_eq h)
    simp only at hsend
    rw [show (d.atSlot n.toNat).heldFor _ _ = none from hheld] at hsend
    exact hsend
  case slotHeld =>
    have hsend := congrArg s.ends (Dev.slotSend_eq h)
    simp only at hsend
    rw [show (d.atSlot n.toNat).heldFor _ _ = some (p, y) from hheld] at hsend
    intro g
    refine ⟨fun hc => ?_, fun q hc => ?_⟩
    · rw [show (d.atSlot n.toNat).carrier _ _ = none from hc] at hsend
      exact hsend
    · rw [show (d.atSlot n.toNat).carrier _ _ = some q from hc] at hsend
      intro free k
      refine ⟨fun hbusy => hsend.trans (congrArg s.ends (if_pos ?_)), fun hfree hrole => hsend.trans (congrArg s.ends ?_),
        fun hfree hrole => hsend.trans (congrArg s.ends ?_)⟩
      · exact Bool.not_eq_false _ ▸ mt portFree_iff.2 hbusy
      · exact (if_neg (Bool.eq_false_iff.1 (portFree_iff.1 hfree))).trans (if_pos hrole)
      · exact (if_neg (Bool.eq_false_iff.1 (portFree_iff.1 hfree))).trans (if_neg fun h0 => absurd (hrole.symm.trans h0) (by decide))
  case sched =>
    intro p
    have hstore (e : Dev) (h : d.sched p sh area.toNat = e) (hw : e.writes = []) : exec (.schedShuttle q sh area) s = s.ends e :=
      (congrArg s.endsStore h).trans (endsStore_ends s e hw)
    refine ⟨fun h => hstore _ ?_ rfl, fun hkind htakes => ⟨fun hcrc => hstore _ ?_ ?_, fun hcrc => ⟨fun hstale =>
      hstore _ (Dev.sched_stale hkind htakes hcrc hstale) rfl, fun e i f hopen hstep hstart hmatch hflow => ?_⟩⟩⟩
    · by_cases hkind : sh.kind.toNat = 0
      · exact (if_neg fun hne => hne hkind).trans (Dev.receive_off (h.resolve_left fun hne => hne hkind))
      · exact if_pos hkind
    · refine (if_neg fun hne => hne hkind).trans ((Dev.receive_bad htakes hcrc).trans ?_)
      rw [hkind, Nat.zero_add]
    · exact Dev.raise_writes _ _ _ _ _ _
    · have hnow := Dev.sched_now (area := area.toNat) hkind htakes hcrc hopen hstep hstart hmatch hflow
      refine ⟨fun hrole => congrArg s.endsStore (hnow.trans (if_pos hrole)), fun hrole => hstore _ (hnow.trans (if_neg hrole)) ?_⟩
      split
      · exact Dev.setPort_writes _ _ _
      · exact Dev.setPort_writes _ _ _

end Sys2Proof.Machine

/-! Shuttles of the slack window (O50). -/

namespace Sys2Proof.Machine

section
variable {d : Dev} {p credit : Nat} {sh : Shuttle}

/-! ## Late shuttles leave -/

theorem Dev.lateSend_none (h : (d.port p).late = []) : d.lateSend p credit = d := by
  unfold Dev.lateSend
  rw [h]

/-- A port whose oldest late shuttle has left its buffer. -/
def Dev.lateTaken (d : Dev) (p : Nat) (rest : List Shuttle) : Dev := d.setPort p { d.port p with late := rest }

/-- The first late shuttle of a beat is reported. -/
def Dev.lateReported (d : Dev) : Dev :=
  if d.beat.lateSent then d
  else ({ d with beat := { d.beat with lateSent := true } } : Dev).raise pgBeatCfg 0x0608 9 Sev.info (d.g Reg.BEAT_CFG_LATE_BEATS)

variable {x : Shuttle} {xs : List Shuttle}

theorem Dev.lateSend_wait (h : (d.port p).late = x :: xs) (hhop : d.hop none credit { x with kind := 1 } = .wait) : d.lateSend p credit = d := by
  unfold Dev.lateSend
  simp only [h, hhop]

theorem Dev.lateSend_drop (h : (d.port p).late = x :: xs) (hhop : d.hop none credit { x with kind := 1 } = .drop) :
    d.lateSend p credit = (d.lateTaken p xs).slackDiscard p { x with kind := 1 } := by
  unfold Dev.lateSend
  simp only [h, hhop] <;> rfl

variable {r : Nat} {y : Shuttle}

theorem Dev.lateSend_held (h : (d.port p).late = x :: xs) (hhop : d.hop none credit { x with kind := 1 } = .send r y)
    (hgo : d.slackGo r y = false) : d.lateSend p credit = d := by
  unfold Dev.lateSend
  simp only [h, hhop, hgo, Bool.not_false, if_true]

theorem Dev.lateSend_goes (h : (d.port p).late = x :: xs) (hhop : d.hop none credit { x with kind := 1 } = .send r y)
    (hgo : d.slackGo r y = true) : d.lateSend p credit =
    let e := d.lateTaken p xs
    let e : Dev := if x.src.toNat = d.selfAddr ∧ (e.route.sent.any fun z => z.flow == x.flow && z.shuttle == x.shuttle) = false
      then { e with route := { e.route with sent := e.route.sent ++ [x] } } else e
    (((e.count Reg.LINK_SLOT_LATE_SENT (linkInst r)).slackEmit r y).lateReported).drainAll credit := by
  have hself : (d.setPort p { d.port p with late := xs }).selfAddr = d.selfAddr := Dev.rd_setPort _ _ _ 0 (by decide)
  unfold Dev.lateSend
  simp only [h, hhop, hgo, hself, Bool.not_true, Bool.false_eq_true, if_false, Bool.not_eq_true'] <;> rfl

/-! ## Received slack shuttles -/

theorem Dev.slackForward_full (h : 16 ≤ ((d.port p).slack.filter fun y => y.sh.cls == sh.cls).length) :
    d.slackForward p sh credit = d.slackDiscard p sh := if_pos h

theorem Dev.slackForward_room (h : ((d.port p).slack.filter fun y => y.sh.cls == sh.cls).length < 16) : d.slackForward p sh credit =
    (d.setPort p { d.port p with slack := (d.port p).slack ++ [⟨sh, d.beatNum⟩] }).drainAll credit := if_neg (Nat.not_le_of_lt h)

variable {act : Dev → Dev}

/-- A sound shuttle of a slack kind is acted on. -/
theorem Dev.receive_slack (h : d.portTakes p = true) (hcrc : crc32 (shCovered sh) = sh.crc.toNat) (hlo : 2 ≤ sh.kind.toNat) (hhi : sh.kind.toNat < 7) :
    d.receive p sh act = act d :=
  (Dev.receive_sound h hcrc).trans (if_neg (by omega))

theorem Dev.receive_reserved (h : d.portTakes p = true) (hcrc : crc32 (shCovered sh) = sh.crc.toNat) (hkind : 7 ≤ sh.kind.toNat) :
    d.receive p sh act = d.linkStale p := (Dev.receive_sound h hcrc).trans (if_pos (Or.inl hkind))

theorem Dev.slackShuttle_own (h : sh.kind.toNat < 2 ∨ (sh.dst.toNat = d.selfAddr ∧ sh.kind.toNat < 7) ∨ d.portTakes p = false) :
    d.slackShuttle p sh credit = d := by
  unfold Dev.slackShuttle
  split
  · rfl
  · next hother =>
    rcases h with h | h | h
    · exact absurd (Or.inl h) hother
    · exact absurd (Or.inr h) hother
    · exact Dev.receive_off h

variable {k : Nat}

theorem Dev.slackRecv_off (h : sh.kind.toNat ≠ k ∨ d.portTakes p = false) : d.slackRecv p k sh credit act = d := by
  unfold Dev.slackRecv
  split
  · rfl
  · next hkind => exact Dev.receive_off (h.resolve_left hkind)

theorem Dev.slackRecv_on (hlo : 2 ≤ k) (hhi : k < 7) (hkind : sh.kind.toNat = k) (h : d.portTakes p = true)
    (hcrc : crc32 (shCovered sh) = sh.crc.toNat) : d.slackRecv p k sh credit act =
    if sh.dst.toNat ≠ d.selfAddr then d.slackForward p sh credit else act d :=
  (if_neg fun hne => hne hkind).trans (Dev.receive_slack h hcrc (hkind ▸ hlo) (hkind ▸ hhi))

theorem Dev.resendReq_sent (hkind : sh.kind.toNat = 2) (h : d.portTakes p = true) (hcrc : crc32 (shCovered sh) = sh.crc.toNat)
    (hdst : sh.dst.toNat = d.selfAddr) : d.resendReq p sh credit =
    match d.route.sent.find? fun x => x.flow.toNat == fld sh.payload 0 3 && x.shuttle.toNat == fld sh.payload 4 2 with
    | some x => d.missed p x
    | none => d.slackOwn (mkShuttle 3 sh.src.toNat d.selfAddr (fld sh.payload 0 3) (fld sh.payload 4 2) 0 d.stepNo d.stepStart sh.payload) :=
  (Dev.slackRecv_on (by decide) (by decide) hkind h hcrc).trans (if_neg fun hne => hne hdst)

/-! ## Late shuttles arrive -/

variable {area : Nat}

/-- A plan shuttle belongs to the attempt in hand. -/
def Dev.ofAttempt (d : Dev) (sh : Shuttle) : Prop :=
  sh.step.toNat = d.stepNo % 2 ^ 32 ∧ sh.start.toNat = d.stepStart % 2 ^ 32 ∧ d.stepOpen = true

theorem Dev.lateRecv_off (h : sh.kind.toNat ≠ 1 ∨ d.portTakes p = false) : d.lateRecv p sh area credit = d := by
  unfold Dev.lateRecv
  split
  · rfl
  · next hkind => exact Dev.receive_off (h.resolve_left hkind)

theorem Dev.lateRecv_stale (hkind : sh.kind.toNat = 1) (h : d.portTakes p = true) (hcrc : crc32 (shCovered sh) = sh.crc.toNat)
    (hnow : ¬ d.ofAttempt sh) : d.lateRecv p sh area credit = d.linkStale p := by
  refine (if_neg fun hne => hne hkind).trans ((Dev.receive_sound h hcrc).trans (if_pos (Or.inr ⟨Nat.le_of_eq hkind, ?_⟩)))
  unfold Dev.ofAttempt at hnow
  rwa [not_and_or, not_and_or, Bool.not_eq_true] at hnow

theorem Dev.lateRecv_now (hkind : sh.kind.toNat = 1) (h : d.portTakes p = true) (hcrc : crc32 (shCovered sh) = sh.crc.toNat)
    (hnow : d.ofAttempt sh) : d.lateRecv p sh area credit =
    if sh.dst.toNat ≠ d.selfAddr then d.slackForward p sh credit
    else
      match d.matchEntry sh none, Rt.flowIdx d.route.live sh.flow.toNat with
      | some _, some f => d.land p f (d.boundArea sh.flow.toNat area) sh
      | _, _ => d.linkStale p := by
  obtain ⟨hstep, hstart, hopen⟩ := hnow
  exact (if_neg fun hne => hne hkind).trans ((Dev.receive_sound h hcrc).trans (if_neg (by simp [hkind, hstep, hstart, hopen])))

end

/-- Settles O50: the cases of a late, a forwarded, a received and an asked-for shuttle. -/
theorem slackShuttles : Obligations.SlackShuttles := by
  intro s q sh cr p d good now'
  have hstore (area : BitVec 48) {e : Dev} (h : d.lateRecv p sh area.toNat cr.toNat = e) (hw : e.writes = []) :
      exec (.lateShuttle q sh area cr) s = s.ends e := (congrArg s.endsStore h).trans (endsStore_ends s e hw)
  refine ⟨fun h => congrArg s.ends (Dev.lateSend_none h), fun x xs h => ⟨fun hhop => congrArg s.ends (Dev.lateSend_wait h hhop),
      fun hhop => congrArg s.ends (Dev.lateSend_drop h hhop), fun r y hhop => ⟨fun hgo => congrArg s.ends (Dev.lateSend_held h hhop hgo),
      fun hgo => congrArg s.ends (Dev.lateSend_goes h hhop hgo)⟩⟩,
    fun h => congrArg s.ends (Dev.slackShuttle_own h), fun hkind hgood => congrArg s.ends ?reserved, fun hlo hhi hdst hgood => ?forward,
    rfl, fun area => ⟨fun h => hstore area (Dev.lateRecv_off h) rfl, fun hkind hgood hnow =>
      hstore area (Dev.lateRecv_stale hkind hgood.1 hgood.2 hnow) rfl, fun hkind hgood hnow hdst =>
      congrArg s.endsStore ((Dev.lateRecv_now hkind hgood.1 hgood.2 hnow).trans (if_pos hdst)), fun e f hkind hgood hnow hdst hmatch hflow => ?lands⟩,
    fun h => congrArg s.ends (Dev.slackRecv_off h), fun hkind hgood hdst => congrArg s.ends
      ((Dev.slackRecv_on (by decide) (by decide) hkind hgood.1 hgood.2).trans (if_pos hdst)), fun hkind hgood hdst => ?asked,
    fun h => congrArg s.ends (Dev.slackRecv_off h), fun hkind hgood hdst => congrArg s.ends
      ((Dev.slackRecv_on (by decide) (by decide) hkind hgood.1 hgood.2).trans (if_pos hdst)), fun hkind hgood hdst => congrArg s.ends
      ((Dev.slackRecv_on (by decide) (by decide) hkind hgood.1 hgood.2).trans (if_neg fun hne => hne hdst))⟩
  case reserved => exact (if_neg (by omega)).trans (Dev.receive_reserved hgood.1 hgood.2 hkind)
  case forward =>
    have hforward : exec (.slackShuttleForward q sh cr) s = s.ends (d.slackForward p sh cr.toNat) :=
      congrArg s.ends ((if_neg fun h => h.elim (Nat.not_lt_of_le hlo) fun h => hdst h.1).trans (Dev.receive_slack hgood.1 hgood.2 hlo hhi))
    exact ⟨fun h => hforward.trans (congrArg s.ends (Dev.slackForward_full h)), fun h => hforward.trans (congrArg s.ends (Dev.slackForward_room h))⟩
  case lands =>
    refine congrArg s.endsStore ((Dev.lateRecv_now hkind hgood.1 hgood.2 hnow).trans ((if_neg fun hne => hne hdst).trans ?_))
    simp only [hmatch, hflow]
  case asked =>
    intro named
    have hreq := congrArg s.ends (Dev.resendReq_sent (credit := cr.toNat) hkind hgood.1 hgood.2 hdst)
    refine ⟨fun x hx => hreq.trans (congrArg s.ends ?_), fun hx => hreq.trans (congrArg s.ends ?_)⟩
    · rw [show d.route.sent.find? _ = some x from hx]
    · rw [show d.route.sent.find? _ = none from hx]

end Sys2Proof.Machine

/-! Frames, addresses and wall time of the host ports (O51). -/

namespace Sys2Proof.Machine

/-! ## Registers of host pages -/

theorem hostInst_lt (p : Nat) (h : p < 8) : hostInst p < 4096 := by
  unfold hostInst
  omega

theorem hostInst_inj {p q : Nat} (h : hostInst p = hostInst q) (hp : p < 8) (hq : q < 8) : p = q := by
  unfold hostInst at h
  omega

section
variable (d : Dev) {f g : Field}

theorem Dev.rd_wr_fields {inst inst' : Nat} (v : Nat) (h : fieldsApart f g = true) (hi : inst < 4096) (hi' : inst' < 4096) :
    (d.wr f inst v).rd g inst' = d.rd g inst' := by
  rcases Bool.or_eq_true_iff.1 h with h | h
  · exact d.rd_wr_apart _ _ _ h
  · exact Dev.get_set_ne _ _ _ _ _ _ _ _ (key_ne_of_pagesApart h hi hi')

/-- A field of another instance. -/
theorem Dev.rd_wr_inst {inst inst' : Nat} (v : Nat) (hf : f.place 0 < 131072) (h : inst ≠ inst') : (d.wr f inst v).rd f inst' = d.rd f inst' := by
  refine Dev.rd_wr_page d inst v inst' hf hf fun hpg => h ?_
  unfold Field.pg pageNum at hpg
  omega

end

/-- A fold whose step for one element settles a part of the device, and whose steps for the others leave it alone. -/
theorem foldl_sets {α β : Type} (p : Dev → β) (f : Dev → α → Dev) {x : α} {v : β} {xs : List α} (hx : x ∈ xs) (hset : ∀ d, p (f d x) = v)
    (hkeep : ∀ d, ∀ y ∈ xs, y ≠ x → p (f d y) = p d) (d : Dev) : p (xs.foldl f d) = v := by
  induction xs generalizing d with
  | nil => exact absurd hx List.not_mem_nil
  | cons y ys ih =>
    by_cases hmem : x ∈ ys
    · exact ih hmem (fun d z hz => hkeep d z (List.mem_cons_of_mem y hz)) _
    · obtain rfl : x = y := (List.mem_cons.1 hx).resolve_right hmem
      refine (foldl_keeps_mem p f ys (fun d z hz => hkeep d z (List.mem_cons_of_mem x hz) fun h => hmem (h ▸ hz)) _).trans (hset d)

/-! ## The PTP pages -/

theorem mem_control_lt {p : Nat} (h : p ∈ [4, 5, 6, 7]) : p < 8 := by
  simp only [List.mem_cons, List.not_mem_nil, or_false] at h
  omega

theorem mem_control {p : Nat} (hp : p < 8) (h : isControl p = true) : p ∈ [4, 5, 6, 7] := by
  have hlo : 4 ≤ p := of_decide_eq_true h
  simp only [List.mem_cons, List.not_mem_nil, or_false]
  omega

section
variable (d : Dev) {f g : Field}

theorem Dev.rd_ptpAll_ne {i : Nat} (v inst : Nat) (hf : f.place i < 131072) (hg : g.place 0 < 131072) (h : f.place i ≠ g.place 0) :
    (d.ptpAll f v i).rd g inst = d.rd g inst :=
  foldl_keeps (fun e : Dev => e.rd g inst) (fun (e : Dev) p => e.wr f (hostInst p) v i) (fun _ _ => Dev.rd_wr_place _ _ _ _ hf hg h) _ _

theorem Dev.rd_ptpAll_same {p : Nat} (v : Nat) (hp : p ∈ [4, 5, 6, 7]) (hf : f.place 0 < 131072) (hw : f.width ≤ 32) (hr : f.rst 0 < 2 ^ 32) :
    (d.ptpAll f v).rd f (hostInst p) = v % 2 ^ f.width := by
  refine foldl_sets (fun e : Dev => e.rd f (hostInst p)) (fun (e : Dev) p => e.wr f (hostInst p) v) hp (fun e => e.rd_wr_same _ _ hw hr)
    (fun e q hq hne => e.rd_wr_inst _ hf fun h => hne ?_) d
  exact hostInst_inj h (mem_control_lt hq) (mem_control_lt hp)

theorem BesideRegs.ptpAll {β : Type} {q : Dev → β} (hq : BesideRegs q) (d : Dev) (f : Field) (v i : Nat) : q (d.ptpAll f v i) = q d :=
  foldl_keeps q _ (fun _ _ => hq.set _ _ _ _ _) _ _

theorem Dev.hd_ptpAll {h : Field} (v pg : Nat) (hh : inHeader h = true) (hf : inBody f = true) : (d.ptpAll f v).hd h pg = d.hd h pg :=
  foldl_keeps (fun e : Dev => e.hd h pg) (fun (e : Dev) p => e.wr f (hostInst p) v) (fun _ _ => Dev.hd_wr_body _ _ _ _ hh hf) _ _

theorem BesideRegs.wallView {β : Type} {q : Dev → β} (hq : BesideRegs q) (d : Dev) : q d.wallView = q d := by
  unfold Dev.wallView
  simp only [hq.ptpAll]

theorem Dev.rd_wallView (inst : Nat) (hg : g.place 0 < 131072) (h : [Reg.HOST_PTP_TAI_SEC_LO, Reg.HOST_PTP_TAI_SEC_HI, Reg.HOST_PTP_TAI_NS].all
    (fun f => decide (f.place 0 ≠ g.place 0)) = true) : d.wallView.rd g inst = d.rd g inst := by
  simp only [List.all_cons, List.all_nil, Bool.and_true, Bool.and_eq_true, decide_eq_true_eq] at h
  obtain ⟨hlo, hhi, hns⟩ := h
  unfold Dev.wallView
  simp only
  rw [Dev.rd_ptpAll_ne _ _ _ (by decide) hg hns, Dev.rd_ptpAll_ne _ _ _ (by decide) hg hhi, Dev.rd_ptpAll_ne _ _ _ (by decide) hg hlo]

theorem Dev.hd_wallView {h : Field} (pg : Nat) (hh : inHeader h = true) : d.wallView.hd h pg = d.hd h pg := by
  unfold Dev.wallView
  simp only
  rw [Dev.hd_ptpAll _ _ _ hh (by decide), Dev.hd_ptpAll _ _ _ hh (by decide), Dev.hd_ptpAll _ _ _ hh (by decide)]

/-! ## The active port -/

/-- One control port follows the active one. -/
def Dev.ptpFollows (d e : Dev) (p : Nat) : Dev :=
  (e.wr Reg.HOST_PTP_ACTIVE (hostInst p) (ofB (d.ptpBest == some p))).wr Reg.HOST_PTP_PORT_STATE (hostInst p)
    (if d.ptpBest == some p then (if d.ptpActive = d.ptpBest then e.rd Reg.HOST_PTP_PORT_STATE (hostInst p) else 2) else if e.hostUp p then 1 else 0)

theorem Dev.ptpSelect_eq (d : Dev) : d.ptpSelect = match d.ptpBest with
    | some p => if d.ptpActive = d.ptpBest then [4, 5, 6, 7].foldl d.ptpFollows d
      else ([4, 5, 6, 7].foldl d.ptpFollows d).raise (pgPtp p) 0x0B0D 11 Sev.info p
    | none => [4, 5, 6, 7].foldl d.ptpFollows d := rfl

theorem BesideRegs.ptpSelect {β : Type} {q : Dev → β} (hq : BesideRegs q) (d : Dev) : q d.ptpSelect = q d := by
  have hfollows : q ([4, 5, 6, 7].foldl d.ptpFollows d) = q d := foldl_keeps q _ (fun _ _ => (hq.set _ _ _ _ _).trans (hq.set _ _ _ _ _)) _ _
  rw [Dev.ptpSelect_eq]
  split
  · split
    · exact hfollows
    · exact (hq.raise _ _ _ _ _ _).trans hfollows
  · exact hfollows

theorem Dev.rd_ptpSelect {inst : Nat} (hi : inst < 4096) (hg : inBody g = true) (hactive : fieldsApart Reg.HOST_PTP_ACTIVE g = true)
    (hstate : fieldsApart Reg.HOST_PTP_PORT_STATE g = true) : d.ptpSelect.rd g inst = d.rd g inst := by
  have hfollows : ([4, 5, 6, 7].foldl d.ptpFollows d).rd g inst = d.rd g inst := by
    refine foldl_keeps_mem (fun e : Dev => e.rd g inst) d.ptpFollows _ (fun e p hp => ?_) d
    have hp := hostInst_lt p (mem_control_lt hp)
    exact (Dev.rd_wr_fields _ _ hstate hp hi).trans (Dev.rd_wr_fields _ _ hactive hp hi)
  rw [Dev.ptpSelect_eq]
  split
  · split
    · exact hfollows
    · exact (Dev.rd_raise_body _ _ _ _ _ _ _ hg).trans hfollows
  · exact hfollows

/-- The best control port becomes the active one. -/
theorem Dev.ptpSelect_active {p : Nat} (hp : p ∈ [4, 5, 6, 7]) :
    d.ptpSelect.rd Reg.HOST_PTP_ACTIVE (hostInst p) = ofB (d.ptpBest == some p) := by
  have hfollows : ([4, 5, 6, 7].foldl d.ptpFollows d).rd Reg.HOST_PTP_ACTIVE (hostInst p) = ofB (d.ptpBest == some p) := by
    refine foldl_sets (fun e : Dev => e.rd Reg.HOST_PTP_ACTIVE (hostInst p)) d.ptpFollows hp (fun e => ?_) (fun e q hq hne => ?_) d
    · refine (Dev.rd_wr_apart _ _ _ _ (f := Reg.HOST_PTP_PORT_STATE) (by decide)).trans ?_
      refine (Dev.rd_wr_same _ _ _ (f := Reg.HOST_PTP_ACTIVE) (by decide) (by decide)).trans ?_
      cases d.ptpBest == some p <;> rfl
    · refine (Dev.rd_wr_apart _ _ _ _ (f := Reg.HOST_PTP_PORT_STATE) (by decide)).trans ?_
      exact e.rd_wr_inst _ (by decide) fun h => hne (hostInst_inj h (mem_control_lt hq) (mem_control_lt hp))
  rw [Dev.ptpSelect_eq]
  split
  · split
    · exact hfollows
    · exact (Dev.rd_raise_body _ _ _ _ _ _ _ (by decide)).trans hfollows
  · exact hfollows

variable {d}

theorem Dev.ptpActive_congr {e : Dev} (h : ∀ p, e.rd Reg.HOST_PTP_ACTIVE (hostInst p) = d.rd Reg.HOST_PTP_ACTIVE (hostInst p)) : e.ptpActive = d.ptpActive := by
  unfold Dev.ptpActive
  simp only [h]

/-- A control port that qualifies gives an active port. -/
theorem Dev.ptpSelect_some {p : Nat} (hp : p ∈ [4, 5, 6, 7]) (hup : d.hostUp p = true) (hsec : d.secured p = true)
    (hmaster : (d.hp p).master.isSome = true) : d.ptpSelect.ptpActive ≠ none := by
  intro hnone
  have hbest : d.ptpBest ≠ none := by
    intro h
    have := List.find?_eq_none.1 h p hp
    simp [hup, hsec, hmaster] at this
  obtain ⟨q, hq⟩ := Option.ne_none_iff_exists'.1 hbest
  have hmem : q ∈ [4, 5, 6, 7] := List.mem_of_find?_eq_some hq
  have hone := d.ptpSelect_active hmem
  have := List.find?_eq_none.1 hnone q hmem
  rw [hone, hq] at this
  exact this (by simp [ofB])

end

/-! ## Frames -/

section
variable {d : Dev} {p : Nat} {f : EthFrame}

theorem Dev.frameReceive_off (h : d.hostTakes p = false) : d.frameReceive p f = d := if_pos (congrArg (! ·) h)

/-- A frame that fails a check before its protection is looked at, or is a control frame. -/
theorem Dev.frameReceive_counted (h : d.hostTakes p = true) :
    (f.room = false → d.frameReceive p f = d.bump Reg.HOST_MAC_RX_DROP (hostInst p)) ∧
    (f.room = true → f.fcsOk = false → d.frameReceive p f = d.bump Reg.HOST_MAC_FCS_ERR (hostInst p)) ∧
    (f.room = true → f.fcsOk = true → 9216 < f.len.toNat → d.frameReceive p f = d.bump Reg.HOST_MAC_OVERSIZE (hostInst p)) ∧
    (f.room = true → f.fcsOk = true → f.len.toNat ≤ 9216 →
      (f.tagged = true → d.frameReceive p f = d.bump Reg.HOST_MAC_OTHER (hostInst p)) ∧
      (f.tagged = false → f.pause = true → d.frameReceive p f = d.bump Reg.HOST_MAC_PAUSE_RX (hostInst p)) ∧
      (f.tagged = false → f.pause = false → f.eapol = true → d.frameReceive p f = d.count Reg.HOST_MAC_RX_FRAMES (hostInst p))) := by
  refine ⟨fun hroom => ?_, fun hroom hfcs => ?_, fun hroom hfcs hlen => ?_, fun hroom hfcs hlen => ⟨fun htag => ?_, fun htag hpause => ?_,
    fun htag hpause heapol => ?_⟩⟩
  · simp [Dev.frameReceive, h, hroom]
  · simp [Dev.frameReceive, h, hroom, hfcs]
  · simp [Dev.frameReceive, h, hroom, hfcs, hlen]
  · simp [Dev.frameReceive, h, hroom, hfcs, Nat.not_lt_of_le hlen, htag]
  · simp [Dev.frameReceive, h, hroom, hfcs, Nat.not_lt_of_le hlen, htag, hpause]
  · simp [Dev.frameReceive, h, hroom, hfcs, Nat.not_lt_of_le hlen, htag, hpause, heapol]

/-- A frame that is none of the control frames, as R415 has it: protected or not, it is served or dropped. -/
theorem Dev.frameReceive_data (h : d.hostTakes p = true) (hroom : f.room = true) (hfcs : f.fcsOk = true) (hlen : f.len.toNat ≤ 9216)
    (htag : f.tagged = false) (hpause : f.pause = false) (heapol : f.eapol = false) : d.frameReceive p f =
    if f.isSecured && ! f.icvOk then d.bump Reg.HOST_SEC_ICV_FAIL (hostInst p)
    else if (f.isSecured && ! d.secured p) || (! f.isSecured && (d.secRequired p || (d.hp p).lost)) then
      d.bump Reg.HOST_SEC_UNPROTECTED_DROP (hostInst p)
    else if f.isSecured && ! d.pnOk p f.pn.toNat then d.bump Reg.HOST_SEC_REPLAY_DROP (hostInst p)
    else
      let d := if f.isSecured then d.setHp p { d.hp p with rxPn := max (d.hp p).rxPn f.pn.toNat } else d
      if ! f.served || ! f.headerOk then d.bump Reg.HOST_MAC_OTHER (hostInst p) else d.count Reg.HOST_MAC_RX_FRAMES (hostInst p) := by
  simp only [Dev.frameReceive, h, hroom, hfcs, Nat.not_lt_of_le hlen, htag, hpause, heapol, Bool.not_true, Bool.false_eq_true, if_false]

variable (hdata : d.hostTakes p = true ∧ f.room = true ∧ f.fcsOk = true ∧ f.len.toNat ≤ 9216 ∧ f.tagged = false ∧ f.pause = false ∧ f.eapol = false)
include hdata

theorem Dev.frameReceive_forged (hsec : f.isSecured = true) (hicv : f.icvOk = false) :
    d.frameReceive p f = d.bump Reg.HOST_SEC_ICV_FAIL (hostInst p) := by
  obtain ⟨h, hroom, hfcs, hlen, htag, hpause, heapol⟩ := hdata
  rw [Dev.frameReceive_data h hroom hfcs hlen htag hpause heapol]
  simp only [hsec, hicv, Bool.not_false, Bool.and_self, if_true]

theorem Dev.frameReceive_unprotected (hdrop : (f.isSecured = true ∧ f.icvOk = true ∧ d.secured p = false) ∨
    (f.isSecured = false ∧ (d.secRequired p = true ∨ (d.hp p).lost = true))) :
    d.frameReceive p f = d.bump Reg.HOST_SEC_UNPROTECTED_DROP (hostInst p) := by
  obtain ⟨h, hroom, hfcs, hlen, htag, hpause, heapol⟩ := hdata
  rw [Dev.frameReceive_data h hroom hfcs hlen htag hpause heapol]
  rcases hdrop with ⟨hsec, hicv, hassoc⟩ | ⟨hsec, hneeds⟩
  · simp [hsec, hicv, hassoc]
  · simp [hsec, hneeds]

theorem Dev.frameReceive_protected (hsec : f.isSecured = true) (hicv : f.icvOk = true) (hassoc : d.secured p = true) : d.frameReceive p f =
    if d.pnOk p f.pn.toNat = false then d.bump Reg.HOST_SEC_REPLAY_DROP (hostInst p)
    else
      let e := d.setHp p { d.hp p with rxPn := max (d.hp p).rxPn f.pn.toNat }
      if f.served = true ∧ f.headerOk = true then e.count Reg.HOST_MAC_RX_FRAMES (hostInst p) else e.bump Reg.HOST_MAC_OTHER (hostInst p) := by
  obtain ⟨h, hroom, hfcs, hlen, htag, hpause, heapol⟩ := hdata
  rw [Dev.frameReceive_data h hroom hfcs hlen htag hpause heapol]
  cases hserved : f.served <;> cases hheader : f.headerOk <;> simp [hsec, hicv, hassoc]

theorem Dev.frameReceive_plain (hsec : f.isSecured = false) (hreq : d.secRequired p = false) (hlost : (d.hp p).lost = false) : d.frameReceive p f =
    if f.served = true ∧ f.headerOk = true then d.count Reg.HOST_MAC_RX_FRAMES (hostInst p) else d.bump Reg.HOST_MAC_OTHER (hostInst p) := by
  obtain ⟨h, hroom, hfcs, hlen, htag, hpause, heapol⟩ := hdata
  rw [Dev.frameReceive_data h hroom hfcs hlen htag hpause heapol]
  cases hserved : f.served <;> cases hheader : f.headerOk <;> simp [hsec, hreq, hlost]

end

/-! ## Key agreement -/

section
variable {d : Dev} {p : Nat}

@[simp] theorem Dev.hp_setHp (d : Dev) (p : Nat) (x : HPort) : (d.setHp p x).hp p = x := SMap.at_put_same _ _ _ _

theorem Dev.mkaFrame_off {f : MkaFrame} (h : d.hostTakes p = false ∨ d.sec.cak = none ∨ f.icvOk = false) : d.mkaFrame p f = d := by
  refine if_pos ?_
  rcases h with h | h | h <;> simp [h]

/-- A SAK that the peer distributes, before its event. -/
def Dev.sakInstalled (d : Dev) (p an : Nat) : Dev :=
  let i := hostInst p
  let d := (d.wr Reg.HOST_SEC_MKA_STATE i (max (d.rd Reg.HOST_SEC_MKA_STATE i) 2)).send (.mkaReply p)
  let d := ((d.wr Reg.HOST_SEC_TX_AN i an).wr Reg.HOST_SEC_RX_AN i an).bump Reg.HOST_SEC_SAK_CHANGES i
  let d := (d.wr Reg.HOST_SEC_TX_PN_LO i 0).wr Reg.HOST_SEC_TX_PN_HI i 0
  (d.setHp p { d.hp p with rxPn := 0, lost := false }).wr Reg.HOST_SEC_MKA_STATE i 3

theorem Dev.mkaFrame_sak {an : BitVec 2} (h : d.hostTakes p = true) (hcak : d.sec.cak.isSome = true) : d.mkaFrame p ⟨true, true, some an⟩ =
    if d.rd Reg.HOST_SEC_MKA_STATE (hostInst p) = 3 then d.sakInstalled p an.toNat
    else (d.sakInstalled p an.toNat).raise (pgHostSec p) 0x0B03 8 Sev.info an.toNat := by
  obtain ⟨cak, hcak⟩ := Option.isSome_iff_exists.1 hcak
  have hon : (! d.hostTakes p || d.sec.cak.isNone || ! true) = false := by simp [h, hcak]
  exact if_neg (Bool.eq_false_iff.1 hon)

theorem Dev.rd_bump_apart (d : Dev) {f g : Field} (inst n inst' : Nat) (h : placesApart f g = true) : (d.bump f inst n).rd g inst' = d.rd g inst' :=
  d.rd_wr_apart _ _ _ h

theorem Dev.sakInstalled_registers (d : Dev) (p : Nat) {an : Nat} (han : an < 4) : let e := d.sakInstalled p an
    let i := hostInst p
    e.secured p = true ∧ e.rd Reg.HOST_SEC_TX_AN i = an ∧ e.rd Reg.HOST_SEC_RX_AN i = an ∧ e.rd Reg.HOST_SEC_TX_PN_LO i = 0 ∧
    e.rd Reg.HOST_SEC_TX_PN_HI i = 0 := by
  have hsame (e : Dev) (f : Field) (v : Nat) (hw : f.width ≤ 32) (hr : f.rst 0 < 2 ^ 32) (hv : v < 2 ^ f.width) :
      (e.wr f (hostInst p) v).rd f (hostInst p) = v := (e.rd_wr_same _ v hw hr).trans (Nat.mod_eq_of_lt hv)
  have hsetHp (e : Dev) (x : HPort) (g : Field) (n : Nat) : (e.setHp p x).rd g n = e.rd g n := rfl
  unfold Dev.sakInstalled Dev.secured
  simp only
  refine ⟨?_, ?_, ?_, ?_, ?_⟩
  · rw [hsame _ _ _ (by decide) (by decide) (by decide)]
    rfl
  · simp (disch := decide) only [Dev.rd_wr_apart, hsetHp, Dev.rd_bump_apart]
    exact hsame _ _ _ (by decide) (by decide) han
  · simp (disch := decide) only [Dev.rd_wr_apart, hsetHp, Dev.rd_bump_apart]
    exact hsame _ _ _ (by decide) (by decide) han
  · simp (disch := decide) only [Dev.rd_wr_apart, hsetHp]
    exact hsame _ _ _ (by decide) (by decide) (by decide)
  · simp (disch := decide) only [Dev.rd_wr_apart, hsetHp]
    exact hsame _ _ _ (by decide) (by decide) (by decide)

theorem Dev.sakInstalled_beside (d : Dev) (p an : Nat) : (d.sakInstalled p an).out = d.out ++ [.mkaReply p] ∧ ((d.sakInstalled p an).hp p).rxPn = 0 :=
  ⟨rfl, congrArg HPort.rxPn (Dev.hp_setHp _ _ _)⟩

end

/-! ## Links -/

section
variable (d : Dev) {p k : Nat}

theorem besideRegs_hp (p : Nat) : BesideRegs fun d => d.hp p := ⟨fun _ _ _ _ _ => rfl, fun _ _ => rfl⟩

theorem bit_clrBit_same (v k : Nat) : bit (clrBit v k) k = false := by
  unfold clrBit bit
  split
  · next h =>
    have hsum := Nat.testBit_two_pow_add_eq (v - 2 ^ k) k
    rw [Nat.add_sub_cancel' (Nat.ge_two_pow_of_testBit h), h] at hsum
    simpa using hsum.symm
  · next h => exact Bool.eq_false_iff.2 h

theorem bit_clrBit_lt {v j k : Nat} (hjk : j < k) : bit (clrBit v k) j = bit v j := by
  unfold clrBit bit
  split
  · next h =>
    have hsum := Nat.testBit_two_pow_add_gt hjk (v - 2 ^ k)
    rw [Nat.add_sub_cancel' (Nat.ge_two_pow_of_testBit h)] at hsum
    exact hsum.symm
  · rfl

/-! A check for duplicates changes the port's list and the state of the address that it concerns. -/

theorem Dev.rd_dadStart {g : Field} (inst : Nat) (h : placesApart Reg.HOST_XPORT_ADDR_STATE g = true) :
    (d.dadStart p k).rd g inst = d.rd g inst := d.rd_wr_apart _ _ _ h

theorem Dev.hd_dadStart (pg : Nat) : (d.dadStart p k).hd Hdr.EVT_BLOCK pg = d.hd Hdr.EVT_BLOCK pg :=
  Dev.hd_wr_body _ _ _ _ (f := Reg.HOST_XPORT_ADDR_STATE) (by decide) (by decide)

theorem Dev.dadStart_dad (h : k = 0 ∨ (d.hp p).dad.contains 0 = true) : ((d.dadStart p k).hp p).dad.contains 0 = true := by
  have hhp : (d.dadStart p k).hp p = { d.hp p with dad := if (d.hp p).dad.contains k then (d.hp p).dad else (d.hp p).dad ++ [k] } := Dev.hp_setHp _ _ _
  rw [hhp]
  simp only
  split
  · next hin => exact h.elim (fun h => h ▸ hin) id
  · rw [List.contains_iff_mem, List.mem_append]
    exact h.elim (fun h => Or.inr (h ▸ List.mem_cons_self)) fun h => Or.inl (List.contains_iff_mem.1 h)

theorem Dev.addrState_dadStart : (d.dadStart p k).addrState p = clrBit (clrBit (d.addrState p) k) (3 - k) % 2 ^ 4 :=
  d.rd_wr_same _ _ (f := Reg.HOST_XPORT_ADDR_STATE) (by decide) (by decide)

theorem Dev.dadStart_unused (h : k = 0 ∨ (k = 1 ∧ bit (d.addrState p) 0 = false)) : bit ((d.dadStart p k).addrState p) 0 = false := by
  rw [Dev.addrState_dadStart, bit, Nat.testBit_mod_two_pow, Bool.and_eq_false_iff]
  refine Or.inr ?_
  rcases h with rfl | ⟨rfl, h⟩
  · exact (bit_clrBit_lt (by decide)).trans (bit_clrBit_same _ _)
  · exact (bit_clrBit_lt (by decide)).trans ((bit_clrBit_lt (by decide)).trans h)

theorem pgPtp_ne_mac (n p : Nat) : pgPtp n ∉ [pgHostMac p] := by
  simp only [List.mem_singleton, pgPtp, pgHostMac, pageNum]
  omega

theorem BesidePages.ptpSelect {pgs : List Nat} {β : Type} {q : Dev → β} (hq : BesidePages pgs q) (h : ∀ n, pgPtp n ∉ pgs) (d : Dev) :
    q d.ptpSelect = q d := by
  have hfollows : q ([4, 5, 6, 7].foldl d.ptpFollows d) = q d := foldl_keeps q _ (fun e p =>
    (hq.wr _ (f := Reg.HOST_PTP_PORT_STATE) _ (h p) (by decide)).trans (hq.wr _ (f := Reg.HOST_PTP_ACTIVE) _ (h p) (by decide))) _ _
  rw [Dev.ptpSelect_eq]
  split
  · split
    · exact hfollows
    · exact (hq.raise _ _ _ _ _ (h _)).trans hfollows
  · exact hfollows

theorem Dev.hd_ptpSelect (p : Nat) : d.ptpSelect.hd Hdr.EVT_BLOCK (pgHostMac p) = d.hd Hdr.EVT_BLOCK (pgHostMac p) :=
  BesidePages.ptpSelect (q := fun e => e.hd Hdr.EVT_BLOCK (pgHostMac p)) (besidePages_get List.mem_cons_self (by decide)) (pgPtp_ne_mac · p) d

/-- The port once its link is up: MKA begins where a key is provisioned. -/
def Dev.linkRaised (d : Dev) (p : Nat) : Dev :=
  let d := ((d.wr Reg.HOST_MAC_STATE (hostInst p) 3).busy (pgHostMac p)).raise (pgHostMac p) 0x0B01 8 Sev.info 0
  if d.sec.cak.isSome then d.wr Reg.HOST_SEC_MKA_STATE (hostInst p) 1 else d

theorem Dev.busy_sec (pg : Nat) : (d.busy pg).sec = d.sec := by
  unfold Dev.busy
  split <;> rfl

theorem Dev.linkRaised_registers : (d.linkRaised p).rd Reg.HOST_MAC_STATE (hostInst p) = 3 ∧
    (d.sec.cak.isSome = true → (d.linkRaised p).rd Reg.HOST_SEC_MKA_STATE (hostInst p) = 1) ∧
    bit ((d.linkRaised p).hd Hdr.EVT_BLOCK (pgHostMac p)) 0 = true := by
  have hstate : (((d.wr Reg.HOST_MAC_STATE (hostInst p) 3).busy (pgHostMac p)).raise (pgHostMac p) 0x0B01 8 Sev.info 0).rd
      Reg.HOST_MAC_STATE (hostInst p) = 3 := by
    rw [Dev.rd_raise_body _ _ _ _ _ _ _ (by decide), Dev.rd_busy_body _ _ _ (by decide)]
    exact d.rd_wr_same _ 3 (f := Reg.HOST_MAC_STATE) (by decide) (by decide)
  have hevent : bit ((((d.wr Reg.HOST_MAC_STATE (hostInst p) 3).busy (pgHostMac p)).raise (pgHostMac p) 0x0B01 8 Sev.info 0).hd
      Hdr.EVT_BLOCK (pgHostMac p)) 0 = true := Dev.raise_block_bit _ _ _ _ (pos := 8) (by decide) (by decide)
  have hsec : (((d.wr Reg.HOST_MAC_STATE (hostInst p) 3).busy (pgHostMac p)).raise (pgHostMac p) 0x0B01 8 Sev.info 0).sec = d.sec :=
    (Dev.raise_sec _ _ _ _ _ _).trans (Dev.busy_sec _ _)
  unfold Dev.linkRaised
  simp only [hsec]
  split
  · refine ⟨(Dev.rd_wr_apart _ _ _ _ (f := Reg.HOST_SEC_MKA_STATE) (by decide)).trans hstate,
      fun _ => Dev.rd_wr_same _ _ 1 (f := Reg.HOST_SEC_MKA_STATE) (by decide) (by decide), ?_⟩
    rw [Dev.hd_wr_body _ _ _ _ (by decide) (by decide)]
    exact hevent
  · next h => exact ⟨hstate, fun h' => absurd h' h, hevent⟩

variable {d}

theorem Dev.hostLinkUp_eq (h0 : d.rd Reg.HOST_MAC_STATE (hostInst p) ≠ 0) (h3 : d.rd Reg.HOST_MAC_STATE (hostInst p) ≠ 3) : d.hostLinkUp p =
    let e := (d.linkRaised p).ptpSelect.dadStart p 0
    if e.ipv6 p = 0 then e else e.dadStart p 1 := if_neg fun h => h.elim h0 h3

theorem Dev.hostLinkUp_registers (hp : p < 8) (h0 : d.rd Reg.HOST_MAC_STATE (hostInst p) ≠ 0) (h3 : d.rd Reg.HOST_MAC_STATE (hostInst p) ≠ 3) :
    let e := d.hostLinkUp p
    e.hostUp p = true ∧ (e.hp p).dad.contains 0 = true ∧ bit (e.addrState p) 0 = false ∧
    (d.sec.cak.isSome = true → e.rd Reg.HOST_SEC_MKA_STATE (hostInst p) = 1) ∧ bit (e.hd Hdr.EVT_BLOCK (pgHostMac p)) 0 = true := by
  intro e
  have he : e = _ := Dev.hostLinkUp_eq h0 h3
  obtain ⟨hstate, hmka, hevent⟩ := d.linkRaised_registers (p := p)
  have hrd {g : Field} (hg : inBody g = true) (hactive : fieldsApart Reg.HOST_PTP_ACTIVE g = true)
      (hport : fieldsApart Reg.HOST_PTP_PORT_STATE g = true) (haddr : placesApart Reg.HOST_XPORT_ADDR_STATE g = true) :
      ((d.linkRaised p).ptpSelect.dadStart p 0).rd g (hostInst p) = (d.linkRaised p).rd g (hostInst p) :=
    (Dev.rd_dadStart _ _ haddr).trans (Dev.rd_ptpSelect _ (hostInst_lt p hp) hg hactive hport)
  have hup : ((d.linkRaised p).ptpSelect.dadStart p 0).rd Reg.HOST_MAC_STATE (hostInst p) = 3 :=
    (hrd (by decide) (by decide) (by decide) (by decide)).trans hstate
  have hkey (h : d.sec.cak.isSome = true) : ((d.linkRaised p).ptpSelect.dadStart p 0).rd Reg.HOST_SEC_MKA_STATE (hostInst p) = 1 :=
    (hrd (by decide) (by decide) (by decide) (by decide)).trans (hmka h)
  have hbit : bit (((d.linkRaised p).ptpSelect.dadStart p 0).hd Hdr.EVT_BLOCK (pgHostMac p)) 0 = true := by
    rw [Dev.hd_dadStart, Dev.hd_ptpSelect]
    exact hevent
  have hdad := Dev.dadStart_dad (d.linkRaised p).ptpSelect (p := p) (k := 0) (Or.inl rfl)
  have haddr := Dev.dadStart_unused (d.linkRaised p).ptpSelect (p := p) (k := 0) (Or.inl rfl)
  rw [he]
  generalize (d.linkRaised p).ptpSelect.dadStart p 0 = x at hup hkey hbit hdad haddr
  simp only
  unfold Dev.hostUp
  split
  · exact ⟨beq_iff_eq.2 hup, hdad, haddr, hkey, hbit⟩
  · refine ⟨beq_iff_eq.2 ((x.rd_dadStart _ (by decide)).trans hup), x.dadStart_dad (Or.inr hdad), x.dadStart_unused (Or.inr ⟨rfl, haddr⟩),
      fun h => (x.rd_dadStart _ (by decide)).trans (hkey h), ?_⟩
    rw [Dev.hd_dadStart]
    exact hbit

/-- The port once its link is down, before the active control port is chosen again. -/
def Dev.linkLowered (d : Dev) (p : Nat) : Dev :=
  ((((d.wr Reg.HOST_MAC_STATE (hostInst p) 1).idle (pgHostMac p)).unsecure p 0).setHp p { d.hp p with dad := [], master := none }).setAddrState p 0

theorem Dev.hostLinkDown_eq (h : 2 ≤ d.rd Reg.HOST_MAC_STATE (hostInst p)) : d.hostLinkDown p =
    (d.linkLowered p).ptpSelect.raise (pgHostMac p) 0x0B02 9 Sev.warn 0 := if_neg (Nat.not_lt_of_le h)

theorem Dev.linkLowered_registers (d : Dev) (p : Nat) : (d.linkLowered p).rd Reg.HOST_MAC_STATE (hostInst p) = 1 ∧
    (d.linkLowered p).rd Reg.HOST_SEC_MKA_STATE (hostInst p) = 0 ∧ (d.linkLowered p).addrState p = 0 ∧ ((d.linkLowered p).hp p).dad = [] := by
  have hsetHp (e : Dev) (x : HPort) (g : Field) (n : Nat) : (e.setHp p x).rd g n = e.rd g n := rfl
  refine ⟨?_, ?_, Dev.rd_wr_same _ _ 0 (f := Reg.HOST_XPORT_ADDR_STATE) (by decide) (by decide), ?_⟩
  · unfold Dev.linkLowered Dev.setAddrState Dev.unsecure
    rw [Dev.rd_wr_apart _ _ _ _ (by decide), hsetHp, Dev.rd_wr_apart _ _ _ _ (by decide), Dev.rd_idle_body _ _ _ (by decide)]
    exact d.rd_wr_same _ 1 (f := Reg.HOST_MAC_STATE) (by decide) (by decide)
  · unfold Dev.linkLowered Dev.setAddrState Dev.unsecure
    rw [Dev.rd_wr_apart _ _ _ _ (by decide), hsetHp]
    exact Dev.rd_wr_same _ _ 0 (f := Reg.HOST_SEC_MKA_STATE) (by decide) (by decide)
  · exact congrArg HPort.dad ((besideRegs_hp p).set _ _ _ _ _ |>.trans (Dev.hp_setHp _ _ _))

theorem Dev.hostLinkDown_registers (hp : p < 8) (h : 2 ≤ d.rd Reg.HOST_MAC_STATE (hostInst p)) : let e := d.hostLinkDown p
    e.rd Reg.HOST_MAC_STATE (hostInst p) = 1 ∧ e.rd Reg.HOST_SEC_MKA_STATE (hostInst p) = 0 ∧ e.addrState p = 0 ∧ (e.hp p).dad = [] ∧
    bit (e.hd Hdr.EVT_BLOCK (pgHostMac p)) 1 = true := by
  intro e
  have he : e = _ := Dev.hostLinkDown_eq h
  obtain ⟨hstate, hmka, haddr, hdad⟩ := d.linkLowered_registers p
  have hrd {g : Field} (hg : inBody g = true) (hactive : fieldsApart Reg.HOST_PTP_ACTIVE g = true)
      (hport : fieldsApart Reg.HOST_PTP_PORT_STATE g = true) : e.rd g (hostInst p) = (d.linkLowered p).rd g (hostInst p) := by
    rw [he, Dev.rd_raise_body _ _ _ _ _ _ _ hg, Dev.rd_ptpSelect _ (hostInst_lt p hp) hg hactive hport]
  refine ⟨(hrd (by decide) (by decide) (by decide)).trans hstate, (hrd (by decide) (by decide) (by decide)).trans hmka,
    (hrd (by decide) (by decide) (by decide)).trans haddr, ?_, ?_⟩
  · have hhp : e.hp p = (d.linkLowered p).hp p := by rw [he, (besideRegs_hp p).raise, (besideRegs_hp p).ptpSelect]
    rw [hhp, hdad]
  · rw [he]
    exact Dev.raise_block_bit _ _ _ _ (pos := 9) (by decide) (by decide)

end

/-! ## Addresses -/

section
variable {d : Dev} {p : Nat}

theorem Dev.neighborSol_link {adv : Bool} (h : d.carries p = true) : d.neighborSol p (d.linkLocal p) adv =
    if (d.hp p).dad.contains 0 then d.dadFail p 0
    else if ! adv && bit (d.addrState p) 0 then (d.txFrame p).send (.neighborAdvert p true) else d := by
  refine (if_neg (Bool.eq_false_iff.1 (congrArg (! ·) h))).trans ?_
  simp only [if_true, beq_self_eq_true]

theorem Dev.echoRequest_off {v6 : Bool} {b : List Byte} (h : d.carries p = false ∨ 1024 < b.length ∨
    64 ≤ ((d.hp p).echoes.filter fun t => decide (d.now < t + ms 1000)).length) : d.echoRequest p v6 b = d := by
  refine if_pos ?_
  rcases h with h | h | h <;> simp [h]

theorem Dev.echoRequest_on {v6 : Bool} {b : List Byte} (h : d.carries p = true) (hlen : b.length ≤ 1024)
    (hfew : ((d.hp p).echoes.filter fun t => decide (d.now < t + ms 1000)).length < 64) : d.echoRequest p v6 b =
    ((d.setHp p { d.hp p with echoes := d.now :: (d.hp p).echoes.filter fun t => decide (d.now < t + ms 1000) }).txFrame p).send
      (.echoReply p v6 b) := by
  refine if_neg ?_
  simp [h, Nat.not_lt_of_le hlen, Nat.not_le_of_lt hfew]

end

/-! ## Wall time -/

section
variable {d : Dev} {p : Nat}

/-- An announce is heard by a secured control port of its domain. -/
def Dev.announceHeard (d : Dev) (p : Nat) (a : Announce) : Prop :=
  isControl p = true ∧ d.hostTakes p = true ∧ d.secured p = true ∧ a.domain.toNat = d.rd Reg.HOST_PTP_DOMAIN (hostInst p) ∧ a.stepsRemoved.toNat < 255

theorem announceHeard_iff {a : Announce} : d.announceHeard p a ↔ (! isControl p || ! d.hostTakes p || ! d.secured p ||
    decide (a.domain.toNat ≠ d.rd Reg.HOST_PTP_DOMAIN (hostInst p)) || decide (255 ≤ a.stepsRemoved.toNat)) = false := by
  unfold Dev.announceHeard
  simp only [Bool.or_eq_false_iff, Bool.not_eq_false', decide_eq_false_iff_not, Nat.not_le, ne_eq, not_not, and_assoc]

theorem Dev.ptpAnnounce_off {a : Announce} (h : ¬ d.announceHeard p a) : d.ptpAnnounce p a = d :=
  if_pos (Bool.not_eq_false _ ▸ mt announceHeard_iff.2 h)

/-- The first announce of a port: the active port is chosen with it. -/
def Dev.announceTaken (d : Dev) (p : Nat) (a : Announce) : Dev :=
  (d.setHp p { d.hp p with master := some a, utc := (a.utcOffset.toNat :: (d.hp p).utc).take 3 }).ptpSelect

/-- What the active port's announce shows, and that ACQUIRE begins. -/
def Dev.announceShown (d : Dev) (p : Nat) (a : Announce) : Dev :=
  let gm := ((d.hp p).master.map (·.gm.toNat)).getD 0
  let d := (d.ptpAll Reg.HOST_PTP_GM_ID gm 0).ptpAll Reg.HOST_PTP_GM_ID (gm / 2 ^ 32) 1
  let us := (d.hp p).utc
  let d := if us.length = 3 ∧ us.all (· == a.utcOffset.toNat) ∧ a.utcOffset.toNat ≤ 255 then d.ptpAll Reg.HOST_PTP_UTC_OFFSET a.utcOffset.toNat else d
  if d.wallState = 0 ∨ d.wallState = 3 then ({ d with host := { d.host with beyond := 0, offsets := [] } } : Dev).ptpAll Reg.HOST_PTP_WALL_STATE 1
  else d

theorem Dev.ptpAnnounce_first {a : Announce} (h : d.announceHeard p a) (hmaster : (d.hp p).master = none) : d.ptpAnnounce p a =
    if (d.announceTaken p a).ptpActive ≠ some p then d.announceTaken p a else (d.announceTaken p a).announceShown p a := by
  refine (if_neg (Bool.eq_false_iff.1 (announceHeard_iff.1 h))).trans ?_
  simp only [hmaster, if_true] <;> rfl

/-- A port's own state and the active ports, which an announce that is shown leaves alone. -/
theorem Dev.announceShown_keeps (d : Dev) (p : Nat) (a : Announce) : (d.announceShown p a).hp p = d.hp p ∧
    (d.announceShown p a).ptpActive = d.ptpActive := by
  have hhp (e : Dev) (f : Field) (v i : Nat) : (e.ptpAll f v i).hp p = e.hp p := (besideRegs_hp p).ptpAll e f v i
  have hactive (e : Dev) (f : Field) (v i : Nat) (hf : f.place i < 131072) (h : f.place i ≠ Reg.HOST_PTP_ACTIVE.place 0) :
      (e.ptpAll f v i).ptpActive = e.ptpActive := Dev.ptpActive_congr fun _ => Dev.rd_ptpAll_ne _ _ _ hf (by decide) h
  have hgm (v w : Nat) : ((d.ptpAll Reg.HOST_PTP_GM_ID v 0).ptpAll Reg.HOST_PTP_GM_ID w 1).hp p = d.hp p ∧
      ((d.ptpAll Reg.HOST_PTP_GM_ID v 0).ptpAll Reg.HOST_PTP_GM_ID w 1).ptpActive = d.ptpActive :=
    ⟨(hhp _ _ _ _).trans (hhp _ _ _ _), (hactive _ _ _ _ (by decide) (by decide)).trans (hactive _ _ _ _ (by decide) (by decide))⟩
  have hutc (e : Dev) (c : Prop) [Decidable c] (v : Nat) : (if c then e.ptpAll Reg.HOST_PTP_UTC_OFFSET v else e).hp p = e.hp p ∧
      (if c then e.ptpAll Reg.HOST_PTP_UTC_OFFSET v else e).ptpActive = e.ptpActive := by
    split
    · exact ⟨hhp _ _ _ _, hactive _ _ _ _ (by decide) (by decide)⟩
    · exact ⟨rfl, rfl⟩
  have hacquire (e : Dev) (c : Prop) [Decidable c] :
      (if c then ({ e with host := { e.host with beyond := 0, offsets := [] } } : Dev).ptpAll Reg.HOST_PTP_WALL_STATE 1 else e).hp p = e.hp p ∧
      (if c then ({ e with host := { e.host with beyond := 0, offsets := [] } } : Dev).ptpAll Reg.HOST_PTP_WALL_STATE 1 else e).ptpActive =
        e.ptpActive := by
    split
    · exact ⟨(hhp _ _ _ _).trans rfl, (hactive _ _ _ _ (by decide) (by decide)).trans rfl⟩
    · exact ⟨rfl, rfl⟩
  unfold Dev.announceShown
  simp only
  exact ⟨(hacquire _ _).1.trans ((hutc _ _ _).1.trans (hgm _ _).1), (hacquire _ _).2.trans ((hutc _ _ _).2.trans (hgm _ _).2)⟩

theorem Dev.ptpAnnounce_registers {a : Announce} (hp : p < 8) (h : d.announceHeard p a) (hmaster : (d.hp p).master = none) :
    ((d.ptpAnnounce p a).hp p).master = some a ∧ (d.ptpAnnounce p a).ptpActive ≠ none := by
  obtain ⟨hcontrol, htakes, hsec, -, -⟩ := id h
  have hup : d.hostUp p = true := (Bool.and_eq_true_iff.1 htakes).1
  have htaken : ((d.announceTaken p a).hp p).master = some a := by
    unfold Dev.announceTaken
    rw [(besideRegs_hp p).ptpSelect, Dev.hp_setHp]
  have hactive : (d.announceTaken p a).ptpActive ≠ none :=
    Dev.ptpSelect_some (mem_control hp hcontrol) (show Dev.hostUp _ p = true from hup) (show Dev.secured _ p = true from hsec)
      (by rw [Dev.hp_setHp]; rfl)
  rw [Dev.ptpAnnounce_first h hmaster]
  split
  · exact ⟨htaken, hactive⟩
  · obtain ⟨hhp, hsame⟩ := (d.announceTaken p a).announceShown_keeps p a
    rw [hhp, hsame]
    exact ⟨htaken, hactive⟩

/-! An exchange moves wall time, by a step or a slew. -/

/-- How many exchanges in a row have been beyond 1 ms. -/
def Dev.beyondNow (d : Dev) (off : Int) : Nat := if off.natAbs ≤ 1000000 then 0 else d.host.beyond + 1

/-- An exchange is noted, and OFFSET_NS shows the median. -/
def Dev.exchangeNoted (d : Dev) (off : Int) : Dev :=
  let offs := (off :: d.host.offsets).take 5
  ({ d with host := { d.host with offsets := offs, beyond := d.beyondNow off, lastSync := d.now } } : Dev).ptpAll Reg.HOST_PTP_OFFSET_NS
    (wrapI 32 (max (-2147483648) (min 2147483647 (medianOf offs))))

/-- One more step of wall time. -/
def Dev.stepCounted (d : Dev) : Dev := d.ptpAll Reg.HOST_PTP_STEPS (sat 16 (d.rd Reg.HOST_PTP_STEPS (hostInst 4) + 1))

/-- Wall time is locked, with a step. -/
def Dev.wallLocked (d : Dev) (p : Nat) (off : Int) : Dev :=
  ((((d.stepWall (-off)).ptpAll Reg.HOST_PTP_WALL_STATE 2).stepCounted).wr Reg.HOST_PTP_PORT_STATE (hostInst p) 3).raise (pgPtp p) 0x0B0A 8 Sev.info 0

/-- Wall time is stepped while it is locked. -/
def Dev.wallStepped (d : Dev) (p : Nat) (off : Int) : Dev :=
  ((({ d with host := { d.host with beyond := 0, offsets := [] } } : Dev).stepWall (-off)).stepCounted).raise (pgPtp p) 0x0B0C 10 Sev.warn (stepDetail (-off))

/-- How far wall time may be slewed since the last exchange. -/
def Dev.slewLimit (d : Dev) : Int := ((d.now - d.host.lastSync : Nat) : Int) * 100 / 10000

theorem Dev.rd_stepWall (d : Dev) (off : Int) (g : Field) (inst : Nat) : (d.stepWall off).rd g inst = d.rd g inst := by
  unfold Dev.stepWall
  split <;> rfl

theorem Dev.stepWall_host (d : Dev) (off : Int) : (d.stepWall off).host = { d.host with wallBase := d.host.wallBase + off } := by
  unfold Dev.stepWall
  split <;> rfl

theorem Dev.stepWall_back {off : Int} (h : off < 0) : bit (d.stepWall off).sec.acc.flags 2 = true := by
  unfold Dev.stepWall
  rw [if_pos h]
  show (d.sec.acc.flags ||| 2 ^ 2).testBit 2 = true
  rw [Nat.testBit_or, Nat.testBit_two_pow_self, Bool.or_true]

variable {off : Int}

theorem Dev.wallState_noted : (d.exchangeNoted off).wallState = d.wallState := Dev.rd_ptpAll_ne _ _ _ (by decide) (by decide) (by decide)

theorem besideRegs_host : BesideRegs Dev.host := ⟨fun _ _ _ _ _ => rfl, fun _ _ => rfl⟩

theorem Dev.exchangeNoted_host : (d.exchangeNoted off).host =
    { d.host with offsets := (off :: d.host.offsets).take 5, beyond := d.beyondNow off, lastSync := d.now } := besideRegs_host.ptpAll _ _ _ _

theorem Dev.ptpExchange_eq (h : d.ptpActive = some p) : d.ptpExchange p off = (if d.wallState = 1 then
      if offsetSteady ((off :: d.host.offsets).take 5) then (d.exchangeNoted off).wallLocked p off else d.exchangeNoted off
    else if d.wallState = 2 then
      if 3 ≤ d.beyondNow off then (d.exchangeNoted off).wallStepped p off
      else (d.exchangeNoted off).moveWall (max (-d.slewLimit) (min d.slewLimit (-(medianOf ((off :: d.host.offsets).take 5)))))
    else d.exchangeNoted off).wallView := by
  rw [← Dev.wallState_noted (off := off)]
  refine (if_neg fun hne => hne h).trans ?_
  simp only [decide_eq_true_eq] <;> rfl

/-- What a view of wall time leaves of its state, its base and an event of the port. -/
theorem Dev.wallView_keeps (d : Dev) (p : Nat) : d.wallView.wallState = d.wallState ∧ d.wallView.host = d.host ∧ d.wallView.sec = d.sec ∧
    d.wallView.hd Hdr.EVT_BLOCK (pgPtp p) = d.hd Hdr.EVT_BLOCK (pgPtp p) :=
  ⟨Dev.rd_wallView _ _ (by decide) (by decide), besideRegs_host.wallView d, BesideRegs.wallView (q := Dev.sec) ⟨fun _ _ _ _ _ => rfl, fun _ _ => rfl⟩ d,
    Dev.hd_wallView _ _ (by decide)⟩

theorem Dev.wallLocked_registers (d : Dev) (p : Nat) (off : Int) : (d.wallLocked p off).wallState = 2 ∧
    (d.wallLocked p off).host.wallBase = d.host.wallBase - off ∧ bit ((d.wallLocked p off).hd Hdr.EVT_BLOCK (pgPtp p)) 0 = true ∧
    (0 < off → bit (d.wallLocked p off).sec.acc.flags 2 = true) := by
  refine ⟨?_, ?_, Dev.raise_block_bit _ _ _ _ (pos := 8) (by decide) (by decide), fun hoff => ?_⟩
  · refine (Dev.rd_raise_body _ _ _ _ _ _ _ (by decide)).trans ((Dev.rd_wr_apart _ _ _ _ (f := Reg.HOST_PTP_PORT_STATE) (by decide)).trans ?_)
    refine (Dev.rd_ptpAll_ne _ _ _ (by decide) (by decide) (by decide)).trans ?_
    exact Dev.rd_ptpAll_same _ _ (by decide) (by decide) (by decide) (by decide)
  · have hhost : (d.wallLocked p off).host = (d.stepWall (-off)).host :=
      (Dev.raise_host _ _ _ _ _ _).trans ((besideRegs_host.set _ _ _ _ _).trans ((besideRegs_host.ptpAll _ _ _ _).trans (besideRegs_host.ptpAll _ _ _ _)))
    rw [hhost, Dev.stepWall_host]
    exact (Int.sub_eq_add_neg).symm
  · have hsec : BesideRegs Dev.sec := ⟨fun _ _ _ _ _ => rfl, fun _ _ => rfl⟩
    have hkept : (d.wallLocked p off).sec = (d.stepWall (-off)).sec :=
      (Dev.raise_sec _ _ _ _ _ _).trans ((hsec.set _ _ _ _ _).trans ((hsec.ptpAll _ _ _ _).trans (hsec.ptpAll _ _ _ _)))
    rw [hkept]
    exact Dev.stepWall_back (by omega)

theorem Dev.wallStepped_registers (d : Dev) (p : Nat) (off : Int) : (d.wallStepped p off).host.wallBase = d.host.wallBase - off ∧
    (d.wallStepped p off).host.beyond = 0 ∧ bit ((d.wallStepped p off).hd Hdr.EVT_BLOCK (pgPtp p)) 2 = true := by
  have hhost : (d.wallStepped p off).host = _ :=
    (Dev.raise_host _ _ _ _ _ _).trans ((besideRegs_host.ptpAll _ _ _ _).trans (Dev.stepWall_host _ _))
  refine ⟨?_, ?_, Dev.raise_block_bit _ _ _ _ (pos := 10) (by decide) (by decide)⟩
  · rw [hhost]
    exact (Int.sub_eq_add_neg).symm
  · rw [hhost]

/-- A slew stays within its limit. -/
theorem slew_le (n : Nat) (x : Int) : (max (-((n : Int) * 100 / 10000)) (min ((n : Int) * 100 / 10000) x)).natAbs ≤ n * 100 / 10000 := by
  omega

theorem Dev.slewed_registers (hstate : d.wallState = 2) (x : Int) : let e := (d.exchangeNoted off).moveWall (max (-d.slewLimit) (min d.slewLimit x))
    e.wallState = 2 ∧ e.host.lastSync = d.now ∧ (e.host.wallBase - d.host.wallBase).natAbs ≤ (d.now - d.host.lastSync) * 100 / 10000 := by
  intro e
  have hhost : e.host = { (d.exchangeNoted off).host with wallBase := (d.exchangeNoted off).host.wallBase + max (-d.slewLimit) (min d.slewLimit x) } := rfl
  have hwall : e.wallState = (d.exchangeNoted off).wallState := rfl
  rw [hwall, hhost, Dev.wallState_noted, Dev.exchangeNoted_host]
  refine ⟨hstate, rfl, ?_⟩
  simp only
  rw [Int.add_comm, Int.add_sub_cancel]
  exact slew_le (d.now - d.host.lastSync) x

/-! ## Timeouts -/

/-- The port once it hears no master. -/
def Dev.masterLost (d : Dev) (p : Nat) : Dev := (d.setHp p { d.hp p with master := none }).ptpSelect

theorem Dev.ptpTimeout_held (h : (d.masterLost p).ptpActive ≠ none ∨ ((d.masterLost p).wallState ≠ 1 ∧ (d.masterLost p).wallState ≠ 2)) :
    d.ptpTimeout p = d.masterLost p := if_pos (h.imp_left Option.ne_none_iff_isSome.1)

theorem Dev.ptpTimeout_lost (hnone : (d.masterLost p).ptpActive = none) (h : (d.masterLost p).wallState = 1 ∨ (d.masterLost p).wallState = 2) :
    d.ptpTimeout p =
      let e := d.masterLost p
      if e.rd Reg.HOST_PTP_STEPS (hostInst 4) = 0 then e.ptpAll Reg.HOST_PTP_WALL_STATE 0
      else (({ e with host := { e.host with holdAt := e.now } } : Dev).ptpAll Reg.HOST_PTP_WALL_STATE 3).raise (pgPtp p) 0x0B0B 9 Sev.warn 0 := by
  refine if_neg ?_
  rintro (hsome | ⟨h1, h2⟩)
  · exact absurd hnone (Option.ne_none_iff_isSome.2 hsome)
  · exact h.elim h1 h2

end

/-- Settles O51: the cases of a frame, of key agreement, of a port's link and of wall time. -/
theorem hostPortsAndTime : Obligations.HostPortsAndTime := by
  constructor
  · intro s q p i d
    refine ⟨fun f => ⟨fun h => congrArg s.ends (Dev.frameReceive_off h), fun h => ?frames⟩, fun f h => congrArg s.ends (Dev.mkaFrame_off h),
      fun an h hcak => ?sak, rfl, fun ip => ⟨fun h => congrArg s.ends (if_neg ?arpOff), fun h hip hne => congrArg s.ends (if_pos ⟨h, ?arpOn, hip⟩)⟩,
      fun ip adv hip => ?solicit, fun v6 b => ⟨fun h => congrArg s.ends (Dev.echoRequest_off h),
        fun h hlen hfew => congrArg s.ends (Dev.echoRequest_on h hlen hfew)⟩, fun h => congrArg s.ends (if_pos h), fun h0 h3 => ?up,
      fun h => congrArg s.ends (if_pos h), fun h => ?down, fun link => ⟨fun h => congrArg s.ends (if_neg (Bool.eq_false_iff.1 h)),
        fun h => congrArg s.ends (if_pos h)⟩⟩
    case frames =>
      obtain ⟨hroom, hfcs, hlen, hcontrol⟩ := Dev.frameReceive_counted (f := f) h
      refine ⟨fun h1 => congrArg s.ends (hroom h1), fun h1 h2 => congrArg s.ends (hfcs h1 h2), fun h1 h2 h3 => congrArg s.ends (hlen h1 h2 h3),
        fun h1 h2 h3 => ?_, fun h1 h2 h3 h4 h5 h6 => ?_⟩
      · obtain ⟨htag, hpause, heapol⟩ := hcontrol h1 h2 h3
        exact ⟨fun h4 => congrArg s.ends (htag h4), fun h4 h5 => congrArg s.ends (hpause h4 h5), fun h4 h5 h6 => congrArg s.ends (heapol h4 h5 h6)⟩
      · have hdata : d.hostTakes p = true ∧ f.room = true ∧ f.fcsOk = true ∧ f.len.toNat ≤ 9216 ∧ f.tagged = false ∧ f.pause = false ∧
            f.eapol = false := ⟨h, h1, h2, h3, h4, h5, h6⟩
        intro late e served
        refine ⟨fun hsec hicv => congrArg s.ends (Dev.frameReceive_forged hdata hsec hicv), fun hdrop => congrArg s.ends
          (Dev.frameReceive_unprotected hdata hdrop), fun hsec hicv hassoc => ?_, fun hsec hreq hlost => ?_⟩
        · have hframe := congrArg s.ends (Dev.frameReceive_protected hdata hsec hicv hassoc)
          have hlate : late ↔ ¬ d.pnOk p f.pn.toNat = false := by simp [late, Dev.pnOk, i]
          exact ⟨fun h => hframe.trans (congrArg s.ends (if_pos (Decidable.of_not_not (mt hlate.2 h)))),
            fun h hserved => hframe.trans (congrArg s.ends ((if_neg (hlate.1 h)).trans (if_pos hserved))),
            fun h hserved => hframe.trans (congrArg s.ends ((if_neg (hlate.1 h)).trans (if_neg hserved)))⟩
        · have hframe := congrArg s.ends (Dev.frameReceive_plain hdata hsec hreq hlost)
          exact ⟨fun hserved => hframe.trans (congrArg s.ends (if_pos hserved)), fun hserved => hframe.trans (congrArg s.ends (if_neg hserved))⟩
    case sak =>
      obtain ⟨hsec, htx, hrx, hlo, hhi⟩ := d.sakInstalled_registers p an.isLt
      obtain ⟨hout, hpn⟩ := d.sakInstalled_beside p an.toNat
      have hexec := congrArg s.ends (Dev.mkaFrame_sak (an := an) h hcak)
      generalize d.sakInstalled p an.toNat = e at hsec htx hrx hlo hhi hout hpn hexec
      split at hexec
      · exact ⟨s.after e, ends_next hexec, s.after_mem _, s.after_pending _, hout, hsec, htx, hrx, hlo, hhi, hpn⟩
      · have hrd (g : Field) (hg : inBody g = true) : (e.raise (pgHostSec p) 0x0B03 8 Sev.info an.toNat).rd g i = e.rd g i :=
          Dev.rd_raise_body _ _ _ _ _ _ _ hg
        have hout' := (Dev.raise_out e (pgHostSec p) 0x0B03 8 Sev.info an.toNat).trans hout
        have hpn' := (congrArg HPort.rxPn ((besideRegs_hp p).raise e (pgHostSec p) 0x0B03 8 Sev.info an.toNat)).trans hpn
        have hsec' : (e.raise (pgHostSec p) 0x0B03 8 Sev.info an.toNat).secured p = true := by
          unfold Dev.secured
          rw [hrd _ (by decide)]
          exact hsec
        have htx' := (hrd Reg.HOST_SEC_TX_AN (by decide)).trans htx
        have hrx' := (hrd Reg.HOST_SEC_RX_AN (by decide)).trans hrx
        have hlo' := (hrd Reg.HOST_SEC_TX_PN_LO (by decide)).trans hlo
        have hhi' := (hrd Reg.HOST_SEC_TX_PN_HI (by decide)).trans hhi
        generalize e.raise (pgHostSec p) 0x0B03 8 Sev.info an.toNat = x at hexec hout' hpn' hsec' htx' hrx' hlo' hhi'
        exact ⟨s.after x, ends_next hexec, s.after_mem _, s.after_pending _, hout', hsec', htx', hrx', hlo', hhi', hpn'⟩
    case arpOff =>
      rintro ⟨hcarries, -, heq⟩
      exact h.elim (fun h => absurd (hcarries.symm.trans h) (by decide)) fun hne => hne heq
    case arpOn => exact fun h0 => hne (BitVec.eq_of_toNat_eq h0)
    case solicit =>
      have hsol (adv : Bool) (h : d.carries p = true) : exec (.neighborSolicitation q ip adv) s = s.ends _ :=
        congrArg s.ends ((congrArg (fun n => d.neighborSol p n adv) hip).trans (Dev.neighborSol_link h))
      refine ⟨fun h => congrArg s.ends (if_pos (congrArg (! ·) h)), fun h hdad => (hsol adv h).trans (congrArg s.ends (if_pos hdad)),
        fun h hdad hused => (hsol false h).trans (congrArg s.ends ((if_neg (Bool.eq_false_iff.1 hdad)).trans (if_pos hused)))⟩
    case up =>
      have hregs := Dev.hostLinkUp_registers q.isLt h0 h3
      have hexec : exec (.hostLinkUp q) s = s.ends (d.hostLinkUp p) := rfl
      generalize d.hostLinkUp p = e at hregs hexec
      exact ⟨s.after e, ends_next hexec, s.after_mem _, s.after_pending _, hregs⟩
    case down =>
      have hregs := Dev.hostLinkDown_registers q.isLt h
      have hexec : exec (.hostLinkDown q) s = s.ends (d.hostLinkDown p) := rfl
      generalize d.hostLinkDown p = e at hregs hexec
      exact ⟨s.after e, ends_next hexec, s.after_mem _, s.after_pending _, hregs⟩
  · intro s q p d
    refine ⟨fun a => ⟨fun h => congrArg s.ends (Dev.ptpAnnounce_off ?deaf), fun hcontrol htakes hsec hdomain hsteps hmaster => ?announce⟩,
      fun off => ?exchange, ⟨fun h => congrArg s.ends (Dev.ptpTimeout_held h), fun hnone h => ⟨fun hsteps =>
        congrArg s.ends ((Dev.ptpTimeout_lost hnone h).trans (if_pos hsteps)), fun hsteps =>
        congrArg s.ends ((Dev.ptpTimeout_lost hnone h).trans (if_neg hsteps))⟩⟩⟩
    case deaf =>
      rintro ⟨hcontrol, htakes, hsec, hdomain, hsteps⟩
      rcases h with h | h | h | h | h
      · exact absurd (hcontrol.symm.trans h) (by decide)
      · exact absurd (htakes.symm.trans h) (by decide)
      · exact absurd (hsec.symm.trans h) (by decide)
      · exact h hdomain
      · exact Nat.not_le_of_lt hsteps h
    case announce =>
      have hregs := Dev.ptpAnnounce_registers q.isLt ⟨hcontrol, htakes, hsec, hdomain, hsteps⟩ hmaster
      have hexec : exec (.ptpAnnounce q a) s = s.ends (d.ptpAnnounce p a) := rfl
      generalize d.ptpAnnounce p a = e at hregs hexec
      exact ⟨s.after e, ends_next hexec, s.after_mem _, s.after_pending _, hregs⟩
    case exchange =>
      intro o
      refine ⟨fun h => congrArg s.ends (if_pos h), fun h => ?_⟩
      have hexec := congrArg s.ends (Dev.ptpExchange_eq (off := o) h)
      refine ⟨fun hstate hsteady => ?_, fun hstate hfar htwo => ?_, fun hstate hnear => ?_⟩
      · rw [if_pos hstate, if_pos hsteady] at hexec
        obtain ⟨hwall, hbase, hevent, hback⟩ := (d.exchangeNoted o).wallLocked_registers p o
        rw [Dev.exchangeNoted_host] at hbase
        generalize (d.exchangeNoted o).wallLocked p o = e at hexec hwall hbase hevent hback
        obtain ⟨hwallV, hhostV, hsecV, heventV⟩ := e.wallView_keeps p
        rw [← hwallV] at hwall
        rw [← hhostV] at hbase
        rw [← heventV] at hevent
        rw [← hsecV] at hback
        generalize e.wallView = x at hexec hwall hbase hevent hback
        exact ⟨s.after x, ends_next hexec, s.after_mem _, s.after_pending _, hwall, hbase, hevent, hback⟩
      · have hbeyond : 3 ≤ d.beyondNow o := by
          unfold Dev.beyondNow
          rw [if_neg (Nat.not_le_of_lt hfar)]
          exact Nat.succ_le_succ htwo
        rw [if_neg (by rw [hstate]; decide), if_pos hstate, if_pos hbeyond] at hexec
        obtain ⟨hbase, hzero, hevent⟩ := (d.exchangeNoted o).wallStepped_registers p o
        rw [Dev.exchangeNoted_host] at hbase
        generalize (d.exchangeNoted o).wallStepped p o = e at hexec hbase hzero hevent
        obtain ⟨-, hhostV, -, heventV⟩ := e.wallView_keeps p
        rw [← hhostV] at hbase hzero
        rw [← heventV] at hevent
        generalize e.wallView = x at hexec hbase hzero hevent
        exact ⟨s.after x, ends_next hexec, s.after_mem _, s.after_pending _, hbase, hzero, hevent⟩
      · have hbeyond : ¬ 3 ≤ d.beyondNow o := by
          unfold Dev.beyondNow
          rw [if_pos hnear]
          decide
        rw [if_neg (by rw [hstate]; decide), if_pos hstate, if_neg hbeyond] at hexec
        obtain ⟨hwall, hsync, hslew⟩ := Dev.slewed_registers (off := o) hstate (-(medianOf ((o :: d.host.offsets).take 5)))
        generalize (d.exchangeNoted o).moveWall _ = e at hexec hwall hsync hslew
        obtain ⟨hwallV, hhostV, -, -⟩ := e.wallView_keeps p
        rw [← hwallV] at hwall
        rw [← hhostV] at hsync hslew
        generalize e.wallView = x at hexec hwall hsync hslew
        exact ⟨s.after x, ends_next hexec, s.after_mem _, s.after_pending _, hwall, hsync, hslew⟩

end Sys2Proof.Machine

/-! Sessions of the host transport (O52). -/

namespace Sys2Proof.Machine

/-! ## A duplicate that uses the last packet number before a new key is asked for -/

/-- The segment of an empty DATA message whose number lies far behind what the session expects. -/
def lateSegment : Segment :=
  { magic := 0x4E584854, ver := 1, isFirst := true, isLast := true, len := 0, session := 1, seq := 0, ack := 0, sack := 0, channel := 0, window := 1,
    reserved := 0, payload := [], crc := 0 }

/-- It carries its CRC. -/
def lateData : Segment := { lateSegment with crc := BitVec.ofNat 32 (crc32 (segCovered 3 lateSegment)) }

def lateSession : Sess := { id := 1, port := 4, peer := ⟨0, 0, 0⟩, nonce := [], next := 0, rcv := 1, lastRx := 0, lastTx := 0, window := 1, rto := 0 }

/-- Port H4 is up and secured, and its last packet number is the one before that at which R415 asks for a new SAK. -/
def lastNumber : State :=
  { mem := [], pending := [], dev := (((({ host := { sessions := [lateSession] } } : Dev).wr Reg.HOST_MAC_STATE (hostInst 4) 3).wr
      Reg.HOST_SEC_MKA_STATE (hostInst 4) 3).wr Reg.HOST_SEC_TX_PN_LO (hostInst 4) 0xFFFFFFFF).wr Reg.HOST_SEC_TX_PN_HI (hostInst 4) 0xBFFFFFFF }

theorem lastNumber_carries : lastNumber.dev.start.carries 4 = true := by decide +kernel

theorem lateData_sound : segSound 3 lateData = true := by decide +kernel

/-- The duplicate is answered with an ACK, and the host is asked for a SAK. -/
theorem lastNumber_out : (lastNumber.dev.start.hostData 4 ⟨0, 0, 0⟩ lateData).out.length = 2 := by decide +kernel

/-- Refutes O52: the ACK of a repeated segment is not the only output where it is the protected frame at which R415 asks for a new SAK. -/
theorem not_sessions : ¬ Obligations.Sessions := by
  intro h
  obtain ⟨-, -, hduplicate, -⟩ := h lastNumber 4 ⟨0, 0, 0⟩ lateData
  obtain ⟨-, hrepeated, -⟩ := hduplicate lateSession rfl rfl rfl lastNumber_carries rfl rfl rfl rfl rfl rfl
  obtain ⟨t, hexec, -, -, -, hout, -⟩ := hrepeated lateData_sound (by decide)
  have hends : exec (.hostData 4 ⟨0, 0, 0⟩ lateData) lastNumber = lastNumber.ends (lastNumber.dev.start.hostData 4 ⟨0, 0, 0⟩ lateData) := rfl
  have hlength := lastNumber_out
  generalize lastNumber.dev.start.hostData 4 ⟨0, 0, 0⟩ lateData = e at hends hlength
  obtain rfl : lastNumber.after e = t := Host.Outcome.next.inj ((ends_next hends).symm.trans hexec)
  exact absurd (hlength.symm.trans hout) (by decide)

end Sys2Proof.Machine

/-! Channels and their messages (O53). -/

namespace Sys2Proof.Machine

/-! ## Session-control messages -/

section
variable {d e : Dev} {id : Nat} {x : Sess} {m : List Byte}

theorem Dev.chanCreate_none (h : d.takeControl id 1 = none) : d.chanCreate id = d := by
  unfold Dev.chanCreate
  rw [h]

theorem Dev.chanCreate_refused {code : Nat} (h : d.takeControl id 1 = some (x, m, e))
    (hcode : e.createRefusal x.port (fld m 4 4) (fld m 8 8) = some code) : d.chanCreate id = e.refuseChan x code (fld m 2 2) (fld m 4 4) := by
  unfold Dev.chanCreate
  simp only [h, hcode]

/-- A channel of a session joins the open ones, under its new handle. -/
def Dev.chanOpened (e : Dev) (id : Nat) (x : Sess) (m : List Byte) : Dev :=
  let r := e.newHandle (kindOf (fld m 4 4))
  { r.2 with host := { r.2.host with chans := r.2.host.chans ++ [({ handle := r.1, sess := id, port := x.port, param := fld m 8 8 } : Chan)] } }

theorem Dev.chanCreate_granted (h : d.takeControl id 1 = some (x, m, e)) (hcode : e.createRefusal x.port (fld m 4 4) (fld m 8 8) = none) :
    d.chanCreate id = ((e.chanOpened id x m).wr Reg.HOST_XPORT_CHANNELS_OPEN (hostInst 4) (e.chanOpened id x m).host.chans.length).control id 2 0
      (fld m 2 2) (e.newHandle (kindOf (fld m 4 4))).1 := by
  unfold Dev.chanCreate
  simp only [h, hcode] <;> rfl

theorem Dev.chanDestroy_none (h : d.takeControl id 3 = none) : d.chanDestroy id = d := by
  unfold Dev.chanDestroy
  rw [h]

theorem Dev.chanDestroy_eq (h : d.takeControl id 3 = some (x, m, e)) : d.chanDestroy id =
    if (e.host.chans.any fun c => c.handle == fld m 4 4 && c.sess == id) then e.dropChan (fld m 4 4) 0 (fld m 2 2) true
    else e.refuseChan x 1 (fld m 2 2) (fld m 4 4) := by
  unfold Dev.chanDestroy
  simp only [h]

end

/-! ## Messages of a REG channel -/

section
variable {d e : Dev} {h : Nat} {c : Chan} {m : List Byte} {mem : Mem} {us : List Nat}

theorem Dev.regMessage_none (hm : d.takeMessage h Kd.reg = none) : d.regMessage h us mem = d := by
  unfold Dev.regMessage
  rw [hm]

theorem Dev.regMessage_bad (hm : d.takeMessage h Kd.reg = some (c, m, e)) (hbad : regRequests m = none) :
    d.regMessage h us mem = e.queueMsg c.sess h (regReply m []) := by
  unfold Dev.regMessage
  simp only [hm, hbad]

/-- One request of a message, and its entry in the reply. -/
def regStep (mem : Mem) (us : List Nat) (c : Chan) (m : List Byte) (a : List (Nat × Nat) × Dev) (k : Nat) : List (Nat × Nat) × Dev :=
  let r := a.2.regRequest mem (bit c.param 0) c.sess (us.contains k) ((m.drop (8 + 12 * k)).take 12)
  (a.1 ++ [r.1], r.2)

theorem Dev.regMessage_runs {n : Nat} (hm : d.takeMessage h Kd.reg = some (c, m, e)) (hn : regRequests m = some n) : d.regMessage h us mem =
    let x := (List.range n).foldl (regStep mem us c m) ([], e)
    x.2.queueMsg c.sess h (regReply m x.1) := by
  unfold Dev.regMessage
  simp only [hm, hn] <;> rfl

/-! ## Input data -/

variable {err : Bool}

theorem Dev.hostIn_none (hm : d.takeMessage h Kd.hostIn = none) : d.hostIn h err = d := by
  unfold Dev.hostIn
  rw [hm]

theorem Dev.hostIn_some (hm : d.takeMessage h Kd.hostIn = some (c, m, e)) : d.hostIn h err =
    if isStore c.param then e.inStore c m err else e.inTensor c m err := by
  unfold Dev.hostIn
  simp only [hm]

theorem Dev.inStore_bad (hbad : headOk true m true = false) : d.inStore c m err = d.inStatus c (fld m 8 8) 4 (fld m 0x10 4) := by
  unfold Dev.inStore
  simp only [hbad]

theorem Dev.inStore_refused {code : Nat} (hok : headOk true m true = true) (hspan : d.storeSpan m = .error code) :
    d.inStore c m err = d.inStatus c (fld m 8 8) code (fld m 0x10 4) := by
  unfold Dev.inStore
  simp only [hok, hspan]

theorem Dev.inStore_stored {a : Nat} (hok : headOk true m true = true) (hspan : d.storeSpan m = .ok a) : d.inStore c m false =
    if bit (fld m 0 4) 0 then (d.poke a (m.drop 32)).inStatus c (fld m 8 8) 0 (fld m 0x10 4) else d.poke a (m.drop 32) := by
  unfold Dev.inStore
  simp only [hok, hspan, Dev.landed, Bool.false_eq_true, if_false]

theorem Dev.inStore_error {a : Nat} (hok : headOk true m true = true) (hspan : d.storeSpan m = .ok a) : d.inStore c m true =
    ((d.landed true (m.drop 32)).2.poke a (d.landed true (m.drop 32)).1).inStatus c (fld m 8 8) 5 (fld m 0x10 4) := by
  unfold Dev.inStore
  simp only [hok, hspan, if_true]

theorem Dev.inTensor_bad (hbad : headOk false m true = false ∨ d.pantryHome (c.param % 2 ^ 24) (fld m 8 8 % 2) = none) :
    d.inTensor c m err = d.inStatus c (fld m 8 8) 4 (fld m 0x10 4) := by
  unfold Dev.inTensor
  rcases hbad with h | h
  · simp only [h]
  · cases hok : headOk false m true <;> simp only [h]

/-- The ranges of a buffer with those of a message. -/
def InBuf.rangesWith (x : InBuf) (m : List Byte) : List (Nat × Nat) :=
  if fld m 0x14 4 = 0 then x.ranges else addRange (fld m 0x10 4) (fld m 0x10 4 + fld m 0x14 4) x.ranges

/-- A sound data message in TENSOR mode. -/
theorem Dev.inTensor_sound {home size : Nat} (hok : headOk false m true = true)
    (hhome : d.pantryHome (c.param % 2 ^ 24) (fld m 8 8 % 2) = some (home, size)) : d.inTensor c m false =
    let x := d.inBuf (c.param % 2 ^ 24) (fld m 8 8)
    let whole := decide (size = 0) || x.rangesWith m == [(0, size)]
    let f := (d.pokeStripe 4 (home + fld m 0x10 4) (m.drop 32)).setInBuf { x with ranges := x.rangesWith m, ended := bit (fld m 0 4) 0 && whole }
    if fld m 8 8 ≠ d.inputStep ∧ fld m 8 8 ≠ d.inputStep + 1 then d.inStatus c (fld m 8 8) 1 (fld m 0x10 4)
    else if x.ended then d.inStatus c (fld m 8 8) 3 (fld m 0x10 4)
    else if fld m 0x10 4 % 64 ≠ 0 ∨ size < fld m 0x10 4 + fld m 0x14 4 then d.inStatus c (fld m 8 8) 4 (fld m 0x10 4)
    else if bit (fld m 0 4) 0 = false then f else f.inStatus c (fld m 8 8) (if whole then 0 else 2) (fld m 0x10 4) := by
  unfold Dev.inTensor
  simp only [hok, hhome, Dev.landed, Bool.false_eq_true, if_false, Bool.not_eq_true'] <;> rfl

/-- The refusals by step and by end do not look at the store error. -/
theorem Dev.inTensor_refused {home size : Nat} (hok : headOk false m true = true)
    (hhome : d.pantryHome (c.param % 2 ^ 24) (fld m 8 8 % 2) = some (home, size)) :
    let x := d.inBuf (c.param % 2 ^ 24) (fld m 8 8)
    let current := fld m 8 8 = d.inputStep ∨ fld m 8 8 = d.inputStep + 1
    let bad := fld m 0x10 4 % 64 ≠ 0 ∨ size < fld m 0x10 4 + fld m 0x14 4
    (¬ current → d.inTensor c m err = d.inStatus c (fld m 8 8) 1 (fld m 0x10 4)) ∧
    (current → x.ended = true → d.inTensor c m err = d.inStatus c (fld m 8 8) 3 (fld m 0x10 4)) ∧
    (current → x.ended = false → bad → d.inTensor c m err = d.inStatus c (fld m 8 8) 4 (fld m 0x10 4)) := by
  intro x current bad
  have hstep : current → ¬ (fld m 8 8 ≠ d.inputStep ∧ fld m 8 8 ≠ d.inputStep + 1) := fun h hne => h.elim hne.1 hne.2
  unfold Dev.inTensor
  simp only [hok, hhome]
  refine ⟨fun h => if_pos (not_or.1 h), fun h hended => (if_neg (hstep h)).trans (if_pos hended),
    fun h hopen hbad => (if_neg (hstep h)).trans ((if_neg (Bool.eq_false_iff.1 hopen)).trans (if_pos hbad))⟩

/-! ## Outputs -/

theorem Dev.outRequest_none (hm : d.takeMessage h Kd.hostOut = none) : d.outRequest h mem = d := by
  unfold Dev.outRequest
  rw [hm]

theorem Dev.outRequest_answered {a : Nat} (hm : d.takeMessage h Kd.hostOut = some (c, m, e)) (hstore : isStore c.param = true)
    (hok : headOk true m false = true) (hspan : e.storeSpan m = .ok a) :
    d.outRequest h mem = e.queueMsg c.sess h (m ++ mem.bytes a (fld m 0x14 4)) := by
  unfold Dev.outRequest
  simp only [hm, hstore, hok, hspan, Bool.and_self]

theorem Dev.outRequest_dropped (hm : d.takeMessage h Kd.hostOut = some (c, m, e)) (hbad : isStore c.param = false ∨ headOk true m false = false) :
    d.outRequest h mem = e := by
  have hno : (isStore c.param && headOk true m false) = false := Bool.and_eq_false_iff.2 hbad
  unfold Dev.outRequest
  simp only [hm, hno]

theorem Dev.outSend_off (hoff : d.slackOpen = false ∨ d.chan h = none) : d.outSend h mem = d := by
  unfold Dev.outSend
  split
  · rfl
  · next c hc =>
    refine if_pos (Or.inr (Or.inr (congrArg (! ·) (hoff.resolve_right fun hnone => ?_))))
    rw [hc] at hnone
    exact Option.some_ne_none c hnone

theorem Dev.outSend_goes {x : OutBuf} {home size : Nat} (hc : d.chan h = some c) (hkind : kindOf h = Kd.hostOut) (hstore : isStore c.param = false)
    (hopen : d.slackOpen = true) (hx : (d.host.outputs.find? fun x => x.tensor == c.param % 2 ^ 24 && x.upTo.isNone) = some x)
    (hhome : d.pantryHome (c.param % 2 ^ 24) (x.step % 3) = some (home, size)) : d.outSend h mem =
    let n := min 65536 (size - x.off)
    let e := d.queueMsg c.sess h (natLe 4 (ofB (decide (size ≤ x.off + n))) ++ natLe 4 0 ++ natLe 8 x.step ++ natLe 4 x.off ++
      natLe 4 n ++ natLe 8 0 ++ d.readStripe mem 4 (home + x.off) n)
    let x' : OutBuf := { x with off := x.off + n, upTo := if size ≤ x.off + n then some (((e.chan h).map (·.segs)).getD 0) else none }
    { e with host := { e.host with outputs := e.host.outputs.map fun y => if y = x then x' else y } } := by
  have hgo : ¬ (kindOf h ≠ Kd.hostOut ∨ isStore c.param = true ∨ (! d.slackOpen) = true) := by simp [hkind, hstore, hopen]
  unfold Dev.outSend
  simp only [hc, if_neg hgo, hx, hhome, decide_eq_true_eq]

end

/-- Settles O53: the cases of a session-control message, a REG message, input data and an output. -/
theorem channelCommands : Obligations.ChannelCommands := by
  intro s d
  refine ⟨fun id => ⟨fun h => congrArg s.ends (Dev.chanCreate_none h), fun h => congrArg s.ends (Dev.chanDestroy_none h),
    fun x m e h => ⟨fun code hcode => congrArg s.ends (Dev.chanCreate_refused h hcode), fun hcode => congrArg s.ends (Dev.chanCreate_granted h hcode)⟩,
    fun x m e h => ⟨fun hany => congrArg s.ends ((Dev.chanDestroy_eq h).trans (if_pos hany)),
      fun hany => congrArg s.ends ((Dev.chanDestroy_eq h).trans (if_neg (Bool.eq_false_iff.1 hany)))⟩⟩,
    fun h => ⟨fun us => ⟨fun hm => congrArg s.ends (Dev.regMessage_none hm), fun c m e hm => ⟨fun hbad => congrArg s.ends (Dev.regMessage_bad hm hbad),
      fun n hn => congrArg s.ends (Dev.regMessage_runs hm hn)⟩⟩, fun err => ⟨fun hm => ?_, fun c m e hm => ?input⟩,
      fun hm => congrArg s.ends (Dev.outRequest_none hm), fun c m e hm => ⟨fun a hstore hok hspan =>
        congrArg s.ends (Dev.outRequest_answered hm hstore hok hspan), fun hbad => congrArg s.ends (Dev.outRequest_dropped hm hbad)⟩,
      fun hoff => congrArg s.ends (Dev.outSend_off hoff), fun c x home size hc hkind hstore hopen hx hhome =>
        congrArg s.ends (Dev.outSend_goes hc hkind hstore hopen hx hhome)⟩⟩
  · exact (congrArg s.endsStore (Dev.hostIn_none hm)).trans (endsStore_ends _ _ rfl)
  case input =>
    intro step off n fin status
    have hstore (err : Bool) (h' : isStore c.param = true) : exec (.hostInData h err) s = s.endsStore (e.inStore c m err) :=
      congrArg s.endsStore ((Dev.hostIn_some hm).trans (if_pos h'))
    have htensor (err : Bool) (h' : isStore c.param = false) : exec (.hostInData h err) s = s.endsStore (e.inTensor c m err) :=
      congrArg s.endsStore ((Dev.hostIn_some hm).trans (if_neg (Bool.eq_false_iff.1 h')))
    refine ⟨fun hbad => ?_, fun hst hok => ⟨fun code hspan => (hstore err hst).trans (congrArg s.endsStore (Dev.inStore_refused hok hspan)),
      fun a hspan => ((hstore false hst).trans (congrArg s.endsStore (Dev.inStore_stored hok hspan))).trans (apply_ite s.endsStore _ _ _),
      fun a hspan => (hstore true hst).trans (congrArg s.endsStore (Dev.inStore_error hok hspan))⟩, fun hst hok => ⟨fun hnone =>
      (htensor err hst).trans (congrArg s.endsStore (Dev.inTensor_bad (Or.inr hnone))), fun home size hhome => ?_⟩⟩
    · by_cases hst : isStore c.param = true
      · rw [hst] at hbad
        exact (hstore err hst).trans (congrArg s.endsStore (Dev.inStore_bad hbad))
      · rw [Bool.eq_false_iff.2 hst] at hbad
        exact (htensor err (Bool.eq_false_iff.2 hst)).trans (congrArg s.endsStore (Dev.inTensor_bad (Or.inl hbad)))
    · intro x now' bad rs whole f
      obtain ⟨hstep, hended, hrange⟩ := Dev.inTensor_refused (err := err) hok hhome
      refine ⟨fun h => (htensor err hst).trans (congrArg s.endsStore (hstep h)), fun h h' => (htensor err hst).trans (congrArg s.endsStore (hended h h')),
        fun h h' h'' => (htensor err hst).trans (congrArg s.endsStore (hrange h h' h'')), fun h h' h'' => (htensor false hst).trans ?_⟩
      have hsound := Dev.inTensor_sound hok hhome
      simp only at hsound
      rw [if_neg (fun hne => h.elim hne.1 hne.2), if_neg (Bool.eq_false_iff.1 h'), if_neg h''] at hsound
      refine (congrArg s.endsStore hsound).trans ((apply_ite s.endsStore _ _ _).trans ?_)
      cases hfin : fin
      · exact if_pos hfin
      · exact if_neg (Bool.not_eq_false _ ▸ hfin)

end Sys2Proof.Machine

/-! Clocks, rails, sources and temperatures (O54). -/

namespace Sys2Proof.Machine

/-! ## What a forced shelf state and the readings of rails leave alone -/

/-- A part of the device that registers, event queues, the step, the shelf states, the clocks and the rails do not change. -/
structure BesidePower {β : Type} (p : Dev → β) : Prop extends BesideRegs p where
  step : ∀ (d : Dev) (x : StepSt), p { d with step := x } = p d
  shelf : ∀ (d : Dev) (x : SMap ShelfSt), p { d with power := { d.power with shelf := x } } = p d
  clocks : ∀ (d : Dev) (x : SMap ClockSt), p { d with power := { d.power with clocks := x } } = p d
  rails : ∀ (d : Dev) (x : SMap RailSt), p { d with power := { d.power with rails := x } } = p d

theorem BesideRegs.shelveRegion {β : Type} {p : Dev → β} (hp : BesideRegs p) (d : Dev) (r : Nat) : p (d.shelveRegion r) = p d :=
  (hp.set _ _ _ _ _).trans ((hp.set _ _ _ _ _).trans ((hp.set _ _ _ _ _).trans (hp.set _ _ _ _ _)))

namespace BesidePower

variable {β : Type} {p : Dev → β} (hp : BesidePower p)
include hp

theorem wr (d : Dev) (f : Field) (inst v i : Nat) : p (d.wr f inst v i) = p d := hp.set d f _ i v

theorem voteFail (d : Dev) : p d.voteFail = p d := hp.voteFor hp.step d 3 true

theorem setShelf (d : Dev) (die : Nat) (x : ShelfSt) : p (d.setShelf die x) = p d := hp.shelf d _

theorem setClock (d : Dev) (r : Nat) (x : ClockSt) : p (d.setClock r x) = p d := hp.clocks d _

theorem setRail (d : Dev) (k : Nat) (x : RailSt) : p (d.setRail k x) = p d := hp.rails d _

theorem shelve (d : Dev) (die cause : Nat) : p (d.shelve die cause) = p d := by
  unfold Dev.shelve
  simp only [apply_ite p, hp.setShelf, hp.raise, hp.voteFail, foldl_keeps p _ hp.toBesideRegs.shelveRegion, hp.wr, ite_self]

theorem unshelve (d : Dev) (die cause : Nat) : p (d.unshelve die cause) = p d := by
  unfold Dev.unshelve
  simp only [apply_ite p, hp.setShelf, ite_self]

theorem shelfAt (d : Dev) (die cause : Nat) (on : Bool) : p (d.shelfAt die cause on) = p d := by
  unfold Dev.shelfAt
  simp only [apply_ite p, hp.shelve, hp.unshelve, ite_self]

theorem subst (d : Dev) (row : Nat) (on : Bool) : p (d.subst row on) = p d := by
  unfold Dev.subst
  simp only [apply_ite p, Dev.count, Dev.p, hp.wr, ite_self]

theorem sourceFailed (d : Dev) (model : Bool) : p (d.sourceFailed model) = p d := by
  unfold Dev.sourceFailed
  extract_lets f d1
  have h1 : p d1 = p d := (hp.raise _ _ _ _ _ _).trans (hp.wr _ _ _ _ _)
  simp only [apply_ite p, foldl_keeps p _ (fun e die => hp.shelve e die 7), h1, ite_self]

theorem sourcesBack (d : Dev) : p d.sourcesBack = p d := by
  unfold Dev.sourcesBack
  simp only [apply_ite p, foldl_keeps p _ (fun e die => hp.unshelve e die 7), ite_self]

theorem railRead (d : Dev) (die r : Nat) (x : Option (Nat × Nat)) : p (d.railRead die r x) = p d := by
  unfold Dev.railRead
  extract_lets k s lim t d1 s1 v i above failed d2 d3 d4
  have h1 : p d1 = p d := by
    cases x <;> simp only [d1, apply_ite p, hp.setRail, ite_self]
  have h4 : p d4 = p d := by simp only [d4, d3, d2, hp.wr, hp.setRail, h1]
  simp only [apply_ite p, hp.raise, hp.shelve, h4, ite_self]

theorem sensorEvent (d : Dev) (was now' : Bool) (detail : Nat) : p (d.sensorEvent was now' detail) = p d := by
  unfold Dev.sensorEvent
  simp only [apply_ite p, hp.raise, Dev.count, hp.wr, ite_self]

theorem thermalView (d : Dev) (die : Nat) : p (d.thermalView die) = p d := by
  unfold Dev.thermalView
  simp only [hp.wr]

theorem throttle (d : Dev) (hbm : Bool) (r : Nat) : p (d.throttle hbm r) = p d := by
  unfold Dev.throttle
  extract_lets die x t hs cap falling rising d1 d2 step
  have h2 : p d2 = p d := by simp only [d2, d1, apply_ite p, hp.raise, hp.setClock, ite_self]
  have hstep (e : Dev) (c : Nat) : p (step e c) = p e := by simp only [step, hp.setClock, hp.wr]
  simp only [apply_ite p, hstep, h2, ite_self]

end BesidePower

/-- The units, the time and the fault map. -/
theorem besidePower_units : BesidePower fun d : Dev => (d.units, d.now, d.faults) :=
  ⟨⟨fun _ _ _ _ _ => rfl, fun _ _ => rfl⟩, fun _ _ => rfl, fun _ _ => rfl, fun _ _ => rfl, fun _ _ => rfl⟩

/-- What the sensors of a region say, and what is out. -/
theorem besidePower_regionTemp (r : Nat) : BesidePower fun d : Dev => (d.regionTemp r, d.faults) :=
  ⟨⟨fun _ _ _ _ _ => rfl, fun _ _ => rfl⟩, fun _ _ => rfl, fun _ _ => rfl, fun _ _ => rfl, fun _ _ => rfl⟩

/-- What the sensors of the stacks say, what is out, and which stacks refresh themselves. -/
theorem besidePower_stacks : BesidePower fun d : Dev => (d.power.hbmTemps, d.faults, d.power.selfRefresh, d.now) :=
  ⟨⟨fun _ _ _ _ _ => rfl, fun _ _ => rfl⟩, fun _ _ => rfl, fun _ _ => rfl, fun _ _ => rfl, fun _ _ => rfl⟩

/-- What is kept of the package's power and of its calibration. -/
theorem besidePower_readings : BesidePower fun d : Dev => (d.power.readings, d.power.sampledAt, d.power.calHour) :=
  ⟨⟨fun _ _ _ _ _ => rfl, fun _ _ => rfl⟩, fun _ _ => rfl, fun _ _ => rfl, fun _ _ => rfl, fun _ _ => rfl⟩

/-! ## The registers of a forced shelf state -/

/-- A register that a region in the shelf state keeps. -/
def offRegion (g : Field) : Bool :=
  fieldsApart Reg.RCLOCK_OP g && fieldsApart Reg.RCLOCK_TARGET g && fieldsApart Reg.RCLOCK_RAMPING g && fieldsApart Reg.RCLOCK_SHELF g

/-- A register outside the step record that a forced shelf state keeps. -/
def offShelf (g : Field) : Bool :=
  offRegion g && fieldsApart Reg.THERMAL_SHELF_FORCED g && fieldsApart Reg.THERMAL_CAUSE g && inBody g

theorem lt_of_mem_regionsOf {die r : Nat} (hdie : die ≤ 3072) (hr : r ∈ regionsOf die) : r < 4096 := by
  obtain ⟨k, hk, rfl⟩ := List.mem_map.1 hr
  have := List.mem_range.1 hk
  omega

theorem le_of_mem_allDies {die : Nat} (h : die ∈ allDies) : die ≤ 3072 := by
  obtain ⟨k, hk, rfl⟩ := List.mem_map.1 h
  have := List.mem_range.1 hk
  omega

section
variable (d : Dev) {die : Nat}

theorem Dev.rd_shelveRegion {g : Field} (hg : offRegion g = true) {r inst : Nat} (hr : r < 4096) (hi : inst < 4096) :
    (d.shelveRegion r).rd g inst = d.rd g inst := by
  obtain ⟨⟨⟨hop, htarget⟩, hramping⟩, hshelf⟩ := by simpa only [offRegion, Bool.and_eq_true] using hg
  unfold Dev.shelveRegion
  rw [Dev.rd_wr_fields _ _ hshelf hr hi, Dev.rd_wr_fields _ _ hramping hr hi, Dev.rd_wr_fields _ _ htarget hr hi, Dev.rd_wr_fields _ _ hop hr hi]

/-- The die's registers and its regions as a cause with that code forces them. -/
def Dev.shelfRegs (d : Dev) (die code : Nat) : Dev :=
  (regionsOf die).foldl Dev.shelveRegion ((d.wr Reg.THERMAL_SHELF_FORCED die 1).wr Reg.THERMAL_CAUSE die code)

theorem Dev.rd_shelfRegs {g : Field} (hdie : die ≤ 3072) (hg : offRegion g = true) (code : Nat) {inst : Nat} (hi : inst < 4096) :
    (d.shelfRegs die code).rd g inst = ((d.wr Reg.THERMAL_SHELF_FORCED die 1).wr Reg.THERMAL_CAUSE die code).rd g inst :=
  foldl_keeps_mem (fun e : Dev => e.rd g inst) _ _ (fun e _ hr => e.rd_shelveRegion hg (lt_of_mem_regionsOf hdie hr) hi) _

theorem Dev.rd_shelfRegs_off {g : Field} (hdie : die ≤ 3072) (hg : offShelf g = true) (code : Nat) {inst : Nat} (hi : inst < 4096) :
    (d.shelfRegs die code).rd g inst = d.rd g inst := by
  obtain ⟨⟨⟨hregion, hforced⟩, hcause⟩, -⟩ := by simpa only [offShelf, Bool.and_eq_true] using hg
  have hi' : die < 4096 := by omega
  refine (d.rd_shelfRegs hdie hregion code hi).trans ?_
  rw [Dev.rd_wr_fields _ _ hcause hi' hi, Dev.rd_wr_fields _ _ hforced hi' hi]

/-- The die with one more cause. -/
def Dev.shelfCause (d : Dev) (die cause : Nat) : Dev :=
  let x := d.shelfOf die
  d.setShelf die { x with causes := if x.causes.contains cause then x.causes else x.causes ++ [cause], release := false }

theorem Dev.shelve_again (cause : Nat) (h : d.rd Reg.THERMAL_SHELF_FORCED die = 1) : d.shelve die cause = d.shelfCause die cause := if_pos h

theorem Dev.shelve_first (cause : Nat) (h : d.rd Reg.THERMAL_SHELF_FORCED die ≠ 1) : d.shelve die cause =
    ((d.shelfCause die cause).shelfRegs die (min 7 cause)).voteFail.raise (pgThermal die) 0x0C0D 9 Sev.fatal (min 7 cause + 8 * (die / 1024)) :=
  if_neg h

theorem Dev.rd_shelve {g : Field} (hdie : die ≤ 3072) (hg : offShelf g = true) (cause : Nat) {inst : Nat} (hi : inst < 4096)
    (hpg : g.pg inst ≠ pageNum 8 0 2) : (d.shelve die cause).rd g inst = d.rd g inst := by
  have hregs := hg
  obtain ⟨-, hbody⟩ := by simpa only [offShelf, Bool.and_eq_true] using hg
  by_cases h : d.rd Reg.THERMAL_SHELF_FORCED die = 1
  · rw [d.shelve_again cause h]
    rfl
  · rw [d.shelve_first cause h]
    refine (Dev.rd_raise_body _ _ _ _ _ _ _ hbody).trans ((Dev.rd_voteFor _ _ _ _ (of_decide_eq_true hbody).2 hpg).trans ?_)
    exact Dev.rd_shelfRegs_off (d.shelfCause die cause) hdie hregs _ hi

/-- A register of the die's page that a forced shelf state sets. -/
theorem Dev.rd_shelve_first (cause : Nat) (hdie : die ≤ 3072) (h : d.rd Reg.THERMAL_SHELF_FORCED die ≠ 1) {g : Field} (hregion : offRegion g = true)
    (hg : inBody g = true) (hpg : g.pg die ≠ pageNum 8 0 2) : (d.shelve die cause).rd g die =
      (((d.shelfCause die cause).wr Reg.THERMAL_SHELF_FORCED die 1).wr Reg.THERMAL_CAUSE die (min 7 cause)).rd g die := by
  rw [d.shelve_first cause h]
  refine (Dev.rd_raise_body _ _ _ _ _ _ _ hg).trans ((Dev.rd_voteFor _ _ _ _ (of_decide_eq_true hg).2 hpg).trans ?_)
  exact Dev.rd_shelfRegs _ hdie hregion _ (by omega)

theorem thermal_ne_step (hdie : die ≤ 3072) : pageNum 4 die 4 ≠ pageNum 8 0 2 := by
  unfold pageNum
  omega

theorem Dev.shelve_forced (cause : Nat) (hdie : die ≤ 3072) : (d.shelve die cause).rd Reg.THERMAL_SHELF_FORCED die = 1 := by
  by_cases h : d.rd Reg.THERMAL_SHELF_FORCED die = 1
  · rw [d.shelve_again cause h]
    exact h
  · rw [d.rd_shelve_first cause hdie h (g := Reg.THERMAL_SHELF_FORCED) (by decide) (by decide) (thermal_ne_step hdie),
      Dev.rd_wr_apart _ _ _ _ (by decide)]
    exact Dev.rd_wr_same _ die 1 (f := Reg.THERMAL_SHELF_FORCED) (by decide) (by decide)

theorem Dev.shelve_cause (cause : Nat) (hdie : die ≤ 3072) (h : d.rd Reg.THERMAL_SHELF_FORCED die ≠ 1) :
    (d.shelve die cause).rd Reg.THERMAL_CAUSE die = min 7 cause := by
  rw [d.rd_shelve_first cause hdie h (g := Reg.THERMAL_CAUSE) (by decide) (by decide) (thermal_ne_step hdie)]
  refine (Dev.rd_wr_same _ die _ (f := Reg.THERMAL_CAUSE) (by decide) (by decide)).trans (Nat.mod_eq_of_lt ?_)
  exact Nat.lt_of_le_of_lt (Nat.min_le_left ..) (by decide)

theorem Dev.shelfCause_mem (cause : Nat) : cause ∈ ((d.shelfCause die cause).shelfOf die).causes := by
  have hput : (d.shelfCause die cause).shelfOf die = { d.shelfOf die with
      causes := if (d.shelfOf die).causes.contains cause then (d.shelfOf die).causes else (d.shelfOf die).causes ++ [cause], release := false } :=
    SMap.at_put_same _ _ _ _
  rw [hput]
  by_cases h : cause ∈ (d.shelfOf die).causes
  · simp [h]
  · simp [h]

/-- Of the rest of the device, a cause changes the die's causes only. -/
theorem BesideRegs.shelve {β : Type} {p : Dev → β} (hp : BesideRegs p) (hstep : ∀ (d : Dev) x, p { d with step := x } = p d) (cause : Nat) :
    p (d.shelve die cause) = p (d.shelfCause die cause) := by
  by_cases h : d.rd Reg.THERMAL_SHELF_FORCED die = 1
  · rw [d.shelve_again cause h]
  · rw [d.shelve_first cause h]
    exact (hp.raise _ _ _ _ _ _).trans ((hp.voteFor hstep _ _ _).trans ((foldl_keeps p _ hp.shelveRegion _ _).trans
      ((hp.set _ _ _ _ _).trans (hp.set _ _ _ _ _))))

theorem Dev.shelve_causes (cause : Nat) : cause ∈ ((d.shelve die cause).shelfOf die).causes := by
  have hshelf : (d.shelve die cause).shelfOf die = (d.shelfCause die cause).shelfOf die :=
    BesideRegs.shelve d (p := fun e => e.shelfOf die) ⟨fun _ _ _ _ _ => rfl, fun _ _ => rfl⟩ (fun _ _ => rfl) cause
  rw [hshelf]
  exact d.shelfCause_mem cause

theorem Dev.shelve_vote (cause : Nat) (hdie : die ≤ 3072) (h : d.rd Reg.THERMAL_SHELF_FORCED die ≠ 1) (hopen : d.stepOpen = true) :
    (d.shelve die cause).g Reg.STEP_REC_STATE_VOTE = max 3 (d.g Reg.STEP_REC_STATE_VOTE) % 4 := by
  have hkept (g : Field) (hregion : offRegion g = true) (hforced : fieldsApart Reg.THERMAL_SHELF_FORCED g = true)
      (hcause : fieldsApart Reg.THERMAL_CAUSE g = true) : ((d.shelfCause die cause).shelfRegs die (min 7 cause)).g g = d.g g := by
    have hi : die < 4096 := by omega
    refine (Dev.rd_shelfRegs _ hdie hregion _ (by decide)).trans ?_
    rw [Dev.rd_wr_fields _ _ hcause hi (by decide), Dev.rd_wr_fields _ _ hforced hi (by decide)]
    rfl
  have hopen' : ((d.shelfCause die cause).shelfRegs die (min 7 cause)).stepOpen = true := by
    unfold Dev.stepOpen
    rw [hkept _ (by decide) (by decide) (by decide)]
    exact hopen
  rw [d.shelve_first cause h]
  refine (Dev.g_raise_body _ _ _ _ _ _ (by decide)).trans ((Dev.g_voteFor_vote _ 3 true hopen').trans ?_)
  rw [hkept _ (by decide) (by decide) (by decide)]

theorem Dev.shelve_event (cause : Nat) (h : d.rd Reg.THERMAL_SHELF_FORCED die ≠ 1) :
    bit ((d.shelve die cause).hd Hdr.EVT_BLOCK (pgThermal die)) 1 = true := by
  rw [d.shelve_first cause h]
  exact Dev.raise_block_bit _ (pos := 9) _ _ _ (by decide) (by decide)

end

/-! ## Time that passes -/

namespace BesideRegs

variable {β : Type} {p : Dev → β} (hp : BesideRegs p) (hresetting : ∀ (d : Dev) x, p { d with resetting := x } = p d)
  (hrst : ∀ (d : Dev) x, p { d with rst := x } = p d)
include hp hresetting hrst

/-- Resets that run out. -/
theorem endResets (d : Dev) : p d.endResets = p d := by
  have hend (e : Dev) (x : Nat × Nat × Bool) : p (e.endReset x) = p e := by
    unfold Dev.endReset
    simp only [apply_ite p, hp.raise, hp.setBs, ite_self]
  have hback (e : Dev) : p e.domainsBack = p e :=
    (foldl_keeps p _ (fun e b => hp.raise e _ _ _ _ _) _ _).trans (hrst _ _)
  unfold Dev.endResets
  simp only [apply_ite p, hback, foldl_keeps p _ hend, hresetting, ite_self]

theorem passTo (hnow : ∀ (d : Dev) x, p { d with now := x } = p d) (d : Dev) (t : Nat) : p (d.passTo t) = p d := by
  unfold Dev.passTo
  simp only [apply_ite p, hp.endResets hresetting hrst, apply_ite Dev.endResets, Dev.p, Dev.wr, hp.set, hnow, ite_self]

end BesideRegs

section
variable (d : Dev)

theorem Dev.passTo_now (t : Nat) : (d.passTo t).now = max d.now t := by
  have hend (e : Dev) : e.endResets.now = e.now :=
    BesideRegs.endResets (p := Dev.now) ⟨fun _ _ _ _ _ => rfl, fun _ _ => rfl⟩ (fun _ _ => rfl) (fun _ _ => rfl) e
  unfold Dev.passTo
  by_cases h : t ≤ d.now
  · rw [if_pos h]
    omega
  · rw [if_neg h, hend]
    simp only [apply_ite Dev.now, Dev.p_now, ite_self]
    omega

theorem Dev.passTo_units (t : Nat) : (d.passTo t).units = d.units :=
  BesideRegs.passTo (p := Dev.units) ⟨fun _ _ _ _ _ => rfl, fun _ _ => rfl⟩ (fun _ _ => rfl) (fun _ _ => rfl) (fun _ _ => rfl) d t

theorem Dev.passTo_power (t : Nat) : (d.passTo t).power = d.power :=
  BesideRegs.passTo (p := Dev.power) ⟨fun _ _ _ _ _ => rfl, fun _ _ => rfl⟩ (fun _ _ => rfl) (fun _ _ => rfl) (fun _ _ => rfl) d t

/-! ## Clocks -/

theorem Dev.rampStep_held {r : Nat} (h : d.rd Reg.RCLOCK_RAMPING r = 0 ∨ (d.clock r).stretched = true ∨
    ∃ t, (d.clock r).clearAt = some t ∧ d.now < t + us 10) : d.rampStep r = d := by
  refine if_pos (h.imp id fun h => ?_)
  rcases h with h | ⟨t, ht, hnow⟩
  · simp [h]
  · simp [ht, hnow]

theorem Dev.rampStep_free {r : Nat} (hramping : d.rd Reg.RCLOCK_RAMPING r ≠ 0) (hstretched : (d.clock r).stretched = false)
    (hclear : ∀ t, (d.clock r).clearAt = some t → t + us 10 ≤ d.now) : d.rampStep r = (d.wr Reg.RCLOCK_OP r (d.clock r).stepTo).nextStep r := by
  refine if_neg (not_or.2 ⟨hramping, ?_⟩)
  rw [hstretched, Bool.false_or]
  split
  · next t ht => exact fun h => absurd (of_decide_eq_true h) (Nat.not_lt_of_le (hclear t ht))
  · exact Bool.false_ne_true

/-- The operating point and the target as the next step of a ramp finds them. -/
theorem Dev.rampStep_registers (r : Nat) (h16 : (d.clock r).stepTo < 16) :
    (d.wr Reg.RCLOCK_OP r (d.clock r).stepTo).rd Reg.RCLOCK_OP r = (d.clock r).stepTo ∧
    (d.wr Reg.RCLOCK_OP r (d.clock r).stepTo).rd Reg.RCLOCK_TARGET r = d.rd Reg.RCLOCK_TARGET r :=
  ⟨(d.rd_wr_same r _ (f := Reg.RCLOCK_OP) (by decide) (by decide)).trans (Nat.mod_eq_of_lt h16), d.rd_wr_apart _ _ _ (by decide)⟩

theorem Dev.rampStep_reached {r : Nat} (hfree : d.rampStep r = (d.wr Reg.RCLOCK_OP r (d.clock r).stepTo).nextStep r)
    (h16 : (d.clock r).stepTo < 16) (h : (d.clock r).stepTo = d.rd Reg.RCLOCK_TARGET r) :
    d.rampStep r = (d.wr Reg.RCLOCK_OP r (d.clock r).stepTo).wr Reg.RCLOCK_RAMPING r 0 := by
  obtain ⟨hop, htarget⟩ := d.rampStep_registers r h16
  rw [hfree, Dev.nextStep, hop, htarget, if_pos h]

theorem Dev.rampStep_onward {r : Nat} (hfree : d.rampStep r = (d.wr Reg.RCLOCK_OP r (d.clock r).stepTo).nextStep r)
    (h16 : (d.clock r).stepTo < 16) (h : (d.clock r).stepTo ≠ d.rd Reg.RCLOCK_TARGET r) :
    d.rampStep r = ((d.wr Reg.RCLOCK_OP r (d.clock r).stepTo).setClock r { d.clock r with
      stepTo := if (d.clock r).stepTo < d.rd Reg.RCLOCK_TARGET r then (d.clock r).stepTo + 1 else (d.clock r).stepTo - 1 }).wr
        Reg.RCLOCK_RAMPING r 1 := by
  obtain ⟨hop, htarget⟩ := d.rampStep_registers r h16
  rw [hfree, Dev.nextStep, hop, htarget, if_neg h]
  rfl

theorem Dev.droopTrip_eq (r : Nat) : d.droopTrip r = if (d.clock r).stretched then d else
    (d.setClock r { d.clock r with stretched := true, trips := (d.clock r).trips + 1 }).count Reg.RCLOCK_DROOP_EVENTS r := rfl

theorem Dev.droopClear_eq (r n : Nat) : d.droopClear r n = if (d.clock r).stretched then
    (d.setClock r { d.clock r with stretched := false, clearAt := some d.now }).count Reg.RCLOCK_STRETCH_CYCLES r (max 64 n) else d := by
  unfold Dev.droopClear
  cases h : (d.clock r).stretched <;> simp [h]

/-! ## Temperatures -/

/-- A region of a die stands at 105 °C. -/
def Dev.hotDie (d : Dev) (die : Nat) : Bool := (regionsOf die).any fun r => ! regionOut d.faults r && decide (420 ≤ d.regionTemp r)

theorem Dev.junctionRead_shelfAt (r : Nat) (ts : List (Option (BitVec 16))) :
    ∃ e : Dev, d.junctionRead r ts = e.shelfAt (r / 1024 * 1024) 1 (e.hotDie (r / 1024 * 1024)) ∧
      (e.units, e.now, e.faults) = (d.units, d.now, d.faults) := by
  have hp := besidePower_units
  refine ⟨_, rfl, (hp.throttle _ _ _).trans ((hp.thermalView _ _).trans ((hp.wr _ _ _ _ _).trans ?_))⟩
  refine foldl_keeps (fun e : Dev => (e.units, e.now, e.faults)) _ (fun e i => ?_) _ _
  exact hp.sensorEvent _ _ _ _

theorem Dev.junctionRead_kept (r : Nat) (ts : List (Option (BitVec 16))) : ((d.junctionRead r ts).units, (d.junctionRead r ts).now,
    (d.junctionRead r ts).faults) = (d.units, d.now, d.faults) := by
  obtain ⟨e, heq, hkept⟩ := d.junctionRead_shelfAt r ts
  rw [heq]
  exact (besidePower_units.shelfAt _ _ _ _).trans hkept

theorem Dev.junctionRead_hot (q : BitVec 4) (ts : List (Option (BitVec 16))) (hout : regionOut d.faults (256 * q.toNat) = false)
    (hhot : 420 ≤ (d.junctionRead (256 * q.toNat) ts).regionTemp (256 * q.toNat)) :
    (d.junctionRead (256 * q.toNat) ts).rd Reg.THERMAL_SHELF_FORCED (256 * q.toNat / 1024 * 1024) = 1 ∧
    1 ∈ ((d.junctionRead (256 * q.toNat) ts).shelfOf (256 * q.toNat / 1024 * 1024)).causes := by
  obtain ⟨e, heq, hkept⟩ := d.junctionRead_shelfAt (256 * q.toNat) ts
  have hfaults : e.faults = d.faults := congrArg (·.2.2) hkept
  have hq := q.isLt
  have hmem : 256 * q.toNat ∈ regionsOf (256 * q.toNat / 1024 * 1024) :=
    List.mem_map.2 ⟨q.toNat % 4, List.mem_range.2 (Nat.mod_lt _ (by decide)), by omega⟩
  have htemp (on : Bool) : (e.shelfAt (256 * q.toNat / 1024 * 1024) 1 on).regionTemp (256 * q.toNat) = e.regionTemp (256 * q.toNat) :=
    congrArg Prod.fst ((besidePower_regionTemp (256 * q.toNat)).shelfAt e _ 1 on)
  have hon : e.hotDie (256 * q.toNat / 1024 * 1024) = true := by
    rw [heq, htemp] at hhot
    exact List.any_eq_true.2 ⟨_, hmem, by simp [hfaults, hout, hhot]⟩
  rw [heq, hon]
  exact ⟨e.shelve_forced 1 (by omega), e.shelve_causes 1⟩

/-- The stacks of a die at 95 °C. -/
def Dev.hotStacks (d : Dev) (die : Nat) : List Nat := (d.dieStacks die).filter fun s => decide (380 ≤ d.stackTemp s)

/-- The device with the hot stacks of a die in self-refresh. -/
def Dev.refreshHot (d : Dev) (die : Nat) : Dev :=
  { d with power := { d.power with selfRefresh := (d.power.selfRefresh ++ d.hotStacks die).eraseDups } }

theorem Dev.hbmRead_shelfAt (die : Nat) (ts : List (Option (BitVec 16))) :
    ∃ e : Dev, d.hbmRead die ts = (e.refreshHot die).shelfAt die 2 (! (e.hotStacks die).isEmpty) ∧
      (e.units, e.now, e.faults) = (d.units, d.now, d.faults) := by
  have hp := besidePower_units
  refine ⟨_, rfl, (foldl_keeps (fun e : Dev => (e.units, e.now, e.faults)) _ (fun e r => hp.throttle e true r) _ _).trans
    ((hp.thermalView _ _).trans ((hp.wr _ _ _ _ _).trans ?_))⟩
  refine foldl_keeps (fun e : Dev => (e.units, e.now, e.faults)) _ (fun e i => ?_) _ _
  exact hp.sensorEvent _ _ _ _

theorem Dev.hbmRead_kept (die : Nat) (ts : List (Option (BitVec 16))) : ((d.hbmRead die ts).units, (d.hbmRead die ts).now,
    (d.hbmRead die ts).faults) = (d.units, d.now, d.faults) := by
  obtain ⟨e, heq, hkept⟩ := d.hbmRead_shelfAt die ts
  rw [heq]
  exact (besidePower_units.shelfAt _ _ _ _).trans hkept

theorem Dev.hbmRead_hot {die : Nat} (hdie : die ≤ 3072) (ts : List (Option (BitVec 16))) {k : Nat} (hk : k ∈ (d.hbmRead die ts).dieStacks die)
    (hhot : 380 ≤ (d.hbmRead die ts).stackTemp k) :
    (d.hbmRead die ts).rd Reg.THERMAL_SHELF_FORCED die = 1 ∧ k ∈ (d.hbmRead die ts).power.selfRefresh := by
  obtain ⟨e, heq, -⟩ := d.hbmRead_shelfAt die ts
  have hstacks := besidePower_stacks.shelfAt (e.refreshHot die) die 2 (! (e.hotStacks die).isEmpty)
  rw [heq] at hk hhot ⊢
  obtain ⟨htemps, hfaults, hself, hnow⟩ := by simpa only [Prod.mk.injEq] using hstacks
  have hmem : k ∈ e.hotStacks die := by
    unfold Dev.dieStacks at hk
    unfold Dev.stackTemp Dev.stackSensors at hhot
    rw [hfaults] at hk
    rw [htemps, hnow] at hhot
    exact List.mem_filter.2 ⟨hk, decide_eq_true hhot⟩
  have hon : (! (e.hotStacks die).isEmpty) = true := by
    cases h : e.hotStacks die with
    | nil => rw [h] at hmem; cases hmem
    | cons x xs => rfl
  refine ⟨?_, ?_⟩
  · rw [hon]
    exact Dev.shelve_forced _ 2 hdie
  · rw [hself]
    exact List.mem_eraseDups.2 (List.mem_append_right _ hmem)

/-! ## Losses -/

theorem Dev.enterLost_state (why : Nat) : (d.enterLost why).lockState = 4 := by
  refine (d.g_enterLost why (by decide) (by decide) (by decide)).trans ?_
  rw [Dev.bump, Dev.g, Dev.rd_wr_apart _ _ _ _ (by decide)]
  exact Dev.rd_wr_same _ 0 4 (f := Reg.BEAT_LOCK_STATE) (by decide) (by decide)

theorem Dev.enterLost_shelf (why : Nat) {die : Nat} (hdie : die ≤ 3072) :
    (d.enterLost why).rd Reg.THERMAL_SHELF_FORCED die = d.rd Reg.THERMAL_SHELF_FORCED die := by
  have hi : die < 4096 := by omega
  refine (Dev.rd_raise_body _ _ _ _ _ _ _ (by decide)).trans ((Dev.rd_voteFor _ 3 true die (g := Reg.THERMAL_SHELF_FORCED) (by decide)
    (thermal_ne_step hdie)).trans ?_)
  rw [Dev.bump, Dev.rd_wr_fields _ _ (by decide) (by decide) hi, Dev.p, Dev.rd_wr_fields _ _ (by decide) (by decide) hi]

/-- A lost lock changes registers, event queues, the step and the beat lock's own state. -/
theorem BesideRegs.enterLost {β : Type} {p : Dev → β} (hp : BesideRegs p) (hstep : ∀ (d : Dev) x, p { d with step := x } = p d)
    (hbeat : ∀ (d : Dev) x, p { d with beat := x } = p d) (why : Nat) : p (d.enterLost why) = p d :=
  (hp.raise _ _ _ _ _ _).trans ((hbeat _ _).trans ((hp.voteFor hstep _ _ _).trans ((hp.set _ _ _ _ _).trans (hp.set _ _ _ _ _))))

/-- The die of a lost reference clock, before the beat is lost. -/
def Dev.clockLost (d : Dev) (die : Nat) : Dev := (({ d with rst := { d.rst with refclk := false } } : Dev).subst 7 true).shelve die 4

theorem Dev.refclkLoss_eq (die : Nat) (h : d.rst.held = false) : d.refclkLoss die =
    if (d.clockLost die).lockState = 4 then d.clockLost die else (d.clockLost die).enterLost 1 := by
  unfold Dev.refclkLoss
  rw [if_neg (Bool.eq_false_iff.1 h)]
  rfl

theorem Dev.refclkLoss_registers {die : Nat} (hdie : die ≤ 3072) (h : d.rst.held = false) : (d.refclkLoss die).rst.refclk = false ∧
    (d.refclkLoss die).lockState = 4 ∧ 4 ∈ ((d.refclkLoss die).shelfOf die).causes ∧ (d.refclkLoss die).rd Reg.THERMAL_SHELF_FORCED die = 1 := by
  have hrst : BesidePower Dev.rst := ⟨⟨fun _ _ _ _ _ => rfl, fun _ _ => rfl⟩, fun _ _ => rfl, fun _ _ => rfl, fun _ _ => rfl, fun _ _ => rfl⟩
  have hclock : (d.clockLost die).rst.refclk = false := congrArg RstSt.refclk ((hrst.shelve _ _ _).trans (hrst.subst _ _ _))
  have hcauses := Dev.shelve_causes (({ d with rst := { d.rst with refclk := false } } : Dev).subst 7 true) (die := die) 4
  have hforced := Dev.shelve_forced (({ d with rst := { d.rst with refclk := false } } : Dev).subst 7 true) 4 hdie
  have hkept : (((d.clockLost die).enterLost 1).rst, ((d.clockLost die).enterLost 1).shelfOf die) =
      ((d.clockLost die).rst, (d.clockLost die).shelfOf die) :=
    BesideRegs.enterLost _ (p := fun e : Dev => (e.rst, e.shelfOf die)) ⟨fun _ _ _ _ _ => rfl, fun _ _ => rfl⟩ (fun _ _ => rfl) (fun _ _ => rfl) 1
  obtain ⟨hrst', hshelf⟩ := Prod.mk.inj hkept
  rw [d.refclkLoss_eq die h]
  split
  · next h4 => exact ⟨hclock, h4, hcauses, hforced⟩
  · exact ⟨by rw [hrst']; exact hclock, Dev.enterLost_state _ _, by rw [hshelf]; exact hcauses, (Dev.enterLost_shelf _ _ hdie).trans hforced⟩

/-! ## The two sources -/

theorem Dev.mem_inDies {die : Nat} (h : die ∈ d.inDies) : die ≤ 3072 := le_of_mem_allDies (List.mem_filter.1 h).1

/-- The register that says that a source has failed. -/
def failedReg (model : Bool) : Field := if model then Reg.MODEL_FAILED else Reg.MEASURE_FAILED

theorem Dev.rd_sourceFailed {g : Field} (hg : offShelf g = true) (model : Bool) {inst : Nat} (hi : inst < 4096) (hpg : g.pg inst ≠ pageNum 8 0 2) :
    (d.sourceFailed model).rd g inst = if d.g (failedReg model) = 1 then d.rd g inst else (d.p (failedReg model) 1).rd g inst := by
  have hbody : inBody g = true := (Bool.and_eq_true_iff.1 hg).2
  have hdies (e : Dev) (xs : List Nat) (hxs : ∀ die ∈ xs, die ≤ 3072) : (xs.foldl (fun d die => d.shelve die 7) e).rd g inst = e.rd g inst :=
    foldl_keeps_mem (fun e : Dev => e.rd g inst) _ _ (fun e die hdie => e.rd_shelve (hxs die hdie) hg 7 hi hpg) _
  unfold Dev.sourceFailed
  extract_lets f d1
  have h1 : d1.rd g inst = (d.p f 1).rd g inst := Dev.rd_raise_body _ _ _ _ _ _ _ hbody
  show (if d.g f = 1 then d else _).rd g inst = if d.g f = 1 then _ else _
  split
  · rfl
  · split
    · exact (hdies d1 _ fun die hdie => d1.mem_inDies hdie).trans h1
    · exact h1

theorem Dev.sourceFailed_failed (model : Bool) : (d.sourceFailed model).g (failedReg model) = 1 := by
  have hoff : offShelf (failedReg model) = true := by cases model <;> decide
  have hpg : (failedReg model).pg 0 ≠ pageNum 8 0 2 := by cases model <;> decide
  rw [Dev.g, d.rd_sourceFailed hoff model (by decide) hpg]
  split
  · assumption
  · cases model
    · exact d.g_p_same 1 (f := Reg.MEASURE_FAILED) (by decide) (by decide)
    · exact d.g_p_same 1 (f := Reg.MODEL_FAILED) (by decide) (by decide)

theorem Dev.rd_sourceFailed_apart {g : Field} (hg : offShelf g = true) (model : Bool) {inst : Nat} (hi : inst < 4096)
    (hpg : g.pg inst ≠ pageNum 8 0 2) (h : fieldsApart (failedReg model) g = true) : (d.sourceFailed model).rd g inst = d.rd g inst := by
  rw [d.rd_sourceFailed hg model hi hpg, Dev.p, Dev.rd_wr_fields _ _ h (by decide) hi, ite_self]

/-- A substituted row of the input conditioner. -/
theorem Dev.subst_bit {row : Nat} (h : row < 8) : bit ((d.subst row true).g Reg.INPUT_COND_SUBST) row = true := by
  unfold Dev.subst
  simp only
  split
  · assumption
  · rw [if_pos trivial]
    have hbits := (Dev.g_p_ne (d.p Reg.INPUT_COND_SUBST (setBit (d.g Reg.INPUT_COND_SUBST) row))
      ((d.p Reg.INPUT_COND_SUBST (setBit (d.g Reg.INPUT_COND_SUBST) row)).rd Reg.INPUT_COND_SUBST_COUNT 0 + 1)
      (f := Reg.INPUT_COND_SUBST_COUNT) (g := Reg.INPUT_COND_SUBST) (by decide)).trans
      (d.g_p_same (setBit (d.g Reg.INPUT_COND_SUBST) row) (f := Reg.INPUT_COND_SUBST) (by decide) (by decide))
    exact (congrArg (bit · row) hbits).trans (bit_setBit_mod h)

theorem Dev.rd_subst {g : Field} (row : Nat) (on : Bool) (hsubst : fieldsApart Reg.INPUT_COND_SUBST g = true)
    (hcount : fieldsApart Reg.INPUT_COND_SUBST_COUNT g = true) {inst : Nat} (hi : inst < 4096) : (d.subst row on).rd g inst = d.rd g inst := by
  unfold Dev.subst
  simp only
  split
  · rfl
  · split
    · exact (Dev.rd_wr_fields _ _ hcount (by decide) hi).trans (Dev.rd_wr_fields _ _ hsubst (by decide) hi)
    · exact Dev.rd_wr_fields _ _ hsubst (by decide) hi

/-- The rails of a hung die manager count as failed. -/
def Dev.railsFailed (d : Dev) (die : Nat) : Dev :=
  (List.range 7).foldl (fun (d : Dev) r => d.setRail (die + r) { d.rail (die + r) with failed := true }) d

theorem Dev.managerHung_registers {die : Nat} (hdie : die ≤ 3072) : (d.managerHung die).units = d.units ∧
    (d.managerHung die).rd Reg.AVS_RAIL_OK die = 0 ∧ (d.managerHung die).rd Reg.AVS_RAIL_FAILED die = 127 ∧
    (d.managerHung die).g Reg.MEASURE_FAILED = 1 ∧ bit ((d.managerHung die).g Reg.INPUT_COND_SUBST) 2 = true := by
  have hi : die < 4096 := by omega
  have hpg : pageNum 4 die 3 ≠ pageNum 8 0 2 := by
    unfold pageNum
    omega
  have heq : d.managerHung die = ((((d.railsFailed die).wr Reg.AVS_RAIL_OK die 0).wr Reg.AVS_RAIL_FAILED die 0x7F).subst 2 true).sourceFailed false := rfl
  have hp := besidePower_units
  have hkept : (fun e : Dev => (e.units, e.now, e.faults)) (d.managerHung die) = (d.units, d.now, d.faults) := by
    rw [heq]
    refine (hp.sourceFailed _ _).trans ((hp.subst _ _ _).trans ((hp.wr _ _ _ _ _).trans ((hp.wr _ _ _ _ _).trans ?_)))
    exact foldl_keeps (fun e : Dev => (e.units, e.now, e.faults)) _ (fun e r => hp.setRail e _ _) _ _
  refine ⟨congrArg Prod.fst hkept, ?_, ?_, Dev.sourceFailed_failed _ false, ?_⟩
  · rw [heq, Dev.rd_sourceFailed_apart _ (g := Reg.AVS_RAIL_OK) (by decide) _ hi hpg (by decide), Dev.rd_subst _ _ _ (by decide) (by decide) hi,
      Dev.rd_wr_apart _ _ _ _ (by decide)]
    exact Dev.rd_wr_same _ die 0 (f := Reg.AVS_RAIL_OK) (by decide) (by decide)
  · rw [heq, Dev.rd_sourceFailed_apart _ (g := Reg.AVS_RAIL_FAILED) (by decide) _ hi hpg (by decide), Dev.rd_subst _ _ _ (by decide) (by decide) hi]
    exact Dev.rd_wr_same _ die 127 (f := Reg.AVS_RAIL_FAILED) (by decide) (by decide)
  · rw [heq, Dev.g, Dev.rd_sourceFailed_apart _ (g := Reg.INPUT_COND_SUBST) (by decide) _ (by decide) (by decide) (by decide)]
    exact Dev.subst_bit _ (by decide)

/-! ## Readings and loops -/

/-- The rails read, at the time they are read, and the measured source as they leave it. -/
def Dev.railsRead (xs : List (BitVec 2 × BitVec 3 × BitVec 16 × BitVec 16)) (d : Dev) : Dev :=
  let d := d.inDies.foldl (fun (d : Dev) die => (List.range 7).foldl (fun d r =>
    d.railRead die r ((xs.find? fun x => x.1.toNat * 1024 == die && x.2.1.toNat == r).map fun x => (x.2.2.1.toNat, x.2.2.2.toNat))) d) d
  let d := d.inDies.foldl (fun (d : Dev) die =>
    if (List.range 7).all (fun r => (d.rail (die + r)).above = 0) then d.unshelve die 8 else d) d
  let bad := d.power.rails.any fun r => r.2.failed
  let d := d.subst 2 bad
  if bad then d.sourceFailed false else d

theorem BesidePower.railsRead {β : Type} {p : Dev → β} (hp : BesidePower p) (xs : List (BitVec 2 × BitVec 3 × BitVec 16 × BitVec 16)) :
    p (d.railsRead xs) = p d := by
  have hdie (e : Dev) (die : Nat) : p (if (List.range 7).all (fun r => (e.rail (die + r)).above = 0) then e.unshelve die 8 else e) = p e := by
    simp only [apply_ite p, hp.unshelve, ite_self]
  have hread (e : Dev) (die : Nat) : p ((List.range 7).foldl (fun d r =>
      d.railRead die r ((xs.find? fun x => x.1.toNat * 1024 == die && x.2.1.toNat == r).map fun x => (x.2.2.1.toNat, x.2.2.2.toNat))) e) = p e :=
    foldl_keeps p _ (fun e r => hp.railRead e die r _) _ _
  unfold Dev.railsRead
  extract_lets d1 d2 bad d3
  have h3 : p d3 = p d := (hp.subst _ _ _).trans ((foldl_keeps p _ hdie _ _).trans (foldl_keeps p _ hread _ _))
  simp only [apply_ite p, hp.sourceFailed, h3, ite_self]

/-- The means of the package's readings shown, and the densities of the beat cut where they are too high. -/
def Dev.meansShown (d : Dev) : Dev :=
  let d := d.minuteTotals
  let d := (d.p Reg.MEASURE_M10_W (sat 16 (meanOf (d.power.readings.take 10) / 1000))).p Reg.MEASURE_M1S_W (sat 16 (meanOf d.power.readings / 1000))
  if d.g Reg.MEASURE_FAILED = 0 ∧ d.loopShare * 10 * d.pTarget < d.loopPower.1 then
    d.inRegions.foldl (fun (d : Dev) r => d.wr Reg.RCLOCK_DENSITY r (max 3 (d.rd Reg.RCLOCK_DENSITY r / 2))) d
  else d

/-- The package's power joins the readings of the last second. -/
def Dev.addReading (d : Dev) : Dev := { d with power := { d.power with readings := (d.packagePower :: d.power.readings).take 1000 } }

theorem Dev.avsSample_eq (xs : List (BitVec 2 × BitVec 3 × BitVec 16 × BitVec 16)) : d.avsSample xs = Dev.meansShown
    (Dev.addReading (({ d.passTo (d.power.sampledAt + ms 1) with power := { (d.passTo (d.power.sampledAt + ms 1)).power with
      sampledAt := (d.passTo (d.power.sampledAt + ms 1)).now } } : Dev).railsRead xs)) := rfl

theorem Dev.meansShown_kept : (d.meansShown.units, d.meansShown.now, d.meansShown.power) = (d.units, d.now, d.power) := by
  have hp : BesideRegs fun e : Dev => (e.units, e.now, e.power) := ⟨fun _ _ _ _ _ => rfl, fun _ _ => rfl⟩
  unfold Dev.meansShown
  extract_lets d1 d2
  have h2 : (fun e : Dev => (e.units, e.now, e.power)) d2 = (d.units, d.now, d.power) := rfl
  split
  · refine (foldl_keeps (fun e : Dev => (e.units, e.now, e.power)) _ (fun e r => ?_) _ _).trans h2
    exact hp.set _ _ _ _ _
  · exact h2

theorem Dev.meansShown_registers : d.meansShown.g Reg.MEASURE_M10_W = sat 16 (meanOf (d.power.readings.take 10) / 1000) ∧
    d.meansShown.g Reg.MEASURE_M1S_W = sat 16 (meanOf d.power.readings / 1000) := by
  have hdensity (e : Dev) (xs : List Nat) (hxs : ∀ r ∈ xs, r < 4096) (g : Field) (hg : fieldsApart Reg.RCLOCK_DENSITY g = true) :
      (xs.foldl (fun (d : Dev) r => d.wr Reg.RCLOCK_DENSITY r (max 3 (d.rd Reg.RCLOCK_DENSITY r / 2))) e).g g = e.g g :=
    foldl_keeps_mem (fun e : Dev => e.g g) _ _ (fun e r hr => e.rd_wr_fields _ hg (hxs r hr) (by decide)) _
  have hregions (e : Dev) : ∀ r ∈ e.inRegions, r < 4096 := fun r hr => by
    obtain ⟨k, hk, rfl⟩ := List.mem_map.1 (List.mem_filter.1 hr).1
    have := List.mem_range.1 hk
    omega
  unfold Dev.meansShown
  extract_lets d1 d2
  have h2 : d2.g Reg.MEASURE_M10_W = sat 16 (meanOf (d.power.readings.take 10) / 1000) ∧
      d2.g Reg.MEASURE_M1S_W = sat 16 (meanOf d.power.readings / 1000) := by
    constructor
    · refine (Dev.g_p_ne _ _ (by decide)).trans ((Dev.g_p_same _ _ (by decide) (by decide)).trans ?_)
      exact sat_mod 16 _
    · exact (Dev.g_p_same _ _ (f := Reg.MEASURE_M1S_W) (by decide) (by decide)).trans (sat_mod 16 _)
  split
  · rw [hdensity _ _ (hregions d2) _ (by decide), hdensity _ _ (hregions d2) _ (by decide)]
    exact h2
  · exact h2

theorem Dev.avsSample_kept (xs : List (BitVec 2 × BitVec 3 × BitVec 16 × BitVec 16)) : (d.avsSample xs).units = d.units ∧
    (d.avsSample xs).now = max d.now (d.power.sampledAt + ms 1) ∧ (d.avsSample xs).power.sampledAt = (d.avsSample xs).now ∧
    (d.avsSample xs).power.readings.length ≤ 1000 ∧ (d.avsSample xs).power.readings.drop 1 = d.power.readings.take 999 ∧
    (d.avsSample xs).g Reg.MEASURE_M10_W = sat 16 (meanOf ((d.avsSample xs).power.readings.take 10) / 1000) ∧
    (d.avsSample xs).g Reg.MEASURE_M1S_W = sat 16 (meanOf (d.avsSample xs).power.readings / 1000) := by
  rw [d.avsSample_eq xs]
  have hnow := d.passTo_now (d.power.sampledAt + ms 1)
  have hunits := d.passTo_units (d.power.sampledAt + ms 1)
  have hpower := d.passTo_power (d.power.sampledAt + ms 1)
  generalize d.passTo (d.power.sampledAt + ms 1) = e at hnow hunits hpower
  have hrails := besidePower_units.railsRead ({ e with power := { e.power with sampledAt := e.now } } : Dev) xs
  have hreadings := besidePower_readings.railsRead ({ e with power := { e.power with sampledAt := e.now } } : Dev) xs
  generalize ({ e with power := { e.power with sampledAt := e.now } } : Dev).railsRead xs = f at hrails hreadings
  obtain ⟨hunits', hnow', -⟩ := by simpa only [Prod.mk.injEq] using hrails
  obtain ⟨hread, hat, -⟩ := by simpa only [Prod.mk.injEq] using hreadings
  obtain ⟨hm10, hm1s⟩ := f.addReading.meansShown_registers
  obtain ⟨hu, hn, hp⟩ := by simpa only [Prod.mk.injEq] using f.addReading.meansShown_kept
  have hlist : f.addReading.power.readings = (f.packagePower :: d.power.readings).take 1000 := by
    rw [← hpower, ← hread]
    rfl
  rw [hm10, hm1s, hu, hn, hp, hlist]
  refine ⟨hunits'.trans hunits, hnow'.trans hnow, hat.trans hnow'.symm, ?_, rfl, rfl, rfl⟩
  exact (List.length_take_le ..)

/-- A part that the comparison with the model leaves alone. -/
theorem Dev.suspect_kept (q m : Nat) : ((d.suspect q m).units, (d.suspect q m).now, (d.suspect q m).power.loopAt, (d.suspect q m).power.loops,
    (d.suspect q m).power.readings) = (d.units, d.now, d.power.loopAt, d.power.loops, d.power.readings) := by
  have hp : BesideRegs fun e : Dev => (e.units, e.now, e.power.loopAt, e.power.loops, e.power.readings) :=
    ⟨fun _ _ _ _ _ => rfl, fun _ _ => rfl⟩
  unfold Dev.suspect
  extract_lets off x d1
  split
  · exact (hp.raise _ _ _ _ _ _).trans (hp.set _ _ _ _ _)
  · split
    · exact hp.set _ _ _ _ _
    · rfl

theorem Dev.g_suspect (q m : Nat) {g : Field} (hg : inBody g = true) (h : fieldsApart Reg.MODEL_SUSPECT g = true) :
    (d.suspect q m).g g = d.g g := by
  unfold Dev.suspect
  extract_lets off x d1
  split
  · exact (Dev.g_raise_body _ _ _ _ _ _ hg).trans (Dev.g_p_ne _ _ h)
  · split
    · exact Dev.g_p_ne _ _ h
    · rfl

theorem Dev.capLoop_kept : (d.capLoop.units, d.capLoop.now, d.capLoop.power.loopAt, d.capLoop.power.loops, d.capLoop.power.readings) =
    (d.units, d.now, d.power.loopAt, d.power.loops, d.power.readings) := by
  have hp : BesideRegs fun e : Dev => (e.units, e.now, e.power.loopAt, e.power.loops, e.power.readings) :=
    ⟨fun _ _ _ _ _ => rfl, fun _ _ => rfl⟩
  unfold Dev.capLoop
  extract_lets p bt pt cap k c d1
  split
  · rfl
  · split
    · exact (hp.raise _ _ _ _ _ _).trans ((hp.set _ _ _ _ _).trans (hp.set _ _ _ _ _))
    · split
      · split
        · rfl
        · exact hp.set _ _ _ _ _
      · rfl

/-- The loops of the last second with the one of this run, and what they say of running work. -/
def Dev.loopTaken (d : Dev) (q raw : Nat) : Dev :=
  let busy := if d.stepOpen then d.power.busyLoops + 1 else 0
  let loops := ((q, raw) :: d.power.loops).take 100
  { d with power := { d.power with loopAt := d.now, loops := loops, busyLoops := busy,
                                   busyW := if 100 ≤ busy then meanOf d.power.readings else d.power.busyW,
                                   busyDyn := if 100 ≤ busy then meanOf (loops.map (·.2)) else d.power.busyDyn } }

theorem Dev.measLoop_eq : ∃ q raw m, d.measLoop = ((((d.passTo (d.power.loopAt + ms 10)).loopTaken q raw).p Reg.MODEL_Q10_W
    (sat 16 (q / 1000))).suspect q m).capLoop := ⟨_, _, _, rfl⟩

theorem Dev.measLoop_kept : d.measLoop.units = d.units ∧ d.measLoop.now = max d.now (d.power.loopAt + ms 10) ∧
    d.measLoop.power.loopAt = d.measLoop.now ∧ d.measLoop.power.loops.length ≤ 100 ∧ d.measLoop.power.loops.drop 1 = d.power.loops.take 99 ∧
    d.measLoop.power.readings = d.power.readings ∧
    (d.g Reg.MEASURE_FAILED = 1 → d.measLoop.g Reg.MEASURE_MEAS_CAP = d.g Reg.MEASURE_MEAS_CAP) := by
  obtain ⟨q, raw, m, heq⟩ := d.measLoop_eq
  rw [heq]
  have hnow := d.passTo_now (d.power.loopAt + ms 10)
  have hunits := d.passTo_units (d.power.loopAt + ms 10)
  have hpower := d.passTo_power (d.power.loopAt + ms 10)
  have hfailed : (d.passTo (d.power.loopAt + ms 10)).g Reg.MEASURE_FAILED = d.g Reg.MEASURE_FAILED :=
    d.rd_passTo _ 0 (by decide) (by decide) (by decide)
  have hcap : (d.passTo (d.power.loopAt + ms 10)).g Reg.MEASURE_MEAS_CAP = d.g Reg.MEASURE_MEAS_CAP :=
    d.rd_passTo _ 0 (by decide) (by decide) (by decide)
  generalize d.passTo (d.power.loopAt + ms 10) = e at hnow hunits hpower hfailed hcap
  have hg (g : Field) (hbody : inBody g = true) (hsuspect : fieldsApart Reg.MODEL_SUSPECT g = true) (hq : fieldsApart Reg.MODEL_Q10_W g = true) :
      (((e.loopTaken q raw).p Reg.MODEL_Q10_W (sat 16 (q / 1000))).suspect q m).g g = e.g g :=
    (Dev.g_suspect _ _ _ hbody hsuspect).trans (Dev.g_p_ne _ _ hq)
  have hkept := (Dev.capLoop_kept _).trans (Dev.suspect_kept ((e.loopTaken q raw).p Reg.MODEL_Q10_W (sat 16 (q / 1000))) q m)
  obtain ⟨hu, hn, hat, hloops, hread⟩ := by simpa only [Prod.mk.injEq] using hkept
  have hlist : (e.loopTaken q raw).power.loops = ((q, raw) :: d.power.loops).take 100 := by rw [← hpower]; rfl
  refine ⟨hu.trans hunits, hn.trans hnow, hat.trans hn.symm, ?_, ?_, hread.trans ?_, fun h => ?_⟩
  · rw [hloops]
    exact (congrArg List.length hlist).trans_le (List.length_take_le ..)
  · rw [hloops]
    exact congrArg (List.drop 1) hlist
  · rw [← hpower]
    rfl
  · unfold Dev.capLoop
    rw [if_pos ((hg _ (by decide) (by decide) (by decide)).trans (hfailed.trans h)), hg _ (by decide) (by decide) (by decide)]
    exact hcap

/-! ## Recalibration -/

theorem Dev.unshelve_rest {β : Type} {p : Dev → β} (hp : ∀ (d : Dev) x, p { d with power := x } = p d) (die cause : Nat) :
    p (d.unshelve die cause) = p d := by
  unfold Dev.unshelve
  simp only
  split
  · rfl
  · exact hp _ _

theorem Dev.sourcesBack_rest {β : Type} {p : Dev → β} (hp : ∀ (d : Dev) x, p { d with power := x } = p d) : p d.sourcesBack = p d := by
  unfold Dev.sourcesBack
  split
  · rfl
  · exact foldl_keeps p _ (fun e die => e.unshelve_rest hp die 7) _ _

/-- A factor of the model lies within its bounds. -/
def factorOk (k : Nat) : Bool := decide (80 * 16384 ≤ 100 * k ∧ 100 * k ≤ 125 * 16384)

/-- The registers of the model with new factors. -/
def Dev.calibrated (d : Dev) (kst kdyn : Nat) : Dev :=
  let d := (((d.p Reg.MODEL_K_ST kst).p Reg.MODEL_K_DYN kdyn).p Reg.MODEL_FAILED 0).count Reg.MODEL_CALIBRATIONS 0
  if d.power.rails.any (fun r => r.2.failed) then d else d.p Reg.MEASURE_FAILED 0

theorem Dev.recalibrate_off (h : d.quietBeat = false ∨ d.g Reg.MODEL_SUSPECT = 0 ∧ d.power.calHour = d.wallHour) : d.recalibrate = d :=
  if_pos (h.imp (congrArg (! ·)) id)

/-- The static power of the package at its operating point and temperature, and the factors that its readings give. -/
def Dev.statNow (d : Dev) : Nat := Config.staticPower ((d.inRegions.map (d.rd Reg.RCLOCK_OP)).foldl max 0) d.hottest
def Dev.kstNow (d : Dev) : Nat := meanOf (d.power.readings.take 10) * 16384 / max 1 d.statNow
def Dev.kdynNow (d : Dev) : Nat :=
  if d.power.busyDyn = 0 then d.g Reg.MODEL_K_DYN else (d.power.busyW - d.kstNow * d.statNow / 16384) * 16384 / d.power.busyDyn

/-- The hour of the calibration noted. -/
def Dev.hourTaken (d : Dev) : Dev := { d with power := { d.power with calHour := d.wallHour } }

theorem Dev.recalibrate_on (hquiet : d.quietBeat = true) (h : d.g Reg.MODEL_SUSPECT = 1 ∨ d.power.calHour ≠ d.wallHour) : d.recalibrate =
    if factorOk d.hourTaken.kstNow && factorOk d.hourTaken.kdynNow then
      (d.hourTaken.calibrated d.hourTaken.kstNow d.hourTaken.kdynNow).sourcesBack.raise pgModel 0x0C08 9 Sev.info
        (d.hourTaken.kdynNow + 65536 * d.hourTaken.kstNow)
    else d.hourTaken.sourceFailed true := by
  refine if_neg (not_or.2 ⟨by simp [hquiet], fun hoff => ?_⟩)
  rcases h with h | h
  · exact absurd (h.symm.trans hoff.1) (by decide)
  · exact h hoff.2

theorem Dev.calibrated_registers {kst kdyn : Nat} (hst : factorOk kst = true) (hdyn : factorOk kdyn = true) :
    (d.calibrated kst kdyn).g Reg.MODEL_K_ST = kst ∧ (d.calibrated kst kdyn).g Reg.MODEL_K_DYN = kdyn ∧
    (d.calibrated kst kdyn).g Reg.MODEL_FAILED = 0 ∧
    (d.calibrated kst kdyn).g Reg.MODEL_CALIBRATIONS = (d.g Reg.MODEL_CALIBRATIONS + 1) % 2 ^ Reg.MODEL_CALIBRATIONS.width := by
  have hfits (k : Nat) (hk : factorOk k = true) : k % 2 ^ 16 = k := by
    obtain ⟨-, hhi⟩ := of_decide_eq_true hk
    exact Nat.mod_eq_of_lt (by omega)
  have hlast (e : Dev) (g : Field) (hg : fieldsApart Reg.MEASURE_FAILED g = true) :
      (if e.power.rails.any (fun r => r.2.failed) then e else e.p Reg.MEASURE_FAILED 0).g g = e.g g := by
    split
    · rfl
    · exact e.g_p_ne _ hg
  have hcount (e : Dev) (g : Field) (hg : fieldsApart Reg.MODEL_CALIBRATIONS g = true) : (e.count Reg.MODEL_CALIBRATIONS 0).g g = e.g g :=
    e.g_p_ne _ hg
  unfold Dev.calibrated
  simp only
  refine ⟨?_, ?_, ?_, ?_⟩
  · rw [hlast _ _ (by decide), hcount _ _ (by decide), Dev.g_p_ne _ _ (by decide), Dev.g_p_ne _ _ (by decide)]
    exact (Dev.g_p_same _ _ (f := Reg.MODEL_K_ST) (by decide) (by decide)).trans (hfits kst hst)
  · rw [hlast _ _ (by decide), hcount _ _ (by decide), Dev.g_p_ne _ _ (by decide)]
    exact (Dev.g_p_same _ _ (f := Reg.MODEL_K_DYN) (by decide) (by decide)).trans (hfits kdyn hdyn)
  · rw [hlast _ _ (by decide), hcount _ _ (by decide)]
    exact Dev.g_p_same _ 0 (f := Reg.MODEL_FAILED) (by decide) (by decide)
  · rw [hlast _ _ (by decide)]
    refine (Dev.g_p_same _ _ (f := Reg.MODEL_CALIBRATIONS) (by decide) (by decide)).trans ?_
    have hold : (((d.p Reg.MODEL_K_ST kst).p Reg.MODEL_K_DYN kdyn).p Reg.MODEL_FAILED 0).g Reg.MODEL_CALIBRATIONS = d.g Reg.MODEL_CALIBRATIONS := by
      rw [Dev.g_p_ne _ _ (by decide), Dev.g_p_ne _ _ (by decide), Dev.g_p_ne _ _ (by decide)]
    exact congrArg (fun v => (v + 1) % 2 ^ Reg.MODEL_CALIBRATIONS.width) hold

theorem BesidePower.calibrated {β : Type} {p : Dev → β} (hp : BesidePower p) (kst kdyn : Nat) : p (d.calibrated kst kdyn) = p d := by
  unfold Dev.calibrated
  extract_lets e
  have he : p e = p d := by simp only [e, Dev.count, Dev.p, hp.wr]
  simp only [apply_ite p, Dev.p, hp.wr, he, ite_self]

theorem BesidePower.recalibrate {β : Type} {p : Dev → β} (hp : BesidePower p) (hquiet : d.quietBeat = true)
    (h : d.g Reg.MODEL_SUSPECT = 1 ∨ d.power.calHour ≠ d.wallHour) : p d.recalibrate = p d.hourTaken := by
  rw [d.recalibrate_on hquiet h]
  simp only [apply_ite p, hp.raise, hp.sourcesBack, hp.calibrated, hp.sourceFailed, ite_self]

theorem Dev.recalibrate_registers (hquiet : d.quietBeat = true) (h : d.g Reg.MODEL_SUSPECT = 1 ∨ d.power.calHour ≠ d.wallHour) :
    d.recalibrate.g Reg.MODEL_FAILED = 1 ∨
      (80 * 16384 ≤ 100 * d.recalibrate.g Reg.MODEL_K_ST ∧ 100 * d.recalibrate.g Reg.MODEL_K_ST ≤ 125 * 16384 ∧
        80 * 16384 ≤ 100 * d.recalibrate.g Reg.MODEL_K_DYN ∧ 100 * d.recalibrate.g Reg.MODEL_K_DYN ≤ 125 * 16384 ∧
        d.recalibrate.g Reg.MODEL_FAILED = 0 ∧
        d.recalibrate.g Reg.MODEL_CALIBRATIONS = (d.g Reg.MODEL_CALIBRATIONS + 1) % 2 ^ Reg.MODEL_CALIBRATIONS.width) := by
  rw [d.recalibrate_on hquiet h]
  split
  · next hok =>
    obtain ⟨hst, hdyn⟩ := Bool.and_eq_true_iff.1 hok
    obtain ⟨hkst, hkdyn, hfailed, hcount⟩ := d.hourTaken.calibrated_registers hst hdyn
    have hg (e : Dev) (g : Field) (hg : inBody g = true) (detail : Nat) : (e.sourcesBack.raise pgModel 0x0C08 9 Sev.info detail).g g = e.g g :=
      (Dev.g_raise_body _ _ _ _ _ _ hg).trans (e.sourcesBack_rest (p := fun e : Dev => e.g g) fun _ _ => rfl)
    rw [hg _ _ (by decide), hg _ _ (by decide), hg _ _ (by decide), hg _ _ (by decide), hkst, hkdyn, hfailed, hcount]
    obtain ⟨hst, hst'⟩ := of_decide_eq_true hst
    obtain ⟨hdyn, hdyn'⟩ := of_decide_eq_true hdyn
    exact Or.inr ⟨hst, hst', hdyn, hdyn', rfl, rfl⟩
  · exact Or.inl (Dev.sourceFailed_failed _ true)

theorem Dev.recalibrate_unread (hquiet : d.quietBeat = true) (hsuspect : d.g Reg.MODEL_SUSPECT = 1) (hreadings : d.power.readings = [])
    (hmodel : d.g Reg.MODEL_FAILED = 0) (hmeasure : d.g Reg.MEASURE_FAILED = 0) :
    d.recalibrate = (d.hourTaken.p Reg.MODEL_FAILED 1).raise pgModel 0x0C09 10 Sev.error 1 := by
  have hkst : d.hourTaken.kstNow = 0 := by
    have hnone : d.hourTaken.power.readings = [] := hreadings
    unfold Dev.kstNow
    rw [hnone]
    simp [meanOf]
  have hmeasure' : ((d.hourTaken.p Reg.MODEL_FAILED 1).raise pgModel 0x0C09 10 Sev.error 1).g Reg.MEASURE_FAILED = 0 :=
    (Dev.g_raise_body _ _ _ _ _ _ (by decide)).trans ((Dev.g_p_ne _ _ (by decide)).trans hmeasure)
  have hmodel' : d.hourTaken.g Reg.MODEL_FAILED ≠ 1 := fun h => absurd (hmodel.symm.trans h) (by decide)
  rw [d.recalibrate_on hquiet (Or.inl hsuspect), hkst]
  refine (if_neg (by simp [factorOk])).trans ((if_neg hmodel').trans (if_neg fun h => ?_))
  exact absurd (hmeasure'.symm.trans h.2) (by decide)

end

/-! ## The commands -/

theorem Dev.whenUp_off {d : Dev} (h : d.rst.held = true ∨ d.now < d.rst.runsTo) (f : Dev → Dev) : d.whenUp f = d :=
  if_pos (Bool.or_eq_true_iff.2 (h.imp id decide_eq_true))

theorem Dev.whenUp_on {d : Dev} (hheld : d.rst.held = false) (hruns : d.rst.runsTo ≤ d.now) (f : Dev → Dev) : d.whenUp f = f d :=
  if_neg (by simp [hheld, hruns])

/-- Settles O54: `shelve_forced` and its companions for the shelf state, `avsSample_kept` and `measLoop_kept` for the measured source,
`recalibrate_registers` for the model's factors. -/
theorem powerControl : Obligations.PowerControl := by
  intro s
  refine ⟨fun hdown q n e ts => ?_, fun hlevel xs e => ?_, fun hheld hruns q => ⟨fun hfree => ?_, fun hramping hstretched hclear h16 => ?_, ?_,
    fun n => ?_, fun ts => ?_⟩, fun hheld hruns q => ⟨fun ts => ?_, ?_, ?_, ?_⟩, fun q => ⟨fun hheld => ?_, fun hheld => ?_⟩,
    fun hlevel => ⟨fun q => ?_, fun xs => ?_, ?_, fun hoff => ?_, fun hquiet hdue => ?_, fun hquiet hsuspect hreadings hmodel hmeasure => ?_⟩,
    fun e die cause hdie hforced => ⟨e.shelve_forced cause (le_of_mem_allDies hdie), e.shelve_cause cause (le_of_mem_allDies hdie) hforced,
      e.shelve_causes cause, e.shelve_vote cause (le_of_mem_allDies hdie) hforced, e.shelve_event cause hforced⟩⟩
  · have hoff (f : Dev → Dev) : s.ends (s.dev.start.whenUp f) = s.ends s.dev.start := congrArg s.ends (Dev.whenUp_off hdown f)
    simp only [List.forall_mem_cons, List.not_mem_nil, false_imp_iff, implies_true, and_true]
    exact ⟨hoff _, hoff _, hoff _, hoff _, hoff _, hoff _, hoff _, hoff _⟩
  · have hoff (f : Dev → Dev) : s.ends (s.dev.start.whenKept f) = s.ends s.dev.start := congrArg s.ends (if_pos hlevel)
    simp only [List.forall_mem_cons, List.not_mem_nil, false_imp_iff, implies_true, and_true]
    exact ⟨hoff _, hoff _, hoff _, hoff _⟩
  · exact congrArg s.ends ((Dev.whenUp_on hheld hruns _).trans (Dev.rampStep_held _ hfree))
  · have hfree := s.dev.start.rampStep_free hramping hstretched hclear
    exact ⟨fun h => congrArg s.ends ((Dev.whenUp_on hheld hruns _).trans (Dev.rampStep_reached _ hfree h16 h)),
      fun h => congrArg s.ends ((Dev.whenUp_on hheld hruns _).trans (Dev.rampStep_onward _ hfree h16 h))⟩
  · exact congrArg s.ends ((Dev.whenUp_on hheld hruns _).trans (Dev.droopTrip_eq _ _))
  · exact congrArg s.ends ((Dev.whenUp_on hheld hruns _).trans (Dev.droopClear_eq _ _ _))
  · have hexec : exec (.junctionSensorRead q ts) s = s.ends (s.dev.start.junctionRead (256 * q.toNat) ts) :=
      congrArg s.ends (Dev.whenUp_on hheld hruns _)
    obtain ⟨hunits, hnow, -⟩ := by simpa only [Prod.mk.injEq] using s.dev.start.junctionRead_kept (256 * q.toNat) ts
    have hhot := s.dev.start.junctionRead_hot q ts
    generalize s.dev.start.junctionRead (256 * q.toNat) ts = e at hexec hunits hnow hhot
    exact ⟨s.after e, ends_next hexec, s.after_mem _, s.after_pending _, hunits, hnow, hhot⟩
  · have hdie : 1024 * q.toNat ≤ 3072 := by have := q.isLt; omega
    have hexec : exec (.hbmTempRead q ts) s = s.ends (s.dev.start.hbmRead (1024 * q.toNat) ts) := congrArg s.ends (Dev.whenUp_on hheld hruns _)
    obtain ⟨hunits, hnow, -⟩ := by simpa only [Prod.mk.injEq] using s.dev.start.hbmRead_kept (1024 * q.toNat) ts
    have hhot := fun k => s.dev.start.hbmRead_hot hdie ts (k := k)
    generalize s.dev.start.hbmRead (1024 * q.toNat) ts = e at hexec hunits hnow hhot
    exact ⟨s.after e, ends_next hexec, s.after_mem _, s.after_pending _, hunits, hnow, hhot⟩
  · exact congrArg s.ends (Dev.whenUp_on hheld hruns _)
  · exact congrArg s.ends (Dev.whenUp_on hheld hruns _)
  · exact congrArg s.ends (Dev.whenUp_on hheld hruns _)
  · exact congrArg s.ends (if_pos hheld)
  · have hdie : 1024 * q.toNat ≤ 3072 := by have := q.isLt; omega
    have hexec : exec (.refclkLoss q) s = s.ends (s.dev.start.refclkLoss (1024 * q.toNat)) := rfl
    have hregs := s.dev.start.refclkLoss_registers hdie hheld
    generalize s.dev.start.refclkLoss (1024 * q.toNat) = e at hexec hregs
    exact ⟨s.after e, ends_next hexec, s.after_mem _, s.after_pending _, hregs⟩
  · have hdie : 1024 * q.toNat ≤ 3072 := by have := q.isLt; omega
    have hexec : exec (.dieManagerHung q) s = s.ends (s.dev.start.managerHung (1024 * q.toNat)) := congrArg s.ends (if_neg hlevel)
    have hregs := s.dev.start.managerHung_registers hdie
    generalize s.dev.start.managerHung (1024 * q.toNat) = e at hexec hregs
    exact ⟨s.after e, ends_next hexec, s.after_mem _, s.after_pending _, hregs⟩
  · have hexec : exec (.avsSample xs) s = s.ends (s.dev.start.avsSample xs) := congrArg s.ends (if_neg hlevel)
    have hregs := s.dev.start.avsSample_kept xs
    generalize s.dev.start.avsSample xs = e at hexec hregs
    exact ⟨s.after e, ends_next hexec, s.after_mem _, s.after_pending _, hregs⟩
  · have hexec : exec .measLoop s = s.ends s.dev.start.measLoop := congrArg s.ends (if_neg hlevel)
    have hregs := s.dev.start.measLoop_kept
    generalize s.dev.start.measLoop = e at hexec hregs
    exact ⟨s.after e, ends_next hexec, s.after_mem _, s.after_pending _, hregs⟩
  · exact congrArg s.ends ((if_neg hlevel).trans (Dev.recalibrate_off _ hoff))
  · have hexec : exec .recalibration s = s.ends s.dev.start.recalibrate := congrArg s.ends (if_neg hlevel)
    have hunits := congrArg Prod.fst (besidePower_units.recalibrate s.dev.start hquiet hdue)
    have hhour := congrArg (·.2.2) (besidePower_readings.recalibrate s.dev.start hquiet hdue)
    have hregs := s.dev.start.recalibrate_registers hquiet hdue
    generalize s.dev.start.recalibrate = e at hexec hregs hunits hhour
    exact ⟨s.after e, ends_next hexec, s.after_mem _, s.after_pending _, hunits, hhour, hregs⟩
  · exact congrArg s.ends ((if_neg hlevel).trans (Dev.recalibrate_unread _ hquiet hsuspect hreadings hmodel hmeasure))

end Sys2Proof.Machine

/-! Lease frames and trades (O55). -/

namespace Sys2Proof.Machine

/-! ## A fallback budget that its register is too narrow for -/

/-- The keeper runs, the wall time is in holdover, a window is held, and the word kept for the 16 bits of FALLBACK_W is 70,000: a state that no write
of the register makes, and that the statement, which is about every state, does not leave out. -/
def wideFallback : State :=
  let d : Dev := { power := { windows := [⟨0, 60, 0, 0, 0, 0⟩] } }
  let d := (d.p Reg.BRINGUP_LEVEL 1).wr Reg.HOST_PTP_WALL_STATE (hostInst 4) 3
  { mem := [], pending := [], dev := { d with regs := SMap.put d.regs (Reg.LEASE_FALLBACK_W.key pgLease 0) 70000 } }

theorem wideFallback_level : wideFallback.dev.start.level ≠ 0 := by decide +kernel

theorem wideFallback_wallState : wideFallback.dev.start.wallState = 3 := by decide +kernel

/-- B_EFF takes the low 16 bits of the budget. -/
theorem wideFallback_budget : wideFallback.dev.start.leaseHoldover.g Reg.LEASE_B_EFF ≠ wideFallback.dev.start.leaseHoldover.g Reg.LEASE_FALLBACK_W := by
  decide +kernel

/-- Refutes O55: after 600 s of holdover B_EFF is cut to the width of its register, and FALLBACK_W, which is read uncut, can hold more. -/
theorem not_leasesAndTrades : ¬ Obligations.LeasesAndTrades := by
  intro h
  obtain ⟨-, -, hkept, -⟩ := h wideFallback
  obtain ⟨-, hholdover, -⟩ := hkept wideFallback_level
  obtain ⟨t, hexec, -, -, -, -, hbudget, -⟩ := hholdover wideFallback_wallState
  obtain ⟨-, hsame, -⟩ := hbudget (List.cons_ne_nil _ _)
  have hends : exec .leaseHoldoverLimit wideFallback = wideFallback.ends wideFallback.dev.start.leaseHoldover :=
    congrArg wideFallback.ends (if_neg wideFallback_level)
  have hne := wideFallback_budget
  generalize wideFallback.dev.start.leaseHoldover = e at hends hne
  obtain rfl : wideFallback.after e = t := Host.Outcome.next.inj ((ends_next hends).symm.trans hexec)
  exact hne hsame

end Sys2Proof.Machine

/-! Firmware, keys, quotes and energy records (O56). -/

namespace Sys2Proof.Machine

/-! ## Firmware -/

section
variable (d : Dev)

theorem Dev.fwStage_bad {mem : Mem} (h : d.imageCode (d.srcBytes mem (d.g Reg.FUSE_KEYS_STAGE_SPACE) (d.g Reg.FUSE_KEYS_STAGE_ADDR)
    (d.g Reg.FUSE_KEYS_STAGE_LEN)) ≠ 0) : d.fwStage mem =
      (Cc.done, (d.p Reg.FUSE_KEYS_STAGE_CODE (d.imageCode (d.srcBytes mem (d.g Reg.FUSE_KEYS_STAGE_SPACE) (d.g Reg.FUSE_KEYS_STAGE_ADDR)
        (d.g Reg.FUSE_KEYS_STAGE_LEN)))).raise pgFuseKeys 0x0E02 9 Sev.error (d.imageCode (d.srcBytes mem (d.g Reg.FUSE_KEYS_STAGE_SPACE)
          (d.g Reg.FUSE_KEYS_STAGE_ADDR) (d.g Reg.FUSE_KEYS_STAGE_LEN)))) := if_pos h

/-- The image in the inactive slot. -/
def Dev.imageStaged (d : Dev) (m : List Byte) : Dev :=
  let d := d.p Reg.FUSE_KEYS_STAGE_CODE 0
  let d := { d with sec := { d.sec with images := SMap.put d.sec.images (1 - d.g Reg.FUSE_KEYS_FW_ACTIVE) m, entered := false } }
  (d.p Reg.FUSE_KEYS_FW_PENDING 1).raise pgFuseKeys 0x0E03 10 Sev.info 0

theorem Dev.fwStage_sound {mem : Mem} (h : d.imageCode (d.srcBytes mem (d.g Reg.FUSE_KEYS_STAGE_SPACE) (d.g Reg.FUSE_KEYS_STAGE_ADDR)
    (d.g Reg.FUSE_KEYS_STAGE_LEN)) = 0) : d.fwStage mem =
      (Cc.done, d.imageStaged (d.srcBytes mem (d.g Reg.FUSE_KEYS_STAGE_SPACE) (d.g Reg.FUSE_KEYS_STAGE_ADDR) (d.g Reg.FUSE_KEYS_STAGE_LEN))) := by
  unfold Dev.fwStage
  simp only [h]
  exact if_neg fun hne => hne rfl

theorem Dev.imageStaged_registers (m : List Byte) : (d.imageStaged m).out = d.out ∧ (d.imageStaged m).g Reg.FUSE_KEYS_STAGE_CODE = 0 ∧
    (d.imageStaged m).g Reg.FUSE_KEYS_FW_PENDING = 1 ∧ SMap.find (d.imageStaged m).sec.images (1 - d.g Reg.FUSE_KEYS_FW_ACTIVE) = some m ∧
    bit ((d.imageStaged m).hd Hdr.EVT_BLOCK pgFuseKeys) 2 = true := by
  have hactive : (d.p Reg.FUSE_KEYS_STAGE_CODE 0).g Reg.FUSE_KEYS_FW_ACTIVE = d.g Reg.FUSE_KEYS_FW_ACTIVE := d.g_p_ne 0 (by decide)
  unfold Dev.imageStaged
  refine ⟨Dev.raise_out _ _ _ _ _ _, ?_, ?_, ?_, Dev.raise_block_bit _ (pos := 10) _ _ _ (by decide) (by decide)⟩
  · exact (Dev.g_raise_body _ _ _ _ _ _ (by decide)).trans ((Dev.g_p_ne _ _ (by decide)).trans
      (d.g_p_same 0 (f := Reg.FUSE_KEYS_STAGE_CODE) (by decide) (by decide)))
  · exact (Dev.g_raise_body _ _ _ _ _ _ (by decide)).trans (Dev.g_p_same _ 1 (f := Reg.FUSE_KEYS_FW_PENDING) (by decide) (by decide))
  · rw [Dev.raise_sec, ← hactive]
    exact SMap.find_put_same _ _ _

/-- The slots that the running image revokes, and that were not revoked before. -/
def Dev.newRevoked (d : Dev) : List Nat :=
  (List.range 4).filter fun i => bit (fwRevoke (SMap.at d.sec.images (d.g Reg.FUSE_KEYS_FW_ACTIVE) [])) i && ! bit (d.g Reg.FUSE_KEYS_SLOT_REVOKED) i

/-- The running image confirmed, before what it revokes is reported. -/
def Dev.imageConfirmed (d : Dev) : Dev :=
  let m := SMap.at d.sec.images (d.g Reg.FUSE_KEYS_FW_ACTIVE) []
  let old := d.g Reg.FUSE_KEYS_SLOT_REVOKED
  let new := d.newRevoked
  let d := (d.p Reg.FUSE_KEYS_SVN (max (d.g Reg.FUSE_KEYS_SVN) (fwSvn m))).p Reg.FUSE_KEYS_SLOT_REVOKED (new.foldl setBit old)
  let d := { d with sec := { d.sec with confirmed := d.g Reg.FUSE_KEYS_FW_ACTIVE, entered := false } }
  (d.p Reg.FUSE_KEYS_FW_CONFIRMED 1).p Reg.FUSE_KEYS_FW_PENDING 0

theorem Dev.fwConfirm_eq (h : d.g Reg.FUSE_KEYS_FW_CONFIRMED ≠ 1) : d.fwConfirm =
    (Cc.done, d.newRevoked.foldl (fun d i => d.raise pgFuseKeys 0x0E0B 13 Sev.info i) d.imageConfirmed) := if_neg h

theorem Dev.fwConfirm_registers (h : d.g Reg.FUSE_KEYS_FW_CONFIRMED ≠ 1) : d.fwConfirm.1 = 0 ∧ d.fwConfirm.2.out = d.out ∧
    d.fwConfirm.2.g Reg.FUSE_KEYS_FW_CONFIRMED = 1 ∧ d.fwConfirm.2.g Reg.FUSE_KEYS_FW_PENDING = 0 ∧
    d.fwConfirm.2.sec.confirmed = d.g Reg.FUSE_KEYS_FW_ACTIVE ∧ d.fwConfirm.2.g Reg.FUSE_KEYS_SVN =
      max (d.g Reg.FUSE_KEYS_SVN) (fwSvn (SMap.at d.sec.images (d.g Reg.FUSE_KEYS_FW_ACTIVE) [])) % 2 ^ Reg.FUSE_KEYS_SVN.width := by
  have hg (g : Field) (hg : inBody g = true) :
      (d.newRevoked.foldl (fun d i => d.raise pgFuseKeys 0x0E0B 13 Sev.info i) d.imageConfirmed).g g = d.imageConfirmed.g g :=
    foldl_keeps (fun e : Dev => e.g g) _ (fun e i => e.g_raise_body _ _ _ _ _ hg) _ _
  have hsec : (d.newRevoked.foldl (fun d i => d.raise pgFuseKeys 0x0E0B 13 Sev.info i) d.imageConfirmed).sec = d.imageConfirmed.sec :=
    foldl_keeps Dev.sec _ (fun e i => e.raise_sec _ _ _ _ _) _ _
  rw [d.fwConfirm_eq h]
  refine ⟨rfl, foldl_keeps Dev.out _ (fun e i => e.raise_out _ _ _ _ _) _ _, (hg _ (by decide)).trans ?_, (hg _ (by decide)).trans ?_, ?_,
    (hg _ (by decide)).trans ?_⟩
  · exact (Dev.g_p_ne _ _ (by decide)).trans (Dev.g_p_same _ 1 (f := Reg.FUSE_KEYS_FW_CONFIRMED) (by decide) (by decide))
  · exact Dev.g_p_same _ 0 (f := Reg.FUSE_KEYS_FW_PENDING) (by decide) (by decide)
  · refine (congrArg SecSt.confirmed hsec).trans ?_
    exact (Dev.g_p_ne _ _ (by decide)).trans (d.g_p_ne _ (by decide))
  · refine (Dev.g_p_ne _ _ (by decide)).trans ((Dev.g_p_ne _ _ (by decide)).trans ((Dev.g_p_ne (d.p Reg.FUSE_KEYS_SVN _) _ (by decide)).trans ?_))
    exact d.g_p_same _ (f := Reg.FUSE_KEYS_SVN) (by decide) (by decide)

end

/-! ## The lease page -/

section
variable {β : Type} {p : Dev → β} (hp : BesideRegs p) (hstep : ∀ (d : Dev) x, p { d with step := x } = p d)
include hp

theorem BesideRegs.subst (d : Dev) (row : Nat) (on : Bool) : p (d.subst row on) = p d := by
  unfold Dev.subst
  simp only [apply_ite p, Dev.count, Dev.p, Dev.wr, hp.set, ite_self]

include hstep

/-- The view of the held windows changes registers, event queues and the vote. -/
theorem BesideRegs.leaseView (d : Dev) : p d.leaseView = p d := by
  unfold Dev.leaseView
  extract_lets was w st b d1 d2 d3 d4 d5
  have h4 : p d4 = p d := by simp only [d4, d3, d2, d1, hp.subst, Dev.p, Dev.wr, hp.set]
  have hregions (e : Dev) (xs : List Nat) : p (xs.foldl (fun d r => d.wr Reg.RCLOCK_SHELF r 0) e) = p e :=
    foldl_keeps p _ (fun e r => hp.set _ _ _ _ _) _ _
  have hdies (e : Dev) (xs : List Nat) : p (xs.foldl (fun d die => if d.rd Reg.THERMAL_SHELF_FORCED die = 1 then d else
      (regionsOf die).foldl (fun d r => d.wr Reg.RCLOCK_SHELF r 0) d) e) = p e :=
    foldl_keeps p _ (fun e die => by simp only [apply_ite p, hregions, ite_self]) _ _
  have h5 : p d5 = p d := by
    simp only [d5, apply_ite p, hdies, Dev.voteFail, hp.voteFor hstep, foldl_keeps p _ hp.shelveRegion, h4, ite_self]
  simp only [apply_ite p, hp.raise, h5, ite_self]

end

/-- The fields of the lease page that the view of the held windows writes, and the input conditioner's. -/
def leaseFields : List Field :=
  [Reg.LEASE_AVG_W, Reg.LEASE_PEAK_W, Reg.LEASE_B_EFF, Reg.LEASE_P_EFF, Reg.LEASE_STATE, Reg.LEASE_END_MIN, Reg.LEASE_WINDOWS,
    Reg.INPUT_COND_SUBST, Reg.INPUT_COND_SUBST_COUNT]

/-- A register of a package page that the view of the held windows leaves alone. -/
def offLease (g : Field) : Bool := offShelf g && g.pg 0 != pageNum 8 0 2 && leaseFields.all fun f => fieldsApart f g

theorem Dev.g_leaseView (d : Dev) {g : Field} (hg : offLease g = true) : d.leaseView.g g = d.g g := by
  obtain ⟨⟨hshelf, hpg⟩, hfields⟩ := by simpa only [offLease, Bool.and_eq_true] using hg
  obtain ⟨⟨⟨hregion, -⟩, -⟩, hbody⟩ := by simpa only [offShelf, Bool.and_eq_true] using hshelf
  have hp (e : Dev) (f : Field) (v : Nat) (hf : f ∈ leaseFields) : (e.p f v).g g = e.g g := e.g_p_ne v (List.all_eq_true.1 hfields f hf)
  have hsubst (e : Dev) (row : Nat) (on : Bool) : (e.subst row on).g g = e.g g :=
    e.rd_subst row on (List.all_eq_true.1 hfields _ (by simp [leaseFields])) (List.all_eq_true.1 hfields _ (by simp [leaseFields])) (by decide)
  have hinRegions (e : Dev) : ∀ r ∈ e.inRegions, r < 4096 := fun r hr => by
    obtain ⟨k, hk, rfl⟩ := List.mem_map.1 (List.mem_filter.1 hr).1
    have := List.mem_range.1 hk
    omega
  have hregions (e : Dev) (xs : List Nat) (hxs : ∀ r ∈ xs, r < 4096) : (xs.foldl (fun d r => d.wr Reg.RCLOCK_SHELF r 0) e).g g = e.g g := by
    obtain ⟨-, hclock⟩ := by simpa only [offRegion, Bool.and_eq_true] using hregion
    exact foldl_keeps_mem (fun e : Dev => e.g g) _ _ (fun e r hr => e.rd_wr_fields 0 hclock (hxs r hr) (by decide)) _
  unfold Dev.leaseView
  extract_lets was w st b d1 d2 d3 d4 d5
  have h4 : d4.g g = d.g g := by
    simp only [d4, d3, d2, d1]
    rw [hsubst, hp _ _ _ (by simp [leaseFields]), hp _ _ _ (by simp [leaseFields]), hp _ _ _ (by simp [leaseFields]), hp _ _ _ (by simp [leaseFields]),
      hp _ _ _ (by simp [leaseFields]), hp _ _ _ (by simp [leaseFields]), hp _ _ _ (by simp [leaseFields])]
  have h5 : d5.g g = d.g g := by
    simp only [d5]
    split
    · refine (foldl_keeps_mem (fun e : Dev => e.g g) _ _ (fun e die hdie => ?_) _).trans h4
      split
      · rfl
      · exact hregions _ _ fun r hr => lt_of_mem_regionsOf (d4.mem_inDies hdie) hr
    · split
      · refine (Dev.rd_voteFor _ _ _ _ (of_decide_eq_true hbody).2 (bne_iff_ne.1 hpg)).trans (Eq.trans ?_ h4)
        exact foldl_keeps_mem (fun e : Dev => e.g g) _ _ (fun e r hr => e.rd_shelveRegion hregion (hinRegions d4 r hr) (by decide)) _
      · exact h4
  split
  · exact (Dev.g_raise_body _ _ _ _ _ _ hbody).trans h5
  · exact h5

/-! ## Key blocks -/

theorem leNat_lt (bs : List Byte) : leNat bs < 256 ^ bs.length := by
  induction bs with
  | nil => exact Nat.one_pos
  | cons b bs ih =>
    have hb := b.isLt
    rw [leNat, List.length_cons, Nat.pow_succ]
    omega

theorem fld_lt (b : List Byte) (o n : Nat) : fld b o n < 256 ^ n :=
  Nat.lt_of_lt_of_le (leNat_lt _) (Nat.pow_le_pow_right (by decide) (List.length_take_le ..))

section
variable (d : Dev)

/-- A key block of a kind taken as it is written, while provisioning is not locked. -/
def Dev.keySet (d : Dev) (kind : Nat) : Dev :=
  let m := d.keyBlock
  let d := d.p Reg.FUSE_KEYS_KEY_CODE 0
  let v := (m.drop 0x10).take 32
  if kind = 1 then { d with sec := { d.sec with leaseKey := some v } }
  else if kind = 2 then { d with sec := { d.sec with resetKey := some v } }.xportAll Reg.HOST_XPORT_RESET_KEY 1
  else if kind = 3 then { d with sec := { d.sec with cak := some (v, (m.drop 0x30).take 16) } }
  else if kind = 4 then ({ d with sec := { d.sec with fallbackSet := true } }.p Reg.LEASE_FALLBACK_W (fld m 0x10 2)).leaseView
  else (d.p Reg.FUSE_KEYS_PROV_LOCK 1).p Reg.FUSE_KEYS_JTAG_LOCK (max (d.g Reg.FUSE_KEYS_JTAG_LOCK) (bits (fld m 0 1) 4 1))

theorem Dev.keyGoKind_other {kind : Nat} (h : fld d.keyBlock 0 1 % 16 ≠ kind) : d.keyGoKind kind = (Cc.done, d) := if_neg h

theorem Dev.keyGoKind_refused {kind : Nat} (hkind : fld d.keyBlock 0 1 % 16 = kind) (hcode : d.keyCode d.keyBlock ≠ 0) : d.keyGoKind kind =
    (Cc.done, (d.p Reg.FUSE_KEYS_KEY_CODE (d.keyCode d.keyBlock)).raise pgFuseKeys 0x0E05 12 Sev.warn (kind + 256 * d.keyCode d.keyBlock)) := by
  refine (if_pos hkind).trans ((if_pos hcode).trans ?_)
  rw [hkind]

theorem Dev.keyGoKind_accepted {kind : Nat} (hkind : fld d.keyBlock 0 1 % 16 = kind) (hcode : d.keyCode d.keyBlock = 0)
    (hlock : d.g Reg.FUSE_KEYS_PROV_LOCK ≠ 1) : d.keyGoKind kind = (Cc.done, (d.keySet kind).raise pgFuseKeys 0x0E04 11 Sev.info kind) := by
  have hunlocked : (d.p Reg.FUSE_KEYS_KEY_CODE 0).g Reg.FUSE_KEYS_PROV_LOCK ≠ 1 := by
    rw [d.g_p_ne 0 (by decide)]
    exact hlock
  have hwrapped (kind : Nat) : ¬ ((d.p Reg.FUSE_KEYS_KEY_CODE 0).g Reg.FUSE_KEYS_PROV_LOCK = 1 ∧ kind ≠ 5) := fun h => hunlocked h.1
  refine (if_pos hkind).trans ?_
  unfold Dev.keyGo
  simp only [hcode, hkind, if_neg hunlocked, if_neg (hwrapped kind), if_neg (show ¬ ((0 : Nat) ≠ 0) from fun h => h rfl)]
  rfl

theorem Dev.keySet_reset : d.keySet 2 = ({ d.p Reg.FUSE_KEYS_KEY_CODE 0 with sec := { d.sec with
    resetKey := some ((d.keyBlock.drop 0x10).take 32) } } : Dev).xportAll Reg.HOST_XPORT_RESET_KEY 1 := rfl

theorem Dev.keySet_fallback : d.keySet 4 = (({ d.p Reg.FUSE_KEYS_KEY_CODE 0 with sec := { d.sec with fallbackSet := true } } : Dev).p
    Reg.LEASE_FALLBACK_W (fld d.keyBlock 0x10 2)).leaseView := rfl

theorem Dev.keySet_lock : d.keySet 5 = ((d.p Reg.FUSE_KEYS_KEY_CODE 0).p Reg.FUSE_KEYS_PROV_LOCK 1).p Reg.FUSE_KEYS_JTAG_LOCK
    (max ((d.p Reg.FUSE_KEYS_KEY_CODE 0).g Reg.FUSE_KEYS_JTAG_LOCK) (bits (fld d.keyBlock 0 1) 4 1)) := rfl

/-- What a key block of a kind keeps of the keys and of the answers. -/
theorem Dev.keySet_keys {kind : Nat} (hlo : 1 ≤ kind) (hhi : kind ≤ 5) : (d.keySet kind).out = d.out ∧
    (d.keySet kind).sec.leaseKey = (if kind = 1 then some ((d.keyBlock.drop 0x10).take 32) else d.sec.leaseKey) ∧
    (d.keySet kind).sec.resetKey = (if kind = 2 then some ((d.keyBlock.drop 0x10).take 32) else d.sec.resetKey) ∧
    (d.keySet kind).sec.cak = (if kind = 3 then some ((d.keyBlock.drop 0x10).take 32, (d.keyBlock.drop 0x30).take 16) else d.sec.cak) := by
  have hparts : BesideRegs fun e : Dev => (e.out, e.sec) := ⟨fun _ _ _ _ _ => rfl, fun _ _ => rfl⟩
  have hxport (e : Dev) : (fun e : Dev => (e.out, e.sec)) (e.xportAll Reg.HOST_XPORT_RESET_KEY 1) = (e.out, e.sec) :=
    foldl_keeps (fun e : Dev => (e.out, e.sec)) _ (fun e p => hparts.set _ _ _ _ _) _ _
  have hview (e : Dev) : (fun e : Dev => (e.out, e.sec)) e.leaseView = (e.out, e.sec) := hparts.leaseView (fun _ _ => rfl) e
  obtain rfl | rfl | rfl | rfl | rfl : kind = 1 ∨ kind = 2 ∨ kind = 3 ∨ kind = 4 ∨ kind = 5 := by omega
  case inr.inl =>
    rw [d.keySet_reset]
    obtain ⟨hout, hsec⟩ := Prod.mk.inj (hxport ({ d.p Reg.FUSE_KEYS_KEY_CODE 0 with sec := { d.sec with
      resetKey := some ((d.keyBlock.drop 0x10).take 32) } } : Dev))
    rw [hout, hsec]
    exact ⟨rfl, rfl, rfl, rfl⟩
  case inr.inr.inr.inl =>
    rw [d.keySet_fallback]
    obtain ⟨hout, hsec⟩ := Prod.mk.inj (hview (({ d.p Reg.FUSE_KEYS_KEY_CODE 0 with sec := { d.sec with fallbackSet := true } } : Dev).p
      Reg.LEASE_FALLBACK_W (fld d.keyBlock 0x10 2)))
    rw [hout, hsec]
    exact ⟨rfl, rfl, rfl, rfl⟩
  all_goals exact ⟨rfl, rfl, rfl, rfl⟩

theorem Dev.keySet_budget : (d.keySet 4).g Reg.LEASE_FALLBACK_W = fld d.keyBlock 0x10 2 % 2 ^ 16 := by
  rw [d.keySet_fallback]
  exact (Dev.g_leaseView _ (by decide)).trans (Dev.g_p_same _ _ (f := Reg.LEASE_FALLBACK_W) (by decide) (by decide))

theorem Dev.keySet_locked {kind : Nat} (hlo : 1 ≤ kind) (hhi : kind ≤ 5) :
    (d.keySet kind).g Reg.FUSE_KEYS_PROV_LOCK = (if kind = 5 then 1 else d.g Reg.FUSE_KEYS_PROV_LOCK) := by
  have hlock : (d.p Reg.FUSE_KEYS_KEY_CODE 0).g Reg.FUSE_KEYS_PROV_LOCK = d.g Reg.FUSE_KEYS_PROV_LOCK := d.g_p_ne 0 (by decide)
  obtain rfl | rfl | rfl | rfl | rfl : kind = 1 ∨ kind = 2 ∨ kind = 3 ∨ kind = 4 ∨ kind = 5 := by omega
  case inr.inl =>
    rw [d.keySet_reset]
    exact (foldl_keeps (fun e : Dev => e.g Reg.FUSE_KEYS_PROV_LOCK) _ (fun e p => e.rd_wr_apart _ _ _ (by decide)) _ _).trans hlock
  case inr.inr.inr.inl =>
    rw [d.keySet_fallback]
    exact (Dev.g_leaseView _ (by decide)).trans ((Dev.g_p_ne _ _ (by decide)).trans hlock)
  case inr.inr.inr.inr =>
    rw [d.keySet_lock]
    exact (Dev.g_p_ne _ _ (by decide)).trans (Dev.g_p_same _ 1 (f := Reg.FUSE_KEYS_PROV_LOCK) (by decide) (by decide))
  all_goals exact hlock

/-! ## Quotes -/

/-- What a refused quote leaves. -/
def Dev.quoteRefused (d : Dev) (n : Nat) : Dev :=
  ((d.p Reg.ATTEST_STATE 3).p Reg.ATTEST_REASON n).raise pgAttest 0x0E07 9 Sev.warn n

/-- The quotes of the last hour. -/
def Dev.quotesNow (d : Dev) : List Nat := d.sec.quotes.filter fun t => decide (d.now < t + ms 3600000)

theorem Dev.attestRequest_rate (h : d.g Reg.ATTEST_RATE ≤ d.quotesNow.length) : d.attestRequest = (Cc.done, d.quoteRefused 1) := if_pos h

theorem Dev.attestRequest_budget (h : d.quotesNow.length < d.g Reg.ATTEST_RATE) (hleft : d.g Reg.IDENT_REMAINING ≤ 8192) :
    d.attestRequest = (Cc.done, d.quoteRefused 2) := (if_neg (Nat.not_le_of_lt h)).trans (if_pos hleft)

theorem Dev.attestRequest_open (h : d.quotesNow.length < d.g Reg.ATTEST_RATE) (hleft : 8192 < d.g Reg.IDENT_REMAINING) (hnonce : d.sec.nonce ≠ none) :
    d.attestRequest = (Cc.done, d.quoteRefused 3) :=
  (if_neg (Nat.not_le_of_lt h)).trans ((if_neg (Nat.not_le_of_lt hleft)).trans (if_pos (Option.isSome_iff_ne_none.2 hnonce)))

theorem Dev.attestRequest_begins (h : d.quotesNow.length < d.g Reg.ATTEST_RATE) (hleft : 8192 < d.g Reg.IDENT_REMAINING) (hnonce : d.sec.nonce = none) :
    d.attestRequest = (Cc.done, (({ d with sec := { d.sec with nonce := some ((List.range 8).map fun i => natLe 4 (d.g Reg.ATTEST_NONCE i)).flatten } } :
      Dev).p Reg.ATTEST_STATE 1).p Reg.ATTEST_REASON 0) :=
  (if_neg (Nat.not_le_of_lt h)).trans ((if_neg (Nat.not_le_of_lt hleft)).trans (if_neg (by simp [hnonce])))

/-- The quote that is being signed joins those of the last hour. -/
def Dev.quoteTaken (d : Dev) : Dev :=
  let d := d.takeIndex.2
  let d := { d with sec := { d.sec with nonce := none, quotes := d.now :: d.quotesNow } }
  (d.p Reg.ATTEST_STATE 2).count Reg.ATTEST_QUOTES 0

theorem Dev.quoteSigned_some (h : d.sec.nonce ≠ none) : ∃ obj, d.quoteSigned =
    (d.quoteTaken.record 3 obj).raise pgAttest 0x0E06 8 Sev.info (d.g Reg.IDENT_NEXT_INDEX) := by
  unfold Dev.quoteSigned
  split
  · contradiction
  · exact ⟨_, rfl⟩

theorem besideHost_sec : BesideHost Dev.sec := BesideRegs.host ⟨fun _ _ _ _ _ => rfl, fun _ _ => rfl⟩ (fun _ _ _ => rfl) fun _ _ => rfl

theorem Dev.quoteSigned_registers (h : d.sec.nonce ≠ none) : d.quoteSigned.sec.nonce = none ∧ d.quoteSigned.g Reg.ATTEST_STATE = 2 ∧
    d.quoteSigned.g Reg.IDENT_NEXT_INDEX = (d.g Reg.IDENT_NEXT_INDEX + 1) % 2 ^ Reg.IDENT_NEXT_INDEX.width ∧
    d.quoteSigned.sec.quotes = d.now :: d.quotesNow ∧ bit (d.quoteSigned.hd Hdr.EVT_BLOCK pgAttest) 0 = true := by
  obtain ⟨obj, heq⟩ := d.quoteSigned_some h
  have hsec : d.quoteSigned.sec = d.quoteTaken.sec := by
    rw [heq, Dev.raise_sec]
    exact besideHost_sec.record _ _ _
  have hg (g : Field) (hbody : inBody g = true) (htx : offTx g = true) : d.quoteSigned.g g = d.quoteTaken.g g := by
    rw [heq]
    exact (Dev.g_raise_body _ _ _ _ _ _ hbody).trans ((besideHost_rd htx 0).record _ _ _)
  refine ⟨congrArg SecSt.nonce hsec, (hg _ (by decide) (by decide)).trans ?_, (hg _ (by decide) (by decide)).trans ?_,
    (congrArg SecSt.quotes hsec).trans rfl, ?_⟩
  · exact (Dev.g_p_ne _ _ (by decide)).trans (Dev.g_p_same _ 2 (f := Reg.ATTEST_STATE) (by decide) (by decide))
  · refine (Dev.g_p_ne _ _ (by decide)).trans ((Dev.g_p_ne _ _ (by decide)).trans ((Dev.g_p_ne (d.p Reg.IDENT_NEXT_INDEX _) _ (by decide)).trans ?_))
    exact d.g_p_same _ (f := Reg.IDENT_NEXT_INDEX) (by decide) (by decide)
  · rw [heq]
    exact Dev.raise_block_bit _ (pos := 8) _ _ _ (by decide) (by decide)

theorem Dev.sigBudget_off (h : 65536 < d.g Reg.IDENT_REMAINING ∨ ∃ t, d.sec.budgetAt = some t ∧ d.now < t + ms 86400000) : d.sigBudget = d := by
  refine if_neg fun hboth => ?_
  obtain ⟨hfew, hdue⟩ := Bool.and_eq_true_iff.1 hboth
  rcases h with h | ⟨t, ht, hnow⟩
  · exact absurd (of_decide_eq_true hfew) (Nat.not_le_of_lt h)
  · rw [ht] at hdue
    exact absurd (of_decide_eq_true hdue) (Nat.not_le_of_lt hnow)

theorem Dev.sigBudget_due (h : d.g Reg.IDENT_REMAINING ≤ 65536) (hdue : ∀ t, d.sec.budgetAt = some t → t + ms 86400000 ≤ d.now) : d.sigBudget =
    ({ d with sec := { d.sec with budgetAt := some d.now } } : Dev).raise pgIdent 0x0E08 8 Sev.warn (d.g Reg.IDENT_REMAINING) := by
  refine if_pos (Bool.and_eq_true_iff.2 ⟨decide_eq_true h, ?_⟩)
  split
  · next t ht => exact decide_eq_true (hdue t ht)
  · rfl

/-! ## Energy records -/

/-- The registers of a closed minute. -/
def Dev.minuteShown (d : Dev) (minute : Nat) (h : List Byte) (oldest : Nat) : Dev :=
  let d := ((d.p64 Reg.ENERGY_REC_SEQ_LO Reg.ENERGY_REC_SEQ_HI d.sec.nextSeq).p Reg.ENERGY_REC_MINUTE minute)
  let d := (List.range 8).foldl (fun d i => d.p Reg.ENERGY_REC_HEAD (fld h (4 * i) 4) i) d
  d.p64 Reg.ENERGY_REC_OLDEST_LO Reg.ENERGY_REC_OLDEST_HI oldest

/-- The records kept with one more. -/
def Dev.recordsWith (d : Dev) (r : List Byte) : List (Nat × List Byte) :=
  (d.sec.records ++ [(d.sec.nextSeq, r)]).drop ((d.sec.records ++ [(d.sec.nextSeq, r)]).length - 4096)

/-- Records that leave undelivered are counted and reported. -/
def Dev.recordsLost (d : Dev) (n : Nat) : Dev :=
  if n = 0 then d
  else (d.bump Reg.ENERGY_REC_UNDELIVERED 0 n).raise pgEnergyRec 0x0E0A 8 Sev.warn ((d.bump Reg.ENERGY_REC_UNDELIVERED 0 n).g Reg.ENERGY_REC_UNDELIVERED)

theorem Dev.closeMinute_eq (minute : Nat) : ∃ r h oldest e x n, d.closeMinute minute = ((e.recordsLost n).record 2 r).signChain d.sec.nextSeq ∧
    e = ({ d.minuteShown minute h oldest with sec := x } : Dev) ∧ x.nextSeq = d.sec.nextSeq + 1 ∧ x.records = d.recordsWith r := by
  unfold Dev.closeMinute
  extract_lets seq prev r h d1 d2 rs old kept lost d3 src d4 d5 d6
  have hsec : d2.sec = d.sec := 
    (foldl_keeps Dev.sec (fun (d : Dev) i => d.p Reg.ENERGY_REC_HEAD (fld h (4 * i) 4) i) (fun _ _ => rfl) _ d1).trans rfl
  have hrs : rs = d.sec.records ++ [(d.sec.nextSeq, r)] := by simp only [rs, hsec, seq]
  have hkept : kept = d.recordsWith r := by simp only [kept, hrs, Dev.recordsWith]
  clear_value kept lost old rs
  have hlost : d6 = d4.recordsLost lost.length := by
    unfold Dev.recordsLost
    simp only [d6, d5, List.length_eq_zero_iff]
  refine ⟨r, h, (kept.head?.map (·.1)).getD seq, d4, d4.sec, lost.length, ?_, rfl, rfl, hkept⟩
  rw [hlost]

/-- The records, and the time and the minute that they are dated by. -/
def Dev.chain (d : Dev) : Nat × Int × Nat × Nat × List (Nat × List Byte) :=
  (d.now, d.host.wallBase, d.power.minute, d.sec.nextSeq, d.sec.records)

theorem besideRegs_chain : BesideRegs Dev.chain := ⟨fun _ _ _ _ _ => rfl, fun _ _ => rfl⟩

theorem besideHost_chain : BesideHost Dev.chain := besideRegs_chain.host (fun d x h => by simp only [Dev.chain, h]) fun _ _ => rfl

theorem Dev.takeIndex_chain : d.takeIndex.2.chain = d.chain := rfl

/-- The registers of a signature block over the chain's head. -/
def Dev.indexSigned (d : Dev) (seq : Nat) : Dev := d.takeIndex.2.p64 Reg.ENERGY_REC_SIGNED_LO Reg.ENERGY_REC_SIGNED_HI seq

theorem Dev.signChain_signs {seq : Nat} (hturn : seq % 16 = 15) (hleft : d.g Reg.IDENT_REMAINING ≠ 0) : ∃ bs blk, d.signChain seq =
    Dev.record { d.indexSigned seq with sec := { d.sec with blocks := bs } } 2 blk :=
  ⟨_, _, (if_neg (not_not.2 hturn)).trans ((if_neg hleft).trans rfl)⟩

theorem Dev.signChain_chain (seq : Nat) : (d.signChain seq).chain = d.chain := by
  by_cases hturn : seq % 16 = 15
  · by_cases hleft : d.g Reg.IDENT_REMAINING = 0
    · rw [Dev.signChain, if_neg (not_not.2 hturn), if_pos hleft]
      exact besideRegs_chain.raise _ _ _ _ _ _
    · obtain ⟨bs, blk, heq⟩ := d.signChain_signs hturn hleft
      rw [heq, besideHost_chain.record]
      rfl
  · rw [Dev.signChain, if_pos hturn]

theorem Dev.recordsLost_chain (n : Nat) : (d.recordsLost n).chain = d.chain := by
  unfold Dev.recordsLost
  split
  · rfl
  · exact (besideRegs_chain.raise _ _ _ _ _ _).trans (besideRegs_chain.set _ _ _ _ _)

theorem Dev.minuteShown_chain (minute : Nat) (h : List Byte) (oldest : Nat) : (d.minuteShown minute h oldest).chain = d.chain := by
  unfold Dev.minuteShown
  simp only [Dev.p64, Dev.p, Dev.wr, besideRegs_chain.set, foldl_keeps Dev.chain _ (fun e i => besideRegs_chain.set e _ _ _ _)]

theorem Dev.closeMinute_chain (minute : Nat) : ∃ r, (d.closeMinute minute).chain =
    (d.now, d.host.wallBase, d.power.minute, d.sec.nextSeq + 1, d.recordsWith r) := by
  obtain ⟨r, h, oldest, e, x, n, heq, rfl, hnext, hrecords⟩ := d.closeMinute_eq minute
  obtain ⟨hnow, hwall, hminute, -⟩ := by simpa only [Dev.chain, Prod.mk.injEq] using d.minuteShown_chain minute h oldest
  refine ⟨r, ?_⟩
  rw [heq, Dev.signChain_chain, besideHost_chain.record, Dev.recordsLost_chain]
  unfold Dev.chain
  simp only [hnow, hwall, hminute, hnext, hrecords]

/-- The registers that follow a record, beside those of its number. -/
def chainFields : List Field :=
  [Reg.ENERGY_REC_MINUTE, Reg.ENERGY_REC_OLDEST_LO, Reg.ENERGY_REC_OLDEST_HI, Reg.ENERGY_REC_UNDELIVERED, Reg.ENERGY_REC_SIGNED_LO,
    Reg.ENERGY_REC_SIGNED_HI, Reg.IDENT_NEXT_INDEX, Reg.IDENT_REMAINING, Reg.TRADE_LENT_W, Reg.TRADE_BORROWED_W, Reg.TRADE_POOL_LEFT_W]

/-- A register that stands apart from them, from the chain's head and from what leaves on the host ports. -/
def offChain (g : Field) : Bool :=
  inBody g && offTx g && chainFields.all (fieldsApart · g) &&
    (List.range 8).all fun i => decide (Reg.ENERGY_REC_HEAD.place i < 131072 ∧ Reg.ENERGY_REC_HEAD.place i ≠ g.place 0)

section
variable {g : Field} (hg : offChain g = true)
include hg

theorem Dev.g_p_chain {f : Field} (hf : f ∈ chainFields) (v : Nat) : (d.p f v).g g = d.g g := by
  obtain ⟨⟨-, hfields⟩, -⟩ := by simpa only [offChain, Bool.and_eq_true] using hg
  exact d.g_p_ne v (List.all_eq_true.1 hfields f hf)

theorem Dev.g_raise_chain (pg code pos sev detail : Nat) : (d.raise pg code pos sev detail).g g = d.g g := by
  obtain ⟨⟨⟨hbody, -⟩, -⟩, -⟩ := by simpa only [offChain, Bool.and_eq_true] using hg
  exact d.g_raise_body _ _ _ _ _ hbody

theorem besideHost_chainField : BesideHost fun e : Dev => e.g g := by
  obtain ⟨⟨⟨-, htx⟩, -⟩, -⟩ := by simpa only [offChain, Bool.and_eq_true] using hg
  exact besideHost_rd htx 0

theorem Dev.g_indexSigned (seq : Nat) : (d.indexSigned seq).g g = d.g g := by
  unfold Dev.indexSigned Dev.p64 Dev.takeIndex
  simp only
  rw [Dev.g_p_chain _ hg (by simp [chainFields]), Dev.g_p_chain _ hg (by simp [chainFields]), Dev.g_p_chain _ hg (by simp [chainFields]),
    Dev.g_p_chain _ hg (by simp [chainFields])]

theorem Dev.g_signChain (seq : Nat) : (d.signChain seq).g g = d.g g := by
  by_cases hturn : seq % 16 = 15
  · by_cases hleft : d.g Reg.IDENT_REMAINING = 0
    · rw [Dev.signChain, if_neg (not_not.2 hturn), if_pos hleft]
      exact d.g_raise_chain hg _ _ _ _ _
    · obtain ⟨bs, blk, heq⟩ := d.signChain_signs hturn hleft
      rw [heq]
      exact ((besideHost_chainField hg).record _ _ _).trans (d.g_indexSigned hg seq)
  · rw [Dev.signChain, if_pos hturn]

theorem Dev.g_recordsLost (n : Nat) : (d.recordsLost n).g g = d.g g := by
  unfold Dev.recordsLost
  split
  · rfl
  · refine (Dev.g_raise_chain _ hg _ _ _ _ _).trans ?_
    rw [Dev.bump]
    exact d.g_p_chain hg (f := Reg.ENERGY_REC_UNDELIVERED) (by simp [chainFields]) _

theorem Dev.g_minuteShown (minute : Nat) (h : List Byte) (oldest : Nat) : (d.minuteShown minute h oldest).g g =
    (d.p64 Reg.ENERGY_REC_SEQ_LO Reg.ENERGY_REC_SEQ_HI d.sec.nextSeq).g g := by
  obtain ⟨⟨⟨hbody, -⟩, -⟩, hhead⟩ := by simpa only [offChain, Bool.and_eq_true] using hg
  have hcopies (e : Dev) : ((List.range 8).foldl (fun d i => d.p Reg.ENERGY_REC_HEAD (fld h (4 * i) 4) i) e).g g = e.g g := by
    refine foldl_keeps_mem (fun e : Dev => e.g g) _ _ (fun e i hi => ?_) e
    obtain ⟨hplace, hne⟩ := of_decide_eq_true (List.all_eq_true.1 hhead i hi)
    exact e.rd_wr_place 0 _ 0 (j := 0) hplace (of_decide_eq_true hbody).2 hne
  unfold Dev.minuteShown
  simp only
  refine (Dev.g_p_chain _ hg (f := Reg.ENERGY_REC_OLDEST_HI) (by simp [chainFields]) _).trans
    ((Dev.g_p_chain _ hg (f := Reg.ENERGY_REC_OLDEST_LO) (by simp [chainFields]) _).trans ((hcopies _).trans ?_))
  exact Dev.g_p_chain _ hg (by simp [chainFields]) _

theorem Dev.g_closeMinute (minute : Nat) : (d.closeMinute minute).g g =
    (d.p64 Reg.ENERGY_REC_SEQ_LO Reg.ENERGY_REC_SEQ_HI d.sec.nextSeq).g g := by
  obtain ⟨r, h, oldest, e, x, n, heq, rfl, -, -⟩ := d.closeMinute_eq minute
  rw [heq, Dev.g_signChain _ hg]
  refine ((besideHost_chainField hg).record _ _ _).trans ((Dev.g_recordsLost _ hg _).trans ?_)
  exact d.g_minuteShown hg minute h oldest

theorem Dev.g_endTrades (w : LeaseWin) : (d.endTrades w).g g = d.g g := by
  unfold Dev.endTrades
  extract_lets d1 d2
  have h1 : d1.g g = d.g g := by
    simp only [d1]
    split
    · split
      · exact (besideHost_chainField hg).queueMsg _ _ _ _
      · rfl
    · rfl
  refine (Dev.g_p_chain _ hg (f := Reg.TRADE_POOL_LEFT_W) (by simp [chainFields]) 0).trans ?_
  exact (Dev.g_p_chain _ hg (by simp [chainFields]) 0).trans ((Dev.g_p_chain _ hg (by simp [chainFields]) 0).trans h1)

end

theorem Dev.endTrades_chain (w : LeaseWin) : (d.endTrades w).chain = d.chain := by
  unfold Dev.endTrades
  extract_lets d1 d2
  show d1.chain = d.chain
  simp only [d1]
  split
  · split
    · exact besideHost_chain.queueMsg _ _ _ _
    · rfl
  · rfl

/-- The trades of the window that the minute ends. -/
def Dev.minuteTrades (d : Dev) (minute : Nat) : Dev :=
  let old := d.windowNow
  let d := { d with power := { d.power with minute := minute } }
  match old with
  | some w => if d.windowNow = some w then d else d.endTrades w
  | none => d

theorem Dev.leaseMinute_eq (minute : Nat) : ∃ ws, d.leaseMinute minute =
    ({ d.minuteTrades minute with power := { (d.minuteTrades minute).power with windows := ws } } : Dev).leaseView := ⟨_, rfl⟩

theorem Dev.minuteTrades_chain (minute : Nat) : (d.minuteTrades minute).chain = (d.now, d.host.wallBase, minute, d.sec.nextSeq, d.sec.records) := by
  unfold Dev.minuteTrades
  simp only
  split
  · split
    · rfl
    · exact (Dev.endTrades_chain _ _).trans rfl
  · rfl

theorem Dev.leaseMinute_chain (minute : Nat) : (d.leaseMinute minute).chain = (d.now, d.host.wallBase, minute, d.sec.nextSeq, d.sec.records) := by
  obtain ⟨ws, heq⟩ := d.leaseMinute_eq minute
  rw [heq]
  exact (besideRegs_chain.leaseView (fun _ _ => rfl) _).trans (d.minuteTrades_chain minute)

theorem Dev.g_leaseMinute {g : Field} (hg : offChain g = true) (hlease : offLease g = true) (minute : Nat) : (d.leaseMinute minute).g g = d.g g := by
  obtain ⟨ws, heq⟩ := d.leaseMinute_eq minute
  have htrades : (d.minuteTrades minute).g g = d.g g := by
    unfold Dev.minuteTrades
    simp only
    split
    · split
      · rfl
      · exact Dev.g_endTrades _ hg _
    · rfl
  rw [heq]
  exact (Dev.g_leaseView _ hlease).trans htrades

theorem Dev.passTo_sec (t : Nat) : (d.passTo t).sec = d.sec :=
  BesideRegs.passTo (p := Dev.sec) ⟨fun _ _ _ _ _ => rfl, fun _ _ => rfl⟩ (fun _ _ => rfl) (fun _ _ => rfl) (fun _ _ => rfl) d t

/-- The time that a minute boundary comes at. -/
def Dev.atMinute (d : Dev) : Dev :=
  if d.wallNs < 60 * 10 ^ 9 * (d.power.minute + 1) then d.passTo (d.now + (60 * 10 ^ 9 * (d.power.minute + 1) - d.wallNs + 99) / 100) else d

theorem Dev.atMinute_kept : d.now ≤ d.atMinute.now ∧ d.atMinute.sec = d.sec := by
  unfold Dev.atMinute
  split
  · exact ⟨(Nat.le_max_left ..).trans_eq (d.passTo_now _).symm,
      d.passTo_sec _⟩
  · exact ⟨le_rfl, rfl⟩

theorem Dev.minuteBoundary_eq : d.minuteBoundary =
    (d.atMinute.closeMinute (d.atMinute.wallNs / (60 * 10 ^ 9))).leaseMinute (d.atMinute.wallNs / (60 * 10 ^ 9)) := rfl

/-- What a minute boundary leaves, at the device `d` as it finds it. -/
theorem Dev.minuteTaken_kept (minute : Nat) : ((d.closeMinute minute).leaseMinute minute).now = d.now ∧
    ((d.closeMinute minute).leaseMinute minute).wallNs = d.wallNs ∧
    ((d.closeMinute minute).leaseMinute minute).power.minute = minute ∧
    ((d.closeMinute minute).leaseMinute minute).sec.nextSeq = d.sec.nextSeq + 1 ∧
    (∃ r, ((d.closeMinute minute).leaseMinute minute).sec.records = d.recordsWith r) ∧
    ((d.closeMinute minute).leaseMinute minute).g64 Reg.ENERGY_REC_SEQ_LO Reg.ENERGY_REC_SEQ_HI = d.sec.nextSeq % 2 ^ 64 := by
  obtain ⟨r, hclosed⟩ := d.closeMinute_chain minute
  obtain ⟨hnow, hwall, -, hnext, hrecords⟩ := by simpa only [Dev.chain, Prod.mk.injEq] using hclosed
  obtain ⟨hnow', hwall', hminute, hnext', hrecords'⟩ := by
    simpa only [Dev.chain, Prod.mk.injEq] using (d.closeMinute minute).leaseMinute_chain minute
  have hg (g : Field) (hg : offChain g = true) (hlease : offLease g = true) :=
    (Dev.g_leaseMinute (d.closeMinute minute) hg hlease minute).trans (d.g_closeMinute hg minute)
  refine ⟨hnow'.trans hnow, ?_, hminute, hnext'.trans hnext, ⟨r, hrecords'.trans hrecords⟩, ?_⟩
  · unfold Dev.wallNs
    rw [hnow', hwall', hnow, hwall]
  · unfold Dev.g64
    rw [hg _ (by decide) (by decide), hg _ (by decide) (by decide)]
    exact Dev.g64_p64 _ _ (by decide) (by decide) (by decide)

theorem Dev.recordsWith_length (r : List Byte) : (d.recordsWith r).length = min 4096 (d.sec.records.length + 1) := by
  rw [Dev.recordsWith, List.length_drop, List.length_append, List.length_singleton]
  omega

theorem Dev.recordsWith_last (r : List Byte) : ((d.recordsWith r).getLast?.map (·.1)) = some d.sec.nextSeq := by
  rw [Dev.recordsWith, List.getLast?_drop, List.length_append, List.length_singleton, if_neg (by omega)]
  simp

theorem Dev.minuteBoundary_kept : d.now ≤ d.minuteBoundary.now ∧ d.minuteBoundary.sec.nextSeq = d.sec.nextSeq + 1 ∧
    d.minuteBoundary.power.minute = d.minuteBoundary.wallNs / (60 * 10 ^ 9) ∧
    d.minuteBoundary.sec.records.length = min 4096 (d.sec.records.length + 1) ∧
    (d.minuteBoundary.sec.records.getLast?.map (·.1)) = some d.sec.nextSeq ∧
    d.minuteBoundary.g64 Reg.ENERGY_REC_SEQ_LO Reg.ENERGY_REC_SEQ_HI = d.sec.nextSeq % 2 ^ 64 := by
  obtain ⟨hnow, hsec⟩ := d.atMinute_kept
  obtain ⟨hnow', hwall, hminute, hnext, ⟨r, hrecords⟩, hseq⟩ := d.atMinute.minuteTaken_kept (d.atMinute.wallNs / (60 * 10 ^ 9))
  have hlength := d.atMinute.recordsWith_length r
  have hlast := d.atMinute.recordsWith_last r
  rw [hsec] at hnext hseq hlength hlast
  rw [d.minuteBoundary_eq, hnow', hwall, hnext, hrecords, hseq]
  exact ⟨hnow, rfl, hminute, hlength, hlast, rfl⟩

/-- The totals of the open minute saved. -/
def Dev.totalsSaved (d : Dev) : Dev :=
  { d with sec := { d.sec with saved := { d.sec.acc with extra := d.sec.acc.extra + (d.now - d.sec.acc.since) }, savedAt := d.now } }

theorem Dev.totalsSave_eq : d.totalsSave = (d.passTo (d.sec.savedAt + ms 1000)).totalsSaved := rfl

theorem Dev.totalsSaved_kept (e : Dev) (n : Nat) (hsec : e.sec = d.sec) (hnow : e.now = n) : e.totalsSaved.now = n ∧
    e.totalsSaved.sec.savedAt = e.totalsSaved.now ∧ e.totalsSaved.sec.saved.uj = d.sec.acc.uj ∧ e.totalsSaved.sec.acc = d.sec.acc := by
  rw [← hsec]
  exact ⟨hnow, rfl, rfl, rfl⟩

theorem Dev.totalsSave_kept : d.totalsSave.now = max d.now (d.sec.savedAt + ms 1000) ∧ d.totalsSave.sec.savedAt = d.totalsSave.now ∧
    d.totalsSave.sec.saved.uj = d.sec.acc.uj ∧ d.totalsSave.sec.acc = d.sec.acc := by
  rw [d.totalsSave_eq]
  exact d.totalsSaved_kept _ _ (d.passTo_sec _) (d.passTo_now _)

theorem Dev.energyFetch_none (ses : Nat) (h : d.sec.records = []) : d.energyFetch ses = (Cc.unsupported, d) := if_pos (Or.inl h)

/-- A channel that takes records for a session, given one record. -/
def Chan.recordGiven (ses : Nat) (x : List Byte) (c : Chan) : Chan :=
  if kindOf c.handle = Kd.record ∧ c.sess = ses ∧ bit c.param 2 then takeWaiting { c with waiting := c.waiting ++ [(2, x)] } 1 else c

theorem Dev.energyFetch_one (ses : Nat) {q : Nat} {x : List Byte} (hfetch : d.g64 Reg.ENERGY_REC_FETCH_SEQ_LO Reg.ENERGY_REC_FETCH_SEQ_HI = q)
    (hold : d.g64 Reg.ENERGY_REC_OLDEST_LO Reg.ENERGY_REC_OLDEST_HI = q) (hseq : d.g64 Reg.ENERGY_REC_SEQ_LO Reg.ENERGY_REC_SEQ_HI = q)
    (hrecords : d.sec.records = [(q, x)]) (hblocks : d.sec.blocks = []) : d.energyFetch ses = (Cc.done,
      ({ d with host := { d.host with chans := d.host.chans.map (Chan.recordGiven ses x) } } : Dev).pumpAll ses) := by
  unfold Dev.energyFetch Chan.recordGiven
  simp only [hfetch, hold, hseq, hrecords, hblocks]
  simp

end

/-- Settles O56: `imageStaged_registers` and `fwConfirm_registers` for the firmware, `keySet_keys` for the key blocks, `quoteSigned_registers`
for the quotes, and `minuteBoundary_kept` for the chain of records. -/
theorem keeper : Obligations.Keeper := by
  intro s r
  refine ⟨fun hacc hwork => ?fuseKeys, fun hacc hwork => ?attest, fun hlevel => ?down, fun hlevel => ⟨fun hnonce => ?_, fun hnonce => ?_,
    fun hoff => ?_, fun hfew hdue => ?_, ?_, ?_⟩, fun ses hacc hwork => ⟨fun hnone => ?_, fun q x hfetch hold hseq hrecords hblocks => ?_⟩⟩
  case fuseKeys =>
    have hwrite (c : Instr) (f : Dev → Nat × Dev) (x : Dev) (hc : exec c s = runDev s fun d => d.action r pgFuseKeys 0x088 true f)
        (hx : f s.dev.start = (Cc.done, x)) : exec c s = s.ends (x.done 0) :=
      (hc.trans (work_ok s r _ _ f hacc hwork)).trans (by rw [hx]; rfl)
    intro m
    refine ⟨?_, fun h => hwrite _ Dev.fwConfirm _ rfl (if_pos h), fun h => ?_, ?_⟩
    · split
      · next h =>
        have hexec := hwrite (.fwStage r) (Dev.fwStage s.mem) _ rfl (Dev.fwStage_sound _ h)
        obtain ⟨hout, hregs⟩ := s.dev.start.imageStaged_registers m
        generalize s.dev.start.imageStaged m = e at hexec hout hregs
        exact ⟨s.after (e.done 0), ends_next hexec, s.after_mem _, s.after_pending _, congrArg (· ++ [Output.completion 0 0]) hout, hregs⟩
      · next h => exact hwrite (.fwStage r) (Dev.fwStage s.mem) _ rfl (Dev.fwStage_bad _ h)
    · obtain ⟨hcode, hout, hregs⟩ := s.dev.start.fwConfirm_registers h
      have hexec := hwrite (.fwConfirm r) Dev.fwConfirm s.dev.start.fwConfirm.2 rfl (Prod.ext hcode rfl)
      generalize s.dev.start.fwConfirm.2 = e at hexec hout hregs
      exact ⟨s.after (e.done 0), ends_next hexec, s.after_mem _, s.after_pending _, congrArg (· ++ [Output.completion 0 0]) hout, hregs⟩
    · intro b x hx
      have hkind : 1 ≤ x.1 ∧ x.1 ≤ 5 ∧ exec x.2 s = runDev s fun d => d.action r pgFuseKeys 0x088 true (Dev.keyGoKind x.1) := by
        simp only [List.mem_cons, List.not_mem_nil, or_false] at hx
        rcases hx with rfl | rfl | rfl | rfl | rfl
        all_goals exact ⟨by show 1 ≤ _; omega, by show _ ≤ 5; omega, rfl⟩
      obtain ⟨hlo, hhi, hc⟩ := hkind
      refine ⟨fun h => hwrite _ _ _ hc (Dev.keyGoKind_other _ h), fun h hcode => hwrite _ _ _ hc (Dev.keyGoKind_refused _ h hcode),
        fun h hcode hlock => ?_⟩
      have hexec := hwrite _ _ _ hc (Dev.keyGoKind_accepted _ h hcode hlock)
      obtain ⟨hout, hlease, hreset, hcak⟩ := s.dev.start.keySet_keys hlo hhi
      have hlocked := s.dev.start.keySet_locked hlo hhi
      have hbudget : x.1 = 4 → (s.dev.start.keySet x.1).g Reg.LEASE_FALLBACK_W = fld b 0x10 2 := fun h4 => by
        rw [h4, s.dev.start.keySet_budget]
        exact Nat.mod_eq_of_lt (fld_lt b 0x10 2)
      generalize s.dev.start.keySet x.1 = e at hexec hout hlease hreset hcak hlocked hbudget
      have hsec : (e.raise pgFuseKeys 0x0E04 11 Sev.info x.1).sec = e.sec := e.raise_sec _ _ _ _ _
      refine ⟨s.after ((e.raise pgFuseKeys 0x0E04 11 Sev.info x.1).done 0), ends_next hexec, s.after_mem _, s.after_pending _,
        congrArg (· ++ [Output.completion 0 0]) ((e.raise_out _ _ _ _ _).trans hout), e.raise_block_bit (pos := 11) _ _ _ (by decide) (by decide),
        (congrArg SecSt.leaseKey hsec).trans hlease, (congrArg SecSt.resetKey hsec).trans hreset, (congrArg SecSt.cak hsec).trans hcak,
        fun h4 => (e.g_raise_body _ _ _ _ _ (by decide)).trans (hbudget h4), (e.g_raise_body _ _ _ _ _ (by decide)).trans hlocked⟩
  case attest =>
    have hwrite (x : Dev) (hx : s.dev.start.attestRequest = (Cc.done, x)) : exec (.attestRequest r) s = s.ends (x.done 0) :=
      (work_ok s r _ _ Dev.attestRequest hacc hwork).trans (by rw [hx]; rfl)
    exact ⟨fun h => hwrite _ (Dev.attestRequest_rate _ h), fun h hleft => hwrite _ (Dev.attestRequest_budget _ h hleft),
      fun h hleft hnonce => hwrite _ (Dev.attestRequest_open _ h hleft hnonce),
      fun h hleft hnonce => hwrite _ (Dev.attestRequest_begins _ h hleft hnonce)⟩
  case down =>
    have hoff (f : Dev → Dev) : s.ends (s.dev.start.whenKept f) = s.ends s.dev.start := congrArg s.ends (if_pos hlevel)
    simp only [List.forall_mem_cons, List.not_mem_nil, false_imp_iff, implies_true, and_true]
    exact ⟨hoff _, hoff _, hoff _, hoff _⟩
  · refine congrArg s.ends ((if_neg hlevel).trans ?_)
    unfold Dev.quoteSigned
    rw [show s.dev.start.sec.nonce = none from hnonce]
  · have hexec : exec .quoteSigned s = s.ends s.dev.start.quoteSigned := congrArg s.ends (if_neg hlevel)
    have hregs := s.dev.start.quoteSigned_registers hnonce
    generalize s.dev.start.quoteSigned = e at hexec hregs
    exact ⟨s.after e, ends_next hexec, s.after_mem _, s.after_pending _, hregs⟩
  · exact congrArg s.ends ((if_neg hlevel).trans (Dev.sigBudget_off _ hoff))
  · exact congrArg s.ends ((if_neg hlevel).trans (Dev.sigBudget_due _ hfew hdue))
  · have hexec : exec .minuteBoundary s = s.ends s.dev.start.minuteBoundary := congrArg s.ends (if_neg hlevel)
    have hregs := s.dev.start.minuteBoundary_kept
    obtain ⟨e, he⟩ : ∃ e, s.dev.start.minuteBoundary = e := ⟨_, rfl⟩
    rw [he] at hexec hregs
    exact ⟨s.after e, ends_next hexec, s.after_mem _, s.after_pending _, hregs⟩
  · have hexec : exec .totalsSave s = s.ends s.dev.start.totalsSave := congrArg s.ends (if_neg hlevel)
    have hregs := s.dev.start.totalsSave_kept
    obtain ⟨e, he⟩ : ∃ e, s.dev.start.totalsSave = e := ⟨_, rfl⟩
    rw [he] at hexec hregs
    exact ⟨s.after e, ends_next hexec, s.after_mem _, s.after_pending _, hregs⟩
  · refine (work_ok s r _ _ (Dev.energyFetch ses.toNat) hacc hwork).trans ?_
    rw [Dev.energyFetch_none _ _ hnone]
    rfl
  · refine (work_ok s r _ _ (Dev.energyFetch ses.toNat) hacc hwork).trans ?_
    rw [Dev.energyFetch_one _ _ hfetch hold hseq hrecords hblocks]
    rfl

end Sys2Proof.Machine

/-! Save points between packages (O57). -/

namespace Sys2Proof.Machine

/-! ## Sending -/

/-- The length of part `i` of a save point, or of its manifest. -/
def partsLen (ps : Parts) (i : Nat) : Nat := if i < ps.length then partLen (ps.getD i (0, 0, 0, 0)) else manifestLen ps

/-- The pieces of a part, by its number on links. -/
def partPieces (ps : Parts) (no : Nat) : Nat := piecesOf (if no = manifestNo then manifestLen ps else partLen (ps.getD no (0, 0, 0, 0)))

theorem piecesOf_pos (n : Nat) : 0 < piecesOf n := Nat.lt_of_lt_of_le Nat.one_pos (Nat.le_max_left ..)

section
variable {d : Dev} {m : Mem} {use : Nat} {t : Transfer}

theorem Dev.drainSend_off (h : d.slackOpen = false ∨ (d.recov.transfers.find? fun t => t.use == use && ! t.bad) = none) : d.drainSend use m = d := by
  unfold Dev.drainSend
  rcases h with h | h
  · simp only [h, Bool.not_false, if_true]
  · simp only [h, ite_self]

section
variable (hopen : d.slackOpen = true) (hfind : (d.recov.transfers.find? fun t => t.use == use && ! t.bad) = some t)
include hopen hfind

theorem Dev.drainSend_again {no k : Nat} {rest : List (Nat × Nat)} (hagain : t.again = (no, k) :: rest) : d.drainSend use m =
    let ps := d.partsOf (d.transferMember t)
    let r := d.sendPiece m t ps (if no = manifestNo then ps.length else no) k
    r.2.putTransfer { r.1 with again := if k + 1 < partPieces ps no then (no, k + 1) :: rest else rest } := by
  unfold Dev.drainSend partPieces
  simp only [hopen, hfind, hagain, Bool.not_true, Bool.false_eq_true, if_false]

/-- The transfer with the digest of the part that begins. -/
def Dev.digested (d : Dev) (m : Mem) (t : Transfer) (ps : Parts) : Transfer :=
  { t with digests := if t.piece = 0 ∧ t.use ≠ 1 then t.digests ++ [shake256 (d.transferBytes m t ps t.next)] else t.digests }

theorem Dev.drainSend_part (hagain : t.again = []) (hnext : t.next < (d.partsOf (d.transferMember t)).length) : d.drainSend use m =
    let ps := d.partsOf (d.transferMember t)
    let p := ps.getD t.next (0, 0, 0, 0)
    let u := d.digested m t ps
    if t.use = 0 ∧ p.1 = 0 ∧ d.gathered t.dst (atticAt ps t.next) (partLen p) then d.putTransfer { u with next := t.next + 1, piece := 0 }
    else
      let r := d.sendPiece m u ps t.next t.piece
      r.2.putTransfer (if t.piece + 1 < piecesOf (partLen p) then { r.1 with piece := t.piece + 1 }
        else { r.1 with next := t.next + 1, piece := 0 }) := by
  unfold Dev.drainSend Dev.digested
  simp only [hopen, hfind, hagain, hnext, Bool.not_true, Bool.false_eq_true, if_false, if_true]

theorem Dev.drainSend_manifest (hagain : t.again = []) (hnext : t.next = (d.partsOf (d.transferMember t)).length)
    (hacked : ∀ x ∈ t.sentParts, x ∈ t.acked) : d.drainSend use m =
    let ps := d.partsOf (d.transferMember t)
    let r := d.sendPiece m t ps ps.length t.piece
    r.2.putTransfer (if t.piece + 1 < piecesOf (manifestLen ps) then { r.1 with piece := t.piece + 1 }
        else { r.1 with next := t.next + 1, piece := 0 }) := by
  have hall : t.sentParts.all (t.acked.contains ·) = true := List.all_eq_true.2 fun x hx => List.contains_iff_mem.2 (hacked x hx)
  unfold Dev.drainSend
  simp only [hopen, hfind, hagain, hnext, hall, Bool.not_true, Bool.false_eq_true, if_false, if_true, lt_irrefl, and_self]

theorem Dev.drainSend_waits (hagain : t.again = []) (h : (d.partsOf (d.transferMember t)).length < t.next ∨
    (t.next = (d.partsOf (d.transferMember t)).length ∧ ∃ x ∈ t.sentParts, x ∉ t.acked)) : d.drainSend use m = d := by
  have hbefore : ¬ t.next < (d.partsOf (d.transferMember t)).length := by omega
  have hheld : ¬ (t.next = (d.partsOf (d.transferMember t)).length ∧ t.sentParts.all (t.acked.contains ·) = true) := by
    rintro ⟨hnext, hall⟩
    obtain hlt | ⟨-, x, hx, hne⟩ := h
    · omega
    · exact hne (List.contains_iff_mem.1 (List.all_eq_true.1 hall x hx))
  unfold Dev.drainSend
  simp only [hopen, hfind, hagain, Bool.not_true, Bool.false_eq_true, if_false, if_neg hbefore, if_neg hheld]

end

/-! ## Answers -/

theorem Dev.sendAgain_again {part piece : Nat} (h : SMap.at t.tries part 0 < 3) : d.sendAgain t part piece =
    (d.bump Reg.PARTNER_RESENDS 0).putTransfer { t with
      tries := SMap.put t.tries part (SMap.at t.tries part 0 + 1)
      waits := t.waits.filter fun w => w.1 != part
      again := t.again ++ [(part, piece)] } := if_neg (Nat.not_le_of_lt h)

theorem Dev.sendAgain_abandon {part piece : Nat} (h : 3 ≤ SMap.at t.tries part 0) : d.sendAgain t part piece =
    if t.use = 0 then (d.abandon t).raise pgPartner 0x0D01 8 Sev.warn (t.dst + 2 ^ 19) else d.abandon t := if_pos h

variable {p op credit : Nat} {sh : Shuttle} {act : Dev → Transfer → Nat → Nat → Dev}

theorem Dev.ctrlRecv_own (hkind : sh.kind.toNat = 6) (h : d.portTakes p = true) (hcrc : crc32 (shCovered sh) = sh.crc.toNat)
    (hdst : sh.dst.toNat = d.selfAddr) : d.ctrlRecv p op sh credit act =
      if fld sh.payload 0 4 ≠ op then d
      else match d.recov.transfers.find? fun t => t.dst == sh.src.toNat && t.step == fld sh.payload 0xC 8 with
        | some t => act d t (fld sh.payload 4 4) (fld sh.payload 8 2)
        | none => d :=
  (Dev.slackRecv_on (by decide) (by decide) hkind h hcrc).trans (if_neg fun hne => hne hdst)

theorem Dev.ctrlRecv_ignored (hkind : sh.kind.toNat = 6) (h : d.portTakes p = true) (hcrc : crc32 (shCovered sh) = sh.crc.toNat)
    (hdst : sh.dst.toNat = d.selfAddr) (hoff : fld sh.payload 0 4 ≠ op ∨
      (d.recov.transfers.find? fun t => t.dst == sh.src.toNat && t.step == fld sh.payload 0xC 8) = none) : d.ctrlRecv p op sh credit act = d := by
  rw [Dev.ctrlRecv_own hkind h hcrc hdst]
  rcases hoff with hop | hnone
  · exact if_pos hop
  · rw [hnone]
    exact ite_self _

theorem Dev.ctrlRecv_acts (hkind : sh.kind.toNat = 6) (h : d.portTakes p = true) (hcrc : crc32 (shCovered sh) = sh.crc.toNat)
    (hdst : sh.dst.toNat = d.selfAddr) (hfind : (d.recov.transfers.find? fun t => t.dst == sh.src.toNat && t.step == fld sh.payload 0xC 8) = some t)
    (hop : fld sh.payload 0 4 = op) : d.ctrlRecv p op sh credit act = act d t (fld sh.payload 4 4) (fld sh.payload 8 2) := by
  rw [Dev.ctrlRecv_own hkind h hcrc hdst, if_neg fun hne => hne hop, hfind]

/-! ## Retries -/

theorem Dev.partRetry_none {part : Nat} (h : (d.recov.transfers.find? fun t => t.use == use) = none) : d.partRetry use part = d := by
  unfold Dev.partRetry
  rw [h]

variable (hfind : (d.recov.transfers.find? fun t => t.use == use) = some t)
include hfind

theorem Dev.partRetry_answered {part : Nat} (h : (t.waits.find? fun w => w.1 == part) = none) : d.partRetry use part = d := by
  unfold Dev.partRetry
  simp only [hfind, h]

theorem Dev.partRetry_waits {part : Nat} {w : Nat × Nat} (h : (t.waits.find? fun w => w.1 == part) = some w) : d.partRetry use part =
    if d.beatNum < w.2 + d.g Reg.PARTNER_RETRY_BEATS then d
    else d.sendAgain t part (partPieces (d.partsOf (d.transferMember t)) part - 1) := by
  unfold Dev.partRetry
  simp only [hfind, h]
  rfl

end

/-! ## Receiving -/

section
variable {d : Dev} {m : Mem} {use p credit : Nat} {sh : Shuttle}

theorem Dev.drainRecv_off (h : sh.kind.toNat ≠ 5 ∨ d.portTakes p = false) : d.drainRecv use p sh credit m = d := Dev.slackRecv_off h

section
variable (hkind : sh.kind.toNat = 5) (h : d.portTakes p = true) (hcrc : crc32 (shCovered sh) = sh.crc.toNat)
include hkind h hcrc

theorem Dev.drainRecv_forward (hdst : sh.dst.toNat ≠ d.selfAddr) : d.drainRecv use p sh credit m = d.slackForward p sh credit :=
  (Dev.slackRecv_on (by decide) (by decide) hkind h hcrc).trans (if_pos hdst)

variable (hdst : sh.dst.toNat = d.selfAddr)
include hdst

theorem Dev.drainRecv_other (huse : sh.start.toNat ≠ use) : d.drainRecv use p sh credit m = if 2 < sh.start.toNat then d.linkStale p else d :=
  (Dev.slackRecv_on (by decide) (by decide) hkind h hcrc).trans ((if_neg fun hne => hne hdst).trans (if_pos huse))

variable (huse : sh.start.toNat = use)
include huse

theorem Dev.drainRecv_unexpected (hmember : d.recvMember use = none) : d.drainRecv use p sh credit m = d.linkStale p := by
  refine (Dev.slackRecv_on (by decide) (by decide) hkind h hcrc).trans ((if_neg fun hne => hne hdst).trans ((if_neg fun hne => hne huse).trans ?_))
  rw [hmember]

/-- The piece does not belong to the save point that is expected. -/
def Dev.pieceBad (d : Dev) (use : Nat) (ps : Parts) (sh : Shuttle) : Prop :=
  sh.step.toNat ≠ d.expected use sh.step.toNat ∨ (sh.flow.toNat ≠ manifestNo ∧ ps.length ≤ sh.flow.toNat) ∨
    partPieces ps sh.flow.toNat ≤ sh.shuttle.toNat

/-- The attic holds the save point already. -/
def Dev.atticFull (d : Dev) (use : Nat) : Prop :=
  use = 0 ∧ d.g Reg.PARTNER_ATTIC_STATE = 2 ∧ d.g64 Reg.PARTNER_ATTIC_STEP_LO Reg.PARTNER_ATTIC_STEP_HI = d.stepNo - 1

/-- The pieces that have landed, with this one. -/
def Dev.pieceNoted (d : Dev) (use : Nat) (sh : Shuttle) : RecSt :=
  let got := if SMap.at d.recov.gotStep use sh.step.toNat = sh.step.toNat then d.recov.got else d.recov.got.filter fun g => g.1 != use
  let key := (use, sh.flow.toNat, sh.shuttle.toNat)
  { d.recov with
    got := if got.contains key then got else key :: got
    gotStep := SMap.put d.recov.gotStep use sh.step.toNat
    gotFrom := SMap.put d.recov.gotFrom use sh.src.toNat }

variable {member : Nat} (hmember : d.recvMember use = some member)
include hmember

theorem Dev.drainRecv_bad (hbad : d.pieceBad use (d.partsOf member) sh) : d.drainRecv use p sh credit m = d.linkStale p := by
  refine (Dev.slackRecv_on (by decide) (by decide) hkind h hcrc).trans ((if_neg fun hne => hne hdst).trans ((if_neg fun hne => hne huse).trans ?_))
  simp only [hmember]
  exact if_pos hbad

theorem Dev.drainRecv_full (hbad : ¬ d.pieceBad use (d.partsOf member) sh) (hfull : d.atticFull use) : d.drainRecv use p sh credit m = d := by
  refine (Dev.slackRecv_on (by decide) (by decide) hkind h hcrc).trans ((if_neg fun hne => hne hdst).trans ((if_neg fun hne => hne huse).trans ?_))
  simp only [hmember]
  exact (if_neg hbad).trans (if_pos hfull)

theorem Dev.drainRecv_placed (hbad : ¬ d.pieceBad use (d.partsOf member) sh) (hfull : ¬ d.atticFull use) : d.drainRecv use p sh credit m =
    let e := ({ d with recov := d.pieceNoted use sh } : Dev).placePiece m use (d.partsOf member) sh
    if use = 1 ∧ e.g Reg.RESTORE_STATE = 1 ∧ e.refilled (d.partsOf member) = true then e.p Reg.RESTORE_STATE 2 else e := by
  refine (Dev.slackRecv_on (by decide) (by decide) hkind h hcrc).trans ((if_neg fun hne => hne hdst).trans ((if_neg fun hne => hne huse).trans ?_))
  simp only [hmember]
  refine (if_neg hbad).trans ((if_neg hfull).trans ?_)
  unfold Dev.pieceNoted
  by_cases hfresh : SMap.at d.recov.gotStep use sh.step.toNat = sh.step.toNat
  · simp only [hfresh, ne_eq, not_true, if_false, if_true]
  · simp only [hfresh, ne_eq, not_false_eq_true, if_false, if_true]

end

/-! ## The answer to a part -/

theorem Dev.partAnswer_none {part : Nat} (h : d.recvMember use = none) : d.partAnswer use part m = d := by
  unfold Dev.partAnswer
  rw [h]

variable {part member : Nat} (hmember : d.recvMember use = some member)
include hmember

theorem Dev.partAnswer_open (hlast : d.recov.got.contains (use, part, partPieces (d.partsOf member) part - 1) = false) :
    d.partAnswer use part m = d := by
  unfold Dev.partAnswer
  simp only [hmember]
  exact if_pos (congrArg (! ·) hlast)

theorem Dev.partAnswer_nak {k : Nat} (hlast : d.recov.got.contains (use, part, partPieces (d.partsOf member) part - 1) = true)
    (hk : k < partPieces (d.partsOf member) part) (hmissing : d.recov.got.contains (use, part, k) = false)
    (hbefore : ∀ j, j < k → d.recov.got.contains (use, part, j) = true) : d.partAnswer use part m = d.answer use 2 part k := by
  have hfind : ((List.range (partPieces (d.partsOf member) part)).find? fun k => ! d.recov.got.contains (use, part, k)) = some k :=
    List.find?_range_eq_some.2 ⟨congrArg (! ·) hmissing, List.mem_range.2 hk, fun j hj => by rw [hbefore j hj]; rfl⟩
  unfold partPieces at hfind hlast
  unfold Dev.partAnswer
  simp only [hmember, hlast, hfind, Bool.not_true, Bool.false_eq_true, if_false]

/-- What a part that is held whole is answered with. -/
theorem Dev.partAnswer_whole (hheld : ∀ j, j < partPieces (d.partsOf member) part → d.recov.got.contains (use, part, j) = true) :
    d.partAnswer use part m = if part ≠ manifestNo then d.answer use 1 part 0
      else
        let ps := d.partsOf member
        let sp := if use = 0 then d.stepNo - 1 else SMap.at d.recov.gotStep use 0
        match d.badPart (d.arrived m use ps ps.length) member ps (d.arrived m use ps) with
        | some i => (if use = 1 then d else (d.p Reg.PARTNER_ATTIC_STATE 3).raise pgPartner 0x0D03 10 Sev.error i).answer use 4 part 0
        | none => (if use = 1 then d else ((d.p Reg.PARTNER_ATTIC_STATE 2).p64 Reg.PARTNER_ATTIC_STEP_LO Reg.PARTNER_ATTIC_STEP_HI sp).raise
            pgPartner 0x0D02 9 Sev.info (sp % 2 ^ 32)).answer use 3 part 0 := by
  have hlast : d.recov.got.contains (use, part, partPieces (d.partsOf member) part - 1) = true :=
    hheld _ (Nat.sub_lt (piecesOf_pos _) Nat.one_pos)
  have hfind : ((List.range (partPieces (d.partsOf member) part)).find? fun k => ! d.recov.got.contains (use, part, k)) = none :=
    List.find?_range_eq_none.2 fun j hj => by rw [hheld j hj]; rfl
  unfold partPieces at hfind hlast
  unfold Dev.partAnswer
  simp only [hmember, hlast, hfind, Bool.not_true, Bool.false_eq_true, if_false] <;> rfl

end

/-- Settles O57: the cases of a piece that leaves or arrives, of an answer and of a retry. -/
theorem savePoints : Obligations.SavePoints := by
  intro s d
  refine ⟨fun use => ⟨fun h => congrArg s.ends (Dev.drainSend_off h), fun t => ?sends⟩, fun q sh cr => ?arrives,
    fun use part => ⟨fun h => congrArg s.ends (Dev.partAnswer_none h), fun member hmember => ?answered,
      fun h => congrArg s.ends (Dev.partRetry_none h), fun t hfind => ⟨fun h => congrArg s.ends (Dev.partRetry_answered hfind h),
        fun w h => ⟨fun hwait => congrArg s.ends ((Dev.partRetry_waits hfind h).trans (if_pos hwait)),
          fun hdue => congrArg s.ends ((Dev.partRetry_waits hfind h).trans (if_neg (Nat.not_lt_of_le hdue)))⟩⟩⟩⟩
  case sends =>
    intro ps len hopen hfind
    refine ⟨fun no k rest hagain => congrArg s.ends (Dev.drainSend_again hopen hfind hagain), fun hagain hnext => ?_, fun hagain hnext hacked =>
      congrArg s.ends (Dev.drainSend_manifest hopen hfind hagain hnext hacked), fun hagain h =>
      congrArg s.ends (Dev.drainSend_waits hopen hfind hagain h)⟩
    intro p u carried
    have hpart := congrArg s.ends (Dev.drainSend_part (m := s.mem) hopen hfind hagain hnext)
    have hlen : len t.next = partLen p := if_pos hnext
    rw [hlen]
    exact ⟨fun h => hpart.trans (congrArg s.ends (if_pos h)), fun h => hpart.trans (congrArg s.ends (if_neg h))⟩
  case arrives =>
    intro p good
    refine ⟨fun x hx => ?pieces, fun x hx => ?answers, fun t hkind hgood hdst hfind => ?acted⟩
    case pieces =>
      have hexec : exec x.2 s = s.endsStore (d.drainRecv x.1 p sh cr.toNat s.mem) := by
        simp only [List.mem_cons, List.not_mem_nil, or_false] at hx
        rcases hx with rfl | rfl | rfl <;> rfl
      have hstore {e : Dev} (h : d.drainRecv x.1 p sh cr.toNat s.mem = e) (hw : e.writes = []) : exec x.2 s = s.ends e :=
        (hexec.trans (congrArg s.endsStore h)).trans (endsStore_ends s e hw)
      refine ⟨fun h => hstore (Dev.drainRecv_off h) rfl, fun hkind hgood => ⟨fun hdst =>
        hexec.trans (congrArg s.endsStore (Dev.drainRecv_forward hkind hgood.1 hgood.2 hdst)), fun hdst huse =>
        hstore (Dev.drainRecv_other hkind hgood.1 hgood.2 hdst huse) ?_, fun hdst huse hnone =>
        hstore (Dev.drainRecv_unexpected hkind hgood.1 hgood.2 hdst huse hnone) rfl, fun member hdst huse hmember => ?_⟩⟩
      · split <;> rfl
      · intro ps no n bad full got key noted e
        exact ⟨fun hbad => hstore (Dev.drainRecv_bad hkind hgood.1 hgood.2 hdst huse hmember hbad) rfl,
          fun hbad hfull => hstore (Dev.drainRecv_full hkind hgood.1 hgood.2 hdst huse hmember hbad hfull) rfl,
          fun hbad hfull => hexec.trans (congrArg s.endsStore (Dev.drainRecv_placed hkind hgood.1 hgood.2 hdst huse hmember hbad hfull))⟩
    case answers =>
      have hexec : ∃ act, exec x.2 s = s.ends (d.ctrlRecv p x.1 sh cr.toNat act) := by
        simp only [List.mem_cons, List.not_mem_nil, or_false] at hx
        rcases hx with rfl | rfl | rfl | rfl <;> exact ⟨_, rfl⟩
      obtain ⟨act, hexec⟩ := hexec
      rw [hexec]
      exact ⟨fun h => congrArg s.ends (Dev.slackRecv_off h), fun hkind hgood hdst => congrArg s.ends
        ((Dev.slackRecv_on (by decide) (by decide) hkind hgood.1 hgood.2).trans (if_pos hdst)), fun hkind hgood hdst hoff =>
        congrArg s.ends (Dev.ctrlRecv_ignored hkind hgood.1 hgood.2 hdst hoff)⟩
    case acted =>
      intro part others
      have hacts (op : Nat) (act : Dev → Transfer → Nat → Nat → Dev) (hop : fld sh.payload 0 4 = op) :
          s.ends (d.ctrlRecv p op sh cr.toNat act) = s.ends (act d t part (fld sh.payload 8 2)) :=
        congrArg s.ends (Dev.ctrlRecv_acts hkind hgood.1 hgood.2 hdst hfind hop)
      exact ⟨fun hop => hacts 1 Dev.partAck hop, fun hop htries => (hacts 2 Dev.partNak hop).trans (congrArg s.ends (Dev.sendAgain_again htries)),
        fun hop htries => (hacts 2 Dev.partNak hop).trans (congrArg s.ends (Dev.sendAgain_abandon htries)), fun hop => hacts 3 Dev.manifestAck hop,
        fun hop => hacts 4 Dev.manifestBad hop⟩
  case answered =>
    intro ps n held sp
    have hone : (use = 1) = (use.toNat = 1) := propext BitVec.toNat_inj.symm
    have hzero : (use = 0) = (use.toNat = 0) := propext BitVec.toNat_inj.symm
    refine ⟨fun hlast => congrArg s.ends (Dev.partAnswer_open hmember hlast), fun k hlast hk hmissing hbefore =>
      congrArg s.ends (Dev.partAnswer_nak hmember hlast hk hmissing hbefore), fun hheld hpart =>
      congrArg s.ends ((Dev.partAnswer_whole hmember hheld).trans (if_pos hpart)), fun hheld hpart => ?_⟩
    refine (congrArg s.ends ((Dev.partAnswer_whole hmember hheld).trans (if_neg fun hne => hne hpart))).trans ?_
    simp only [sp, ps, d, hone, hzero]
    generalize s.dev.start.badPart _ _ _ _ = bad
    cases bad <;> rfl

end Sys2Proof.Machine

/-! External drains and restores (O58). -/

namespace Sys2Proof.Machine

/-! ## External drains -/

/-- The device with the external drain as it goes on. -/
def Dev.putDrain (d : Dev) (x : ExtDrain) : Dev := { d with recov := { d.recov with ext := some x } }

/-- The device with the bytes of part `no` that a message of the fetch in progress carries. -/
def Dev.dataHeld (d : Dev) (no : Nat) (b : List Byte) : Dev :=
  { d with recov := { d.recov with held := SMap.put d.recov.held no (SMap.at d.recov.held no [] ++ b.drop 32) } }

/-- The device with the fetch as it goes on. -/
def Dev.putFetch (d : Dev) (x : Option (Nat × Nat)) : Dev := { d with recov := { d.recov with fetch := x } }

theorem Dev.putFetch_counted (d : Dev) (c : Prop) [Decidable c] (x : Option (Nat × Nat)) :
    (if c then d.bump Reg.RESTORE_PARTS_DONE 0 else d).putFetch x = if c then (d.putFetch x).bump Reg.RESTORE_PARTS_DONE 0 else d.putFetch x := by
  split
  · rfl
  · rfl

section
variable {d e : Dev} {m : Mem} {h : Nat} {c : Chan} {x : ExtDrain} {b : List Byte}

theorem Dev.extSend_off (hoff : d.slackOpen = false ∨ d.recov.ext = none ∨ d.chan h = none ∨ kindOf h ≠ Kd.drain) : d.extSend h m = d := by
  unfold Dev.extSend
  split
  · next c x hchan hext =>
    refine if_pos ?_
    rcases hoff with hslack | hnone | hnone | hkind
    · exact .inr (.inl (congrArg (! ·) hslack))
    · cases hext.symm.trans hnone
    · cases hchan.symm.trans hnone
    · exact .inl hkind
  · rfl

section
variable (hchan : d.chan h = some c) (hext : d.recov.ext = some x)
include hchan hext

theorem Dev.extSend_other (hserves : d.drainServes c = false) : d.extSend h m = d := by
  unfold Dev.extSend
  simp only [hchan, hext]
  exact if_pos (.inr (.inr (congrArg (! ·) hserves)))

variable (hkind : kindOf h = Kd.drain) (hslack : d.slackOpen = true) (hserves : d.drainServes c = true)
include hkind hslack hserves

theorem Dev.extSend_rest {i off : Nat} (hactive : (x.active.find? fun a => a.1 == h) = some (h, i, off)) : d.extSend h m =
    let b := (d.partBytes' m ((d.partsOf (d.self.getD 0)).getD i (0, 0, 0, 0))).drop off
    let rest := x.active.filter fun a => a.1 != h
    let e := d.queueMsg c.sess h (drainMsg 1 i x.step off (min 65536 b.length) (b.take 65536))
    e.putDrain { x with active := if 65536 < b.length then rest ++ [(h, i, off + 65536)] else rest } := by
  unfold Dev.extSend
  simp only [hchan, hext, hkind, hslack, hserves, hactive, ne_eq, not_true_eq_false, Bool.not_true, Bool.false_eq_true, or_self, if_false] <;> rfl

variable (hactive : (x.active.find? fun a => a.1 == h) = none)
include hactive

theorem Dev.extSend_part (hnext : x.next < (d.partsOf (d.self.getD 0)).length) : d.extSend h m =
    let b := d.partBytes' m ((d.partsOf (d.self.getD 0)).getD x.next (0, 0, 0, 0))
    let e := d.queueMsg c.sess h (drainMsg 1 x.next x.step 0 (min 65536 b.length) (b.take 65536))
    e.putDrain { x with
      next := x.next + 1
      digests := x.digests ++ [shake256 b]
      active := if 65536 < b.length then x.active ++ [(h, x.next, 65536)] else x.active } := by
  unfold Dev.extSend
  simp only [hchan, hext, hkind, hslack, hserves, hactive, hnext, decide_true, ne_eq, not_true_eq_false, Bool.not_true, Bool.false_eq_true,
    or_self, if_false] <;> rfl

theorem Dev.extSend_last (hnext : (d.partsOf (d.self.getD 0)).length ≤ x.next) : d.extSend h m =
    if x.manifestSent = true ∨ x.active ≠ [] then d
    else
      let b := d.manifest (d.self.getD 0) x.step true (d.partsOf (d.self.getD 0)) x.digests
      let e := (pieces 65536 ((b.length + 65535) / 65536) b).zipIdx.foldl (fun (d : Dev) y =>
        d.queueMsg c.sess h (drainMsg 2 0xFFFFFFFF x.step (65536 * y.2) y.1.length y.1)) d
      e.putDrain { x with manifestSent := true } := by
  unfold Dev.extSend
  simp only [hchan, hext, hkind, hslack, hserves, hactive, Nat.not_lt.2 hnext, decide_false, ne_eq, not_true_eq_false, Bool.not_true,
    Bool.false_eq_true, or_self, if_false] <;> rfl

end

theorem Dev.drainAck_none (hm : d.takeMessage h Kd.drain = none) : d.drainAck h = d := by
  unfold Dev.drainAck
  rw [hm]

theorem Dev.drainLedger_none (hm : d.takeMessage h Kd.drain = none) : d.drainLedger h = d := by
  unfold Dev.drainLedger
  rw [hm]

theorem Dev.drainData_none (hm : d.takeMessage h Kd.drain = none) : d.drainData h = d := by
  unfold Dev.drainData
  rw [hm]

section
variable (hm : d.takeMessage h Kd.drain = some (c, b, e))
include hm

theorem Dev.drainLedger_some : d.drainLedger h =
    if fld b 0 4 = 6 ∧ b.length = 64 then { e with recov := { e.recov with ledgerDigest := some (b.drop 32) } } else e := by
  unfold Dev.drainLedger
  rw [hm]

theorem Dev.drainAck_idle (hext : e.recov.ext = none) : d.drainAck h = e := by
  unfold Dev.drainAck
  simp only [hm, hext]

section
variable (hext : e.recov.ext = some x)
include hext

theorem Dev.drainAck_other (h' : ¬ (fld b 0 4 = 3 ∧ fld b 8 8 = x.step ∧ b.length = 32) ∨ (fld b 4 4 = 0xFFFFFFFF ∧ x.manifestSent = false) ∨
    (fld b 4 4 ≠ 0xFFFFFFFF ∧ (fld b 4 4 ∈ x.acked ∨ x.next ≤ fld b 4 4))) : d.drainAck h = e := by
  unfold Dev.drainAck
  simp only [hm, hext]
  split
  · rfl
  · next hmine =>
    rcases h' with hnot | ⟨hpart, hsent⟩ | ⟨hpart, hbad⟩
    · exact absurd (by simpa only [not_or, ne_eq, not_not] using hmine) hnot
    · simp only [if_pos hpart, hsent, Bool.not_false, if_true]
    · rw [if_neg hpart, if_pos (hbad.imp_left List.contains_iff_mem.2)]

variable (hmine : fld b 0 4 = 3 ∧ fld b 8 8 = x.step ∧ b.length = 32)
include hmine

theorem Dev.drainAck_manifest (hpart : fld b 4 4 = 0xFFFFFFFF) (hsent : x.manifestSent = true) : d.drainAck h =
    ((({ e with recov := { e.recov with ext := none } } : Dev).p Reg.DRAIN_STATE 2).p64 Reg.DRAIN_LAST_STEP_LO
      Reg.DRAIN_LAST_STEP_HI x.step).raise pgDrain 0x0D05 8 Sev.info (x.step % 2 ^ 32) := by
  obtain ⟨hop, hstep, hlen⟩ := hmine
  unfold Dev.drainAck
  simp only [hm, hext, hop, hstep, hlen, hpart, hsent, ne_eq, not_true_eq_false, or_self, if_false, if_true, Bool.not_true, Bool.false_eq_true]

theorem Dev.drainAck_part (hnext : fld b 4 4 < x.next) (hpart : fld b 4 4 ≠ 0xFFFFFFFF) (hnew : fld b 4 4 ∉ x.acked) : d.drainAck h =
    ({ e with recov := { e.recov with ext := some { x with acked := fld b 4 4 :: x.acked } } } : Dev).bump Reg.DRAIN_PARTS_SENT 0 := by
  obtain ⟨hop, hstep, hlen⟩ := hmine
  have hopen : ¬ (x.acked.contains (fld b 4 4) = true ∨ x.next ≤ fld b 4 4) := fun h => h.elim (fun h => hnew (List.contains_iff_mem.1 h)) (by omega)
  unfold Dev.drainAck
  simp only [hm, hext, hop, hstep, hlen, ne_eq, not_true_eq_false, or_self, if_false, if_neg hpart, if_neg hopen]

end

/-! ## Data of an external restore -/

theorem Dev.drainData_idle (hidle : e.recov.fetch = none ∨ e.self = none) : d.drainData h = e := by
  unfold Dev.drainData
  simp only [hm]
  split
  · next hfetch hself => rcases hidle with hnone | hnone <;> simp_all only [reduceCtorEq]
  · rfl

variable {i off me : Nat} (hfetch : e.recov.fetch = some (i, off)) (hself : e.self = some me)
include hfetch hself

/-- A message that is not the data asked for. -/
theorem Dev.drainData_other (hnot : ¬ (fld b 0 4 = 5 ∧ fld b 4 4 = (if i < (e.partsOf me).length then i else 0xFFFFFFFF) ∧ fld b 0x10 4 = off ∧
    b.length = 32 + fld b 0x14 4 ∧ fld b 0x14 4 = min 65536 (partsLen (e.partsOf me) i - off))) : d.drainData h = e := by
  unfold Dev.drainData
  simp only [hm, hfetch, hself]
  refine if_pos (Classical.byContradiction fun hall => hnot ?_)
  simpa only [partsLen, not_or, ne_eq, not_not] using hall

variable (hasked : fld b 0 4 = 5 ∧ fld b 4 4 = (if i < (e.partsOf me).length then i else 0xFFFFFFFF) ∧ fld b 0x10 4 = off ∧
  b.length = 32 + fld b 0x14 4 ∧ fld b 0x14 4 = min 65536 (partsLen (e.partsOf me) i - off))
include hasked

omit hm hfetch hself in
theorem Dev.asked_not : ¬ (fld b 0 4 ≠ 5 ∨ fld b 4 4 ≠ (if i < (e.partsOf me).length then i else 0xFFFFFFFF) ∨ fld b 0x10 4 ≠ off ∨
    b.length ≠ 32 + fld b 0x14 4 ∨ fld b 0x14 4 ≠ min 65536 (partsLen (e.partsOf me) i - off)) := by
  simpa only [not_or, ne_eq, not_not] using hasked

theorem Dev.drainData_part (hlt : off + fld b 0x14 4 < partsLen (e.partsOf me) i) : d.drainData h =
    ((e.dataHeld (if i < (e.partsOf me).length then i else manifestNo) b).putFetch (some (i, off + fld b 0x14 4))).fetchNext (e.partsOf me) := by
  unfold Dev.drainData
  simp only [hm, hfetch, hself]
  exact (if_neg (Dev.asked_not hasked)).trans (congrArg (Dev.fetchNext · (e.partsOf me)) (if_pos hlt))

theorem Dev.drainData_end (hle : partsLen (e.partsOf me) i ≤ off + fld b 0x14 4) : d.drainData h =
    let ps := e.partsOf me
    let next := if i = ps.length then 0 else i + 1
    let kept := (e.dataHeld (if i < ps.length then i else manifestNo) b).putFetch (if next < ps.length then some (next, 0) else none)
    let f := if i < ps.length then kept.bump Reg.RESTORE_PARTS_DONE 0 else kept
    (if next < ps.length then f else f.p Reg.RESTORE_STATE 2).fetchNext ps := by
  unfold Dev.drainData
  simp only [hm, hfetch, hself]
  refine (if_neg (Dev.asked_not hasked)).trans (congrArg (Dev.fetchNext · (e.partsOf me)) ((if_neg (Nat.not_lt.2 hle)).trans ?_))
  exact congrArg (fun f : Dev => if (if i = (e.partsOf me).length then 0 else i + 1) < (e.partsOf me).length then f else f.p Reg.RESTORE_STATE 2)
    (Dev.putFetch_counted _ _ _)

end

end

/-! ## The start of a restore -/

/-- The device once the spares are assigned: the restore's own words start afresh, and the SPARES page follows. -/
def Dev.restoreBegun (d : Dev) (m : Mem) : Dev :=
  let list := d.srcBytes m 2 (d.g Reg.RESTORE_LIST_ADDR) (4 * d.g Reg.RESTORE_LIST_COUNT)
  let addrs := (List.range (d.g Reg.RESTORE_LIST_COUNT)).map fun i => fld list (4 * i) 3 % 2 ^ 18
  let byMember := sortBy (fun a b => decide ((d.memberOf a).getD (2 ^ 18) ≤ (d.memberOf b).getD (2 ^ 18))) addrs
  let e := byMember.foldl Dev.assignSpare d
  ({ e with recov := { e.recov with
    epoch := e.g Reg.RESTORE_EPOCH, held := [], fetch := none, restored := none, got := e.recov.got.filter (fun g => g.1 = 0)
    transfers := if d.g Reg.RESTORE_SOURCE = 1 then [] else e.recov.transfers.filter fun t => t.use = 0 } } : Dev).sparesView.p Reg.RESTORE_PARTS_DONE 0

/-- A spare taken into use: its plan is placed at once. -/
def Dev.spareIn (d : Dev) : Dev :=
  let d := (d.p Reg.SPARES_ROLE 3).raise pgRestore 0x0D08 10 Sev.info (d.self.getD 0)
  match d.place d.nextFaults (if d.g Reg.BRINGUP_LEVEL = 2 then 5 else Dr.opPlan d.plan.draft) with
  | .ok p => ({ d with plan := { d.plan with ready := some p, causes := [3], replanning := false } }.setParts p).p Reg.RESTORE_STATE 1
  | .reject _ _ _ => d.restoreFailed 0xFFFFFFFF

/-- A fetch from outside begins with the manifest. -/
def Dev.restoreFetch (d : Dev) (me : Nat) : Dev :=
  (({ (d.p Reg.RESTORE_STATE 1).p Reg.PARTNER_ATTIC_STATE 0 with recov := { d.recov with fetch := some ((d.partsOf me).length, 0) } } : Dev)).fetchNext
    (d.partsOf me)

/-- The transfers that the package makes to the failed members of the list. -/
def Dev.restoreSends (d : Dev) (failed : List Nat) (me : Nat) : Dev :=
  failed.foldl (fun (d : Dev) i =>
    let a := d.memberAddr i
    let add := fun (d : Dev) (use step : Nat) => d.setTransfers (d.recov.transfers ++ [({ dst := a, use := use, step := step } : Transfer)])
    let d := if partnerOf d.plan.draft i = some me then add d 1 (d.g64 Reg.PARTNER_ATTIC_STEP_LO Reg.PARTNER_ATTIC_STEP_HI) else d
    if partnerOf d.plan.draft me = some i then add d 2 (d.stepNo - 1) else d) d

/-- The restore of a package of its own member index. -/
def Dev.restoreGoes (d : Dev) (ext spare : Prop) [Decidable ext] [Decidable spare] (failed : List Nat) : Dev :=
  match d.self with
  | none => d
  | some me =>
    if d.g Reg.RESTORE_STATE = 4 ∧ spare then d
    else if ext then d.restoreFetch me
    else if spare then d.restoreSends failed me else ((d.restoreSends failed me).p Reg.RESTORE_STATE 3).raise pgRestore 0x0D06 8 Sev.info 0


section
variable {d : Dev} {m : Mem}

theorem Dev.restoreStart_eq : d.restoreStart m =
    if d.g Reg.RESTORE_EPOCH = d.recov.epoch ∨ d.plan.draft = [] then d
    else
      let list := d.srcBytes m 2 (d.g Reg.RESTORE_LIST_ADDR) (4 * d.g Reg.RESTORE_LIST_COUNT)
      let addrs := (List.range (d.g Reg.RESTORE_LIST_COUNT)).map fun i => fld list (4 * i) 3 % 2 ^ 18
      let failed := sortBy (fun a b => decide (a ≤ b)) (addrs.filterMap d.memberOf)
      let e := d.restoreBegun m
      let spare := decide (e.self ≠ none ∧ d.self ≠ e.self)
      (if spare = true then e.spareIn else e).restoreGoes (d.g Reg.RESTORE_SOURCE = 1) (spare = true) failed := by
  refine ite_congr rfl (fun _ => rfl) fun _ => ?_
  extract_lets list addrs ext was failed byMember e₁ e₂ e₃ begun spare e₅ pl entered src₁ src₂ e' spare'
  have hbegun : e' = begun := rfl
  have hspare : spare' = spare := by
    show decide (e'.self ≠ none ∧ d.self ≠ e'.self) = decide (begun.self ≠ none ∧ was ≠ begun.self)
    rw [hbegun]
  have hentered : (if spare' = true then e'.spareIn else e') = entered := by
    rw [hspare, hbegun]
    rfl
  rw [hentered, hspare]
  rfl
end

/-- A fold whose every step appends one element. -/
theorem length_foldl_of_pushes {α β γ : Type} (f : List α × β → γ → List α × β) (hf : ∀ a x, (f a x).1.length = a.1.length + 1)
    (xs : List γ) (a : List α × β) : (xs.foldl f a).1.length = a.1.length + xs.length := by
  induction xs generalizing a with
  | nil => rfl
  | cons x xs ih =>
    rw [List.foldl_cons, ih, hf, List.length_cons]
    omega

theorem Dev.layoutStack_length {d : Dev} {s : Nat} {sizes : List Nat} {ps : List (Nat × Nat)} (h : d.layoutStack s sizes = some ps) : ps.length = 5 := by
  unfold Dev.layoutStack at h
  simp only at h
  split at h
  · cases h
  · cases h
    rw [List.length_append, List.length_singleton]
    refine congrArg (· + 1) (length_foldl_of_pushes _ (fun a p => ?_) _ _)
    split
    · exact List.length_append
    · exact List.length_append

theorem Dev.lt_of_mem_placeStacks {d : Dev} {f : List (Nat × Nat)} {s : Nat} (h : s ∈ d.placeStacks f) : s < 8 := by
  unfold Dev.placeStacks at h
  split at h
  · cases h
  · exact List.mem_range.1 (List.mem_of_mem_filter h)

/-- The partitions of a plan are those of stacks that exist, at most five of each. -/
theorem Dev.place_parts {d : Dev} {f : List (Nat × Nat)} {op : Nat} {q : Plan} (h : d.place f op = .ok q) :
    ∀ x ∈ q.parts, x.1 < 8 ∧ x.2.length ≤ 5 := by
  have hparts : ∃ sizes, q.parts = (((d.placeStacks f).filter fun s => ! d.quietStack s).map fun s => (s, d.layoutStack s sizes)).map
      fun x => (x.1, x.2.getD []) := by
    unfold Dev.place at h
    extract_lets at h
    split at h
    · cases h
    · split at h
      · cases h
      · split at h
        · cases h
        · split at h
          · cases h
          · split at h
            · cases h
            · split at h
              · cases h
              · cases h
                exact ⟨_, rfl⟩
  obtain ⟨sizes, hparts⟩ := hparts
  intro x hx
  rw [hparts, List.map_map] at hx
  obtain ⟨s, hs, rfl⟩ := List.mem_map.1 hx
  refine ⟨Dev.lt_of_mem_placeStacks (List.mem_of_mem_filter hs), ?_⟩
  show ((d.layoutStack s sizes).getD []).length ≤ 5
  cases hlay : d.layoutStack s sizes with
  | none => exact Nat.zero_le _
  | some ps => exact Nat.le_of_eq (Dev.layoutStack_length hlay)

/-! ## What a restore leaves alone -/

/-- A part of the device that the course of a restore leaves alone. -/
structure BesideRestore {β : Type} (p : Dev → β) : Prop where
  state : ∀ (d : Dev) v, p (d.p Reg.RESTORE_STATE v) = p d
  attic : ∀ (d : Dev) v, p (d.p Reg.PARTNER_ATTIC_STATE v) = p d
  event : ∀ (d : Dev) code pos sev detail, pos = 8 ∨ pos = 9 → p (d.raise pgRestore code pos sev detail) = p d
  fetch : ∀ (d : Dev) x, p (d.putFetch x) = p d
  transfers : ∀ (d : Dev) x, p (d.setTransfers x) = p d
  msg : ∀ (d : Dev) id chan m, p (d.queueMsg id chan m) = p d
  parts : ∀ (d : Dev) (q : Plan), (∀ x ∈ q.parts, x.1 < 8 ∧ x.2.length ≤ 5) → p (d.setParts q) = p d
  ready : ∀ (d : Dev) q, p { d with plan := { d.plan with ready := some q, causes := [3], replanning := false } } = p d

/-- The device with the role of a spare in use, and its event. -/
def Dev.spareRole (d : Dev) : Dev := (d.p Reg.SPARES_ROLE 3).raise pgRestore 0x0D08 10 Sev.info (d.self.getD 0)

theorem BesideRegs.restore {β : Type} {p : Dev → β} (hp : BesideRegs p)
    (hhost : ∀ (d : Dev) (x : HostSt), x.wallBase = d.host.wallBase → p { d with host := x } = p d)
    (hout : ∀ (d : Dev) x, p { d with out := x } = p d) (hshadow : ∀ (d : Dev) x, p { d with shadow := x } = p d)
    (hfetch : ∀ (d : Dev) x, p (d.putFetch x) = p d) (htransfers : ∀ (d : Dev) x, p (d.setTransfers x) = p d)
    (hready : ∀ (d : Dev) q, p { d with plan := { d.plan with ready := some q, causes := [3], replanning := false } } = p d) : BesideRestore p where
  state d v := hp.set d _ _ 0 v
  attic d v := hp.set d _ _ 0 v
  event d code pos sev detail _ := hp.raise d pgRestore code pos sev detail
  fetch := hfetch
  transfers := htransfers
  msg := (hp.host hhost hout).queueMsg
  parts d q _ := foldl_keeps p _ (fun e x => (hshadow _ _).trans (foldl_keeps p _ (fun e y => (hp.set _ _ _ _ _).trans (hp.set _ _ _ _ _)) _ _)) _ _
  ready := hready

/-- A field that no message, partition or state of a restore is kept in. -/
def offRestore (g : Field) : Bool :=
  inBody g && offTx g && decide (g.cls ≠ 5 ∧ g.page < 16) && fieldsApart Reg.RESTORE_STATE g && fieldsApart Reg.PARTNER_ATTIC_STATE g

theorem bodyAt_parts {i : Nat} (h : i < 5) : Reg.HBM_PART_BASE.bodyAt i ∧ Reg.HBM_PART_SIZE.bodyAt i := by
  unfold Field.bodyAt Field.place Reg.HBM_PART_BASE Reg.HBM_PART_SIZE
  simp only
  omega

/-- The partitions of a plan change words of stacks only. -/
theorem Dev.setParts_keeps {β : Type} (p : Dev → β) (hshadow : ∀ (d : Dev) x, p { d with shadow := x } = p d)
    (hbase : ∀ (d : Dev) k v i, k < 8 → i < 5 → p (d.wr Reg.HBM_PART_BASE (hbmInst k) v i) = p d)
    (hsize : ∀ (d : Dev) k v i, k < 8 → i < 5 → p (d.wr Reg.HBM_PART_SIZE (hbmInst k) v i) = p d) (d : Dev) (q : Plan)
    (hq : ∀ x ∈ q.parts, x.1 < 8 ∧ x.2.length ≤ 5) : p (d.setParts q) = p d := by
  refine foldl_keeps_mem p _ _ (fun e x hx => ?_) _
  obtain ⟨hstack, hlen⟩ := hq x hx
  refine (hshadow _ _).trans (foldl_keeps_mem p _ _ (fun e y hy => ?_) _)
  have hi : y.2 < 5 := Nat.lt_of_lt_of_le (List.snd_lt_of_mem_zipIdx hy) (by omega)
  exact (hsize _ _ _ _ hstack hi).trans (hbase _ _ _ _ hstack hi)

theorem besideRestore_g {g : Field} (hg : offRestore g = true) : BesideRestore fun d => d.g g := by
  unfold offRestore at hg
  simp only [Bool.and_eq_true, decide_eq_true_eq] at hg
  obtain ⟨⟨⟨⟨hbody, htx⟩, hcls, hpage⟩, hstate⟩, hattic⟩ := hg
  have hplace : g.place 0 < 131072 := (of_decide_eq_true hbody).2
  have hpg (k : Nat) (h : k < 8) (f : Field) (hf : f.cls = 5 ∧ f.page = 1) : f.pg (hbmInst k) ≠ g.pg 0 := by
    unfold Field.pg pageNum hbmInst
    omega
  exact {
    state := fun d v => d.g_p_ne v hstate
    attic := fun d v => d.g_p_ne v hattic
    event := fun d code pos sev detail _ => d.g_raise_body _ _ _ _ _ hbody
    fetch := fun _ _ => rfl
    transfers := fun _ _ => rfl
    msg := (besideHost_rd htx 0).queueMsg
    parts := Dev.setParts_keeps (fun d => d.g g) (fun _ _ => rfl)
      (fun d k v i hk hi => d.rd_wr_page _ _ _ (bodyAt_parts hi).1.2 hplace (hpg k hk _ ⟨rfl, rfl⟩))
      (fun d k v i hk hi => d.rd_wr_page _ _ _ (bodyAt_parts hi).2.2 hplace (hpg k hk _ ⟨rfl, rfl⟩))
    ready := fun _ _ => rfl }

/-- The event bit of a spare taken into use. -/
theorem besideRestore_event : BesideRestore fun d => bit (d.hd Hdr.EVT_BLOCK pgRestore) 2 where
  state d v := by rw [Dev.p, d.hd_wr_body _ _ _ (by decide) (by decide)]
  attic d v := by rw [Dev.p, d.hd_wr_body _ _ _ (by decide) (by decide)]
  event d code pos sev detail hpos := by
    have hne : (2 ^ (pos - 8)).testBit 2 = false := by
      rcases hpos with rfl | rfl
      · decide
      · decide
    rw [d.raise_hd_block code sev detail (by omega), bit, bit, Nat.testBit_mod_two_pow, setBit, Nat.testBit_or, hne, Bool.or_false]
    exact Bool.true_and _
  fetch _ _ := rfl
  transfers _ _ := rfl
  msg := BesideHost.queueMsg (p := fun d => bit (d.hd Hdr.EVT_BLOCK pgRestore) 2) ⟨fun d f port v hf => congrArg (bit · 2)
    (d.hd_wr_body (h := Hdr.EVT_BLOCK) _ _ _ (by decide) (List.all_eq_true.1 (by decide : txFields.all inBody = true) f hf)),
    fun _ _ _ => rfl, fun _ _ => rfl⟩
  parts := Dev.setParts_keeps (fun d => bit (d.hd Hdr.EVT_BLOCK pgRestore) 2) (fun _ _ => rfl)
    (fun d k v i _ hi => congrArg (bit · 2) (d.hd_wr_copy (g := Hdr.EVT_BLOCK) _ _ _ (by decide) (bodyAt_parts hi).1))
    (fun d k v i _ hi => congrArg (bit · 2) (d.hd_wr_copy (g := Hdr.EVT_BLOCK) _ _ _ (by decide) (bodyAt_parts hi).2))
  ready _ _ := rfl

namespace BesideRestore

variable {β : Type} {p : Dev → β} (hp : BesideRestore p)
include hp

theorem failed (d : Dev) (n : Nat) : p (d.restoreFailed n) = p d := (hp.event _ _ _ _ _ (.inr rfl)).trans (hp.state _ _)

theorem spareIn (d : Dev) : p d.spareIn = p d.spareRole := by
  show p (match d.spareRole.place d.spareRole.nextFaults _ with | .ok q => _ | .reject _ _ _ => _) = _
  split
  · next q hq => exact (hp.state _ _).trans ((hp.parts _ _ (Dev.place_parts hq)).trans (hp.ready _ _))
  · exact hp.failed _ _

theorem fetchNext (d : Dev) (ps : Parts) : p (d.fetchNext ps) = p d := by
  unfold Dev.fetchNext
  split
  · exact hp.msg _ _ _ _
  · rfl

theorem restoreFetch (d : Dev) (me : Nat) : p (d.restoreFetch me) = p d :=
  (hp.fetchNext _ _).trans ((hp.fetch ((d.p Reg.RESTORE_STATE 1).p Reg.PARTNER_ATTIC_STATE 0) _).trans ((hp.attic _ _).trans (hp.state _ _)))

theorem restoreSends (d : Dev) (failed : List Nat) (me : Nat) : p (d.restoreSends failed me) = p d := by
  refine foldl_keeps p _ (fun e i => ?_) _ _
  simp only [apply_ite p, hp.transfers, ite_self]

theorem restoreGoes (d : Dev) (ext spare : Prop) [Decidable ext] [Decidable spare] (failed : List Nat) :
    p (d.restoreGoes ext spare failed) = p d := by
  unfold Dev.restoreGoes
  split
  · rfl
  · simp only [apply_ite p, hp.restoreFetch, hp.restoreSends, hp.state, hp.event _ _ _ _ _ (.inl rfl), ite_self]

end BesideRestore

/-! ## The spares of a restore -/

theorem Dev.assignSpare_keeps {β : Type} (p : Dev → β)
    (hplan : ∀ (d : Dev) l r, p { d with plan := { d.plan with lostSpares := l, replaced := r } } = p d)
    (hraise : ∀ (d : Dev) code pos sev detail, p (d.raise pgSpares code pos sev detail) = p d) (d : Dev) (a : Nat) : p (d.assignSpare a) = p d := by
  unfold Dev.assignSpare
  split
  · exact hplan d _ d.plan.replaced
  · extract_lets taken pl e
    have he : p e = p d := hplan d _ _
    split
    · exact (hraise _ _ _ _ _).trans ((hplan e e.plan.lostSpares _).trans he)
    · exact (hraise _ _ _ _ _).trans he

/-- The spares of the list, member by member. -/
def Dev.sparesAssigned (d : Dev) (m : Mem) : Dev :=
  let list := d.srcBytes m 2 (d.g Reg.RESTORE_LIST_ADDR) (4 * d.g Reg.RESTORE_LIST_COUNT)
  let addrs := (List.range (d.g Reg.RESTORE_LIST_COUNT)).map fun i => fld list (4 * i) 3 % 2 ^ 18
  (sortBy (fun a b => decide ((d.memberOf a).getD (2 ^ 18) ≤ (d.memberOf b).getD (2 ^ 18))) addrs).foldl Dev.assignSpare d

section
variable {d : Dev} {m : Mem}

theorem Dev.sparesAssigned_keeps {β : Type} (p : Dev → β)
    (hplan : ∀ (d : Dev) l r, p { d with plan := { d.plan with lostSpares := l, replaced := r } } = p d)
    (hraise : ∀ (d : Dev) code pos sev detail, p (d.raise pgSpares code pos sev detail) = p d) : p (d.sparesAssigned m) = p d :=
  foldl_keeps p _ (fun e a => Dev.assignSpare_keeps p hplan hraise e a) _ _

/-- An empty list assigns none. -/
theorem Dev.sparesAssigned_empty (h : d.g Reg.RESTORE_LIST_COUNT = 0) : d.sparesAssigned m = d := by
  unfold Dev.sparesAssigned
  simp only [h]
  rfl

theorem Dev.restoreBegun_keeps {β : Type} {p : Dev → β} (hp : BesideRegs p) (hrecov : ∀ (d : Dev) x, p { d with recov := x } = p d) :
    p (d.restoreBegun m) = p (d.sparesAssigned m) := by
  refine (hp.set _ _ _ _ _).trans ((hp.sparesView _).trans ?_)
  exact hrecov (d.sparesAssigned m) _

theorem Dev.restoreBegun_draft : (d.restoreBegun m).plan.draft = d.plan.draft :=
  (Dev.restoreBegun_keeps (p := fun d => d.plan.draft) ⟨fun _ _ _ _ _ => rfl, fun _ _ => rfl⟩ fun _ _ => rfl).trans
    (Dev.sparesAssigned_keeps (fun d => d.plan.draft) (fun _ _ _ => rfl) fun d _ _ _ _ => congrArg PlanSt.draft (Dev.raise_plan ..))

theorem Dev.restoreBegun_policy : (d.restoreBegun m).plan.policy = d.plan.policy :=
  (Dev.restoreBegun_keeps (p := fun d => d.plan.policy) ⟨fun _ _ _ _ _ => rfl, fun _ _ => rfl⟩ fun _ _ => rfl).trans
    (Dev.sparesAssigned_keeps (fun d => d.plan.policy) (fun _ _ _ => rfl) fun d _ _ _ _ => congrArg PlanSt.policy (Dev.raise_plan ..))

theorem Dev.restoreBegun_replaced (h : d.g Reg.RESTORE_LIST_COUNT = 0) : (d.restoreBegun m).plan.replaced = d.plan.replaced :=
  (Dev.restoreBegun_keeps (p := fun d => d.plan.replaced) ⟨fun _ _ _ _ _ => rfl, fun _ _ => rfl⟩ fun _ _ => rfl).trans
    (congrArg (fun d : Dev => d.plan.replaced) (Dev.sparesAssigned_empty h))

theorem Dev.g_sparesAssigned {g : Field} (hg : inBody g = true) : (d.sparesAssigned m).g g = d.g g :=
  Dev.sparesAssigned_keeps (fun d => d.g g) (fun _ _ _ => rfl) fun d _ _ _ _ => d.g_raise_body _ _ _ _ _ hg

theorem Dev.g_restoreBegun {g : Field} (hg : inBody g = true) (hdone : fieldsApart Reg.RESTORE_PARTS_DONE g = true)
    (h : [Reg.SPARES_ROLE, Reg.SPARES_OWN_FEED, Reg.SPARES_FEED_SHARED, Reg.SPARES_PARTNER, Reg.SPARES_HOLDS, Reg.SPARES_RING_K, Reg.SPARES_DRAIN,
      Reg.SPARES_SPARES_LEFT].all (fieldsApart · g) = true) : (d.restoreBegun m).g g = d.g g :=
  (Dev.g_p_ne _ _ hdone).trans ((Dev.g_sparesView hg h).trans (Dev.g_sparesAssigned hg))

theorem Dev.restoreBegun_done : (d.restoreBegun m).g Reg.RESTORE_PARTS_DONE = 0 := Dev.g_p_same (f := Reg.RESTORE_PARTS_DONE) _ 0 (by decide) (by decide)

/-- The restore's own words start afresh. -/
theorem Dev.restoreBegun_recov : (d.restoreBegun m).recov.epoch = d.g Reg.RESTORE_EPOCH ∧ (d.restoreBegun m).recov.held = [] ∧
    (d.restoreBegun m).recov.restored = none := by
  have hrecov : BesideRegs Dev.recov := ⟨fun _ _ _ _ _ => rfl, fun _ _ => rfl⟩
  have h : (d.restoreBegun m).recov = { (d.sparesAssigned m).recov with
      epoch := (d.sparesAssigned m).g Reg.RESTORE_EPOCH, held := [], fetch := none, restored := none
      got := (d.sparesAssigned m).recov.got.filter (fun g => g.1 = 0)
      transfers := if d.g Reg.RESTORE_SOURCE = 1 then [] else (d.sparesAssigned m).recov.transfers.filter fun t => t.use = 0 } :=
    (hrecov.set _ _ _ _ _).trans (hrecov.sparesView _)
  rw [h]
  exact ⟨Dev.g_sparesAssigned (by decide), rfl, rfl⟩

/-! ## The course of a restore -/

theorem Dev.self_congr {d e : Dev} (hdraft : e.plan.draft = d.plan.draft) (hreplaced : e.plan.replaced = d.plan.replaced)
    (haddr : e.g Reg.DRAFT_SELF_ADDR = d.g Reg.DRAFT_SELF_ADDR) : e.self = d.self := by
  unfold Dev.self Dev.memberOf Dev.selfAddr
  rw [hdraft, hreplaced, haddr]

theorem Dev.partsOf_congr {d e : Dev} (hdraft : e.plan.draft = d.plan.draft) (hpolicy : e.plan.policy = d.plan.policy)
    (hcarry : e.g Reg.EXCH_CFG_CARRY_MIB = d.g Reg.EXCH_CFG_CARRY_MIB) (me : Nat) : e.partsOf me = d.partsOf me := by
  unfold Dev.partsOf
  rw [hdraft, hpolicy, hcarry]

theorem besideRestore_draft : BesideRestore fun d => d.plan.draft :=
  BesideRegs.restore ⟨fun _ _ _ _ _ => rfl, fun _ _ => rfl⟩ (fun _ _ _ => rfl) (fun _ _ => rfl) (fun _ _ => rfl) (fun _ _ => rfl)
    (fun _ _ => rfl) fun _ _ => rfl

theorem besideRestore_replaced : BesideRestore fun d => d.plan.replaced :=
  BesideRegs.restore ⟨fun _ _ _ _ _ => rfl, fun _ _ => rfl⟩ (fun _ _ _ => rfl) (fun _ _ => rfl) (fun _ _ => rfl) (fun _ _ => rfl)
    (fun _ _ => rfl) fun _ _ => rfl

theorem besideRestore_recov : BesideRestore fun d => (d.recov.epoch, d.recov.held, d.recov.restored) :=
  BesideRegs.restore ⟨fun _ _ _ _ _ => rfl, fun _ _ => rfl⟩ (fun _ _ _ => rfl) (fun _ _ => rfl) (fun _ _ => rfl) (fun _ _ => rfl)
    (fun _ _ => rfl) fun _ _ => rfl

theorem Dev.self_spareIn (d : Dev) : d.spareIn.self = d.self := by
  refine Dev.self_congr ?_ ?_ ?_
  · exact (besideRestore_draft.spareIn d).trans (congrArg PlanSt.draft (Dev.raise_plan ..))
  · exact (besideRestore_replaced.spareIn d).trans (congrArg PlanSt.replaced (Dev.raise_plan ..))
  · exact ((besideRestore_g (by decide)).spareIn d).trans ((Dev.g_raise_body _ _ _ _ _ _ (by decide)).trans (Dev.g_p_ne _ _ (by decide)))

theorem Dev.self_restoreGoes (d : Dev) (ext spare : Prop) [Decidable ext] [Decidable spare] (failed : List Nat) :
    (d.restoreGoes ext spare failed).self = d.self :=
  Dev.self_congr (besideRestore_draft.restoreGoes d ext spare failed) (besideRestore_replaced.restoreGoes d ext spare failed)
    ((besideRestore_g (by decide)).restoreGoes d ext spare failed)

theorem Dev.spareRole_facts (d : Dev) : d.spareRole.g Reg.SPARES_ROLE = 3 ∧ bit (d.spareRole.hd Hdr.EVT_BLOCK pgRestore) 2 = true :=
  ⟨(Dev.g_raise_body _ _ _ _ _ _ (by decide)).trans (d.g_p_same (f := Reg.SPARES_ROLE) 3 (by decide) (by decide)),
    Dev.raise_block_bit _ (pos := 10) _ _ _ (by decide) (by decide)⟩

theorem Dev.restoreFetch_facts (d : Dev) (me : Nat) : (d.restoreFetch me).g Reg.RESTORE_STATE = 1 ∧
    (d.restoreFetch me).g Reg.PARTNER_ATTIC_STATE = 0 ∧ (d.restoreFetch me).recov.fetch = some ((d.partsOf me).length, 0) := by
  have hmsg {β : Type} {p : Dev → β} (hp : BesideHost p) (e : Dev) (ps : Parts) : p (e.fetchNext ps) = p e := by
    unfold Dev.fetchNext
    split
    · exact hp.queueMsg _ _ _ _
    · rfl
  refine ⟨?_, ?_, ?_⟩
  · refine (hmsg (besideHost_rd (g := Reg.RESTORE_STATE) (by decide) 0) _ _).trans ?_
    show ((d.p Reg.RESTORE_STATE 1).p Reg.PARTNER_ATTIC_STATE 0).g Reg.RESTORE_STATE = 1
    exact (Dev.g_p_ne (f := Reg.PARTNER_ATTIC_STATE) (g := Reg.RESTORE_STATE) _ _ (by decide)).trans
      (d.g_p_same (f := Reg.RESTORE_STATE) 1 (by decide) (by decide))
  · refine (hmsg (besideHost_rd (g := Reg.PARTNER_ATTIC_STATE) (by decide) 0) _ _).trans ?_
    exact Dev.g_p_same (f := Reg.PARTNER_ATTIC_STATE) (d.p Reg.RESTORE_STATE 1) 0 (by decide) (by decide)
  · exact hmsg (p := fun d => d.recov.fetch)
      (BesideRegs.host ⟨fun _ _ _ _ _ => rfl, fun _ _ => rfl⟩ (fun _ _ _ => rfl) fun _ _ => rfl) _ _ |>.trans rfl

theorem Dev.restoreReady_facts (d : Dev) (detail : Nat) : ((d.p Reg.RESTORE_STATE 3).raise pgRestore 0x0D06 8 Sev.info detail).g Reg.RESTORE_STATE = 3 ∧
    bit (((d.p Reg.RESTORE_STATE 3).raise pgRestore 0x0D06 8 Sev.info detail).hd Hdr.EVT_BLOCK pgRestore) 0 = true :=
  ⟨(Dev.g_raise_body _ _ _ _ _ _ (by decide)).trans (d.g_p_same (f := Reg.RESTORE_STATE) 3 (by decide) (by decide)),
    Dev.raise_block_bit _ (pos := 8) _ _ _ (by decide) (by decide)⟩

theorem Dev.restoreGoes_ext {ext spare : Prop} [Decidable ext] [Decidable spare] {failed : List Nat} {me : Nat} (hself : d.self = some me)
    (hspare : ¬ spare) (hext : ext) : d.restoreGoes ext spare failed = d.restoreFetch me := by
  unfold Dev.restoreGoes
  simp only [hself]
  rw [if_neg fun h => hspare h.2, if_pos hext]

theorem Dev.restoreGoes_attic {ext spare : Prop} [Decidable ext] [Decidable spare] {failed : List Nat} {me : Nat} (hself : d.self = some me)
    (hspare : ¬ spare) (hext : ¬ ext) : d.restoreGoes ext spare failed =
      ((d.restoreSends failed me).p Reg.RESTORE_STATE 3).raise pgRestore 0x0D06 8 Sev.info 0 := by
  unfold Dev.restoreGoes
  simp only [hself]
  rw [if_neg fun h => hspare h.2, if_neg hext, if_neg hspare]

/-- What a restore that is acted on does. -/
theorem Dev.restoreStart_facts (hepoch : d.g Reg.RESTORE_EPOCH ≠ d.recov.epoch) (hdraft : d.plan.draft ≠ []) :
    let t := d.restoreStart m
    t.recov.epoch = d.g Reg.RESTORE_EPOCH ∧ t.recov.restored = none ∧ t.recov.held = [] ∧
      t.g Reg.RESTORE_PARTS_DONE = 0 ∧ (d.g Reg.RESTORE_LIST_COUNT = 0 → t.plan.replaced = d.plan.replaced) ∧
      (∀ me, d.self = some me → t.self = d.self →
        (d.g Reg.RESTORE_SOURCE = 1 → t.g Reg.RESTORE_STATE = 1 ∧ t.g Reg.PARTNER_ATTIC_STATE = 0 ∧
          t.recov.fetch = some ((d.partsOf me).length, 0)) ∧
        (d.g Reg.RESTORE_SOURCE = 0 → t.g Reg.RESTORE_STATE = 3 ∧ bit (t.hd Hdr.EVT_BLOCK pgRestore) 0 = true)) ∧
      (t.self ≠ none → t.self ≠ d.self → t.g Reg.SPARES_ROLE = 3 ∧ bit (t.hd Hdr.EVT_BLOCK pgRestore) 2 = true) := by
  have hstart := (Dev.restoreStart_eq (d := d) (m := m)).trans (if_neg (not_or.2 ⟨hepoch, hdraft⟩))
  extract_lets list addrs failed e spare at hstart
  have hrecov : (e.recov.epoch, e.recov.held, e.recov.restored) = (d.g Reg.RESTORE_EPOCH, [], none) := by
    obtain ⟨hepoch, hheld, hrestored⟩ := Dev.restoreBegun_recov (d := d) (m := m)
    rw [hepoch, hheld, hrestored]
  have hdone : e.g Reg.RESTORE_PARTS_DONE = 0 := Dev.restoreBegun_done
  have hreplaced : d.g Reg.RESTORE_LIST_COUNT = 0 → e.plan.replaced = d.plan.replaced := Dev.restoreBegun_replaced
  have hparts (me : Nat) : e.partsOf me = d.partsOf me :=
    Dev.partsOf_congr Dev.restoreBegun_draft Dev.restoreBegun_policy (Dev.g_restoreBegun (by decide) (by decide) (by decide)) me
  have hspare : spare = decide (e.self ≠ none ∧ d.self ≠ e.self) := rfl
  clear_value e spare failed
  intro t
  have ht : t = (if spare = true then e.spareIn else e).restoreGoes (d.g Reg.RESTORE_SOURCE = 1) (spare = true) failed := hstart
  have hself : t.self = e.self := by
    rw [ht, Dev.self_restoreGoes]
    split
    · exact e.self_spareIn
    · rfl
  have hgoes {β : Type} {p : Dev → β} (hp : BesideRestore p) : p t = p (if spare = true then e.spareIn else e) :=
    (congrArg p ht).trans (hp.restoreGoes _ _ _ _)
  have hkept {β : Type} {p : Dev → β} (hp : BesideRestore p) (hrole : p e.spareRole = p e) : p t = p e := by
    rw [hgoes hp]
    split
    · exact (hp.spareIn e).trans hrole
    · rfl
  have hrecov' := (hkept besideRestore_recov (congrArg (fun r : RecSt => (r.epoch, r.held, r.restored)) (Dev.raise_recov ..))).trans hrecov
  obtain ⟨hepoch', hheld', hrestored'⟩ := Prod.mk.inj hrecov' |>.imp id Prod.mk.inj
  refine ⟨hepoch', hrestored', hheld', ?_, fun h => ?_, fun me hme hsame => ?_, fun hsome hother => ?_⟩
  · exact (hkept (besideRestore_g (by decide)) ((Dev.g_raise_body _ _ _ _ _ _ (by decide)).trans (Dev.g_p_ne _ _ (by decide)))).trans hdone
  · exact (hkept besideRestore_replaced (congrArg PlanSt.replaced (Dev.raise_plan ..))).trans (hreplaced h)
  · have hfalse : ¬ spare = true := by
      rw [hspare, ← hself, hsame]
      simp only [ne_eq, not_true_eq_false, and_false, decide_false, Bool.false_eq_true, not_false_eq_true]
    rw [if_neg hfalse] at ht
    have hme' : e.self = some me := hself.symm.trans (hsame.trans hme)
    refine ⟨fun hsource => ?_, fun hsource => ?_⟩
    · rw [ht, Dev.restoreGoes_ext hme' hfalse hsource, ← hparts me]
      exact e.restoreFetch_facts me
    · rw [ht, Dev.restoreGoes_attic hme' hfalse (by omega)]
      exact Dev.restoreReady_facts _ _
  · have htrue : spare = true := by
      rw [hspare, ← hself]
      exact decide_eq_true ⟨hsome, hother.symm⟩
    have hrole {β : Type} {p : Dev → β} (hp : BesideRestore p) : p t = p e.spareRole :=
      (hgoes hp).trans ((congrArg p (if_pos htrue)).trans (hp.spareIn e))
    exact ⟨(hrole (besideRestore_g (by decide))).trans e.spareRole_facts.1, (hrole besideRestore_event).trans e.spareRole_facts.2⟩

end

/-! ## The end of a restore -/

/-- The source of a restore is outside. -/
def Dev.restoreOutside (d : Dev) : Bool := decide (d.g Reg.RESTORE_SOURCE = 1)

/-- Part `i` of what a restore holds, or its manifest. -/
def Dev.restoreRead (d : Dev) (m : Mem) (ps : Parts) (i : Nat) : List Byte :=
  if d.restoreOutside = true then SMap.at d.recov.held (if i < ps.length then i else manifestNo) [] else d.arrived m 1 ps i

/-- A restore holds everything. -/
def Dev.restoreWhole (d : Dev) (ps : Parts) : Bool :=
  if d.restoreOutside = true then d.recov.fetch.isNone && (SMap.find d.recov.held manifestNo).isSome else d.refilled ps

def Dev.restoreDigest (d : Dev) : List Byte := (List.range 8).flatMap fun i => natLe 4 (d.g Reg.RESTORE_MANIFEST_DIGEST i)

/-- The device with a restore READY: nothing is held any more. -/
def Dev.restoreReady (d : Dev) (outside : Bool) (n step : Nat) : Dev :=
  let d : Dev := { d with recov := { d.recov with restored := some step, held := [] } }
  ((if outside = true then d else d.p Reg.RESTORE_PARTS_DONE n).p Reg.RESTORE_STATE 3).raise pgRestore 0x0D06 8 Sev.info (ofB outside)

theorem Dev.restoreReady_kept (d : Dev) (outside : Bool) (n step : Nat) : (d.restoreReady outside n step).recov.restored = some step ∧
    (d.restoreReady outside n step).recov.held = [] ∧ (d.restoreReady outside n step).writes = d.writes := by
  unfold Dev.restoreReady
  simp only
  rw [Dev.raise_recov, Dev.raise_writes]
  split
  · exact ⟨rfl, rfl, rfl⟩
  · exact ⟨rfl, rfl, rfl⟩

section
variable {d : Dev} {m : Mem} {me : Nat}

theorem Dev.restoreAccept_off (h : d.self = none ∨ (d.g Reg.RESTORE_STATE ≠ 1 ∧ d.g Reg.RESTORE_STATE ≠ 2)) : d.restoreAccept m = d := by
  unfold Dev.restoreAccept
  split
  · rfl
  · next hself =>
    rcases h with hnone | hstate
    · cases hself.symm.trans hnone
    · exact if_pos (.inl hstate)

theorem Dev.restoreAccept_partial (h : ∀ me, d.self = some me → d.restoreWhole (d.partsOf me) = false) : d.restoreAccept m = d := by
  unfold Dev.restoreAccept
  split
  · rfl
  · next me hself =>
    refine if_pos (.inr (congrArg (! ·) (Eq.trans ?_ (h me hself))))
    exact if_congr decide_eq_true_iff.symm rfl rfl

variable (hself : d.self = some me) (hstate : d.g Reg.RESTORE_STATE = 1 ∨ d.g Reg.RESTORE_STATE = 2) (hwhole : d.restoreWhole (d.partsOf me) = true)
include hself hstate hwhole

theorem Dev.restoreAccept_whole : d.restoreAccept m =
    let ps := d.partsOf me
    let man := d.restoreRead m ps ps.length
    match d.badPart man me ps (d.restoreRead m ps) with
    | some i => d.restoreFailed i
    | none =>
      if d.restoreOutside = true ∧ shake256 man ≠ d.restoreDigest then d.restoreFailed 0xFFFFFFFF
      else (d.makeLive d.restoreOutside ps (d.restoreRead m ps)).restoreReady d.restoreOutside ps.length (fld man 8 8) := by
  have hon : ¬ (d.g Reg.RESTORE_STATE ≠ 1 ∧ d.g Reg.RESTORE_STATE ≠ 2) := by omega
  simp only [Dev.restoreWhole, Dev.restoreOutside, decide_eq_true_eq] at hwhole
  unfold Dev.restoreAccept Dev.restoreReady Dev.restoreRead Dev.restoreDigest Dev.restoreOutside
  simp only [hself, hwhole, if_neg hon, decide_eq_true_eq, Bool.not_true, Bool.false_eq_true, or_false] <;> rfl

theorem Dev.restoreAccept_bad {i : Nat} (hbad : d.badPart (d.restoreRead m (d.partsOf me) (d.partsOf me).length) me (d.partsOf me)
    (d.restoreRead m (d.partsOf me)) = some i) : d.restoreAccept m = d.restoreFailed i := by
  rw [Dev.restoreAccept_whole hself hstate hwhole]
  simp only [hbad]

variable (hbad : d.badPart (d.restoreRead m (d.partsOf me) (d.partsOf me).length) me (d.partsOf me) (d.restoreRead m (d.partsOf me)) = none)
include hbad

theorem Dev.restoreAccept_digest (hext : d.restoreOutside = true)
    (hdigest : shake256 (d.restoreRead m (d.partsOf me) (d.partsOf me).length) ≠ d.restoreDigest) : d.restoreAccept m = d.restoreFailed 0xFFFFFFFF := by
  rw [Dev.restoreAccept_whole hself hstate hwhole]
  simp only [hbad]
  exact if_pos ⟨hext, hdigest⟩

/-- What a restore that is accepted leaves. -/
theorem Dev.restoreAccept_live (hdigest : d.restoreOutside = true → shake256 (d.restoreRead m (d.partsOf me) (d.partsOf me).length) = d.restoreDigest) :
    let t := d.restoreAccept m
    t.recov.restored = some (fld (d.restoreRead m (d.partsOf me) (d.partsOf me).length) 8 8) ∧ t.recov.held = [] ∧ t.g Reg.RESTORE_STATE = 3 ∧
      bit (t.hd Hdr.EVT_BLOCK pgRestore) 0 = true ∧
      t.writes = (d.makeLive d.restoreOutside (d.partsOf me) (d.restoreRead m (d.partsOf me))).writes := by
  have ht := Dev.restoreAccept_whole (m := m) hself hstate hwhole
  simp only [hbad] at ht
  rw [if_neg fun h => h.2 (hdigest h.1)] at ht
  rw [ht]
  obtain ⟨hrestored, hheld, hwrites⟩ := (d.makeLive d.restoreOutside (d.partsOf me) (d.restoreRead m (d.partsOf me))).restoreReady_kept
    d.restoreOutside (d.partsOf me).length (fld (d.restoreRead m (d.partsOf me) (d.partsOf me).length) 8 8)
  exact ⟨hrestored, hheld, (Dev.restoreReady_facts _ _).1, (Dev.restoreReady_facts _ _).2, hwrites⟩

end

/-- Settles O58: the cases of the channel messages, of a restore's start and of its end. -/
theorem drainsAndRestores : Obligations.DrainsAndRestores := by
  intro s d
  have hw : d.writes = [] := rfl
  have haccept {e : Dev} (h : d.restoreAccept s.mem = e) (hw : e.writes = []) : exec .restoreAccept s = s.ends e :=
    (congrArg s.endsStore h).trans (endsStore_ends s e hw)
  refine ⟨fun h => ⟨fun hoff => congrArg s.ends (Dev.extSend_off hoff), fun c x hchan hext hkind hslack => ?sends, fun hm =>
    ⟨congrArg s.ends (Dev.drainAck_none hm), congrArg s.ends (Dev.drainData_none hm), congrArg s.ends (Dev.drainLedger_none hm)⟩,
    fun c b e hm => ⟨fun hext => congrArg s.ends (Dev.drainAck_idle hm hext), fun x hext => ?acks, congrArg s.ends (Dev.drainLedger_some hm),
      fun hidle => congrArg s.ends (Dev.drainData_idle hm hidle), fun i off me hfetch hself => ?fetches⟩⟩, fun h => ?acted,
    fun hepoch hdraft => ?starts,
    fun hoff => haccept (Dev.restoreAccept_off hoff) hw, fun me hself hstate => ?ends⟩
  case sends =>
    intro me ps bytes put
    exact ⟨fun hserves => congrArg s.ends (Dev.extSend_other hchan hext hserves), fun i off hserves hactive =>
      congrArg s.ends (Dev.extSend_rest hchan hext hkind hslack hserves hactive), fun hserves hactive =>
      ⟨fun hnext => congrArg s.ends (Dev.extSend_part hchan hext hkind hslack hserves hactive hnext), fun hnext hdone =>
        congrArg s.ends ((Dev.extSend_last hchan hext hkind hslack hserves hactive hnext).trans (if_pos hdone)), fun hnext hsent hidle =>
        congrArg s.ends ((Dev.extSend_last hchan hext hkind hslack hserves hactive hnext).trans
          (if_neg (not_or.2 ⟨Bool.not_eq_true _ ▸ hsent, not_not_intro hidle⟩)))⟩⟩
  case acks =>
    intro mine part
    exact ⟨fun hother => congrArg s.ends (Dev.drainAck_other hm hext hother), fun hmine hpart hsent =>
      congrArg s.ends (Dev.drainAck_manifest hm hext hmine hpart hsent), fun hmine hnext hpart hnew =>
      congrArg s.ends (Dev.drainAck_part hm hext hmine hnext hpart hnew)⟩
  case fetches =>
    intro ps len no n asked next kept
    refine ⟨fun hnot => congrArg s.ends (Dev.drainData_other hm hfetch hself hnot), fun hasked hlt =>
      (congrArg s.ends (Dev.drainData_part hm hfetch hself hasked hlt)).trans ?_, fun hasked hle =>
      (congrArg s.ends (Dev.drainData_end hm hfetch hself hasked hle)).trans ?_⟩
    · exact congrArg (fun x => s.ends (((e.dataHeld no b).putFetch x).fetchNext ps)) (if_pos hlt).symm
    · have hkept : ({ e with recov := kept } : Dev) = (e.dataHeld no b).putFetch (if next < ps.length then some (next, 0) else none) :=
        congrArg (e.dataHeld no b).putFetch (if_neg (Nat.not_lt.2 hle))
      rw [hkept]
  case acted =>
    exact congrArg s.ends (if_pos h)
  case starts =>
    have hfacts := Dev.restoreStart_facts (m := s.mem) hepoch hdraft
    exact ⟨s.after (d.restoreStart s.mem), ends_next rfl, s.after_mem _, s.after_pending _, hfacts⟩
  case ends =>
    intro ps ext whole read man digest fails
    refine ⟨fun hpart => haccept (Dev.restoreAccept_partial fun me' hself' => ?_) hw, fun i hwhole hbad =>
      haccept (Dev.restoreAccept_bad hself hstate hwhole hbad) (Dev.raise_writes ..), fun hwhole hbad hext hdigest =>
      haccept (Dev.restoreAccept_digest hself hstate hwhole hbad hext hdigest) (Dev.raise_writes ..), fun hwhole hbad hdigest => ?_⟩
    · cases hself.symm.trans hself'
      exact hpart
    · obtain ⟨hrestored, hheld, hready, hbit, hwrites⟩ := Dev.restoreAccept_live (m := s.mem) hself hstate hwhole hbad hdigest
      have hexec : exec .restoreAccept s = s.endsStore (d.restoreAccept s.mem) := rfl
      generalize d.restoreAccept s.mem = e at hexec hrestored hheld hready hbit hwrites
      have hman : man = d.restoreRead s.mem ps ps.length := rfl
      rw [hman]
      exact ⟨_, hexec, rfl, hrestored, hheld, hready, hbit, congrArg (Mem.apply s.mem) hwrites⟩

end Sys2Proof.Machine

/-! Resets, their sources and their ends, managers and pins (O59). -/

namespace Sys2Proof.Machine

/-! ## A fallback budget that its register is too narrow for -/

/-- A device whose word kept for the 16 bits of FALLBACK_W is 70,000. No write of the register makes it, and a package reset keeps it (R530). -/
def wideFallbackDev : Dev := { regs := SMap.put [] (Reg.LEASE_FALLBACK_W.key pgLease 0) 70000 }

/-- B_EFF takes the low 16 bits of the budget. -/
theorem wideFallbackDev_budget : wideFallbackDev.clearAll.g Reg.LEASE_B_EFF ≠ wideFallbackDev.clearAll.g Reg.LEASE_FALLBACK_W := by
  decide +kernel

/-- Refutes O59: after a package reset B_EFF is the fallback budget cut to the width of its register, and FALLBACK_W, which the reset keeps and
which is read uncut, can hold more. -/
theorem not_resetsAndPins : ¬ Obligations.ResetsAndPins := by
  intro h
  obtain ⟨⟨hclear, -⟩, -⟩ := h
  obtain ⟨-, -, -, -, -, -, -, -, -, -, -, -, -, -, -, -, -, -, -, -, hbudget, -⟩ := hclear wideFallbackDev
  exact wideFallbackDev_budget hbudget

end Sys2Proof.Machine

/-! Bring-up, self-tests, the fault map, the selvedge and the test port (O60). -/

namespace Sys2Proof.Machine

/-! ## What the enabling of blocks leaves alone -/

/-- A part of the device that the enabling of blocks leaves alone. -/
structure BesideEnable {β : Type} (p : Dev → β) : Prop where
  en : ∀ (d : Dev) pg v, p (d.hw Hdr.CTL_EN pg v) = p d
  bs : ∀ (d : Dev) pg v, p (d.setBs pg v) = p d
  link : ∀ (d : Dev) n v, n < 64 → p (d.wr Reg.LINK_PHY_STATE (linkInst n) v) = p d
  host : ∀ (d : Dev) n v, n < 8 → p (d.wr Reg.HOST_MAC_STATE (hostInst n) v) = p d

theorem BesideRegs.enabling {β : Type} {p : Dev → β} (hp : BesideRegs p) : BesideEnable p :=
  ⟨fun d pg v => hp.set d _ pg 0 v, hp.setBs, fun d _ v _ => hp.set d _ _ 0 v, fun d _ v _ => hp.set d _ _ 0 v⟩

/-- A register of an instance that is of no link or host port. -/
theorem besideEnable_rd {g : Field} {inst : Nat} (hg : inBody g = true) (hi : inst < 4096) (hpage : g.page < 16) (hcls : g.cls ≠ 6 ∧ g.cls ≠ 7) :
    BesideEnable fun d => d.rd g inst where
  en d pg v := d.rd_hw_body pg v inst (by decide) hg
  bs d pg v := d.rd_setBs_body pg v inst hg
  link d n v h := by
    refine d.rd_wr_page _ v _ (by decide) (of_decide_eq_true hg).2 ?_
    unfold Field.pg pageNum linkInst Reg.LINK_PHY_STATE
    dsimp only
    omega
  host d n v h := by
    refine d.rd_wr_page _ v _ (by decide) (of_decide_eq_true hg).2 ?_
    unfold Field.pg pageNum hostInst Reg.HOST_MAC_STATE
    dsimp only
    omega

/-- An event bit of a block. -/
theorem besideEnable_event (pg k : Nat) : BesideEnable fun d => bit (d.hd Hdr.EVT_BLOCK pg) k where
  en d pg' v := congrArg (bit · k) (d.hd_hw_apart _ _ _ (by decide))
  bs d pg' v := congrArg (bit · k) (d.hd_setBs_apart _ _ _ (by decide) (by decide))
  link d n v _ := congrArg (bit · k) (d.hd_wr_body _ _ _ (by decide) (by decide))
  host d n v _ := congrArg (bit · k) (d.hd_wr_body _ _ _ (by decide) (by decide))

namespace BesideEnable

variable {β : Type} {p : Dev → β} (hp : BesideEnable p)
include hp

theorem enHook (d : Dev) (pg : Nat) : p (d.enHook pg true) = p d := by
  have hinst : pgInst pg < 4096 := Nat.mod_lt _ (by decide)
  unfold Dev.enHook
  extract_lets i
  split
  · rfl
  · split
    · unfold Dev.linkEnable
      simp only [Bool.not_true, Bool.false_eq_true, if_false]
      split
      · refine hp.link _ _ _ ?_
        show i / 1024 * 8 + i % 32 < 64
        have : i < 4096 := hinst
        omega
      · rfl
    · split
      · unfold Dev.hostEnable
        simp only [if_true]
        split
        · refine hp.host _ _ _ ?_
          show i / 1024 + 4 * (i % 2) < 8
          have : i < 4096 := hinst
          omega
        · rfl
      · rfl

theorem setEn (d : Dev) (pg : Nat) : p (d.setEn pg true) = p d := by
  unfold Dev.setEn
  simp only [if_true, apply_ite p, hp.bs, hp.enHook, hp.en, ite_self]

theorem enable (d : Dev) (pgs : List Nat) : p (d.enable pgs) = p d := foldl_keeps p _ (fun e pg => hp.setEn e pg) _ _

end BesideEnable

/-! ## STOP_AT, the fault map, the selvedge and the test port -/

section
variable (d : Dev)

theorem Dev.stopAt_stops {v : Nat} (hv : v ≠ 0 ∧ v < 4) (hstopped : d.stopped = false)
    (hstops : (d.level = 1 ∧ v = 1) ∨ (d.level = 2 ∧ v ≠ 3)) :
    d.stopAt v = (Cc.done, (d.p Reg.BRINGUP_STOP_AT v).raise pgBringup 0x0F09 13 Sev.info v) := by
  have hat : (d.p Reg.BRINGUP_STOP_AT v).g Reg.BRINGUP_STOP_AT = v :=
    (d.g_p_same (f := Reg.BRINGUP_STOP_AT) v (by decide) (by decide)).trans (Nat.mod_eq_of_lt hv.2)
  have hlevel : (d.p Reg.BRINGUP_STOP_AT v).level = d.level := d.g_p_ne (f := Reg.BRINGUP_STOP_AT) (g := Reg.BRINGUP_LEVEL) v (by decide)
  unfold Dev.stopAt Dev.stopEvent
  simp only [if_neg hv.1, hstopped, Bool.false_eq_true, if_false, hat, hlevel]
  rw [if_pos (hstops.imp id fun h => ⟨h.1, by omega⟩)]

theorem Dev.stopAt_goes {v : Nat} (hv : v ≠ 0 ∧ v < 4) (h : d.stopped = true ∨ ¬ ((d.level = 1 ∧ v = 1) ∨ (d.level = 2 ∧ v ≠ 3))) :
    d.stopAt v = (Cc.done, d.p Reg.BRINGUP_STOP_AT v) := by
  have hat : (d.p Reg.BRINGUP_STOP_AT v).g Reg.BRINGUP_STOP_AT = v :=
    (d.g_p_same (f := Reg.BRINGUP_STOP_AT) v (by decide) (by decide)).trans (Nat.mod_eq_of_lt hv.2)
  have hlevel : (d.p Reg.BRINGUP_STOP_AT v).level = d.level := d.g_p_ne (f := Reg.BRINGUP_STOP_AT) (g := Reg.BRINGUP_LEVEL) v (by decide)
  unfold Dev.stopAt Dev.stopEvent
  simp only [if_neg hv.1, hat, hlevel]
  by_cases hstopped : d.stopped = true
  · rw [if_pos hstopped]
  · rw [if_neg hstopped, if_neg]
    rintro (h1 | h2)
    · exact (h.resolve_left hstopped) (.inl h1)
    · exact (h.resolve_left hstopped) (.inr ⟨h2.1, by omega⟩)

theorem BesideRegs.emptyView {β : Type} {p : Dev → β} (hp : BesideRegs p) : p d.emptyView = p d := by
  refine foldl_keeps p _ (fun e c => ?_) _ _
  simp only [apply_ite p, Dev.wr, hp.set, ite_self]

theorem Dev.faultMapClear_faults {auth : Bool} (xs : List (Nat × Nat)) (hauth : auth = true) (hheld : d.rst.held = false) :
    (d.faultMapClear auth xs).faults = d.faults.filter fun x => ! xs.contains x := by
  have hp : BesideRegs Dev.faults := ⟨fun _ _ _ _ _ => rfl, fun _ _ => rfl⟩
  unfold Dev.faultMapClear
  simp only [hauth, hheld, Bool.not_true, Bool.false_eq_true, or_self, if_false]
  refine (hp.emptyView _).trans ((foldl_keeps Dev.faults _ (fun e pg => ?_) _ _).trans rfl)
  simp only [apply_ite Dev.faults, hp.setBs, ite_self]

end

/-! ## The service levels -/

theorem Dev.raise_event_kept (d : Dev) {pg pg' pos k : Nat} (code sev detail : Nat) (hlo : 8 ≤ pos) (hk : k < 16)
    (h : bit (d.hd Hdr.EVT_BLOCK pg') k = true) : bit ((d.raise pg code pos sev detail).hd Hdr.EVT_BLOCK pg') k = true := by
  by_cases hpg : pg' = pg
  · subst hpg
    exact d.raise_block_kept code sev detail hlo hk h
  · have hkey (f : Field) (hf : f.place 0 < 131072) : Hdr.EVT_BLOCK.key pg' 0 ≠ f.key pg 0 := key_ne_of_place hf (by decide) (.inr (Ne.symm hpg))
    refine (congrArg (bit · k) (Dev.get_raise _ _ _ _ _ _ _ _ _ ?_)).trans h
    simp only [evtKeys, List.mem_cons, List.not_mem_nil, or_false, not_or]
    exact ⟨hkey _ (by decide), hkey _ (by decide), hkey _ (by decide)⟩

/-- What later events and words of the bring-up leave of a level that is reached: the level, and its event. -/
def Dev.atLevel (d : Dev) (n : Nat) : Prop := d.level = n ∧ bit (d.hd Hdr.EVT_BLOCK pgBringup) 0 = true

section
variable {d : Dev} {n : Nat}

theorem Dev.levelReached_atLevel (hn : n < 4) : (d.levelReached n).atLevel n := by
  refine ⟨?_, Dev.raise_block_bit _ (pos := 8) _ _ _ (by decide) (by decide)⟩
  exact (Dev.g_raise_body _ _ _ _ _ _ (by decide)).trans
    ((d.g_p_same (f := Reg.BRINGUP_LEVEL) n (by decide) (by decide)).trans (Nat.mod_eq_of_lt hn))

theorem Dev.atLevel.raise (h : d.atLevel n) (pg code : Nat) {pos : Nat} (sev detail : Nat) (hpos : 8 ≤ pos) :
    (d.raise pg code pos sev detail).atLevel n :=
  ⟨(Dev.g_raise_body _ _ _ _ _ _ (by decide)).trans h.1, d.raise_event_kept _ _ _ hpos (by decide) h.2⟩

theorem Dev.atLevel.wr (h : d.atLevel n) {f : Field} {inst : Nat} (v : Nat) (hf : inBody f = true) (happart : fieldsApart f Reg.BRINGUP_LEVEL = true)
    (hi : inst < 4096) : (d.wr f inst v).atLevel n :=
  ⟨(d.rd_wr_fields (g := Reg.BRINGUP_LEVEL) v happart hi (by decide)).trans h.1,
    (congrArg (bit · 0) (d.hd_wr_body (h := Hdr.EVT_BLOCK) inst v pgBringup (by decide) hf)).trans h.2⟩

theorem Dev.atLevel.stopEvent (h : d.atLevel n) : d.stopEvent.atLevel n := by
  unfold Dev.stopEvent
  simp only
  split
  · exact h.raise _ _ _ _ (by decide)
  · exact h

theorem Dev.atLevel.subst (h : d.atLevel n) (row : Nat) (on : Bool) : (d.subst row on).atLevel n := by
  have hsubst (e : Dev) (he : e.atLevel n) (v : Nat) : (e.p Reg.INPUT_COND_SUBST v).atLevel n := he.wr v (by decide) (by decide) (by decide)
  unfold Dev.subst
  simp only
  split
  · exact h
  · split
    · exact (hsubst d h _).wr (f := Reg.INPUT_COND_SUBST_COUNT) _ (by decide) (by decide) (by decide)
    · exact hsubst d h _

theorem Dev.atLevel.enable (h : d.atLevel n) (pgs : List Nat) : (d.enable pgs).atLevel n :=
  ⟨((besideEnable_rd (g := Reg.BRINGUP_LEVEL) (inst := 0) (by decide) (by decide) (by decide) (by decide)).enable d pgs).trans h.1,
    ((besideEnable_event pgBringup 0).enable d pgs).trans h.2⟩

end

/-! ### SL1 -/

/-- SL1 as it is entered, before what is reported at it. -/
def Dev.sl1Entered (d : Dev) (strap : Nat) : Dev := ((d.keeperStarts strap).bootEvents).levelReached 1

/-- What is reported at SL1, and what may keep bring-up there. -/
def Dev.sl1Reported (d : Dev) (f0 f1 f2 : Nat) : Dev :=
  let d := if d.sec.fallbackSet then d else d.raise pgLease 0x0C03 10 Sev.warn (d.g Reg.LEASE_FALLBACK_W + 65536)
  let d := if f0 = f1 ∧ f1 = f2 then d else (d.subst 4 true).raise pgInputCond 0x0C10 9 Sev.warn (feedSel f0 f1 f2)
  d.sl1Stops

section
variable (d : Dev)

theorem Dev.sl1_eq (msOp f0 f1 f2 : Nat) : d.sl1 msOp f0 f1 f2 =
    if d.rst.held ∨ ! d.rst.booted ∨ d.level ≠ 0 then d
    else ((d.passTo (max d.rst.runsTo (d.relAt + ms msOp))).sl1Entered (feedSel f0 f1 f2)).sl1Reported f0 f1 f2 := rfl

theorem Dev.sl1Reported_keeps {P : Dev → Prop} (hraise : ∀ (d : Dev) pg code pos sev detail, 8 ≤ pos → P d → P (d.raise pg code pos sev detail))
    (hsubst : ∀ (d : Dev) row on, P d → P (d.subst row on)) (hhalted : ∀ d : Dev, P d → P (d.p Reg.BRINGUP_HALTED 1)) (f0 f1 f2 : Nat) (h : P d) :
    P (d.sl1Reported f0 f1 f2) := by
  unfold Dev.sl1Reported Dev.sl1Stops Dev.stopEvent
  extract_lets d1 d2 d3 n d4 v
  have h1 : P d1 := by
    unfold d1
    split
    · exact h
    · exact hraise _ _ _ _ _ _ (by decide) h
  have h2 : P d2 := by
    unfold d2
    split
    · exact h1
    · exact hraise _ _ _ _ _ _ (by decide) (hsubst _ _ _ h1)
  have h3 : P d3 := by
    unfold d3
    split
    · exact h2
    · exact hraise _ _ _ _ _ _ (by decide) h2
  have h4 : P d4 := by
    unfold d4
    split
    · exact hraise _ _ _ _ _ _ (by decide) (hhalted _ h3)
    · exact h3
  split
  · exact hraise _ _ _ _ _ _ (by decide) h4
  · exact h4

theorem BesideRegs.sl1Reported {β : Type} {p : Dev → β} (hp : BesideRegs p) (f0 f1 f2 : Nat) : p (d.sl1Reported f0 f1 f2) = p d :=
  Dev.sl1Reported_keeps d (P := fun e => p e = p d) (fun e _ _ _ _ _ _ h => (hp.raise e _ _ _ _ _).trans h)
    (fun e _ _ h => (hp.subst e _ _).trans h) (fun e h => (hp.set e _ _ _ _).trans h) f0 f1 f2 rfl

theorem Dev.atLevel.sl1Reported {d : Dev} {n : Nat} (h : d.atLevel n) (f0 f1 f2 : Nat) : (d.sl1Reported f0 f1 f2).atLevel n :=
  d.sl1Reported_keeps (P := fun e => e.atLevel n) (fun _ pg code _ sev detail hpos h => h.raise pg code sev detail hpos)
    (fun _ row on h => h.subst row on) (fun _ h => h.wr (f := Reg.BRINGUP_HALTED) 1 (by decide) (by decide) (by decide)) f0 f1 f2 h

/-- What the keeper takes up beside its registers: the beat timer, the strap, and what its records resume from. -/
theorem BesideRegs.sl1Entered {β : Type} {p : Dev → β} (hp : BesideRegs p) (hstep : ∀ (d : Dev) x, p { d with step := x } = p d)
    (hsec : ∀ (d : Dev) x, p { d with sec := x } = p d) (strap : Nat) :
    p (d.sl1Entered strap) = p { d with timerOn := true, rst := { d.rst with strap := strap } } := by
  let q : Dev → β := fun d => p { d with timerOn := true }
  have hq : BesideRegs q := ⟨fun d f pg i v => hp.set { d with timerOn := true } f pg i v, fun d qs => hp.queues { d with timerOn := true } qs⟩
  have hbefore : q ((((d.setRst { d.rst with strap := strap }).p Reg.SPARES_OWN_FEED strap).enable
      ((d.setRst { d.rst with strap := strap }).p Reg.SPARES_OWN_FEED strap).sl1Pages).resumeTotals) = q (d.setRst { d.rst with strap := strap }) :=
    (hsec _ _).trans ((hq.enabling.enable _ _).trans (hq.set _ _ _ _ _))
  unfold Dev.sl1Entered Dev.levelReached Dev.bootEvents Dev.keeperStarts
  simp only
  refine (hp.raise _ _ _ _ _ _).trans ((hp.set _ _ _ _ _).trans ((hp.raise _ _ _ _ _ _).trans ((hp.raise _ _ _ _ _ _).trans
    ((hp.leaseView hstep _).trans ?_))))
  refine Eq.trans ?_ hbefore
  split
  · exact (hp.set _ _ _ _ _).trans (hp.set _ _ _ _ _)
  · exact (hp.set _ _ _ _ _).trans ((hp.set _ _ _ _ _).trans (hp.set _ _ _ _ _))

theorem Dev.sl1_facts {msOp f0 f1 f2 : Nat} (hheld : d.rst.held = false) (hbooted : d.rst.booted = true) (hlevel : d.level = 0) :
    (d.sl1 msOp f0 f1 f2).atLevel 1 ∧ (d.sl1 msOp f0 f1 f2).timerOn = true ∧
      (d.sl1 msOp f0 f1 f2).now = max d.now (max d.rst.runsTo (d.relAt + ms msOp)) ∧
      (d.sl1 msOp f0 f1 f2).rst.strap = feedSel f0 f1 f2 ∧ (d.sl1 msOp f0 f1 f2).faults = d.faults := by
  have hgo : ¬ (d.rst.held = true ∨ (! d.rst.booted) = true ∨ d.level ≠ 0) := by
    rw [hheld, hbooted, hlevel]
    decide
  rw [d.sl1_eq, if_neg hgo]
  generalize hx : d.passTo (max d.rst.runsTo (d.relAt + ms msOp)) = x
  have hnow : x.now = max d.now (max d.rst.runsTo (d.relAt + ms msOp)) := hx ▸ d.passTo_now _
  have hfaults : x.faults = d.faults :=
    hx ▸ BesideRegs.passTo (p := Dev.faults) ⟨fun _ _ _ _ _ => rfl, fun _ _ => rfl⟩ (fun _ _ => rfl) (fun _ _ => rfl) (fun _ _ => rfl) d _
  have hkept {β : Type} {p : Dev → β} (hp : BesideRegs p) (hstep : ∀ (d : Dev) y, p { d with step := y } = p d)
      (hsec : ∀ (d : Dev) y, p { d with sec := y } = p d) : p ((x.sl1Entered (feedSel f0 f1 f2)).sl1Reported f0 f1 f2) =
        p { x with timerOn := true, rst := { x.rst with strap := feedSel f0 f1 f2 } } :=
    (hp.sl1Reported _ _ _ _).trans (hp.sl1Entered x hstep hsec _)
  refine ⟨?_, ?_, ?_, ?_, ?_⟩
  · exact Dev.atLevel.sl1Reported (Dev.levelReached_atLevel (by decide)) f0 f1 f2
  · exact hkept (p := Dev.timerOn) ⟨fun _ _ _ _ _ => rfl, fun _ _ => rfl⟩ (fun _ _ => rfl) fun _ _ => rfl
  · exact (hkept (p := Dev.now) ⟨fun _ _ _ _ _ => rfl, fun _ _ => rfl⟩ (fun _ _ => rfl) fun _ _ => rfl).trans hnow
  · exact hkept (p := fun d => d.rst.strap) ⟨fun _ _ _ _ _ => rfl, fun _ _ => rfl⟩ (fun _ _ => rfl) fun _ _ => rfl
  · exact (hkept (p := Dev.faults) ⟨fun _ _ _ _ _ => rfl, fun _ _ => rfl⟩ (fun _ _ => rfl) fun _ _ => rfl).trans hfaults

/-! ### SL2 and SL3 -/

/-- The regions of SL2 at their operating point, the level, and its event. -/
def Dev.sl2Entered (d : Dev) : Dev :=
  let rs := d.inDies.map d.sl2Region
  let d := d.p Reg.BRINGUP_SL2_REGION (rs.foldl (fun a r => a + (r / 256 % 4) * 4 ^ (r / 1024)) 0)
  let d := rs.foldl (fun (d : Dev) r => (d.wr Reg.RCLOCK_OP r 5).wr Reg.RCLOCK_TARGET r 5) d
  (d.p Reg.BRINGUP_T_SL2_MS d.sinceRelease).levelReached 2

/-- The ports and the trainings of stacks that begin at SL2. -/
def Dev.sl2Ports (d : Dev) : Dev :=
  let d := d.setRst { d.rst with sl2At := d.now }
  let d := d.enable (d.inDies.flatMap (ioPages 7) ++ d.inDies.flatMap fun die => (List.range 8).flatMap fun i => ioPages 6 (die + i))
  let d := ((List.range 8).filter (! stackOut d.faults ·)).foldl (fun (d : Dev) s => d.wr Reg.HBM_CTL_STATE (hbmInst s) 1) d
  d.stopEvent

/-- R537: what SL2 waits for. -/
def Dev.sl2Ready (d : Dev) : Bool :=
  d.inDies.all fun die => (regionsOf die).all (regionOut d.faults) || bit (d.g Reg.BRINGUP_REGION_DONE) (d.sl2Region die / 256)

theorem Dev.sl2_eq (msOp : Nat) : d.sl2 msOp =
    if d.level ≠ 1 ∨ d.stopped ∨ ! d.sl2Ready then d else (d.passTo (d.relAt + ms msOp)).sl2Entered.sl2Ports := rfl

theorem Dev.sl2Ready_iff : d.sl2Ready = true ↔
    ∀ die ∈ d.inDies, (∀ r ∈ regionsOf die, regionOut d.faults r = true) ∨
      bit (d.g Reg.BRINGUP_REGION_DONE) (d.sl2Region die / 256) = true := by
  unfold Dev.sl2Ready
  simp only [List.all_eq_true, Bool.or_eq_true]

theorem BesideRegs.stopEvent {β : Type} {p : Dev → β} (hp : BesideRegs p) : p d.stopEvent = p d := by
  unfold Dev.stopEvent
  simp only [apply_ite p, hp.raise, ite_self]

theorem Dev.atLevel.sl2Ports {d : Dev} {n : Nat} (h : d.atLevel n) : d.sl2Ports.atLevel n := by
  have htrain (e : Dev) (he : e.atLevel n) (xs : List Nat) (hxs : ∀ s ∈ xs, s < 8) :
      (xs.foldl (fun (d : Dev) s => d.wr Reg.HBM_CTL_STATE (hbmInst s) 1) e).atLevel n := by
    induction xs generalizing e with
    | nil => exact he
    | cons s xs ih =>
      have hs : s < 8 := hxs s List.mem_cons_self
      refine ih _ (he.wr _ (by decide) (by decide) ?_) fun y hy => hxs y (List.mem_cons_of_mem s hy)
      unfold hbmInst
      omega
  have hset : (d.setRst { d.rst with sl2At := d.now }).atLevel n := h
  exact (htrain _ (hset.enable _) _ fun s hs => List.mem_range.1 (List.mem_of_mem_filter hs)).stopEvent

theorem BesideRegs.sl2Ports {β : Type} {p : Dev → β} (hp : BesideRegs p) : p d.sl2Ports = p (d.setRst { d.rst with sl2At := d.now }) :=
  (hp.stopEvent _).trans ((foldl_keeps p _ (fun e s => hp.set e _ _ _ _) _ _).trans (hp.enabling.enable _ _))

theorem Dev.sl2Entered_now : d.sl2Entered.now = d.now :=
  have hp : BesideRegs Dev.now := ⟨fun _ _ _ _ _ => rfl, fun _ _ => rfl⟩
  (hp.raise _ _ _ _ _ _).trans ((hp.set _ _ _ _ _).trans ((hp.set _ _ _ _ _).trans
    ((foldl_keeps Dev.now _ (fun e r => (hp.set _ _ _ _ _).trans (hp.set _ _ _ _ _)) _ _).trans (hp.set _ _ _ _ _))))

theorem Dev.sl2_facts {msOp : Nat} (hlevel : d.level = 1) (hstopped : d.stopped = false) (hready : d.sl2Ready = true) :
    (d.sl2 msOp).atLevel 2 ∧ (d.sl2 msOp).now = max d.now (d.relAt + ms msOp) ∧ (d.sl2 msOp).rst.sl2At = (d.sl2 msOp).now := by
  have hgo : ¬ (d.level ≠ 1 ∨ d.stopped = true ∨ (! d.sl2Ready) = true) := by
    rw [hlevel, hstopped, hready]
    decide
  rw [d.sl2_eq, if_neg hgo]
  have hnow := (Dev.sl2Entered_now (d.passTo (d.relAt + ms msOp))).trans (d.passTo_now _)
  have hat : (d.passTo (d.relAt + ms msOp)).sl2Entered.atLevel 2 := Dev.levelReached_atLevel (by decide)
  generalize (d.passTo (d.relAt + ms msOp)).sl2Entered = x at hnow hat
  have hnow' : x.sl2Ports.now = x.now := BesideRegs.sl2Ports (p := Dev.now) x ⟨fun _ _ _ _ _ => rfl, fun _ _ => rfl⟩
  have hat' : x.sl2Ports.rst.sl2At = x.now := BesideRegs.sl2Ports (p := fun d => d.rst.sl2At) x ⟨fun _ _ _ _ _ => rfl, fun _ _ => rfl⟩
  exact ⟨hat.sl2Ports, hnow'.trans hnow, hat'.trans hnow'.symm⟩

/-- R538: what SL3 waits for. -/
def Dev.sl3Ready (d : Dev) (msOp : Nat) : Bool :=
  ((List.range 8).all fun s => stackOut d.faults s || bit (d.g Reg.BRINGUP_STACK_READY) s) &&
    (d.inRegions.all fun r => bit (d.g Reg.BRINGUP_REGION_DONE) (r / 256)) &&
    ((List.range 32).all (fun p => d.phy p != 2) || decide (d.rst.sl2At + ms 2000 ≤ (d.passTo (d.relAt + ms msOp)).now))

theorem Dev.sl3Ready_iff (msOp : Nat) : d.sl3Ready msOp = true ↔
    (∀ k, k < 8 → stackOut d.faults k = true ∨ bit (d.g Reg.BRINGUP_STACK_READY) k = true) ∧
      (∀ r ∈ d.inRegions, bit (d.g Reg.BRINGUP_REGION_DONE) (r / 256) = true) ∧
      ((∀ p, p < 32 → d.phy p ≠ 2) ∨ d.rst.sl2At + ms 2000 ≤ max d.now (d.relAt + ms msOp)) := by
  unfold Dev.sl3Ready
  rw [Dev.passTo_now]
  simp only [Bool.and_eq_true, Bool.or_eq_true, List.all_eq_true, List.mem_range, decide_eq_true_eq, bne_iff_ne, and_assoc]

theorem Dev.sl3_off {msOp : Nat} (h : d.level ≠ 2 ∨ d.stopped = true ∨ d.sl3Ready msOp = false) : d.sl3 msOp = d := by
  unfold Dev.sl3
  refine if_pos ?_
  rcases h with hlevel | hstopped | hready
  · exact .inl hlevel
  · exact .inr (.inl hstopped)
  · unfold Dev.sl3Ready at hready
    simp only [Bool.and_eq_false_iff, or_assoc] at hready
    exact .inr (.inr (hready.imp (congrArg (! ·)) (.imp (congrArg (! ·)) (congrArg (! ·)))))

theorem Dev.sl3_facts {msOp : Nat} (hlevel : d.level = 2) (hstopped : d.stopped = false) (hready : d.sl3Ready msOp = true) :
    (d.sl3 msOp).atLevel 3 ∧ (d.sl3 msOp).g Reg.BRINGUP_FAIL_RUN = 0 := by
  have hgo : d.sl3 msOp = (((d.passTo (d.relAt + ms msOp)).p Reg.BRINGUP_T_SL3_MS (d.passTo (d.relAt + ms msOp)).sinceRelease).p
      Reg.BRINGUP_FAIL_RUN 0).levelReached 3 := by
    unfold Dev.sl3Ready at hready
    simp only [Bool.and_eq_true, and_assoc] at hready
    obtain ⟨htrained, hregions, hlinks⟩ := hready
    refine if_neg ?_
    rw [htrained, hregions, hlinks, hlevel, hstopped]
    decide
  rw [hgo]
  refine ⟨Dev.levelReached_atLevel (by decide), ?_⟩
  exact (Dev.g_raise_body _ _ _ _ _ _ (by decide)).trans ((Dev.g_p_ne (f := Reg.BRINGUP_LEVEL) (g := Reg.BRINGUP_FAIL_RUN) _ _ (by decide)).trans
    (Dev.g_p_same (f := Reg.BRINGUP_FAIL_RUN) _ 0 (by decide) (by decide)))

end

/-! ## What is retired stays named -/

/-- A block that the fault map names, or that is due for it. -/
def Dev.named (d : Dev) (y : Nat × Nat) : Prop := y ∈ d.faults ∨ y ∈ d.due

theorem Dev.named_congr {d e : Dev} {y : Nat × Nat} (h : (e.faults, e.due) = (d.faults, d.due)) : e.named y ↔ d.named y := by
  obtain ⟨hfaults, hdue⟩ := Prod.mk.inj h
  unfold Dev.named
  rw [hfaults, hdue]

theorem besideRegs_named : BesideRegs fun d => (d.faults, d.due) := ⟨fun _ _ _ _ _ => rfl, fun _ _ => rfl⟩

theorem Dev.recordFault_named (d : Dev) (x : Nat × Nat) :
    (d.recordFault x).due = d.due ∧ x ∈ (d.recordFault x).faults ∧ ∀ y ∈ d.faults, y ∈ (d.recordFault x).faults := by
  unfold Dev.recordFault
  split
  · next h => exact ⟨rfl, List.contains_iff_mem.1 h, fun _ hy => hy⟩
  · have hkept := foldl_keeps (fun d : Dev => (d.faults, d.due)) (fun d pg => Dev.setBs d pg Bs.retired) (fun d pg => besideRegs_named.setBs d pg _)
      (faultPages x) { d with faults := d.faults ++ [x] }
    obtain ⟨hfaults, hdue⟩ := Prod.mk.inj hkept
    rw [hfaults, hdue]
    exact ⟨rfl, List.mem_append_right _ List.mem_cons_self, fun _ hy => List.mem_append_left _ hy⟩

/-- A block of a retirement is recorded, and its event raised. -/
def Dev.recordRaised (f : List (Nat × Nat)) (d : Dev) (y : Nat × Nat) : Dev :=
  let d := d.recordFault y
  if y.1 = 1 then d.raise pgPlanRb 0x0707 8 Sev.warn y.2 else d.retireEvent f y

theorem Dev.recordRaised_named (f : List (Nat × Nat)) (d : Dev) (x : Nat × Nat) :
    (Dev.recordRaised f d x).due = d.due ∧ x ∈ (Dev.recordRaised f d x).faults ∧ ∀ y ∈ d.faults, y ∈ (Dev.recordRaised f d x).faults := by
  have hkept : ((Dev.recordRaised f d x).faults, (Dev.recordRaised f d x).due) = ((d.recordFault x).faults, (d.recordFault x).due) := by
    unfold Dev.recordRaised
    simp only
    split
    · exact besideRegs_named.raise _ _ _ _ _ _
    · exact besideRegs_named.retireEvent _ _ _
  obtain ⟨hfaults, hdue⟩ := Prod.mk.inj hkept
  rw [hfaults, hdue]
  exact d.recordFault_named x

theorem Dev.foldl_recordRaised_named (f xs : List (Nat × Nat)) (d : Dev) :
    (xs.foldl (Dev.recordRaised f) d).due = d.due ∧ (∀ y ∈ d.faults, y ∈ (xs.foldl (Dev.recordRaised f) d).faults) ∧
      ∀ x ∈ xs, x ∈ (xs.foldl (Dev.recordRaised f) d).faults := by
  induction xs generalizing d with
  | nil => exact ⟨rfl, fun _ hy => hy, fun _ hx => absurd hx List.not_mem_nil⟩
  | cons x xs ih =>
    obtain ⟨hdue, hfirst, hold⟩ := Dev.recordRaised_named f d x
    obtain ⟨hdue', hold', hrest⟩ := ih (Dev.recordRaised f d x)
    refine ⟨hdue'.trans hdue, fun y hy => hold' y (hold y hy), fun y hy => ?_⟩
    rcases List.mem_cons.1 hy with rfl | hy
    · exact hold' _ hfirst
    · exact hrest y hy

section
variable (d : Dev) (x : Nat × Nat)

theorem Dev.retire_eq : d.retire x =
    if d.faults.contains x ∨ d.due.contains x then d
    else if d.plan.live.isSome then
      if standbyTakes (closeFaults (d.faults ++ (d.due ++ [x]))) x then { d with due := d.due ++ [x] }
      else ({ d with due := d.due ++ [x] } : Dev).voteFail
    else (((closeFaults (d.faults ++ [x])).filter fun y => ! d.faults.contains y).foldl (Dev.recordRaised (closeFaults (d.faults ++ [x]))) d).emptyView :=
  rfl

theorem mem_closeFaults {f : List (Nat × Nat)} {y : Nat × Nat} (h : y ∈ f) : y ∈ closeFaults f :=
  List.mem_append_left _ (List.mem_append_left _ h)

theorem Dev.named_emptyView (e : Dev) {y : Nat × Nat} : e.emptyView.named y ↔ e.named y :=
  Dev.named_congr (BesideRegs.emptyView (p := fun d => (d.faults, d.due)) e besideRegs_named)

theorem Dev.retire_named : (d.retire x).named x ∧ ∀ y, d.named y → (d.retire x).named y := by
  rw [d.retire_eq]
  split
  · next h => exact ⟨h.imp List.contains_iff_mem.1 List.contains_iff_mem.1, fun _ hy => hy⟩
  · next hnew =>
    split
    · have hdue : ({ d with due := d.due ++ [x] } : Dev).named x ∧ ∀ y, d.named y → ({ d with due := d.due ++ [x] } : Dev).named y :=
        ⟨.inr (List.mem_append_right _ List.mem_cons_self), fun y hy => hy.imp_right (List.mem_append_left _)⟩
      split
      · exact hdue
      · have hvote := Dev.named_congr (besideRegs_named.voteFor (fun _ _ => rfl) { d with due := d.due ++ [x] } 3 true) (y := x)
        exact ⟨hvote.2 hdue.1, fun y hy =>
          (Dev.named_congr (besideRegs_named.voteFor (fun _ _ => rfl) { d with due := d.due ++ [x] } 3 true)).2 (hdue.2 y hy)⟩
    · obtain ⟨hdue, hold, hrest⟩ := Dev.foldl_recordRaised_named (closeFaults (d.faults ++ [x]))
        ((closeFaults (d.faults ++ [x])).filter fun y => ! d.faults.contains y) d
      refine ⟨(Dev.named_emptyView _).2 (.inl (hrest x (List.mem_filter.2 ⟨mem_closeFaults (List.mem_append_right _ List.mem_cons_self), ?_⟩))),
        fun y hy => (Dev.named_emptyView _).2 (hy.imp (hold y) fun hy => hdue ▸ hy)⟩
      simpa only [List.contains_eq_mem, Bool.not_eq_true', decide_eq_false_iff_not, decide_eq_true_eq] using (not_or.1 hnew).1

/-- While a plan is live a retirement is due at its next commit. -/
theorem BesideRegs.retire_live {β : Type} {p : Dev → β} (hp : BesideRegs p) (hdue : ∀ (d : Dev) y, p { d with due := y } = p d)
    (hstep : ∀ (d : Dev) y, p { d with step := y } = p d) (hlive : d.plan.live ≠ none) : p (d.retire x) = p d := by
  rw [d.retire_eq, if_pos (Option.isSome_iff_ne_none.2 hlive)]
  simp only [apply_ite p, Dev.voteFail, hp.voteFor hstep, hdue, ite_self]

/-! ## A takeover -/

theorem mem_insertBy {α : Type} (lt : α → α → Bool) {x y : α} {xs : List α} (h : y = x ∨ y ∈ xs) : y ∈ insertBy lt x xs := by
  induction xs with
  | nil => exact List.mem_singleton.2 (h.resolve_right List.not_mem_nil)
  | cons z zs ih =>
    unfold insertBy
    split
    · exact List.mem_cons.2 h
    · rcases h with rfl | h
      · exact List.mem_cons_of_mem _ (ih (.inl rfl))
      · rcases List.mem_cons.1 h with rfl | h
        · exact List.mem_cons_self
        · exact List.mem_cons_of_mem _ (ih (.inr h))

theorem mem_sortBy {α : Type} (lt : α → α → Bool) {y : α} {xs : List α} (h : y ∈ xs) : y ∈ sortBy lt xs := by
  induction xs with
  | nil => exact h
  | cons x xs ih => exact mem_insertBy lt ((List.mem_cons.1 h).imp_right ih)

/-- What is due is in the fault map that the next placement works with. -/
theorem Dev.mem_nextFaults {y : Nat × Nat} (h : d.named y) : y ∈ d.nextFaults := by
  refine mem_closeFaults (List.mem_append.2 ?_)
  by_cases hy : y ∈ d.faults
  · exact .inl hy
  · refine .inr (mem_sortBy _ (List.mem_filter.2 ⟨h.resolve_left hy, ?_⟩))
    simpa only [List.contains_eq_mem, Bool.not_eq_true', decide_eq_false_iff_not] using hy

theorem Dev.clearAll_faults : d.clearAll.faults = d.nextFaults := by
  have hp : BesideRegs Dev.faults := ⟨fun _ _ _ _ _ => rfl, fun _ _ => rfl⟩
  unfold Dev.clearAll
  refine (hp.leaseView (fun _ _ => rfl) _).trans ((foldl_keeps Dev.faults _ (fun e k => hp.set _ _ _ _ _) _ _).trans
    ((BesideRegs.emptyView _ hp).trans ?_))
  exact (foldl_keeps Dev.faults _ (fun e y => foldl_keeps Dev.faults _ (fun e pg => hp.setBs e pg _) _ _) _ _).trans rfl

section
variable {β : Type} {p : Dev → β} (hp : BesideRegs p) (hrst : ∀ (d : Dev) x, p { d with rst := x } = p d)
include hp

theorem BesideRegs.recordReset (src dom inst : Nat) : p (d.recordReset src dom inst) = p d :=
  (hp.set _ _ _ _ _).trans ((hp.set _ _ _ _ _).trans ((hp.set _ _ _ _ _).trans (hp.set _ _ _ _ _)))

include hrst

theorem BesideRegs.boot (hsec : ∀ (d : Dev) x, p { d with sec := x } = p d) : p d.boot = p d := by
  have hcheck (e : Dev) (k : Nat) : p (e.bootCheck k) = p e := hp.set _ _ _ _ _
  have henter (e : Dev) (k : Nat) (b : Bool) : p (e.enterSlot k b) = p e := by
    unfold Dev.enterSlot
    extract_lets m e1 e2 sec rst
    have h2 : p e2 = p e := (hp.set _ _ _ _ _).trans ((hp.set _ _ _ _ _).trans ((hp.set _ _ _ _ _).trans (hp.set _ _ _ _ _)))
    exact (hrst { e2 with sec := { e2.sec with entered := e2.sec.entered || b } } _).trans ((hsec e2 _).trans h2)
  unfold Dev.boot
  extract_lets asked pending first d1 sec d2 other d3 d4 rst
  have h2 : p d2 = p d := by
    refine (hsec d1 _).trans ?_
    unfold d1
    split
    · exact hp.set _ _ _ _ _
    · rfl
  have h3 : p d3 = p d := (hcheck _ _).trans h2
  have h4 : p d4 = p d := (hcheck _ _).trans h3
  split
  · exact (henter _ _ _).trans h3
  · split
    · exact (henter _ _ _).trans h4
    · exact (hrst d4 _).trans h4

theorem BesideRegs.tryRelease (hsec : ∀ (d : Dev) x, p { d with sec := x } = p d) (hrel : ∀ (d : Dev) x, p { d with relAt := x } = p d) :
    p d.tryRelease = p d := by
  unfold Dev.tryRelease
  extract_lets x d1 d2 rst
  have h1 : p d1 = p d := (hrel { d with rst := { x with held := false, sensed := true, runsTo := d.now + 66 } } d.now).trans (hrst d _)
  have h2 : p d2 = p d := by
    unfold d2
    split
    · exact h1
    · exact (BesideRegs.recordReset _ hp _ _ _).trans h1
  split
  · exact (BesideRegs.boot _ hp hrst hsec).trans ((hrst d2 _).trans h2)
  · rfl

end

theorem Dev.packageResetFrom_faults (src : Nat) : (d.packageResetFrom src).faults = (d.recordReset src 0 0).packageReset.faults :=
  BesideRegs.tryRelease (p := Dev.faults) _ ⟨fun _ _ _ _ _ => rfl, fun _ _ => rfl⟩ (fun _ _ => rfl) (fun _ _ => rfl) fun _ _ => rfl

theorem Dev.packageResetFrom_named (src : Nat) {y : Nat × Nat} (h : d.named y) : (d.packageResetFrom src).named y := by
  refine .inl ?_
  rw [d.packageResetFrom_faults]
  unfold Dev.packageReset
  extract_lets e
  rw [e.clearAll_faults]
  have he : (e.faults, e.due) = (d.faults, d.due) := by
    unfold e
    split
    · exact BesideRegs.recordReset _ besideRegs_named _ _ _
    · exact (besideRegs_named.set _ _ _ _ _).trans (BesideRegs.recordReset _ besideRegs_named _ _ _)
  exact e.mem_nextFaults ((Dev.named_congr he).2 h)

theorem besideGangs_named : BesideGangs fun d => (d.faults, d.due) :=
  { besideRegs_named with shadow := fun _ _ => rfl, pages := fun _ _ => rfl, clusters := fun _ _ => rfl }

theorem BesideGangs.groupDrop {β : Type} {p : Dev → β} (hp : BesideGangs p) (g reason : Nat) : p (d.groupDrop g reason) = p d := by
  have hmember (e : Dev) (x : Nat × Nat) : p (if (e.info x.2).group = some g then
      ((e.reloadShadow x.2).armStat x.2 St.discarded reason (e.hd Hdr.STAT_TAG x.2) 0).setInfo x.2 { e.info x.2 with group := none } else e) = p e := by
    split
    · exact (hp.pages _ _).trans ((hp.hw _ _ _ _).trans ((hp.hw _ _ _ _).trans ((hp.hw _ _ _ _).trans ((hp.hw _ _ _ _).trans (hp.shadow _ _)))))
    · rfl
  have hmembers : ∀ e : Dev, p ((e.members g).foldl _ e) = p e := fun e => foldl_keeps p _ hmember (e.members g) e
  exact (hp.wr _ _ _ _ _).trans ((hp.wr _ _ _ _ _).trans ((hp.wr _ _ _ _ _).trans ((hp.wr _ _ _ _ _).trans (hmembers d))))

/-- A takeover by the standby changes registers, event queues, armed groups, replies to the host, the vote, the minute's record, and may drop a draft. -/
theorem BesideGangs.takeover {β : Type} {p : Dev → β} (hp : BesideGangs p) (hhost : ∀ (d : Dev) x, p { d with host := x } = p d)
    (hout : ∀ (d : Dev) x, p { d with out := x } = p d) (hstep : ∀ (d : Dev) x, p { d with step := x } = p d)
    (hplan : ∀ (d : Dev) x, p { d with plan := x } = p d) (hsec : ∀ (d : Dev) x, p { d with sec := x } = p d) {src : Nat}
    (h : d.standbyReady = true) : p (d.takeover src) = p d := by
  have hmsg : BesideHost p := hp.toBesideRegs.host (fun d x _ => hhost d x) hout
  have hreplies (e : Dev) : p e.regTimeouts = p e :=
    foldl_keeps p _ (fun e c => (foldl_keeps p _ (fun e m => hmsg.queueMsg _ _ _ _) _ _).trans (hmsg.setChan _ _)) _ _
  have hlarder (e : Dev) : p e.larderLost = p e := by
    unfold Dev.larderLost
    split
    · rfl
    · exact (hp.wr _ _ _ _ _).trans (hplan _ _)
  have hgroups (e : Dev) (gs : List Nat) : p (gs.foldl (fun (d : Dev) g => d.groupDrop g Rs.reset) e) = p e :=
    foldl_keeps p _ (fun e g => hp.groupDrop e g _) _ _
  unfold Dev.takeover
  rw [if_neg (by rw [h]; decide)]
  simp only [hp.raise, Dev.bump, Dev.p, hp.wr]
  exact (hsec _ _).trans ((hlarder _).trans ((hp.voteFor hstep _ _ _).trans ((hreplies _).trans (hgroups _ _))))

theorem Dev.takeover_named (src : Nat) {y : Nat × Nat} (h : d.named y) : (d.takeover src).named y := by
  by_cases hready : d.standbyReady = true
  · exact (Dev.named_congr (besideGangs_named.takeover d
      (fun _ _ => rfl) (fun _ _ => rfl) (fun _ _ => rfl) (fun _ _ => rfl) (fun _ _ => rfl) hready)).2 h
  · unfold Dev.takeover
    rw [if_pos (by simpa only [Bool.not_eq_true, Bool.not_eq_true'] using hready)]
    exact d.packageResetFrom_named _ h

/-- Blocks that fail are named. -/
theorem Dev.failBlocks_named (xs : List (Nat × Nat)) (x : Nat × Nat) (h : x ∈ xs) : (d.failBlocks xs).named x := by
  have hretire (ys : List (Nat × Nat)) (e : Dev) : (∀ y, e.named y → (ys.foldl Dev.retire e).named y) ∧
      ∀ y ∈ ys, (ys.foldl Dev.retire e).named y := by
    induction ys generalizing e with
    | nil => exact ⟨fun _ hy => hy, fun _ hy => absurd hy List.not_mem_nil⟩
    | cons y ys ih =>
      obtain ⟨hold, hnew⟩ := ih (e.retire y)
      refine ⟨fun z hz => hold z ((e.retire_named y).2 z hz), fun z hz => ?_⟩
      rcases List.mem_cons.1 hz with rfl | hz
      · exact hold _ (e.retire_named _).1
      · exact hnew z hz
  have hx := (hretire xs d).2 x h
  unfold Dev.failBlocks Dev.managerLost
  extract_lets die
  split
  · exact Dev.takeover_named _ _ hx
  · exact hx

theorem Dev.failBlocks_nil : d.failBlocks [] = d := Dev.managerLost_of_faults (d := d) (e := d) rfl

end

/-! ## Self-tests and trainings -/

section
variable (d : Dev)

theorem BesideRegs.testEnded {β : Type} {p : Dev → β} (hp : BesideRegs p) (hrst : ∀ (d : Dev) x, p { d with rst := x } = p d) (x : Nat × Nat) :
    p (d.testEnded x) = p d :=
  (foldl_keeps p _ (fun e b => hp.raise e _ _ _ _ _) _ _).trans (hrst d _)

theorem Dev.rd_testEnded {g : Field} (x : Nat × Nat) (inst : Nat) (hg : inBody g = true) : (d.testEnded x).rd g inst = d.rd g inst :=
  (foldl_keeps (fun d : Dev => d.rd g inst) _ (fun e b => e.rd_raise_body _ _ _ _ _ _ hg) _ _).trans rfl

theorem Dev.testEnded_event (x : Nat × Nat) {pg k : Nat} (hk : k < 16) (h : bit (d.hd Hdr.EVT_BLOCK pg) k = true) :
    bit ((d.testEnded x).hd Hdr.EVT_BLOCK pg) k = true := by
  unfold Dev.testEnded
  extract_lets bs rst e
  have he : bit (e.hd Hdr.EVT_BLOCK pg) k = true := h
  clear_value e
  generalize (bs.filter fun b => b.left.isEmpty) = xs
  induction xs generalizing e with
  | nil => exact he
  | cons b xs ih => exact ih _ (e.raise_event_kept _ _ _ (by decide) hk he)

/-- What a self-test that is due leaves, once the resets of its pages have run out. -/
def Dev.selfTested (d : Dev) (level inst : Nat) (bad : List (Nat × Nat)) : Dev :=
  let d := d.failBlocks bad
  if d.rst.held ∨ d.level = 0 then d
  else
    let d := d.enable ((scopePages level inst).filter fun pg => ! (bad.flatMap faultPages).contains pg)
    let d := if level = 3 then d.p Reg.BRINGUP_REGION_DONE (setBit (d.g Reg.BRINGUP_REGION_DONE) (inst / 256)) else d
    d.testEnded (level, inst)

/-- Of the blocks that a self-test fails, those of its scope. -/
def scopeFails (level inst : Nat) (failed : List (Nat × Nat)) : List (Nat × Nat) :=
  failed.filter fun x => decide (1 ≤ x.1 ∧ x.1 ≤ level) &&
    (match (faultPages x).head? with | some t => (scopePages level inst).contains t | none => false)

theorem Dev.selfTest_eq (level inst : Nat) (failed : List (Nat × Nat)) : d.selfTest level inst failed =
    if ! (d.endOfResets (scopePages level inst)).testDue level inst then d
    else (d.endOfResets (scopePages level inst)).selfTested level inst (scopeFails level inst failed) := rfl

theorem faultPages_ne_nil (x : Nat × Nat) : faultPages x ≠ [] := by
  obtain ⟨l, i⟩ := x
  unfold faultPages
  split
  · exact List.cons_ne_nil _ _
  · exact List.cons_ne_nil _ _
  · exact List.cons_ne_nil _ _
  · exact List.cons_ne_nil _ _
  · exact List.cons_ne_nil _ _

theorem mem_scopeFails {level inst : Nat} {failed : List (Nat × Nat)} {x : Nat × Nat} (hx : x ∈ failed) (hlo : 1 ≤ x.1) (hhi : x.1 ≤ level)
    (htop : (faultPages x).headD 0 ∈ scopePages level inst) : x ∈ scopeFails level inst failed := by
  refine List.mem_filter.2 ⟨hx, ?_⟩
  rw [decide_eq_true ⟨hlo, hhi⟩, Bool.true_and]
  cases hpages : faultPages x with
  | nil => exact absurd hpages (faultPages_ne_nil x)
  | cons pg pgs =>
    rw [hpages] at htop
    exact List.contains_iff_mem.2 htop

theorem BesideRegs.selfTested {β : Type} {p : Dev → β} (hp : BesideRegs p) (hrst : ∀ (d : Dev) x, p { d with rst := x } = p d) (level inst : Nat)
    (bad : List (Nat × Nat)) : p (d.selfTested level inst bad) = p (d.failBlocks bad) := by
  unfold Dev.selfTested
  extract_lets e1 e2 e3
  split
  · rfl
  · have h3 : p e3 = p e2 := by
      unfold e3
      split
      · exact hp.set _ _ _ _ _
      · rfl
    exact (BesideRegs.testEnded _ hp hrst _).trans (h3.trans (hp.enabling.enable _ _))

theorem Dev.selfTested_done {inst : Nat} (hinst : inst < 4096) (hheld : d.rst.held = false) (hlevel : d.level ≠ 0) :
    bit ((d.selfTested 3 inst []).g Reg.BRINGUP_REGION_DONE) (inst / 256) = true := by
  unfold Dev.selfTested
  rw [d.failBlocks_nil]
  simp only
  rw [if_neg (not_or.2 ⟨by rw [hheld]; decide, hlevel⟩), if_pos trivial]
  refine (congrArg (bit · (inst / 256)) (Dev.rd_testEnded _ _ _ (by decide))).trans ?_
  refine (congrArg (bit · (inst / 256)) (Dev.g_p_same (f := Reg.BRINGUP_REGION_DONE) _ _ (by decide) (by decide))).trans (bit_setBit_mod ?_)
  show inst / 256 < 16
  omega

theorem Dev.endOfResets_keeps {β : Type} {p : Dev → β} (hp : BesideRegs p) (hresetting : ∀ (d : Dev) x, p { d with resetting := x } = p d)
    (hrst : ∀ (d : Dev) x, p { d with rst := x } = p d) (hnow : ∀ (d : Dev) x, p { d with now := x } = p d) (pgs : List Nat) :
    p (d.endOfResets pgs) = p d := hp.passTo hresetting hrst hnow d _

/-- Resets that run out leave the package in or out of reset. -/
theorem Dev.endOfResets_held (pgs : List Nat) : (d.endOfResets pgs).rst.held = d.rst.held := by
  have hp : BesideRegs fun d : Dev => d.rst.held := ⟨fun _ _ _ _ _ => rfl, fun _ _ => rfl⟩
  have hend (e : Dev) : e.endResets.rst.held = e.rst.held := by
    have hreset (e : Dev) (x : Nat × Nat × Bool) : (e.endReset x).rst.held = e.rst.held := by
      unfold Dev.endReset
      simp only [apply_ite (fun d : Dev => d.rst.held), hp.raise, hp.setBs, ite_self]
    unfold Dev.endResets
    extract_lets due
    split
    · rfl
    · refine (foldl_keeps (fun d : Dev => d.rst.held) _ (fun e b => hp.raise e _ _ _ _ _) _ _).trans ?_
      exact (foldl_keeps (fun d : Dev => d.rst.held) _ hreset due _).trans rfl
  unfold Dev.endOfResets Dev.passTo
  split
  · rfl
  · refine (hend _).trans ?_
    split
    · rfl
    · rfl

theorem Dev.testDue_level {level inst : Nat} (h : d.testDue level inst = true) : d.level ≠ 0 := by
  unfold Dev.testDue at h
  simp only [Bool.and_eq_true, decide_eq_true_eq] at h
  omega

/-- A stack that a training has made ready, before its blocks are enabled. -/
def Dev.trained (d : Dev) (k : Nat) : Dev :=
  ((d.endOfResets (ioPages 5 (hbmInst k))).wr Reg.HBM_CTL_STATE (hbmInst k) 2).p Reg.BRINGUP_STACK_READY (setBit (d.g Reg.BRINGUP_STACK_READY) k)

/-- A stack whose third training has failed, before it is retired. -/
def Dev.trainingFailed (d : Dev) (k : Nat) : Dev :=
  let d := d.setRst { d.rst with tries := SMap.put d.rst.tries k (SMap.at d.rst.tries k 0 + 1) }
  let d := (d.wr Reg.HBM_CTL_STATE (hbmInst k) 3).p Reg.BRINGUP_STACK_FAILED (setBit (d.g Reg.BRINGUP_STACK_FAILED) k)
  d.raise pgBringup 0x0F08 12 Sev.error k

section
variable {k : Nat} (h : d.rd Reg.HBM_CTL_STATE (hbmInst k) = 1)
include h

theorem Dev.hbmTrain_trained : d.hbmTrain k true = ((d.trained k).enable (ioPages 5 (hbmInst k))).testEnded (5, k) := if_neg fun hne => hne h

theorem Dev.hbmTrain_again (htries : SMap.at d.rst.tries k 0 < 2) :
    d.hbmTrain k false = d.setRst { d.rst with tries := SMap.put d.rst.tries k (SMap.at d.rst.tries k 0 + 1) } := by
  unfold Dev.hbmTrain
  simp only
  rw [if_neg fun hne => hne h, if_neg Bool.false_ne_true]
  exact if_pos (by omega)

theorem Dev.hbmTrain_failed (htries : 2 ≤ SMap.at d.rst.tries k 0) : d.hbmTrain k false =
    let e := (d.trainingFailed k).failBlocks [(5, k)]
    if e.rst.held ∨ e.level = 0 then e else e.testEnded (5, k) := by
  unfold Dev.hbmTrain Dev.trainingFailed
  simp only
  rw [if_neg fun hne => hne h, if_neg Bool.false_ne_true]
  exact if_neg (by omega)

/-- A training that has ended well. -/
theorem Dev.hbmTrain_ready (hk : k < 8) : (d.hbmTrain k true).rd Reg.HBM_CTL_STATE (hbmInst k) = 2 ∧
    bit ((d.hbmTrain k true).g Reg.BRINGUP_STACK_READY) k = true ∧ (d.hbmTrain k true).writes = d.writes := by
  have hinst : hbmInst k < 4096 := by
    unfold hbmInst
    omega
  rw [d.hbmTrain_trained h]
  refine ⟨?_, ?_, ?_⟩
  · refine (Dev.rd_testEnded _ _ _ (by decide)).trans (((besideEnable_rd (by decide) hinst (by decide) (by decide)).enable _ _).trans ?_)
    exact (Dev.rd_wr_fields (f := Reg.BRINGUP_STACK_READY) (g := Reg.HBM_CTL_STATE) _ _ (by decide) (by decide) hinst).trans
      (Dev.rd_wr_same (f := Reg.HBM_CTL_STATE) _ _ 2 (by decide) (by decide))
  · refine (congrArg (bit · k) ((Dev.rd_testEnded _ _ 0 (by decide)).trans
      ((besideEnable_rd (g := Reg.BRINGUP_STACK_READY) (by decide) (by decide) (by decide) (by decide)).enable _ _))).trans ?_
    exact (congrArg (bit · k) (Dev.g_p_same (f := Reg.BRINGUP_STACK_READY) _ _ (by decide) (by decide))).trans (bit_setBit_mod hk)
  · have hp : BesideRegs Dev.writes := ⟨fun _ _ _ _ _ => rfl, fun _ _ => rfl⟩
    refine (BesideRegs.testEnded _ hp (fun _ _ => rfl) _).trans ((hp.enabling.enable _ _).trans ((hp.set _ _ _ _ _).trans ((hp.set _ _ _ _ _).trans ?_)))
    exact d.endOfResets_keeps hp (fun _ _ => rfl) (fun _ _ => rfl) (fun _ _ => rfl) _

/-- A stack whose third training has failed is named by the fault map, or due for it. -/
theorem Dev.hbmTrain_named (htries : 2 ≤ SMap.at d.rst.tries k 0) : (d.hbmTrain k false).named (5, k) := by
  have hnamed := (d.trainingFailed k).failBlocks_named [(5, k)] (5, k) List.mem_cons_self
  rw [d.hbmTrain_failed h htries]
  generalize (d.trainingFailed k).failBlocks [(5, k)] = e at hnamed ⊢
  simp only
  split
  · exact hnamed
  · exact (Dev.named_congr (BesideRegs.testEnded (p := fun d => (d.faults, d.due)) e besideRegs_named (fun _ _ => rfl) (5, k))).2 hnamed

end

theorem Dev.trainingFailed_facts {k : Nat} (hk : k < 8) : (d.trainingFailed k).rd Reg.HBM_CTL_STATE (hbmInst k) = 3 ∧
    bit ((d.trainingFailed k).g Reg.BRINGUP_STACK_FAILED) k = true ∧ bit ((d.trainingFailed k).hd Hdr.EVT_BLOCK pgBringup) 4 = true ∧
    (d.trainingFailed k).writes = d.writes ∧ (d.trainingFailed k).plan = d.plan := by
  have hinst : hbmInst k < 4096 := by
    unfold hbmInst
    omega
  refine ⟨?_, ?_, Dev.raise_block_bit _ (pos := 12) _ _ _ (by decide) (by decide), Dev.raise_writes .., Dev.raise_plan ..⟩
  · refine (Dev.rd_raise_body _ _ _ _ _ _ _ (by decide)).trans ?_
    exact (Dev.rd_wr_fields (f := Reg.BRINGUP_STACK_FAILED) (g := Reg.HBM_CTL_STATE) _ _ (by decide) (by decide) hinst).trans
      (Dev.rd_wr_same (f := Reg.HBM_CTL_STATE) _ _ 3 (by decide) (by decide))
  · refine (congrArg (bit · k) (Dev.g_raise_body _ _ _ _ _ _ (by decide))).trans ?_
    exact (congrArg (bit · k) (Dev.g_p_same (f := Reg.BRINGUP_STACK_FAILED) _ _ (by decide) (by decide))).trans (bit_setBit_mod hk)

/-- While a plan is live the failing of one block is its retirement, which changes what is due and the vote. -/
theorem Dev.failBlocks_live (x : Nat × Nat) (hlive : d.plan.live ≠ none) : d.failBlocks [x] = d.retire x :=
  Dev.managerLost_of_faults (BesideRegs.retire_live (p := Dev.faults) d x
    ⟨fun _ _ _ _ _ => rfl, fun _ _ => rfl⟩ (fun _ _ => rfl) (fun _ _ => rfl) hlive)

theorem Dev.retire_live_keeps {β : Type} {p : Dev → β} (x : Nat × Nat) (hdue : ∀ (d : Dev) y, p { d with due := y } = p d)
    (hvote : ∀ (d : Dev), p d.voteFail = p d) (hlive : d.plan.live ≠ none) : p (d.retire x) = p d := by
  rw [d.retire_eq, if_pos (Option.isSome_iff_ne_none.2 hlive)]
  simp only [apply_ite p, hvote, hdue, ite_self]

theorem Dev.hbmTrain_retired {k : Nat} (hk : k < 8) (h : d.rd Reg.HBM_CTL_STATE (hbmInst k) = 1) (htries : 2 ≤ SMap.at d.rst.tries k 0)
    (hlive : d.plan.live ≠ none) : (d.hbmTrain k false).writes = d.writes ∧ (d.hbmTrain k false).rd Reg.HBM_CTL_STATE (hbmInst k) = 3 ∧
      bit ((d.hbmTrain k false).g Reg.BRINGUP_STACK_FAILED) k = true ∧ bit ((d.hbmTrain k false).hd Hdr.EVT_BLOCK pgBringup) 4 = true := by
  obtain ⟨hstate, hfailed, hevent, hwrites, hplan⟩ := d.trainingFailed_facts hk
  have hlive' : (d.trainingFailed k).plan.live ≠ none := hplan ▸ hlive
  rw [d.hbmTrain_failed h htries, Dev.failBlocks_live _ _ hlive']
  generalize d.trainingFailed k = e at hstate hfailed hevent hwrites hlive'
  have hpg : Reg.HBM_CTL_STATE.pg (hbmInst k) ≠ pageNum 8 0 2 := by
    unfold Field.pg pageNum hbmInst Reg.HBM_CTL_STATE
    dsimp only
    omega
  have hwr : (e.retire (5, k)).writes = d.writes :=
    (Dev.retire_live_keeps (p := Dev.writes) e _ (fun _ _ => rfl) (fun d => BesideRegs.voteFor (p := Dev.writes)
      ⟨fun _ _ _ _ _ => rfl, fun _ _ => rfl⟩ (fun _ _ => rfl) d 3 true) hlive').trans hwrites
  have hst : (e.retire (5, k)).rd Reg.HBM_CTL_STATE (hbmInst k) = 3 :=
    (Dev.retire_live_keeps (p := fun d => d.rd Reg.HBM_CTL_STATE (hbmInst k)) e _ (fun _ _ => rfl)
      (fun d => d.rd_voteFor 3 true _ (by decide) hpg) hlive').trans hstate
  have hfl : (e.retire (5, k)).g Reg.BRINGUP_STACK_FAILED = e.g Reg.BRINGUP_STACK_FAILED :=
    Dev.retire_live_keeps (p := fun d => d.g Reg.BRINGUP_STACK_FAILED) e _ (fun _ _ => rfl)
      (fun d => d.rd_voteFor 3 true 0 (by decide) (by decide)) hlive'
  have hev : (e.retire (5, k)).hd Hdr.EVT_BLOCK pgBringup = e.hd Hdr.EVT_BLOCK pgBringup :=
    Dev.retire_live_keeps (p := fun d => d.hd Hdr.EVT_BLOCK pgBringup) e _ (fun _ _ => rfl) (fun d => d.hd_voteFor 3 true pgBringup) hlive'
  rw [← hfl] at hfailed
  rw [← hev] at hevent
  generalize e.retire (5, k) = f at hwr hst hfailed hevent
  simp only
  split
  · exact ⟨hwr, hst, hfailed, hevent⟩
  · refine ⟨?_, ?_, ?_, f.testEnded_event _ (by decide) hevent⟩
    · exact (BesideRegs.testEnded (p := Dev.writes) f ⟨fun _ _ _ _ _ => rfl, fun _ _ => rfl⟩ (fun _ _ => rfl) _).trans hwr
    · exact (f.rd_testEnded _ _ (by decide)).trans hst
    · exact (congrArg (bit · k) (f.rd_testEnded _ 0 (by decide))).trans hfailed

end

/-! ## The selvedge and the test port -/

section
variable {d : Dev} {e dst dest crc : Nat} {back : Bool} {b : List Byte}

theorem Dev.selvedge_off (h : d.rst.held = true ∨ d.rst.edges.contains e = true ∨ ¬ d.edgeAhead (edgeFrom e back) dst = (e, back)) :
    d.selvedge e back dst dest b crc = d := if_pos h

section
variable (hheld : d.rst.held = false) (hedge : d.rst.edges.contains e = false) (hway : d.edgeAhead (edgeFrom e back) dst = (e, back))
include hheld hedge hway

theorem Dev.selvedge_on : ¬ (d.rst.held = true ∨ d.rst.edges.contains e = true ∨ d.edgeAhead (edgeFrom e back) dst ≠ (e, back)) := by
  rw [hheld, hedge, hway]
  simp only [Bool.false_eq_true, ne_eq, not_true_eq_false, or_self, not_false_eq_true]

theorem Dev.selvedge_bad (hbad : b.length ≠ 4096 ∨ crc32 b ≠ crc) : d.selvedge e back dst dest b crc =
    let k := resendKey e back dst dest
    let n := SMap.at d.rst.resends k 0
    if d.edgeSuspended e then d
    else if 3 ≤ n then (d.setRst { d.rst with resends := SMap.del d.rst.resends k }).edgeFails e
    else (d.setRst { d.rst with resends := SMap.put d.rst.resends k (n + 1) }).send (.selvedgeResend e back dst dest) :=
  (if_neg (Dev.selvedge_on hheld hedge hway)).trans (if_pos hbad)

theorem Dev.selvedge_sound (hlen : b.length = 4096) (hcrc : crc32 b = crc) : d.selvedge e back dst dest b crc =
    let kept := d.setRst { d.rst with resends := SMap.del d.rst.resends (resendKey e back dst dest) }
    if dst = edgeTo e back then (if placeIn dst dest 4096 then kept.poke dest b else kept)
    else
      let x := kept.edgeAhead (edgeTo e back) dst
      kept.send (.selvedge x.1 x.2 dst dest b) :=
  (if_neg (Dev.selvedge_on hheld hedge hway)).trans (if_neg fun h => h.elim (fun h => h hlen) fun h => h hcrc)

end

end

/-- Settles O60: the levels, the tests and trainings, the fault map, the selvedge and the test port, each by its cases. -/
theorem bringUpAndSelvedge : Obligations.BringUpAndSelvedge := by
  have hstore {c : Instr} {s : State} {f e : Dev} (hexec : exec c s = s.endsStore f) (h : f = e) (hw : e.writes = []) : exec c s = s.ends e :=
    (hexec.trans (congrArg s.endsStore h)).trans (endsStore_ends s e hw)
  refine ⟨fun s => ?bringup, fun s => ?selvedge⟩
  case bringup =>
    intro d
    refine ⟨fun m f0 f1 f2 => ?sl1, fun m => ?levels, fun r hacc => ⟨fun v => ?stopAt, action_ok s r _ _ _ hacc⟩,
      fun l i xs => ?tests, fun q => ?trains, fun xs auth => ?clears⟩
    case sl1 =>
      refine ⟨fun h => congrArg s.ends (if_pos (h.imp id (.imp_left (congrArg (! ·))))), fun hheld hbooted hlevel => ?_⟩
      obtain ⟨hat, htimer, hnow, hstrap, hfaults⟩ := d.sl1_facts (msOp := m.toNat) (f0 := f0.toNat) (f1 := f1.toNat) (f2 := f2.toNat)
        hheld hbooted hlevel
      have hexec : exec (.bringupSl1 m f0 f1 f2) s = s.ends (d.sl1 m.toNat f0.toNat f1.toNat f2.toNat) := rfl
      have hfeed : feedSel f0.toNat f1.toNat f2.toNat = if f0 = f1 ∧ f1 = f2 then f0.toNat else 63 := by
        unfold feedSel
        simp only [BitVec.toNat_inj]
      rw [hfeed] at hstrap
      generalize d.sl1 m.toNat f0.toNat f1.toNat f2.toNat = e at hexec hat htimer hnow hstrap hfaults
      exact ⟨s.after e, ends_next hexec, s.after_mem _, s.after_pending _, hat.1, htimer, hnow, hstrap, hfaults, hat.2⟩
    case levels =>
      intro tested ready
      have htested : tested ↔ d.sl2Ready = true := d.sl2Ready_iff.symm
      have hready : ready ↔ d.sl3Ready m.toNat = true := (d.sl3Ready_iff m.toNat).symm
      rw [htested, hready]
      have hnot (h : ¬ d.sl2Ready = true) : (! d.sl2Ready) = true := congrArg (! ·) ((Bool.not_eq_true _).mp h)
      refine ⟨fun h => congrArg s.ends (if_pos (h.imp id (.imp_right hnot))), fun hlevel hstopped h => ?_,
        fun h => congrArg s.ends (d.sl3_off (h.imp id (.imp_right (Bool.not_eq_true _).mp))), fun hlevel hstopped h => ?_⟩
      · obtain ⟨hat, hnow, hat2⟩ := d.sl2_facts (msOp := m.toNat) hlevel hstopped h
        have hexec : exec (.bringupSl2 m) s = s.ends (d.sl2 m.toNat) := rfl
        generalize d.sl2 m.toNat = e at hexec hat hnow hat2
        exact ⟨s.after e, ends_next hexec, s.after_mem _, s.after_pending _, hat.1, hnow, hat2, hat.2⟩
      · obtain ⟨hat, hrun⟩ := d.sl3_facts hlevel hstopped h
        have hexec : exec (.bringupSl3 m) s = s.ends (d.sl3 m.toNat) := rfl
        generalize d.sl3 m.toNat = e at hexec hat hrun
        exact ⟨s.after e, ends_next hexec, s.after_mem _, s.after_pending _, hat.1, hrun, hat.2⟩
    case stopAt =>
      intro e stops
      have hv1 : v = 1 ↔ v.toNat = 1 := BitVec.toNat_inj.symm
      have hv3 : v ≠ 3 ↔ v.toNat ≠ 3 := not_congr BitVec.toNat_inj.symm
      have hstops : stops ↔ (d.level = 1 ∧ v.toNat = 1) ∨ (d.level = 2 ∧ v.toNat ≠ 3) := or_congr (and_congr_right' hv1) (and_congr_right' hv3)
      have hrange (hv : v ≠ 0) : v.toNat ≠ 0 ∧ v.toNat < 4 := ⟨fun h => hv (BitVec.eq_of_toNat_eq h), v.isLt⟩
      have hexec := action_ok s r pgBringup 0x080 (Dev.stopAt v.toNat) hacc
      refine ⟨fun hv => ?_, fun hv h => ?_, fun hv hstopped h => ?_⟩
      · subst hv
        exact hexec
      · exact hexec.trans (congrArg (fun x : Nat × Dev => s.ends (x.2.done x.1)) (d.stopAt_goes (hrange hv) (h.imp_right (mt hstops.2))))
      · exact hexec.trans (congrArg (fun x : Nat × Dev => s.ends (x.2.done x.1)) (d.stopAt_stops (hrange hv) hstopped (hstops.1 h)))
    case tests =>
      intro e
      have hexec : exec (.selfTestDone l i xs) s = s.endsStore (d.selfTest l.toNat i.toNat (xs.map fun x => (x.1.toNat, x.2.toNat))) := rfl
      refine ⟨fun hdue => hstore hexec ((d.selfTest_eq _ _ _).trans (if_pos (congrArg (! ·) hdue))) rfl, fun hdue hheld => ?_⟩
      have hgo : d.selfTest l.toNat i.toNat (xs.map fun x => (x.1.toNat, x.2.toNat)) =
          e.selfTested l.toNat i.toNat (scopeFails l.toNat i.toNat (xs.map fun x => (x.1.toNat, x.2.toNat))) :=
        (d.selfTest_eq _ _ _).trans (if_neg fun h => by rw [hdue] at h; cases h)
      rw [hgo] at hexec
      refine ⟨_, hexec, rfl, fun x hx hlo hhi htop => ?_, fun hxs => ?_⟩
      · have hfails := mem_scopeFails (List.mem_map_of_mem (f := fun x : BitVec 2 × BitVec 12 => (x.1.toNat, x.2.toNat)) hx) hlo hhi htop
        have hkept := BesideRegs.selfTested (p := fun d => (d.faults, d.due)) e besideRegs_named (fun _ _ => rfl) l.toNat i.toNat
          (scopeFails l.toNat i.toNat (xs.map fun x => (x.1.toNat, x.2.toNat)))
        exact (Dev.named_congr hkept).2 (e.failBlocks_named _ _ hfails)
      · subst hxs
        have hkept {β : Type} {p : Dev → β} (hp : BesideRegs p) (hrst : ∀ (d : Dev) x, p { d with rst := x } = p d)
            (hresetting : ∀ (d : Dev) x, p { d with resetting := x } = p d) (hnow : ∀ (d : Dev) x, p { d with now := x } = p d) :
            p (e.selfTested l.toNat i.toNat []) = p d :=
          (BesideRegs.selfTested e hp hrst _ _ _).trans ((congrArg p e.failBlocks_nil).trans (d.endOfResets_keeps hp hresetting hrst hnow _))
        refine ⟨?_, ?_, fun hl => ?_⟩
        · exact congrArg (Mem.apply s.mem) (hkept (p := Dev.writes)
            ⟨fun _ _ _ _ _ => rfl, fun _ _ => rfl⟩ (fun _ _ => rfl) (fun _ _ => rfl) fun _ _ => rfl)
        · exact hkept (p := Dev.faults) ⟨fun _ _ _ _ _ => rfl, fun _ _ => rfl⟩ (fun _ _ => rfl) (fun _ _ => rfl) fun _ _ => rfl
        · subst hl
          exact e.selfTested_done i.isLt ((d.endOfResets_held _).trans hheld) (e.testDue_level hdue)
    case trains =>
      intro k i
      have hk : k < 8 := q.isLt
      have hexec (ok : Bool) : exec (.hbmTrainDone q ok) s = s.endsStore (d.hbmTrain k ok) := rfl
      refine ⟨fun hne ok => hstore (hexec ok) (if_pos hne) rfl, fun htraining => ⟨?_, fun htries =>
        hstore (hexec false) (d.hbmTrain_again htraining htries) rfl, fun htries => ?_⟩⟩
      · obtain ⟨hstate, hready, hwrites⟩ := d.hbmTrain_ready htraining hk
        have hexec := hexec true
        generalize d.hbmTrain k true = e at hexec hstate hready hwrites
        exact ⟨_, hexec, congrArg (Mem.apply s.mem) hwrites, rfl, hstate, hready⟩
      · have hnamed := d.hbmTrain_named htraining htries
        have hretired := d.hbmTrain_retired hk htraining htries
        have hexec := hexec false
        generalize d.hbmTrain k false = e at hexec hnamed hretired
        refine ⟨_, hexec, rfl, hnamed, fun hlive => ?_⟩
        obtain ⟨hwrites, hstate, hfailed, hevent⟩ := hretired hlive
        exact ⟨congrArg (Mem.apply s.mem) hwrites, hstate, hfailed, hevent⟩
    case clears =>
      refine ⟨fun h => congrArg s.ends (if_pos (h.imp_left (congrArg (! ·)))), fun hauth hheld => ?_⟩
      have hfaults := d.faultMapClear_faults (xs.map fun x => (x.1.toNat, x.2.toNat)) hauth hheld
      exact ⟨s.after _, ends_next rfl, s.after_mem _, s.after_pending _, hfaults⟩
  case selvedge =>
    intro d
    refine ⟨fun e back dst dest b c => ?receives, rfl, rfl, fun x hx => ?_⟩
    case receives =>
      intro k n here kept run way
      have hexec : run = s.endsStore (d.selvedge e.toNat back dst.toNat dest.toNat b c.toNat) := rfl
      have hstore' {f : Dev} (h : d.selvedge e.toNat back dst.toNat dest.toNat b c.toNat = f) (hw : f.writes = []) : run = s.ends f :=
        (hexec.trans (congrArg s.endsStore h)).trans (endsStore_ends s f hw)
      refine ⟨fun h => hstore' (Dev.selvedge_off h) rfl, fun hheld hedge hway => ⟨fun hbad hsusp => ?_, fun hbad hsusp hn => ?_,
        fun hbad hsusp hn => ?_, fun hlen hcrc hdst => ?_, fun hlen hcrc hdst => ?_⟩⟩
      · exact hstore' ((Dev.selvedge_bad hheld hedge hway hbad).trans (if_pos hsusp)) rfl
      · exact hstore' ((Dev.selvedge_bad hheld hedge hway hbad).trans ((if_neg (by rw [hsusp]; decide)).trans (if_neg (Nat.not_le_of_lt hn)))) rfl
      · exact hexec.trans (congrArg s.endsStore ((Dev.selvedge_bad hheld hedge hway hbad).trans ((if_neg (by rw [hsusp]; decide)).trans (if_pos hn))))
      · exact hexec.trans (congrArg s.endsStore ((Dev.selvedge_sound hheld hedge hway hlen hcrc).trans (if_pos hdst)))
      · exact hstore' ((Dev.selvedge_sound hheld hedge hway hlen hcrc).trans (if_neg hdst)) rfl
    · simp only [List.mem_cons, List.not_mem_nil, or_false] at hx
      rcases hx with rfl | rfl
      · exact ⟨_, _, rfl, rfl, rfl, rfl, rfl, rfl⟩
      · exact ⟨_, _, rfl, rfl, rfl, rfl, rfl, rfl⟩

end Sys2Proof.Machine
